-- ==== Sys2Proof/Word.lean ====
section
/-! DEFINITION. The word types of the F9 and their plainest arithmetic. -/

namespace Sys2Proof

/-- A 64-bit register value. -/
abbrev Word := BitVec 64

/-- A byte of memory. -/
abbrev Byte := BitVec 8

/-- The bits of a 60-bit slot word (03 R70). -/
abbrev SlotWord := BitVec 60

/-- A sparse table: keys rise strictly, and an absent key reads as the default its reader names. -/
abbrev NMap (α : Type) := List (Nat × α)

/-- A byte memory in one canonical form: addresses rise strictly and no listed byte is 0, which is what an
unlisted address reads as (DESIGN CHOICE, log entry 5). -/
abbrev Mem := List Host.Cell

/-- Bit `i` of a natural number. -/
def natBit (n i : Nat) : Bool := n / 2 ^ i % 2 == 1

/-- Bits `lo` to `lo + len - 1` of a natural number. -/
def natBits (n lo len : Nat) : Nat := n / 2 ^ lo % 2 ^ len

end Sys2Proof
end

