-- ==== Sys2Proof/Config.lean ====
section
/-! DEFINITION. The values that the spec leaves open and an implementation fixes: free values with no body, so that
nothing can be proved of a particular one. -/

namespace Sys2Proof

/-- A byte of device or host memory, or of any place, that the spec leaves open at a point in time; indexed by the
counter `State.free` (log entry 2). -/
opaque Config.freeByte : Nat → BitVec 8

/-- A 64-bit value that the spec leaves open; indexed by `State.free` (log entry 2). -/
opaque Config.freeWord : Nat → BitVec 64

/-- A choice that the spec leaves open; indexed by `State.free` (log entry 2). -/
opaque Config.freeBool : Nat → Bool

/-- The step, of the 16 in which an array reads a group, in which it reads a line of its pool: by the command, the group and the line
(13 R303; log entry 33). -/
opaque Config.operandStep : Nat → Nat → Nat → Nat

/-- The command word (an imm26) that a csend block gives to an engine other than a copy sequencer: the spec gives no layout of such a
block (04 R89; log entry 34). By the engine and the block. -/
opaque Config.blockImm : Nat → List (BitVec 64) → Nat

/-- What such a block makes of a register of the command's active set: by the engine, the block, the register, and its value in the
shadow set (log entry 34). -/
opaque Config.blockReg : Nat → List (BitVec 64) → Nat → BitVec 64 → BitVec 64

/-- A magnitude of an elementary function whose rounding more than 2,048 bits of precision do not decide: indexed by the
bits of the argument (log entry 9). -/
opaque Config.freeMag : Nat → Nat

/-- The 512-bit signature and the digests of an attestation quote (20 R465), by word and by the words signed
(log entry 10). -/
opaque Config.quoteWord : Nat → List (BitVec 64) → BitVec 64

end Sys2Proof
end

