-- ==== Sys2Proof/Machine/Maps.lean ====
section
/-! DEFINITION. Sparse tables, byte memories, and the few bit and list helpers that every other file uses. -/

namespace Sys2Proof.Machine

open Sys2Proof

/-- The entry of a sparse table under a key. -/
def mapGet? {α : Type} : NMap α → Nat → Option α
  | [], _ => none
  | (k, v) :: m, i => if k = i then some v else mapGet? m i

/-- The entry of a sparse table, or the default that an absent key reads as. -/
def mapGet {α : Type} (m : NMap α) (i : Nat) (d : α) : α := (mapGet? m i).getD d

/-- Puts an entry, keeping the keys in rising order. -/
def mapPut {α : Type} : NMap α → Nat → α → NMap α
  | [], i, x => [(i, x)]
  | (k, v) :: m, i, x =>
    if i < k then (i, x) :: (k, v) :: m
    else if i = k then (i, x) :: m
    else (k, v) :: mapPut m i x

/-- Removes an entry. -/
def mapDel {α : Type} : NMap α → Nat → NMap α
  | [], _ => []
  | (k, v) :: m, i => if k = i then m else (k, v) :: mapDel m i

/-- The byte at an address; an unlisted address reads 0 (DESIGN CHOICE, log entry 5). -/
def memGet (m : Mem) (a : Nat) : Byte := mapGet m a 0

/-- Writes one byte, keeping the canonical form: writing 0 removes the entry. -/
def memPut (m : Mem) (a : Nat) (b : Byte) : Mem := if b = 0 then mapDel m a else mapPut m a b

/-- The canonical form from a lower bound on: addresses rise strictly from `lo`, and no byte is 0. -/
def memWfFrom : Nat → Mem → Bool
  | _, [] => true
  | lo, (a, b) :: m => decide (lo ≤ a) && decide (b ≠ 0) && memWfFrom (a + 1) m

/-- The canonical form of a byte memory. -/
def memWf (m : Mem) : Bool := memWfFrom 0 m

/-- Writes a list of bytes at rising addresses from `a`. -/
def memPutList (m : Mem) (a : Nat) : List Byte → Mem
  | [] => m
  | b :: bs => memPutList (memPut m a b) (a + 1) bs

/-- The bytes at `a`, `a + 1`, …, `n` of them. -/
def memGetList (m : Mem) (a n : Nat) : List Byte := (List.range n).map fun i => memGet m (a + i)

/-- The little-endian number that a list of bytes spells (00 R3). -/
def leNat : List Byte → Nat
  | [] => 0
  | b :: bs => b.toNat + 256 * leNat bs

/-- The `n` little-endian bytes of a number (00 R3). -/
def leBytes : Nat → Nat → List Byte
  | 0, _ => []
  | n + 1, x => BitVec.ofNat 8 x :: leBytes n (x / 256)

/-- Reads an `n`-byte little-endian number. -/
def memNat (m : Mem) (a n : Nat) : Nat := leNat (memGetList m a n)

/-- Writes an `n`-byte little-endian number. -/
def memPutNat (m : Mem) (a n x : Nat) : Mem := memPutList m a (leBytes n x)

/-- Sets every byte from `a` to `a + n - 1` to 0: drops the listed cells there. -/
def memZero (m : Mem) (a n : Nat) : Mem := m.filter fun c => decide (c.1 < a) || decide (a + n ≤ c.1)

/-- The listed cells from `a` to `a + n - 1`, renumbered to start at `b`. -/
def memSlice (m : Mem) (a n b : Nat) : Mem :=
  (m.filter fun c => decide (a ≤ c.1) && decide (c.1 < a + n)).map fun c => (c.1 - a + b, c.2)

/-- The cells of a list of bytes from `a` on; bytes of 0 are unlisted. -/
def cellsFrom (a : Nat) : List Byte → Mem
  | [] => []
  | b :: bs => if b = 0 then cellsFrom (a + 1) bs else (a, b) :: cellsFrom (a + 1) bs

/-- Puts cells in place of everything from `a` to `a + n - 1`; those given lie there, in rising order. -/
def memSplice (m : Mem) (a n : Nat) (cs : Mem) : Mem :=
  (m.filter fun c => decide (c.1 < a)) ++ (cs.filter fun c => decide (a ≤ c.1) && decide (c.1 < a + n))
    ++ m.filter fun c => decide (a + n ≤ c.1)

/-- The 64-bit words that a list of cells spells, by word number. -/
def cellWords (m : Mem) : NMap Nat :=
  m.foldl (fun w c => mapPut w (c.1 / 8) (mapGet w (c.1 / 8) 0 + c.2.toNat * 256 ^ (c.1 % 8))) []

/-- Writes every cell of a list. -/
def memPutCells (m : Mem) : List Host.Cell → Mem
  | [] => m
  | c :: cs => memPutCells (memPut m c.1 c.2) cs

/-- Cells of `n` little-endian bytes of `x` at `a`. -/
def cellsOf (a n x : Nat) : List Host.Cell := (List.range n).zip (leBytes n x) |>.map fun p => (a + p.1, p.2)

/-- The cell of an address in a list of cells; the last one written wins. -/
def cellFind (cs : List Host.Cell) (a : Nat) : Option Byte :=
  cs.foldl (fun r c => if c.1 = a then some c.2 else r) none

/-- Replaces the entry at an index of a list. -/
def listSet {α : Type} (l : List α) (i : Nat) (x : α) : List α := l.set i x

/-- The number of a two's complement reading of the low `w` bits. -/
def signedNat (w n : Nat) : Int := if n % 2 ^ w < 2 ^ (w - 1) then (n % 2 ^ w : Nat) else (n % 2 ^ w : Nat) - (2 ^ w : Nat)

/-- An integer modulo `2 ^ w`. -/
def wrapInt (w : Nat) (x : Int) : Nat := (x % (2 ^ w : Nat)).toNat

/-- 1 for true. -/
def boolNat (b : Bool) : Nat := if b then 1 else 0

/-- The number of bits of `n`: 0 for 0. -/
def bitLen (n : Nat) : Nat := if n = 0 then 0 else n.log2 + 1

/-- The ceiling of a quotient. -/
def ceilDiv (a b : Nat) : Nat := (a + b - 1) / b

/-- The first index, from `i` up, at which a test holds in a list. -/
def findIdxFrom {α : Type} (p : α → Bool) : List α → Nat → Option Nat
  | [], _ => none
  | x :: xs, i => if p x then some i else findIdxFrom p xs (i + 1)

end Sys2Proof.Machine
end

