-- ==== Sys2Proof/Machine/Format.lean ====
section
/-! DEFINITION. Element formats, exact values, rounding, overflow, flush and the sticky flags they set, the
integer conversions, and the twist hash (06 R124 to R143). -/

namespace Sys2Proof.Machine

open Sys2Proof

/-- The sixteen element formats, in the order of their codes (06 R124). -/
inductive Fmt where
  | i8 | i16 | i32 | i64 | n8 | n16 | n32 | n64
  | f64 | f32 | f16 | bf16 | e4m3 | e5m2 | e2m1 | e8m0
deriving DecidableEq, Repr

/-- The format of a 4-bit code (06 R124). -/
def fmtOf (c : Nat) : Fmt :=
  match c % 16 with
  | 0 => .i8 | 1 => .i16 | 2 => .i32 | 3 => .i64 | 4 => .n8 | 5 => .n16 | 6 => .n32 | 7 => .n64
  | 8 => .f64 | 9 => .f32 | 10 => .f16 | 11 => .bf16 | 12 => .e4m3 | 13 => .e5m2 | 14 => .e2m1 | _ => .e8m0

/-- Bits of one element (06 R124). -/
def fmtBits : Fmt → Nat
  | .i8 | .n8 | .e4m3 | .e5m2 | .e8m0 => 8
  | .i16 | .n16 | .f16 | .bf16 => 16
  | .i32 | .n32 | .f32 => 32
  | .i64 | .n64 | .f64 => 64
  | .e2m1 => 4

/-- Signed integer formats. -/
def fmtIsI : Fmt → Bool
  | .i8 | .i16 | .i32 | .i64 => true
  | _ => false

/-- Unsigned integer formats. -/
def fmtIsN : Fmt → Bool
  | .n8 | .n16 | .n32 | .n64 => true
  | _ => false

/-- Integer formats. -/
def fmtIsInt (f : Fmt) : Bool := fmtIsI f || fmtIsN f

/-- Floating formats, the E8M0 scale not among them (06 R126). -/
def fmtIsFloat : Fmt → Bool
  | .f64 | .f32 | .f16 | .bf16 | .e4m3 | .e5m2 | .e2m1 => true
  | _ => false

/-- Exponent bits, fraction bits and bias of a floating format (06 R126). -/
structure Shape where
  eb : Nat
  mb : Nat
  bias : Nat
deriving DecidableEq, Repr

/-- The shape of each floating format; integer formats have none and get FP64's (06 R126). -/
def fmtShape : Fmt → Shape
  | .f32 => ⟨8, 23, 127⟩
  | .f16 => ⟨5, 10, 15⟩
  | .bf16 => ⟨8, 7, 127⟩
  | .e4m3 => ⟨4, 3, 7⟩
  | .e5m2 => ⟨5, 2, 15⟩
  | .e2m1 => ⟨2, 1, 1⟩
  | _ => ⟨11, 52, 1023⟩

/-- Formats that hold infinities (06 R127). -/
def fmtHasInf : Fmt → Bool
  | .e4m3 | .e2m1 => false
  | _ => true

/-- Rank by largest finite value (06 R127, R133). -/
def fmtRank : Fmt → Nat
  | .f64 => 7 | .f32 => 6 | .bf16 => 5 | .f16 => 4 | .e5m2 => 3 | .e4m3 => 2 | .e2m1 => 1
  | _ => 0

/-- The canonical NaN; in E2M1, which has none, a NaN is stored as +0 (06 R127, R135). -/
def fmtNaN : Fmt → Nat
  | .f64 => 0x7FF8000000000000 | .f32 => 0x7FC00000 | .f16 => 0x7E00 | .bf16 => 0x7FC0
  | .e4m3 => 0x7F | .e5m2 => 0x7E | .e8m0 => 0xFF
  | _ => 0

/-- The positive infinity of a format that has one (06 R127). -/
def fmtInf (f : Fmt) : Nat := (2 ^ (fmtShape f).eb - 1) * 2 ^ (fmtShape f).mb

/-- The largest finite encoding, sign 0 (06 R127). -/
def fmtMax (f : Fmt) : Nat :=
  match f with
  | .e4m3 => 0x7E
  | .e2m1 => 0x7
  | _ => fmtInf f - 1

/-- The sign bit of an encoding. -/
def fmtSign (f : Fmt) (neg : Bool) : Nat := if neg then 2 ^ (fmtBits f - 1) else 0

/-- A value as the arithmetic meets it: NaN, an infinity, or the finite magnitude `m * 2 ^ e`; `sticky` says
that the true magnitude lies strictly between `m * 2 ^ e` and `(m + 1) * 2 ^ e`, which only a quotient, a root or
an elementary function yields. -/
inductive Num where
  | nan
  | inf (neg : Bool)
  | fin (neg : Bool) (m : Nat) (e : Int) (sticky : Bool)
deriving DecidableEq, Repr

/-- Plus zero. -/
def numZero : Num := .fin false 0 0 false

/-- An exact integer as a value. -/
def numInt (x : Int) : Num := .fin (decide (x < 0)) x.natAbs 0 false

/-- Reads an encoding of a floating format (06 R126, R127); E8M0 reads as a power of two (06 R128). -/
def numOf (f : Fmt) (w : Nat) : Num :=
  let sh := fmtShape f
  let neg := natBit w (fmtBits f - 1)
  let e := natBits w sh.mb sh.eb
  let m := natBits w 0 sh.mb
  match f with
  | .e8m0 => if natBits w 0 8 = 255 then .nan else .fin false 1 ((natBits w 0 8 : Int) - 127) false
  | .e4m3 =>
    if natBits w 0 7 = 0x7F then .nan
    else if e = 0 then .fin neg m (1 - 7 - 3) false else .fin neg (m + 8) ((e : Int) - 7 - 3) false
  | .e2m1 => if e = 0 then .fin neg m (1 - 1 - 1) false else .fin neg (m + 2) ((e : Int) - 1 - 1) false
  | _ =>
    if e = 2 ^ sh.eb - 1 then (if m = 0 then .inf neg else .nan)
    else if e = 0 then .fin neg m (1 - (sh.bias : Int) - sh.mb) false
    else .fin neg (m + 2 ^ sh.mb) ((e : Int) - sh.bias - sh.mb) false

/-- The integer an integer encoding spells (06 R125). -/
def intOf (f : Fmt) (w : Nat) : Int :=
  if fmtIsI f then signedNat (fmtBits f) w else (w % 2 ^ fmtBits f : Nat)

/-- An encoding that is a subnormal of its format (06 R126). -/
def isSubnormal (f : Fmt) (w : Nat) : Bool :=
  fmtIsFloat f && natBits w (fmtShape f).mb (fmtShape f).eb == 0 && natBits w 0 (fmtShape f).mb != 0

/-- Input flush: with fzi a subnormal input becomes a zero of its sign, in every floating format but E2M1
(06 R132). -/
def flushIn (f : Fmt) (fzi : Bool) (w : Nat) : Nat :=
  if fzi && isSubnormal f w && decide (f ≠ .e2m1) then fmtSign f (natBit w (fmtBits f - 1)) else w

/-- Reads an operand after the input flush; an integer operand is exact. -/
def numIn (f : Fmt) (fzi : Bool) (w : Nat) : Num :=
  if fmtIsInt f then numInt (intOf f w) else numOf f (flushIn f fzi w)

/-- The sticky flags of FPSTAT (06 R137). -/
structure FpFlags where
  nv : Bool
  of : Bool
  uf : Bool
  nx : Bool
  sat : Bool
  iwrap : Bool
deriving DecidableEq, Repr

/-- No flag. -/
def noFlags : FpFlags := ⟨false, false, false, false, false, false⟩

/-- Flags raised together. -/
def orFlags (a b : FpFlags) : FpFlags :=
  ⟨a.nv || b.nv, a.of || b.of, a.uf || b.uf, a.nx || b.nx, a.sat || b.sat, a.iwrap || b.iwrap⟩

/-- Invalid alone. -/
def flagNv : FpFlags := { noFlags with nv := true }

/-- Saturation alone. -/
def flagSat : FpFlags := { noFlags with sat := true }

/-- The bits of FPSTAT that flags set (06 R137). -/
def flagBits (a : FpFlags) : Nat :=
  boolNat a.nv + 2 * boolNat a.of + 4 * boolNat a.uf + 8 * boolNat a.nx + 16 * boolNat a.sat + 32 * boolNat a.iwrap

/-- The flags that FPSTAT bits spell. -/
def flagsOfBits (n : Nat) : FpFlags := ⟨natBit n 0, natBit n 1, natBit n 2, natBit n 3, natBit n 4, natBit n 5⟩

/-- The rounding modes that a rounding code can select once dyn is resolved (06 R129). -/
inductive Rnd where
  | rne | rtz | rup | rdn | rna | rsr
deriving DecidableEq, Repr

/-- The mode of a rounding code; dyn (0b111) takes FPCTL.rm (06 R129, R131). -/
def rndOf (code rm : Nat) : Rnd :=
  match (if code = 7 then rm else code) with
  | 0 => .rne | 1 => .rtz | 2 => .rup | 3 => .rdn | 4 => .rna | 5 => .rsr | _ => .rne

/-- Everything a rounding needs beside its value: mode, output flush, saturation, narrowing, and the 24-bit draw
of rsr (06 R129 to R133). -/
structure RndCtl where
  mode : Rnd
  fzo : Bool
  sat : Bool
  narrow : Bool
  draw : Nat
deriving DecidableEq, Repr

/-- Round to nearest even with no output flush, not narrowing: the rounding of every internal step (06 R140,
R142). -/
def ctlRne : RndCtl := ⟨.rne, false, false, false, 0⟩

/-- Whether a magnitude `n + rem / 2 ^ sh` (plus a sticky remainder) rounds up to `n + 1` (06 R129, R130). -/
def roundsUp (md : Rnd) (draw : Nat) (neg : Bool) (n rem sh : Nat) (sticky : Bool) : Bool :=
  let exact := decide (rem = 0) && !sticky
  match md with
  | .rne => decide (2 * rem > 2 ^ sh) || (decide (2 * rem = 2 ^ sh) && (sticky || n % 2 == 1))
  | .rtz => false
  | .rup => !exact && !neg
  | .rdn => !exact && neg
  | .rna => decide (2 * rem ≥ 2 ^ sh)
  | .rsr => !exact && decide (draw < 2 ^ 24 * rem / 2 ^ sh)

/-- A magnitude cut at the quantum `2 ^ q`: the whole part, the rest and its width (06 R129). -/
def cutAt (m : Nat) (e q : Int) : Nat × Nat × Nat :=
  if q ≤ e then (m * 2 ^ (e - q).toNat, 0, 0)
  else (m / 2 ^ (q - e).toNat, m % 2 ^ (q - e).toNat, (q - e).toNat)

/-- The magnitude `n * 2 ^ q` exceeds the largest finite value of the format (06 R133). -/
def exceedsMax (f : Fmt) (n : Nat) (q : Int) : Bool :=
  match numOf f (fmtMax f) with
  | .fin _ mm me _ => if me ≤ q then decide (n * 2 ^ (q - me).toNat > mm) else decide (n > mm * 2 ^ (me - q).toNat)
  | _ => false

/-- Encodes a finite magnitude `n * 2 ^ q` that the format holds, `q` being the quantum it was rounded at. -/
def encodeMag (f : Fmt) (n : Nat) (q : Int) : Nat :=
  let sh := fmtShape f
  let (n, q) := if n = 2 ^ (sh.mb + 1) then (2 ^ sh.mb, q + 1) else (n, q)
  if n < 2 ^ sh.mb then n else (q + sh.mb + sh.bias).toNat * 2 ^ sh.mb + (n - 2 ^ sh.mb)

/-- The overflow of a rounding into a floating format: the value stored and the flags (06 R133). `rneInf` says that
rne would give an infinity, which decides rsr. -/
def overflowTo (f : Fmt) (c : RndCtl) (neg rneInf : Bool) : Nat × FpFlags :=
  let s := fmtSign f neg
  let ovf : FpFlags := { noFlags with of := true, nx := true }
  let ovs : FpFlags := { ovf with sat := true }
  if c.narrow || decide (f = .e4m3) || decide (f = .e2m1) then
    if c.sat then (s + fmtMax f, ovs)
    else match f with
      | .e4m3 => (0x7F, ovf)
      | .e2m1 => (s + 7, ovs)
      | _ => (s + fmtInf f, ovf)
  else
    let toInf := match c.mode with
      | .rne | .rna => true
      | .rtz => false
      | .rup => !neg
      | .rdn => neg
      | .rsr => rneInf
    (s + (if toInf then fmtInf f else fmtMax f), ovf)

/-- An infinity stored into a floating format (06 R133). -/
def infTo (f : Fmt) (sat neg : Bool) : Nat × FpFlags :=
  let s := fmtSign f neg
  if fmtHasInf f then (s + fmtInf f, noFlags)
  else if sat then (s + fmtMax f, flagSat)
  else if f = .e4m3 then (0x7F, flagNv)
  else (s + 7, flagSat)

/-- A NaN stored into a format: the canonical NaN; into E2M1 +0 with invalid (06 R135). -/
def nanTo (f : Fmt) : Nat × FpFlags := if f = .e2m1 then (0, flagNv) else (fmtNaN f, noFlags)

/-- One rounding of an exact value to a floating format, with the overflow rule, the output flush and the flags
(06 R129, R132, R133). -/
def roundTo (f : Fmt) (c : RndCtl) (v : Num) : Nat × FpFlags :=
  match v with
  | .nan => nanTo f
  | .inf neg => infTo f c.sat neg
  | .fin neg m e sticky =>
    if m = 0 && !sticky then (fmtSign f neg, noFlags)
    else
      let sh := fmtShape f
      let top : Int := (bitLen m : Int) - 1 + e
      let emin : Int := 1 - (sh.bias : Int)
      let q : Int := (if top < emin then emin else top) - sh.mb
      let (n, rem, w) := cutAt m e q
      let inexact := decide (rem ≠ 0) || sticky
      let n' := if roundsUp c.mode c.draw neg n rem w sticky then n + 1 else n
      let tiny := decide (top < emin)
      if exceedsMax f n' q then
        let nr := if roundsUp .rne 0 neg n rem w sticky then n + 1 else n
        overflowTo f c neg (exceedsMax f nr q)
      else if c.fzo && tiny && decide (f ≠ .e2m1) then
        (fmtSign f neg, { noFlags with uf := true, nx := true })
      else
        (fmtSign f neg + encodeMag f n' q, { noFlags with nx := inexact, uf := tiny && inexact })

/-- Whether rounding to `dst` from these source formats is narrowing (06 R133). -/
def isNarrow (dst : Fmt) (srcs : List Fmt) : Bool :=
  decide (dst = .e4m3) || decide (dst = .e2m1)
    || srcs.any (fun s => fmtIsFloat s && decide (fmtRank dst < fmtRank s))

/-- The sign of an exact zero sum of operands of opposite signs (06 R129). -/
def zeroSumSign (md : Rnd) : Bool := decide (md = .rdn)

/-- Exact sum; an infinite difference is invalid (06 R135). `md` decides the sign of an exact zero (06 R129). -/
def numAdd (md : Rnd) : Num → Num → Num × FpFlags
  | .nan, _ => (.nan, noFlags)
  | _, .nan => (.nan, noFlags)
  | .inf a, .inf b => if a = b then (.inf a, noFlags) else (.nan, flagNv)
  | .inf a, _ => (.inf a, noFlags)
  | _, .inf b => (.inf b, noFlags)
  | .fin sa ma ea ta, .fin sb mb eb tb =>
    let e := min ea eb
    let a : Int := (ma * 2 ^ (ea - e).toNat : Nat)
    let b : Int := (mb * 2 ^ (eb - e).toNat : Nat)
    let x := (if sa then -a else a) + (if sb then -b else b)
    if x = 0 then (.fin (if sa = sb then sa else zeroSumSign md) 0 e (ta || tb), noFlags)
    else (.fin (decide (x < 0)) x.natAbs e (ta || tb), noFlags)

/-- Changes the sign. -/
def numNeg : Num → Num
  | .nan => .nan
  | .inf a => .inf (!a)
  | .fin s m e t => .fin (!s) m e t

/-- The magnitude of a value. -/
def numAbs : Num → Num
  | .fin _ m e t => .fin false m e t
  | .inf _ => .inf false
  | .nan => .nan

/-- Exact product; zero times infinity is invalid (06 R135). -/
def numMul : Num → Num → Num × FpFlags
  | .nan, _ => (.nan, noFlags)
  | _, .nan => (.nan, noFlags)
  | .inf a, .inf b => (.inf (a != b), noFlags)
  | .inf a, .fin b m _ _ => if m = 0 then (.nan, flagNv) else (.inf (a != b), noFlags)
  | .fin a m _ _, .inf b => if m = 0 then (.nan, flagNv) else (.inf (a != b), noFlags)
  | .fin a m e t, .fin b n g u => (.fin (a != b) (m * n) (e + g) (t || u), noFlags)

/-- Exact fused multiply-add: one product, one sum; an invalid product stays invalid beside a NaN addend (06 R135). -/
def numFma (md : Rnd) (a b c : Num) : Num × FpFlags :=
  let (p, fp) := numMul a b
  let (s, fs) := numAdd md p c
  (s, orFlags fp fs)

/-- The floating minimum or maximum of two encodings of one format (06 R136). -/
def numLess : Num → Num → Bool
  | .inf true, .inf true => false
  | .inf true, _ => true
  | _, .inf true => false
  | .inf false, _ => false
  | _, .inf false => true
  | .fin sa ma ea _, .fin sb mb eb _ =>
    let e := min ea eb
    let a : Int := (ma * 2 ^ (ea - e).toNat : Nat)
    let b : Int := (mb * 2 ^ (eb - e).toNat : Nat)
    let x := if sa then -a else a
    let y := if sb then -b else b
    decide (x < y) || (decide (x = y) && decide (x = 0) && sa && !sb)
  | _, _ => false

/-- Floating minimum: −0 below +0; one NaN yields the other operand (06 R136). -/
def numMin (a b : Num) : Num :=
  if a = .nan then b else if b = .nan then a else if numLess b a then b else a

/-- Floating maximum (06 R136). -/
def numMax (a b : Num) : Num :=
  if a = .nan then b else if b = .nan then a else if numLess a b then b else a

/-- Numeric equality, −0 equal to +0 (07 R169). -/
def numEq (a b : Num) : Bool :=
  decide (a ≠ .nan) && decide (b ≠ .nan) && !numLess a b && !numLess b a
    || (match a, b with
        | .fin _ 0 _ false, .fin _ 0 _ false => true
        | _, _ => false)

/-- Numeric less-than, −0 not below +0 (07 R169). -/
def numLt (a b : Num) : Bool :=
  decide (a ≠ .nan) && decide (b ≠ .nan) && numLess a b && !numEq a b

/-- The eight compare conditions eq, lt, le, un, ne, nlt, nle, ord (07 R168, R169). -/
def numCmp (cond : Nat) (a b : Num) : Bool :=
  let un := decide (a = .nan) || decide (b = .nan)
  let base := match cond % 4 with
    | 0 => numEq a b
    | 1 => numLt a b
    | 2 => numLt a b || numEq a b
    | _ => un
  if cond % 8 < 4 then base else !base

/-- An integer below or above the range of an integer format; `none` when in range (06 R125). -/
def intOutside (f : Fmt) (x : Int) : Option Bool :=
  let n := fmtBits f
  let lo : Int := if fmtIsI f then -(2 ^ (n - 1) : Nat) else 0
  let hi : Int := if fmtIsI f then (2 ^ (n - 1) : Nat) - 1 else (2 ^ n : Nat) - 1
  if x < lo then some true else if hi < x then some false else none

/-- The encoding of the least or greatest value of an integer format (06 R125, R134). -/
def intLimit (f : Fmt) (low : Bool) : Nat :=
  let n := fmtBits f
  if fmtIsI f then (if low then 2 ^ (n - 1) else 2 ^ (n - 1) - 1) else (if low then 0 else 2 ^ n - 1)

/-- The "indefinite" of an integer format (06 R134). -/
def intIndefinite (f : Fmt) : Nat := if fmtIsI f then 2 ^ (fmtBits f - 1) else 2 ^ fmtBits f - 1

/-- A floating value converted to an integer format (06 R134). -/
def numToInt (f : Fmt) (c : RndCtl) (v : Num) : Nat × FpFlags :=
  let out (low : Bool) : Nat × FpFlags :=
    if c.sat then (intLimit f low, flagSat) else (intIndefinite f, flagNv)
  match v with
  | .nan => (0, flagNv)
  | .inf neg => out neg
  | .fin neg m e sticky =>
    let (n, rem, w) := cutAt m e 0
    let n' := if roundsUp c.mode c.draw neg n rem w sticky then n + 1 else n
    let x : Int := if neg then -(n' : Int) else n'
    match intOutside f x with
    | some low => out low
    | none => (wrapInt (fmtBits f) x, { noFlags with nx := decide (rem ≠ 0) || sticky })

/-- An integer converted to an integer format (06 R134). -/
def intToInt (f : Fmt) (sat : Bool) (x : Int) : Nat × FpFlags :=
  match intOutside f x with
  | some low => if sat then (intLimit f low, flagSat) else (wrapInt (fmtBits f) x, noFlags)
  | none => (wrapInt (fmtBits f) x, noFlags)

/-- A conversion between any two formats but E8M0 (06 R134, 07 R169). -/
def convert (dst src : Fmt) (c : RndCtl) (fzi : Bool) (w : Nat) : Nat × FpFlags :=
  if fmtIsInt src && fmtIsInt dst then intToInt dst c.sat (intOf src w)
  else if fmtIsInt dst then numToInt dst c (numIn src fzi w)
  else roundTo dst c (numIn src fzi w)

/-- Left rotation of 64 bits. -/
def rotl64 (x : Word) (n : Nat) : Word := x <<< (n % 64) ||| x >>> (64 - n % 64)

/-- One step of the twist hash (06 R143). -/
def twistStep (k x m : Word) (i : Nat) : Word := ((x ^^^ (x >>> 31)) * m) + rotl64 k (17 * i)

/-- The twist hash of seed, layer and counter (06 R143). -/
def twistHash (seed layer c : Word) : Word :=
  let k := seed ^^^ (layer * 0xD1B54A32D192ED03#64)
  let x0 := c ^^^ k
  let x1 := twistStep k x0 0xD6E8FEB86659FD93#64 1
  let x2 := twistStep k x1 0x9FB21C651E98DF25#64 2
  let x3 := twistStep k x2 0xF1357AEA2E62A9C5#64 3
  x3 ^^^ (x3 >>> 29)

/-- The 24-bit draw of rsr, vrng and vdrop (06 R143). -/
def twistDraw (seed layer c : Word) : Nat := (twistHash seed layer c).toNat / 2 ^ 40

/-- The draw of a rounding under FPCTL at a counter (06 R130, R139). -/
def rsrDraw (fpctl : Word) (c : Word) : Nat :=
  twistDraw (fpctl >>> 16) ((fpctl >>> 8) &&& 0xFF#64) c

/-- FPCTL.rm (06 R139). -/
def fpctlRm (fpctl : Word) : Nat := fpctl.toNat % 8

end Sys2Proof.Machine
end

