-- ==== Sys2Proof/Syntax.lean ====
section
/-! DEFINITION. The steps of the F9 as syntax: ports, guards, payloads and the one inductive `Instr`. -/

namespace Sys2Proof

/-- The six slots of a bundle (03 R68). -/
inductive Slot where
  | ca | aa | ab | xa | xb | ea
deriving DecidableEq, Repr

/-- A name of the port namespace (03 R74, R78). -/
inductive Port where
  /-- s0 to s63. -/
  | s (n : BitVec 6)
  /-- p0 to p7. -/
  | p (n : BitVec 3)
  /-- m0 to m7. -/
  | m (n : BitVec 3)
  /-- aa.l0 to aa.l3. -/
  | aaL (n : BitVec 2)
  /-- ab.l0 to ab.l3. -/
  | abL (n : BitVec 2)
  /-- xa.l0 to xa.l3. -/
  | xaL (n : BitVec 2)
  /-- xb.l0 to xb.l3. -/
  | xbL (n : BitVec 2)
  /-- ca.l0 and ca.l1. -/
  | caL (n : BitVec 1)
  /-- lq0 to lq7. -/
  | lq (n : BitVec 3)
  /-- sq0 to sq3. -/
  | sq (n : BitVec 2)
  /-- Port 0x080 + n. -/
  | special (n : BitVec 6)
  /-- Port 0x3FF. -/
  | imm
  /-- Any other port number. -/
  | reserved (w : BitVec 10)
deriving DecidableEq, Repr

/-- A guard: predicate `p`, negated when `neg`; p0 reads 1, so `⟨false, 0⟩` is "always" (03 R70). -/
structure Guard where
  neg : Bool
  p : BitVec 3
deriving DecidableEq, Repr

/-- Scopes (03 R71). -/
inductive Scope where
  | tile | die | pkg | sys | fab
deriving DecidableEq, Repr

/-- Orders (03 R71). -/
inductive Order where
  | rlx | acq | rel | acqrel
deriving DecidableEq, Repr

/-- Access sizes (03 R71). -/
inductive Size where
  | b | h | w | d | line
deriving DecidableEq, Repr

/-- The engines of a tile (03 R73). -/
inductive EngineId where
  | mx0 | mx1 | sf0 | gs0 | so0 | al0 | qz0 | fx0 | cq0 | cq1
deriving DecidableEq, Repr

/-- A C-format payload with its guard (03 R71). -/
structure COp where
  guard : Guard
  target : BitVec 24
  cport : Port
  imm : BitVec 13
deriving DecidableEq, Repr

/-- An M-format payload with its guard (03 R71). -/
structure MOp where
  guard : Guard
  data : Port
  base : Port
  index : Port
  disp : BitVec 9
  scope : Scope
  order : Order
  size : Size
deriving DecidableEq, Repr

/-- An S-format payload with its guard (03 R71). -/
structure SOp where
  guard : Guard
  dst : Port
  srcA : Port
  srcB : Port
  imm : BitVec 17
deriving DecidableEq, Repr

/-- A V-format payload with its guard; `rnd` is a condition code in vcmp (03 R71, 09 R206). -/
structure VOp where
  guard : Guard
  vd : BitVec 11
  va : BitVec 11
  vb : BitVec 11
  fzi : Bool
  fzo : Bool
  rnd : BitVec 3
  sat : Bool
  mask : BitVec 3
  qa : Bool
  qb : Bool
  qd : Bool
deriving DecidableEq, Repr

/-- An E-format payload with its guard (03 R71). -/
structure EOp where
  guard : Guard
  engine : EngineId
  shadow : BitVec 6
  source : Port
  imm : BitVec 26
deriving DecidableEq, Repr

/-- A step word: five lanes of 64 bits (DESIGN CHOICE, log entry 1). A slot operation has its 60-bit slot word in
bits 59:0 of lane 0, its slot in bits 62:60, and its tile in lane 1; an event has 7 in bits 62:60 and its row of the
opcode table in bits 8:0 of lane 0, and its operands in lanes 1 to 4. -/
structure StepWord where
  l0 : BitVec 64
  l1 : BitVec 64
  l2 : BitVec 64
  l3 : BitVec 64
  l4 : BitVec 64
deriving DecidableEq, Repr

/-- The steps of the F9: one constructor for each row of the opcode table: the slot operations, then
the events with operands, then those without, which act on the candidate that `State.turn` selects. A slot operation names its
tile (and, where its class has two slots, `hi` for the higher one) and its decoded payload; an event names its
operands. -/
inductive Instr where
  /-- Does nothing. (R146) -/
  | nop (tile : BitVec 8) (o : COp)
  /-- Jumps to a pc-relative target. (R147) -/
  | jmp (tile : BitVec 8) (o : COp)
  /-- Jumps to the pc read from a port. (R147) -/
  | jmpi (tile : BitVec 8) (o : COp)
  /-- Jumps to a target and writes the return pc to ca.l1. (R147) -/
  | call (tile : BitVec 8) (o : COp)
  /-- Jumps to the pc read from a port, by default ca.l1. (R147) -/
  | ret (tile : BitVec 8) (o : COp)
  /-- Runs the body to the exit an immediate count of times. (R149) -/
  | loop (tile : BitVec 8) (o : COp)
  /-- Runs the body to the exit a count read from a port. (R149) -/
  | loopr (tile : BitVec 8) (o : COp)
  /-- Ends the running bobbin, adding to its join reel. (R152) -/
  | endOp (tile : BitVec 8) (o : COp)
  /-- Writes the bobbin back ready at the creel tail, answering any yield request. (R152) -/
  | yield (tile : BitVec 8) (o : COp)
  /-- Parks the bobbin on an own reel register until it reaches a threshold. (R153) -/
  | suspend (tile : BitVec 8) (o : COp)
  /-- Creates a bobbin at a target on the creel head and raises the outstanding count. (R154) -/
  | fork (tile : BitVec 8) (o : COp)
  /-- Parks only if an own reel register is below a threshold. (R153) -/
  | join (tile : BitVec 8) (o : COp)
  /-- Reserves an entry and pushes a 64-byte command block into an engine queue of a target tile. (R155) -/
  | csend (tile : BitVec 8) (o : COp)
  /-- Asks for an engine by kind or instance and returns a handle and status. (R274) -/
  | lease (tile : BitVec 8) (o : COp)
  /-- Asks for an engine and parks until it is granted. (R274) -/
  | leasew (tile : BitVec 8) (o : COp)
  /-- Starts power-up of an engine of a kind without claiming it. (R277) -/
  | wake (tile : BitVec 8) (o : COp)
  /-- Returns the lease named by a handle, letting accepted commands finish. (R278) -/
  | unleash (tile : BitVec 8) (o : COp)
  /-- Sets the slack in force for engine operations. (R111) -/
  | slack (tile : BitVec 8) (o : COp)
  /-- Waits until older writes are performed or reads landed at a scope, holding younger bundles. (R159) -/
  | fence (tile : BitVec 8) (o : COp)
  /-- Waits until every older vector operation has landed its last element. (R159) -/
  | vfence (tile : BitVec 8) (o : COp)
  /-- Commits its bundle and stops the node with software-trap. (R161) -/
  | trap (tile : BitVec 8) (o : COp)
  /-- Stops the node at its bundle with breakpoint. (R161) -/
  | brk (tile : BitVec 8) (o : COp)
  /-- Collectively splits the current pack into sub-packs. (R158) -/
  | psplit (tile : BitVec 8) (o : COp)
  /-- Collectively restores the enclosing pack. (R158) -/
  | pmerge (tile : BitVec 8) (o : COp)
  /-- Adds 1 to the pack's phase reel and raises the phase count. (R371) -/
  | parrive (tile : BitVec 8) (o : COp)
  /-- Continues when the phase reel completes the tile's phase, else parks. (R372) -/
  | pwait (tile : BitVec 8) (o : COp)
  /-- Starts the fill of a dictionary page without stalling. (R160) -/
  | ovl (tile : BitVec 8) (o : COp)
  /-- Holds dispatch for the back-off interval and doubles it. (R162) -/
  | sleepk (tile : BitVec 8) (o : COp)
  /-- Holds dispatch for a tick count read from a port. (R162) -/
  | sleepkSource (tile : BitVec 8) (o : COp)
  /-- Sets the back-off floor and ceiling and resets the interval. (R162) -/
  | sleepkSet (tile : BitVec 8) (o : COp)
  /-- Loads from a pool address, zero-extended. (R180) -/
  | ld (tile : BitVec 8) (hi : Bool) (o : MOp)
  /-- Stores to a pool address. (R180) -/
  | st (tile : BitVec 8) (hi : Bool) (o : MOp)
  /-- Loads 64 bytes as elements into a load queue. (R181) -/
  | ldq (tile : BitVec 8) (hi : Bool) (o : MOp)
  /-- Pops store-queue entries into 64 bytes of pool. (R181) -/
  | stq (tile : BitVec 8) (hi : Bool) (o : MOp)
  /-- Loads from a global address through the die cache. (R183) -/
  | ldc (tile : BitVec 8) (hi : Bool) (o : MOp)
  /-- Stores to a global address. (R183) -/
  | stc (tile : BitVec 8) (hi : Bool) (o : MOp)
  /-- Brings a granule into the die cache. (R183) -/
  | pref (tile : BitVec 8) (hi : Bool) (o : MOp)
  /-- Writes a region descriptor. (R184) -/
  | rdset (tile : BitVec 8) (hi : Bool) (o : MOp)
  /-- Writes a descriptor's origin register. (R184) -/
  | rdsetOrg (tile : BitVec 8) (hi : Bool) (o : MOp)
  /-- Reads a region descriptor. (R184) -/
  | rdget (tile : BitVec 8) (hi : Bool) (o : MOp)
  /-- Reads a descriptor's origin register. (R184) -/
  | rdgetOrg (tile : BitVec 8) (hi : Bool) (o : MOp)
  /-- Advances a descriptor's base and origin by a signed element count. (R184) -/
  | rdadv (tile : BitVec 8) (hi : Bool) (o : MOp)
  /-- Advances only a descriptor's origin register. (R184) -/
  | rdadvOrg (tile : BitVec 8) (hi : Bool) (o : MOp)
  /-- Atomic add, returning the old value. (R185) -/
  | aadd (tile : BitVec 8) (hi : Bool) (o : MOp)
  /-- Atomic AND. (R185) -/
  | aand (tile : BitVec 8) (hi : Bool) (o : MOp)
  /-- Atomic OR. (R185) -/
  | aor (tile : BitVec 8) (hi : Bool) (o : MOp)
  /-- Atomic XOR. (R185) -/
  | axor (tile : BitVec 8) (hi : Bool) (o : MOp)
  /-- Atomic signed minimum. (R185) -/
  | amin (tile : BitVec 8) (hi : Bool) (o : MOp)
  /-- Atomic signed maximum. (R185) -/
  | amax (tile : BitVec 8) (hi : Bool) (o : MOp)
  /-- Atomic unsigned minimum. (R185) -/
  | aminn (tile : BitVec 8) (hi : Bool) (o : MOp)
  /-- Atomic unsigned maximum. (R185) -/
  | amaxn (tile : BitVec 8) (hi : Bool) (o : MOp)
  /-- Atomic swap. (R185) -/
  | aswap (tile : BitVec 8) (hi : Bool) (o : MOp)
  /-- Atomic compare-and-swap. (R185) -/
  | acas (tile : BitVec 8) (hi : Bool) (o : MOp)
  /-- Atomic bounded wrapping increment. (R186) -/
  | aincw (tile : BitVec 8) (hi : Bool) (o : MOp)
  /-- Atomic bounded add with success flag. (R186) -/
  | afaddb (tile : BitVec 8) (hi : Bool) (o : MOp)
  /-- Atomic FP32 add. (R185) -/
  | afaddF32 (tile : BitVec 8) (hi : Bool) (o : MOp)
  /-- Atomic paired BF16 add. (R185) -/
  | afaddBf16x2 (tile : BitVec 8) (hi : Bool) (o : MOp)
  /-- Adds to a reel, checked for overflow and binding. (R191) -/
  | kadd (tile : BitVec 8) (hi : Bool) (o : MOp)
  /-- Tests a reel against a threshold and parks if unmet. (R192) -/
  | kwait (tile : BitVec 8) (hi : Bool) (o : MOp)
  /-- Reads a reel. (R193) -/
  | kread (tile : BitVec 8) (hi : Bool) (o : MOp)
  /-- Returns whether a reel meets a threshold. (R193) -/
  | kpoll (tile : BitVec 8) (hi : Bool) (o : MOp)
  /-- Binds or unbinds an own reel register to a ceiling. (R194) -/
  | kbind (tile : BitVec 8) (hi : Bool) (o : MOp)
  /-- Sets an own register or memory reel in the prologue. (R195) -/
  | kinit (tile : BitVec 8) (hi : Bool) (o : MOp)
  /-- Integer add. (R164) -/
  | add (tile : BitVec 8) (hi : Bool) (o : SOp)
  /-- Integer subtract. (R164) -/
  | sub (tile : BitVec 8) (hi : Bool) (o : SOp)
  /-- Low 64 bits of product. (R164) -/
  | mul (tile : BitVec 8) (hi : Bool) (o : SOp)
  /-- High signed product. (R164) -/
  | mulh (tile : BitVec 8) (hi : Bool) (o : SOp)
  /-- High unsigned product. (R164) -/
  | mulhn (tile : BitVec 8) (hi : Bool) (o : SOp)
  /-- Signed quotient. (R164) -/
  | div (tile : BitVec 8) (hi : Bool) (o : SOp)
  /-- Unsigned quotient. (R164) -/
  | divn (tile : BitVec 8) (hi : Bool) (o : SOp)
  /-- Signed remainder. (R164) -/
  | rem (tile : BitVec 8) (hi : Bool) (o : SOp)
  /-- Unsigned remainder. (R164) -/
  | remn (tile : BitVec 8) (hi : Bool) (o : SOp)
  /-- Bitwise AND. (R164) -/
  | andOp (tile : BitVec 8) (hi : Bool) (o : SOp)
  /-- Bitwise OR. (R164) -/
  | orOp (tile : BitVec 8) (hi : Bool) (o : SOp)
  /-- Bitwise XOR. (R164) -/
  | xorOp (tile : BitVec 8) (hi : Bool) (o : SOp)
  /-- a AND NOT b. (R164) -/
  | andn (tile : BitVec 8) (hi : Bool) (o : SOp)
  /-- Logical shift left. (R164) -/
  | shl (tile : BitVec 8) (hi : Bool) (o : SOp)
  /-- Logical shift right. (R164) -/
  | shr (tile : BitVec 8) (hi : Bool) (o : SOp)
  /-- Arithmetic shift right. (R164) -/
  | sar (tile : BitVec 8) (hi : Bool) (o : SOp)
  /-- Rotate left. (R164) -/
  | rol (tile : BitVec 8) (hi : Bool) (o : SOp)
  /-- Signed minimum. (R164) -/
  | minOp (tile : BitVec 8) (hi : Bool) (o : SOp)
  /-- Signed maximum. (R164) -/
  | maxOp (tile : BitVec 8) (hi : Bool) (o : SOp)
  /-- Unsigned minimum. (R164) -/
  | minn (tile : BitVec 8) (hi : Bool) (o : SOp)
  /-- Unsigned maximum. (R164) -/
  | maxn (tile : BitVec 8) (hi : Bool) (o : SOp)
  /-- Count leading zeros. (R164) -/
  | clz (tile : BitVec 8) (hi : Bool) (o : SOp)
  /-- Count trailing zeros. (R164) -/
  | ctz (tile : BitVec 8) (hi : Bool) (o : SOp)
  /-- Population count. (R164) -/
  | popc (tile : BitVec 8) (hi : Bool) (o : SOp)
  /-- Bit reverse. (R164) -/
  | brev (tile : BitVec 8) (hi : Bool) (o : SOp)
  /-- Bit-field extract. (R165) -/
  | bext (tile : BitVec 8) (hi : Bool) (o : SOp)
  /-- Bit-field insert. (R165) -/
  | bins (tile : BitVec 8) (hi : Bool) (o : SOp)
  /-- Selects by a predicate. (R166) -/
  | sel (tile : BitVec 8) (hi : Bool) (o : SOp)
  /-- Moves a value, including to special registers. (R167) -/
  | mov (tile : BitVec 8) (hi : Bool) (o : SOp)
  /-- Loads a sign-extended immediate. (R167) -/
  | li (tile : BitVec 8) (hi : Bool) (o : SOp)
  /-- Shifts left 16 and inserts a halfword. (R167) -/
  | lih (tile : BitVec 8) (hi : Bool) (o : SOp)
  /-- a + b × immediate. (R167) -/
  | madr (tile : BitVec 8) (hi : Bool) (o : SOp)
  /-- Compare equal. (R166) -/
  | ceq (tile : BitVec 8) (hi : Bool) (o : SOp)
  /-- Compare not equal. (R166) -/
  | cne (tile : BitVec 8) (hi : Bool) (o : SOp)
  /-- Signed less than. (R166) -/
  | clt (tile : BitVec 8) (hi : Bool) (o : SOp)
  /-- Unsigned less than. (R166) -/
  | cltn (tile : BitVec 8) (hi : Bool) (o : SOp)
  /-- Signed less or equal. (R166) -/
  | cle (tile : BitVec 8) (hi : Bool) (o : SOp)
  /-- Unsigned less or equal. (R166) -/
  | clen (tile : BitVec 8) (hi : Bool) (o : SOp)
  /-- Tests a AND b non-zero. (R166) -/
  | ctst (tile : BitVec 8) (hi : Bool) (o : SOp)
  /-- Predicate AND. (R166) -/
  | pand (tile : BitVec 8) (hi : Bool) (o : SOp)
  /-- Predicate OR. (R166) -/
  | por (tile : BitVec 8) (hi : Bool) (o : SOp)
  /-- Predicate NOT. (R166) -/
  | pnot (tile : BitVec 8) (hi : Bool) (o : SOp)
  /-- Scalar floating add. (R169) -/
  | fadd (tile : BitVec 8) (hi : Bool) (o : SOp)
  /-- Scalar floating subtract. (R169) -/
  | fsub (tile : BitVec 8) (hi : Bool) (o : SOp)
  /-- Scalar floating multiply. (R169) -/
  | fmul (tile : BitVec 8) (hi : Bool) (o : SOp)
  /-- Scalar fused multiply-add into the destination. (R169) -/
  | ffma (tile : BitVec 8) (hi : Bool) (o : SOp)
  /-- Scalar floating minimum. (R169) -/
  | fmin (tile : BitVec 8) (hi : Bool) (o : SOp)
  /-- Scalar floating maximum. (R169) -/
  | fmax (tile : BitVec 8) (hi : Bool) (o : SOp)
  /-- Scalar floating compare by condition. (R169) -/
  | fcmp (tile : BitVec 8) (hi : Bool) (o : SOp)
  /-- Scalar format conversion. (R169) -/
  | fcvt (tile : BitVec 8) (hi : Bool) (o : SOp)
  /-- Element-wise add. (R213) -/
  | vadd (tile : BitVec 8) (hi : Bool) (o : VOp)
  /-- Element-wise subtract. (R213) -/
  | vsub (tile : BitVec 8) (hi : Bool) (o : VOp)
  /-- Element-wise multiply. (R213) -/
  | vmul (tile : BitVec 8) (hi : Bool) (o : VOp)
  /-- Element-wise fused multiply-add. (R213) -/
  | vfma (tile : BitVec 8) (hi : Bool) (o : VOp)
  /-- Element-wise minimum. (R213) -/
  | vmin (tile : BitVec 8) (hi : Bool) (o : VOp)
  /-- Element-wise maximum. (R213) -/
  | vmax (tile : BitVec 8) (hi : Bool) (o : VOp)
  /-- Element-wise absolute value. (R214) -/
  | vabs (tile : BitVec 8) (hi : Bool) (o : VOp)
  /-- Element-wise negate. (R214) -/
  | vneg (tile : BitVec 8) (hi : Bool) (o : VOp)
  /-- Element-wise reciprocal. (R214) -/
  | vrcp (tile : BitVec 8) (hi : Bool) (o : VOp)
  /-- Element-wise reciprocal square root. (R214) -/
  | vrsqrt (tile : BitVec 8) (hi : Bool) (o : VOp)
  /-- Element-wise square root. (R214) -/
  | vsqrt (tile : BitVec 8) (hi : Bool) (o : VOp)
  /-- Element-wise 2^a. (R214) -/
  | vexp2 (tile : BitVec 8) (hi : Bool) (o : VOp)
  /-- Element-wise log2. (R214) -/
  | vlog2 (tile : BitVec 8) (hi : Bool) (o : VOp)
  /-- Element-wise tanh. (R214) -/
  | vtanh (tile : BitVec 8) (hi : Bool) (o : VOp)
  /-- Element-wise format conversion. (R215) -/
  | vcvt (tile : BitVec 8) (hi : Bool) (o : VOp)
  /-- Scales elements by power-of-two exponents. (R215) -/
  | vscl (tile : BitVec 8) (hi : Bool) (o : VOp)
  /-- Largest magnitude of active elements. (R223) -/
  | vamax (tile : BitVec 8) (hi : Bool) (o : VOp)
  /-- Bitwise AND of patterns. (R217) -/
  | vand (tile : BitVec 8) (hi : Bool) (o : VOp)
  /-- Bitwise OR of patterns. (R217) -/
  | vor (tile : BitVec 8) (hi : Bool) (o : VOp)
  /-- Bitwise XOR of patterns. (R217) -/
  | vxor (tile : BitVec 8) (hi : Bool) (o : VOp)
  /-- Bitwise NOT of patterns. (R217) -/
  | vnot (tile : BitVec 8) (hi : Bool) (o : VOp)
  /-- Element shift left. (R217) -/
  | vshl (tile : BitVec 8) (hi : Bool) (o : VOp)
  /-- Element logical shift right. (R217) -/
  | vshr (tile : BitVec 8) (hi : Bool) (o : VOp)
  /-- Element arithmetic shift right. (R217) -/
  | vsar (tile : BitVec 8) (hi : Bool) (o : VOp)
  /-- Element compare by condition, writing 1 or 0. (R218) -/
  | vcmp (tile : BitVec 8) (hi : Bool) (o : VOp)
  /-- Selects each element from two sources by a mask. (R219) -/
  | vsel (tile : BitVec 8) (hi : Bool) (o : VOp)
  /-- Broadcasts a scalar to every active element. (R219) -/
  | vbcast (tile : BitVec 8) (hi : Bool) (o : VOp)
  /-- Copies element patterns. (R219) -/
  | vcopy (tile : BitVec 8) (hi : Bool) (o : VOp)
  /-- Gathers elements by an index region. (R220) -/
  | vperm (tile : BitVec 8) (hi : Bool) (o : VOp)
  /-- Writes element indices. (R220) -/
  | viota (tile : BitVec 8) (hi : Bool) (o : VOp)
  /-- Grouped tree sum of active elements. (R222) -/
  | vredsum (tile : BitVec 8) (hi : Bool) (o : VOp)
  /-- Maximum of active elements. (R223) -/
  | vredmax (tile : BitVec 8) (hi : Bool) (o : VOp)
  /-- Minimum of active elements. (R223) -/
  | vredmin (tile : BitVec 8) (hi : Bool) (o : VOp)
  /-- Inclusive scan with carry-in. (R224) -/
  | vscan (tile : BitVec 8) (hi : Bool) (o : VOp)
  /-- Grouped tree sum of squares. (R222) -/
  | vsqsum (tile : BitVec 8) (hi : Bool) (o : VOp)
  /-- Grouped tree dot product. (R222) -/
  | vdot (tile : BitVec 8) (hi : Bool) (o : VOp)
  /-- Writes twist-hash random numbers by global index. (R226) -/
  | vrng (tile : BitVec 8) (hi : Bool) (o : VOp)
  /-- Dropout: keeps and scales or zeroes each element by its draw. (R227) -/
  | vdrop (tile : BitVec 8) (hi : Bool) (o : VOp)
  /-- Folds elements into a checksum and raises silent-error on mismatch. (R228) -/
  | vkat (tile : BitVec 8) (hi : Bool) (o : VOp)
  /-- Clamps elements to a pair. (R216) -/
  | vclamp (tile : BitVec 8) (hi : Bool) (o : VOp)
  /-- Counts non-zero active elements. (R223) -/
  | vpopc (tile : BitVec 8) (hi : Bool) (o : VOp)
  /-- Packs selected elements. (R221) -/
  | vcompress (tile : BitVec 8) (hi : Bool) (o : VOp)
  /-- Spreads elements to selected positions. (R221) -/
  | vexpand (tile : BitVec 8) (hi : Bool) (o : VOp)
  /-- Writes an engine shadow register at acceptance. (R249) -/
  | ewr (tile : BitVec 8) (o : EOp)
  /-- Reads an engine register into a scalar. (R249) -/
  | erd (tile : BitVec 8) (o : EOp)
  /-- Sends one command code to an engine. (R249) -/
  | etrig (tile : BitVec 8) (o : EOp)
  /-- Sends an abort to an engine. (R249) -/
  | eabort (tile : BitVec 8) (o : EOp)
  /-- Holds later engine operations until the engine is idle. (R249) -/
  | ewaitq (tile : BitVec 8) (o : EOp)
  /-- Package reset starts bring-up: each die's boot ROM verifies its firmware, and the phases of BOOT_STAT begin. (R461) -/
  | packageReset (cfail : BitVec 9) (pfail : BitVec 4) (ports : BitVec 2)
  /-- A Toldody link finishes training at the highest common revision, or goes down; a compute die left with no link to a port die is lost. (R463) -/
  | toldodyLinkTrained (link : BitVec 6) (reva : BitVec 16) (revb : BitVec 16)
  /-- A tamper, glitch, debug or signature alarm sets src, raises count, sends MSI-X entry 16 and, by level, halts and may zeroise. (R467) -/
  | securityAlarm (src : BitVec 2)
  /-- A die is lost: every node whose touched-dies mask holds it stops with die-lost, dirty lines are marked lost and candidates are tested again. (R421) -/
  | dieLost (die : BitVec 3)
  /-- A strand link trains, sets up and begins the TIME stamp exchange with its peer. (R452) -/
  | strandLinkUp (port : BitVec 4) (peer : BitVec 12) (pport : BitVec 4) (peerTime : BitVec 64)
  /-- A strand link goes down; up and align clear, and any collective using it aborts. (R451) -/
  | strandLinkDown (port : BitVec 4)
  /-- Every 1 s the two ends of a strand link exchange TIME stamps, and the higher FAB_ID slews its timebase, setting align within 50 ns. (R452) -/
  | timeAlignExchange (port : BitVec 4) (peerTime : BitVec 64)
  /-- An add sent by a remote F9 arrives at a strand port and is performed on the local reel as a release at .fab, or refused to the sender. (R359) -/
  | strandReelAdd (port : BitVec 4) (asid : BitVec 11) (addr : BitVec 64) (v : BitVec 64)
  /-- A management-host write of FREQ_CMD.point starts a frequency change and sets busy; it is dropped while busy. (R448) -/
  | freqCmd (host : BitVec 1) (val : BitVec 64)
  /-- A doorbell write of LQ_TAIL makes records visible to the dispatcher, or sets overflow and clears enable when it exceeds the ring. (R37) -/
  | lqTailWrite (host : BitVec 1) (level : BitVec 5) (val : BitVec 64)
  /-- A write of LQ_CTL is applied or refused with ctlerr for a bad logsize, lift, aging interval or a change while the queue is busy. (R37) -/
  | lqCtlWrite (host : BitVec 1) (level : BitVec 5) (val : BitVec 64)
  /-- A write of LQ_BASE is applied, or refused with ctlerr when it changes base or loc while enabled and non-empty. (R37) -/
  | lqBaseWrite (host : BitVec 1) (level : BitVec 5) (val : BitVec 64)
  /-- An idle tile picks a ready bobbin from its creel head, zeroes its registers, latches and queues and loads s58-s63 from the carries. (R75) -/
  | bobbinPickup (tile : BitVec 8)
  /-- An idle tile probes the next local tile of its pack and takes the oldest ready entry from its creel tail, or counts a failed attempt. (R57) -/
  | stealAttempt (tile : BitVec 8)
  /-- After the set number of failed attempts the die steward searches other dies and takes a bobbin from the fullest creel's tail. (R57) -/
  | stewardSteal (tile : BitVec 8)
  /-- The tile fetches the halfword at pc and takes it as a dictionary index, a literal escape, or an illegal index. (R61) -/
  | indexFetch (tile : BitVec 8)
  /-- The tile dispatches one bundle into the slot issue queues, charging its energy weight, or stops at a decode fault. (R98) -/
  | bundleDispatch (tile : BitVec 8)
  /-- The oldest bundle, fully issued and resolved, commits: staged results, pops, writes and engine operations become final. (R102) -/
  | bundleCommit (tile : BitVec 8)
  /-- An operation's result lands at the end of tick t+L-1 in its latch, register or queue. (R105) -/
  | resultLanding (tile : BitVec 8)
  /-- The reply of a remote or global access arrives at the tile; a freeze waiting on it ends and the frozen tick runs. (R182) -/
  | remoteReplyArrival (tile : BitVec 8) (req : BitVec 16)
  /-- A declared-latency result reaches its landing tick before its reply, or a full window waits on a translation, and the tile freezes. (R119) -/
  | freezeBegin (tile : BitVec 8)
  /-- A shadow latch flags a late transition and the replay unit re-executes four ticks at half clock, or restarts a replay. (R116) -/
  | lateTransitionFlag (tile : BitVec 8)
  /-- On a regulator slew or sensed droop the stretcher lengthens a tile cycle up to twice the period. (R118) -/
  | clockStretch (tile : BitVec 8)
  /-- A trapping bundle becomes oldest; it and younger bundles are undone, the cause and mask are recorded and the node stops. (R397) -/
  | preciseTrap (tile : BitVec 8)
  /-- A fault of a vector operation, engine or conflict arising after commit is taken in the next tick with a zero mask. (R398) -/
  | inFlightFault (tile : BitVec 8)
  /-- A write of FR_CTL is applied or refused with ctlerr; setting ien with records pending sends a message, setting enable writes held records. (R403) -/
  | frCtlWrite (host : BitVec 1) (ring : BitVec 4) (val : BitVec 64)
  /-- A write of FR_BASE is applied, or refused with ctlerr while enabled and non-empty. (R403) -/
  | frBaseWrite (host : BitVec 1) (ring : BitVec 4) (val : BitVec 64)
  /-- The host advances FR_HEAD, or is refused; held stop and rejected records are then written as room appears. (R403) -/
  | frHeadWrite (host : BitVec 1) (ring : BitVec 4) (val : BitVec 64)
  /-- Clearing ipend while records are pending and ien = 1 sends one further message at once. (R405) -/
  | frStatIpendClear (host : BitVec 1) (ring : BitVec 4) (val : BitVec 64)
  /-- NODE_CMD resume restarts a stopped node at its stopped bundle, or makes a saved node a pre-empted candidate. (R407) -/
  | nodeResume (host : BitVec 1) (val : BitVec 64)
  /-- NODE_CMD resume-over resumes a node stopped by breakpoint with the brk acting as nop once. (R407) -/
  | nodeResumeOver (host : BitVec 1) (val : BitVec 64)
  /-- NODE_CMD save writes a stopped node's context, frees its tiles and leaves it saved. (R407) -/
  | nodeSave (host : BitVec 1) (val : BitVec 64)
  /-- NODE_CMD kill ends a node, freeing tiles and slots without a completion add. (R407) -/
  | nodeKill (host : BitVec 1) (val : BitVec 64)
  /-- NODE_CMD yield posts a yield request to every tile of a running node. (R407) -/
  | nodeYield (host : BitVec 1) (val : BitVec 64)
  /-- TLBI_CMD kind 0 starts invalidating the page holding vpn in an ASID, or is refused with err. (R242) -/
  | tlbiPage (host : BitVec 1) (val : BitVec 64)
  /-- TLBI_CMD kind 1 starts invalidating every entry of an ASID. (R242) -/
  | tlbiAsid (host : BitVec 1) (val : BitVec 64)
  /-- TLBI_CMD kind 2 starts invalidating every ASID of the writing host. (R242) -/
  | tlbiHost (host : BitVec 1) (val : BitVec 64)
  /-- FRZ_CTL freeze makes the home stack bounce atomics and reel operations to a frame and recall its cached lines. (R245) -/
  | frzFreeze (host : BitVec 1) (val : BitVec 64)
  /-- FRZ_CTL thaw ends the bouncing of a frame this host froze. (R245) -/
  | frzThaw (host : BitVec 1) (val : BitVec 64)
  /-- A channel's patrol engine reads its next granule and writes back a corrected one if the stored codeword is unchanged. (R431) -/
  | patrolScrubRead (channel : BitVec 8)
  /-- A host read or write through BAR2 reaches a DPA untranslated, coherently, or completes with UR or Completer Abort. (R450) -/
  | windowBarAccess (host : BitVec 1) (addr : BitVec 64) (ctl : BitVec 8) (data : BitVec 64)
  /-- A host FetchAdd, Swap or CAS through the window BAR is performed by the home stack's near-memory atomic unit. (R446) -/
  | completerAtomicop (ctl : BitVec 8) (addr : BitVec 64) (data : BitVec 64) (data2 : BitVec 64)
  /-- A write of HKADD_VAL starts a host add to the reel at HKADD_ADDR, or refuses it with err and a cause. (R361) -/
  | hkadd (host : BitVec 1) (val : BitVec 64)
  /-- A LEASE_CMD write evicts each named engine, or returns a woken one to the kennel. (R283) -/
  | leaseCmdEvict (host : BitVec 1) (tile : BitVec 8) (val : BitVec 64)
  /-- SHEP_FCMD clear zeroes a tile's pool, clears its flash and bank marks and lets the dispatcher place on it again. (R439) -/
  | shepFcmdClear (host : BitVec 1) (val : BitVec 64)
  /-- A write of SUM_CMD starts writing the SUMMARY record to an address, or is refused. (R468) -/
  | sumCmd (host : BitVec 1) (val : BitVec 64)
  /-- A write of ATT_CMD starts an attestation quote over the host's nonce, or is refused. (R465) -/
  | attCmd (host : BitVec 1) (val : BitVec 64)
  /-- A write of TILE_DBG sets pending mode from the next tick it reaches the tile. (R108) -/
  | tileDbgWrite (host : BitVec 1) (tile : BitVec 8) (val : BitVec 64)
  /-- A write of CSA_BASE or CSA_CNT is applied, or refused with a management-access record while nodes are live; candidates are tested again. (R412) -/
  | csaWrite (host : BitVec 1) (reg : BitVec 1) (val : BitVec 64)
  /-- A write of HOST_CFG.split is applied, or refused while any node is live. (R447) -/
  | hostCfgWrite (host : BitVec 1) (val : BitVec 64)
  /-- A write of ALARM_CTL sets level and lock, or is dropped for level 3, a lowering while locked, or clearing lock. (R466) -/
  | alarmCtlWrite (host : BitVec 1) (val : BitVec 64)
  /-- A write of SCRUB_CTL sets the patrol rate and enable, or is refused with ctlerr. (R432) -/
  | scrubCtlWrite (host : BitVec 1) (val : BitVec 64)
  /-- A write of SHEP_CTL sets pinned mode and targets, or is refused with ctlerr. (R443) -/
  | shepCtlWrite (host : BitVec 1) (tile : BitVec 8) (val : BitVec 64)
  /-- A write of DIE_STEAL_CTL sets steal controls, or tries = 0 is dropped with a management-access record. (R58) -/
  | dieStealCtlWrite (host : BitVec 1) (die : BitVec 3) (val : BitVec 64)
  /-- A host write of any other control-BAR register follows its access codes, dropping non-management writes and bad sizes. (R6) -/
  | mmioRegisterWrite (host : BitVec 1) (off : BitVec 26) (size : BitVec 4) (val : BitVec 64)
  /-- A host read of an RC field returns it and clears it. (R6) -/
  | rcRegisterRead (host : BitVec 1) (off : BitVec 26) (size : BitVec 4)
  /-- An engine accepts the next committed entry of its elastic buffer: ewr, erd, etrig, eabort or ewaitq. (R109) -/
  | elasticBufferAccept (tile : BitVec 8) (eng : BitVec 4)
  /-- An engine's power-up finishes and it begins accepting waiting commands. (R273) -/
  | enginePowerUpComplete (tile : BitVec 8) (eng : BitVec 4)
  /-- A copy sequencer resolves translations and conflict checks for burst k and moves its bytes in pieces, or stops with a run fault. (R259) -/
  | copyBurst (tile : BitVec 8) (cq : BitVec 1)
  /-- The gate reel reaches GATEB + g × GATES and the sequencer acquires and begins group g. (R263) -/
  | copyGateWaitEnd (tile : BitVec 8) (cq : BitVec 1)
  /-- The bound REEL leaves room for group g's addend and the sequencer begins the group. (R262) -/
  | copyBindingWaitEnd (tile : BitVec 8) (cq : BitVec 1)
  /-- After a group's writes are performed the sequencer adds to REEL with release and delivers any follow-on. (R261) -/
  | copySignal (tile : BitVec 8) (cq : BitVec 1)
  /-- A multiply's tile and ring waits are met and its compute phase starts. (R303) -/
  | arrayRingWaitEnd (tile : BitVec 8) (mx : BitVec 1)
  /-- A k-group's rows land in the accumulator tile, committing the group and raising wf on the last group. (R303) -/
  | arrayGroupLanding (tile : BitVec 8) (mx : BitVec 1)
  /-- The compute phase ends: ring slots are released, the stage frees and a drain phase may start. (R303) -/
  | arrayComputeEnd (tile : BitVec 8) (mx : BitVec 1)
  /-- A drain reads accumulator row i, once i < wf, and runs its program over 64 lanes. (R315) -/
  | drainRow (tile : BitVec 8) (mx : BitVec 1)
  /-- The dstq ring has room and the drain acquires released before the row's stores. (R327) -/
  | dstqWaitEnd (tile : BitVec 8) (mx : BitVec 1)
  /-- Six steps after a row is read its stores are performed, ws rises and dstq and dsig adds are made. (R329) -/
  | drainRowStore (tile : BitVec 8) (mx : BitVec 1)
  /-- In acceptance order the array adds to DONE with release and ORs its flags into FPSTAT. (R302) -/
  | arrayDoneAdd (tile : BitVec 8) (mx : BitVec 1)
  /-- A special engine performs one unit of its running command. (R339) -/
  | engineUnit (tile : BitVec 8) (eng : BitVec 4)
  /-- After its last unit's writes are performed the engine sets RES, ORs flags and adds to DONE. (R339) -/
  | engineCommandComplete (tile : BitVec 8) (eng : BitVec 4)
  /-- At the first flit with a neighbour fx0 checks command and parameters match, aborting both ends on a mismatch. (R455) -/
  | fxFirstFlitCheck (tile : BitVec 8)
  /-- fx0 sends one chunk through next and receives one through prev, reducing or storing it. (R456) -/
  | fxChunkStep (tile : BitVec 8)
  /-- A receiving strand port makes the receiver-side DONE add as a release at .fab, or a refused add stops both sides. (R457) -/
  | fxReceiveAdd (tile : BitVec 8)
  /-- An abort marker arrives and fx0 aborts at once with cause 4. (R458) -/
  | fxAbortMarkerArrival (tile : BitVec 8)
  /-- The vector unit starts a queued operation at t0, fixing its element schedule. (R106) -/
  | vectorOperationStart (tile : BitVec 8)
  /-- One group of W elements is read, computed and scheduled to land, possibly raising an in-flight fault. (R106) -/
  | vectorElementGroup (tile : BitVec 8)
  /-- The part wakes a parked waiter whose threshold may be unmet, with no acquire. (R368) -/
  | spuriousWake (tile : BitVec 8) (idx : BitVec 12)
  /-- A window ends on its bundle count and the governor raises, lowers or keeps the voltage. (R440) -/
  | governorWindowEnd (tile : BitVec 8)
  /-- An alarm or margin-class error restores the safe voltage, raises the floor and writes flash. (R441) -/
  | safeRestore (tile : BitVec 8)
  /-- Every 1 micros the governor reads the tile's current and adjusts P. (R442) -/
  | currentReading (tile : BitVec 8) (reading : BitVec 16)
  /-- Every 10 micros the governor reads the temperature. (R442) -/
  | temperatureReading (tile : BitVec 8) (reading : BitVec 16)
  /-- Margin tables and bank marks are loaded from flash, and the part moves from 1.2 GHz to the configured frequency point. (R19) -/
  | marginTableLoad
  /-- After voltages reach the new point on a rise and any replay completes, all tile clocks stop together and the frequency changes. (R18) -/
  | freqChangeClockStop
  /-- The clocks restart after the frequency change; on a fall voltages then move, and busy clears when done. (R18) -/
  | freqChangeClockRestart
  /-- The dispatcher reads the record at a queue head and checks it; a failing record is rejected with a fault record and the head advances. (R34) -/
  | launchRecordCheck
  /-- The dispatcher learns that every dependence reel of a node has reached its threshold, with an acquire at .sys, and the node becomes eligible. (R32) -/
  | dependenceMet
  /-- An eligible unplaced head record has waited an aging interval and counts one level higher, up to lift. (R42) -/
  | agingLift
  /-- The dispatcher serves the highest level holding a candidate, by pre-empted age and deficit round-robin, and places or holds it. (R39) -/
  | placementDecision
  /-- Every tile of a placed node has loaded its sections and pack registers, and the node becomes running with one root bobbin per tile. (R60) -/
  | launchLoadComplete
  /-- A dictionary page fill from the node's image finishes into its victim frame and the stalled core resumes. (R64) -/
  | dictionaryFillComplete
  /-- A 64-byte line of the index stream lands in the fetch buffer, ending the core stall of its miss. (R67) -/
  | fetchBufferFillComplete
  /-- A freeze reaches 2^22 cycles and the tile stops the node with freeze-timeout, keeping the operation in the snapshot. (R121) -/
  | freezeWatchdogExpiry
  /-- The part writes a fault record into its ring slot at .sys, advances tail and sends MSI-X, or holds, drops or fails it. (R404) -/
  | faultRecordWrite
  /-- A node command's effect completes and NODE_STAT.busy clears. (R406) -/
  | nodeCommandComplete
  /-- A yield deadline expires and the dispatcher pre-empts every unanswered tile by force. (R410) -/
  | yieldDeadlineExpiry
  /-- Every tile's slot has been written and the node becomes pre-empted or saved. (R413) -/
  | contextSaveComplete
  /-- On resumption each tile restores its slot, checks it, restores leases and waits, and lands saved results at their offsets. (R416) -/
  | contextRestore
  /-- With every engine idle and every write performed, held records are written, the completion reel is added and resources are freed. (R422) -/
  | retirementComplete
  /-- Every named entry is removed, walks restarted and accesses performed, and TLBI_STAT.busy clears. (R243) -/
  | tlbiComplete
  /-- Every die-cached line of a frozen frame has been recalled, and FRZ_CTL.busy clears. (R245) -/
  | freezeRecallComplete
  /-- A miss in both TLBs starts a page walk from level 3, which yields a leaf, a fault, or a wait on a migrating page. (R238) -/
  | translationWalk
  /-- A page walk ends, installing a leaf in the TLBs or returning a translation fault to its requesters. (R240) -/
  | walkComplete
  /-- Every 2 micros a walk that found mig = 1 repeats from level 3. (R247) -/
  | migrationWalkRetry
  /-- A frozen frame bounces an atomic or reel operation before acceptance; the issuer retranslates and resends it. (R245) -/
  | atomicBounce
  /-- A remote load, store, atomic or reel request reaches a tile's bank or synchronisation unit and is performed there. (R187) -/
  | remotePoolRequest
  /-- A device-memory atomic or reel operation is performed indivisibly by the home stack's near-memory atomic unit. (R187) -/
  | nearMemoryAtomic
  /-- A granule's conflict check answers an access, reserving the granule or raising conflict or conflict-capacity. (R390) -/
  | conflictCheckAnswer
  /-- A corrected codeword is written back in the segment's next free cycle, unless a write has intervened. (R426) -/
  | poolCorrectionWriteback
  /-- Correctable errors in a bank reach 64, the bank is marked failed in flash, substituted by the spare or erased, and a fourth retires the tile. (R427) -/
  | bankMarkFailed
  /-- In an idle segment cycle one line of a failed bank is rebuilt onto the spare and the rebuild line advances. (R428) -/
  | bankRebuildLine
  /-- After the host's earlier writes on the port are performed, the add is performed as a release at .sys and busy clears. (R361) -/
  | hkaddPerform
  /-- The mark-clearing command finishes its flash write and bank updates, and busy clears. (R439) -/
  | shepFcmdComplete
  /-- The SUMMARY record is written and performed at .sys and SUM_STAT.busy clears. (R468) -/
  | summaryComplete
  /-- The signed quote is written and performed at .sys and ATT_STAT.busy clears. (R465) -/
  | attQuoteComplete
  /-- The lease-queue head is granted when points allow, readying any bobbin parked on it. (R275) -/
  | leaseQueueGrant
  /-- A leased array idle for the idle count becomes gated. (R279) -/
  | idleGating
  /-- A woken instance unclaimed for the idle count returns to the kennel and its points return. (R279) -/
  | wokenIdleReturn
  /-- A releasing engine finishes its accepted commands, enters the kennel and returns its points or passes to a waiting request. (R278) -/
  | releaseComplete
  /-- A request blocked by standby points waits grace micros and the standby leases are released to it. (R288) -/
  | standbyGraceExpiry
  /-- An engine or sequencer meets a run fault, stops at the faulting unit and stops the node. (R266) -/
  | engineRunFault
  /-- No flit arrives or is accepted for TMO micros and fx0 aborts the command. (R458) -/
  | fxTimeout
  /-- A waiter polling in place finishes its b-tick hold, doubles b and reads the reel again. (R366) -/
  | pollBackoffExpiry
  /-- Every 32 micros, or when the tile becomes idle, the synchronisation unit tests the reel of a waiter parked in polling form. (R367) -/
  | parkedPollTest
  /-- A sleepk's w-tick hold ends and dispatch of younger bundles resumes. (R162) -/
  | sleepkWaitEnd
  /-- A window reaches 10 ms and ends with no change. (R440) -/
  | governorWindowTimeout
  /-- Every 100 micros the governor lowers or raises G by temperature. (R442) -/
  | grantAdjust
  /-- Current or temperature beyond the emergency limits sets G = 4 and evicts until H ≤ 4. (R442) -/
  | governorEmergency
  /-- No emergency condition has held for 100 micros and the emergency ends. (R442) -/
  | emergencyEnd
  /-- Every 24 h the governor updates the slope and writes its flash entry. (R438) -/
  | marginDailyWrite
  /-- The PCIe link of the management host fails in service, and the management host does not change until package reset. (R470) -/
  | managementPortFailure
deriving DecidableEq, Repr

end Sys2Proof
end

