-- ==== Sys2Proof/Machine/Forms.lean ====
section
/-! DEFINITION. Which fields and ports each slot operation allows: the decode faults of its slot word
(03 R72, R74, R78; 04 R92; 05 R111; 07 R146, R163, R168; 08 R177; 09 R206; 11 R249). -/

namespace Sys2Proof

/-- The two decode faults of a slot word (04 R92). -/
inductive DecodeFault where
  | illegalOperation
  | illegalPort
deriving DecidableEq, Repr

namespace Machine

/-- The special registers that exist (03 R78). -/
def specialDefined (n : BitVec 6) : Bool :=
  decide (n.toNat ≤ 0x0A) || (decide (0x10 ≤ n.toNat) && decide (n.toNat ≤ 0x1A)) || decide (n.toNat = 0x20)

/-- The special registers a program may write: FPSTAT, FPCTL, SHEP_HINT (03 R78). -/
def specialWritable (n : BitVec 6) : Bool :=
  decide (n.toNat = 0x07) || decide (n.toNat = 0x08) || decide (n.toNat = 0x20)

/-- Registers, latches and special registers: what every slot may read (03 R74, R78). -/
def plainReadable : Port → Bool
  | .s _ | .p _ | .m _ | .aaL _ | .abL _ | .xaL _ | .xbL _ | .caL _ => true
  | .special n => specialDefined n
  | _ => false

/-- Registers and writable special registers: what every slot may write (03 R74, R78). -/
def plainWritable : Port → Bool
  | .s _ | .p _ | .m _ => true
  | .special n => specialWritable n
  | _ => false

/-- A source port of slot ca or ea (03 R74, R76). -/
def readableC : Port → Bool
  | .imm => true
  | p => plainReadable p

/-- A source port of slots aa and ab: store queues pop there (03 R74, R76). -/
def readableM : Port → Bool
  | .sq _ => true
  | p => plainReadable p

/-- A source port of slots xa and xb: load queues pop there (03 R74, R76). -/
def readableS : Port → Bool
  | .lq _ => true
  | .imm => true
  | p => plainReadable p

/-- A destination of slots aa and ab: load queues are pushed there (03 R74). -/
def writableM : Port → Bool
  | .lq _ => true
  | p => plainWritable p

/-- A destination of slots xa and xb: store queues are pushed there (03 R74). -/
def writableS : Port → Bool
  | .sq _ => true
  | p => plainWritable p

/-- The port number 0, which an unused port field must hold. -/
def isZeroPort (p : Port) : Bool := decide (p = .s 0)

/-- illegal-operation precedes illegal-port (04 R94). -/
def faultOf (opBad portBad : Bool) : Option DecodeFault :=
  if opBad then some .illegalOperation else if portBad then some .illegalPort else none

/-- Guard 0b1000 is reserved (03 R70). -/
def guardBad (g : Guard) : Bool := g.neg && decide (g.p = 0)

/-- A C operation that uses only what `targetUsed` and `immOk` say, and no countport (07 R146). -/
def formC0 (o : COp) (targetUsed immOk : Bool) : Option DecodeFault :=
  faultOf (guardBad o.guard || (!targetUsed && decide (o.target ≠ 0)) || !isZeroPort o.cport || !immOk) false

/-- A C operation whose countport is a source; imm carries the value of port 0x3FF, else it is 0 (07 R146). -/
def formCSrc (o : COp) (targetUsed : Bool) : Option DecodeFault :=
  faultOf (guardBad o.guard || (!targetUsed && decide (o.target ≠ 0)) || (decide (o.cport ≠ .imm) && decide (o.imm ≠ 0)))
    (!readableC o.cport)

/-- suspend and join: countport is a source other than 0x3FF, imm holds scope and register (07 R146). -/
def formCWait (o : COp) : Option DecodeFault :=
  faultOf (guardBad o.guard || decide (o.target ≠ 0) || decide (o.cport = .imm) || decide (o.imm.toNat / 2 ^ 11 ≠ 0)
      || decide (o.imm.toNat / 256 % 8 > 4))
    (!readableC o.cport)

/-- The kinds that lease and wake accept (07 R156, R157). -/
def leaseKindOk (k : Nat) : Bool := decide (k = 0) || (decide (2 ≤ k) && decide (k ≤ 7))

/-- lease and leasew (07 R146, R156). -/
def formCLease (o : COp) : Option DecodeFault :=
  let k := o.imm.toNat % 16
  let inst := o.imm.getLsbD 4
  let portOk := match o.cport with
    | .s n => decide (n = 0)
    | .p n => decide (n ≠ 0)
    | _ => false
  faultOf (guardBad o.guard || decide (o.target ≠ 0) || decide (o.imm.toNat / 2 ^ 7 ≠ 0) || !portOk
      || (if inst then decide (k > 7) else !leaseKindOk k)) false

/-- ovl: the page from countport, or from imm (07 R160). -/
def formCOvl (o : COp) : Option DecodeFault :=
  faultOf (guardBad o.guard || decide (o.target ≠ 0)
      || (!isZeroPort o.cport && decide (o.cport ≠ .imm) && decide (o.imm ≠ 0)))
    (!readableC o.cport)

/-- sleepk.set: floor and ceiling exponents (07 R162). -/
def formCSleepSet (o : COp) : Option DecodeFault :=
  let f := o.imm.toNat % 32
  let c := o.imm.toNat / 32 % 32
  faultOf (guardBad o.guard || decide (o.target ≠ 0) || !isZeroPort o.cport || !o.imm.getLsbD 12
      || o.imm.getLsbD 11 || o.imm.getLsbD 10 || decide (f < 6) || decide (c < f) || decide (16 < c)) false

/-- The source form of sleepk: countport is not 0 (07 R162). -/
def formCSleepSrc (o : COp) : Option DecodeFault :=
  if isZeroPort o.cport then some .illegalOperation else formCSrc o false

/-- The plain form of sleepk (07 R162). -/
def formCSleep (o : COp) : Option DecodeFault := formC0 o false (decide (o.imm = 0))

/-- fence: order and scope in imm; order rlx and scopes above .fab are refused (07 R146). -/
def formCFence (o : COp) : Option DecodeFault :=
  formC0 o false (decide (o.imm.toNat / 2 ^ 5 = 0) && decide (o.imm.toNat / 8 % 4 ≠ 0) && decide (o.imm.toNat % 8 ≤ 4))

/-- Whether a row of the access class allows a size of b, h, w and d. -/
def sizeBhwd (z : Size) : Bool := decide (z ≠ .line)

/-- Whether a row allows a size of w and d. -/
def sizeWd (z : Size) : Bool := decide (z = .w) || decide (z = .d)

/-- An M operation: its allowed size and order, the use of its data port, and the port checks (08 R177).
`hasOrder` is false for a row that allows no order. -/
def formM (o : MOp) (sizeOk orderOk hasOrder dataOp dataPort indexOk : Bool) : Option DecodeFault :=
  faultOf (guardBad o.guard || !sizeOk || !orderOk || !dataOp || !indexOk
      || (decide (o.scope ≠ .tile) && (decide (o.order = .rlx) || !hasOrder)))
    (!dataPort || !readableM o.base || !readableM o.index)

/-- rlx or acq. -/
def ordLoad (o : MOp) : Bool := decide (o.order = .rlx) || decide (o.order = .acq)

/-- rlx or rel. -/
def ordStore (o : MOp) : Bool := decide (o.order = .rlx) || decide (o.order = .rel)

/-- ld and ldc. -/
def formMLoad (o : MOp) : Option DecodeFault := formM o (sizeBhwd o.size) (ordLoad o) true true (writableM o.data) true

/-- st and stc. -/
def formMStore (o : MOp) : Option DecodeFault := formM o (sizeBhwd o.size) (ordStore o) true true (readableM o.data) true

/-- A load queue port. -/
def isLq : Port → Bool
  | .lq _ => true
  | _ => false

/-- A store queue port. -/
def isSq : Port → Bool
  | .sq _ => true
  | _ => false

/-- ldq. -/
def formMLdq (o : MOp) : Option DecodeFault := formM o (sizeBhwd o.size) (ordLoad o) true (isLq o.data) true true

/-- stq. -/
def formMStq (o : MOp) : Option DecodeFault := formM o (sizeBhwd o.size) (ordStore o) true (isSq o.data) true true

/-- pref. -/
def formMPref (o : MOp) : Option DecodeFault :=
  formM o (decide (o.size = .line)) (decide (o.order = .rlx)) false (isZeroPort o.data) true true

/-- rdset and rdadv; the order field is the form field (08 R177). -/
def formMRdW (o : MOp) (form : Order) : Option DecodeFault :=
  formM o (decide (o.size = .d)) (decide (o.order = form)) false true (readableM o.data) (isZeroPort o.index)

/-- rdget. -/
def formMRdR (o : MOp) (form : Order) : Option DecodeFault :=
  formM o (decide (o.size = .d)) (decide (o.order = form)) false true (writableM o.data) (isZeroPort o.index)

/-- The atomics of sizes w and d. -/
def formMAtomic (o : MOp) : Option DecodeFault := formM o (sizeWd o.size) true true true (readableM o.data) true

/-- The floating atomics. -/
def formMAtomicF (o : MOp) : Option DecodeFault := formM o (decide (o.size = .w)) true true true (readableM o.data) true

/-- kadd. -/
def formMKadd (o : MOp) : Option DecodeFault := formM o (decide (o.size = .d)) (ordStore o) true true (readableM o.data) true

/-- kwait: always acq. -/
def formMKwait (o : MOp) : Option DecodeFault :=
  formM o (decide (o.size = .d)) (decide (o.order = .acq)) true true (readableM o.data) true

/-- kread. -/
def formMKread (o : MOp) : Option DecodeFault := formM o (decide (o.size = .d)) (ordLoad o) true true (writableM o.data) true

/-- kpoll. -/
def formMKpoll (o : MOp) : Option DecodeFault := formM o (decide (o.size = .d)) (ordLoad o) true true (readableM o.data) true

/-- kbind and kinit: no order. -/
def formMKset (o : MOp) : Option DecodeFault :=
  formM o (decide (o.size = .d)) (decide (o.order = .rlx)) false true (readableM o.data) true

/-- The two-source class (07 R163). -/
def formS2 (o : SOp) : Option DecodeFault :=
  faultOf (guardBad o.guard || (decide (o.srcA ≠ .imm) && decide (o.srcB ≠ .imm) && decide (o.imm ≠ 0)))
    (!readableS o.srcA || !readableS o.srcB || !writableS o.dst)

/-- The one-source class (07 R163). -/
def formS1 (o : SOp) : Option DecodeFault :=
  faultOf (guardBad o.guard || !isZeroPort o.srcB || (decide (o.srcA ≠ .imm) && decide (o.imm ≠ 0)))
    (!readableS o.srcA || !writableS o.dst)

/-- li (07 R163). -/
def formSLi (o : SOp) : Option DecodeFault :=
  faultOf (guardBad o.guard || !isZeroPort o.srcA || !isZeroPort o.srcB) (!writableS o.dst)

/-- lih (07 R163). -/
def formSLih (o : SOp) : Option DecodeFault :=
  faultOf (guardBad o.guard || decide (o.srcA = .imm) || !isZeroPort o.srcB || o.imm.getLsbD 16)
    (!readableS o.srcA || !writableS o.dst)

/-- The control-word class: both sources are ports, and the control word passes its own check (07 R163). -/
def formSCtl (o : SOp) (ctlOk : Bool) : Option DecodeFault :=
  faultOf (guardBad o.guard || decide (o.srcA = .imm) || decide (o.srcB = .imm) || !ctlOk)
    (!readableS o.srcA || !readableS o.srcB || !writableS o.dst)

/-- bins: w up to 64, bits 16:13 zero (07 R165). -/
def formSBins (o : SOp) : Option DecodeFault :=
  formSCtl o (decide (o.imm.toNat / 2 ^ 13 = 0) && decide (o.imm.toNat / 64 ≤ 64))

/-- sel: the predicate in bits 2:0 (07 R166). -/
def formSSel (o : SOp) : Option DecodeFault := formSCtl o (decide (o.imm.toNat / 8 = 0))

/-- Field fmt of a floating control word (07 R168). -/
def ctlFmt (i : BitVec 17) : Nat := i.toNat / 2 ^ 13

/-- Field sfmt of a floating control word (07 R168). -/
def ctlSfmt (i : BitVec 17) : Nat := i.toNat / 2 ^ 9 % 16

/-- Field rounding of a floating control word (07 R168). -/
def ctlRnd (i : BitVec 17) : Nat := i.toNat / 2 ^ 6 % 8

/-- Field cond of a floating control word (07 R168). -/
def ctlCond (i : BitVec 17) : Nat := i.toNat % 8

/-- fmt 0x8 to 0xB (07 R168). -/
def ctlFmtF (i : BitVec 17) : Bool := decide (8 ≤ ctlFmt i) && decide (ctlFmt i ≤ 11)

/-- The control word of fadd, fsub, fmul, ffma (07 R168). -/
def ctlArithOk (i : BitVec 17) : Bool :=
  ctlFmtF i && decide (ctlSfmt i = 0) && decide (ctlRnd i ≠ 6) && decide (ctlCond i = 0)

/-- The control word of fmin and fmax: fmt and fzi alone (07 R168). -/
def ctlMinOk (i : BitVec 17) : Bool :=
  ctlFmtF i && decide (ctlSfmt i = 0) && decide (ctlRnd i = 0) && !i.getLsbD 4 && !i.getLsbD 3 && decide (ctlCond i = 0)

/-- The control word of fcmp: fmt, fzi and cond (07 R168). -/
def ctlCmpOk (i : BitVec 17) : Bool :=
  ctlFmtF i && decide (ctlSfmt i = 0) && decide (ctlRnd i = 0) && !i.getLsbD 4 && !i.getLsbD 3

/-- The control word of fcvt (07 R168). -/
def ctlCvtOk (i : BitVec 17) : Bool :=
  decide (ctlFmt i ≤ 14) && decide (ctlSfmt i ≤ 14) && decide (ctlRnd i ≠ 6) && decide (ctlCond i = 0)

/-- ffma: the destination is s1 to s63 (07 R169). -/
def isS1to63 : Port → Bool
  | .s n => decide (n ≠ 0)
  | _ => false

/-- ffma. -/
def formSFfma (o : SOp) : Option DecodeFault := formSCtl o (ctlArithOk o.imm && isS1to63 o.dst)

/-- fcvt: one source (07 R163). -/
def formSCvt (o : SOp) : Option DecodeFault :=
  faultOf (guardBad o.guard || decide (o.srcA = .imm) || !isZeroPort o.srcB || !ctlCvtOk o.imm)
    (!readableS o.srcA || !writableS o.dst)

/-- What a vector instruction may use beside its guard (09 R206). -/
structure VForm where
  vd : Bool
  va : Bool
  vb : Bool
  rnd : Bool
  fzi : Bool
  fzo : Bool
  sat : Bool
  /-- 0 forbidden, 1 allowed, 2 required. -/
  mask : Nat
deriving DecidableEq, Repr

/-- The fields of a vector operation against its row of the form table (09 R206, 03 R72). `cmp` lets bits 11:9
carry a condition. -/
def formV (o : VOp) (f : VForm) (cmp : Bool) : Option DecodeFault :=
  faultOf (guardBad o.guard
      || (!f.vd && (decide (o.vd ≠ 0) || o.qd))
      || (!f.va && (decide (o.va ≠ 0) || o.qa))
      || (!f.vb && (decide (o.vb ≠ 0) || o.qb))
      || (o.qa && decide (o.va.toNat / 8 ≠ 0)) || (o.qb && decide (o.vb.toNat / 8 ≠ 0))
      || (!cmp && decide (o.rnd = 6)) || (!cmp && !f.rnd && decide (o.rnd ≠ 0))
      || (!f.fzi && o.fzi) || (!f.fzo && o.fzo) || (!f.sat && o.sat)
      || (decide (f.mask = 0) && decide (o.mask ≠ 0)) || (decide (f.mask = 2) && decide (o.mask = 0))) false

/-- The engine classes that share a register map. -/
inductive RegMap where
  | cq | mx | spec | fx
deriving DecidableEq, Repr

/-- The register map of an engine (11 R250, 13 R293, 15 R335, 20 R453). -/
def regMap : EngineId → RegMap
  | .cq0 | .cq1 => .cq
  | .mx0 | .mx1 => .mx
  | .fx0 => .fx
  | _ => .spec

/-- Shadow registers that exist (11 R250; 12 R281; 13 R293; 15 R335; 20 R453). -/
def shadowDefined (e : EngineId) (n : Nat) : Bool :=
  match regMap e with
  | .cq => decide (n ≤ 29) || decide (n = 48) || decide (n = 49)
  | .mx => decide (n ≤ 7) || (decide (16 ≤ n) && decide (n ≤ 39)) || (decide (48 ≤ n) && decide (n ≤ 51))
  | .spec => decide (n ≤ 11) || (decide (48 ≤ n) && decide (n ≤ 51))
  | .fx => decide (n ≤ 12) || (decide (48 ≤ n) && decide (n ≤ 51))

/-- Shadow registers that a program may write. -/
def shadowWritable (e : EngineId) (n : Nat) : Bool :=
  shadowDefined e n && match regMap e with
  | .cq => decide (n ≤ 29)
  | .mx => decide (n ≤ 5) || (decide (16 ≤ n) && decide (n ≤ 31)) || decide (n = 50)
  | .spec => decide (n ≤ 10) || decide (n = 50)
  | .fx => decide (n ≤ 10) || decide (n = 50)

/-- ewr (11 R249). -/
def formEwr (o : EOp) : Option DecodeFault :=
  faultOf (guardBad o.guard || !shadowWritable o.engine o.shadow.toNat || (decide (o.source ≠ .imm) && decide (o.imm ≠ 0)))
    (!readableC o.source)

/-- erd: the destination s1 to s63 stands in the source field (11 R249). -/
def formErd (o : EOp) : Option DecodeFault :=
  faultOf (guardBad o.guard || !shadowDefined o.engine o.shadow.toNat || !isS1to63 o.source || decide (o.imm ≠ 0)) false

/-- etrig: shadow and source are 0 for every engine of the part (11 R249). -/
def formEtrig (o : EOp) : Option DecodeFault :=
  faultOf (guardBad o.guard || decide (o.shadow ≠ 0) || !isZeroPort o.source) false

/-- eabort and ewaitq (11 R249). -/
def formE0 (o : EOp) : Option DecodeFault :=
  faultOf (guardBad o.guard || decide (o.shadow ≠ 0) || !isZeroPort o.source || decide (o.imm ≠ 0)) false

end Machine

open Machine

/-- The decode fault of an operation's fields, if any; an event has none. -/
def Instr.formFault (i : Instr) : Option DecodeFault :=
  match i with
  | .nop _ o => formC0 o false (decide (o.imm = 0))
  | .jmp _ o => formC0 o true (decide (o.imm = 0))
  | .jmpi _ o => formCSrc o false
  | .call _ o => formC0 o true (decide (o.imm = 0))
  | .ret _ o => formCSrc o false
  | .loop _ o => formC0 o true (true)
  | .loopr _ o => formCSrc o true
  | .endOp _ o => formC0 o false (decide (o.imm = 0))
  | .yield _ o => formC0 o false (decide (o.imm = 0))
  | .suspend _ o => formCWait o
  | .fork _ o => formCSrc o true
  | .join _ o => formCWait o
  | .csend _ o => formCSrc o false
  | .lease _ o => formCLease o
  | .leasew _ o => formCLease o
  | .wake _ o => formC0 o false (decide (o.imm.toNat / 16 = 0) && leaseKindOk (o.imm.toNat % 16))
  | .unleash _ o => formCSrc o false
  | .slack _ o => formC0 o false (decide (o.imm.toNat < 16))
  | .fence _ o => formCFence o
  | .vfence _ o => formC0 o false (decide (o.imm = 0))
  | .trap _ o => formC0 o false (true)
  | .brk _ o => formC0 o false (true)
  | .psplit _ o => formC0 o false (decide (o.imm.toNat ≤ 8))
  | .pmerge _ o => formC0 o false (decide (o.imm = 0))
  | .parrive _ o => formC0 o false (decide (o.imm.toNat ≤ 1))
  | .pwait _ o => formC0 o false (decide (o.imm = 0))
  | .ovl _ o => formCOvl o
  | .sleepk _ o => formCSleep o
  | .sleepkSource _ o => formCSleepSrc o
  | .sleepkSet _ o => formCSleepSet o
  | .ld _ _ o => formMLoad o
  | .st _ _ o => formMStore o
  | .ldq _ _ o => formMLdq o
  | .stq _ _ o => formMStq o
  | .ldc _ _ o => formMLoad o
  | .stc _ _ o => formMStore o
  | .pref _ _ o => formMPref o
  | .rdset _ _ o => formMRdW o .rlx
  | .rdsetOrg _ _ o => formMRdW o .acq
  | .rdget _ _ o => formMRdR o .rlx
  | .rdgetOrg _ _ o => formMRdR o .acq
  | .rdadv _ _ o => formMRdW o .rlx
  | .rdadvOrg _ _ o => formMRdW o .acq
  | .aadd _ _ o => formMAtomic o
  | .aand _ _ o => formMAtomic o
  | .aor _ _ o => formMAtomic o
  | .axor _ _ o => formMAtomic o
  | .amin _ _ o => formMAtomic o
  | .amax _ _ o => formMAtomic o
  | .aminn _ _ o => formMAtomic o
  | .amaxn _ _ o => formMAtomic o
  | .aswap _ _ o => formMAtomic o
  | .acas _ _ o => formMAtomic o
  | .aincw _ _ o => formMAtomic o
  | .afaddb _ _ o => formMAtomic o
  | .afaddF32 _ _ o => formMAtomicF o
  | .afaddBf16x2 _ _ o => formMAtomicF o
  | .kadd _ _ o => formMKadd o
  | .kwait _ _ o => formMKwait o
  | .kread _ _ o => formMKread o
  | .kpoll _ _ o => formMKpoll o
  | .kbind _ _ o => formMKset o
  | .kinit _ _ o => formMKset o
  | .add _ _ o => formS2 o
  | .sub _ _ o => formS2 o
  | .mul _ _ o => formS2 o
  | .mulh _ _ o => formS2 o
  | .mulhn _ _ o => formS2 o
  | .div _ _ o => formS2 o
  | .divn _ _ o => formS2 o
  | .rem _ _ o => formS2 o
  | .remn _ _ o => formS2 o
  | .andOp _ _ o => formS2 o
  | .orOp _ _ o => formS2 o
  | .xorOp _ _ o => formS2 o
  | .andn _ _ o => formS2 o
  | .shl _ _ o => formS2 o
  | .shr _ _ o => formS2 o
  | .sar _ _ o => formS2 o
  | .rol _ _ o => formS2 o
  | .minOp _ _ o => formS2 o
  | .maxOp _ _ o => formS2 o
  | .minn _ _ o => formS2 o
  | .maxn _ _ o => formS2 o
  | .clz _ _ o => formS1 o
  | .ctz _ _ o => formS1 o
  | .popc _ _ o => formS1 o
  | .brev _ _ o => formS1 o
  | .bext _ _ o => formS2 o
  | .bins _ _ o => formSBins o
  | .sel _ _ o => formSSel o
  | .mov _ _ o => formS1 o
  | .li _ _ o => formSLi o
  | .lih _ _ o => formSLih o
  | .madr _ _ o => formSCtl o true
  | .ceq _ _ o => formS2 o
  | .cne _ _ o => formS2 o
  | .clt _ _ o => formS2 o
  | .cltn _ _ o => formS2 o
  | .cle _ _ o => formS2 o
  | .clen _ _ o => formS2 o
  | .ctst _ _ o => formS2 o
  | .pand _ _ o => formS2 o
  | .por _ _ o => formS2 o
  | .pnot _ _ o => formS1 o
  | .fadd _ _ o => formSCtl o (ctlArithOk o.imm)
  | .fsub _ _ o => formSCtl o (ctlArithOk o.imm)
  | .fmul _ _ o => formSCtl o (ctlArithOk o.imm)
  | .ffma _ _ o => formSFfma o
  | .fmin _ _ o => formSCtl o (ctlMinOk o.imm)
  | .fmax _ _ o => formSCtl o (ctlMinOk o.imm)
  | .fcmp _ _ o => formSCtl o (ctlCmpOk o.imm)
  | .fcvt _ _ o => formSCvt o
  | .vadd _ _ o => formV o ⟨true, true, true, true, true, true, true, 1⟩ false
  | .vsub _ _ o => formV o ⟨true, true, true, true, true, true, true, 1⟩ false
  | .vmul _ _ o => formV o ⟨true, true, true, true, true, true, true, 1⟩ false
  | .vfma _ _ o => formV o ⟨true, true, true, true, true, true, true, 1⟩ false
  | .vmin _ _ o => formV o ⟨true, true, true, false, true, false, false, 1⟩ false
  | .vmax _ _ o => formV o ⟨true, true, true, false, true, false, false, 1⟩ false
  | .vabs _ _ o => formV o ⟨true, true, false, false, true, false, true, 1⟩ false
  | .vneg _ _ o => formV o ⟨true, true, false, false, true, false, true, 1⟩ false
  | .vrcp _ _ o => formV o ⟨true, true, false, true, true, true, true, 1⟩ false
  | .vrsqrt _ _ o => formV o ⟨true, true, false, true, true, true, true, 1⟩ false
  | .vsqrt _ _ o => formV o ⟨true, true, false, true, true, true, true, 1⟩ false
  | .vexp2 _ _ o => formV o ⟨true, true, false, true, true, true, true, 1⟩ false
  | .vlog2 _ _ o => formV o ⟨true, true, false, true, true, true, true, 1⟩ false
  | .vtanh _ _ o => formV o ⟨true, true, false, true, true, true, true, 1⟩ false
  | .vcvt _ _ o => formV o ⟨true, true, false, true, true, true, true, 1⟩ false
  | .vscl _ _ o => formV o ⟨true, true, true, true, true, true, true, 1⟩ false
  | .vamax _ _ o => formV o ⟨true, true, false, false, true, false, false, 1⟩ false
  | .vand _ _ o => formV o ⟨true, true, true, false, false, false, false, 1⟩ false
  | .vor _ _ o => formV o ⟨true, true, true, false, false, false, false, 1⟩ false
  | .vxor _ _ o => formV o ⟨true, true, true, false, false, false, false, 1⟩ false
  | .vnot _ _ o => formV o ⟨true, true, false, false, false, false, false, 1⟩ false
  | .vshl _ _ o => formV o ⟨true, true, true, false, false, false, false, 1⟩ false
  | .vshr _ _ o => formV o ⟨true, true, true, false, false, false, false, 1⟩ false
  | .vsar _ _ o => formV o ⟨true, true, true, false, false, false, false, 1⟩ false
  | .vcmp _ _ o => formV o ⟨true, true, true, false, true, false, false, 1⟩ true
  | .vsel _ _ o => formV o ⟨true, true, true, false, false, false, false, 2⟩ false
  | .vbcast _ _ o => formV o ⟨true, true, false, false, false, false, false, 1⟩ false
  | .vcopy _ _ o => formV o ⟨true, true, false, false, false, false, false, 1⟩ false
  | .vperm _ _ o => formV o ⟨true, true, true, false, false, false, false, 1⟩ false
  | .viota _ _ o => formV o ⟨true, false, false, true, false, false, true, 1⟩ false
  | .vredsum _ _ o => formV o ⟨true, true, false, true, true, true, true, 1⟩ false
  | .vredmax _ _ o => formV o ⟨true, true, false, false, true, false, false, 1⟩ false
  | .vredmin _ _ o => formV o ⟨true, true, false, false, true, false, false, 1⟩ false
  | .vscan _ _ o => formV o ⟨true, true, true, true, true, true, true, 1⟩ false
  | .vsqsum _ _ o => formV o ⟨true, true, false, true, true, true, true, 1⟩ false
  | .vdot _ _ o => formV o ⟨true, true, true, true, true, true, true, 1⟩ false
  | .vrng _ _ o => formV o ⟨true, true, false, true, false, false, false, 1⟩ false
  | .vdrop _ _ o => formV o ⟨true, true, true, true, true, true, true, 1⟩ false
  | .vkat _ _ o => formV o ⟨false, true, true, false, false, false, false, 1⟩ false
  | .vclamp _ _ o => formV o ⟨true, true, true, false, true, false, false, 1⟩ false
  | .vpopc _ _ o => formV o ⟨true, true, false, false, false, false, true, 1⟩ false
  | .vcompress _ _ o => formV o ⟨true, true, true, false, false, false, false, 0⟩ false
  | .vexpand _ _ o => formV o ⟨true, true, true, false, false, false, false, 0⟩ false
  | .ewr _ o => formEwr o
  | .erd _ o => formErd o
  | .etrig _ o => formEtrig o
  | .eabort _ o => formE0 o
  | .ewaitq _ o => formE0 o
  | .packageReset _ _ _ => none
  | .toldodyLinkTrained _ _ _ => none
  | .securityAlarm _ => none
  | .dieLost _ => none
  | .strandLinkUp _ _ _ _ => none
  | .strandLinkDown _ => none
  | .timeAlignExchange _ _ => none
  | .strandReelAdd _ _ _ _ => none
  | .freqCmd _ _ => none
  | .lqTailWrite _ _ _ => none
  | .lqCtlWrite _ _ _ => none
  | .lqBaseWrite _ _ _ => none
  | .bobbinPickup _ => none
  | .stealAttempt _ => none
  | .stewardSteal _ => none
  | .indexFetch _ => none
  | .bundleDispatch _ => none
  | .bundleCommit _ => none
  | .resultLanding _ => none
  | .remoteReplyArrival _ _ => none
  | .freezeBegin _ => none
  | .lateTransitionFlag _ => none
  | .clockStretch _ => none
  | .preciseTrap _ => none
  | .inFlightFault _ => none
  | .frCtlWrite _ _ _ => none
  | .frBaseWrite _ _ _ => none
  | .frHeadWrite _ _ _ => none
  | .frStatIpendClear _ _ _ => none
  | .nodeResume _ _ => none
  | .nodeResumeOver _ _ => none
  | .nodeSave _ _ => none
  | .nodeKill _ _ => none
  | .nodeYield _ _ => none
  | .tlbiPage _ _ => none
  | .tlbiAsid _ _ => none
  | .tlbiHost _ _ => none
  | .frzFreeze _ _ => none
  | .frzThaw _ _ => none
  | .patrolScrubRead _ => none
  | .windowBarAccess _ _ _ _ => none
  | .completerAtomicop _ _ _ _ => none
  | .hkadd _ _ => none
  | .leaseCmdEvict _ _ _ => none
  | .shepFcmdClear _ _ => none
  | .sumCmd _ _ => none
  | .attCmd _ _ => none
  | .tileDbgWrite _ _ _ => none
  | .csaWrite _ _ _ => none
  | .hostCfgWrite _ _ => none
  | .alarmCtlWrite _ _ => none
  | .scrubCtlWrite _ _ => none
  | .shepCtlWrite _ _ _ => none
  | .dieStealCtlWrite _ _ _ => none
  | .mmioRegisterWrite _ _ _ _ => none
  | .rcRegisterRead _ _ _ => none
  | .elasticBufferAccept _ _ => none
  | .enginePowerUpComplete _ _ => none
  | .copyBurst _ _ => none
  | .copyGateWaitEnd _ _ => none
  | .copyBindingWaitEnd _ _ => none
  | .copySignal _ _ => none
  | .arrayRingWaitEnd _ _ => none
  | .arrayGroupLanding _ _ => none
  | .arrayComputeEnd _ _ => none
  | .drainRow _ _ => none
  | .dstqWaitEnd _ _ => none
  | .drainRowStore _ _ => none
  | .arrayDoneAdd _ _ => none
  | .engineUnit _ _ => none
  | .engineCommandComplete _ _ => none
  | .fxFirstFlitCheck _ => none
  | .fxChunkStep _ => none
  | .fxReceiveAdd _ => none
  | .fxAbortMarkerArrival _ => none
  | .vectorOperationStart _ => none
  | .vectorElementGroup _ => none
  | .spuriousWake _ _ => none
  | .governorWindowEnd _ => none
  | .safeRestore _ => none
  | .currentReading _ _ => none
  | .temperatureReading _ _ => none
  | .marginTableLoad => none
  | .freqChangeClockStop => none
  | .freqChangeClockRestart => none
  | .launchRecordCheck => none
  | .dependenceMet => none
  | .agingLift => none
  | .placementDecision => none
  | .launchLoadComplete => none
  | .dictionaryFillComplete => none
  | .fetchBufferFillComplete => none
  | .freezeWatchdogExpiry => none
  | .faultRecordWrite => none
  | .nodeCommandComplete => none
  | .yieldDeadlineExpiry => none
  | .contextSaveComplete => none
  | .contextRestore => none
  | .retirementComplete => none
  | .tlbiComplete => none
  | .freezeRecallComplete => none
  | .translationWalk => none
  | .walkComplete => none
  | .migrationWalkRetry => none
  | .atomicBounce => none
  | .remotePoolRequest => none
  | .nearMemoryAtomic => none
  | .conflictCheckAnswer => none
  | .poolCorrectionWriteback => none
  | .bankMarkFailed => none
  | .bankRebuildLine => none
  | .hkaddPerform => none
  | .shepFcmdComplete => none
  | .summaryComplete => none
  | .attQuoteComplete => none
  | .leaseQueueGrant => none
  | .idleGating => none
  | .wokenIdleReturn => none
  | .releaseComplete => none
  | .standbyGraceExpiry => none
  | .engineRunFault => none
  | .fxTimeout => none
  | .pollBackoffExpiry => none
  | .parkedPollTest => none
  | .sleepkWaitEnd => none
  | .governorWindowTimeout => none
  | .grantAdjust => none
  | .governorEmergency => none
  | .emergencyEnd => none
  | .marginDailyWrite => none
  | .managementPortFailure => none

end Sys2Proof
end

