-- ==== Sys2Proof/WellFormed.lean ====
section
/-! DEFINITION. Well-formed instructions: those whose slot word raises no decode fault (04 R92). -/

namespace Sys2Proof

/-- A port number that stands for itself: a reserved port holds a number that no other constructor names
(03 R74). -/
def Port.canonical : Port → Bool
  | .reserved w =>
    (decide (0x062 ≤ w.toNat) && decide (w.toNat ≤ 0x06F)) || (decide (0x07C ≤ w.toNat) && decide (w.toNat ≤ 0x07F))
      || (decide (0x0C0 ≤ w.toNat) && decide (w.toNat ≤ 0x3FE))
  | _ => true

/-- An instruction whose fields the spec allows. -/
def Instr.wf (i : Instr) : Bool := i.formFault.isNone

/-- An instruction that the decoder may answer. -/
abbrev WellFormed (i : Instr) : Prop := i.wf = true

end Sys2Proof
end

