-- ==== Sys2Proof/Decode.lean ====
section
/-! DEFINITION. The decoder of slot words and step words, total and rejecting by name, and the encoder beside it. -/

namespace Sys2Proof

/-- Why a step word decodes to nothing. -/
inductive Reject where
  /-- Bit 63 of lane 0 is set, or its slot field is 6. -/
  | badSlot
  /-- The row code names no event, or an operand does not fit its field. -/
  | badEvent
  /-- The slot word raises illegal-operation (04 R92). -/
  | illegalOperation
  /-- The slot word raises illegal-port (04 R92). -/
  | illegalPort
  /-- Fewer than 40 bytes. -/
  | short
deriving DecidableEq, Repr

/-- The port of a 10-bit number (03 R74). -/
def portOf (w : BitVec 10) : Port :=
  if w < 0x040#10 then .s (w.setWidth 6)
  else if w < 0x048#10 then .p (w.setWidth 3)
  else if w < 0x050#10 then .m (w.setWidth 3)
  else if w < 0x054#10 then .aaL (w.setWidth 2)
  else if w < 0x058#10 then .abL (w.setWidth 2)
  else if w < 0x05C#10 then .xaL (w.setWidth 2)
  else if w < 0x060#10 then .xbL (w.setWidth 2)
  else if w < 0x062#10 then .caL (w.setWidth 1)
  else if w < 0x070#10 then .reserved w
  else if w < 0x078#10 then .lq (w.setWidth 3)
  else if w < 0x07C#10 then .sq (w.setWidth 2)
  else if w < 0x080#10 then .reserved w
  else if w < 0x0C0#10 then .special (w.setWidth 6)
  else if w = 0x3FF#10 then .imm
  else .reserved w

/-- The number of a port (03 R74). -/
def portNum : Port → BitVec 10
  | .s n => n.setWidth 10
  | .p n => 0x040#10 ||| n.setWidth 10
  | .m n => 0x048#10 ||| n.setWidth 10
  | .aaL n => 0x050#10 ||| n.setWidth 10
  | .abL n => 0x054#10 ||| n.setWidth 10
  | .xaL n => 0x058#10 ||| n.setWidth 10
  | .xbL n => 0x05C#10 ||| n.setWidth 10
  | .caL n => 0x060#10 ||| n.setWidth 10
  | .lq n => 0x070#10 ||| n.setWidth 10
  | .sq n => 0x078#10 ||| n.setWidth 10
  | .special n => 0x080#10 ||| n.setWidth 10
  | .imm => 0x3FF#10
  | .reserved w => w

/-- The guard of a slot word (03 R70). -/
def guardOf (w : BitVec 4) : Guard := ⟨w.getLsbD 3, w.setWidth 3⟩

/-- The four bits of a guard (03 R70). -/
def guardNum (g : Guard) : BitVec 4 := BitVec.ofBool g.neg ++ g.p

/-- The scope of a 3-bit code (03 R71, R72). -/
def scopeOf (w : BitVec 3) : Option Scope :=
  if w = 0 then some .tile else if w = 1 then some .die else if w = 2 then some .pkg
  else if w = 3 then some .sys else if w = 4 then some .fab else none

/-- The code of a scope (03 R71). -/
def scopeNum : Scope → BitVec 3
  | .tile => 0 | .die => 1 | .pkg => 2 | .sys => 3 | .fab => 4

/-- The order of a 2-bit code (03 R71). -/
def memOrderOf (w : BitVec 2) : Order :=
  if w = 0 then .rlx else if w = 1 then .acq else if w = 2 then .rel else .acqrel

/-- The code of an order (03 R71). -/
def orderNum : Order → BitVec 2
  | .rlx => 0 | .acq => 1 | .rel => 2 | .acqrel => 3

/-- The size of a 3-bit code (03 R71, R72). -/
def sizeOf3 (w : BitVec 3) : Option Size :=
  if w = 0 then some .b else if w = 1 then some .h else if w = 2 then some .w
  else if w = 3 then some .d else if w = 4 then some .line else none

/-- The code of a size (03 R71). -/
def sizeNum : Size → BitVec 3
  | .b => 0 | .h => 1 | .w => 2 | .d => 3 | .line => 4

/-- The engine of a 5-bit number (03 R72, R73). -/
def engineOf (w : BitVec 5) : Option EngineId :=
  if w = 0 then some .mx0 else if w = 1 then some .mx1 else if w = 2 then some .sf0 else if w = 3 then some .gs0
  else if w = 4 then some .so0 else if w = 5 then some .al0 else if w = 6 then some .qz0 else if w = 7 then some .fx0
  else if w = 8 then some .cq0 else if w = 9 then some .cq1 else none

/-- The number of an engine (03 R73). -/
def engineNum : EngineId → BitVec 5
  | .mx0 => 0 | .mx1 => 1 | .sf0 => 2 | .gs0 => 3 | .so0 => 4 | .al0 => 5 | .qz0 => 6 | .fx0 => 7 | .cq0 => 8 | .cq1 => 9

/-- The opcode of a slot word (03 R70). -/
def opcodeOf (w : SlotWord) : BitVec 9 := w.extractLsb' 47 9

/-- The C payload of a slot word (03 R71). -/
def unpackC (w : SlotWord) : COp :=
  ⟨guardOf (w.extractLsb' 56 4), w.extractLsb' 23 24, portOf (w.extractLsb' 13 10), w.extractLsb' 0 13⟩

/-- The slot word of a C operation (03 R70, R71). -/
def packC (opc : BitVec 9) (o : COp) : SlotWord :=
  guardNum o.guard ++ opc ++ o.target ++ portNum o.cport ++ o.imm

/-- The M payload of a slot word (03 R71); `none` for a reserved scope or size (03 R72). -/
def unpackM (w : SlotWord) : Option MOp :=
  match scopeOf (w.extractLsb' 5 3), sizeOf3 (w.extractLsb' 0 3) with
  | some sc, some sz =>
    some ⟨guardOf (w.extractLsb' 56 4), portOf (w.extractLsb' 37 10), portOf (w.extractLsb' 27 10),
      portOf (w.extractLsb' 17 10), w.extractLsb' 8 9, sc, memOrderOf (w.extractLsb' 3 2), sz⟩
  | _, _ => none

/-- The slot word of an M operation (03 R70, R71). -/
def packM (opc : BitVec 9) (o : MOp) : SlotWord :=
  guardNum o.guard ++ opc ++ portNum o.data ++ portNum o.base ++ portNum o.index ++ o.disp
    ++ scopeNum o.scope ++ orderNum o.order ++ sizeNum o.size

/-- The S payload of a slot word (03 R71). -/
def unpackS (w : SlotWord) : SOp :=
  ⟨guardOf (w.extractLsb' 56 4), portOf (w.extractLsb' 37 10), portOf (w.extractLsb' 27 10),
    portOf (w.extractLsb' 17 10), w.extractLsb' 0 17⟩

/-- The slot word of an S operation (03 R70, R71). -/
def packS (opc : BitVec 9) (o : SOp) : SlotWord :=
  guardNum o.guard ++ opc ++ portNum o.dst ++ portNum o.srcA ++ portNum o.srcB ++ o.imm

/-- The V payload of a slot word (03 R71); `none` when a reserved bit is set (03 R72). -/
def unpackV (w : SlotWord) : Option VOp :=
  if w.extractLsb' 0 2 = 0 then
    some ⟨guardOf (w.extractLsb' 56 4), w.extractLsb' 36 11, w.extractLsb' 25 11, w.extractLsb' 14 11,
      w.getLsbD 13, w.getLsbD 12, w.extractLsb' 9 3, w.getLsbD 8, w.extractLsb' 5 3,
      w.getLsbD 4, w.getLsbD 3, w.getLsbD 2⟩
  else none

/-- The slot word of a V operation (03 R70, R71). -/
def packV (opc : BitVec 9) (o : VOp) : SlotWord :=
  guardNum o.guard ++ opc ++ o.vd ++ o.va ++ o.vb ++ BitVec.ofBool o.fzi ++ BitVec.ofBool o.fzo ++ o.rnd
    ++ BitVec.ofBool o.sat ++ o.mask ++ BitVec.ofBool o.qa ++ BitVec.ofBool o.qb ++ BitVec.ofBool o.qd ++ 0#2

/-- The E payload of a slot word (03 R71); `none` for an engine number of 10 to 31 (03 R72). -/
def unpackE (w : SlotWord) : Option EOp :=
  match engineOf (w.extractLsb' 42 5) with
  | some e => some ⟨guardOf (w.extractLsb' 56 4), e, w.extractLsb' 36 6, portOf (w.extractLsb' 26 10), w.extractLsb' 0 26⟩
  | none => none

/-- The slot word of an E operation (03 R70, R71). -/
def packE (opc : BitVec 9) (o : EOp) : SlotWord :=
  guardNum o.guard ++ opc ++ engineNum o.engine ++ o.shadow ++ portNum o.source ++ o.imm

/-- A lane holds an operand of `n` bits and nothing above it. -/
def laneFits (l : BitVec 64) (n : Nat) : Bool := decide (l.toNat < 2 ^ n)

/-- The instruction of a C-format opcode of slots ca (04 R84). -/
def instrC (tile : BitVec 8) (opc : Nat) (o : COp) : Option Instr :=
  match opc with
  | 0x0 => some (.nop tile o)
  | 0x1 => some (.jmp tile o)
  | 0x2 => some (.jmpi tile o)
  | 0x3 => some (.call tile o)
  | 0x4 => some (.ret tile o)
  | 0x5 => some (.loop tile o)
  | 0x6 => some (.loopr tile o)
  | 0x7 => some (.endOp tile o)
  | 0x8 => some (.yield tile o)
  | 0x9 => some (.suspend tile o)
  | 0xA => some (.fork tile o)
  | 0xB => some (.join tile o)
  | 0xC => some (.csend tile o)
  | 0xD => some (.lease tile o)
  | 0xE => some (.leasew tile o)
  | 0xF => some (.wake tile o)
  | 0x10 => some (.unleash tile o)
  | 0x11 => some (.slack tile o)
  | 0x12 => some (.fence tile o)
  | 0x13 => some (.vfence tile o)
  | 0x14 => some (.trap tile o)
  | 0x15 => some (.brk tile o)
  | 0x16 => some (.psplit tile o)
  | 0x17 => some (.pmerge tile o)
  | 0x18 => some (.parrive tile o)
  | 0x19 => some (.pwait tile o)
  | 0x1A => some (.ovl tile o)
  | 0x1B =>
    if o.cport ≠ .s 0 then some (.sleepkSource tile o)
    else if o.imm.getLsbD 12 then some (.sleepkSet tile o)
    else some (.sleepk tile o)
  | _ => none

/-- The instruction of a M-format opcode of slots aa and ab (04 R85). -/
def instrM (tile : BitVec 8) (hi : Bool) (opc : Nat) (o : MOp) : Option Instr :=
  match opc with
  | 0x0 => some (.ld tile hi o)
  | 0x1 => some (.st tile hi o)
  | 0x2 => some (.ldq tile hi o)
  | 0x3 => some (.stq tile hi o)
  | 0x4 => some (.ldc tile hi o)
  | 0x5 => some (.stc tile hi o)
  | 0x6 => some (.pref tile hi o)
  | 0x7 => if o.order = .acq then some (.rdsetOrg tile hi o) else some (.rdset tile hi o)
  | 0x8 => if o.order = .acq then some (.rdgetOrg tile hi o) else some (.rdget tile hi o)
  | 0x9 => if o.order = .acq then some (.rdadvOrg tile hi o) else some (.rdadv tile hi o)
  | 0x40 => some (.aadd tile hi o)
  | 0x41 => some (.aand tile hi o)
  | 0x42 => some (.aor tile hi o)
  | 0x43 => some (.axor tile hi o)
  | 0x44 => some (.amin tile hi o)
  | 0x45 => some (.amax tile hi o)
  | 0x46 => some (.aminn tile hi o)
  | 0x47 => some (.amaxn tile hi o)
  | 0x48 => some (.aswap tile hi o)
  | 0x49 => some (.acas tile hi o)
  | 0x4A => some (.aincw tile hi o)
  | 0x4B => some (.afaddb tile hi o)
  | 0x4C => some (.afaddF32 tile hi o)
  | 0x4D => some (.afaddBf16x2 tile hi o)
  | 0x80 => some (.kadd tile hi o)
  | 0x81 => some (.kwait tile hi o)
  | 0x82 => some (.kread tile hi o)
  | 0x83 => some (.kpoll tile hi o)
  | 0x84 => some (.kbind tile hi o)
  | 0x85 => some (.kinit tile hi o)
  | _ => none

/-- The instruction of a S-format opcode of slots xa and xb (04 R86). -/
def instrS (tile : BitVec 8) (hi : Bool) (opc : Nat) (o : SOp) : Option Instr :=
  match opc with
  | 0x0 => some (.add tile hi o)
  | 0x1 => some (.sub tile hi o)
  | 0x2 => some (.mul tile hi o)
  | 0x3 => some (.mulh tile hi o)
  | 0x4 => some (.mulhn tile hi o)
  | 0x5 => some (.div tile hi o)
  | 0x6 => some (.divn tile hi o)
  | 0x7 => some (.rem tile hi o)
  | 0x8 => some (.remn tile hi o)
  | 0x9 => some (.andOp tile hi o)
  | 0xA => some (.orOp tile hi o)
  | 0xB => some (.xorOp tile hi o)
  | 0xC => some (.andn tile hi o)
  | 0xD => some (.shl tile hi o)
  | 0xE => some (.shr tile hi o)
  | 0xF => some (.sar tile hi o)
  | 0x10 => some (.rol tile hi o)
  | 0x11 => some (.minOp tile hi o)
  | 0x12 => some (.maxOp tile hi o)
  | 0x13 => some (.minn tile hi o)
  | 0x14 => some (.maxn tile hi o)
  | 0x15 => some (.clz tile hi o)
  | 0x16 => some (.ctz tile hi o)
  | 0x17 => some (.popc tile hi o)
  | 0x18 => some (.brev tile hi o)
  | 0x19 => some (.bext tile hi o)
  | 0x1A => some (.bins tile hi o)
  | 0x1B => some (.sel tile hi o)
  | 0x1C => some (.mov tile hi o)
  | 0x1D => some (.li tile hi o)
  | 0x1E => some (.lih tile hi o)
  | 0x1F => some (.madr tile hi o)
  | 0x20 => some (.ceq tile hi o)
  | 0x21 => some (.cne tile hi o)
  | 0x22 => some (.clt tile hi o)
  | 0x23 => some (.cltn tile hi o)
  | 0x24 => some (.cle tile hi o)
  | 0x25 => some (.clen tile hi o)
  | 0x26 => some (.ctst tile hi o)
  | 0x27 => some (.pand tile hi o)
  | 0x28 => some (.por tile hi o)
  | 0x29 => some (.pnot tile hi o)
  | 0x2A => some (.fadd tile hi o)
  | 0x2B => some (.fsub tile hi o)
  | 0x2C => some (.fmul tile hi o)
  | 0x2D => some (.ffma tile hi o)
  | 0x2E => some (.fmin tile hi o)
  | 0x2F => some (.fmax tile hi o)
  | 0x30 => some (.fcmp tile hi o)
  | 0x31 => some (.fcvt tile hi o)
  | _ => none

/-- The instruction of a V-format opcode of slots xa and xb (04 R87). -/
def instrV (tile : BitVec 8) (hi : Bool) (opc : Nat) (o : VOp) : Option Instr :=
  match opc with
  | 0x100 => some (.vadd tile hi o)
  | 0x101 => some (.vsub tile hi o)
  | 0x102 => some (.vmul tile hi o)
  | 0x103 => some (.vfma tile hi o)
  | 0x104 => some (.vmin tile hi o)
  | 0x105 => some (.vmax tile hi o)
  | 0x106 => some (.vabs tile hi o)
  | 0x107 => some (.vneg tile hi o)
  | 0x108 => some (.vrcp tile hi o)
  | 0x109 => some (.vrsqrt tile hi o)
  | 0x10A => some (.vsqrt tile hi o)
  | 0x10B => some (.vexp2 tile hi o)
  | 0x10C => some (.vlog2 tile hi o)
  | 0x10D => some (.vtanh tile hi o)
  | 0x10E => some (.vcvt tile hi o)
  | 0x10F => some (.vscl tile hi o)
  | 0x110 => some (.vamax tile hi o)
  | 0x111 => some (.vand tile hi o)
  | 0x112 => some (.vor tile hi o)
  | 0x113 => some (.vxor tile hi o)
  | 0x114 => some (.vnot tile hi o)
  | 0x115 => some (.vshl tile hi o)
  | 0x116 => some (.vshr tile hi o)
  | 0x117 => some (.vsar tile hi o)
  | 0x118 => some (.vcmp tile hi o)
  | 0x119 => some (.vsel tile hi o)
  | 0x11A => some (.vbcast tile hi o)
  | 0x11B => some (.vcopy tile hi o)
  | 0x11C => some (.vperm tile hi o)
  | 0x11D => some (.viota tile hi o)
  | 0x11E => some (.vredsum tile hi o)
  | 0x11F => some (.vredmax tile hi o)
  | 0x120 => some (.vredmin tile hi o)
  | 0x121 => some (.vscan tile hi o)
  | 0x122 => some (.vsqsum tile hi o)
  | 0x123 => some (.vdot tile hi o)
  | 0x124 => some (.vrng tile hi o)
  | 0x125 => some (.vdrop tile hi o)
  | 0x126 => some (.vkat tile hi o)
  | 0x127 => some (.vclamp tile hi o)
  | 0x128 => some (.vpopc tile hi o)
  | 0x129 => some (.vcompress tile hi o)
  | 0x12A => some (.vexpand tile hi o)
  | _ => none

/-- The instruction of a E-format opcode of slots ea (04 R88). -/
def instrE (tile : BitVec 8) (opc : Nat) (o : EOp) : Option Instr :=
  match opc with
  | 0x0 => some (.ewr tile o)
  | 0x1 => some (.erd tile o)
  | 0x2 => some (.etrig tile o)
  | 0x3 => some (.eabort tile o)
  | 0x4 => some (.ewaitq tile o)
  | _ => none

/-- The event of a row code: its operands stand in lanes 1 to 4, and every bit that no operand uses is 0. -/
def instrEvent (code : Nat) (w : StepWord) : Option Instr :=
  match code with
  | 0 => if laneFits w.l1 9 && laneFits w.l2 4 && laneFits w.l3 2 && laneFits w.l4 0 then some (.packageReset (w.l1.setWidth 9) (w.l2.setWidth 4) (w.l3.setWidth 2)) else none
  | 1 => if laneFits w.l1 6 && laneFits w.l2 16 && laneFits w.l3 16 && laneFits w.l4 0 then some (.toldodyLinkTrained (w.l1.setWidth 6) (w.l2.setWidth 16) (w.l3.setWidth 16)) else none
  | 2 => if laneFits w.l1 0 && laneFits w.l2 0 && laneFits w.l3 0 && laneFits w.l4 0 then some (.marginTableLoad) else none
  | 3 => if laneFits w.l1 2 && laneFits w.l2 0 && laneFits w.l3 0 && laneFits w.l4 0 then some (.securityAlarm (w.l1.setWidth 2)) else none
  | 4 => if laneFits w.l1 3 && laneFits w.l2 0 && laneFits w.l3 0 && laneFits w.l4 0 then some (.dieLost (w.l1.setWidth 3)) else none
  | 5 => if laneFits w.l1 4 && laneFits w.l2 12 && laneFits w.l3 4 && laneFits w.l4 64 then some (.strandLinkUp (w.l1.setWidth 4) (w.l2.setWidth 12) (w.l3.setWidth 4) (w.l4.setWidth 64)) else none
  | 6 => if laneFits w.l1 4 && laneFits w.l2 0 && laneFits w.l3 0 && laneFits w.l4 0 then some (.strandLinkDown (w.l1.setWidth 4)) else none
  | 7 => if laneFits w.l1 4 && laneFits w.l2 64 && laneFits w.l3 0 && laneFits w.l4 0 then some (.timeAlignExchange (w.l1.setWidth 4) (w.l2.setWidth 64)) else none
  | 8 => if laneFits w.l1 4 && laneFits w.l2 11 && laneFits w.l3 64 && laneFits w.l4 64 then some (.strandReelAdd (w.l1.setWidth 4) (w.l2.setWidth 11) (w.l3.setWidth 64) (w.l4.setWidth 64)) else none
  | 9 => if laneFits w.l1 1 && laneFits w.l2 64 && laneFits w.l3 0 && laneFits w.l4 0 then some (.freqCmd (w.l1.setWidth 1) (w.l2.setWidth 64)) else none
  | 10 => if laneFits w.l1 0 && laneFits w.l2 0 && laneFits w.l3 0 && laneFits w.l4 0 then some (.freqChangeClockStop) else none
  | 11 => if laneFits w.l1 0 && laneFits w.l2 0 && laneFits w.l3 0 && laneFits w.l4 0 then some (.freqChangeClockRestart) else none
  | 12 => if laneFits w.l1 1 && laneFits w.l2 5 && laneFits w.l3 64 && laneFits w.l4 0 then some (.lqTailWrite (w.l1.setWidth 1) (w.l2.setWidth 5) (w.l3.setWidth 64)) else none
  | 13 => if laneFits w.l1 1 && laneFits w.l2 5 && laneFits w.l3 64 && laneFits w.l4 0 then some (.lqCtlWrite (w.l1.setWidth 1) (w.l2.setWidth 5) (w.l3.setWidth 64)) else none
  | 14 => if laneFits w.l1 1 && laneFits w.l2 5 && laneFits w.l3 64 && laneFits w.l4 0 then some (.lqBaseWrite (w.l1.setWidth 1) (w.l2.setWidth 5) (w.l3.setWidth 64)) else none
  | 15 => if laneFits w.l1 0 && laneFits w.l2 0 && laneFits w.l3 0 && laneFits w.l4 0 then some (.launchRecordCheck) else none
  | 16 => if laneFits w.l1 0 && laneFits w.l2 0 && laneFits w.l3 0 && laneFits w.l4 0 then some (.dependenceMet) else none
  | 17 => if laneFits w.l1 0 && laneFits w.l2 0 && laneFits w.l3 0 && laneFits w.l4 0 then some (.agingLift) else none
  | 18 => if laneFits w.l1 0 && laneFits w.l2 0 && laneFits w.l3 0 && laneFits w.l4 0 then some (.placementDecision) else none
  | 19 => if laneFits w.l1 0 && laneFits w.l2 0 && laneFits w.l3 0 && laneFits w.l4 0 then some (.launchLoadComplete) else none
  | 20 => if laneFits w.l1 8 && laneFits w.l2 0 && laneFits w.l3 0 && laneFits w.l4 0 then some (.bobbinPickup (w.l1.setWidth 8)) else none
  | 21 => if laneFits w.l1 8 && laneFits w.l2 0 && laneFits w.l3 0 && laneFits w.l4 0 then some (.stealAttempt (w.l1.setWidth 8)) else none
  | 22 => if laneFits w.l1 8 && laneFits w.l2 0 && laneFits w.l3 0 && laneFits w.l4 0 then some (.stewardSteal (w.l1.setWidth 8)) else none
  | 23 => if laneFits w.l1 8 && laneFits w.l2 0 && laneFits w.l3 0 && laneFits w.l4 0 then some (.indexFetch (w.l1.setWidth 8)) else none
  | 24 => if laneFits w.l1 0 && laneFits w.l2 0 && laneFits w.l3 0 && laneFits w.l4 0 then some (.dictionaryFillComplete) else none
  | 25 => if laneFits w.l1 0 && laneFits w.l2 0 && laneFits w.l3 0 && laneFits w.l4 0 then some (.fetchBufferFillComplete) else none
  | 26 => if laneFits w.l1 8 && laneFits w.l2 0 && laneFits w.l3 0 && laneFits w.l4 0 then some (.bundleDispatch (w.l1.setWidth 8)) else none
  | 27 => if laneFits w.l1 8 && laneFits w.l2 0 && laneFits w.l3 0 && laneFits w.l4 0 then some (.bundleCommit (w.l1.setWidth 8)) else none
  | 28 => if laneFits w.l1 8 && laneFits w.l2 0 && laneFits w.l3 0 && laneFits w.l4 0 then some (.resultLanding (w.l1.setWidth 8)) else none
  | 29 => if laneFits w.l1 8 && laneFits w.l2 16 && laneFits w.l3 0 && laneFits w.l4 0 then some (.remoteReplyArrival (w.l1.setWidth 8) (w.l2.setWidth 16)) else none
  | 30 => if laneFits w.l1 8 && laneFits w.l2 0 && laneFits w.l3 0 && laneFits w.l4 0 then some (.freezeBegin (w.l1.setWidth 8)) else none
  | 31 => if laneFits w.l1 0 && laneFits w.l2 0 && laneFits w.l3 0 && laneFits w.l4 0 then some (.freezeWatchdogExpiry) else none
  | 32 => if laneFits w.l1 8 && laneFits w.l2 0 && laneFits w.l3 0 && laneFits w.l4 0 then some (.lateTransitionFlag (w.l1.setWidth 8)) else none
  | 33 => if laneFits w.l1 8 && laneFits w.l2 0 && laneFits w.l3 0 && laneFits w.l4 0 then some (.clockStretch (w.l1.setWidth 8)) else none
  | 34 => if laneFits w.l1 8 && laneFits w.l2 0 && laneFits w.l3 0 && laneFits w.l4 0 then some (.preciseTrap (w.l1.setWidth 8)) else none
  | 35 => if laneFits w.l1 8 && laneFits w.l2 0 && laneFits w.l3 0 && laneFits w.l4 0 then some (.inFlightFault (w.l1.setWidth 8)) else none
  | 36 => if laneFits w.l1 0 && laneFits w.l2 0 && laneFits w.l3 0 && laneFits w.l4 0 then some (.faultRecordWrite) else none
  | 37 => if laneFits w.l1 1 && laneFits w.l2 4 && laneFits w.l3 64 && laneFits w.l4 0 then some (.frCtlWrite (w.l1.setWidth 1) (w.l2.setWidth 4) (w.l3.setWidth 64)) else none
  | 38 => if laneFits w.l1 1 && laneFits w.l2 4 && laneFits w.l3 64 && laneFits w.l4 0 then some (.frBaseWrite (w.l1.setWidth 1) (w.l2.setWidth 4) (w.l3.setWidth 64)) else none
  | 39 => if laneFits w.l1 1 && laneFits w.l2 4 && laneFits w.l3 64 && laneFits w.l4 0 then some (.frHeadWrite (w.l1.setWidth 1) (w.l2.setWidth 4) (w.l3.setWidth 64)) else none
  | 40 => if laneFits w.l1 1 && laneFits w.l2 4 && laneFits w.l3 64 && laneFits w.l4 0 then some (.frStatIpendClear (w.l1.setWidth 1) (w.l2.setWidth 4) (w.l3.setWidth 64)) else none
  | 41 => if laneFits w.l1 1 && laneFits w.l2 64 && laneFits w.l3 0 && laneFits w.l4 0 then some (.nodeResume (w.l1.setWidth 1) (w.l2.setWidth 64)) else none
  | 42 => if laneFits w.l1 1 && laneFits w.l2 64 && laneFits w.l3 0 && laneFits w.l4 0 then some (.nodeResumeOver (w.l1.setWidth 1) (w.l2.setWidth 64)) else none
  | 43 => if laneFits w.l1 1 && laneFits w.l2 64 && laneFits w.l3 0 && laneFits w.l4 0 then some (.nodeSave (w.l1.setWidth 1) (w.l2.setWidth 64)) else none
  | 44 => if laneFits w.l1 1 && laneFits w.l2 64 && laneFits w.l3 0 && laneFits w.l4 0 then some (.nodeKill (w.l1.setWidth 1) (w.l2.setWidth 64)) else none
  | 45 => if laneFits w.l1 1 && laneFits w.l2 64 && laneFits w.l3 0 && laneFits w.l4 0 then some (.nodeYield (w.l1.setWidth 1) (w.l2.setWidth 64)) else none
  | 46 => if laneFits w.l1 0 && laneFits w.l2 0 && laneFits w.l3 0 && laneFits w.l4 0 then some (.nodeCommandComplete) else none
  | 47 => if laneFits w.l1 0 && laneFits w.l2 0 && laneFits w.l3 0 && laneFits w.l4 0 then some (.yieldDeadlineExpiry) else none
  | 48 => if laneFits w.l1 0 && laneFits w.l2 0 && laneFits w.l3 0 && laneFits w.l4 0 then some (.contextSaveComplete) else none
  | 49 => if laneFits w.l1 0 && laneFits w.l2 0 && laneFits w.l3 0 && laneFits w.l4 0 then some (.contextRestore) else none
  | 50 => if laneFits w.l1 0 && laneFits w.l2 0 && laneFits w.l3 0 && laneFits w.l4 0 then some (.retirementComplete) else none
  | 51 => if laneFits w.l1 1 && laneFits w.l2 64 && laneFits w.l3 0 && laneFits w.l4 0 then some (.tlbiPage (w.l1.setWidth 1) (w.l2.setWidth 64)) else none
  | 52 => if laneFits w.l1 1 && laneFits w.l2 64 && laneFits w.l3 0 && laneFits w.l4 0 then some (.tlbiAsid (w.l1.setWidth 1) (w.l2.setWidth 64)) else none
  | 53 => if laneFits w.l1 1 && laneFits w.l2 64 && laneFits w.l3 0 && laneFits w.l4 0 then some (.tlbiHost (w.l1.setWidth 1) (w.l2.setWidth 64)) else none
  | 54 => if laneFits w.l1 0 && laneFits w.l2 0 && laneFits w.l3 0 && laneFits w.l4 0 then some (.tlbiComplete) else none
  | 55 => if laneFits w.l1 1 && laneFits w.l2 64 && laneFits w.l3 0 && laneFits w.l4 0 then some (.frzFreeze (w.l1.setWidth 1) (w.l2.setWidth 64)) else none
  | 56 => if laneFits w.l1 1 && laneFits w.l2 64 && laneFits w.l3 0 && laneFits w.l4 0 then some (.frzThaw (w.l1.setWidth 1) (w.l2.setWidth 64)) else none
  | 57 => if laneFits w.l1 0 && laneFits w.l2 0 && laneFits w.l3 0 && laneFits w.l4 0 then some (.freezeRecallComplete) else none
  | 58 => if laneFits w.l1 0 && laneFits w.l2 0 && laneFits w.l3 0 && laneFits w.l4 0 then some (.translationWalk) else none
  | 59 => if laneFits w.l1 0 && laneFits w.l2 0 && laneFits w.l3 0 && laneFits w.l4 0 then some (.walkComplete) else none
  | 60 => if laneFits w.l1 0 && laneFits w.l2 0 && laneFits w.l3 0 && laneFits w.l4 0 then some (.migrationWalkRetry) else none
  | 61 => if laneFits w.l1 0 && laneFits w.l2 0 && laneFits w.l3 0 && laneFits w.l4 0 then some (.atomicBounce) else none
  | 62 => if laneFits w.l1 0 && laneFits w.l2 0 && laneFits w.l3 0 && laneFits w.l4 0 then some (.remotePoolRequest) else none
  | 63 => if laneFits w.l1 0 && laneFits w.l2 0 && laneFits w.l3 0 && laneFits w.l4 0 then some (.nearMemoryAtomic) else none
  | 64 => if laneFits w.l1 0 && laneFits w.l2 0 && laneFits w.l3 0 && laneFits w.l4 0 then some (.conflictCheckAnswer) else none
  | 65 => if laneFits w.l1 0 && laneFits w.l2 0 && laneFits w.l3 0 && laneFits w.l4 0 then some (.poolCorrectionWriteback) else none
  | 66 => if laneFits w.l1 0 && laneFits w.l2 0 && laneFits w.l3 0 && laneFits w.l4 0 then some (.bankMarkFailed) else none
  | 67 => if laneFits w.l1 0 && laneFits w.l2 0 && laneFits w.l3 0 && laneFits w.l4 0 then some (.bankRebuildLine) else none
  | 68 => if laneFits w.l1 8 && laneFits w.l2 0 && laneFits w.l3 0 && laneFits w.l4 0 then some (.patrolScrubRead (w.l1.setWidth 8)) else none
  | 69 => if laneFits w.l1 1 && laneFits w.l2 64 && laneFits w.l3 8 && laneFits w.l4 64 then some (.windowBarAccess (w.l1.setWidth 1) (w.l2.setWidth 64) (w.l3.setWidth 8) (w.l4.setWidth 64)) else none
  | 70 => if laneFits w.l1 8 && laneFits w.l2 64 && laneFits w.l3 64 && laneFits w.l4 64 then some (.completerAtomicop (w.l1.setWidth 8) (w.l2.setWidth 64) (w.l3.setWidth 64) (w.l4.setWidth 64)) else none
  | 71 => if laneFits w.l1 1 && laneFits w.l2 64 && laneFits w.l3 0 && laneFits w.l4 0 then some (.hkadd (w.l1.setWidth 1) (w.l2.setWidth 64)) else none
  | 72 => if laneFits w.l1 0 && laneFits w.l2 0 && laneFits w.l3 0 && laneFits w.l4 0 then some (.hkaddPerform) else none
  | 73 => if laneFits w.l1 1 && laneFits w.l2 8 && laneFits w.l3 64 && laneFits w.l4 0 then some (.leaseCmdEvict (w.l1.setWidth 1) (w.l2.setWidth 8) (w.l3.setWidth 64)) else none
  | 74 => if laneFits w.l1 1 && laneFits w.l2 64 && laneFits w.l3 0 && laneFits w.l4 0 then some (.shepFcmdClear (w.l1.setWidth 1) (w.l2.setWidth 64)) else none
  | 75 => if laneFits w.l1 0 && laneFits w.l2 0 && laneFits w.l3 0 && laneFits w.l4 0 then some (.shepFcmdComplete) else none
  | 76 => if laneFits w.l1 1 && laneFits w.l2 64 && laneFits w.l3 0 && laneFits w.l4 0 then some (.sumCmd (w.l1.setWidth 1) (w.l2.setWidth 64)) else none
  | 77 => if laneFits w.l1 0 && laneFits w.l2 0 && laneFits w.l3 0 && laneFits w.l4 0 then some (.summaryComplete) else none
  | 78 => if laneFits w.l1 1 && laneFits w.l2 64 && laneFits w.l3 0 && laneFits w.l4 0 then some (.attCmd (w.l1.setWidth 1) (w.l2.setWidth 64)) else none
  | 79 => if laneFits w.l1 0 && laneFits w.l2 0 && laneFits w.l3 0 && laneFits w.l4 0 then some (.attQuoteComplete) else none
  | 80 => if laneFits w.l1 1 && laneFits w.l2 8 && laneFits w.l3 64 && laneFits w.l4 0 then some (.tileDbgWrite (w.l1.setWidth 1) (w.l2.setWidth 8) (w.l3.setWidth 64)) else none
  | 81 => if laneFits w.l1 1 && laneFits w.l2 1 && laneFits w.l3 64 && laneFits w.l4 0 then some (.csaWrite (w.l1.setWidth 1) (w.l2.setWidth 1) (w.l3.setWidth 64)) else none
  | 82 => if laneFits w.l1 1 && laneFits w.l2 64 && laneFits w.l3 0 && laneFits w.l4 0 then some (.hostCfgWrite (w.l1.setWidth 1) (w.l2.setWidth 64)) else none
  | 83 => if laneFits w.l1 1 && laneFits w.l2 64 && laneFits w.l3 0 && laneFits w.l4 0 then some (.alarmCtlWrite (w.l1.setWidth 1) (w.l2.setWidth 64)) else none
  | 84 => if laneFits w.l1 1 && laneFits w.l2 64 && laneFits w.l3 0 && laneFits w.l4 0 then some (.scrubCtlWrite (w.l1.setWidth 1) (w.l2.setWidth 64)) else none
  | 85 => if laneFits w.l1 1 && laneFits w.l2 8 && laneFits w.l3 64 && laneFits w.l4 0 then some (.shepCtlWrite (w.l1.setWidth 1) (w.l2.setWidth 8) (w.l3.setWidth 64)) else none
  | 86 => if laneFits w.l1 1 && laneFits w.l2 3 && laneFits w.l3 64 && laneFits w.l4 0 then some (.dieStealCtlWrite (w.l1.setWidth 1) (w.l2.setWidth 3) (w.l3.setWidth 64)) else none
  | 87 => if laneFits w.l1 1 && laneFits w.l2 26 && laneFits w.l3 4 && laneFits w.l4 64 then some (.mmioRegisterWrite (w.l1.setWidth 1) (w.l2.setWidth 26) (w.l3.setWidth 4) (w.l4.setWidth 64)) else none
  | 88 => if laneFits w.l1 1 && laneFits w.l2 26 && laneFits w.l3 4 && laneFits w.l4 0 then some (.rcRegisterRead (w.l1.setWidth 1) (w.l2.setWidth 26) (w.l3.setWidth 4)) else none
  | 89 => if laneFits w.l1 8 && laneFits w.l2 4 && laneFits w.l3 0 && laneFits w.l4 0 then some (.elasticBufferAccept (w.l1.setWidth 8) (w.l2.setWidth 4)) else none
  | 90 => if laneFits w.l1 8 && laneFits w.l2 4 && laneFits w.l3 0 && laneFits w.l4 0 then some (.enginePowerUpComplete (w.l1.setWidth 8) (w.l2.setWidth 4)) else none
  | 91 => if laneFits w.l1 0 && laneFits w.l2 0 && laneFits w.l3 0 && laneFits w.l4 0 then some (.leaseQueueGrant) else none
  | 92 => if laneFits w.l1 0 && laneFits w.l2 0 && laneFits w.l3 0 && laneFits w.l4 0 then some (.idleGating) else none
  | 93 => if laneFits w.l1 0 && laneFits w.l2 0 && laneFits w.l3 0 && laneFits w.l4 0 then some (.wokenIdleReturn) else none
  | 94 => if laneFits w.l1 0 && laneFits w.l2 0 && laneFits w.l3 0 && laneFits w.l4 0 then some (.releaseComplete) else none
  | 95 => if laneFits w.l1 0 && laneFits w.l2 0 && laneFits w.l3 0 && laneFits w.l4 0 then some (.standbyGraceExpiry) else none
  | 96 => if laneFits w.l1 8 && laneFits w.l2 1 && laneFits w.l3 0 && laneFits w.l4 0 then some (.copyBurst (w.l1.setWidth 8) (w.l2.setWidth 1)) else none
  | 97 => if laneFits w.l1 8 && laneFits w.l2 1 && laneFits w.l3 0 && laneFits w.l4 0 then some (.copyGateWaitEnd (w.l1.setWidth 8) (w.l2.setWidth 1)) else none
  | 98 => if laneFits w.l1 8 && laneFits w.l2 1 && laneFits w.l3 0 && laneFits w.l4 0 then some (.copyBindingWaitEnd (w.l1.setWidth 8) (w.l2.setWidth 1)) else none
  | 99 => if laneFits w.l1 8 && laneFits w.l2 1 && laneFits w.l3 0 && laneFits w.l4 0 then some (.copySignal (w.l1.setWidth 8) (w.l2.setWidth 1)) else none
  | 100 => if laneFits w.l1 0 && laneFits w.l2 0 && laneFits w.l3 0 && laneFits w.l4 0 then some (.engineRunFault) else none
  | 101 => if laneFits w.l1 8 && laneFits w.l2 1 && laneFits w.l3 0 && laneFits w.l4 0 then some (.arrayRingWaitEnd (w.l1.setWidth 8) (w.l2.setWidth 1)) else none
  | 102 => if laneFits w.l1 8 && laneFits w.l2 1 && laneFits w.l3 0 && laneFits w.l4 0 then some (.arrayGroupLanding (w.l1.setWidth 8) (w.l2.setWidth 1)) else none
  | 103 => if laneFits w.l1 8 && laneFits w.l2 1 && laneFits w.l3 0 && laneFits w.l4 0 then some (.arrayComputeEnd (w.l1.setWidth 8) (w.l2.setWidth 1)) else none
  | 104 => if laneFits w.l1 8 && laneFits w.l2 1 && laneFits w.l3 0 && laneFits w.l4 0 then some (.drainRow (w.l1.setWidth 8) (w.l2.setWidth 1)) else none
  | 105 => if laneFits w.l1 8 && laneFits w.l2 1 && laneFits w.l3 0 && laneFits w.l4 0 then some (.dstqWaitEnd (w.l1.setWidth 8) (w.l2.setWidth 1)) else none
  | 106 => if laneFits w.l1 8 && laneFits w.l2 1 && laneFits w.l3 0 && laneFits w.l4 0 then some (.drainRowStore (w.l1.setWidth 8) (w.l2.setWidth 1)) else none
  | 107 => if laneFits w.l1 8 && laneFits w.l2 1 && laneFits w.l3 0 && laneFits w.l4 0 then some (.arrayDoneAdd (w.l1.setWidth 8) (w.l2.setWidth 1)) else none
  | 108 => if laneFits w.l1 8 && laneFits w.l2 4 && laneFits w.l3 0 && laneFits w.l4 0 then some (.engineUnit (w.l1.setWidth 8) (w.l2.setWidth 4)) else none
  | 109 => if laneFits w.l1 8 && laneFits w.l2 4 && laneFits w.l3 0 && laneFits w.l4 0 then some (.engineCommandComplete (w.l1.setWidth 8) (w.l2.setWidth 4)) else none
  | 110 => if laneFits w.l1 8 && laneFits w.l2 0 && laneFits w.l3 0 && laneFits w.l4 0 then some (.fxFirstFlitCheck (w.l1.setWidth 8)) else none
  | 111 => if laneFits w.l1 8 && laneFits w.l2 0 && laneFits w.l3 0 && laneFits w.l4 0 then some (.fxChunkStep (w.l1.setWidth 8)) else none
  | 112 => if laneFits w.l1 8 && laneFits w.l2 0 && laneFits w.l3 0 && laneFits w.l4 0 then some (.fxReceiveAdd (w.l1.setWidth 8)) else none
  | 113 => if laneFits w.l1 0 && laneFits w.l2 0 && laneFits w.l3 0 && laneFits w.l4 0 then some (.fxTimeout) else none
  | 114 => if laneFits w.l1 8 && laneFits w.l2 0 && laneFits w.l3 0 && laneFits w.l4 0 then some (.fxAbortMarkerArrival (w.l1.setWidth 8)) else none
  | 115 => if laneFits w.l1 8 && laneFits w.l2 0 && laneFits w.l3 0 && laneFits w.l4 0 then some (.vectorOperationStart (w.l1.setWidth 8)) else none
  | 116 => if laneFits w.l1 8 && laneFits w.l2 0 && laneFits w.l3 0 && laneFits w.l4 0 then some (.vectorElementGroup (w.l1.setWidth 8)) else none
  | 117 => if laneFits w.l1 0 && laneFits w.l2 0 && laneFits w.l3 0 && laneFits w.l4 0 then some (.pollBackoffExpiry) else none
  | 118 => if laneFits w.l1 0 && laneFits w.l2 0 && laneFits w.l3 0 && laneFits w.l4 0 then some (.parkedPollTest) else none
  | 119 => if laneFits w.l1 8 && laneFits w.l2 12 && laneFits w.l3 0 && laneFits w.l4 0 then some (.spuriousWake (w.l1.setWidth 8) (w.l2.setWidth 12)) else none
  | 120 => if laneFits w.l1 0 && laneFits w.l2 0 && laneFits w.l3 0 && laneFits w.l4 0 then some (.sleepkWaitEnd) else none
  | 121 => if laneFits w.l1 8 && laneFits w.l2 0 && laneFits w.l3 0 && laneFits w.l4 0 then some (.governorWindowEnd (w.l1.setWidth 8)) else none
  | 122 => if laneFits w.l1 0 && laneFits w.l2 0 && laneFits w.l3 0 && laneFits w.l4 0 then some (.governorWindowTimeout) else none
  | 123 => if laneFits w.l1 8 && laneFits w.l2 0 && laneFits w.l3 0 && laneFits w.l4 0 then some (.safeRestore (w.l1.setWidth 8)) else none
  | 124 => if laneFits w.l1 8 && laneFits w.l2 16 && laneFits w.l3 0 && laneFits w.l4 0 then some (.currentReading (w.l1.setWidth 8) (w.l2.setWidth 16)) else none
  | 125 => if laneFits w.l1 8 && laneFits w.l2 16 && laneFits w.l3 0 && laneFits w.l4 0 then some (.temperatureReading (w.l1.setWidth 8) (w.l2.setWidth 16)) else none
  | 126 => if laneFits w.l1 0 && laneFits w.l2 0 && laneFits w.l3 0 && laneFits w.l4 0 then some (.grantAdjust) else none
  | 127 => if laneFits w.l1 0 && laneFits w.l2 0 && laneFits w.l3 0 && laneFits w.l4 0 then some (.governorEmergency) else none
  | 128 => if laneFits w.l1 0 && laneFits w.l2 0 && laneFits w.l3 0 && laneFits w.l4 0 then some (.emergencyEnd) else none
  | 129 => if laneFits w.l1 0 && laneFits w.l2 0 && laneFits w.l3 0 && laneFits w.l4 0 then some (.marginDailyWrite) else none
  | 291 => if laneFits w.l1 0 && laneFits w.l2 0 && laneFits w.l3 0 && laneFits w.l4 0 then some (.managementPortFailure) else none
  | _ => none

/-- The operation that a slot word spells in a slot of a tile, before its fields are checked (04 R83 to R88). -/
def slotInstr (slot : Nat) (tile : BitVec 8) (w : SlotWord) : Option Instr :=
  let opc := (opcodeOf w).toNat
  match slot with
  | 0 => instrC tile opc (unpackC w)
  | 1 => (unpackM w).bind (instrM tile false opc)
  | 2 => (unpackM w).bind (instrM tile true opc)
  | 3 => if opc < 0x100 then instrS tile false opc (unpackS w) else (unpackV w).bind (instrV tile false opc)
  | 4 => if opc < 0x100 then instrS tile true opc (unpackS w) else (unpackV w).bind (instrV tile true opc)
  | 5 => (unpackE w).bind (instrE tile opc)
  | _ => none

/-- The decode fault of a slot word in a slot, if it raises one (04 R92). -/
def slotFault (slot : Nat) (w : SlotWord) : Option DecodeFault :=
  match slotInstr slot 0 w with
  | none => some .illegalOperation
  | some i => i.formFault

/-- The decoder of one slot word: the operation, or the decode fault it raises (04 R92 to R94). -/
def decodeSlot (slot : Nat) (tile : BitVec 8) (w : SlotWord) : Except Reject Instr :=
  match slotInstr slot tile w with
  | none => .error .illegalOperation
  | some i =>
    match i.formFault with
    | none => .ok i
    | some .illegalOperation => .error .illegalOperation
    | some .illegalPort => .error .illegalPort

/-- The decoder of a step word. -/
def decodeStep (w : StepWord) : Except Reject Instr :=
  let slot := (w.l0.extractLsb' 60 4).toNat
  if slot = 7 then
    if laneFits (w.l0.setWidth 60 |>.setWidth 64) 9 then
      match instrEvent (w.l0.extractLsb' 0 9).toNat w with
      | some i => .ok i
      | none => .error .badEvent
    else .error .badEvent
  else if slot < 6 then
    if laneFits w.l1 8 && laneFits w.l2 0 && laneFits w.l3 0 && laneFits w.l4 0 then
      decodeSlot slot (w.l1.setWidth 8) (w.l0.extractLsb' 0 60)
    else .error .badSlot
  else .error .badSlot

/-- The step word of a slot operation. -/
def slotStep (slot : BitVec 4) (tile : BitVec 8) (w : SlotWord) : StepWord :=
  ⟨slot ++ w, tile.setWidth 64, 0, 0, 0⟩

/-- The step word of an event. -/
def eventStep (code : BitVec 9) (l1 l2 l3 l4 : BitVec 64) : StepWord :=
  ⟨7#4 ++ 0#51 ++ code, l1, l2, l3, l4⟩

/-- The step word of an instruction: the layout that `decodeStep` reads, written out from the spec's encoding tables
(03 R70, R71; 04 R84 to R88). -/
def encodeStep (i : Instr) : StepWord :=
  match i with
  | .nop tile o => slotStep 0 tile (packC 0x0#9 o)
  | .jmp tile o => slotStep 0 tile (packC 0x1#9 o)
  | .jmpi tile o => slotStep 0 tile (packC 0x2#9 o)
  | .call tile o => slotStep 0 tile (packC 0x3#9 o)
  | .ret tile o => slotStep 0 tile (packC 0x4#9 o)
  | .loop tile o => slotStep 0 tile (packC 0x5#9 o)
  | .loopr tile o => slotStep 0 tile (packC 0x6#9 o)
  | .endOp tile o => slotStep 0 tile (packC 0x7#9 o)
  | .yield tile o => slotStep 0 tile (packC 0x8#9 o)
  | .suspend tile o => slotStep 0 tile (packC 0x9#9 o)
  | .fork tile o => slotStep 0 tile (packC 0xA#9 o)
  | .join tile o => slotStep 0 tile (packC 0xB#9 o)
  | .csend tile o => slotStep 0 tile (packC 0xC#9 o)
  | .lease tile o => slotStep 0 tile (packC 0xD#9 o)
  | .leasew tile o => slotStep 0 tile (packC 0xE#9 o)
  | .wake tile o => slotStep 0 tile (packC 0xF#9 o)
  | .unleash tile o => slotStep 0 tile (packC 0x10#9 o)
  | .slack tile o => slotStep 0 tile (packC 0x11#9 o)
  | .fence tile o => slotStep 0 tile (packC 0x12#9 o)
  | .vfence tile o => slotStep 0 tile (packC 0x13#9 o)
  | .trap tile o => slotStep 0 tile (packC 0x14#9 o)
  | .brk tile o => slotStep 0 tile (packC 0x15#9 o)
  | .psplit tile o => slotStep 0 tile (packC 0x16#9 o)
  | .pmerge tile o => slotStep 0 tile (packC 0x17#9 o)
  | .parrive tile o => slotStep 0 tile (packC 0x18#9 o)
  | .pwait tile o => slotStep 0 tile (packC 0x19#9 o)
  | .ovl tile o => slotStep 0 tile (packC 0x1A#9 o)
  | .sleepk tile o => slotStep 0 tile (packC 0x1B#9 o)
  | .sleepkSource tile o => slotStep 0 tile (packC 0x1B#9 o)
  | .sleepkSet tile o => slotStep 0 tile (packC 0x1B#9 o)
  | .ld tile hi o => slotStep (if hi then 2 else 1) tile (packM 0x0#9 o)
  | .st tile hi o => slotStep (if hi then 2 else 1) tile (packM 0x1#9 o)
  | .ldq tile hi o => slotStep (if hi then 2 else 1) tile (packM 0x2#9 o)
  | .stq tile hi o => slotStep (if hi then 2 else 1) tile (packM 0x3#9 o)
  | .ldc tile hi o => slotStep (if hi then 2 else 1) tile (packM 0x4#9 o)
  | .stc tile hi o => slotStep (if hi then 2 else 1) tile (packM 0x5#9 o)
  | .pref tile hi o => slotStep (if hi then 2 else 1) tile (packM 0x6#9 o)
  | .rdset tile hi o => slotStep (if hi then 2 else 1) tile (packM 0x7#9 o)
  | .rdsetOrg tile hi o => slotStep (if hi then 2 else 1) tile (packM 0x7#9 o)
  | .rdget tile hi o => slotStep (if hi then 2 else 1) tile (packM 0x8#9 o)
  | .rdgetOrg tile hi o => slotStep (if hi then 2 else 1) tile (packM 0x8#9 o)
  | .rdadv tile hi o => slotStep (if hi then 2 else 1) tile (packM 0x9#9 o)
  | .rdadvOrg tile hi o => slotStep (if hi then 2 else 1) tile (packM 0x9#9 o)
  | .aadd tile hi o => slotStep (if hi then 2 else 1) tile (packM 0x40#9 o)
  | .aand tile hi o => slotStep (if hi then 2 else 1) tile (packM 0x41#9 o)
  | .aor tile hi o => slotStep (if hi then 2 else 1) tile (packM 0x42#9 o)
  | .axor tile hi o => slotStep (if hi then 2 else 1) tile (packM 0x43#9 o)
  | .amin tile hi o => slotStep (if hi then 2 else 1) tile (packM 0x44#9 o)
  | .amax tile hi o => slotStep (if hi then 2 else 1) tile (packM 0x45#9 o)
  | .aminn tile hi o => slotStep (if hi then 2 else 1) tile (packM 0x46#9 o)
  | .amaxn tile hi o => slotStep (if hi then 2 else 1) tile (packM 0x47#9 o)
  | .aswap tile hi o => slotStep (if hi then 2 else 1) tile (packM 0x48#9 o)
  | .acas tile hi o => slotStep (if hi then 2 else 1) tile (packM 0x49#9 o)
  | .aincw tile hi o => slotStep (if hi then 2 else 1) tile (packM 0x4A#9 o)
  | .afaddb tile hi o => slotStep (if hi then 2 else 1) tile (packM 0x4B#9 o)
  | .afaddF32 tile hi o => slotStep (if hi then 2 else 1) tile (packM 0x4C#9 o)
  | .afaddBf16x2 tile hi o => slotStep (if hi then 2 else 1) tile (packM 0x4D#9 o)
  | .kadd tile hi o => slotStep (if hi then 2 else 1) tile (packM 0x80#9 o)
  | .kwait tile hi o => slotStep (if hi then 2 else 1) tile (packM 0x81#9 o)
  | .kread tile hi o => slotStep (if hi then 2 else 1) tile (packM 0x82#9 o)
  | .kpoll tile hi o => slotStep (if hi then 2 else 1) tile (packM 0x83#9 o)
  | .kbind tile hi o => slotStep (if hi then 2 else 1) tile (packM 0x84#9 o)
  | .kinit tile hi o => slotStep (if hi then 2 else 1) tile (packM 0x85#9 o)
  | .add tile hi o => slotStep (if hi then 4 else 3) tile (packS 0x0#9 o)
  | .sub tile hi o => slotStep (if hi then 4 else 3) tile (packS 0x1#9 o)
  | .mul tile hi o => slotStep (if hi then 4 else 3) tile (packS 0x2#9 o)
  | .mulh tile hi o => slotStep (if hi then 4 else 3) tile (packS 0x3#9 o)
  | .mulhn tile hi o => slotStep (if hi then 4 else 3) tile (packS 0x4#9 o)
  | .div tile hi o => slotStep (if hi then 4 else 3) tile (packS 0x5#9 o)
  | .divn tile hi o => slotStep (if hi then 4 else 3) tile (packS 0x6#9 o)
  | .rem tile hi o => slotStep (if hi then 4 else 3) tile (packS 0x7#9 o)
  | .remn tile hi o => slotStep (if hi then 4 else 3) tile (packS 0x8#9 o)
  | .andOp tile hi o => slotStep (if hi then 4 else 3) tile (packS 0x9#9 o)
  | .orOp tile hi o => slotStep (if hi then 4 else 3) tile (packS 0xA#9 o)
  | .xorOp tile hi o => slotStep (if hi then 4 else 3) tile (packS 0xB#9 o)
  | .andn tile hi o => slotStep (if hi then 4 else 3) tile (packS 0xC#9 o)
  | .shl tile hi o => slotStep (if hi then 4 else 3) tile (packS 0xD#9 o)
  | .shr tile hi o => slotStep (if hi then 4 else 3) tile (packS 0xE#9 o)
  | .sar tile hi o => slotStep (if hi then 4 else 3) tile (packS 0xF#9 o)
  | .rol tile hi o => slotStep (if hi then 4 else 3) tile (packS 0x10#9 o)
  | .minOp tile hi o => slotStep (if hi then 4 else 3) tile (packS 0x11#9 o)
  | .maxOp tile hi o => slotStep (if hi then 4 else 3) tile (packS 0x12#9 o)
  | .minn tile hi o => slotStep (if hi then 4 else 3) tile (packS 0x13#9 o)
  | .maxn tile hi o => slotStep (if hi then 4 else 3) tile (packS 0x14#9 o)
  | .clz tile hi o => slotStep (if hi then 4 else 3) tile (packS 0x15#9 o)
  | .ctz tile hi o => slotStep (if hi then 4 else 3) tile (packS 0x16#9 o)
  | .popc tile hi o => slotStep (if hi then 4 else 3) tile (packS 0x17#9 o)
  | .brev tile hi o => slotStep (if hi then 4 else 3) tile (packS 0x18#9 o)
  | .bext tile hi o => slotStep (if hi then 4 else 3) tile (packS 0x19#9 o)
  | .bins tile hi o => slotStep (if hi then 4 else 3) tile (packS 0x1A#9 o)
  | .sel tile hi o => slotStep (if hi then 4 else 3) tile (packS 0x1B#9 o)
  | .mov tile hi o => slotStep (if hi then 4 else 3) tile (packS 0x1C#9 o)
  | .li tile hi o => slotStep (if hi then 4 else 3) tile (packS 0x1D#9 o)
  | .lih tile hi o => slotStep (if hi then 4 else 3) tile (packS 0x1E#9 o)
  | .madr tile hi o => slotStep (if hi then 4 else 3) tile (packS 0x1F#9 o)
  | .ceq tile hi o => slotStep (if hi then 4 else 3) tile (packS 0x20#9 o)
  | .cne tile hi o => slotStep (if hi then 4 else 3) tile (packS 0x21#9 o)
  | .clt tile hi o => slotStep (if hi then 4 else 3) tile (packS 0x22#9 o)
  | .cltn tile hi o => slotStep (if hi then 4 else 3) tile (packS 0x23#9 o)
  | .cle tile hi o => slotStep (if hi then 4 else 3) tile (packS 0x24#9 o)
  | .clen tile hi o => slotStep (if hi then 4 else 3) tile (packS 0x25#9 o)
  | .ctst tile hi o => slotStep (if hi then 4 else 3) tile (packS 0x26#9 o)
  | .pand tile hi o => slotStep (if hi then 4 else 3) tile (packS 0x27#9 o)
  | .por tile hi o => slotStep (if hi then 4 else 3) tile (packS 0x28#9 o)
  | .pnot tile hi o => slotStep (if hi then 4 else 3) tile (packS 0x29#9 o)
  | .fadd tile hi o => slotStep (if hi then 4 else 3) tile (packS 0x2A#9 o)
  | .fsub tile hi o => slotStep (if hi then 4 else 3) tile (packS 0x2B#9 o)
  | .fmul tile hi o => slotStep (if hi then 4 else 3) tile (packS 0x2C#9 o)
  | .ffma tile hi o => slotStep (if hi then 4 else 3) tile (packS 0x2D#9 o)
  | .fmin tile hi o => slotStep (if hi then 4 else 3) tile (packS 0x2E#9 o)
  | .fmax tile hi o => slotStep (if hi then 4 else 3) tile (packS 0x2F#9 o)
  | .fcmp tile hi o => slotStep (if hi then 4 else 3) tile (packS 0x30#9 o)
  | .fcvt tile hi o => slotStep (if hi then 4 else 3) tile (packS 0x31#9 o)
  | .vadd tile hi o => slotStep (if hi then 4 else 3) tile (packV 0x100#9 o)
  | .vsub tile hi o => slotStep (if hi then 4 else 3) tile (packV 0x101#9 o)
  | .vmul tile hi o => slotStep (if hi then 4 else 3) tile (packV 0x102#9 o)
  | .vfma tile hi o => slotStep (if hi then 4 else 3) tile (packV 0x103#9 o)
  | .vmin tile hi o => slotStep (if hi then 4 else 3) tile (packV 0x104#9 o)
  | .vmax tile hi o => slotStep (if hi then 4 else 3) tile (packV 0x105#9 o)
  | .vabs tile hi o => slotStep (if hi then 4 else 3) tile (packV 0x106#9 o)
  | .vneg tile hi o => slotStep (if hi then 4 else 3) tile (packV 0x107#9 o)
  | .vrcp tile hi o => slotStep (if hi then 4 else 3) tile (packV 0x108#9 o)
  | .vrsqrt tile hi o => slotStep (if hi then 4 else 3) tile (packV 0x109#9 o)
  | .vsqrt tile hi o => slotStep (if hi then 4 else 3) tile (packV 0x10A#9 o)
  | .vexp2 tile hi o => slotStep (if hi then 4 else 3) tile (packV 0x10B#9 o)
  | .vlog2 tile hi o => slotStep (if hi then 4 else 3) tile (packV 0x10C#9 o)
  | .vtanh tile hi o => slotStep (if hi then 4 else 3) tile (packV 0x10D#9 o)
  | .vcvt tile hi o => slotStep (if hi then 4 else 3) tile (packV 0x10E#9 o)
  | .vscl tile hi o => slotStep (if hi then 4 else 3) tile (packV 0x10F#9 o)
  | .vamax tile hi o => slotStep (if hi then 4 else 3) tile (packV 0x110#9 o)
  | .vand tile hi o => slotStep (if hi then 4 else 3) tile (packV 0x111#9 o)
  | .vor tile hi o => slotStep (if hi then 4 else 3) tile (packV 0x112#9 o)
  | .vxor tile hi o => slotStep (if hi then 4 else 3) tile (packV 0x113#9 o)
  | .vnot tile hi o => slotStep (if hi then 4 else 3) tile (packV 0x114#9 o)
  | .vshl tile hi o => slotStep (if hi then 4 else 3) tile (packV 0x115#9 o)
  | .vshr tile hi o => slotStep (if hi then 4 else 3) tile (packV 0x116#9 o)
  | .vsar tile hi o => slotStep (if hi then 4 else 3) tile (packV 0x117#9 o)
  | .vcmp tile hi o => slotStep (if hi then 4 else 3) tile (packV 0x118#9 o)
  | .vsel tile hi o => slotStep (if hi then 4 else 3) tile (packV 0x119#9 o)
  | .vbcast tile hi o => slotStep (if hi then 4 else 3) tile (packV 0x11A#9 o)
  | .vcopy tile hi o => slotStep (if hi then 4 else 3) tile (packV 0x11B#9 o)
  | .vperm tile hi o => slotStep (if hi then 4 else 3) tile (packV 0x11C#9 o)
  | .viota tile hi o => slotStep (if hi then 4 else 3) tile (packV 0x11D#9 o)
  | .vredsum tile hi o => slotStep (if hi then 4 else 3) tile (packV 0x11E#9 o)
  | .vredmax tile hi o => slotStep (if hi then 4 else 3) tile (packV 0x11F#9 o)
  | .vredmin tile hi o => slotStep (if hi then 4 else 3) tile (packV 0x120#9 o)
  | .vscan tile hi o => slotStep (if hi then 4 else 3) tile (packV 0x121#9 o)
  | .vsqsum tile hi o => slotStep (if hi then 4 else 3) tile (packV 0x122#9 o)
  | .vdot tile hi o => slotStep (if hi then 4 else 3) tile (packV 0x123#9 o)
  | .vrng tile hi o => slotStep (if hi then 4 else 3) tile (packV 0x124#9 o)
  | .vdrop tile hi o => slotStep (if hi then 4 else 3) tile (packV 0x125#9 o)
  | .vkat tile hi o => slotStep (if hi then 4 else 3) tile (packV 0x126#9 o)
  | .vclamp tile hi o => slotStep (if hi then 4 else 3) tile (packV 0x127#9 o)
  | .vpopc tile hi o => slotStep (if hi then 4 else 3) tile (packV 0x128#9 o)
  | .vcompress tile hi o => slotStep (if hi then 4 else 3) tile (packV 0x129#9 o)
  | .vexpand tile hi o => slotStep (if hi then 4 else 3) tile (packV 0x12A#9 o)
  | .ewr tile o => slotStep 5 tile (packE 0x0#9 o)
  | .erd tile o => slotStep 5 tile (packE 0x1#9 o)
  | .etrig tile o => slotStep 5 tile (packE 0x2#9 o)
  | .eabort tile o => slotStep 5 tile (packE 0x3#9 o)
  | .ewaitq tile o => slotStep 5 tile (packE 0x4#9 o)
  | .packageReset cfail pfail ports => eventStep 0#9 (cfail.setWidth 64) (pfail.setWidth 64) (ports.setWidth 64) 0#64
  | .toldodyLinkTrained link reva revb => eventStep 1#9 (link.setWidth 64) (reva.setWidth 64) (revb.setWidth 64) 0#64
  | .securityAlarm src => eventStep 3#9 (src.setWidth 64) 0#64 0#64 0#64
  | .dieLost die => eventStep 4#9 (die.setWidth 64) 0#64 0#64 0#64
  | .strandLinkUp port peer pport peerTime => eventStep 5#9 (port.setWidth 64) (peer.setWidth 64) (pport.setWidth 64) (peerTime.setWidth 64)
  | .strandLinkDown port => eventStep 6#9 (port.setWidth 64) 0#64 0#64 0#64
  | .timeAlignExchange port peerTime => eventStep 7#9 (port.setWidth 64) (peerTime.setWidth 64) 0#64 0#64
  | .strandReelAdd port asid addr v => eventStep 8#9 (port.setWidth 64) (asid.setWidth 64) (addr.setWidth 64) (v.setWidth 64)
  | .freqCmd host val => eventStep 9#9 (host.setWidth 64) (val.setWidth 64) 0#64 0#64
  | .lqTailWrite host level val => eventStep 12#9 (host.setWidth 64) (level.setWidth 64) (val.setWidth 64) 0#64
  | .lqCtlWrite host level val => eventStep 13#9 (host.setWidth 64) (level.setWidth 64) (val.setWidth 64) 0#64
  | .lqBaseWrite host level val => eventStep 14#9 (host.setWidth 64) (level.setWidth 64) (val.setWidth 64) 0#64
  | .bobbinPickup tile => eventStep 20#9 (tile.setWidth 64) 0#64 0#64 0#64
  | .stealAttempt tile => eventStep 21#9 (tile.setWidth 64) 0#64 0#64 0#64
  | .stewardSteal tile => eventStep 22#9 (tile.setWidth 64) 0#64 0#64 0#64
  | .indexFetch tile => eventStep 23#9 (tile.setWidth 64) 0#64 0#64 0#64
  | .bundleDispatch tile => eventStep 26#9 (tile.setWidth 64) 0#64 0#64 0#64
  | .bundleCommit tile => eventStep 27#9 (tile.setWidth 64) 0#64 0#64 0#64
  | .resultLanding tile => eventStep 28#9 (tile.setWidth 64) 0#64 0#64 0#64
  | .remoteReplyArrival tile req => eventStep 29#9 (tile.setWidth 64) (req.setWidth 64) 0#64 0#64
  | .freezeBegin tile => eventStep 30#9 (tile.setWidth 64) 0#64 0#64 0#64
  | .lateTransitionFlag tile => eventStep 32#9 (tile.setWidth 64) 0#64 0#64 0#64
  | .clockStretch tile => eventStep 33#9 (tile.setWidth 64) 0#64 0#64 0#64
  | .preciseTrap tile => eventStep 34#9 (tile.setWidth 64) 0#64 0#64 0#64
  | .inFlightFault tile => eventStep 35#9 (tile.setWidth 64) 0#64 0#64 0#64
  | .frCtlWrite host ring val => eventStep 37#9 (host.setWidth 64) (ring.setWidth 64) (val.setWidth 64) 0#64
  | .frBaseWrite host ring val => eventStep 38#9 (host.setWidth 64) (ring.setWidth 64) (val.setWidth 64) 0#64
  | .frHeadWrite host ring val => eventStep 39#9 (host.setWidth 64) (ring.setWidth 64) (val.setWidth 64) 0#64
  | .frStatIpendClear host ring val => eventStep 40#9 (host.setWidth 64) (ring.setWidth 64) (val.setWidth 64) 0#64
  | .nodeResume host val => eventStep 41#9 (host.setWidth 64) (val.setWidth 64) 0#64 0#64
  | .nodeResumeOver host val => eventStep 42#9 (host.setWidth 64) (val.setWidth 64) 0#64 0#64
  | .nodeSave host val => eventStep 43#9 (host.setWidth 64) (val.setWidth 64) 0#64 0#64
  | .nodeKill host val => eventStep 44#9 (host.setWidth 64) (val.setWidth 64) 0#64 0#64
  | .nodeYield host val => eventStep 45#9 (host.setWidth 64) (val.setWidth 64) 0#64 0#64
  | .tlbiPage host val => eventStep 51#9 (host.setWidth 64) (val.setWidth 64) 0#64 0#64
  | .tlbiAsid host val => eventStep 52#9 (host.setWidth 64) (val.setWidth 64) 0#64 0#64
  | .tlbiHost host val => eventStep 53#9 (host.setWidth 64) (val.setWidth 64) 0#64 0#64
  | .frzFreeze host val => eventStep 55#9 (host.setWidth 64) (val.setWidth 64) 0#64 0#64
  | .frzThaw host val => eventStep 56#9 (host.setWidth 64) (val.setWidth 64) 0#64 0#64
  | .patrolScrubRead channel => eventStep 68#9 (channel.setWidth 64) 0#64 0#64 0#64
  | .windowBarAccess host addr ctl data => eventStep 69#9 (host.setWidth 64) (addr.setWidth 64) (ctl.setWidth 64) (data.setWidth 64)
  | .completerAtomicop ctl addr data data2 => eventStep 70#9 (ctl.setWidth 64) (addr.setWidth 64) (data.setWidth 64) (data2.setWidth 64)
  | .hkadd host val => eventStep 71#9 (host.setWidth 64) (val.setWidth 64) 0#64 0#64
  | .leaseCmdEvict host tile val => eventStep 73#9 (host.setWidth 64) (tile.setWidth 64) (val.setWidth 64) 0#64
  | .shepFcmdClear host val => eventStep 74#9 (host.setWidth 64) (val.setWidth 64) 0#64 0#64
  | .sumCmd host val => eventStep 76#9 (host.setWidth 64) (val.setWidth 64) 0#64 0#64
  | .attCmd host val => eventStep 78#9 (host.setWidth 64) (val.setWidth 64) 0#64 0#64
  | .tileDbgWrite host tile val => eventStep 80#9 (host.setWidth 64) (tile.setWidth 64) (val.setWidth 64) 0#64
  | .csaWrite host reg val => eventStep 81#9 (host.setWidth 64) (reg.setWidth 64) (val.setWidth 64) 0#64
  | .hostCfgWrite host val => eventStep 82#9 (host.setWidth 64) (val.setWidth 64) 0#64 0#64
  | .alarmCtlWrite host val => eventStep 83#9 (host.setWidth 64) (val.setWidth 64) 0#64 0#64
  | .scrubCtlWrite host val => eventStep 84#9 (host.setWidth 64) (val.setWidth 64) 0#64 0#64
  | .shepCtlWrite host tile val => eventStep 85#9 (host.setWidth 64) (tile.setWidth 64) (val.setWidth 64) 0#64
  | .dieStealCtlWrite host die val => eventStep 86#9 (host.setWidth 64) (die.setWidth 64) (val.setWidth 64) 0#64
  | .mmioRegisterWrite host off size val => eventStep 87#9 (host.setWidth 64) (off.setWidth 64) (size.setWidth 64) (val.setWidth 64)
  | .rcRegisterRead host off size => eventStep 88#9 (host.setWidth 64) (off.setWidth 64) (size.setWidth 64) 0#64
  | .elasticBufferAccept tile eng => eventStep 89#9 (tile.setWidth 64) (eng.setWidth 64) 0#64 0#64
  | .enginePowerUpComplete tile eng => eventStep 90#9 (tile.setWidth 64) (eng.setWidth 64) 0#64 0#64
  | .copyBurst tile cq => eventStep 96#9 (tile.setWidth 64) (cq.setWidth 64) 0#64 0#64
  | .copyGateWaitEnd tile cq => eventStep 97#9 (tile.setWidth 64) (cq.setWidth 64) 0#64 0#64
  | .copyBindingWaitEnd tile cq => eventStep 98#9 (tile.setWidth 64) (cq.setWidth 64) 0#64 0#64
  | .copySignal tile cq => eventStep 99#9 (tile.setWidth 64) (cq.setWidth 64) 0#64 0#64
  | .arrayRingWaitEnd tile mx => eventStep 101#9 (tile.setWidth 64) (mx.setWidth 64) 0#64 0#64
  | .arrayGroupLanding tile mx => eventStep 102#9 (tile.setWidth 64) (mx.setWidth 64) 0#64 0#64
  | .arrayComputeEnd tile mx => eventStep 103#9 (tile.setWidth 64) (mx.setWidth 64) 0#64 0#64
  | .drainRow tile mx => eventStep 104#9 (tile.setWidth 64) (mx.setWidth 64) 0#64 0#64
  | .dstqWaitEnd tile mx => eventStep 105#9 (tile.setWidth 64) (mx.setWidth 64) 0#64 0#64
  | .drainRowStore tile mx => eventStep 106#9 (tile.setWidth 64) (mx.setWidth 64) 0#64 0#64
  | .arrayDoneAdd tile mx => eventStep 107#9 (tile.setWidth 64) (mx.setWidth 64) 0#64 0#64
  | .engineUnit tile eng => eventStep 108#9 (tile.setWidth 64) (eng.setWidth 64) 0#64 0#64
  | .engineCommandComplete tile eng => eventStep 109#9 (tile.setWidth 64) (eng.setWidth 64) 0#64 0#64
  | .fxFirstFlitCheck tile => eventStep 110#9 (tile.setWidth 64) 0#64 0#64 0#64
  | .fxChunkStep tile => eventStep 111#9 (tile.setWidth 64) 0#64 0#64 0#64
  | .fxReceiveAdd tile => eventStep 112#9 (tile.setWidth 64) 0#64 0#64 0#64
  | .fxAbortMarkerArrival tile => eventStep 114#9 (tile.setWidth 64) 0#64 0#64 0#64
  | .vectorOperationStart tile => eventStep 115#9 (tile.setWidth 64) 0#64 0#64 0#64
  | .vectorElementGroup tile => eventStep 116#9 (tile.setWidth 64) 0#64 0#64 0#64
  | .spuriousWake tile idx => eventStep 119#9 (tile.setWidth 64) (idx.setWidth 64) 0#64 0#64
  | .governorWindowEnd tile => eventStep 121#9 (tile.setWidth 64) 0#64 0#64 0#64
  | .safeRestore tile => eventStep 123#9 (tile.setWidth 64) 0#64 0#64 0#64
  | .currentReading tile reading => eventStep 124#9 (tile.setWidth 64) (reading.setWidth 64) 0#64 0#64
  | .temperatureReading tile reading => eventStep 125#9 (tile.setWidth 64) (reading.setWidth 64) 0#64 0#64
  | .marginTableLoad => eventStep 2#9 0#64 0#64 0#64 0#64
  | .freqChangeClockStop => eventStep 10#9 0#64 0#64 0#64 0#64
  | .freqChangeClockRestart => eventStep 11#9 0#64 0#64 0#64 0#64
  | .launchRecordCheck => eventStep 15#9 0#64 0#64 0#64 0#64
  | .dependenceMet => eventStep 16#9 0#64 0#64 0#64 0#64
  | .agingLift => eventStep 17#9 0#64 0#64 0#64 0#64
  | .placementDecision => eventStep 18#9 0#64 0#64 0#64 0#64
  | .launchLoadComplete => eventStep 19#9 0#64 0#64 0#64 0#64
  | .dictionaryFillComplete => eventStep 24#9 0#64 0#64 0#64 0#64
  | .fetchBufferFillComplete => eventStep 25#9 0#64 0#64 0#64 0#64
  | .freezeWatchdogExpiry => eventStep 31#9 0#64 0#64 0#64 0#64
  | .faultRecordWrite => eventStep 36#9 0#64 0#64 0#64 0#64
  | .nodeCommandComplete => eventStep 46#9 0#64 0#64 0#64 0#64
  | .yieldDeadlineExpiry => eventStep 47#9 0#64 0#64 0#64 0#64
  | .contextSaveComplete => eventStep 48#9 0#64 0#64 0#64 0#64
  | .contextRestore => eventStep 49#9 0#64 0#64 0#64 0#64
  | .retirementComplete => eventStep 50#9 0#64 0#64 0#64 0#64
  | .tlbiComplete => eventStep 54#9 0#64 0#64 0#64 0#64
  | .freezeRecallComplete => eventStep 57#9 0#64 0#64 0#64 0#64
  | .translationWalk => eventStep 58#9 0#64 0#64 0#64 0#64
  | .walkComplete => eventStep 59#9 0#64 0#64 0#64 0#64
  | .migrationWalkRetry => eventStep 60#9 0#64 0#64 0#64 0#64
  | .atomicBounce => eventStep 61#9 0#64 0#64 0#64 0#64
  | .remotePoolRequest => eventStep 62#9 0#64 0#64 0#64 0#64
  | .nearMemoryAtomic => eventStep 63#9 0#64 0#64 0#64 0#64
  | .conflictCheckAnswer => eventStep 64#9 0#64 0#64 0#64 0#64
  | .poolCorrectionWriteback => eventStep 65#9 0#64 0#64 0#64 0#64
  | .bankMarkFailed => eventStep 66#9 0#64 0#64 0#64 0#64
  | .bankRebuildLine => eventStep 67#9 0#64 0#64 0#64 0#64
  | .hkaddPerform => eventStep 72#9 0#64 0#64 0#64 0#64
  | .shepFcmdComplete => eventStep 75#9 0#64 0#64 0#64 0#64
  | .summaryComplete => eventStep 77#9 0#64 0#64 0#64 0#64
  | .attQuoteComplete => eventStep 79#9 0#64 0#64 0#64 0#64
  | .leaseQueueGrant => eventStep 91#9 0#64 0#64 0#64 0#64
  | .idleGating => eventStep 92#9 0#64 0#64 0#64 0#64
  | .wokenIdleReturn => eventStep 93#9 0#64 0#64 0#64 0#64
  | .releaseComplete => eventStep 94#9 0#64 0#64 0#64 0#64
  | .standbyGraceExpiry => eventStep 95#9 0#64 0#64 0#64 0#64
  | .engineRunFault => eventStep 100#9 0#64 0#64 0#64 0#64
  | .fxTimeout => eventStep 113#9 0#64 0#64 0#64 0#64
  | .pollBackoffExpiry => eventStep 117#9 0#64 0#64 0#64 0#64
  | .parkedPollTest => eventStep 118#9 0#64 0#64 0#64 0#64
  | .sleepkWaitEnd => eventStep 120#9 0#64 0#64 0#64 0#64
  | .governorWindowTimeout => eventStep 122#9 0#64 0#64 0#64 0#64
  | .grantAdjust => eventStep 126#9 0#64 0#64 0#64 0#64
  | .governorEmergency => eventStep 127#9 0#64 0#64 0#64 0#64
  | .emergencyEnd => eventStep 128#9 0#64 0#64 0#64 0#64
  | .marginDailyWrite => eventStep 129#9 0#64 0#64 0#64 0#64
  | .managementPortFailure => eventStep 291#9 0#64 0#64 0#64 0#64

/-- The little-endian number of a list of bytes. -/
def bytesNat : List Byte → Nat
  | [] => 0
  | b :: bs => b.toNat + 256 * bytesNat bs

/-- The `n` little-endian bytes of a number. -/
def natBytes : Nat → Nat → List Byte
  | 0, _ => []
  | n + 1, x => BitVec.ofNat 8 x :: natBytes n (x / 256)

/-- The step word that 40 bytes spell, lane 0 first, each lane little-endian. -/
def stepWordOf (bs : List Byte) : StepWord :=
  let n := bytesNat bs
  ⟨BitVec.ofNat 64 n, BitVec.ofNat 64 (n / 2 ^ 64), BitVec.ofNat 64 (n / 2 ^ 128), BitVec.ofNat 64 (n / 2 ^ 192),
    BitVec.ofNat 64 (n / 2 ^ 256)⟩

/-- The decoder on bytes: the step of the first 40 and the bytes behind them, or why it refuses. -/
def decode (bs : List Byte) : Except Reject (Instr × List Byte) :=
  if bs.length < 40 then .error .short
  else
    match decodeStep (stepWordOf (bs.take 40)) with
    | .ok i => .ok (i, bs.drop 40)
    | .error e => .error e

/-- The 40 bytes of an instruction. -/
def encode (i : Instr) : List Byte :=
  let w := encodeStep i
  natBytes 8 w.l0.toNat ++ natBytes 8 w.l1.toNat ++ natBytes 8 w.l2.toNat ++ natBytes 8 w.l3.toNat ++ natBytes 8 w.l4.toNat

/-- The 40 bytes of an instruction whose bits, numbered from the first byte up, are `w`; every bit above `nbits` is 0. -/
def tableBytes (nbits w : Nat) : List Byte := natBytes 40 (w % 2 ^ nbits)

/-- The instruction this decoder reads from such bits, `none` where it refuses them. -/
def decodeTableWord (nbits w : Nat) : Option Instr :=
  match decode (tableBytes nbits w) with
  | .ok (i, _) => some i
  | .error _ => none

end Sys2Proof
end

