-- ==== Sys2Proof/Machine/Causes.lean ====
section
/-! DEFINITION. The cause codes of fault records (18 R400). -/

namespace Sys2Proof.Machine

/-- bad-record -/
def causeBadRecord : Nat := 0x01

/-- bad-image -/
def causeBadImage : Nat := 0x02

/-- bad-partition -/
def causeBadPartition : Nat := 0x03

/-- bad-drain -/
def causeBadDrain : Nat := 0x04

/-- bad-reel -/
def causeBadReel : Nat := 0x05

/-- no-pack -/
def causeNoPack : Nat := 0x06

/-- launch-translation -/
def causeLaunchTranslation : Nat := 0x07

/-- restart-refused -/
def causeRestartRefused : Nat := 0x10

/-- restart-demoted -/
def causeRestartDemoted : Nat := 0x11

/-- engine-evicted -/
def causeEngineEvicted : Nat := 0x12

/-- bad-command -/
def causeBadCommand : Nat := 0x13

/-- not-leased -/
def causeNotLeased : Nat := 0x14

/-- management-access -/
def causeManagementAccess : Nat := 0x15

/-- dispatcher-protocol -/
def causeDispatcherProtocol : Nat := 0x16

/-- completion-add -/
def causeCompletionAdd : Nat := 0x17

/-- yield-overrun -/
def causeYieldOverrun : Nat := 0x18

/-- copy-param -/
def causeCopyParam : Nat := 0x19

/-- array-param -/
def causeArrayParam : Nat := 0x1A

/-- engine-param -/
def causeEngineParam : Nat := 0x1B

/-- illegal-index -/
def causeIllegalIndex : Nat := 0x20

/-- fetch-bound -/
def causeFetchBound : Nat := 0x21

/-- fetch-translation -/
def causeFetchTranslation : Nat := 0x22

/-- illegal-bundle -/
def causeIllegalBundle : Nat := 0x23

/-- illegal-operation -/
def causeIllegalOperation : Nat := 0x24

/-- illegal-port -/
def causeIllegalPort : Nat := 0x25

/-- queue-underflow -/
def causeQueueUnderflow : Nat := 0x30

/-- queue-overflow -/
def causeQueueOverflow : Nat := 0x31

/-- pending-read -/
def causePendingRead : Nat := 0x32

/-- loop-state -/
def causeLoopState : Nat := 0x33

/-- suspend-state -/
def causeSuspendState : Nat := 0x34

/-- bad-join -/
def causeBadJoin : Nat := 0x35

/-- creel-full -/
def causeCreelFull : Nat := 0x36

/-- illegal-target -/
def causeIllegalTarget : Nat := 0x37

/-- bad-handle -/
def causeBadHandle : Nat := 0x38

/-- pack-mismatch -/
def causePackMismatch : Nat := 0x39

/-- pack-depth -/
def causePackDepth : Nat := 0x3A

/-- pack-phase -/
def causePackPhase : Nat := 0x3B

/-- sleepk-range -/
def causeSleepkRange : Nat := 0x3C

/-- illegal-bobbin-state -/
def causeIllegalBobbinState : Nat := 0x3D

/-- software-trap -/
def causeSoftwareTrap : Nat := 0x3E

/-- breakpoint -/
def causeBreakpoint : Nat := 0x3F

/-- bad-address -/
def causeBadAddress : Nat := 0x40

/-- alignment -/
def causeAlignment : Nat := 0x41

/-- scratch-bound -/
def causeScratchBound : Nat := 0x42

/-- bad-descriptor -/
def causeBadDescriptor : Nat := 0x43

/-- access-translation -/
def causeAccessTranslation : Nat := 0x44

/-- access-permission -/
def causeAccessPermission : Nat := 0x45

/-- bad-pte -/
def causeBadPte : Nat := 0x46

/-- walk-error -/
def causeWalkError : Nat := 0x47

/-- reel-page -/
def causeReelPage : Nat := 0x48

/-- host-atomic -/
def causeHostAtomic : Nat := 0x49

/-- reel-init -/
def causeReelInit : Nat := 0x4A

/-- reel-bind -/
def causeReelBind : Nat := 0x4B

/-- region-range -/
def causeRegionRange : Nat := 0x4C

/-- reel-overflow -/
def causeReelOverflow : Nat := 0x4D

/-- ring-ceiling -/
def causeRingCeiling : Nat := 0x4E

/-- line-lost -/
def causeLineLost : Nat := 0x4F

/-- bad-token -/
def causeBadToken : Nat := 0x50

/-- residue -/
def causeResidue : Nat := 0x51

/-- region-format -/
def causeRegionFormat : Nat := 0x52

/-- region-count -/
def causeRegionCount : Nat := 0x53

/-- region-overlap -/
def causeRegionOverlap : Nat := 0x54

/-- silent-error -/
def causeSilentError : Nat := 0x55

/-- drain-region -/
def causeDrainRegion : Nat := 0x56

/-- conflict -/
def causeConflict : Nat := 0x58

/-- conflict-capacity -/
def causeConflictCapacity : Nat := 0x59

/-- freeze-timeout -/
def causeFreezeTimeout : Nat := 0x70

/-- die-lost -/
def causeDieLost : Nat := 0x71

/-- uncorrectable -/
def causeUncorrectable : Nat := 0x72

/-- bad-context -/
def causeBadContext : Nat := 0x73

/-- pack-lost -/
def causePackLost : Nat := 0x74

end Sys2Proof.Machine
end

