-- ==== Sys2Proof/Machine/State.lean ====
section
/-! DEFINITION. The state of the whole package as plain data, the state after package reset, and the two closed lists
of reasons a step can stop. Everything the spec names is here; INVENTORY.md gives the rule of each field. -/

namespace Sys2Proof.Machine

open Sys2Proof

/-- A 64-bit value with its 4-bit residue; 15 marks a poisoned value (07 R170). -/
structure RV where
  v : Word
  r : BitVec 4
deriving DecidableEq, Repr

/-- The bobbin record (02 R52). -/
structure Bobbin where
  image : Nat
  pc : Nat
  asid : Nat
  pack : Nat
  level : Nat
  spilled : Bool
  root : Bool
  link : Bool
  join : Nat
  carry : List Word
deriving DecidableEq, Repr

/-- What a parked bobbin waits for (02 R54, 07 R151, 16 R363). -/
inductive Wait where
  /-- A reel at a full address with its location key, threshold and scope, since when it is parked; `listed` when a wait entry is held,
  else the polling form, last tested at `tested` (16 R364, R365, R367). -/
  | reel (addr : Word) (loc : Nat) (t : Word) (scope : Scope) (listed : Bool) (since tested : Nat)
  /-- pwait on the phase reel of the current pack (16 R372). -/
  | phase
  /-- leasew on the lease-queue entry of a kind or instance, with its predicate port (12 R275). -/
  | lease (inst : Bool) (k : Nat) (pred : Nat)
deriving DecidableEq, Repr

/-- An entry of a creel: ready when it waits for nothing (02 R54, R55). -/
structure CreelEntry where
  bobbin : Bobbin
  wait : Option Wait
  /-- The handle and predicate that a granted leasew delivers at pick-up (12 R275). -/
  handle : Option (Word × Nat)
  /-- The clock of the suspension point or fork, for the memory model (17 R383). -/
  vc : NMap Nat
  /-- Its record in the spill area, or none while it stands in the 64 hardware entries (02 R55). -/
  area : Option Nat
deriving DecidableEq, Repr

/-- A fault that an operation has raised: its cause code (18 R400) and detail words (18 R402). -/
structure Trap where
  cause : Nat
  d0 : Word
  d1 : Word
  d2 : Word
  d3 : Word
deriving DecidableEq, Repr

/-- One effect of an operation, as it lands (05 R103, R105). Keys number registers as ports; 0x1000 + n is
descriptor n, 0x2000 + n origin n, 0x3000 to 0x3002 the back-off interval, floor and ceiling. -/
inductive Eff where
  | reg (key : Nat) (x : RV)
  | cells (cs : List Host.Cell)
  /-- One nibble of a scratchpad byte (09 R200). -/
  | nib (a : Nat) (hi : Bool) (v : BitVec 4)
  /-- An entry lands in queue `q` (0 to 7 lq, 8 to 11 sq) at absolute index `i`. -/
  | entry (q i : Nat) (x : RV)
  /-- An entry that takes the value of a latch at its landing tick (07 R145, 08 R197). -/
  | entryLatch (q i key : Nat)
  /-- Sticky flags (06 R138). -/
  | fp (bits : Nat)
  /-- An add to an own reel register (08 R191). -/
  | reelAdd (k : Nat) (v : Word)
  /-- A kinit of an own reel register (08 R195). -/
  | reelSet (k : Nat) (v : Word)
  /-- A kbind of an own reel register; depth 2^64 - 1 unbinds (08 R194). -/
  | reelBind (k ceiling : Nat) (depth : Word)
deriving DecidableEq, Repr

/-- A result on its way: it lands at the end of tick `land` (05 R105). A result of a declared-latency access waits for
request `req`. -/
structure Flight where
  seq : Nat
  slot : Nat
  land : Nat
  effs : List Eff
  req : Option Nat
  /-- The access reads (07 R159) or is an acquire (08 R178). -/
  rd : Bool
  acq : Bool
  /-- An atomic on the own pool: its word is held (08 R188). -/
  atom : Bool
deriving DecidableEq, Repr

/-- A landed effect whose bundle has not committed (05 R103). -/
structure Landed where
  seq : Nat
  slot : Nat
  eff : Eff
deriving DecidableEq, Repr

/-- An entry of the hardware loop stack (07 R149). -/
structure LoopEnt where
  start : Nat
  exit : Nat
  left : Nat
deriving DecidableEq, Repr

/-- What a bundle does at its commit beside the effects that land (05 R102). -/
inductive CommitAct where
  | endBobbin
  | yield
  /-- A suspension on a reel: suspend and join (07 R153). `always` parks even when the reel is met. -/
  | park (addr t : Word) (scope : Scope) (always : Bool)
  | pwait
  | parrive (rel : Bool)
  | psplit (j : Nat)
  | pmerge
  | fork (pc : Nat) (link : Bool) (join : Nat) (carry : List Word)
  /-- A csend reservation with the index of its queue entry at the target (07 R155). -/
  | csend (tile eng id : Nat)
  /-- lease or leasew: the decision taken at issue (12 R274). -/
  | lease (inst : Bool) (k : Nat) (force noevict wait : Bool) (pred : Nat) (status eng : Nat)
  | wake (k : Nat)
  | unleash (eng : Nat)
  | trapCode (code : Nat)
  /-- A synchronisation access of the tile on its own pool or registers (17 R379): location, order, scope, writes. -/
  | sync (loc : Nat) (order : Order) (scope : Scope) (wr : Bool)
  /-- Plain writes of the tile to these locations (17 R381). -/
  | plain (locs : List Nat)
  /-- A store of the tile that is a synchronisation access to these locations, and a release or none (17 R381). -/
  | stored (locs : List Nat) (rel : Bool)
  /-- An atomic on `n` bytes at offset `off` of the own pool, which no output extent holds (02 R47): the word is held until then
  (08 R188). -/
  | atomic (off n : Nat)
  /-- fence with its order (17 R382). -/
  | fence (order : Order) (scope : Scope)
deriving DecidableEq, Repr

/-- A bundle of the commit window (05 R98). -/
structure Bundle where
  seq : Nat
  pc : Nat
  /-- The sequential successor N (07 R146). -/
  next : Nat
  hdr : Nat
  sync : Bool
  fin : Bool
  words : NMap SlotWord
  /-- Slots that have not issued yet. -/
  todo : List Nat
  /-- The tick after its latest issue (05 R99). -/
  past : Nat
  /-- Queue entries assigned at dispatch: (slot, queue, index) pops and pushes (05 R101). -/
  pops : List (Nat × Nat × Nat)
  pushes : List (Nat × Nat × Nat)
  /-- Faults raised so far, by slot. -/
  faults : List (Nat × Trap)
  acts : List (Nat × CommitAct)
  /-- Control state before this bundle, restored when it is undone (18 R397). -/
  loops0 : List LoopEnt
  qpop0 : NMap Nat
  qpush0 : NMap Nat
  /-- The bundle holds a transfer that has not resolved yet (07 R148). -/
  unresolved : Bool
  /-- A reel wait: the test of a kwait is outstanding or polling in place until this tick (16 R366). -/
  poll : Option Nat
deriving DecidableEq, Repr

/-- A region as an operation holds it from issue on (09 R199, R208). -/
structure Region where
  base : Nat
  stride : Int
  count : Nat
  fmt : Nat
  rsv : Bool
  chk : Bool
  orel : Bool
  circ : Bool
  origin : Word
deriving DecidableEq, Repr

/-- A vector operation in the unit's queue (05 R106, 09 R210). -/
structure VecOp where
  seq : Nat
  slot : Nat
  pc : Nat
  opc : Nat
  op : VOp
  vd : Region
  va : Region
  vb : Region
  msk : Option Region
  /-- Scalars popped at issue for va and vb. -/
  sa : Option Word
  sb : Option Word
  fpctl : Word
  n : Nat
  w : Nat
  /-- The tick in which the unit started it. -/
  t0 : Option Nat
  /-- Next group to run, in groups since t0's group; `base` is the element the run resumed at. -/
  elem : Nat
  resumed : Nat
  /-- Queue entry of the token. -/
  push : Option (Nat × Nat)
  /-- Partial sums, scan value, fold, checksum, counters (09 R210). -/
  acc : List Nat
  part : List Nat
  flags : Nat
  cnt : Nat
  faulted : Bool
  /-- Landing tick of its last element, once known. -/
  last : Nat
deriving DecidableEq, Repr

/-- Kinds of request that leave the core (08 R182). -/
inductive ReqKind where
  | load | store | atomic | kadd | kread | kpoll | kwait | kinit | kbind
deriving DecidableEq, Repr

/-- Where a request stands. -/
inductive ReqState where
  /-- Waits for its translation. -/
  | walk
  /-- Translated, or needs no translation; not performed. -/
  | ready
  /-- Performed at its location; the reply is under way. -/
  | sent
  /-- The reply has arrived. -/
  | done
  /-- Returned a fault. -/
  | bad (t : Trap)
deriving DecidableEq, Repr

/-- A request of the core beyond its own pool and registers, or a reel test (08 R182, R187, R189, R192). -/
structure Req where
  id : Nat
  seq : Nat
  slot : Nat
  pc : Nat
  kind : ReqKind
  opc : Nat
  /-- Full address; loads and stores too are put into this form. -/
  addr : Word
  size : Nat
  n : Nat
  data : Word
  data2 : Word
  bytes : List Byte
  order : Order
  scope : Scope
  st : ReqState
  /-- Physical address and leaf once translated, the leaf with its page bits from bit 64 on. -/
  pa : Nat
  leaf : Nat
  /-- A conflict check is still to be answered (17 R390). -/
  check : Bool
  result : Nat
  ok : Bool
  /-- The bundle has committed (stores); the test has landed (kwait). -/
  go : Bool
  dst : Port
  entries : List (Nat × Nat)
  /-- The core agent's clock when the operation issued (17 R384). -/
  vc : NMap Nat
deriving DecidableEq, Repr

/-- A freeze in progress (05 R119 to R121). -/
structure Freeze where
  addr : Word
  since : Nat
  cycles : Nat
deriving DecidableEq, Repr

/-- A replay in progress: the tile cycles that it still takes, the flagged one included, and the flags that it has met
(05 R116, R117). -/
structure Replay where
  left : Nat
  flags : Nat
deriving DecidableEq, Repr

/-- How far the tick in progress has come (05 R96, R105, R113). -/
inductive TickStage where
  /-- Nothing of it has run: a core stall can still hold it. -/
  | start
  /-- Operations issue. -/
  | issue
  /-- Its results have landed, and nothing more issues in it. -/
  | landed
deriving DecidableEq, Repr

/-- A dictionary page frame (03 R64). -/
structure Frame where
  image : Nat
  gen : Nat
  page : Nat
  bytes : List Byte
  stamp : Nat
deriving DecidableEq, Repr

/-- A line of the fetch buffer and the fill that it came with (03 R67). -/
structure FetchLine where
  line : Nat
  fill : Nat
  bytes : List Byte
deriving DecidableEq, Repr

/-- A TLB entry: ASID, page number, page bits (16, 21 or 30) and leaf (10 R240). -/
structure TlbEnt where
  asid : Nat
  vpn : Nat
  bits : Nat
  leaf : Nat
deriving DecidableEq, Repr

/-- The losses of a core slot on a segment of its pool: in how many ticks in a row, the last of them, and what it asks, twice the line
plus 1 for a write (10 R232). -/
structure PortLoss where
  tick : Nat
  count : Nat
  ask : Nat
deriving DecidableEq, Repr

/-- The core of a tile (03, 05). -/
structure Core where
  ticks : Nat
  /-- Committed registers, descriptors, origins and control registers, by key. -/
  regs : NMap RV
  log : List Landed
  flights : List Flight
  window : List Bundle
  nextSeq : Nat
  pc : Nat
  /-- The bundle fetched at `pc` and not dispatched yet: its 384 bits and its sequential successor (03 R61). -/
  cur : Option (Nat × Nat)
  loops : List LoopEnt
  /-- Landed queue entries: key 16 * index + queue. -/
  qent : NMap RV
  qpop : NMap Nat
  qpush : NMap Nat
  /-- First tick in which each slot (0 to 5) and dispatch (6) may act again. -/
  busy : NMap Nat
  /-- Pool accesses served to slots aa and ab in the current tick: tick, and twice the line, plus 1 for a write (10 R232). -/
  served : List (Nat × Nat)
  /-- What slots aa and ab have lost on a segment (10 R232). -/
  lost : NMap PortLoss
  /-- sleepk and polling holds: no younger dispatch before this tick (07 R162). -/
  hold : Nat
  /-- A decode or fetch fault that waits for the older bundles (04 R93): pc, mask, trap. -/
  decodeStop : Option (Nat × Nat × Trap)
  vec : List VecOp
  reqs : List Req
  nextReq : Nat
  frozen : Option Freeze
  replay : Option Replay
  /-- 1 when the tile cycle in progress will take a second period, 2 while that passes (05 R118). -/
  stretch : Nat
  stage : TickStage
  /-- The tile cycle before was a tick, or one that a replay executed again: it can be flagged (05 R116, R117). -/
  ticked : Bool
  /-- Weights of the last 31 counted tile cycles, newest first (05 R114). -/
  energy : List Nat
  /-- Weight charged in the cycle in progress. -/
  weight : Nat
  /-- Index-stream line that a fetch waits for, and dictionary page that it waits for (03 R64, R67). -/
  lineWait : Option Nat
  pageWait : Option Nat
  lines : List FetchLine
  frames : List Frame
  /-- Dictionary pages in flight: the first one fills, the others wait for it (03 R64, R65). -/
  fill : List Nat
  tlb : List TlbEnt
  /-- The in-flight fault to take in the next tick (18 R398): pc, slot, trap. -/
  fault : Option (Nat × Nat × Trap)
  /-- A resume-over makes the next brk act as nop once (18 R407). -/
  skipBrk : Bool
  /-- The number of the first bundle after the latest resume: it has issued again with that one (18 R406). -/
  resumeSeq : Nat
  /-- The last stop: cause, mask, kind of stop (18 R414). -/
  stopCause : Nat
  stopMask : Nat
  stopKind : Nat
  /-- Phase count q (07 R158). -/
  phase : Nat
deriving DecidableEq, Repr

/-- A reel register (16 R356). -/
structure Reel where
  value : Word
  bound : Bool
  ceiling : Nat
  depth : Nat
deriving DecidableEq, Repr

/-- A wait entry of a reel register or memory reel: the reel's location key, the waiter's tile, the reel's address as
the waiter named it, and the threshold (16 R364). -/
structure WaitEnt where
  loc : Nat
  tile : Nat
  addr : Word
  t : Word
deriving DecidableEq, Repr

/-- Where an engine command came from. -/
inductive CmdSrc where
  | etrig | block | follow
deriving DecidableEq, Repr

/-- An engine command accepted or queued (04 R89, 11 R252, R257). -/
structure Cmd where
  src : CmdSrc
  /-- imm26 of the etrig or follow-on. -/
  imm : Nat
  block : List Word
  /-- The active set taken at acceptance. -/
  regs : NMap RV
  /-- Conflict agent of the operation (17 R377). -/
  agent : Nat
  /-- Order of acceptance. -/
  ord : Nat
  /-- The bundle whose commit forked it: tile and sequence number (17 R391). -/
  fork : Option (Nat × Nat)
deriving DecidableEq, Repr

/-- A store of a drain's row, with the side register and the column that it is for (14 R323, R326, R327, R331). -/
inductive DrainOut where
  | cells (reg col a : Nat) (bs : List Byte)
  | nib (reg col a : Nat) (hi : Bool) (v : BitVec 4)
  /-- dstq: its elements, of `w` bytes; the slot is known when the row is stored. -/
  | ring (w : Nat) (vals : List Nat)
deriving DecidableEq, Repr

/-- A row that a drain has read and not stored yet, with the counts of its dsigs (14 R328, R329). -/
structure RowOut where
  row : Nat
  outs : List DrainOut
  sigs : List Nat
  /-- Checksum, row scale and maximum, and flags, as the row leaves them (14 R321, R325, R331). -/
  sum : Nat
  mx : Option Nat
  flags : Nat
  /-- The step in which it was read, by its command's clock (14 R329). -/
  clk : Nat
deriving DecidableEq, Repr

/-- A command that runs, stands stopped or waits, with its progress and internal state. -/
structure Run where
  cmd : Cmd
  /-- Next unit. -/
  unit : Nat
  phase : Nat
  aux : NMap Nat
  data : Mem
  flags : Nat
  rows : List RowOut
deriving DecidableEq, Repr

/-- The kinds of engine operation (11 R249). -/
inductive EOpKind where
  | ewr | erd | etrig | eabort | ewaitq
deriving DecidableEq, Repr

/-- An entry of an elastic buffer (05 R109). -/
structure EEntry where
  seq : Nat
  kind : EOpKind
  shadow : Nat
  x : RV
  imm : Nat
  committed : Bool
  /-- Slack in force for its bundle (05 R110). -/
  slack : Nat
  /-- The clock at the commit (17 R391). -/
  vc : NMap Nat
  /-- Order of arrival at the engine. -/
  ord : Nat
deriving DecidableEq, Repr

/-- An entry of an engine queue: a csend reservation, a block, or an accepted command (02 R59, 07 R155). -/
structure QEntry where
  id : Nat
  ready : Bool
  sender : Nat
  seq : Nat
  cmd : Cmd
  vc : NMap Nat
deriving DecidableEq, Repr

/-- An engine of a tile: lease record, registers, buffer, queue and running commands (11 to 15, 20). -/
structure Engine where
  /-- State code (12 R272); copy sequencers stay 3. -/
  st : Nat
  gen : Nat
  noevict : Bool
  /-- Order of grant. -/
  ord : Nat
  /-- The tick from which it reports awake, t + L of 12 R273, and whether the power-up is physically complete. -/
  pwTick : Nat
  pwDone : Bool
  regs : NMap RV
  cause : Nat
  lastcode : Nat
  waiting : Bool
  stopped : Bool
  progSeq : Nat
  progNext : Nat
  evreel : RV
  buf : List EEntry
  queue : List QEntry
  runs : List Run
  /-- The clock of the command before, which its chapter orders the next one after (17 R394). -/
  after : NMap Nat
  idle : Nat
  nextOrd : Nat
  /-- Once releasing, operations of later bundles act as on no lease, and of the engine queue only these blocks are run (12 R278). -/
  relSeq : Nat
  relIds : List Nat
  /-- The moment of an eviction, plus 1: a request that takes the engine in that cycle or by then waits for it has it awake (12 R285). -/
  freed : Nat
  /-- A run fault that waits to be taken. -/
  fault : Option Trap
deriving DecidableEq, Repr

/-- A lease-queue entry (12 R275). -/
structure LeaseReq where
  inst : Bool
  k : Nat
  prio : Nat
  noevict : Bool
  since : Nat
  /-- The engines that LEASE_CTL.dis disabled at the request (12 R283). -/
  dis : Nat
deriving DecidableEq, Repr

/-- Watermarks of an accumulator tile (13 R297). -/
structure Wmark where
  wf : Nat
  ws : Nat
  wr : Bool
  /-- The latest drain to begin on the tile, by its order (13 R306). -/
  drain : Nat
deriving DecidableEq, Repr

/-- A pool segment's repair state (19 R427 to R429). -/
structure Seg where
  rl : Nat
  ce : Nat
  er1 : Nat
  spared : Nat
  er2 : Nat
  er3 : Nat
  failed : Nat
  counts : NMap Nat
deriving DecidableEq, Repr

/-- What a tile has done at a frequency point since the last 24-hour write: bundles, replays, the floor at its start, and the
ns run, of which `left` is the part of an hour that the entry does not count yet (19 R438, R440). -/
structure PointDay where
  bundles : Nat
  replays : Nat
  floor : Nat
  ns : Nat
  left : Nat
deriving DecidableEq, Repr

/-- The margin governor of a tile (19 R438 to R444). -/
structure Governor where
  ctl : Word
  v : Nat
  floor : Nat
  p : Nat
  flerr : Bool
  emerg : Bool
  ctlerr : Bool
  replays : Nat
  ce : Nat
  alarms : Nat
  wBundles : Nat
  wReplays : Nat
  wCe : Nat
  wStart : Nat
  hint : Nat
  /-- A burst hint's raise of v in force, in mV (19 R444). -/
  boost : Nat
  /-- The last moment at which v stood below its safe value; 0 for never (19 R434). -/
  lastBelow : Nat
  /-- The last moment at which an emergency condition held (19 R442). -/
  emergSince : Nat
  temp : Nat
  /-- The last reading of the current in percent of the point's limit, since when it has been below 90 (0 for not), and
  whether two readings in a row were above 125 (19 R442). -/
  cur : Nat
  lowSince : Nat
  overTwice : Bool
  /-- The day so far at each frequency point that it has run at (01 R21; 19 R438, R440). -/
  days : NMap PointDay
  /-- The moment from which the time at the point in force is still to be counted. -/
  daySince : Nat
  /-- Alarms and margin-class errors that a safe restore is due for (19 R441). -/
  restore : Nat
deriving DecidableEq, Repr

/-- An enclosing pack kept under a sub-pack (02 R51, 07 R158). -/
structure PackSave where
  id : Nat
  parent : Nat
  level : Nat
  rank : Nat
  size : Nat
  phase : Nat
deriving DecidableEq, Repr

/-- A standby lease: its node, the slot that its context is saved in, and noevict (12 R287). -/
structure Standby where
  node : Nat
  slot : Nat
  noevict : Bool
deriving DecidableEq, Repr

/-- A tile (01 R15). -/
structure Tile where
  core : Core
  running : Option Bobbin
  /-- Head first; with the entries that have spilled (02 R55). -/
  creel : List CreelEntry
  node : Option Nat
  packId : Nat
  packParent : Nat
  packLevel : Nat
  packRank : Nat
  packSize : Nat
  packStack : List PackSave
  partAcc : Nat
  partQueue : Nat
  pool : Mem
  wmarks : NMap Wmark
  segs : NMap Seg
  retired : Bool
  reels : NMap Reel
  engines : NMap Engine
  grant : Nat
  /-- Engines that a pre-empted node holds in standby (12 R272, R287). -/
  standby : NMap Standby
  leaseQ : List LeaseReq
  leaseCtl : Word
  leaseGen : Nat
  leaseOrd : Nat
  drains : NMap (List Nat)
  gov : Governor
  dbg : Bool
  yreqPosted : Bool
  yreqSeq : Nat
  yreqUntil : Nat
  stealNext : Nat
  stealFails : Nat
  stewardAsked : Bool
  /-- The node on the tile is stopped, or the tile is being saved: its core does not run. -/
  halted : Bool
  frzNs : Nat
  /-- Pages that fetch or an engine waits for, 0 or the fault of the walk: key ASID * 2^36 + page number (10 R238). -/
  walkBad : NMap Nat
  /-- Pool codewords found uncorrectable during the node: line * 4 + codeword (19 R430). -/
  found : List Nat
deriving DecidableEq, Repr

/-- A walk of the die steward (10 R241). -/
structure Walk where
  asid : Nat
  vpn : Nat
  /-- Requesting tiles. -/
  tiles : List Nat
  /-- Time of the next retry on a migrating page (10 R247); 0 when it runs. -/
  retry : Nat
  /-- Outcome once it has been read: leaf and page bits, or cause code. -/
  out : Option (Nat × Nat)
  bad : Nat
deriving DecidableEq, Repr

/-- A compute die (01 R12). -/
structure Die where
  lost : Bool
  phys : Nat
  xdie : Bool
  tries : Nat
  tlb2 : List TlbEnt
  walks : List Walk
  /-- Misses that wait for the walker, oldest first: tile, ASID, page number (10 R241). -/
  missQ : List (Nat × Nat × Nat)
  cached : List Nat
  dirty : List Nat
deriving DecidableEq, Repr

/-- A live pack (02 R49, R53, 16 R370). -/
structure Pack where
  id : Nat
  node : Nat
  level : Nat
  parent : Nat
  tiles : List Nat
  /-- Phase reel. -/
  phase : Nat
  outstanding : Nat
  /-- Tiles that have reached a psplit or pmerge, with j (07 R158). -/
  arrived : List (Nat × Nat)
deriving DecidableEq, Repr

/-- A release on a location: the clock it carries, its scope and the place it stands at (17 R380, R381). -/
structure Rel where
  vc : NMap Nat
  scope : Scope
  place : Nat
  /-- A store has written the location since, and no atomic or add after it: what reads that store does not read the release
  sequence of this (17 R381). -/
  passed : Bool
deriving DecidableEq, Repr

/-- The states of a node, in the order of their codes (02 R60). -/
inductive NodeState where
  | queued | blocked | eligible | held | placed | running | yielding | preempted | stopped | saved | retiring | done
  | rejected | killed
deriving DecidableEq, Repr

/-- A node (02 R30 to R34, R46, R60). -/
structure Node where
  st : NodeState
  host : Nat
  level : Nat
  image : Nat
  ctl : Word
  param : Nat
  paramlen : Nat
  completion : Nat
  deps : List (Nat × Word)
  ins : List (Nat × Nat)
  outs : List (Nat × Nat)
  /-- Header fields of the image, as read at the check (02 R25). -/
  hdr : NMap Nat
  restart : Bool
  retries : Nat
  pack : Nat
  tiles : List Nat
  slots : List Nat
  recAddr : Nat
  qIndex : Nat
  /-- When it became eligible, was placed or was pre-empted. -/
  since : Nat
  order : Nat
  lastCause : Nat
  /-- A die of its mask was lost while it was saved or pre-empted: it stops once it is restored (18 R423). -/
  diesLost : Bool
  /-- It is to be loaded afresh: not loaded yet, or re-queued after an uncorrectable error, then without this tile where it can
  (02 R26, 19 R435). -/
  requeue : Bool
  avoid : Option Nat
  /-- A host whose access conflicted while it was stopped, with the fault, taken once it is resumed (17 R396). -/
  conflictBy : Option (Nat × Trap)
  /-- Its tiles are being saved, after which it enters this state (18 R411, R413). -/
  saving : Option NodeState
  /-- Its tiles restore their slots (18 R416). -/
  restoring : Bool
  /-- Releases that its dependences acquired (02 R32). -/
  acq : List Rel
  /-- Reel registers as its loading left them (02 R26, 20 R469). -/
  reels0 : NMap Reel
  /-- Levels that aging has lifted it (02 R42). -/
  lift : Nat
deriving DecidableEq, Repr

/-- A fault record as written (18 R401): sixteen words. -/
structure FaultRec where
  host : Nat
  ring : Nat
  cls : Nat
  words : List Word
  node : Nat
deriving DecidableEq, Repr

/-- A launch queue's registers (02 R36). -/
structure LaunchQ where
  base : Word
  ctl : Word
  tail : Nat
  head : Nat
  fetch : Bool
  ctlerr : Bool
  overflow : Bool
  /-- The node that the head record became, if it has been read. -/
  headNode : Option Nat
  deficit : Nat
deriving DecidableEq, Repr

/-- A fault ring's registers (18 R403). -/
structure FaultRing where
  base : Word
  ctl : Word
  tail : Nat
  head : Nat
  lost : Nat
  wrerr : Bool
  ctlerr : Bool
  ipend : Bool
  /-- A write failed and the host has not set enable again (18 R404). -/
  failed : Bool
deriving DecidableEq, Repr

/-- A command of a host in progress: its kind and operands, for the registers that have a busy bit. -/
structure HostCmd where
  kind : Nat
  a : Word
  b : Word
deriving DecidableEq, Repr

/-- How an access through a BAR completed: with data, as Unsupported Request or with Completer Abort (20 R449, R450). -/
inductive Cpl where
  | ok (data : List Byte)
  | unsupported
  | abort
deriving DecidableEq, Repr

/-- A host and its control BAR (20 R446, R449). -/
structure HostBlk where
  lq : NMap LaunchQ
  fr : NMap FaultRing
  nodeWhy : Nat
  nodeErr : Bool
  nodeCmd : Option HostCmd
  tlbiErr : Bool
  tlbi : Option Word
  frzAddr : Word
  frzErr : Bool
  frzBusy : Bool
  frozen : List (Nat × Nat)
  hkAddr : Word
  hkAsid : Nat
  hkCause : Nat
  hkErr : Bool
  hkCmd : Option HostCmd
  tdmAsid : Nat
  rasLast : Word
  rasAddr : Word
  rasCnt : Word
  scrub : NMap Word
  sumErr : Bool
  sumCmd : Option Word
  attErr : Bool
  attCmd : Option (List Word)
  linkUp : Bool
  /-- The port has no link to present at the end of bring-up, or has failed in service (20 R447, R470). -/
  gone : Bool
  /-- The completion of the host's last access through a BAR. -/
  cpl : Option Cpl
deriving DecidableEq, Repr

/-- The management block (20 R449). -/
structure Mgmt where
  drr : NMap Word
  asidTbl : Word
  csaBase : Word
  csaCnt : Nat
  scrubCtl : Word
  rqLim : Nat
  hostSplit : Nat
  mgmtHost : Nat
  fabId : Word
  alarmCtl : Word
  alarmCount : Nat
  alarmSrc : Nat
  halted : Bool
  zeroised : Bool
  bootPhase : Nat
  bootBits : Word
  shepCmd : Option Nat
  shepErr : Bool
deriving DecidableEq, Repr

/-- An entry of the margin table in flash for a tile and point (19 R438). -/
structure FlashEnt where
  retired : Bool
  valid : Bool
  fab : Nat
  floor : Nat
  safe : Nat
  hours : Nat
  rate : Nat
  alarms : Nat
  slope : Nat
deriving DecidableEq, Repr

/-- What goes over a strand port for fx0 (20 R455 to R458): the parameters of a first flit, the bytes of a chunk, an abort
marker, or the refusal of an add made for the sender. -/
inductive FxMsg where
  | first (ps : List Nat)
  | chunk (bytes : List Byte)
  | marker
  | refused (cause : Nat)
deriving DecidableEq, Repr

/-- A strand port (20 R451). -/
structure Strand where
  peer : Nat
  pport : Nat
  crc : Nat
  align : Bool
  up : Bool
  /-- Messages received and not taken, and messages sent (DESIGN CHOICE, log entry 4). -/
  rx : List FxMsg
  tx : List FxMsg
deriving DecidableEq, Repr

/-- An agent of the memory model (17 R377): identifier, node, place (tile, 256 + host, 512 + port), clock. -/
structure Agent where
  ident : Nat
  node : Nat
  place : Nat
  vc : NMap Nat
  /-- The clock of the last fence.rel, with its scope (17 R382). -/
  frel : Option Rel
  /-- Releases read by relaxed reads since the last fence.acq (17 R382). -/
  qacq : List Rel
deriving DecidableEq, Repr

/-- An open-access record (17 R390). -/
structure OpenRec where
  gran : Nat
  agent : Nat
  epoch : Nat
  write : Bool
  plain : Bool
  node : Nat
  /-- The bundle that has not committed yet: tile and sequence number. -/
  pend : Option (Nat × Nat)
  /-- The tag that its granule of a checked page carries, and the address of the carve-out that holds it; 0 in a scratchpad (10 R239;
  17 R388). -/
  tag : Nat
  tagAt : Nat
deriving DecidableEq, Repr

/-- An add of an engine's report or of a strand port, or a status record, that met a migrating page or a frozen frame and is to be sent
again (10 R245, R247; 12 R285; 16 R359; 20 R458). -/
structure Owed where
  asid : Nat
  /-- The node for which an engine of `tile` adds; tile 256 for a strand port's own. -/
  node : Option Nat
  tile : Nat
  port : Nat
  agent : Nat
  addr : Word
  v : Word
  scope : Scope
  /-- The bytes of a record; none for an add. -/
  bytes : List Byte
deriving DecidableEq, Repr

/-- A saved context of a slot: the blocks that carry a check word (18 R413, R415). -/
structure SavedCtx where
  core : Core
  engines : NMap Engine
  leaseQ : List LeaseReq
  leaseGen : Nat
  creel : List CreelEntry
  packs : List PackSave
  pack : PackSave
  wmarks : NMap Wmark
  /-- A bobbin was running. -/
  running : Bool
  /-- Something has been written over a block with a check word. -/
  damaged : Bool
deriving DecidableEq, Repr

/-- What moves next (DESIGN CHOICE, log entry 1): a step word with its turn, or an agent's probe. -/
inductive Todo where
  | word (w : StepWord) (turn : Nat)
  /-- Slot operation `k` (0 to 5) of a tile, if one can issue. -/
  | slot (tile k : Nat)
  /-- An event by its row code, with its first two operands, if it is due. -/
  | probe (code a b : Nat)
deriving DecidableEq, Repr

/-- The package and what it holds of the outside. -/
structure State where
  agenda : List Todo
  turn : Nat
  free : Nat
  /-- What hardware has set in W1C fields and counted in RC fields in the cycle in progress, by register: its offset in the control
  BAR, plus 2^26 for host 1's own block and plus 1 for a count (00 R7). -/
  sets : NMap Nat
  /-- Package time in 1/36 ns (01 R17, R21). -/
  clock : Nat
  /-- What slewing has added to the timebase so far, and what it still has to add, in 1/360,000 ns (20 R452). -/
  timeAdj : Int
  slew : Int
  point : Nat
  freqTarget : Nat
  /-- The point that the change in progress, or the last one, began at (01 R18). -/
  freqFrom : Nat
  freqBusy : Bool
  clockStop : Bool
  /-- The frequency point and the management host that package flash names (01 R19, 20 R447). -/
  flashPoint : Nat
  flashMgmt : Nat
  mem : Mem
  hostMem0 : Mem
  hostMem1 : Mem
  lostGran : List Nat
  /-- Banks (or symbol numbers) whose symbol is wrong in a codeword: key granule number for memory, or
  2^46 + tile * 2^23 + line * 4 + codeword for the pool (19 R425). -/
  symErr : NMap (List Nat)
  tiles : NMap Tile
  dies : NMap Die
  portsLost : List Nat
  /-- Toldody links that have finished training, by 4 × physical compute die + port die: 1 + the revision, or 0 when down
  (20 R463). -/
  links : NMap Nat
  hosts : NMap HostBlk
  mgmt : Mgmt
  flash : NMap FlashEnt
  bankMarks : NMap Nat
  strands : NMap Strand
  nodes : NMap Node
  packs : NMap Pack
  nextOrder : Nat
  drrTurn : NMap Nat
  touched : NMap Nat
  saved : NMap SavedCtx
  agents : NMap Agent
  nextAgent : Nat
  releases : NMap (List Rel)
  records : List OpenRec
  /-- The last tag given to a granule of a checked page (10 R239). -/
  lastTag : Nat
  /-- Wait entries in order of registration (16 R364). -/
  waits : List WaitEnt
  /-- What is to be sent again, oldest first. -/
  owed : List Owed
  recQ : List FaultRec
  msix : List (Nat × Nat)
  patrol : NMap Nat
deriving DecidableEq, Repr

/-- Why a step stops with a fault. -/
inductive Fault where
  /-- Raised by `step` alone: the step word at the head of the agenda decodes to no step of the opcode table. Safe: the
  part never meets such a word. -/
  | undecodable
deriving DecidableEq, Repr

/-- Why a step has no meaning. -/
inductive Refusal where
  /-- Raised by an arm of `exec` whose instruction has no meaning yet. Safe. -/
  | notModelled (mnemonic : String)
deriving DecidableEq, Repr

/-- A value with the residue that it has when correct (07 R170). -/
def rvOf (v : Word) : RV := ⟨v, BitVec.ofNat 4 (v.toNat % 15)⟩

/-- The core right after package reset: every register 0 (DESIGN CHOICE, log entry 7), back-off 64, 64, 65,536
(07 R162). -/
def coreReset : Core :=
  { ticks := 0, regs := [], log := [], flights := [], window := [], nextSeq := 0, pc := 0, cur := none, loops := [], qent := [],
    qpop := [], qpush := [], busy := [], served := [], lost := [], hold := 0, decodeStop := none, vec := [], reqs := [], nextReq := 0,
    frozen := none, replay := none, stretch := 0, stage := .start, ticked := false, energy := [], weight := 0, lineWait := none, pageWait := none,
    lines := [], frames := [], fill := [], tlb := [], fault := none, skipBrk := false, resumeSeq := 0, stopCause := 0, stopMask := 0,
    stopKind := 0, phase := 0 }

/-- A reel register that nothing has declared: 0 and unbound (02 R26). -/
def reelReset : Reel := ⟨0, false, 0, 0⟩

/-- Engine `n` at placement and after reset: in the kennel; copy sequencers are always held (12 R272, R281; 11 R250;
13 R293; 20 R453). -/
def engineReset (n : Nat) : Engine :=
  { st := if n < 8 then 0 else 3, gen := 0, noevict := false, ord := 0, pwTick := 0, pwDone := true,
    regs := if n < 8 then (if n < 2 then [(6, rvOf 0x40)] else if n = 7 then [(7, rvOf 2000), (9, rvOf 20)] else [])
      else [(3, rvOf 0x0000000100000001), (8, rvOf 1), (9, rvOf 1), (10, rvOf 1), (11, rvOf 1), (12, rvOf 1), (13, rvOf 1)],
    cause := 0, lastcode := 0, waiting := false, stopped := false, progSeq := 0, progNext := 0, evreel := rvOf 0,
    buf := [], queue := [], runs := [], after := [], idle := 0, nextOrd := 0, relSeq := 0, relIds := [], freed := 0, fault := none }

/-- A pool segment after reset: no failed bank, rebuild line at the end, no correctable errors (19 R429). -/
def segReset : Seg := ⟨3072, 0, 0x3F, 0x3F, 0, 0, 0, []⟩

/-- An accumulator tile's watermarks after reset and at placement (13 R297). -/
def wmarkReset : Wmark := ⟨64, 0, false, 0⟩

/-- The governor after reset: safe voltage, profile 480 (19 R443); the table in flash gives 0 mV (DESIGN CHOICE, log
entry 8). -/
def govReset : Governor :=
  { ctl := 0x00000000F0701400, v := 0, floor := 0, p := 480, flerr := false, emerg := false,
    ctlerr := false, replays := 0, ce := 0, alarms := 0, wBundles := 0, wReplays := 0, wCe := 0, wStart := 0, hint := 0,
    boost := 0, lastBelow := 0, emergSince := 0, temp := 0, cur := 0, lowSince := 0, overTwice := false, days := [],
    daySince := 0, restore := 0 }

/-- A tile right after package reset (02 R50 for the pack registers). -/
def tileReset : Tile :=
  { core := coreReset, running := none, creel := [], node := none, packId := 0, packParent := 0,
    packLevel := 0, packRank := 0, packSize := 1, packStack := [], partAcc := 4, partQueue := 1, pool := [],
    wmarks := [], segs := [], retired := false, reels := [], engines := [], grant := 7, standby := [], leaseQ := [],
    leaseCtl := 0x0000001400001000, leaseGen := 0, leaseOrd := 0, drains := [], gov := govReset, dbg := false,
    yreqPosted := false, yreqSeq := 0, yreqUntil := 0, stealNext := 0, stealFails := 0,
    stewardAsked := false, halted := false, frzNs := 0, walkBad := [], found := [] }

/-- Logical die `d` after reset: present, mapped onto physical die `d` (DESIGN CHOICE, log entry 6), stealing across
dies after 32 attempts (02 R58). -/
def dieReset (d : Nat) : Die :=
  { lost := false, phys := d, xdie := true, tries := 32, tlb2 := [], walks := [], missQ := [], cached := [], dirty := [] }

/-- A launch queue after reset (02 R36). -/
def lqReset : LaunchQ :=
  { base := 0, ctl := 4, tail := 0, head := 0, fetch := false, ctlerr := false, overflow := false, headNode := none,
    deficit := 0 }

/-- A fault ring after reset (18 R403). -/
def frReset : FaultRing :=
  { base := 0, ctl := 6, tail := 0, head := 0, lost := 0, wrerr := false, ctlerr := false, ipend := false, failed := false }

/-- A host's control BAR after reset. -/
def hostReset : HostBlk :=
  { lq := [], fr := [], nodeWhy := 0, nodeErr := false, nodeCmd := none, tlbiErr := false, tlbi := none, frzAddr := 0,
    frzErr := false, frzBusy := false, frozen := [], hkAddr := 0, hkAsid := 0, hkCause := 0, hkErr := false, hkCmd := none,
    tdmAsid := 0, rasLast := 0, rasAddr := 0, rasCnt := 0, scrub := [], sumErr := false, sumCmd := none, attErr := false,
    attCmd := none, linkUp := false, gone := false, cpl := none }

/-- The management block after reset. -/
def mgmtReset : Mgmt :=
  { drr := [], asidTbl := 0, csaBase := 0, csaCnt := 0, scrubCtl := 0x0000000100015180, rqLim := 2, hostSplit := 1024,
    mgmtHost := 0, fabId := 0, alarmCtl := 1, alarmCount := 0, alarmSrc := 0, halted := false, zeroised := false,
    bootPhase := 0, bootBits := 0, shepCmd := none, shepErr := false }

/-- A strand port after reset: down (20 R451). -/
def strandReset : Strand := ⟨0, 0, 0, false, false, [], []⟩

/-- The package right after package reset. -/
def State.reset : State :=
  { agenda := [], turn := 0, free := 0, sets := [], clock := 0, timeAdj := 0, slew := 0, point := 0, freqTarget := 0, freqFrom := 0, freqBusy := false, clockStop := false,
    flashPoint := 2, flashMgmt := 0, mem := [], hostMem0 := [], hostMem1 := [], lostGran := [], symErr := [], tiles := [], dies := [],
    portsLost := [], links := [], hosts := [], mgmt := mgmtReset, flash := [], bankMarks := [], strands := [], nodes := [],
    packs := [], nextOrder := 0, drrTurn := [], touched := [], saved := [], agents := [], nextAgent := 0, releases := [],
    records := [], lastTag := 0, waits := [], owed := [], recQ := [], msix := [], patrol := [] }

end Sys2Proof.Machine
end

