-- ==== Sys2Proof/Machine/Ops.lean ====
section
/-! DEFINITION. The named operations over tiles, registers, queues and staged results that every meaning uses. -/

namespace Sys2Proof.Machine

open Sys2Proof

/-- A step that completes. -/
abbrev Out := Host.Outcome State Fault Refusal

/-- A tile by its global number (01 R15). -/
def tileGet (s : State) (n : Nat) : Tile := mapGet s.tiles n tileReset

/-- Puts a tile back. -/
def tilePut (s : State) (n : Nat) (t : Tile) : State := { s with tiles := mapPut s.tiles n t }

/-- The core of a tile. -/
def coreGet (s : State) (n : Nat) : Core := (tileGet s n).core

/-- Puts a core back. -/
def corePut (s : State) (n : Nat) (c : Core) : State := tilePut s n { tileGet s n with core := c }

/-- An engine of a tile. -/
def engGet (t : Tile) (e : Nat) : Engine := mapGet t.engines e (engineReset e)

/-- Puts an engine back. -/
def engPut (t : Tile) (e : Nat) (x : Engine) : Tile := { t with engines := mapPut t.engines e x }

/-- A compute die. -/
def dieGet (s : State) (d : Nat) : Die := mapGet s.dies d (dieReset d)

/-- Puts a die back. -/
def diePut (s : State) (d : Nat) (x : Die) : State := { s with dies := mapPut s.dies d x }

/-- A host's control BAR. -/
def hostGet (s : State) (h : Nat) : HostBlk := mapGet s.hosts h hostReset

/-- Puts a host's control BAR back. -/
def hostPut (s : State) (h : Nat) (x : HostBlk) : State := { s with hosts := mapPut s.hosts h x }

/-- The key of a register of a host's own block, of the management block or of a tile's block in State.sets (20 R449). -/
def hostReg (h off : Nat) : Nat := h * 2 ^ 26 + off
def mgmtReg (off : Nat) : Nat := 0x100000 + off
def tileReg (tile off : Nat) : Nat := 0x1000000 + tile * 0x10000 + off

/-- A written value with the ones left out of the W1C bits that hardware has set in this cycle: those stay set (00 R7). -/
def keepSet (s : State) (reg : Nat) (v : Word) : Word := v &&& ~~~(BitVec.ofNat 64 (mapGet s.sets reg 0))

/-- Hardware sets bits of a register's W1C fields in this cycle (00 R7). -/
def noteBits (s : State) (reg bits : Nat) : State := { s with sets := mapPut s.sets reg (mapGet s.sets reg 0 ||| bits) }

/-- Hardware counts `n` in a register's RC fields, as they lie in it, in this cycle (00 R7). -/
def noteCount (s : State) (reg n : Nat) : State := { s with sets := mapPut s.sets (reg + 1) (mapGet s.sets (reg + 1) 0 + n) }

/-- What this cycle has counted in a register's RC fields (00 R7). -/
def countIn (s : State) (reg : Nat) : Nat := mapGet s.sets (reg + 1) 0

/-- A node by its number. -/
def nodeGet? (s : State) (n : Nat) : Option Node := mapGet? s.nodes n

/-- Puts a node back. -/
def nodePut (s : State) (n : Nat) (x : Node) : State := { s with nodes := mapPut s.nodes n x }

/-- A live pack by its ID. -/
def packGet? (s : State) (p : Nat) : Option Pack := mapGet? s.packs p

/-- Puts a pack back. -/
def packPut (s : State) (x : Pack) : State := { s with packs := mapPut s.packs x.id x }

/-- A reel register. -/
def reelGet (t : Tile) (k : Nat) : Reel := mapGet t.reels k reelReset

/-- Global timebase in ns: package time with what slewing has added (18 R419, 20 R452). -/
def timeOf (s : State) : Nat := (((s.clock * 10000 : Nat) + s.timeAdj) / 360000).toNat

/-- Bytes of the scratchpad, S, under the partition word (02 R27). -/
def scratchSize (t : Tile) : Nat := 6291456 - 262144 * t.partAcc - 65536 * t.partQueue

/-- The die of a tile (01 R15). -/
def dieOf (tile : Nat) : Nat := tile / 32

/-- The ASID of the node on a tile; 0 when there is none. -/
def nodeAsid (nd : Node) : Nat := nd.ctl.toNat / 2 ^ 49 % 2048

/-- The priority of a node (02 R31). -/
def nodePrio (nd : Node) : Nat := nd.ctl.toNat / 2 ^ 44 % 32

/-- The node placed on a tile. -/
def tileNode? (s : State) (tile : Nat) : Option Node := (tileGet s tile).node.bind (nodeGet? s)

/-- The ASID that a tile's accesses are taken in. -/
def tileAsid (s : State) (tile : Nat) : Nat := ((tileNode? s tile).map nodeAsid).getD 0

/-- The candidate that `turn` selects. -/
def pickTurn {α : Type} (s : State) (l : List α) : Option α := l[s.turn % l.length]?

/-- A fault with no detail. -/
def trapOf (cause : Nat) : Trap := ⟨cause, 0, 0, 0, 0⟩

/-- A fault with its first two detail words. -/
def trapAt (cause : Nat) (d0 d1 : Word) : Trap := ⟨cause, d0, d1, 0, 0⟩

/-- The key of a port's register or latch: its port number (03 R74). -/
def portKey (p : Port) : Nat := (portNum p).toNat

/-- Key of descriptor `n`. -/
def descKey (n : Nat) : Nat := 0x1000 + n

/-- Key of the origin register of descriptor `n`. -/
def orgKey (n : Nat) : Nat := 0x2000 + n

/-- Keys of the back-off interval, floor and ceiling (07 R162), FPSTAT, FPCTL, SLACK.decl and SHEP_HINT. -/
def keyBack : Nat := 0x3000
def keyFloor : Nat := 0x3001
def keyCeil : Nat := 0x3002
def keyFpstat : Nat := 0x087
def keyFpctl : Nat := 0x088
def keySlack : Nat := 0x089
def keyHint : Nat := 0x0A0

/-- The value that the landed effects leave in a register; later landings win (05 R105). -/
def logReg (l : List Landed) (key : Nat) (x : RV) : RV :=
  l.foldl (fun x e => match e.eff with
    | .reg k y => if k = key then y else x
    | .fp bits => if key = keyFpstat then rvOf (x.v ||| BitVec.ofNat 64 bits) else x
    | _ => x) x

/-- What a register not yet written reads as: back-off 64, 64, 65,536 (07 R162), else 0 (DESIGN CHOICE, log entry 7). -/
def regDefault (key : Nat) : RV :=
  if key = keyBack then rvOf 64 else if key = keyFloor then rvOf 64 else if key = keyCeil then rvOf 65536 else rvOf 0

/-- A register, latch, descriptor or control register as the tile's own reads see it (05 R103, R105). -/
def regRd (c : Core) (key : Nat) : RV := logReg c.log key (mapGet c.regs key (regDefault key))

/-- A byte with one nibble replaced. -/
def nibSet (x : Byte) (hi : Bool) (v : BitVec 4) : Byte :=
  if hi then v ++ x.setWidth 4 else (x.extractLsb' 4 4) ++ v

/-- A byte of the tile's own scratchpad as its own reads see it (05 R103, 08 R180). -/
def poolByte (t : Tile) (a : Nat) : Byte :=
  t.core.log.foldl (fun x e => match e.eff with
    | .cells cs => (cellFind cs a).getD x
    | .nib b hi v => if b = a then nibSet x hi v else x
    | _ => x) (memGet t.pool a)

/-- `n` bytes of the own scratchpad as a little-endian number. -/
def poolNat (t : Tile) (a n : Nat) : Nat := leNat ((List.range n).map fun i => poolByte t (a + i))

/-- An own reel register's value as the tile's own reads see it (08 R191). -/
def reelOwn (t : Tile) (k : Nat) : Word :=
  t.core.log.foldl (fun x e => match e.eff with
    | .reelAdd j v => if j = k then x + v else x
    | .reelSet j v => if j = k then v else x
    | _ => x) (reelGet t k).value

/-- The key of an entry of a queue. -/
def qKey (q i : Nat) : Nat := i * 16 + q

/-- The number of a queue port: lq0 to lq7 are 0 to 7, sq0 to sq3 are 8 to 11. -/
def queueOf : Port → Option Nat
  | .lq n => some n.toNat
  | .sq n => some (8 + n.toNat)
  | _ => none

/-- The progress word of an engine (12 R281, 11 R254). -/
def progWord (e : Engine) : Word := BitVec.ofNat 64 (e.progSeq % 65536 * 2 ^ 48 + e.progNext % 2 ^ 48)

/-- Elements of the oldest vector operation whose group has started (09 R211). -/
def vecElems (v : VecOp) : Nat := min v.n v.elem

/-- A special register as a read in this tick sees it (03 R78). SLACK.buffered counts what earlier bobbins have left in the buffers
too, at pick-up as at any time (05 R112; DEDUCED, log entry 19). -/
def specialRd (s : State) (tile : Nat) (n : Nat) : Word :=
  let t := tileGet s tile
  let c := t.core
  let eng (e : Nat) : Word := progWord (engGet t e)
  match n with
  | 0x00 => BitVec.ofNat 64 c.ticks
  | 0x01 => BitVec.ofNat 64 (timeOf s)
  | 0x02 => BitVec.ofNat 64 t.packId
  | 0x03 => BitVec.ofNat 64 (t.packParent * 65536 + t.packLevel)
  | 0x04 => BitVec.ofNat 64 t.packRank
  | 0x05 => BitVec.ofNat 64 t.packSize
  | 0x06 =>
    let left := if t.yreqPosted then min 4095 ((t.yreqUntil - timeOf s) / 1000) else 0
    BitVec.ofNat 64 (t.yreqSeq % 2 ^ 32 * 2 ^ 32 + left * 65536 + boolNat t.yreqPosted)
  | 0x07 => (regRd c keyFpstat).v
  | 0x08 => (regRd c keyFpctl).v
  | 0x09 =>
    let waiting := ((List.range 10).map fun e => (engGet t e).buf.length).sum
    BitVec.ofNat 64 (waiting * 256) ||| (regRd c keySlack).v
  | 0x0A => BitVec.ofNat 64 t.frzNs
  | 0x10 =>
    BitVec.ofNat 64 (c.vec.length * 2 ^ 32 + (match c.vec with | [] => 0 | v :: _ => vecElems v % 65536))
  | 0x11 => eng 0 | 0x12 => eng 1 | 0x13 => eng 2 | 0x14 => eng 3 | 0x15 => eng 4 | 0x16 => eng 5 | 0x17 => eng 6
  | 0x18 => eng 7 | 0x19 => eng 8 | 0x1A => eng 9
  | 0x20 => BitVec.ofNat 64 (t.gov.p * 65536 + t.grant * 256) ||| ((regRd c keyHint).v &&& 3)
  | _ => 0

/-- A port that is no queue, as an operation's read in this tick sees it, with its residue (03 R74, 07 R170). -/
def plainRd (s : State) (tile : Nat) (p : Port) (immv : Word) : RV :=
  match p with
  | .s n => if n = 0 then rvOf 0 else regRd (coreGet s tile) (portKey p)
  | .p n => if n = 0 then rvOf 1 else regRd (coreGet s tile) (portKey p)
  | .special n => rvOf (specialRd s tile n.toNat)
  | .imm => rvOf immv
  | .reserved _ => rvOf 0
  | _ => regRd (coreGet s tile) (portKey p)

/-- Reads a list of ports in order; a queue port takes the next of the entries assigned to the slot (03 R77). -/
def readPorts (s : State) (tile : Nat) (immv : Word) : List Port → List (Nat × Nat) → List RV
  | [], _ => []
  | p :: ps, pops =>
    match queueOf p, pops with
    | some _, (q, i) :: rest =>
      mapGet (coreGet s tile).qent (qKey q i) (rvOf 0) :: readPorts s tile immv ps rest
    | some _, [] => rvOf 0 :: readPorts s tile immv ps []
    | none, _ => plainRd s tile p immv :: readPorts s tile immv ps pops

/-- The entries assigned to a slot of a bundle. -/
def slotQ (l : List (Nat × Nat × Nat)) (slot : Nat) : List (Nat × Nat) :=
  l.filterMap fun x => if x.1 = slot then some x.2 else none

/-- Every entry that the slot's operation pops has landed (05 R100). -/
def popsLanded (c : Core) (b : Bundle) (slot : Nat) : Bool :=
  (slotQ b.pops slot).all fun x => (mapGet? c.qent (qKey x.1 x.2)).isSome

/-- The guard of an operation, read in its issue tick (07 R144). -/
def guardTrue (s : State) (tile : Nat) (g : Guard) : Bool :=
  let x := if g.p = 0 then 1 else (regRd (coreGet s tile) (portKey (.p g.p))).v
  if g.neg then decide (x = 0) else decide (x ≠ 0)

/-- The bundle of a sequence number. -/
def bundleGet? (c : Core) (seq : Nat) : Option Bundle := c.window.find? fun b => decide (b.seq = seq)

/-- Rewrites the bundle of a sequence number. -/
def bundleMap (c : Core) (seq : Nat) (f : Bundle → Bundle) : Core :=
  { c with window := c.window.map fun b => if b.seq = seq then f b else b }

/-- Adds a result that lands `l` ticks from issue (05 R105). -/
def addFlight (s : State) (tile seq slot l : Nat) (effs : List Eff) : State :=
  let c := coreGet s tile
  corePut s tile { c with flights := c.flights ++ [⟨seq, slot, c.ticks + l - 1, effs, none, false, false, false⟩] }

/-- Records a fault of an operation in its bundle; the first one of a slot stays (18 R397). -/
def raiseAt (s : State) (tile seq slot : Nat) (t : Trap) : State :=
  let c := coreGet s tile
  corePut s tile (bundleMap c seq fun b =>
    if b.faults.any (fun f => decide (f.1 = slot)) then b else { b with faults := b.faults ++ [(slot, t)] })

/-- Adds an effect that the bundle has at its commit. -/
def addAct (s : State) (tile seq slot : Nat) (a : CommitAct) : State :=
  let c := coreGet s tile
  corePut s tile (bundleMap c seq fun b => { b with acts := b.acts ++ [(slot, a)] })

/-- What a full address names (08 R174, R176). -/
inductive Place where
  | mem (va : Nat)
  | ownPool (off : Nat)
  | pool (tile off : Nat)
  | ownReel (k : Nat)
  | reel (tile k : Nat)
  | bad
deriving DecidableEq, Repr

/-- The place of a pool address (08 R174). -/
def poolPlace (a : Nat) : Place :=
  if natBits a 32 32 ≠ 0 then .bad
  else if natBit a 31 then .pool (natBits a 23 8) (natBits a 0 23)
  else if natBits a 23 8 ≠ 0 then .bad
  else .ownPool (natBits a 0 23)

/-- The place of a full address (08 R176). -/
def fullPlace (w : Word) : Place :=
  let a := w.toNat
  match natBits a 62 2 with
  | 0 => if natBits a 52 10 ≠ 0 then .bad else .mem a
  | 2 => if natBits a 32 30 ≠ 0 then .bad else poolPlace (natBits a 0 32)
  | 3 =>
    if natBits a 17 45 ≠ 0 then .bad
    else if natBit a 16 then .reel (natBits a 8 8) (natBits a 0 8)
    else if natBits a 8 8 ≠ 0 then .bad
    else .ownReel (natBits a 0 8)
  | _ => .bad

/-- The scope of a 3-bit code (03 R71). -/
def scopeOfCode (n : Nat) : Scope :=
  match n with | 0 => .tile | 1 => .die | 2 => .pkg | 3 => .sys | _ => .fab

/-- The tile's clock carries core and engines in this package cycle: it does not pass for a stretch, and a replay is not in the
cycle of a flag, the repetition of the flagged tick or the first half of a tick at half clock (05 R116, R118). -/
def clockOn (c : Core) : Bool :=
  decide (c.stretch ≠ 2) && (match c.replay with
    | none => true
    | some r => decide (r.left = 5) || decide (r.left = 3) || decide (r.left = 1))

/-- Latch `n` of a slot (03 R74). -/
def latchKey (slot n : Nat) : Nat :=
  match slot with
  | 0 => 0x60 + n | 1 => 0x50 + n | 2 => 0x54 + n | 3 => 0x58 + n | _ => 0x5C + n

/-- An effect that stands from the issue tick on, staged with its bundle. -/
def stageNow (s : State) (tile seq : Nat) (e : Eff) : State :=
  let c := coreGet s tile
  corePut s tile { c with log := c.log ++ [⟨seq, 0, e⟩] }

/-- The bundle is committed: it has left the window (05 R102). -/
def isCommitted (c : Core) (seq : Nat) : Bool := c.window.all fun b => decide (seq < b.seq)

/-- Undoes bundle `seq` and every younger one (18 R397): what they staged and what is in flight for them is dropped, their
pops and pushes are restored, and fetch goes back to the bundle. What committed bundles have in flight stays. -/
def undoFrom (c : Core) (seq : Nat) : Core :=
  let old (x : Nat) : Bool := decide (x < seq)
  match c.window.find? fun b => !old b.seq with
  | none => { c with cur := none, decodeStop := none, lineWait := none, pageWait := none }
  | some b =>
    { c with window := c.window.filter fun x => old x.seq, nextSeq := b.seq, pc := b.pc, cur := none, loops := b.loops0,
             log := c.log.filter fun x => old x.seq, flights := c.flights.filter fun x => old x.seq,
             vec := c.vec.filter fun x => old x.seq, reqs := c.reqs.filter fun x => old x.seq,
             qpop := b.qpop0, qpush := b.qpush0,
             qent := c.qent.filter fun x => decide (x.1 / 16 < mapGet b.qpush0 (x.1 % 16) 0),
             decodeStop := none, lineWait := none, pageWait := none, hold := 0 }

/-- TAKING AN EXCEPTION, on one core (18 R397 to R399, R411): every bundle that has not committed is undone, the pc stands
at the first of them, and the cause, the mask and the kind of the stop (0 cooperative, 1 forced, 2 stopped) are kept
for the context (18 R414). -/
def takeStop (c : Core) (cause mask kind : Nat) : Core :=
  let c := match c.window with | [] => undoFrom c c.nextSeq | b :: _ => undoFrom c b.seq
  { c with stopCause := cause, stopMask := mask, stopKind := kind, fault := none, frozen := none }

/-- The first tick that has not begun. -/
def nextTick (c : Core) : Nat := if c.stage = .start then c.ticks else c.ticks + 1

/-- A vector operation goes on at its next element in the resumption tick (09 R210). -/
def vecResume (tick : Nat) (v : VecOp) : VecOp :=
  if v.t0.isSome && decide (v.elem < v.n) then { v with faulted := false, t0 := some tick, resumed := v.elem }
  else { v with faulted := false }

/-- THE RETURN from one (18 R407): the core runs on from the pc that it stopped at; `past` makes the brk there act as nop
once. -/
def resumeStop (c : Core) (past : Bool) : Core := { c with skipBrk := past, resumeSeq := c.nextSeq, vec := c.vec.map (vecResume (nextTick c)) }

/-- A residue that does not fit its value, or is poisoned (07 R171, R172). -/
def resBad (x : RV) : Bool := decide (x.r.toNat = 15) || decide (x.v.toNat % 15 ≠ x.r.toNat)

/-- The residue fault: the value found and the residue it carried (18 R402). -/
def residueTrap (x : RV) : Trap := trapAt causeResidue x.v (x.r.setWidth 64)

/-- The first value of a list whose check fails (07 R172). -/
def resCheck (l : List RV) : Option Trap := (l.find? resBad).map residueTrap

/-- One period of the frequency point in force, in 1/36 ns (01 R17). -/
def cyclePeriod (s : State) : Nat :=
  match s.point with
  | 0 => 30
  | 1 => 24
  | 2 => 20
  | _ => 18

/-- An order that acquires. -/
def ordAcq : Order → Bool
  | .acq | .acqrel => true
  | _ => false

/-- An order that releases. -/
def ordRel : Order → Bool
  | .rel | .acqrel => true
  | _ => false

/-- Detail word 2 of a core fault: the opcode field of the faulting slot word (18 R402). -/
def opcDetail (opc : Nat) (x : Trap) : Trap :=
  if 0x30 ≤ x.cause ∧ x.cause ≤ 0x54 ∧ x.cause ≠ causeSoftwareTrap ∧ x.cause ≠ causeBreakpoint ∧ x.cause ≠ causeResidue then
    { x with d2 := BitVec.ofNat 64 opc }
  else x

end Sys2Proof.Machine
end

