-- ==== Sys2Proof/Machine/Conflict.lean ====
section
/-! DEFINITION. The memory model: agents, clocks, releases and acquires, and the conflict check of a granule
(17 R377 to R396). -/

namespace Sys2Proof.Machine

open Sys2Proof

/-- A component of a clock. -/
def vcGet (vc : NMap Nat) (a : Nat) : Nat := mapGet vc a 0

/-- The join of two clocks: the greater in each component. -/
def vcJoin (x y : NMap Nat) : NMap Nat := y.foldl (fun m e => if vcGet m e.1 < e.2 then mapPut m e.1 e.2 else m) x

/-- The agent number of rank `r` of node `n` (17 R377). -/
def coreAgentId (n r : Nat) : Nat := n * 1024 + r

/-- The agent number of a host. -/
def hostAgentId (h : Nat) : Nat := 2 ^ 23 + h

/-- The agent number of the far side of a strand port. -/
def remoteAgentId (p : Nat) : Nat := 2 ^ 23 + 16 + p

/-- The rank in the level-0 pack: that of the outermost pack kept (17 R377). -/
def rank0 (t : Tile) : Nat := match t.packStack.getLast? with | some p => p.rank | none => t.packRank

/-- The agent number of a tile's core. -/
def tileAgentId (s : State) (tile : Nat) : Nat :=
  let t := tileGet s tile
  coreAgentId (t.node.getD 4096) (rank0 t)

/-- The identifier a fault record names an agent by (17 R377). -/
def identOf (kind engine tile : Nat) : Nat := kind * 2 ^ 14 + engine * 2 ^ 8 + tile

/-- An agent: its record, or a fresh one at the given place (17 R380). -/
def agentGet (s : State) (a ident node place : Nat) : Agent :=
  (mapGet? s.agents a).getD ⟨ident, node, place, [(a, 1)], none, []⟩

/-- The agent of a tile's core. -/
def coreAgent (s : State) (tile : Nat) : Agent :=
  agentGet s (tileAgentId s tile) (identOf 0 0 tile) ((tileGet s tile).node.getD 4096) tile

/-- The agent of a host. -/
def hostAgent (s : State) (h : Nat) : Agent := agentGet s (hostAgentId h) (identOf 2 h 0) 4097 (256 + h)

/-- The agent of a strand port. -/
def remoteAgent (s : State) (p : Nat) : Agent := agentGet s (remoteAgentId p) (identOf 3 0 p) 4097 (512 + p)

/-- Puts an agent back. -/
def agentPut (s : State) (a : Nat) (x : Agent) : State := { s with agents := mapPut s.agents a x }

/-- The agent's own time moves on: what follows is not ordered by what was released before (17 R384). -/
def agentBump (a : Nat) (x : Agent) : Agent := { x with vc := mapPut x.vc a (vcGet x.vc a + 1) }

/-- A scope covers two places (17 R380): tiles below 256, hosts 256 and 257, remote agents from 512. -/
def covers (sc : Scope) (p q : Nat) : Bool :=
  match sc with
  | .tile => decide (p = q)
  | .die => decide (p < 256) && decide (q < 256) && decide (p / 32 = q / 32)
  | .pkg => decide (p < 256) && decide (q < 256)
  | .sys => decide (p < 512) && decide (q < 512)
  | .fab => true

/-- The number of a scope, the wider the greater (08 R178). -/
def scopeRank : Scope → Nat
  | .tile => 0 | .die => 1 | .pkg => 2 | .sys => 3 | .fab => 4

/-- The wider of two scopes (08 R178). -/
def scopeMax (a b : Scope) : Scope := if scopeRank a < scopeRank b then b else a

/-- Location keys: a word of device or host memory, of a pool, a reel register, a phase reel. -/
def locMem (pa : Nat) : Nat := pa / 8
def locPool (tile off : Nat) : Nat := 2 ^ 60 + tile * 2 ^ 20 + off / 8
def locReel (tile k : Nat) : Nat := 2 ^ 61 + tile * 256 + k
def locPhase (pack : Nat) : Nat := 2 ^ 62 + pack

/-- Granule keys: 64 bytes of memory or of a scratchpad (17 R385). -/
def granMem (pa : Nat) : Nat := pa / 64
def granPool (tile off : Nat) : Nat := 2 ^ 60 + tile * 2 ^ 20 + off / 64

/-- An atomic or an add joins every release sequence of its location, and starts one where it is a release (17 R381). -/
def relsJoin (s : State) (loc : Nat) (r : Option Rel) : State :=
  match mapGet s.releases loc [], r with
  | [], none => s
  | l, r => { s with releases := mapPut s.releases loc (l.map (fun x => { x with passed := false }) ++ r.toList) }

/-- A release on a location by an agent (17 R379, R381). -/
def release (s : State) (a : Nat) (x : Agent) (loc : Nat) (sc : Scope) : State :=
  agentPut (relsJoin s loc (some ⟨x.vc, sc, x.place, false⟩)) a (agentBump a x)

/-- A relaxed write or add: it releases what the last fence.rel covered (17 R382). -/
def relaxedWrite (s : State) (x : Agent) (loc : Nat) : State := relsJoin s loc x.frel

/-- A store that is a synchronisation access stands in no release sequence but the one that it starts as a release, the last of each
list; an atomic or add that comes after it stands in them all (17 R379, R381). -/
def storeOver (s : State) (locs : List Nat) (rel : Bool) : State :=
  { s with releases := s.releases.map fun e => if locs.contains e.1 then
      let n := e.2.length - boolNat rel
      (e.1, (e.2.take n).map (fun x => { x with passed := true }) ++ e.2.drop n)
    else e }

/-- A plain write ends the release sequence of a location (17 R381). -/
def endReleases (s : State) (loc : Nat) : State := { s with releases := mapDel s.releases loc }

/-- The releases that a reader at a place with a scope synchronises with (17 R381). -/
def relsCovered (l : List Rel) (sc : Scope) (place : Nat) : List Rel :=
  l.filter fun r => !r.passed && covers r.scope r.place place && covers sc r.place place

/-- An acquire of a location by an agent (17 R379, R381). -/
def acquire (s : State) (a : Nat) (x : Agent) (loc : Nat) (sc : Scope) : State :=
  agentPut s a { x with vc := (relsCovered (mapGet s.releases loc []) sc x.place).foldl (fun v r => vcJoin v r.vc) x.vc }

/-- A relaxed read keeps the releases it read for a later fence.acq (17 R382). -/
def relaxedRead (s : State) (a : Nat) (x : Agent) (loc : Nat) : State :=
  match (mapGet s.releases loc []).filter fun r => !r.passed with
  | [] => s
  | l => agentPut s a { x with qacq := x.qacq ++ l }

/-- fence.rel (17 R382). -/
def fenceRelease (a : Nat) (x : Agent) (sc : Scope) : Agent :=
  agentBump a { x with frel := some ⟨x.vc, sc, x.place, false⟩ }

/-- fence.acq (17 R382). -/
def fenceAcquire (x : Agent) (sc : Scope) : Agent :=
  { x with vc := (relsCovered x.qacq sc x.place).foldl (fun v r => vcJoin v r.vc) x.vc, qacq := [] }

/-- The synchronisation of an access of some order on a location: acquire before, release after (17 R379). -/
def syncAccess (s : State) (a ident node place : Nat) (o : Order) (sc : Scope) (loc : Nat) (rd wr : Bool) : State :=
  let x := agentGet s a ident node place
  let s := if rd then
      (match o with
       | .acq | .acqrel => acquire s a x loc sc
       | _ => relaxedRead s a x loc)
    else s
  let x := agentGet s a ident node place
  if wr then
    (match o with
     | .rel | .acqrel => release s a x loc sc
     | _ => relaxedWrite s x loc)
  else s

/-- The synchronisation of an access of a tile's core. -/
def coreSync (s : State) (tile : Nat) (o : Order) (sc : Scope) (loc : Nat) (rd wr : Bool) : State :=
  syncAccess s (tileAgentId s tile) (identOf 0 0 tile) ((tileGet s tile).node.getD 4096) tile o sc loc rd wr

/-- An access conflicts with a recorded one (17 R385). -/
def conflictsWith (a : Nat) (vc : NMap Nat) (gran : Nat) (write plain : Bool) (r : OpenRec) : Bool :=
  decide (r.gran = gran) && decide (r.agent ≠ a) && (r.write || write) && (r.plain || plain)
    && !decide (r.epoch ≤ vcGet vc r.agent)

/-- The detail of a conflict: the granule's address, the other agent and both write flags (18 R402). -/
def conflictTrap (s : State) (cause gran : Nat) (other : Option OpenRec) (write : Bool) : Trap :=
  let ident := match other with
    | some r => ((mapGet? s.agents r.agent).map (·.ident)).getD 0
    | none => 0
  let ow := match other with | some r => r.write | none => false
  ⟨cause, BitVec.ofNat 64 (gran % 2 ^ 60 * 64), BitVec.ofNat 64 (ident + 2 ^ 16 * boolNat ow + 2 ^ 17 * boolNat write), 0, 0⟩

/-- The conflict check of one granule by an agent: the record is opened, or the fault answers (17 R388 to R390). -/
def checkGran (s : State) (a : Nat) (x : Agent) (gran : Nat) (write plain : Bool) (pend : Option (Nat × Nat)) :
    Except Trap State :=
  match s.records.find? (conflictsWith a x.vc gran write plain) with
  | some r => .error (conflictTrap s causeConflict gran (some r) write)
  | none =>
    let e := vcGet x.vc a
    if s.records.any (fun r => decide (r.gran = gran) && decide (r.agent = a) && decide (r.epoch = e)
        && decide (r.write = write) && decide (r.plain = plain)) then .ok s
    else if 16384 ≤ s.records.length then .error (conflictTrap s causeConflictCapacity gran none write)
    else .ok { s with records := ⟨gran, a, e, write, plain, x.node, pend, 0, 0⟩ :: s.records }

/-- The check of every granule of a list. -/
def checkGrans (s : State) (a : Nat) (x : Agent) (write plain : Bool) (pend : Option (Nat × Nat)) :
    List Nat → Except Trap State
  | [] => .ok s
  | g :: gs =>
    match checkGran s a x g write plain pend with
    | .error t => .error t
    | .ok s' => checkGrans s' a x write plain pend gs

/-- The granules of `n` bytes from offset `off` of a pool, or from address `off` of memory. -/
def gransOf (mk : Nat → Nat) (off n : Nat) : List Nat :=
  (List.range ((off + n - 1) / 64 - off / 64 + 1)).map fun i => mk ((off / 64 + i) * 64)

/-- The check of a core's access to its own scratchpad (17 R389). -/
def checkOwn (s : State) (tile seq off n : Nat) (write plain : Bool) : Except Trap State :=
  checkGrans s (tileAgentId s tile) (coreAgent s tile) write plain (some (tile, seq)) (gransOf (granPool tile) off n)

/-- A tag of a checked page returns to zero once no record carries it, where the carve-out still holds it (10 R239; 17 R388). -/
def tagZero (s : State) (r : OpenRec) : State :=
  if r.tag = 0 ∨ s.records.any (fun x => decide (x.tag = r.tag)) ∨ memNat s.mem r.tagAt 2 ≠ r.tag then s
  else { s with mem := memPutList s.mem r.tagAt [0, 0] }

/-- Keeps the records that satisfy a test; the tags of the others go with the last record that carries them (17 R388, R390). -/
def keepRecords (s : State) (p : OpenRec → Bool) : State :=
  let gone := s.records.filter fun r => !p r
  gone.foldl tagZero { s with records := s.records.filter p }

/-- The open records of a node are closed (17 R390). -/
def dropRecords (s : State) (node : Nat) : State := keepRecords s fun r => decide (r.node ≠ node)

end Sys2Proof.Machine
end

