-- ==== Sys2Proof/Machine/Memory.lean ====
section
/-! DEFINITION. Device memory, the die caches, the pool and memory codes, page tables, TLBs and walks
(10 R230 to R248; 19 R425 to R430; 18 R420). -/

namespace Sys2Proof.Machine

open Sys2Proof

/-- The home of a device physical address (10 R233). -/
inductive Home where
  | stack (n : Nat)
  | port (n : Nat)
  | none
deriving DecidableEq, Repr

/-- First address of the host window of PCIe port 0 and of port 1 (10 R233). -/
def hostWin (p : Nat) : Nat := 0x200000000000 + p * 0x100000000000

/-- The home of a DPA: a stack's 48 GiB, a host window, or a reserved range (10 R233). -/
def homeOf (pa : Nat) : Home :=
  if pa < 2 ^ 39 then (if pa % 2 ^ 36 < 0xC00000000 then .stack (pa / 2 ^ 36) else .none)
  else if pa < hostWin 0 then .none
  else if pa < hostWin 1 then .port 0
  else if pa < hostWin 2 then .port 1
  else .none

/-- Bytes `pa` to `pa + n − 1` lie in one stack's range. -/
def inHbm (pa n : Nat) : Bool :=
  match homeOf pa, homeOf (pa + n - 1) with
  | .stack a, .stack b => decide (a = b)
  | _, _ => false

/-- The bit of the touched-dies mask that a home sets (18 R420). -/
def homeBit (pa : Nat) : Option Nat :=
  match homeOf pa with
  | .stack n => some (8 + n / 2)
  | .port n => some (8 + 3 * n)
  | .none => none

/-- Sets a bit of an ASID's touched-dies mask (18 R420). -/
def touch (s : State) (asid bit : Nat) : State :=
  let m := mapGet s.touched asid 0
  if natBit m bit then s else { s with touched := mapPut s.touched asid (m + 2 ^ bit) }

/-- The touch of an access to a DPA. -/
def touchPa (s : State) (asid pa : Nat) : State := match homeBit pa with | some b => touch s asid b | none => s

/-- One byte of device or host memory. -/
def devByte (s : State) (pa : Nat) : Byte :=
  match homeOf pa with
  | .stack _ => memGet s.mem pa
  | .port 0 => memGet s.hostMem0 (pa - hostWin 0)
  | .port _ => memGet s.hostMem1 (pa - hostWin 1)
  | .none => 0

/-- `n` bytes of device or host memory. -/
def devBytes (s : State) (pa n : Nat) : List Byte := (List.range n).map fun i => devByte s (pa + i)

/-- `n` bytes as a little-endian number. -/
def devNat (s : State) (pa n : Nat) : Nat := leNat (devBytes s pa n)

/-- Granules wholly inside `n` bytes at `pa`. -/
def wholeGrans (pa n : Nat) : List Nat :=
  let a := ceilDiv pa 64
  (List.range ((pa + n) / 64 - a)).map (a + ·)

/-- The first address of slot `n` of the context save pool (18 R412). -/
def csaSlot (s : State) (n : Nat) : Nat := natBits s.mgmt.csaBase.toNat 23 23 * 2 ^ 23 + n * 0x680000

/-- A write over the snapshot or engine block of a saved context breaks its check word (18 R415). -/
def csaTouch (s : State) (pa n : Nat) : State :=
  if s.saved.isEmpty then s
  else { s with saved := s.saved.map fun x =>
    let a := csaSlot s x.1
    if pa < a + 0x680000 ∧ a + 0x65A000 < pa + n then (x.1, { x.2 with damaged := true }) else x }

/-- The write of bytes to device or host memory: a granule written whole is sound again, a corrected one is re-encoded
(10 R235, 19 R426, R430). -/
def devWrite (s : State) (pa : Nat) (bs : List Byte) : State :=
  match homeOf pa with
  | .stack _ =>
    let n := bs.length
    let w := wholeGrans pa n
    let s := if s.lostGran.isEmpty then s else { s with lostGran := s.lostGran.filter fun g => !w.contains g }
    let s := if s.symErr.isEmpty then s
      else { s with symErr := s.symErr.filter fun e => !(decide (pa / 64 ≤ e.1) && decide (e.1 ≤ (pa + n - 1) / 64)) }
    let s := csaTouch s pa n
    { s with mem := memPutList s.mem pa bs }
  | .port 0 => { s with hostMem0 := memPutList s.hostMem0 (pa - hostWin 0) bs }
  | .port _ => { s with hostMem1 := memPutList s.hostMem1 (pa - hostWin 1) bs }
  | .none => s

/-- A granule of memory that does not decode: more than two wrong symbols (19 R425). -/
def granBad (s : State) (g : Nat) : Bool := decide (2 < (mapGet s.symErr g []).length)

/-- The granules that `n` bytes at `pa` touch. -/
def granList (pa n : Nat) : List Nat := (List.range ((pa + n - 1) / 64 - pa / 64 + 1)).map (pa / 64 + ·)

/-- The stack of an address went with its port die (20 R462). -/
def homeGone (s : State) (pa : Nat) : Bool :=
  match homeOf pa with
  | .stack n => s.portsLost.contains (n / 2)
  | _ => false

/-- What a read of memory meets: a lost granule or stack, or an uncorrectable one (10 R235, 19 R430, 20 R462). -/
def memReadTrap (s : State) (pa n : Nat) : Option Trap :=
  if homeGone s pa then some (trapAt causeLineLost (BitVec.ofNat 64 pa) 0)
  else if s.lostGran.isEmpty && s.symErr.isEmpty then none
  else (granList pa n).findSome? fun g =>
    if s.lostGran.contains g then some (trapAt causeLineLost (BitVec.ofNat 64 pa) 0)
    else if granBad s g then some (trapAt causeUncorrectable (BitVec.ofNat 64 (g * 64)) 0)
    else none

/-- What a write of memory meets: a partial write of a lost or uncorrectable granule is refused (10 R235, 19 R430). -/
def memWriteTrap (s : State) (pa n : Nat) : Option Trap :=
  if homeGone s pa then some (trapAt causeLineLost (BitVec.ofNat 64 pa) 0)
  else if s.lostGran.isEmpty && s.symErr.isEmpty then none
  else
    let w := wholeGrans pa n
    (granList pa n).findSome? fun g =>
      if w.contains g then none
      else if s.lostGran.contains g then some (trapAt causeLineLost (BitVec.ofNat 64 pa) 0)
      else if granBad s g then some (trapAt causeUncorrectable (BitVec.ofNat 64 (g * 64)) 0)
      else none

/-- A frozen frame of some host holds the address (10 R244, R245). -/
def frameFrozen (s : State) (pa : Nat) : Bool :=
  s.hosts.any fun h => h.2.frozen.any fun f =>
    let size := if f.2 = 0 then 2 ^ 16 else if f.2 = 1 then 2 ^ 21 else 2 ^ 30
    decide (f.1 ≤ pa) && decide (pa < f.1 + size)

/-- A line comes into a die's cache of 64 MiB in 16 ways: a full set loses its oldest line, which is written back
(10 R234; DESIGN CHOICE for the set and for the line that goes, log entry 18). -/
def cacheAdd (d : Die) (g : Nat) : Die :=
  let rest := d.cached.filter (· ≠ g)
  let out := (rest.filter fun x => decide (x % 65536 = g % 65536)).drop 15
  if out.isEmpty then { d with cached := g :: rest }
  else { d with cached := g :: rest.filter fun x => !out.contains x, dirty := d.dirty.filter fun x => !out.contains x }

/-- Dirty lines are written back: one found uncorrectable is marked lost at home (10 R235, 19 R430). -/
def wroteBack (s : State) (gs : List Nat) : State :=
  if s.symErr.isEmpty then s
  else
    let bad := gs.filter (granBad s)
    { s with lostGran := s.lostGran ++ bad.filter (fun g => !s.lostGran.contains g),
             symErr := s.symErr.filter fun e => !bad.contains e.1 }

/-- A granule comes into a die's cache; what it pushes out is written back. -/
def cachePut (s : State) (die g : Nat) : State :=
  let d := dieGet s die
  let d1 := cacheAdd d g
  wroteBack (diePut s die d1) (d.dirty.filter fun x => !d1.dirty.contains x)

/-- A granule is brought into a die's cache, unless its frame is frozen (10 R234, R245). -/
def cacheFill (s : State) (die g : Nat) : State :=
  if (dieGet s die).cached.contains g || frameFrozen s (g * 64) then s else cachePut s die g

/-- No die's cache holds the granule any more; the data stands in memory (08 R187, 10 R245). -/
def cacheDrop (s : State) (g : Nat) : State :=
  { s with dies := s.dies.map fun d => (d.1, { d.2 with cached := d.2.cached.filter (· ≠ g), dirty := d.2.dirty.filter (· ≠ g) }) }

/-- A granule is dirty in one die's cache; one of a frozen frame stays in none (10 R234, R245). -/
def cacheDirty (s : State) (die g : Nat) : State :=
  let s := cacheDrop s g
  if frameFrozen s (g * 64) then s
  else
    let s := cachePut s die g
    let d := dieGet s die
    diePut s die { d with dirty := g :: d.dirty }

/-- A segment of a tile's pool. -/
def segGet (t : Tile) (n : Nat) : Seg := mapGet t.segs n segReset

/-- The erasure banks of a segment. -/
def segErasures (g : Seg) : List Nat := [g.er1, g.er2, g.er3].filter (· ≠ 0x3F)

/-- The key of a codeword of the pool. -/
def cwKey (tile line cw : Nat) : Nat := 2 ^ 46 + tile * 2 ^ 23 + line * 4 + cw

/-- Symbol errors that a codeword of the pool may hold and still decode; none when no codeword decodes (19 R427). -/
def segCapacity (g : Seg) (segLine : Nat) : Option Nat :=
  let onSpare := decide (g.spared ≠ 0x3F) && decide (g.spared ≠ 0x24)
  let e := (segErasures g).length + boolNat (onSpare && decide (g.rl ≤ segLine)) + boolNat (decide (5 ≤ g.failed))
  if e = 0 then some 2 else if e ≤ 2 then some 1 else if e = 3 then some 0 else none

/-- The banks of a codeword whose symbol is wrong, erased and spared banks left out. -/
def cwErrors (s : State) (tile line cw : Nat) : List Nat :=
  let g := segGet (tileGet s tile) (line % 8)
  (mapGet s.symErr (cwKey tile line cw) []).filter fun b => !(segErasures g).contains b && decide (b ≠ g.spared)

/-- A codeword of the pool does not decode (19 R426, R427). -/
def cwBad (s : State) (tile line cw : Nat) : Bool :=
  match segCapacity (segGet (tileGet s tile) (line % 8)) (line / 8) with
  | none => true
  | some k => decide (k < (cwErrors s tile line cw).length)

/-- The codewords that `n` bytes at pool offset `off` touch: line and codeword (10 R231). -/
def cwsOf (off n : Nat) : List (Nat × Nat) :=
  ((List.range ((off + n - 1) / 2 - off / 2 + 1)).map fun i =>
    let b := (off / 2 + i) * 2
    (b / 256, b / 2 % 4)).eraseDups

/-- The pool of a tile has no wrong symbol and no failed bank. -/
def poolSound (s : State) (tile : Nat) : Bool :=
  (tileGet s tile).segs.isEmpty && s.symErr.all fun e => decide (e.1 < 2 ^ 46)

/-- The safe voltage of a tile at the point in force, from flash (19 R438). -/
def flashOf (s : State) (tile point : Nat) : FlashEnt :=
  mapGet s.flash (4 * ((dieGet s (dieOf tile)).phys * 32 + tile % 32) + point) ⟨false, false, 0, 0, 0, 0, 0, 0, 0⟩

/-- The day of a tile at a point (01 R21). -/
def pointDay (g : Governor) (point : Nat) : PointDay := mapGet g.days point ⟨0, 0, g.floor, 0, 0⟩

/-- A bundle or a replay is counted for the point in force (19 R438). -/
def dayCount (point bundles replays : Nat) (g : Governor) : Governor :=
  let d := pointDay g point
  { g with days := mapPut g.days point { d with bundles := d.bundles + bundles, replays := d.replays + replays } }

/-- The regulators trim in 2 mV steps (01 R17); a voltage between two steps takes the upper one (DESIGN CHOICE, log
entry 48). -/
def trimUp (mv : Nat) : Nat := (mv + 1) / 2 * 2

/-- The full guard-band voltage of a tile at the point in force, as its regulator gives it (01 R17, 19 R438). -/
def safeOf (s : State) (tile : Nat) : Nat := trimUp (flashOf s tile s.point).safe

/-- An error on this tile is margin-class now (19 R434). -/
def marginNow (s : State) (tile : Nat) : Bool :=
  let g := (tileGet s tile).gov
  decide (g.v < safeOf s tile) || (decide (g.lastBelow ≠ 0) && decide (timeOf s < g.lastBelow + 1000000))

/-- The uncorrectable trap of a codeword of a tile's pool (19 R424, R430). -/
def poolBadTrap (s : State) (tile off : Nat) : Trap :=
  trapAt causeUncorrectable (BitVec.ofNat 64 off) (if marginNow s tile then 0x8000000000000000 else 0)

/-- What a read of a tile's pool meets (19 R430). -/
def poolReadTrap (s : State) (tile off n : Nat) : Option Trap :=
  if poolSound s tile then none
  else ((cwsOf off n).find? fun c => cwBad s tile c.1 c.2).map fun c => poolBadTrap s tile (c.1 * 256 + c.2 * 2)

/-- What a write of a tile's pool meets: it is refused unless it covers the codeword (19 R430). -/
def poolWriteTrap (s : State) (tile off n : Nat) : Option Trap :=
  if poolSound s tile then none
  else ((cwsOf off n).find? fun c => cwBad s tile c.1 c.2 && !(decide (off ≤ c.1 * 256) && decide (c.1 * 256 + 256 ≤ off + n))).map
    fun c => poolBadTrap s tile (c.1 * 256 + c.2 * 2)

/-- A write re-encodes the codewords it touches (19 R426). -/
def poolClean (s : State) (tile off n : Nat) : State :=
  if s.symErr.isEmpty then s
  else
    let l := (cwsOf off n).map fun c => cwKey tile c.1 c.2
    { s with symErr := s.symErr.filter fun e => !l.contains e.1 }

/-- Remembers a codeword found uncorrectable on a tile (19 R430). -/
def noteFound (s : State) (tile off : Nat) : State :=
  let t := tileGet s tile
  tilePut s tile { t with found := t.found ++ [off / 256 * 4 + off / 2 % 4] }

/-- The bytes of a tile's pool as other agents see them. -/
def poolBytes (s : State) (tile off n : Nat) : List Byte := memGetList (tileGet s tile).pool off n

/-- A write to a tile's pool by an agent other than its core. -/
def poolWrite (s : State) (tile off : Nat) (bs : List Byte) : State :=
  let s := poolClean s tile off bs.length
  let t := tileGet s tile
  tilePut s tile { t with pool := memPutList t.pool off bs }

/-- What a walk finds (10 R238). -/
inductive WalkRes where
  | leaf (w bits : Nat)
  | bad (cause : Nat)
  | mig
deriving DecidableEq, Repr

/-- The checks of a leaf entry at a level (10 R237, R238). -/
def leafRes (e bits : Nat) : WalkRes :=
  let frame := natBits e 16 30 * 2 ^ 16
  let home := natBits e 8 4
  let size := 2 ^ bits
  let homeOk := match homeOf frame, homeOf (frame + size - 1) with
    | .stack a, .stack b => decide (a = b) && decide (home = a)
    | .port a, .port b => decide (a = b) && decide (home = 8 + a) && !natBit e 6 && !natBit e 5
    | _, _ => false
  if natBits e 46 18 ≠ 0 ∨ natBits e 12 4 ≠ 0 ∨ frame % size ≠ 0 ∨ !homeOk ∨ (natBit e 3 && !natBit e 2) then .bad causeBadPte
  else if natBit e 7 then .mig
  else .leaf e bits

/-- One level of a walk: index shift in pages, page bits of a leaf, size of the next level's table (10 R236, R237). -/
structure WalkLevel where
  shift : Nat
  idxBits : Nat
  bits : Nat
  leafOk : Bool
  next : Nat
deriving DecidableEq, Repr

/-- The levels from 3 down (10 R236). -/
def walkLevels : List WalkLevel := [⟨23, 13, 39, false, 4096⟩, ⟨14, 9, 30, true, 4096⟩, ⟨5, 9, 21, true, 256⟩, ⟨0, 5, 16, true, 0⟩]

/-- What a table read meets: an uncorrectable error is walk-error, a lost granule line-lost (10 R235, R238). -/
def walkErr (s : State) (pa : Nat) : Option Nat :=
  (memReadTrap s pa 8).map fun x => if x.cause = causeLineLost then causeLineLost else causeWalkError

/-- The levels of a walk from a table on, with the addresses read (10 R238). -/
def walkGo (s : State) (vpn : Nat) : List WalkLevel → Nat → List Nat → WalkRes × List Nat
  | [], _, r => (.bad causeBadPte, r)
  | l :: ls, tbl, r =>
    let pa := tbl + 8 * (vpn / 2 ^ l.shift % 2 ^ l.idxBits)
    let r := r ++ [pa]
    match walkErr s pa with
    | some c => (.bad c, r)
    | none =>
      let e := devNat s pa 8
      if !natBit e 0 then (.bad causeAccessTranslation, r)
      else if natBit e 1 then (if l.leafOk then (leafRes e l.bits, r) else (.bad causeBadPte, r))
      else
        let next := natBits e 8 38 * 256
        if l.next = 0 ∨ natBits e 46 18 ≠ 0 ∨ natBits e 2 6 ≠ 0 ∨ next % l.next ≠ 0 ∨ !inHbm next l.next then (.bad causeBadPte, r)
        else walkGo s vpn ls next r

/-- The walk of a page of an ASID from the ASID table (10 R236, R238); translation off is a missing mapping. -/
def walkTables (s : State) (asid vpn : Nat) : WalkRes × List Nat :=
  let tbl := s.mgmt.asidTbl.toNat
  let pa := natBits tbl 14 32 * 2 ^ 14 + 8 * asid
  if !natBit tbl 0 then (.bad causeAccessTranslation, [])
  else if !inHbm pa 8 then (.bad causeBadPte, [])
  else match walkErr s pa with
  | some c => (.bad c, [pa])
  | none =>
    let e := devNat s pa 8
    let l3 := natBits e 16 30 * 2 ^ 16
    if !natBit e 0 then (.bad causeAccessTranslation, [pa])
    else if natBits e 46 18 ≠ 0 ∨ natBits e 1 15 ≠ 0 ∨ !inHbm l3 65536 then (.bad causeBadPte, [pa])
    else walkGo s vpn walkLevels l3 [pa]

/-- A TLB entry that maps an address (10 R240). -/
def tlbFind (l : List TlbEnt) (asid va : Nat) : Option TlbEnt :=
  l.find? fun e => decide (e.asid = asid) && decide (va / 2 ^ e.bits = e.vpn)

/-- A hit in the first-level or second-level TLB of a tile (10 R240). -/
def xlate (s : State) (tile asid va : Nat) : Option TlbEnt :=
  (tlbFind (coreGet s tile).tlb asid va).or (tlbFind (dieGet s (dieOf tile)).tlb2 asid va)

/-- A first-level TLB with an entry: 256 in 8 ways, by page number; a full set loses its oldest (10 R240; DESIGN CHOICE for the set
and for the entry that goes, log entry 18). -/
def tlbPut (l : List TlbEnt) (e : TlbEnt) : List TlbEnt :=
  let rest := l.filter fun x => !(decide (x.asid = e.asid) && decide (x.vpn = e.vpn) && decide (x.bits = e.bits))
  let out := (rest.filter fun x => decide (x.vpn % 32 = e.vpn % 32)).drop 7
  e :: rest.filter fun x => !out.contains x

/-- The DPA of an address under an entry. -/
def entPa (e : TlbEnt) (va : Nat) : Nat := natBits e.leaf 16 30 * 2 ^ 16 + va % 2 ^ e.bits

/-- A leaf as an access keeps it, with its page bits from bit 64 on. -/
def leafKept (e : TlbEnt) : Nat := e.leaf % 2 ^ 64 + e.bits * 2 ^ 64

/-- Leaf attributes (10 R237). -/
def leafCache (w : Nat) : Bool := natBit w 6
def leafChk (w : Nat) : Bool := natBit w 5
def leafReel (w : Nat) : Bool := natBit w 4
def leafW (w : Nat) : Bool := natBit w 3
def leafR (w : Nat) : Bool := natBit w 2

/-- An access of `n` bytes touches the conflict tags of a checked page (10 R239). -/
def carveHit (e : TlbEnt) (va n : Nat) : Bool :=
  let size := 2 ^ e.bits
  leafChk e.leaf && decide (size - size / 32 ≤ va % size + n - 1)

/-- A mapping lacks the permission that an access needs (08 R175, 10 R239). -/
def permBad (e : TlbEnt) (va n : Nat) (rd wr : Bool) : Bool :=
  (rd && !leafR e.leaf) || (wr && !leafW e.leaf) || carveHit e va n

/-- The carve-out address of the tag of a granule, under a kept leaf (10 R239). -/
def tagPlace (leaf pa : Nat) : Nat :=
  let size := 2 ^ (leaf / 2 ^ 64)
  pa / size * size + size - size / 32 + 2 * (pa % size / 64)

/-- The records of a checked granule follow its tag: they come with a frame that was copied, and a tag of zero has none
(10 R239, R246; 17 R388). -/
def tagSync (s : State) (leaf pa : Nat) : State :=
  if s.records.isEmpty then s
  else
    let p := tagPlace leaf pa
    let t := devNat s p 2
    if t = 0 then { s with records := s.records.filter fun r => decide (r.gran ≠ granMem pa) || decide (r.tag = 0) }
    else { s with records := s.records.map fun r => if r.tag = t then { r with gran := granMem pa, tagAt := p } else r }

/-- A tag that no record carries, from one on. -/
def freeTag (l : List OpenRec) : Nat → Nat → Nat
  | 0, t => t
  | k + 1, t => if l.any fun r => decide (r.tag = t) then freeTag l k (t % 65535 + 1) else t

/-- Every record of a granule carries its tag, which stands at `p` (17 R388). -/
def recTag (s : State) (g p t : Nat) : State :=
  { s with records := s.records.map fun r => if r.gran = g then { r with tag := t, tagAt := p } else r }

/-- The tag of a granule that has come to have a record is written to its carve-out (10 R239; 17 R388; DESIGN CHOICE for its value,
log entry 67). -/
def tagStore (s : State) (leaf pa : Nat) : State :=
  let l := s.records.filter fun r => decide (r.gran = granMem pa)
  if l.all fun r => decide (r.tag ≠ 0) then s
  else
    let p := tagPlace leaf pa
    match l.find? fun r => decide (r.tag ≠ 0) with
    | some r => recTag s (granMem pa) p r.tag
    | none =>
      let t := freeTag s.records 65535 (s.lastTag % 65535 + 1)
      { recTag s (granMem pa) p t with lastTag := t, mem := memPutList s.mem p (leBytes 2 t) }

/-- The conflict check of a granule of a checked page, with its tag (10 R239; 17 R388 to R390). -/
def checkMem (s : State) (a : Nat) (x : Agent) (leaf pa : Nat) (write plain : Bool) (pend : Option (Nat × Nat)) : Except Trap State :=
  match checkGran (tagSync s leaf pa) a x (granMem pa) write plain pend with
  | .error t => .error t
  | .ok s1 => .ok (tagStore s1 leaf pa)

/-- A miss asks the walker of the tile's die, once for each page (10 R241). -/
def askWalk (s : State) (tile asid vpn : Nat) : State :=
  let d := dieGet s (dieOf tile)
  if d.missQ.contains (tile, asid, vpn)
      || d.walks.any (fun w => decide (w.asid = asid) && decide (w.vpn = vpn) && w.tiles.contains tile) then s
  else diePut s (dieOf tile) { d with missQ := d.missQ ++ [(tile, asid, vpn)] }

/-- The key of a walk's fault kept for fetch or an engine. -/
def badKey (asid vpn : Nat) : Nat := asid * 2 ^ 36 + vpn

/-- A walk is wanted for a tile, whose fault is to be kept for it (10 R238, R241). -/
def askFor (s : State) (tile asid vpn : Nat) : State :=
  let t := tileGet s tile
  askWalk (tilePut s tile { t with walkBad := mapPut t.walkBad (badKey asid vpn) 0 }) tile asid vpn

/-- What fetch or an engine finds for an address: an entry, a fault, or nothing yet. -/
inductive Xl where
  | hit (e : TlbEnt)
  | bad (cause : Nat)
  | miss
deriving DecidableEq, Repr

/-- The translation of fetch and engines: a miss is remembered as wanted, and a fault that a walk has left for it is taken
once (10 R238, R240). -/
def xlateWait (s : State) (tile asid va : Nat) : Xl × State :=
  match xlate s tile asid va with
  | some e => (.hit e, s)
  | none =>
    let t := tileGet s tile
    let k := badKey asid (va / 65536)
    match mapGet t.walkBad k 0 with
    | 0 => (.miss, askFor s tile asid (va / 65536))
    | c => (.bad c, tilePut s tile { t with walkBad := mapDel t.walkBad k })

end Sys2Proof.Machine
end

