-- ==== Sys2Proof/Machine/Creel.lean ====
section
/-! DEFINITION. Creels: the record of a bobbin, the 64 hardware entries and the spill area in the context slot
(02 R52, R54, R55; 18 R413). -/

namespace Sys2Proof.Machine

open Sys2Proof

/-- The eight words of a bobbin record (02 R52). -/
def bobbinWords (b : Bobbin) : List Nat :=
  [b.image * 2 ^ 48 + b.pc % 2 ^ 48,
   b.asid * 2 ^ 53 + b.pack * 2 ^ 40 + b.level * 2 ^ 36 + boolNat b.spilled * 2 ^ 34 + boolNat b.root * 2 ^ 33
     + boolNat b.link * 2 ^ 32 + b.join % 2 ^ 32]
    ++ (List.range 6).map fun i => (b.carry.getD i 0).toNat

/-- The bobbin of a record whose word `i` is `w i` (02 R52). -/
def bobbinOf (w : Nat → Nat) : Bobbin :=
  { image := w 0 / 2 ^ 48, pc := w 0 % 2 ^ 48, asid := natBits (w 1) 53 11, pack := natBits (w 1) 40 13,
    level := natBits (w 1) 36 2, spilled := natBit (w 1) 34, root := natBit (w 1) 33, link := natBit (w 1) 32,
    join := natBits (w 1) 0 32, carry := (List.range 6).map fun i => BitVec.ofNat 64 (w (i + 2)) }

/-- The bytes of words of 64 bits. -/
def wordsBytes (l : List Nat) : List Byte := l.flatMap (leBytes 8)

/-- The context slot of a tile's rank (18 R412). -/
def tileSlot (s : State) (tile : Nat) : Option Nat := (tileNode? s tile).bind fun n => n.slots[rank0 (tileGet s tile)]?

/-- What a spilled entry waits for: the reel's full address and the threshold, 0 where it is ready (18 R413). -/
def spillWait (e : CreelEntry) : List Nat :=
  match e.wait with
  | some (.reel addr _ t _ _ _ _) => [addr.toNat, t.toNat]
  | _ => [0, 0]

/-- Record `idx` of the spill area is written, with its wait (02 R55, 18 R413). -/
def spillWrite (s : State) (tile idx : Nat) (e : CreelEntry) : State :=
  match tileSlot s tile with
  | some n =>
    let s := devWrite s (csaSlot s n + 0x600000 + 64 * idx) (wordsBytes (bobbinWords e.bobbin))
    devWrite s (csaSlot s n + 0x640000 + 16 * idx) (wordsBytes (spillWait e))
  | none => s

/-- The bobbin of an entry: one in the spill area is read from its record (02 R55, 18 R413). -/
def entryBobbin (s : State) (tile : Nat) (e : CreelEntry) : Bobbin :=
  match e.area, tileSlot s tile with
  | some idx, some n => bobbinOf fun i => devNat s (csaSlot s n + 0x600000 + 64 * idx + 8 * i) 8
  | _, _ => e.bobbin

/-- The position of the last entry of a creel, nearest its tail, that satisfies a test (02 R55, R56). -/
def lastWhere (p : CreelEntry → Bool) (l : List CreelEntry) : Option Nat := (List.range l.length).foldl (fun r i => match l[i]? with
  | some e => if p e then some i else r
  | none => r) none

/-- Removes the entry at a position. -/
def dropAt {α : Type} (l : List α) (i : Nat) : List α := l.take i ++ l.drop (i + 1)

/-- Entries that stand in the hardware of the creel (02 R55). -/
def creelHard (l : List CreelEntry) : Nat := (l.filter fun e => e.area.isNone).length

/-- The entry that spills: the oldest ready one, or the oldest parked one where none is ready (02 R54, R55). -/
def spillNext (l : List CreelEntry) : Option Nat :=
  (lastWhere (fun e => e.area.isNone && e.wait.isNone) l).or (lastWhere (fun e => e.area.isNone) l)

/-- The lowest record of the spill area that no entry holds. -/
def spillRoom (l : List CreelEntry) : Option Nat :=
  (List.range 4096).find? fun i => !l.any fun e => decide (e.area = some i)

/-- Past 64 hardware entries one spills (02 R54, R55). -/
def creelSpill (s : State) (tile : Nat) : State :=
  let l := (tileGet s tile).creel
  if creelHard l ≤ 64 then s
  else match spillNext l, spillRoom l with
    | some i, some idx =>
      (match l[i]? with
       | some e =>
         let e := { e with bobbin := { e.bobbin with spilled := true }, area := some idx }
         let s := spillWrite s tile idx e
         tilePut s tile { tileGet s tile with creel := l.set i e }
       | none => s)
    | _, _ => s

/-- An entry enters a creel at its head or tail (02 R54, R56). -/
def creelAdd (s : State) (tile : Nat) (head : Bool) (e : CreelEntry) : State :=
  let t := tileGet s tile
  creelSpill (tilePut s tile { t with creel := if head then e :: t.creel else t.creel ++ [e] }) tile

end Sys2Proof.Machine
end

