-- ==== Sys2Proof/Machine/Reels.lean ====
section
/-! DEFINITION. Reels: where they lie, adds with their checks, wait entries and wakes (16 R356 to R376; 08 R176,
R190 to R195), and the synchronisation of the accesses of a tile (17 R379 to R384). -/

namespace Sys2Proof.Machine

open Sys2Proof

/-- The node's tiles: every pack that encloses the tile lies among them (08 R174). -/
def nodeTiles (s : State) (tile : Nat) : List Nat := ((tileNode? s tile).map (·.tiles)).getD []

/-- A reel by where it lies (16 R356). -/
inductive ReelAt where
  | reg (tile k : Nat)
  | mem (pa : Nat)
deriving DecidableEq, Repr

/-- The location key of a reel. -/
def reelLoc : ReelAt → Nat
  | .reg t k => locReel t k
  | .mem pa => locMem pa

/-- The value of a reel as other agents see it. -/
def reelVal (s : State) : ReelAt → Word
  | .reg t k => (reelGet (tileGet s t) k).value
  | .mem pa => BitVec.ofNat 64 (devNat s pa 8)

/-- Stores a reel's value. -/
def reelStore (s : State) (r : ReelAt) (v : Word) : State :=
  match r with
  | .reg t k =>
    let x := tileGet s t
    tilePut s t { x with reels := mapPut x.reels k { reelGet x k with value := v } }
  | .mem pa => devWrite (cacheDrop s (pa / 64)) pa (leBytes 8 v.toNat)

/-- The check of an add on the value it meets (08 R191). -/
def addCheck (s : State) (r : ReelAt) (v : Word) : Option Nat :=
  let new := (reelVal s r).toNat + v.toNat
  if 2 ^ 64 ≤ new then some causeReelOverflow
  else match r with
    | .reg t k =>
      let x := reelGet (tileGet s t) k
      if x.bound && decide ((reelVal s (.reg t x.ceiling)).toNat + x.depth < new) then some causeRingCeiling else none
    | .mem _ => none

/-- The releases of a location whose scope and the reader's scope cover both (17 R381). -/
def acquireInto (s : State) (vc : NMap Nat) (loc : Nat) (sc : Scope) (place : Nat) : NMap Nat :=
  (relsCovered (mapGet s.releases loc []) sc place).foldl (fun v r => vcJoin v r.vc) vc

/-- A release with a given clock on a location (17 R381). -/
def releaseVc (s : State) (vc : NMap Nat) (loc : Nat) (sc : Scope) (place : Nat) : State :=
  relsJoin s loc (some ⟨vc, sc, place, false⟩)

/-- The reach of a reel or location for a tile (08 R178): own, same die, package, host. -/
def reachOf (tile : Nat) : ReelAt → Scope
  | .reg t _ => if t = tile then .tile else if t / 32 = tile / 32 then .die else .pkg
  | .mem pa => match homeOf pa with | .port _ => .sys | _ => .pkg

/-- Removes the first element that satisfies a test. -/
def takeFirst {α : Type} (p : α → Bool) : List α → Option (α × List α)
  | [] => none
  | x :: xs => if p x then some (x, xs) else (takeFirst p xs).map fun r => (r.1, x :: r.2)

/-- A bobbin of a tile becomes ready at the head of its creel (02 R54); with `acq` its wait acquires (08 R192). -/
def readyHead (s : State) (tile : Nat) (e : CreelEntry) (acq : Option (Nat × Scope)) : State :=
  let vc := match acq with | some (loc, sc) => acquireInto s e.vc loc sc tile | none => e.vc
  creelAdd s tile true { e with bobbin := entryBobbin s tile e, wait := none, vc, area := none }

/-- The parked waiter that a wait entry stands for (02 R54). -/
def isWaiter (loc : Nat) (addr t : Word) (listed : Bool) (e : CreelEntry) : Bool :=
  match e.wait with
  | some (.reel a l th _ li _ _) => decide (l = loc) && decide (a = addr) && decide (th = t) && decide (li = listed)
  | _ => false

/-- Wakes the bobbin of a wait entry; with `acq` the reel stands at its threshold. -/
def wakeEnt (s : State) (w : WaitEnt) (acq : Bool) : State :=
  let t := tileGet s w.tile
  match takeFirst (isWaiter w.loc w.addr w.t true) t.creel with
  | none => s
  | some (e, rest) =>
    let sc := match e.wait with | some (.reel _ _ _ sc _ _ _) => sc | _ => .tile
    readyHead (tilePut s w.tile { t with creel := rest }) w.tile e (if acq then some (w.loc, sc) else none)

/-- Room for a wait entry at the holder of a reel (16 R364). -/
def waitRoom (s : State) (r : ReelAt) : Bool :=
  match r with
  | .reg _ _ => decide ((s.waits.filter fun w => decide (w.loc = reelLoc r)).length < 16)
  | .mem pa =>
    match homeOf pa with
    | .stack n => decide ((s.waits.filter fun w => decide (w.loc / 2 ^ 33 = n)).length < 4096)
    | _ => false

/-- The parked polling waiters of a reel: tile, entry, since when (16 R367). -/
def pollers (s : State) (loc : Nat) : List (Nat × CreelEntry × Nat) :=
  s.tiles.flatMap fun x => x.2.creel.filterMap fun e => match e.wait with
    | some (.reel _ l _ _ false since _) => if l = loc then some (x.1, e, since) else none
    | _ => none

/-- The oldest of the parked polling waiters of a reel. -/
def oldestPoller (l : List (Nat × CreelEntry × Nat)) : Option (Nat × CreelEntry × Nat) :=
  l.foldl (fun r x => match r with
    | none => some x
    | some y => if x.2.2 < y.2.2 then some x else some y) none

/-- Offers a freed entry to the oldest parked polling waiter of the reel, which is tested and listed (16 R363, R365). -/
def offerEntry (s : State) (r : ReelAt) : State :=
  match oldestPoller (pollers s (reelLoc r)) with
  | none => s
  | some (tile, e, _) =>
    match e.wait with
    | some (.reel addr loc t sc _ since tested) =>
      let x := tileGet s tile
      match takeFirst (isWaiter loc addr t false) x.creel with
      | none => s
      | some (e, rest) =>
        if t.toNat ≤ (reelVal s r).toNat then
          readyHead (tilePut s tile { x with creel := rest }) tile e (some (loc, sc))
        else
          let s := tilePut s tile { x with creel := x.creel.map fun y => if isWaiter loc addr t false y
              then { y with wait := some (.reel addr loc t sc true since tested) } else y }
          { s with waits := s.waits ++ [⟨loc, tile, addr, t⟩] }
    | _ => s

/-- After an add, kinit or host write the holder wakes every entry whose threshold is met, in order of registration
(16 R365). -/
def wakeReel (s : State) (r : ReelAt) : State :=
  let v := (reelVal s r).toNat
  let hit (w : WaitEnt) : Bool := decide (w.loc = reelLoc r) && decide (w.t.toNat ≤ v)
  let l := s.waits.filter hit
  if l.isEmpty then s
  else
    let s1 := l.foldl (fun s w => wakeEnt s w true) { s with waits := s.waits.filter fun w => !hit w }
    l.foldl (fun s _ => if waitRoom s r then offerEntry s r else s) s1

/-- A host's write to device memory wakes the waiters on the reels that it touches (16 R358, R365). -/
def hostWakes (s : State) (pa n : Nat) : State :=
  let l := (s.waits.map (·.loc)).eraseDups.filter fun l => decide (l < 2 ^ 61) && decide (pa / 8 ≤ l) && decide (l * 8 < pa + n)
  l.foldl (fun s l => wakeReel s (.mem (l * 8))) s

/-- One add to a reel, checked and performed indivisibly, with its wakes (08 R191, 16 R358, R365). -/
def reelAdd (s : State) (r : ReelAt) (v : Word) : Except Nat State :=
  match addCheck s r v with
  | some c => .error c
  | none => .ok (wakeReel (reelStore s r (reelVal s r + v)) r)

/-- A kinit value breaks a binding of the register, or of one whose ceiling it is (08 R195). -/
def initBreaks (t : Tile) (k : Nat) (v : Word) : Bool :=
  let x := reelGet t k
  (x.bound && decide ((reelGet t x.ceiling).value.toNat + x.depth < v.toNat))
    || t.reels.any fun e => e.2.bound && decide (e.2.ceiling = k) && decide (v.toNat + e.2.depth < e.2.value.toNat)

/-- kinit: the reel takes the value, its release sequence ends and satisfied waiters wake (08 R195, 17 R381). -/
def reelInit (s : State) (r : ReelAt) (v : Word) : State := wakeReel (reelStore (endReleases s (reelLoc r)) r v) r

/-- kbind or its removal on a tile's own register, checked against the current values (08 R194). -/
def reelBindTo (s : State) (tile k ceiling : Nat) (depth : Word) : Except Nat State :=
  let t := tileGet s tile
  let x := reelGet t k
  if depth = BitVec.allOnes 64 then
    .ok (tilePut s tile { t with reels := mapPut t.reels k { x with bound := false, ceiling := 0, depth := 0 } })
  else if (reelGet t ceiling).value.toNat + depth.toNat < x.value.toNat then .error causeRingCeiling
  else .ok (tilePut s tile { t with reels := mapPut t.reels k { x with bound := true, ceiling, depth := depth.toNat } })

/-- Registers a waiter with the holder of its reel, or parks it polling where none has room (16 R363, R364, R367). The
holder tests again in the same step: a met threshold makes the bobbin ready at the head of the creel. -/
def parkOn (s : State) (tile : Nat) (e : CreelEntry) (r : ReelAt) (addr t : Word) (sc : Scope) : State :=
  let loc := reelLoc r
  let frozen := match r with | .mem pa => frameFrozen s pa | .reg _ _ => false
  if !frozen && decide (t.toNat ≤ (reelVal s r).toNat) then readyHead s tile e (some (loc, sc))
  else
    let listed := !frozen && waitRoom s r
    let s := creelAdd s tile false { e with wait := some (.reel addr loc t sc listed (timeOf s) (timeOf s)) }
    if listed then { s with waits := s.waits ++ [⟨loc, tile, addr, t⟩] } else s

/-- Every wait entry that waits on a register of this tile is withdrawn with a spurious wake (16 R368). -/
def withdrawWaits (s : State) (tile : Nat) : State :=
  let mine (w : WaitEnt) : Bool := decide (2 ^ 61 + tile * 256 ≤ w.loc) && decide (w.loc < 2 ^ 61 + tile * 256 + 256)
  let l := s.waits.filter mine
  l.foldl (fun s w => wakeEnt s w false) { s with waits := s.waits.filter fun w => !mine w }

/-- The synchronisation of a core's request at its location: it acquires there, and releases what its clock held at its
issue (17 R379, R382). -/
def reqSync (s : State) (tile : Nat) (r : Req) (loc : Nat) (rd wr : Bool) : State :=
  let a := tileAgentId s tile
  let s := if rd then
      (match r.order with
       | .acq | .acqrel => acquire s a (coreAgent s tile) loc r.scope
       | _ => relaxedRead s a (coreAgent s tile) loc)
    else s
  if wr then
    (match r.order with
     | .rel | .acqrel => releaseVc s r.vc loc r.scope tile
     | _ => relaxedWrite s (coreAgent s tile) loc)
  else s

/-- The locations of the words that `n` bytes touch. -/
def locsOf (mk : Nat → Nat) (a n : Nat) : List Nat := (List.range ((a + n - 1) / 8 - a / 8 + 1)).map fun i => mk ((a / 8 + i) * 8)

/-- A plain write ends the release sequences of the words it touches (17 R381). -/
def plainWrite (s : State) (l : List Nat) : State :=
  if s.releases.isEmpty then s else { s with releases := s.releases.filter fun e => !l.contains e.1 }

/-- What a store of a request does to the release sequences of the words it writes (17 R379, R381). -/
def storeSync (s : State) (tile : Nat) (r : Req) (locs : List Nat) : State :=
  if r.order = .rlx then plainWrite s locs
  else storeOver (locs.foldl (fun s l => reqSync s tile r l false true) s) locs (ordRel r.order || (coreAgent s tile).frel.isSome)

end Sys2Proof.Machine
end

