-- ==== Sys2Proof/Machine/Records.lean ====
section
/-! DEFINITION. Fault records, fault rings and their messages (18 R400 to R405). -/

namespace Sys2Proof.Machine

open Sys2Proof

/-- The class of a cause: 0 stop, 1 notice, 2 rejected (18 R400, R401). -/
def recClass (cause : Nat) : Nat := if cause < 0x10 then 2 else if cause < 0x20 then 1 else 0

/-- A fault ring of a host. -/
def ringGet (x : HostBlk) (n : Nat) : FaultRing := mapGet x.fr n frReset

/-- Puts a fault ring back. -/
def ringPut (s : State) (h n : Nat) (r : FaultRing) : State :=
  let x := hostGet s h
  hostPut s h { x with fr := mapPut x.fr n r }

/-- FR_STAT of a ring (18 R403, 20 R449). -/
def ringReg (h n : Nat) : Nat := hostReg h (0x800 + 0x40 * n + 0x20)

/-- Hardware sets bits of a ring's FR_STAT (00 R7). -/
def ringNote (h n bits : Nat) (s : State) : State := noteBits s (ringReg h n) bits

/-- The identifier of no agent (18 R401). -/
def noAgent : Nat := 0xFFFF

/-- The pc of the oldest uncommitted bundle. -/
def corePc (c : Core) : Nat := match c.window with | b :: _ => b.pc | [] => c.pc

/-- Forms a record and hands it to the ring that it is for; the sequence number is filled in when it is written
(18 R401, R404). -/
def postRec (s : State) (host ring node : Nat) (w0 w1 : Nat) (image pc ticks frz : Nat) (x : Trap) : State :=
  let b (n : Nat) : Word := BitVec.ofNat 64 n
  { s with recQ := s.recQ ++ [⟨host, ring, recClass x.cause,
      [b w0, b w1, b (timeOf s), b (image * 2 ^ 48 + pc % 2 ^ 48), x.d0, x.d1, x.d2, x.d3, b ticks, b frz, 0, 0, 0, 0, 0, 0],
      node⟩] }

/-- Word 0 of a record (18 R401). -/
def recWord0 (cause mask agent asid pack tile : Nat) : Nat :=
  cause * 2 ^ 56 + recClass cause * 2 ^ 54 + mask * 2 ^ 48 + agent * 2 ^ 32 + asid * 2 ^ 21 + pack * 2 ^ 8 + tile

/-- A record of a node by an agent of a tile, with the image, pack, ticks and time frozen of its context (18 R401). -/
def nodeRecAs (s : State) (n : Nat) (nd : Node) (tile agent mask pc image pack ticks frz : Nat) (x : Trap) : State :=
  postRec s nd.host (natBits nd.ctl.toNat 32 4) n (recWord0 x.cause mask agent (nodeAsid nd) pack tile)
    (n * 65536 + natBits nd.ctl.toNat 0 11) image pc ticks frz x

/-- The time that a node has been frozen on a tile, a freeze in progress counted (05 R122). -/
def frozenNs (s : State) (t : Tile) : Nat :=
  match t.core.frozen with
  | some f => t.frzNs + (timeOf s - f.since)
  | none => t.frzNs

/-- A record of a node, by an agent on one of its tiles (18 R401). -/
def nodeRec (s : State) (n tile agent mask pc : Nat) (x : Trap) : State :=
  match nodeGet? s n with
  | none => s
  | some nd =>
    let t := tileGet s tile
    let image := match t.running with | some b => b.image | none => mapGet nd.hdr 0x06 0
    nodeRecAs s n nd tile agent mask pc image t.packId t.core.ticks (frozenNs s t) x

/-- An event of R47 by an agent of a tile for a node: a restartable one is demoted, with its notice (02 R47). -/
def demoteNode (s : State) (n tile agent : Nat) : State :=
  match nodeGet? s n with
  | none => s
  | some nd =>
    if nd.restart then
      nodeRec (nodePut s n { nd with restart := false }) n tile agent 0 (corePc (coreGet s tile)) (trapOf causeRestartDemoted)
    else s

/-- An event of R47 on a tile's node (02 R47). -/
def demote (s : State) (tile agent : Nat) : State :=
  match (tileGet s tile).node with
  | none => s
  | some n => demoteNode s n tile agent

/-- A reel add by an agent of a tile for a node: one to a memory reel, or to a register of a tile outside the node's pack, demotes
(02 R47). -/
def demoteAddFor (s : State) (node : Option Nat) (tile agent : Nat) (r : ReelAt) : State :=
  match node with
  | none => s
  | some n =>
    match r with
    | .mem _ => demoteNode s n tile agent
    | .reg t _ => if (((nodeGet? s n).map (·.tiles)).getD []).contains t then s else demoteNode s n tile agent

/-- A reel add by an agent of a tile's node (02 R47). -/
def demoteAdd (s : State) (tile agent : Nat) (r : ReelAt) : State := demoteAddFor s (tileGet s tile).node tile agent r

/-- Bytes `va` to `va + n − 1` lie in an output extent of the node on a tile (02 R46, R47). -/
def inOutputs (s : State) (tile va n : Nat) : Bool :=
  match tileNode? s tile with
  | none => false
  | some nd => nd.outs.any fun e => decide (e.1 ≤ va) && decide (va + n ≤ e.1 + e.2)

/-- A record of a node that concerns no tile, for a ring of its host. -/
def nodeNoteIn (s : State) (n : Nat) (ring : Node → Nat) (x : Trap) : State :=
  match nodeGet? s n with
  | none => s
  | some nd =>
    postRec s nd.host (ring nd) n (recWord0 x.cause 0 noAgent (nodeAsid nd) nd.pack 0)
      (n * 65536 + natBits nd.ctl.toNat 0 11) (mapGet nd.hdr 0x06 0) 0 0 0 x

/-- A record of a node that concerns no tile, for the ring that its control word names (02 R31). -/
def nodeNote (s : State) (n : Nat) (x : Trap) : State := nodeNoteIn s n (fun nd => natBits nd.ctl.toNat 32 4) x

/-- An event that R60 does not list for the state of a node: a record in ring 0 of its host (02 R60). -/
def protocolNote (s : State) (n : Nat) : State := nodeNoteIn s n (fun _ => 0) (trapOf causeDispatcherProtocol)

/-- A notice to a host's fault ring 0 about one of its own writes (02 R41, R60; 12 R283). -/
def hostNote (s : State) (h : Nat) (x : Trap) : State :=
  postRec s h 0 4096 (recWord0 x.cause 0 (identOf 2 h 0) 0 0 0) 0 0 0 0 0 x

/-- A record of a rejected launch record (18 R402): its queue level, head index and address. -/
def rejectRec (s : State) (n : Nat) (nd : Node) (cause : Nat) : State :=
  postRec s nd.host (natBits nd.ctl.toNat 32 4) n (recWord0 cause 0 noAgent (nodeAsid nd) 0 0) (natBits nd.ctl.toNat 0 11)
    0 0 0 0 (trapAt cause (BitVec.ofNat 64 (nd.level * 2 ^ 32 + nd.qIndex)) (BitVec.ofNat 64 nd.recAddr))

/-- A message through an entry of a host's MSI-X table (18 R405, 20 R467). -/
def msixSend (s : State) (h entry : Nat) : State := { s with msix := s.msix ++ [(h, entry)] }

/-- The ring a record goes to now: its own when configured or failed, else ring 0 likewise (18 R404). -/
def recRing (s : State) (r : FaultRec) : Option Nat :=
  let x := hostGet s r.host
  let up (n : Nat) : Bool := (ringGet x n).ctl.getLsbD 8 || (ringGet x n).failed
  if up r.ring then some r.ring else if up 0 then some 0 else none

/-- The number of records a ring holds. -/
def ringSize (r : FaultRing) : Nat := 2 ^ natBits r.ctl.toNat 0 5

/-- Records not yet consumed. -/
def ringUsed (r : FaultRing) : Nat := (r.tail + 2 ^ 32 - r.head) % 2 ^ 32

/-- Host bus address `a` of host `h` as a DPA; past the window it names nothing (10 R233, 20 R450). -/
def hostPa (h a : Nat) : Nat := if a < 2 ^ 44 then hostWin h + a else 2 ^ 46

/-- The place of a ring slot in device or host memory, as a DPA (18 R403, 20 R450). -/
def ringSlot (h : Nat) (r : FaultRing) : Nat :=
  let a := r.base.toNat / 128 * 128 + r.tail % ringSize r * 128
  if r.base.getLsbD 0 then hostPa h a else a

/-- `n` bytes of the part's own write lie in memory that takes it: device memory with no lost granule, or the memory of a
host whose link is up (18 R404, 20 R447). -/
def partWrites (s : State) (pa n : Nat) : Bool :=
  match homeOf pa, homeOf (pa + n - 1) with
  | .stack _, .stack _ => inHbm pa n && !homeGone s pa && !(granList pa n).any fun g => s.lostGran.contains g
  | .port a, .port b => decide (a = b) && (hostGet s a).linkUp
  | _, _ => false

/-- A write by the part itself, performed at .sys (18 R404, 20 R468). -/
def partWrite (s : State) (pa : Nat) (bs : List Byte) : State :=
  let s := (granList pa bs.length).foldl cacheDrop s
  devWrite (plainWrite s (locsOf locMem pa bs.length)) pa bs

/-- What is to become of a record. -/
inductive RecFate where
  | write (ring : Nat)
  | drop (ring : Option Nat)
  | wait
deriving DecidableEq, Repr

/-- The fate of a record now (18 R404). -/
def recFate (s : State) (r : FaultRec) : RecFate :=
  match recRing s r with
  | none => if r.cls = 1 then .drop none else .wait
  | some n =>
    let x := ringGet (hostGet s r.host) n
    if x.failed || decide (ringSize x ≤ ringUsed x) then (if r.cls = 1 then .drop (some n) else .wait) else .write n

/-- Counts a dropped notice (18 R404). -/
def ringLost (s : State) (h n : Nat) : State :=
  let x := ringGet (hostGet s h) n
  if x.lost < 65535 then noteCount (ringPut s h n { x with lost := x.lost + 1 }) (ringReg h n) (2 ^ 16) else s

/-- Messages of a ring: one when none is unacknowledged (18 R405). -/
def ringSignal (s : State) (h n : Nat) : State :=
  let x := ringGet (hostGet s h) n
  if x.ctl.getLsbD 9 && !x.ipend then ringNote h n 1 (ringPut (msixSend s h n) h n { x with ipend := true }) else s

/-- A rejected record has been written: the queue's head advances past it (02 R34, 18 R404). -/
def rejectWritten (s : State) (r : FaultRec) : State :=
  let d0 := (r.words.getD 4 0).toNat
  let x := hostGet s r.host
  let q := mapGet x.lq (natBits d0 32 5) lqReset
  if q.headNode = some r.node then
    hostPut s r.host { x with lq := mapPut x.lq (natBits d0 32 5) { q with head := (q.head + 1) % 2 ^ 32, headNode := none } }
  else s

/-- What every agent of a node knows (17 R383). -/
def nodeClock (s : State) (n : Nat) : NMap Nat :=
  s.agents.foldl (fun v x => if x.2.node = n then vcJoin v x.2.vc else v) []

/-- The location key of record `m` of a host's ring: the host's read of it is ordered after the stop (17 R383). -/
def locRecord (h n m : Nat) : Nat := 2 ^ 63 + (16 * h + n) * 2 ^ 32 + m

/-- The host answers the part's write with an error: at a port that is up a free choice at every write (18 R404; DESIGN CHOICE, log
entry 23). -/
def hostRefuses (s : State) (pa : Nat) : Bool :=
  match homeOf pa with
  | .port _ => Config.freeBool s.free
  | _ => false

/-- Writes a record, or finds that the write fails (18 R404). The record of a stopped node, with its message, carries the
node's clock (17 R383). -/
def recWrite (s : State) (r : FaultRec) (n : Nat) (rest : List FaultRec) : State :=
  let x := ringGet (hostGet s r.host) n
  let pa := ringSlot r.host x
  let ok := partWrites s pa 128 && !hostRefuses s pa
  let s := { s with free := s.free + 1 }
  if ok then
    let words := (List.range 16).map fun i => (r.words.getD i 0).toNat + if i = 1 then x.tail * 2 ^ 32 else 0
    let s := partWrite { s with recQ := rest } pa (words.flatMap (leBytes 8))
    let s := ringPut s r.host n { x with tail := (x.tail + 1) % 2 ^ 32 }
    let s := if r.cls = 2 then rejectWritten s r else s
    let s := if r.cls = 0 ∧ x.ctl.getLsbD 9 then releaseVc s (nodeClock s r.node) (locRecord r.host n x.tail) .sys 0 else s
    ringSignal s r.host n
  else
    let s := ringNote r.host n 8 (ringPut s r.host n { x with ctl := x.ctl &&& ~~~0x100#64, wrerr := true, failed := true })
    if r.cls = 1 then ringLost { s with recQ := rest } r.host n else s

/-- The records that may be dealt with now, with the queue without each: the first of its host and ring, and of a ring that takes none the
first notice, which is dropped while the records before it wait (18 R404). -/
def recReady (s : State) : List FaultRec → List (Nat × Nat) → List FaultRec → List (FaultRec × RecFate × List FaultRec)
  | [], _, _ => []
  | r :: rs, seen, before =>
    let key := (r.host, (recRing s r).getD 16)
    match recFate s r with
    | .wait => recReady s rs seen (before ++ [r])
    | f => (if seen.contains key then [] else [(r, f, before ++ rs)]) ++ recReady s rs (key :: seen) (before ++ [r])

/-- FAULT_RECORD_WRITE (18 R404, R405). -/
def recordWrite (s : State) : State :=
  match pickTurn s (recReady s s.recQ [] []) with
  | none => s
  | some (r, f, rest) =>
    match f with
    | .write n => recWrite s r n rest
    | .drop none => { s with recQ := rest }
    | .drop (some n) => ringLost { s with recQ := rest } r.host n
    | .wait => s

/-- Records of a node that are still held (18 R404, R422). -/
def recHeld (s : State) (n : Nat) : Bool := s.recQ.any fun r => decide (r.node = n)

/-- A host's accesses through its BARs are answered: its link is up, bring-up is over and no alarm has halted the part
(20 R461, R467). -/
def hostCan (s : State) (h : Nat) : Bool := (hostGet s h).linkUp && decide (s.mgmt.bootPhase = 5) && !s.mgmt.halted

/-- A host's write, made when the host's accesses are answered. -/
def hostDoes (h : BitVec 1) (s : State) (f : State → State) : Out := .next (if hostCan s h.toNat then f s else s)

/-- A change of a ring's FR_CTL (18 R403 to R405). -/
def ringCtlWrite (h n : Nat) (v : Word) (s : State) : State :=
  let x := ringGet (hostGet s h) n
  let size := natBits v.toNat 0 5
  let busy := x.ctl.getLsbD 8 && decide (x.head ≠ x.tail)
  if size < 4 ∨ 16 < size ∨ (busy ∧ size ≠ natBits x.ctl.toNat 0 5) then ringNote h n 4 (ringPut s h n { x with ctlerr := true })
  else
    let on := v.getLsbD 9 && !x.ctl.getLsbD 9
    let s := ringPut s h n { x with ctl := v &&& 0x31F#64, failed := x.failed && !v.getLsbD 8 }
    if on && decide (x.head ≠ x.tail) then ringSignal s h n else s

/-- A change of a ring's FR_BASE (18 R403). -/
def ringBaseWrite (h n : Nat) (v : Word) (s : State) : State :=
  let x := ringGet (hostGet s h) n
  let w := v &&& 0xFFFFFFFFFFFFFF81#64
  if x.ctl.getLsbD 8 && decide (x.head ≠ x.tail) && decide (w ≠ x.base) then ringNote h n 4 (ringPut s h n { x with ctlerr := true })
  else ringPut s h n { x with base := w }

/-- The host has read record `m` of a ring: it knows what the stopped node did (17 R383). -/
def recordRead (s : State) (h n m : Nat) : State :=
  match mapGet? s.releases (locRecord h n m) with
  | none => s
  | some _ =>
    let s := acquire s (hostAgentId h) (hostAgent s h) (locRecord h n m) .sys
    { s with releases := mapDel s.releases (locRecord h n m) }

/-- A write of a ring's FR_HEAD (18 R403): the records that it passes have been read. -/
def ringHeadWrite (h n : Nat) (v : Word) (s : State) : State :=
  let x := ringGet (hostGet s h) n
  let head := v.toNat % 2 ^ 32
  if ringSize x < (x.tail + 2 ^ 32 - head) % 2 ^ 32 then ringNote h n 4 (ringPut s h n { x with ctlerr := true })
  else
    let k := (head + 2 ^ 32 - x.head) % 2 ^ 32
    let s := (List.range (min k (ringSize x))).foldl (fun s i => recordRead s h n ((x.head + i) % 2 ^ 32)) s
    ringPut s h n { x with head }

/-- A write of a ring's FR_STAT: wrerr, ctlerr and ipend are cleared by ones; clearing ipend with records pending sends a
further message (18 R403, R405). What hardware has set in this cycle stays set (00 R7; 18 R423). -/
def ringStatWrite (h n : Nat) (v : Word) (s : State) : State :=
  let x := ringGet (hostGet s h) n
  let v := keepSet s (ringReg h n) v
  let clr := v.getLsbD 0 && x.ipend
  let s := ringPut s h n { x with wrerr := x.wrerr && !v.getLsbD 3, ctlerr := x.ctlerr && !v.getLsbD 2, ipend := x.ipend && !v.getLsbD 0 }
  if clr && decide (x.head ≠ x.tail) then ringSignal s h n else s

/-- A fault record is written, held or dropped (18 R404). -/
def execFaultRecordWrite (s : State) : Out := .next (recordWrite s)

/-- A write of FR_CTL (18 R403). -/
def execFrCtlWrite (host : BitVec 1) (ring : BitVec 4) (val : BitVec 64) (s : State) : Out :=
  hostDoes host s (ringCtlWrite host.toNat ring.toNat val)

/-- A write of FR_BASE (18 R403). -/
def execFrBaseWrite (host : BitVec 1) (ring : BitVec 4) (val : BitVec 64) (s : State) : Out :=
  hostDoes host s (ringBaseWrite host.toNat ring.toNat val)

/-- A write of FR_HEAD (18 R403). -/
def execFrHeadWrite (host : BitVec 1) (ring : BitVec 4) (val : BitVec 64) (s : State) : Out :=
  hostDoes host s (ringHeadWrite host.toNat ring.toNat val)

/-- A write of FR_STAT that clears ipend (18 R405). -/
def execFrStatIpendClear (host : BitVec 1) (ring : BitVec 4) (val : BitVec 64) (s : State) : Out :=
  hostDoes host s (ringStatWrite host.toNat ring.toNat (val ||| 1))

end Sys2Proof.Machine
end

