-- ==== Sys2Proof/Machine/EngineBase.lean ====
section
/-! DEFINITION. What every engine shares: its registers, its agents, its accesses to pools and memory, its adds, its
refusals and its faults (04 R90; 11 R253, R254; 12 R280 to R282; 15 R341; 17 R377, R391 to R394). -/

namespace Sys2Proof.Machine

open Sys2Proof

/-- What an act of an engine comes to: it is done, it meets a fault, or it must wait; the wait may want a walk for a tile, an ASID and a
page (10 R240). -/
inductive EngOut (α : Type) where
  | ok (x : α)
  | bad (t : Trap)
  | wait (ask : Option (Nat × Nat × Nat))

/-- Follows one act with another. -/
def engThen {α β : Type} (x : EngOut α) (f : α → EngOut β) : EngOut β :=
  match x with
  | .ok y => f y
  | .bad t => .bad t
  | .wait a => .wait a

/-- The walk that a waiting act wants is asked for (10 R240, R241). -/
def engAsk (s : State) (ask : Option (Nat × Nat × Nat)) : State :=
  match ask with
  | some (tile, asid, vpn) => askFor s tile asid vpn
  | none => s

/-- A fault of an engine with the address that failed, for detail word 2 (18 R402). -/
def engTrap (cause addr : Nat) : Trap := ⟨cause, 0, 0, BitVec.ofNat 64 addr, 0⟩

/-- The full address of a tile's own reel register (08 R176). -/
def ownReelFull (k : Nat) : Nat := 0xC000000000000000 + k

/-- An engine's fault from a memory or pool fault: the address it names. -/
def engTrapOf (t : Trap) : Trap := if t.cause = causeConflict ∨ t.cause = causeConflictCapacity then t else ⟨t.cause, 0, t.d1 &&& 0x8000000000000000#64, t.d0, 0⟩

/-- Wake latency L in ticks of an engine (12 R270). -/
def wakeLat (e : Nat) : Nat := if e < 2 then 576 else 160

/-- The state code of an engine, with another node's standby (12 R272). -/
def engState (t : Tile) (e : Nat) : Nat := if (mapGet? t.standby e).isSome then 5 else (engGet t e).st

/-- The state field of an engine's LEASE register (12 R273, R282). -/
def leaseField (t : Tile) (e : Nat) : Nat :=
  match engState t e with
  | 2 | 3 => if t.core.ticks < (engGet t e).pwTick then 1 else 0
  | 4 => 4
  | 6 => 6
  | 7 => 7
  | _ => 15

/-- Commands of the engine's queue count as accepted and not started; a reservation that has not committed does not
(07 R155; 11 R253). -/
def queuedCount (x : Engine) : Nat := (x.queue.filter (·.ready)).length

/-- A follow-on of a sequencer waits at an array of its tile (11 R264). -/
def followPending (t : Tile) (e : Nat) : Bool :=
  decide (8 ≤ e) && (List.range 2).any fun m => (engGet t m).queue.any fun q => decide (q.cmd.src = .follow) && decide (q.sender = e)

/-- STATUS (11 R253, 12 R281). -/
def statusWord (t : Tile) (e : Nat) : Word :=
  let x := engGet t e
  BitVec.ofNat 64 (x.lastcode * 2 ^ 40 + x.cause * 2 ^ 32 + queuedCount x % 32 * 2 ^ 16 + boolNat (x.waiting || followPending t e) * 4
    + boolNat x.stopped * 2 + boolNat (!x.runs.isEmpty))

/-- WMARK of an array (13 R297). -/
def wmarkWord (t : Tile) (x : Engine) : Word :=
  let a := (mapGet x.regs 5 (rvOf 0)).v.toNat % 256
  let w := if a < 16 * t.partAcc then mapGet t.wmarks a wmarkReset else ⟨0, 0, false, 0⟩
  BitVec.ofNat 64 (boolNat w.wr * 2 ^ 24 + a * 2 ^ 16 + w.ws * 2 ^ 8 + w.wf)

/-- A register of an engine as erd reads it (11 R250, R253, R254; 12 R280 to R282; 13 R293). -/
def engRegRd (t : Tile) (e n : Nat) : Word :=
  let x := engGet t e
  match n with
  | 48 => statusWord t e
  | 49 => progWord x
  | 50 => if e < 8 then x.evreel.v else 0
  | 51 => if e < 8 then BitVec.ofNat 64 (x.gen * 2 ^ 16 + leaseField t e * 2 ^ 8 + e) else 0
  | _ =>
    let open' := match engState t e with | 2 | 3 | 4 | 5 => true | _ => decide (8 ≤ e)
    if !open' then 0
    else if e < 2 ∧ n = 6 then wmarkWord t x
    else (mapGet x.regs n (rvOf 0)).v

/-- An engine is idle (11 R255, 12 R278). -/
def engIdle (x : Engine) : Bool := x.buf.isEmpty && decide (queuedCount x = 0) && x.runs.isEmpty

/-- Records a cause with the command code that set it (11 R253). -/
def setCause (x : Engine) (cause code : Nat) : Engine := { x with cause, lastcode := code }

/-- The identifier of an engine operation of a tile (17 R377). -/
def engIdent (tile e : Nat) : Nat := identOf 1 e tile

/-- Opens the agent of a new engine operation for a node, whose clock holds what happened before its fork (17 R377, R391). -/
def newAgentFor (s : State) (node : Option Nat) (tile e : Nat) (vc : NMap Nat) : State × Nat :=
  let a := 2 ^ 24 + s.nextAgent
  let x : Agent := ⟨engIdent tile e, node.getD 4096, tile, mapPut vc a 1, none, []⟩
  ({ agentPut s a x with nextAgent := s.nextAgent + 1 }, a)

/-- Opens the agent of a new engine operation of a tile's node. -/
def newAgent (s : State) (tile e : Nat) (vc : NMap Nat) : State × Nat := newAgentFor s (tileGet s tile).node tile e vc

/-- An agent by its number. -/
def agentOf (s : State) (a : Nat) : Agent := agentGet s a 0 4096 0

/-- Every write that the forking bundle and its elders made has been performed (17 R391). -/
def forkReady (s : State) (f : Option (Nat × Nat)) : Bool :=
  match f with
  | none => true
  | some (tile, seq) =>
    let c := coreGet s tile
    c.flights.all (fun f => decide (seq < f.seq) || f.effs.all fun e => match e with
        | .cells _ | .nib _ _ _ => false
        | _ => true)
      && c.vec.all (fun v => decide (seq < v.seq) || decide (v.n ≤ v.elem))
      && c.reqs.all (fun r => decide (seq < r.seq) || (match r.kind with
        | .store | .atomic | .kadd | .kinit => decide (r.st = .sent) || decide (r.st = .done)
        | _ => true))

/-- The translation of an engine: a TLB entry if there is one, or the fault that a walk has left for its tile (10 R238, R240). -/
def engXlate (s : State) (tile asid va : Nat) : Xl :=
  match xlate s tile asid va with
  | some e => .hit e
  | none =>
    match mapGet (tileGet s tile).walkBad (badKey asid (va / 65536)) 0 with
    | 0 => .miss
    | c => .bad c

/-- What the tables hold for an address now: for acts of the part that take place in one event, which ask no walk (10 R238). -/
def tableXlate (s : State) (asid va : Nat) : Xl :=
  match (walkTables s asid (va / 65536)).1 with
  | .leaf w bits => .hit ⟨asid, va / 2 ^ bits, bits, w⟩
  | .bad c => .bad c
  | .mig => .miss

/-- One piece of an engine's access: a run of bytes of a pool, or of memory under one leaf. -/
inductive Piece where
  | pool (tile off n : Nat)
  | mem (va pa n leaf : Nat)
deriving DecidableEq, Repr

/-- The pieces of `n` bytes of global memory at `va` under a translation, one for each 64 KiB page, each with the permission it needs
(08 R175, R183; 10 R239, R240). -/
def memPieces (xl : Nat → Xl) (tile asid : Nat) (wr : Bool) : Nat → Nat → Nat → EngOut (List Piece)
  | 0, _, _ => .ok []
  | _ + 1, _, 0 => .ok []
  | fuel + 1, va, n =>
    if 2 ^ 52 ≤ va then .bad (engTrap causeBadAddress va)
    else
      let k := min n (65536 - va % 65536)
      match xl va with
      | .miss => .wait (some (tile, asid, va / 65536))
      | .bad c => .bad (engTrap c va)
      | .hit e =>
        if permBad e va k (!wr) wr then .bad (engTrap causeAccessPermission va)
        else if wr && leafReel e.leaf then .bad (engTrap causeReelPage va)
        else engThen (memPieces xl tile asid wr fuel (va + k) (n - k)) fun l => .ok (.mem va (entPa e va) k (leafKept e) :: l)

/-- The pieces of `n` bytes of global memory. -/
def globalPieces (s : State) (tile asid : Nat) (wr : Bool) (va n : Nat) : EngOut (List Piece) :=
  memPieces (engXlate s tile asid) tile asid wr (n / 65536 + 2) va n

/-- The pieces of `n` bytes of global memory, as the tables map them now. -/
def tablePieces (s : State) (tile asid : Nat) (wr : Bool) (va n : Nat) : EngOut (List Piece) :=
  memPieces (tableXlate s asid) tile asid wr (n / 65536 + 2) va n

/-- The pieces of `n` bytes at offset `off` of the pool that a pool address names (08 R174). -/
def poolPieces (s : State) (tile : Nat) (base : Nat) (off : Int) (n : Nat) : EngOut (List Piece) :=
  let go (t : Nat) : EngOut (List Piece) :=
    if off < 0 ∨ (scratchSize (tileGet s t) : Int) < off + n then .bad (engTrap causeScratchBound (off + (base - natBits base 0 23 : Nat)).toNat)
    else .ok [.pool t off.toNat n]
  match poolPlace base with
  | .ownPool _ => go tile
  | .pool t _ => if (nodeTiles s tile).contains t then go t else .bad (engTrap causeIllegalTarget base)
  | _ => .bad (engTrap causeBadAddress base)

/-- The touched-dies bit of a piece (18 R420). -/
def pieceTouch (s : State) (asid : Nat) : Piece → State
  | .pool t _ _ => touch s asid (dieOf t)
  | .mem _ pa _ _ => touchPa s asid pa

/-- The conflict check of a run of granules of a checked page. -/
def checkMems (s : State) (a : Nat) (x : Agent) (leaf : Nat) (write plain : Bool) : List Nat → Except Trap State
  | [] => .ok s
  | g :: gs =>
    match checkMem s a x leaf (g * 64) write plain none with
    | .error t => .error t
    | .ok s1 => checkMems s1 a x leaf write plain gs

/-- The conflict check of the granules of a piece, where conflicts are detected (17 R388). -/
def checkPiece (s : State) (a : Nat) (x : Agent) (write plain : Bool) : Piece → Except Trap State
  | .pool t off n => checkGrans s a x write plain none (gransOf (granPool t) off n)
  | .mem _ pa n leaf => if leafChk leaf && !leafReel leaf then checkMems s a x leaf write plain (granList pa n) else .ok s

/-- The conflict check of every granule of a list of pieces, by an engine operation (17 R389). -/
def engCheckAs (s : State) (agent : Nat) (wr plain : Bool) : List Piece → EngOut State
  | [] => .ok s
  | p :: ps =>
    match checkPiece s agent (agentOf s agent) wr plain p with
    | .ok s1 => engCheckAs s1 agent wr plain ps
    | .error x => .bad x

/-- The conflict check of plain accesses of an engine operation. -/
def engCheck (s : State) (agent : Nat) (wr : Bool) (l : List Piece) : EngOut State := engCheckAs s agent wr true l

/-- The bytes of a piece, or the fault its reading meets (10 R235, 19 R430). -/
def pieceRead (s : State) : Piece → EngOut (List Byte)
  | .pool t off n =>
    match poolReadTrap s t off n with
    | some x => .bad (engTrapOf x)
    | none => .ok (poolBytes s t off n)
  | .mem _ pa n _ =>
    match memReadTrap s pa n with
    | some x => .bad (engTrapOf x)
    | none =>
      match homeOf pa with
      | .port h => if (hostGet s h).linkUp then .ok (devBytes s pa n) else .bad (engTrap causeLineLost pa)
      | _ => .ok (devBytes s pa n)

/-- The bytes of a list of pieces. -/
def piecesRead (s : State) : List Piece → EngOut (List Byte)
  | [] => .ok []
  | p :: ps => engThen (pieceRead s p) fun b => engThen (piecesRead s ps) fun bs => .ok (b ++ bs)

/-- Writes the bytes of one piece; `fill` lets a cacheable page's granules stay in the die's cache (10 R234). -/
def pieceWrite (s : State) (tile : Nat) (fill : Bool) (p : Piece) (bs : List Byte) : EngOut State :=
  match p with
  | .pool t off n =>
    match poolWriteTrap s t off n with
    | some x => .bad (engTrapOf x)
    | none => .ok (poolWrite (plainWrite s (locsOf (locPool t) off n)) t off bs)
  | .mem _ pa n leaf =>
    match memWriteTrap s pa n with
    | some x => .bad (engTrapOf x)
    | none =>
      if (match homeOf pa with | .port h => !(hostGet s h).linkUp | _ => false) then .bad (engTrap causeLineLost pa)
      else
      let s := (granList pa n).foldl (fun s g => if fill && leafCache leaf then cacheDirty s (dieOf tile) g else cacheDrop s g) s
      .ok (devWrite (plainWrite s (locsOf locMem pa n)) pa bs)

/-- The number of bytes of a piece. -/
def pieceLen : Piece → Nat
  | .pool _ _ n => n
  | .mem _ _ n _ => n

/-- Writes bytes over a list of pieces. -/
def piecesWrite (s : State) (tile : Nat) (fill : Bool) : List Piece → List Byte → EngOut State
  | [], _ => .ok s
  | p :: ps, bs => engThen (pieceWrite s tile fill p (bs.take (pieceLen p))) fun s1 => piecesWrite s1 tile fill ps (bs.drop (pieceLen p))

/-- Where a reel lies that an engine of a tile names by a full address, for a node of ASID `asid`, under a translation (08 R176,
R190; 16 R357). -/
def engReelBy (xl : Nat → Xl) (s : State) (tile asid : Nat) (addr : Word) (wr : Bool) : EngOut ReelAt :=
  let here : Bool := decide (tileAsid s tile = asid)
  match fullPlace addr with
  | .ownReel k => if here then .ok (.reg tile k) else .bad (engTrap causeIllegalTarget addr.toNat)
  | .reel t k =>
    match tileNode? s t with
    | some n => if nodeAsid n = asid then .ok (.reg t k) else .bad (engTrap causeIllegalTarget addr.toNat)
    | none => .bad (engTrap causeIllegalTarget addr.toNat)
  | .mem va =>
    if va % 8 ≠ 0 then .bad (engTrap causeBadAddress va)
    else match xl va with
      | .miss => .wait (some (tile, asid, va / 65536))
      | .bad c => .bad (engTrap c va)
      | .hit e =>
        if !leafReel e.leaf then .bad (engTrap causeReelPage va)
        else if permBad e va 8 true wr then .bad (engTrap causeAccessPermission va)
        else
          let pa := entPa e va
          if frameFrozen s pa then .wait none
          else match memReadTrap s pa 8 with
            | some x => .bad (engTrapOf x)
            | none => .ok (.mem pa)
  | _ => .bad (engTrap causeBadAddress addr.toNat)

/-- Where a reel lies that an engine of the node on a tile names. -/
def engReel (s : State) (tile : Nat) (addr : Word) (wr : Bool) : EngOut ReelAt :=
  engReelBy (engXlate s tile (tileAsid s tile)) s tile (tileAsid s tile) addr wr

/-- The touched-dies bit of a reel (18 R420). -/
def reelTouch (s : State) (asid : Nat) : ReelAt → State
  | .reg t _ => touch s asid (dieOf t)
  | .mem pa => touchPa s asid pa

/-- An add by an agent other than a core for a node and an ASID, with release: checked, then made (08 R191, 16 R359, 17 R381). -/
def addFor (s : State) (node : Option Nat) (asid tile agent : Nat) (r : ReelAt) (v : Word) (sc : Scope) : Except Nat State :=
  match addCheck s r v with
  | some c => .error c
  | none =>
    let x := agentOf s agent
    let s := demoteAddFor (reelTouch s asid r) node tile x.ident r
    reelAdd (release s agent x (reelLoc r) (scopeMax sc (reachOf tile r))) r v

/-- An add by an agent of a tile's node other than its core. -/
def addBy (s : State) (tile agent : Nat) (r : ReelAt) (v : Word) (sc : Scope) : Except Nat State :=
  addFor s (tileGet s tile).node (tileAsid s tile) tile agent r v sc

/-- An engine's completion add to a full address; 0 names no reel (11 R261, 13 R303, 15 R339). -/
def engAdd (s : State) (tile agent : Nat) (addr v : Word) (sc : Scope) : EngOut State :=
  engThen (engReel s tile addr true) fun r =>
    match addBy s tile agent r v sc with
    | .ok s1 => .ok s1
    | .error c => .bad (engTrap c addr.toNat)

/-- FPSTAT with more flags set, in what is committed and in a write that is staged: the flags come after it (06 R138). -/
def orFpstat (s : State) (tile bits : Nat) : State :=
  let c := coreGet s tile
  let or' (x : RV) : RV := rvOf (x.v ||| BitVec.ofNat 64 bits)
  corePut s tile { c with
    regs := mapPut c.regs keyFpstat (or' (mapGet c.regs keyFpstat (rvOf 0))),
    log := c.log.map fun x => match x.eff with
      | .reg k y => if k = keyFpstat then { x with eff := .reg k (or' y) } else x
      | _ => x }

/-- A notice that an engine of a tile gives its node (04 R90, 18 R402). -/
def engNotice (s : State) (tile e cause : Nat) (d0 d1 d2 : Word) : State :=
  match (tileGet s tile).node with
  | some n => nodeRec s n tile (engIdent tile e) 0 (corePc (coreGet s tile)) ⟨cause, d0, d1, d2, 0⟩
  | none => s

/-- An engine refuses a command: it has no effect but the cause and the notice (04 R90, 11 R256, 13 R300, 15 R338). -/
def engRefuse (s : State) (tile e : Nat) (stat cause imm : Nat) : State :=
  let t := tileGet s tile
  let s := tilePut s tile (engPut t e (setCause (engGet t e) stat (imm % 256)))
  engNotice s tile e cause (BitVec.ofNat 64 imm) (BitVec.ofNat 64 e) 0

/-- An engine stops at a run fault; ENGINE_RUN_FAULT then takes it (11 R266, 15 R341). -/
def engStopAt (s : State) (tile e code : Nat) (x : Trap) : State :=
  let t := tileGet s tile
  let g := engGet t e
  tilePut s tile (engPut t e { setCause g 5 code with stopped := true, fault := some x })

/-- The engines of a tile run: its clock runs and nothing holds it (05 R116, R118, R120, 13 R303). -/
def engClock (s : State) (tile : Nat) : Bool :=
  let t := tileGet s tile
  t.node.isSome && !t.halted && t.core.frozen.isNone && !s.clockStop && clockOn t.core

/-- It waits for the end of its power-up (12 R273, R280, R289). -/
def engWakes (t : Tile) (e : Nat) : Bool :=
  let st := engState t e
  decide (e < 8) && (decide (st = 2) || decide (st = 7)) && !(engGet t e).pwDone

/-- An engine may act: its clock runs, it has not stopped, and it is awake. -/
def engOpen (s : State) (tile e : Nat) : Bool :=
  engClock s tile && !(engGet (tileGet s tile) e).stopped && !engWakes (tileGet s tile) e

/-- Rewrites an engine of a tile. -/
def engMap (s : State) (tile e : Nat) (f : Engine → Engine) : State :=
  let t := tileGet s tile
  tilePut s tile (engPut t e (f (engGet t e)))

/-- A region as an engine register names it; it has no companion origin (09 R199, 15 R335). -/
def regionOf (w : Word) : Region :=
  let v := w.toNat
  { base := natBits v 41 23, stride := signedNat 17 (natBits v 24 17), count := natBits v 8 16, fmt := natBits v 4 4,
    rsv := natBit v 3, chk := natBit v 2, orel := natBit v 1, circ := natBit v 0, origin := 0 }

end Sys2Proof.Machine
end

