-- ==== Sys2Proof/Machine/FxBase.lean ====
section
/-! DEFINITION. The fabric engine's command as its registers give it, its ports, and the abort of a command
(20 R453 to R459). -/

namespace Sys2Proof.Machine

open Sys2Proof

/-- A strand port. -/
def strandGet (s : State) (p : Nat) : Strand := mapGet s.strands p strandReset

/-- Puts a strand port back. -/
def strandPut (s : State) (p : Nat) (x : Strand) : State := { s with strands := mapPut s.strands p x }

/-- Sends a message through a port. -/
def strandSend (s : State) (p : Nat) (m : FxMsg) : State :=
  let x := strandGet s p
  strandPut s p { x with tx := x.tx ++ [m] }

/-- A register of a command's set. -/
def cmdReg (c : Cmd) (n : Nat) : Nat := (mapGet c.regs n (rvOf 0)).v.toNat

/-- Fields of PAR (20 R454). -/
def fxTag (c : Cmd) : Nat := natBits (cmdReg c 3) 0 11
def fxScope (c : Cmd) : Scope := scopeOfCode (natBits (cmdReg c 3) 11 3)
def fxFmt (c : Cmd) : Nat := natBits (cmdReg c 3) 14 4
def fxOpc (c : Cmd) : Nat := natBits (cmdReg c 3) 18 2
def fxRoot (c : Cmd) : Nat := natBits (cmdReg c 3) 20 4

/-- Fields of RING (20 R454). -/
def fxPrev (c : Cmd) : Nat := natBits (cmdReg c 4) 0 4
def fxNext (c : Cmd) : Nat := natBits (cmdReg c 4) 4 4
def fxPos (c : Cmd) : Nat := natBits (cmdReg c 4) 8 4
def fxSize (c : Cmd) : Nat := natBits (cmdReg c 4) 12 4

/-- Where a reel lies that an agent outside the tiles names, for an ASID (08 R176, R190; 16 R359, R361). -/
def extReel (s : State) (asid : Nat) (addr : Word) : Except Nat ReelAt :=
  match fullPlace addr with
  | .reel t k =>
    match tileNode? s t with
    | some n => if nodeAsid n = asid then .ok (.reg t k) else .error causeIllegalTarget
    | none => .error causeIllegalTarget
  | .mem va =>
    if va % 8 ≠ 0 then .error causeBadAddress
    else match (walkTables s asid (va / 65536)).1 with
      | .bad c => .error c
      | .mig => .error causeAccessTranslation
      | .leaf w bits =>
        let e : TlbEnt := ⟨asid, va / 2 ^ bits, bits, w⟩
        if !leafReel w then .error causeReelPage
        else if permBad e va 8 true true then .error causeAccessPermission
        else match memReadTrap s (entPa e va) 8 with
          | some x => .error x.cause
          | none => .ok (.mem (entPa e va))
  | _ => .error causeBadAddress

/-- An add by an agent outside the tiles: a release at its scope (16 R359, R361). -/
def extAdd (s : State) (asid a : Nat) (x : Agent) (addr v : Word) (sc : Scope) : Except Nat State :=
  match extReel s asid addr with
  | .error c => .error c
  | .ok r =>
    match addCheck s r v with
    | some c => .error c
    | none => reelAdd (release (reelTouch s asid r) a x (reelLoc r) sc) r v

/-- The add must wait: its page migrates, or its frame is frozen (10 R245, R247). -/
def addWaits (s : State) (asid : Nat) (addr : Word) : Bool :=
  match fullPlace addr with
  | .mem va => (match (walkTables s asid (va / 65536)).1 with
    | .mig => true
    | .leaf w bits => frameFrozen s (entPa ⟨asid, va / 2 ^ bits, bits, w⟩ va)
    | .bad _ => false)
  | _ => false

/-- Puts an act off until its page or frame can take it (10 R245, R247). -/
def owe (s : State) (o : Owed) : State := { s with owed := s.owed ++ [o] }

/-- An add of an engine of a tile for a node, to a full address, made now or owed (10 R245, R247). The cause of one that is not made, or
0. -/
def addOrOwe (s : State) (node : Option Nat) (asid tile agent : Nat) (addr v : Word) (sc : Scope) : State × Nat :=
  match engReelBy (tableXlate s asid) s tile asid addr true with
  | .bad x => (s, x.cause)
  | .wait _ => (owe s ⟨asid, node, tile, 0, agent, addr, v, sc, []⟩, 0)
  | .ok r =>
    match addFor s node asid tile agent r v sc with
    | .ok s1 => (s1, 0)
    | .error c => (s, c)

/-- Writes bytes for an engine of a tile, now or later (10 R247); what cannot be written is not. -/
def writeOrOwe (s : State) (node : Option Nat) (asid tile agent va : Nat) (bs : List Byte) : State :=
  match tablePieces s tile asid true va bs.length with
  | .ok l =>
    (match engCheck s agent true l with
     | .ok s1 =>
       (match piecesWrite s1 tile false l bs with
        | .ok s2 => s2
        | _ => s)
     | _ => s)
  | .wait _ => owe s ⟨asid, node, tile, 0, agent, BitVec.ofNat 64 va, 0, .tile, bs⟩
  | .bad _ => s

/-- The first act of each agent that is owed. -/
def owedHeads : List Owed → List Nat → List Owed
  | [], _ => []
  | o :: l, seen => if seen.contains o.agent then owedHeads l seen else o :: owedHeads l (o.agent :: seen)

/-- What is owed and can be sent now. -/
def owedReady (s : State) : List Owed := (owedHeads s.owed []).filter fun o => !addWaits s o.asid o.addr

/-- An act that was owed is sent: a strand port's add that fails is refused to its sender (20 R457). -/
def owedDo (s : State) (o : Owed) : State :=
  let s := { s with owed := s.owed.erase o }
  if !o.bytes.isEmpty then writeOrOwe s o.node o.asid o.tile o.agent o.addr.toNat o.bytes
  else if o.tile < 256 then (addOrOwe s o.node o.asid o.tile o.agent o.addr o.v o.scope).1
  else match extAdd s o.asid o.agent (agentOf s o.agent) o.addr o.v o.scope with
    | .ok s1 => s1
    | .error c => strandSend s o.port (.refused c)

/-- One act that was owed is sent, if one can be. -/
def owedRun (s : State) : State :=
  match pickTurn s (owedReady s) with
  | some o => owedDo s o
  | none => s

/-- The command code of an engine command. -/
def cmdCode (c : Cmd) : Nat := c.imm % 256

/-- The first chunk that a command moves; only fxsend and fxrecv start past 0 (20 R455). -/
def fxFirst (c : Cmd) : Nat := cmdReg c 10 % 2 ^ 48

/-- The status record of an abort (20 R459). -/
def fxStatus (s : State) (x : Engine) (p cause port : Nat) : List Byte :=
  [cause % 256, p, port + 16 * ((strandGet s port).peer % 4096), timeOf s, (mapGet x.regs 12 (rvOf 0)).v.toNat, 0, 0, 0].flatMap
    (leBytes 8)

/-- Writes the status record where it can be written (20 R458). -/
def fxReport (s : State) (node : Option Nat) (asid tile : Nat) (x : Engine) (r : Run) (cause port : Nat) : State :=
  writeOrOwe s node asid tile r.cmd.agent (cmdReg r.cmd 8) (fxStatus s x r.unit cause port)

/-- Adds 1 to ABORT where the add can be made; 0 names no reel (20 R458). -/
def fxAbortAdd (s : State) (node : Option Nat) (asid tile : Nat) (r : Run) : State :=
  if cmdReg r.cmd 6 = 0 then s
  else if s.owed.any fun o => decide (o.agent = r.cmd.agent) then
    owe s ⟨asid, node, tile, 0, r.cmd.agent, BitVec.ofNat 64 (cmdReg r.cmd 6), 1, fxScope r.cmd, []⟩
  else (addOrOwe s node asid tile r.cmd.agent (BitVec.ofNat 64 (cmdReg r.cmd 6)) 1 (fxScope r.cmd)).1

/-- Sends an abort marker on both ports of a command. -/
def fxMarkers (s : State) (c : Cmd) : State := strandSend (strandSend s (fxPrev c) .marker) (fxNext c) .marker

/-- What an abort leaves of fx0: STATUS, PROG and RES (20 R456, R458). -/
def fxEnded (x : Engine) (r : Run) : Engine :=
  { setCause x 4 (cmdCode r.cmd) with
    runs := [], progNext := r.unit, progSeq := x.progSeq + 1, fault := none, stopped := false, waiting := false,
    regs := mapPut x.regs 11 (rvOf (BitVec.ofNat 64 (r.unit - fxFirst r.cmd))) }

/-- Steps 3 to 5 of an abort: the status record, the add to ABORT, the report (20 R458). -/
def fxAbortEnd (s : State) (tile cause port : Nat) : State :=
  let x := engGet (tileGet s tile) 7
  match x.runs with
  | [] => s
  | r :: _ =>
    let node := (tileGet s tile).node
    let asid := tileAsid s tile
    let s := fxAbortAdd (fxReport s node asid tile x r cause port) node asid tile r
    engMap s tile 7 fun y => fxEnded y r

/-- The abort of the command that runs on fx0 (20 R458). -/
def fxAbort (s : State) (tile cause port : Nat) : State :=
  match (engGet (tileGet s tile) 7).runs with
  | [] => s
  | r :: _ => fxAbortEnd (fxMarkers s r.cmd) tile cause port

end Sys2Proof.Machine
end

