-- ==== Sys2Proof/Machine/ArrayBase.lean ====
section
/-! DEFINITION. The matrix arrays' commands, stages and landings, and the stop of an array (06 R140, R141; 13 R293 to
R311). -/

namespace Sys2Proof.Machine

open Sys2Proof

/-- Fields of CMD (13 R296). -/
def axK (c : Cmd) : Nat := natBits (cmdReg c 2) 0 12
def axFa (c : Cmd) : Fmt := fmtOf (natBits (cmdReg c 2) 21 4)
def axFb (c : Cmd) : Fmt := fmtOf (natBits (cmdReg c 2) 25 4)
def axSa (c : Cmd) : Bool := natBit (cmdReg c 2) 29
def axSb (c : Cmd) : Bool := natBit (cmdReg c 2) 30
def axScope (c : Cmd) : Nat := natBits (cmdReg c 2) 32 3
def axFr (c : Cmd) : Nat := natBits (cmdReg c 2) 37 6
def axFg (c : Cmd) : Nat := natBits (cmdReg c 2) 43 7
def axAcc (c : Cmd) : Nat := natBits (cmdReg c 2) 50 8
def axDp (c : Cmd) : Nat := natBits (cmdReg c 2) 58 6

/-- mma and mmaz (13 R298). -/
def axMul (c : Cmd) : Bool := decide (cmdCode c = 1) || decide (cmdCode c = 2)

/-- A known-answer command (13 R298). -/
def axKat (c : Cmd) : Bool := natBit c.imm 8

/-- Drain on complete (13 R296). -/
def axDoc (c : Cmd) : Bool := axMul c && natBit (cmdReg c 2) 31

/-- A command with a drain (13 R307). -/
def axDrains (c : Cmd) : Bool := axDoc c || decide (cmdCode c = 3)

/-- A writing command (13 R306). -/
def axWrites (c : Cmd) : Bool := decide (cmdCode c ≠ 3)

/-- The k-group and whether scales are allowed, of an operand pair that the array accepts (13 R299). -/
def axPair (fa fb : Fmt) : Option (Nat × Bool) :=
  match fa, fb with
  | .bf16, .bf16 => some (16, false)
  | .f16, .f16 => some (16, false)
  | .i8, .i8 => some (32, false)
  | .e2m1, .e2m1 => some (64, true)
  | .e4m3, .e4m3 | .e4m3, .e5m2 | .e5m2, .e4m3 | .e5m2, .e5m2 => some (32, true)
  | _, _ => none

/-- The k-group of a command. -/
def axGrp (c : Cmd) : Nat := ((axPair (axFa c) (axFb c)).map (·.1)).getD 16

/-- G, the k-groups of a command (13 R299). -/
def axG (c : Cmd) : Nat := axK c / axGrp c

/-- Fields of a ring register (13 R294). -/
def rgFilled (w : Nat) : Nat := natBits w 0 8
def rgReleased (w : Nat) : Nat := natBits w 16 8
def rgConst (w : Nat) : Bool := natBit w 32
def rgUnit (w : Nat) : Bool := natBit w 33
def rgScope (w : Nat) : Nat := natBits w 34 3
def rgDepth (w : Nat) : Nat := natBits w 37 4
def rgBase (w : Nat) : Nat := natBits w 41 23

/-- The ring word, format and scale option of operand A or B. -/
def axRing (c : Cmd) (b : Bool) : Nat := cmdReg c (boolNat b)
def axFmt (c : Cmd) (b : Bool) : Fmt := if b then axFb c else axFa c
def axScaled (c : Cmd) (b : Bool) : Bool := if b then axSb c else axSa c

/-- Y, the slot size (13 R295). -/
def axY (c : Cmd) (b : Bool) : Nat := 64 * axK c * fmtBits (axFmt c b) / 8 + if axScaled c b then axK c / 32 * 64 else 0

/-- Z, the slot stride (13 R295). -/
def axZ (c : Cmd) (b : Bool) : Nat := ceilDiv (axY c b) 256 * 256

/-- U, the reel unit (13 R295). -/
def axU (c : Cmd) (b : Bool) : Nat := if rgUnit (axRing c b) then axY c b else 1

/-- Keys of an array run's progress: next group to read, next group to land, its rows landed; drain state (0 none, 1 in
the drain stage, 2 ended); rows stored; rings released; slots of A and B; compared; the drain's order once its first row
has been read; checksum of the rows stored; pending adds of a dstq and of dsigs; row + 1 whose dstq wait has ended; the buffers of DBC and DTB
hold; steps since the command began; the first step in which its drain may read again (13 R303, R307). -/
def akRead : Nat := 0
def akLand : Nat := 1
def akRow : Nat := 2
def akDrain : Nat := 3
def akStored : Nat := 4
def akRel : Nat := 5
def akSlotA : Nat := 6
def akSlotB : Nat := 7
def akCmp : Nat := 8
def akFirst : Nat := 9
def akSum : Nat := 10
def akPdq : Nat := 11
def akPdsig : Nat := 12
def akDqOk : Nat := 13
def akBuf : Nat := 14
def akClk : Nat := 15
def akRowClk : Nat := 16

/-- A progress value of a run. -/
def ra (r : Run) (k : Nat) : Nat := mapGet r.aux k 0

/-- Sets a progress value of a run. -/
def raSet (r : Run) (k v : Nat) : Run := { r with aux := mapPut r.aux k v }

/-- Rewrites the run of an agent. -/
def runFor (x : Engine) (agent : Nat) (f : Run → Run) : Engine :=
  { x with runs := x.runs.map fun r => if r.cmd.agent = agent then f r else r }

/-- The steps of an array's commands since they began go on by one (13 R303). -/
def arrayStep (t : Tile) (e : Nat) : Tile :=
  let x := engGet t e
  if x.runs.isEmpty || x.stopped || engWakes t e then t
  else engPut t e { x with runs := x.runs.map fun r => if r.phase = 0 then r else raSet r akClk (ra r akClk + 1) }

/-- One step of both arrays of a tile, in a cycle in which its clock runs (13 R303). -/
def arraysStep (s : State) (tile : Nat) : State :=
  if engClock s tile then tilePut s tile (arrayStep (arrayStep (tileGet s tile) 0) 1) else s

/-- The step of a command in which it begins to read group `g`; its compute phase ends in that of group G (13 R303). -/
def grpClk (c : Cmd) (g : Nat) : Nat := 16 * (g - axFg c)

/-- The step in which rows `row` to `row + 3` of group `g` land (13 R303). -/
def landClk (c : Cmd) (g row : Nat) : Nat := grpClk c (g + 1) + 4 + row / 4

/-- Commands of both arrays of a tile, with their array. -/
def mxRuns (t : Tile) : List (Nat × Run) :=
  ((engGet t 0).runs.map fun r => (0, r)) ++ (engGet t 1).runs.map fun r => (1, r)

/-- Pool offset of row `i` of an accumulator tile (10 R230). -/
def accOff (t : Tile) (a i : Nat) : Nat := scratchSize t + 16384 * a + 256 * i

/-- The latest writing command to begin on a tile is this one (13 R306). -/
def mxLatest (t : Tile) (c : Cmd) : Bool :=
  (mxRuns t).all fun x => !(axWrites x.2.cmd && decide (axAcc x.2.cmd = axAcc c) && decide (1 ≤ x.2.phase)
    && decide (c.agent < x.2.cmd.agent))

/-- Rewrites the watermarks of an accumulator tile. -/
def wmarkMap (t : Tile) (a : Nat) (f : Wmark → Wmark) : Tile := { t with wmarks := mapPut t.wmarks a (f (mapGet t.wmarks a wmarkReset)) }

/-- Byte offset of operand A's or B's slot. -/
def axBase (c : Cmd) (r : Run) (b : Bool) : Nat := rgBase (axRing c b) + ra r (if b then akSlotB else akSlotA) * axZ c b

/-- The element at an index of a run of elements at a byte offset, as bits (06 R124). -/
def poolElem (t : Tile) (f : Fmt) (base idx : Nat) : Nat :=
  match fmtBits f with
  | 4 => natBits (memGet t.pool (base + idx / 2)).toNat (4 * (idx % 2)) 4
  | 8 => (memGet t.pool (base + idx)).toNat
  | 16 => memNat t.pool (base + 2 * idx) 2
  | 32 => memNat t.pool (base + 4 * idx) 4
  | _ => memNat t.pool (base + 8 * idx) 8

/-- Element index of A(i, k) or B(k, j) (13 R295). -/
def axIdx (c : Cmd) (b : Bool) (lane k : Nat) : Nat := if b then k * 64 + lane else lane * axK c + k

/-- Byte of the scale of A's row or B's column for block `k / 32`, from the slot's start (13 R295). -/
def axScaleAt (c : Cmd) (b : Bool) (lane k : Nat) : Nat :=
  64 * axK c * fmtBits (axFmt c b) / 8 + if b then k / 32 * 64 + lane else lane * (axK c / 32) + k / 32

/-- An operand element with its block scale, as an exact value (06 R128, 13 R303). -/
def axVal (t : Tile) (c : Cmd) (r : Run) (b : Bool) (lane k : Nat) : Num :=
  let f := axFmt c b
  let base := axBase c r b
  let v := numOf f (poolElem t f base (axIdx c b lane k))
  if axScaled c b then (numMul v (numOf .e8m0 (memGet t.pool (base + axScaleAt c b lane k)).toNat)).1 else v

/-- An exact product summed with the others of its group: special products set apart (06 R141). -/
structure GrpSum where
  sum : Num
  nan : Bool
  nv : Bool
  pos : Bool
  neg : Bool
deriving DecidableEq, Repr

/-- Adds one product to a group sum (06 R140, R141). -/
def grpAdd (g : GrpSum) (a b : Num) : GrpSum :=
  let p := numMul a b
  match p.1 with
  | .nan => { g with nan := true, nv := g.nv || p.2.nv }
  | .inf false => { g with pos := true }
  | .inf true => { g with neg := true }
  | x => { g with sum := (numAdd .rne g.sum x).1 }

/-- A group sum rounded once to FP32, with nv and of (06 R140, R141). -/
def grpRound (g : GrpSum) : Nat × Nat :=
  let both := g.pos && g.neg
  if g.nan || both then (fmtNaN .f32, boolNat (g.nv || (both && !g.nan)))
  else if g.pos then (fmtInf .f32, 0)
  else if g.neg then (fmtSign .f32 true + fmtInf .f32, 0)
  else
    let x := roundTo .f32 ctlRne g.sum
    (x.1, 2 * boolNat x.2.of)

/-- The sum of group `g` for an element, as the 32 bits to add, with its flags (06 R140, R141). -/
def macSum (t : Tile) (c : Cmd) (r : Run) (g i j : Nat) : Nat × Nat :=
  let ks := (List.range (axGrp c)).map (g * axGrp c + ·)
  if axFa c = .i8 then
    (wrapInt 32 ((ks.map fun k => intOf .i8 (poolElem t .i8 (axBase c r false) (axIdx c false i k))
      * intOf .i8 (poolElem t .i8 (axBase c r true) (axIdx c true j k))).foldl (· + ·) 0), 0)
  else grpRound (ks.foldl (fun x k => grpAdd x (axVal t c r false i k) (axVal t c r true j k)) ⟨numZero, false, false, false, false⟩)

/-- A group sum added into an accumulator element (06 R140, R141). -/
def macAdd (int : Bool) (old new : Nat) : Nat × Nat :=
  if int then
    let x := signedNat 32 old + signedNat 32 new
    (wrapInt 32 x, 32 * boolNat (decide (signedNat 32 (wrapInt 32 x) ≠ x)))
  else
    let x := numAdd .rne (numOf .f32 old) (numOf .f32 new)
    let y := roundTo .f32 ctlRne x.1
    (y.1, boolNat x.2.nv + 2 * boolNat y.2.of)

/-- Offset of an element's pending sum in the run's data: a group is read up to two groups before the one that lands. -/
def sumAt (g i j : Nat) : Nat := g % 3 * 16384 + 256 * i + 4 * j

/-- One row of group `g` lands: the new 64 elements and their flags (13 R303). -/
def landRow (t : Tile) (c : Cmd) (r : Run) (g i : Nat) : List Byte × Nat :=
  let off := accOff t (axAcc c) i
  let zero := decide (cmdCode c = 2) && decide (g = 0)
  (List.range 64).foldl (fun (x : List Byte × Nat) j =>
    let old := if zero then 0 else memNat t.pool (off + 4 * j) 4
    let y := macAdd (decide (axFa c = .i8)) old (memNat r.data (sumAt g i j) 4)
    (x.1 ++ leBytes 4 y.1, x.2 ||| y.2)) ([], 0)

/-- The reading of an accumulator row meets an uncorrectable codeword (13 R309, 19 R430). -/
def accTrap (s : State) (tile a i : Nat) : Option Trap := poolReadTrap s tile (accOff (tileGet s tile) a i) 256

/-- The landing of a group cannot begin: an accumulator row that it adds to meets an uncorrectable codeword (13 R303, R309). -/
def landBad (s : State) (tile : Nat) (r : Run) : Option (Nat × Trap) :=
  if ra r akRow ≠ 0 ∨ (cmdCode r.cmd = 2 ∧ ra r akLand = 0) ∨ poolSound s tile then none
  else (List.range 64).findSome? fun i => (accTrap s tile (axAcc r.cmd) i).map fun x => (i, x)

/-- The unit at which a command stands or stops (13 R293, R310). -/
def axUnit (r : Run) : Nat :=
  let c := r.cmd
  if cmdCode c = 3 then ra r akStored
  else if cmdCode c = 4 then r.unit
  else if axDoc c && decide (2 ≤ r.phase) then 256 + ra r akStored
  else ra r akLand

/-- PROG.next reports the older command (13 R293, R310); of a stopped array, the unit at which it stopped. -/
def progSync (x : Engine) : Engine :=
  { x with progNext := if x.stopped then x.progNext else (x.runs.head?.map axUnit).getD x.progNext }

/-- Rewrites the run of an agent on an array of a tile, and PROG with it. -/
def mxRun (s : State) (tile e agent : Nat) (f : Run → Run) : State := engMap s tile e fun x => progSync (runFor x agent f)

/-- The watermarks as rows land: only those of the latest writing command raise them (13 R303, R306). -/
def wmarkLand (t : Tile) (c : Cmd) (row : Nat) : Tile :=
  if mxLatest t c then wmarkMap t (axAcc c) fun w => { w with wf := row + 4, wr := w.wr && decide (row + 4 < 64) } else t

/-- Four rows of the group that lands, with wf after the last group's (13 R303, R306). -/
def landStep (s : State) (tile e : Nat) (r : Run) : State :=
  let c := r.cmd
  let g := ra r akLand
  let row := ra r akRow
  let s1 := (List.range 4).foldl (fun (x : State × Nat) k =>
    let t := tileGet x.1 tile
    let y := landRow t c r g (row + k)
    (poolWrite x.1 tile (accOff t (axAcc c) (row + k)) y.1, x.2 ||| y.2)) (s, 0)
  let t := tileGet s1.1 tile
  let s2 := tilePut s1.1 tile (if g + 1 = axG c then wmarkLand t c row else t)
  mxRun s2 tile e c.agent fun r =>
    let r := { r with flags := r.flags ||| s1.2 }
    if 64 ≤ row + 4 then raSet (raSet r akRow 0) akLand (g + 1) else raSet r akRow (row + 4)

/-- Rows 4j to 4j + 3 of azero (13 R307). -/
def zeroStep (s : State) (tile e : Nat) (r : Run) : State :=
  let c := r.cmd
  let row := r.unit
  let s1 := (List.range 4).foldl (fun s k => poolWrite s tile (accOff (tileGet s tile) (axAcc c) (row + k)) (List.replicate 256 0)) s
  mxRun (tilePut s1 tile (wmarkLand (tileGet s1 tile) c row)) tile e c.agent fun r =>
    { r with unit := row + 4, phase := if 64 ≤ row + 4 then 2 else r.phase }

/-- Every group of the command has landed (13 R303). -/
def axLanded (r : Run) : Bool :=
  if axMul r.cmd then decide (axG r.cmd ≤ ra r akLand) else if cmdCode r.cmd = 4 then decide (64 ≤ r.unit) else true

/-- The accumulation of a group that has been read has begun: rows of it have landed, or the rings are released (13 R303,
R310, R311). -/
def axBegun (r : Run) : Bool :=
  axMul r.cmd && decide (ra r akLand < ra r akRead) && (decide (ra r akRow ≠ 0) || decide (2 ≤ r.phase))

/-- The rows of a group whose accumulation has begun land (13 R309 to R311). -/
def landRest (tile e : Nat) : Nat → State → Nat → State
  | 0, s, _ => s
  | n + 1, s, agent =>
    match (engGet (tileGet s tile) e).runs.find? fun r => decide (r.cmd.agent = agent) with
    | none => s
    | some r => if axBegun r && (landBad s tile r).isNone then landRest tile e n (landStep s tile e r) agent else s

/-- The writers of an array let go of their tiles: wr falls (13 R310). -/
def mxLetGo (t : Tile) (e : Nat) : Tile :=
  (engGet t e).runs.foldl (fun t r =>
    if axWrites r.cmd && decide (1 ≤ r.phase) && mxLatest t r.cmd then wmarkMap t (axAcc r.cmd) fun w => { w with wr := false } else t) t

end Sys2Proof.Machine
end

