-- ==== Sys2Proof/Machine/DrainBase.lean ====
section
/-! DEFINITION. The end of a drain's rows, its faults and restart state, and the stop of an array (13 R309 to R311;
14 R326 to R333). -/

namespace Sys2Proof.Machine

open Sys2Proof

/-- The micro-opcode of a drain word (04 R91). -/
def dnOp (w : Nat) : Nat := natBits w 27 5

/-- The micro-instructions of a command's drain program, up to its first dend (14 R313, R315). -/
def axProg (t : Tile) (c : Cmd) : List Nat := (mapGet t.drains (axDp c) []).takeWhile fun w => decide (dnOp w ≠ 0x13)

/-- A fault of a drain with what RFA reports: side register, column, byte (14 R331). -/
structure DnBad where
  trap : Trap
  reg : Nat
  col : Nat
  off : Nat
deriving DecidableEq, Repr

/-- What one act of a drain comes to. -/
abbrev DnRes (α : Type) := Except DnBad α

/-- A fault of a side region. -/
def dnBad (cause reg col : Nat) (off : Int) : DnBad :=
  ⟨engTrap cause (off % (2 ^ 64 : Int)).toNat, reg, col, (off % (2 ^ 23 : Int)).toNat⟩

/-- A byte of a pool that a side access reads or writes, with its register and column. -/
structure DnUse where
  reg : Nat
  col : Nat
  off : Nat
  n : Nat
deriving DecidableEq, Repr

/-- A list of results, all of them or the first fault. -/
def dnAll {α : Type} : List (DnRes α) → DnRes (List α)
  | [] => .ok []
  | x :: xs =>
    match x, dnAll xs with
    | .error e, _ => .error e
    | .ok _, .error e => .error e
    | .ok a, .ok l => .ok (a :: l)

/-- The program uses a micro-instruction. -/
def dnHas (prog : List Nat) (op : Nat) : Bool := prog.any fun w => decide (dnOp w = op)

/-- Fields of DQ (14 R317). -/
def dqRps (c : Cmd) : Nat := natBits (cmdReg c 30) 34 3
def dqDepth (c : Cmd) : Nat := natBits (cmdReg c 30) 37 4
def dqBase (c : Cmd) : Nat := natBits (cmdReg c 30) 41 23
def dqFilled (c : Cmd) : Nat := natBits (cmdReg c 30) 0 8
def dqReleased (c : Cmd) : Nat := natBits (cmdReg c 30) 16 8

/-- The conflict check of a row's side accesses (14 R329, 17 R389). -/
def dnCheck (s : State) (tile agent : Nat) (wr : Bool) : List DnUse → DnRes State
  | [] => .ok s
  | u :: us =>
    match engCheck s agent wr [.pool tile u.off u.n] with
    | .ok s1 => dnCheck s1 tile agent wr us
    | .bad x => .error ⟨x, u.reg, u.col, u.off⟩
    | .wait _ => .ok s

/-- The kind of a drain's stop in RST (14 R331). -/
def rstKind (cause : Nat) : Nat :=
  if cause = causeDrainRegion then 1 else if cause = causeAlignment then 2 else if cause = causeScratchBound then 3
  else if cause = causeRingCeiling then 4 else if cause = causeReelOverflow then 5 else if cause = causeBadAddress then 6
  else if cause = causeResidue then 7 else if cause = causeUncorrectable then 8 else if cause = causeConflict then 10
  else if cause = causeConflictCapacity then 11 else 12

/-- RST of a stopped drain (14 R331). -/
def rstWord (c : Cmd) (kind cause row : Nat) (pdsig pdq : Bool) : Word :=
  BitVec.ofNat 64 (axDp c * 2 ^ 58 + axAcc c * 2 ^ 50 + kind * 2 ^ 40 + cause % 256 * 2 ^ 10 + boolNat pdsig * 512 + boolNat pdq * 256
    + 128 + row)

/-- A drain stops at a run fault (14 R332). -/
def dnStop (s : State) (tile e : Nat) (r : Run) (row : Nat) (x : Trap) : State :=
  let s1 := engMap s tile e fun y =>
    { y with regs := mapPut y.regs 32 (rvOf (rstWord r.cmd (rstKind x.cause) x.cause row (decide (ra r akPdsig ≠ 0)) (decide (ra r akPdq ≠ 0)))),
             progNext := if cmdCode r.cmd = 3 then row else 256 + row }
  engStopAt s1 tile e (cmdCode r.cmd) x

/-- A drain stops at row `i` with nothing of the row stored (14 R332). -/
def dnFault (s : State) (tile e : Nat) (r : Run) (i : Nat) (b : DnBad) : State :=
  let s1 := engMap s tile e fun x =>
    { runFor x r.cmd.agent (fun r => { r with unit := i, rows := [] }) with
      regs := mapPut x.regs 35 (rvOf (BitVec.ofNat 64 ((b.reg - 16) * 2 ^ 29 + b.col * 2 ^ 23 + b.off))) }
  dnStop s1 tile e r i b.trap

/-- The slot's place of a dstq row (14 R327). -/
def dqPlace (t : Tile) (c : Cmd) (i w : Nat) : Nat :=
  let size := 2 ^ dqRps c * 64 * w
  let slot := (reelGet t (dqFilled c)).value.toNat % (dqDepth c + 1)
  dqBase c + slot * (ceilDiv size 256 * 256) + i % 2 ^ dqRps c * 64 * w

/-- The pieces that a row's stores write, with their bytes (14 R326, R327). -/
def dnWrites (t : Tile) (c : Cmd) (i : Nat) (o : DrainOut) : DnRes (List (DnUse × DrainOut)) :=
  match o with
  | .cells reg col a bs => .ok [(⟨reg, col, a, bs.length⟩, o)]
  | .nib reg col a _ _ => .ok [(⟨reg, col, a, 1⟩, o)]
  | .ring w vals =>
    let a := dqPlace t c i w
    match (List.range 64).find? fun j => decide (scratchSize t < a + (j + 1) * w) with
    | some j => .error (dnBad causeScratchBound 30 j (a + j * w : Nat))
    | none => .ok ((List.range 64).map fun j => (⟨30, j, a + j * w, w⟩, .cells 30 j (a + j * w) (leBytes w (vals.getD j 0))))

/-- Performs one store of a row. -/
def dnPut (tile : Nat) (s : State) (x : DnUse × DrainOut) : DnRes State :=
  let put (off : Nat) (bs : List Byte) : DnRes State :=
    match pieceWrite s tile false (.pool tile off bs.length) bs with
    | .ok s1 => .ok s1
    | .bad y => .error ⟨y, x.1.reg, x.1.col, x.1.off⟩
    | .wait _ => .ok s
  match x.2 with
  | .cells _ _ a bs => put a bs
  | .nib _ _ a hi v => put a [nibSet (memGet (tileGet s tile).pool a) hi v]
  | .ring _ _ => .ok s

/-- Performs every store of a row, or none. -/
def dnPutAll (tile : Nat) : State → List (DnUse × DrainOut) → DnRes State
  | s, [] => .ok s
  | s, x :: xs =>
    match dnPut tile s x with
    | .ok s1 => dnPutAll tile s1 xs
    | .error b => .error b

/-- Row `i` needs its dstq wait (14 R327). -/
def dqWaits (t : Tile) (r : Run) (i : Nat) : Bool :=
  dnHas (axProg t r.cmd) 0x11 && (decide (i = axFr r.cmd) || decide (i % 2 ^ dqRps r.cmd = 0)) && decide (ra r akDqOk ≠ i + 1)

/-- The ring of a dstq has room (14 R327). -/
def dqRoom (t : Tile) (c : Cmd) : Bool :=
  decide ((reelGet t (dqFilled c)).value.toNat ≤ (reelGet t (dqReleased c)).value.toNat + dqDepth c)

/-- The wait of a dstq ends: the test acquires the released reel at .tile (14 R327). -/
def dqGo (s : State) (tile e : Nat) (r : Run) (i : Nat) : State :=
  let s1 := acquire s r.cmd.agent (agentOf s r.cmd.agent) (locReel tile (dqReleased r.cmd)) .tile
  mxRun s1 tile e r.cmd.agent fun r => raSet r akDqOk (i + 1)

/-- Steps 1 and 2 of the end of a row: its stores, then ws, the checksum, the row scale and the adds that it owes (14 R329, R331). -/
def dnRowEnd (s : State) (tile e : Nat) (r : Run) (y : RowOut) : DnRes State :=
  let t := tileGet s tile
  let i := y.row
  match dnAll (y.outs.map (dnWrites t r.cmd i)) with
  | .error b => .error b
  | .ok ll =>
    let l := ll.flatten
    match dnCheck s tile r.cmd.agent true (l.map (·.1)) with
    | .error b => .error b
    | .ok s1 =>
      match dnPutAll tile s1 l with
      | .error b => .error b
      | .ok s2 =>
        let t := tileGet s2 tile
        let s3 := tilePut s2 tile (wmarkMap t (axAcc r.cmd) fun w => if w.drain = ra r akFirst then { w with ws := i + 1 } else w)
        let dq := boolNat (dnHas (axProg t r.cmd) 0x11 && decide ((i + 1) % 2 ^ dqRps r.cmd = 0))
        let ds := (y.sigs.filter fun n => decide ((i + 1) % 2 ^ n = 0)).length
        .ok (engMap s3 tile e fun x =>
          { progSync (runFor x r.cmd.agent fun r =>
              let r := { r with rows := r.rows.drop 1, flags := r.flags ||| y.flags }
              raSet (raSet (raSet (raSet r akStored (i + 1)) akSum y.sum) akPdq dq) akPdsig ds) with
            regs := (match y.mx with
              | some m => mapPut (mapPut x.regs 33 (rvOf (BitVec.ofNat 64 y.sum))) 34 (rvOf (BitVec.ofNat 64 m))
              | none => mapPut x.regs 33 (rvOf (BitVec.ofNat 64 y.sum))) })

/-- The rows that a drain has read above the last one stored are given up (14 R332). -/
def dnDrop (s : State) (tile e agent : Nat) : State := mxRun s tile e agent fun r => { r with unit := ra r akStored, rows := [] }

/-- A reel add that a drain owes, dstq first, then the dsigs; at a stop, one that cannot be made at once is sent later
(14 R329; 10 R247). -/
def dnAdd (halt : Bool) (s : State) (tile e : Nat) (r : Run) : EngOut State :=
  let a := r.cmd.agent
  if ra r akPdq ≠ 0 then
    match addBy s tile a (.reg tile (dqFilled r.cmd)) 1 .tile with
    | .ok s1 => .ok (mxRun s1 tile e a fun r => raSet r akPdq 0)
    | .error k => .bad (engTrap k (ownReelFull (dqFilled r.cmd)))
  else
    let addr := BitVec.ofNat 64 (cmdReg r.cmd 31)
    let sc := scopeOfCode (axScope r.cmd)
    let done : EngOut State := if halt then (match addOrOwe s (tileGet s tile).node (tileAsid s tile) tile a addr 1 sc with
        | (s1, 0) => .ok s1
        | (_, c) => .bad (engTrap c addr.toNat))
      else engAdd s tile a addr 1 sc
    engThen done fun s1 => .ok (mxRun s1 tile e a fun r => raSet r akPdsig (ra r akPdsig - 1))

/-- The run of an agent on an engine of a tile. -/
def runOfAgent (s : State) (tile e agent : Nat) : Option Run := (engGet (tileGet s tile) e).runs.find? fun r => decide (r.cmd.agent = agent)

/-- A drain owes a reel add. -/
def dnOwes (r : Run) : Bool := decide (ra r akPdq ≠ 0) || decide (ra r akPdsig ≠ 0)

/-- The drain has stored its last row and made its adds: the next one is ordered after it (14 R329, 17 R394). -/
def dnOver (s : State) (tile e agent : Nat) : State :=
  engMap s tile e fun x => { runFor x agent (fun r => raSet r akDrain 2) with after := (agentOf s agent).vc }

/-- The reel adds that a drain owes (14 R329, R332). -/
def dnAdds (tile e agent : Nat) : Nat → State → State
  | 0, s => s
  | n + 1, s =>
    match runOfAgent s tile e agent with
    | none => s
    | some r =>
      if dnOwes r then
        match dnAdd false s tile e r with
        | .ok s1 => dnAdds tile e agent n s1
        | .bad x => dnStop (dnDrop s tile e agent) tile e r (ra r akStored) x
        | .wait ask => engAsk s ask
      else if 64 ≤ ra r akStored then dnOver s tile e agent
      else s

/-- The end of a row (14 R329). -/
def dnEndRow (s : State) (tile e : Nat) (r : Run) (y : RowOut) : State :=
  match dnRowEnd s tile e r y with
  | .error b => dnFault s tile e r y.row b
  | .ok s1 => dnAdds tile e r.cmd.agent 20 s1

/-- The rows that a drain has read end, with their adds, as its array stops; a row whose dstq wait goes on, or which meets a fault, and
those above it are given up (13 R310, R311; 14 R333, R334; DEDUCED, log entry 70). -/
def drainRest (tile e agent : Nat) : Nat → State → State
  | 0, s => s
  | n + 1, s =>
    match runOfAgent s tile e agent with
    | none => s
    | some r =>
      if dnOwes r then
        match dnAdd true s tile e r with
        | .ok s1 => drainRest tile e agent n s1
        | _ => dnDrop s tile e agent
      else match r.rows with
        | [] => if 64 ≤ ra r akStored then dnOver s tile e agent else s
        | y :: _ =>
          if dqWaits (tileGet s tile) r y.row && !dqRoom (tileGet s tile) r.cmd then dnDrop s tile e agent
          else
            let s1 := if dqWaits (tileGet s tile) r y.row then dqGo s tile e r y.row else s
            match dnRowEnd s1 tile e ((runOfAgent s1 tile e agent).getD r) y with
            | .ok s2 => drainRest tile e agent n s2
            | .error _ => dnDrop s tile e agent

/-- An array stops at unit boundaries: groups begun complete, the rows that a drain has read end, and PROG.next takes the older
command's unit (13 R310, R311). -/
def mxStop (s : State) (tile e : Nat) : State :=
  let s1 := (engGet (tileGet s tile) e).runs.foldl (fun s r => landRest tile e 16 s r.cmd.agent) s
  let s2 := (engGet (tileGet s1 tile) e).runs.foldl (fun s r =>
    if ra r akDrain = 1 ∧ !(engGet (tileGet s tile) e).stopped then drainRest tile e r.cmd.agent 256 s else s) s1
  engMap s2 tile e progSync

end Sys2Proof.Machine
end

