-- ==== Sys2Proof/Machine/Lease.lean ====
section
/-! DEFINITION. Leases of engines: points, decisions, grants, wakes, releases, gating, standby and evictions
(12 R270 to R292). -/

namespace Sys2Proof.Machine

open Sys2Proof

/-- The points of an engine (12 R270). -/
def leasePts (e : Nat) : Nat := match e with | 0 | 1 | 4 | 7 => 3 | _ => 2

/-- The instances that a request names, by kind or by instance (07 R156, 12 R270). -/
def leaseInsts (inst : Bool) (k : Nat) : List Nat :=
  if inst then (if k < 8 then [k] else []) else if k = 0 then [0, 1] else if 2 ≤ k ∧ k ≤ 7 then [k] else []

/-- A charged state (12 R272). -/
def leaseCharged (st : Nat) : Bool := decide (st ≠ 0) && decide (st ≠ 6)

/-- A state in which the tile holds the engine (12 R274). -/
def leaseHeld (st : Nat) : Bool := decide (st = 2) || decide (st = 3) || decide (st = 4) || decide (st = 7)

/-- H, the points in use (12 R271). -/
def leaseH (t : Tile) : Nat := (((List.range 8).filter fun e => leaseCharged (engState t e)).map leasePts).sum

/-- LEASE_CTL.dis disables the engine (12 R283). -/
def leaseDis (t : Tile) (e : Nat) : Bool := t.leaseCtl.getLsbD (16 + e)

/-- The engines that LEASE_CTL.dis disables, as a mask (12 R283). -/
def disNow (t : Tile) : Nat := natBits t.leaseCtl.toNat 16 8

/-- The instance that a grant takes, of those not disabled at the request: woken, else evicted, else the lowest in the kennel (12 R274,
R283). -/
def leasePick (t : Tile) (dis : Nat) (l : List Nat) : Option Nat :=
  let l := l.filter fun e => !natBit dis e
  (l.find? fun e => decide (engState t e = 1)).or
    ((l.find? fun e => decide (engState t e = 6)).or (l.find? fun e => decide (engState t e = 0)))

/-- The points of a grant fit: a woken instance is claimed without new points (12 R271, R274). -/
def leaseFits (t : Tile) (e : Nat) : Bool :=
  decide (leaseH t + (if engState t e = 1 then 0 else leasePts e) ≤ t.grant)

/-- The instance that the head of the lease queue would be granted (12 R275). -/
def headPick (t : Tile) : Option Nat :=
  match t.leaseQ with
  | [] => none
  | r :: _ => (leasePick t r.dis (leaseInsts r.inst r.k)).filter (leaseFits t)

/-- An engine that an eviction has just freed passes on awake (12 R285, R292): in that cycle or the next one, in which a waiting head
has had its turn. -/
def stillAwake (s : State) (x : Engine) : Bool :=
  decide (x.freed ≠ 0) && decide (x.st ≠ 1) && decide (s.clock < x.freed + 2 * cyclePeriod s)

/-- Starts a power-up (12 R273). -/
def powerUp (t : Tile) (e : Nat) (x : Engine) : Engine := { x with pwTick := t.core.ticks + wakeLat e, pwDone := false }

/-- A grant of an instance; `awake` when the engine passes to the request awake (12 R274 to R276, R285). -/
def leaseGrant (t : Tile) (e : Nat) (noevict awake : Bool) : Tile :=
  let x := engGet t e
  let x := if x.st = 1 then x else if awake then { x with pwTick := 0, pwDone := true } else powerUp t e x
  { engPut t e { x with st := if x.pwDone then 3 else 2, gen := (t.leaseGen + 1) % 2 ^ 32, noevict, ord := t.leaseOrd, idle := 0, freed := 0 } with
    leaseGen := (t.leaseGen + 1) % 2 ^ 32, leaseOrd := t.leaseOrd + 1 }

/-- Puts a request into the lease queue: by priority, then by arrival (12 R275). -/
def leaseInsert (r : LeaseReq) : List LeaseReq → List LeaseReq
  | [] => [r]
  | x :: xs => if x.prio < r.prio then r :: x :: xs else x :: leaseInsert r xs

/-- A request enters the queue unless one for the same kind or instance stands there (12 R274, R275). -/
def leaseEnqueue (t : Tile) (inst : Bool) (k prio now dis : Nat) (noevict : Bool) : Tile :=
  if t.leaseQ.any fun r => decide (r.inst = inst) && decide (r.k = k) then t
  else { t with leaseQ := leaseInsert ⟨inst, k, prio, noevict, now, dis⟩ t.leaseQ }

/-- wake at its commit (12 R277). -/
def wakeApply (t : Tile) (k : Nat) : Tile :=
  let l := leaseInsts false k
  match l.find? fun e => decide (engState t e = 4) with
  | some e => engPut t e { powerUp t e (engGet t e) with st := 2 }
  | none =>
    if l.any fun e => decide (engState t e = 1) then t
    else match l.find? fun e => decide (engState t e = 0) with
      | some e => if leaseFits t e then engPut t e { powerUp t e (engGet t e) with st := 1, idle := 0 } else t
      | none => t

/-- unleash at its commit; `seq` is its bundle (12 R278). -/
def unleashApply (t : Tile) (e seq : Nat) : Tile :=
  let x := engGet t e
  if x.st = 6 then engPut t e { x with st := 0 }
  else if x.st = 2 ∨ x.st = 3 ∨ x.st = 4 then engPut t e { x with
    st := 7, relSeq := seq, relIds := (x.queue.filter fun q => q.ready && decide (q.cmd.src = .block)).map (·.id) }
  else t

/-- What a decision of status 2 keeps as its engine: the request stands in the queue, or enters it with this mask of disabled engines
(12 R274). -/
def decQueued : Nat := 15
def decEnters (dis : Nat) : Nat := 16 + dis

/-- The effect on the lease records of an operation's commit: an engine that is not woken at a grant of status 0 has been taken from a
standby lease by force, and passes on awake (12 R274, R277, R278, R285). -/
def leaseAct (t : Tile) (prio now seq : Nat) : CommitAct → Tile
  | .lease inst k _ noevict _ _ status eng =>
    if status ≤ 1 then leaseGrant t eng noevict (decide (status = 0))
    else if status = 2 ∧ 16 ≤ eng then leaseEnqueue t inst k prio now (eng - 16) noevict
    else t
  | .wake k => wakeApply t k
  | .unleash e => unleashApply t e seq
  | _ => t

/-- The priority of the node on a tile. -/
def tilePrio (s : State) (tile : Nat) : Nat := ((tileNode? s tile).map nodePrio).getD 0

/-- The tile's records as the pending lease operations of older bundles will leave them (12 R274). -/
def leaseView (s : State) (tile seq : Nat) : Tile :=
  let t := tileGet s tile
  (t.core.window.filter fun b => decide (b.seq < seq)).foldl (fun t b =>
    b.acts.foldl (fun t a => leaseAct t (tilePrio s tile) (timeOf s) b.seq a.2) t) t

/-- A lease decision: status, instance (15 for none) and the standby leases evicted for it (12 R274). -/
structure LeaseDec where
  status : Nat
  eng : Nat
  evicted : List Nat
deriving DecidableEq, Repr

/-- Standby leases that force may take: four levels lower, and not noevict (12 R284). -/
def forceable (s : State) (tile : Nat) : List Nat :=
  let t := tileGet s tile
  let right := ((tileNode? s tile).map fun n => n.ctl.getLsbD 37).getD false
  if !right then []
  else t.standby.filterMap fun x =>
    let p := ((nodeGet? s x.2.node).map nodePrio).getD 0
    if !x.2.noevict && decide (p + 4 ≤ tilePrio s tile) then some x.1 else none

/-- The records with the first standby leases of a list ended. -/
def dropStandby (t : Tile) (l : List Nat) : Tile := { t with standby := t.standby.filter fun x => !l.contains x.1 }

/-- The status of a grant at the tick of its decision (12 R273, R274, R292). -/
def grantStatus (s : State) (t : Tile) (e : Nat) : Nat :=
  let x := engGet t e
  if (x.st = 1 ∧ x.pwTick ≤ t.core.ticks) ∨ stillAwake s x then 0 else 1

/-- The shortest run of standby leases whose end lets the request be granted, with the instance (12 R274). -/
def forceFind (t : Tile) (insts l : List Nat) : Option (Nat × List Nat) :=
  (List.range l.length).findSome? fun n =>
    let out := l.take (n + 1)
    let t' := dropStandby t out
    match leasePick t' (disNow t) insts with
    | some e => if leaseFits t' e then some (e, out) else none
    | none => none

/-- The decision of lease and leasew on a tile's records (12 R274). -/
def leaseDecide (s : State) (tile : Nat) (t : Tile) (inst : Bool) (k : Nat) (force : Bool) : LeaseDec :=
  let l := leaseInsts inst k
  let deny : LeaseDec := if t.leaseQ.length < 8 then ⟨2, decEnters (disNow t), []⟩ else ⟨4, 15, []⟩
  if l.all (leaseDis t) then ⟨4, 15, []⟩
  else if l.all fun e => leaseHeld (engState t e) then ⟨3, l.headD 15, []⟩
  else if t.leaseQ.any fun r => decide (r.inst = inst) && decide (r.k = k) then ⟨2, decQueued, []⟩
  else if !t.leaseQ.isEmpty then deny
  else match (leasePick t (disNow t) l).filter (leaseFits t) with
    | some e => ⟨grantStatus s t e, e, []⟩
    | none =>
      if force then
        (match forceFind t l (forceable s tile) with
         | some (e, out) => ⟨if out.contains e then 0 else grantStatus s (dropStandby t out) e, e, out⟩
         | none => deny)
      else deny

/-- The handle word (07 R156). -/
def leaseHandle (gen status eng : Nat) : Word := BitVec.ofNat 64 (gen * 2 ^ 16 + status * 2 ^ 8 + eng)

/-- The handle that a decision returns: the generation is that of the grant, or of the record held (12 R274, R276). -/
def decHandle (t : Tile) (d : LeaseDec) : Word :=
  let gen := if d.status ≤ 1 then (t.leaseGen + 1) % 2 ^ 32 else if d.status = 3 then (engGet t d.eng).gen else 0
  leaseHandle gen d.status (if d.status = 2 then 15 else d.eng)

/-- Registers 0 to 47 that an engine keeps when its state is lost (12 R285): WSEL and KSTAT of an array, RES, and ROUND. -/
def keptRegs (e : Nat) : List Nat := if e < 2 then [5, 7] else if e = 7 then [11, 12] else [11]

/-- An engine without its internal state and shadow set (12 R285). -/
def engDropped (e : Nat) (x : Engine) : Engine :=
  let kept := x.regs.filter fun r => (keptRegs e).contains r.1
  { x with regs := kept.foldl (fun m r => mapPut m r.1 r.2) (engineReset e).regs, buf := [], queue := x.queue.filter (!·.ready), runs := [], after := [],
           fault := none, waiting := false, stopped := false, idle := 0 }

/-- The engine enters the kennel. -/
def engKennel (e : Nat) (x : Engine) : Engine := { engDropped e x with st := 0, pwTick := 0, pwDone := true }

/-- The add to EVREEL for a node, with release at its reach: the cause of one that failed, or 0 (12 R285). -/
def evictAdd (s : State) (node : Option Nat) (tile asid : Nat) (vc : NMap Nat) (e : Nat) (addr : Word) : State × Nat :=
  if addr = 0 then (s, 0)
  else
    let (s1, a) := newAgentFor s node tile e vc
    let r := addOrOwe s1 node asid tile a addr 1 .tile
    if r.2 = 0 then r else (s, r.2)

/-- The detail of the report of an eviction: p, the trigger, and the cause of a failed add (12 R285, 18 R402). -/
def evictTrap (p trigger cause : Nat) : Trap :=
  ⟨causeEngineEvicted, BitVec.ofNat 64 p, BitVec.ofNat 64 trigger, BitVec.ofNat 64 cause, 0⟩

/-- The report of an eviction to the node on a tile (12 R285). -/
def evictNote (s : State) (n tile e p trigger cause : Nat) : State :=
  nodeRec s n tile (engIdent tile e) 0 (corePc (coreGet s tile)) (evictTrap p trigger cause)

/-- The report of the eviction of a standby lease, with the place at which its pack was saved (12 R285, R288; 18 R401). -/
def standbyNote (s : State) (b : Standby) (tile e p trigger cause : Nat) : State :=
  match nodeGet? s b.node, mapGet? s.saved b.slot with
  | some nd, some x =>
    nodeRecAs s b.node nd tile (engIdent tile e) 0 (corePc x.core) (mapGet nd.hdr 0x06 0) x.pack.id x.core.ticks
      (devNat s (csaSlot s b.slot + 0x659390) 8) (evictTrap p trigger cause)
  | _, _ => nodeRec s b.node tile (engIdent tile e) 0 0 (evictTrap p trigger cause)

/-- The clock of an engine's running command. -/
def runVc (s : State) (x : Engine) : NMap Nat := match x.runs with | r :: _ => (agentOf s r.cmd.agent).vc | [] => []

/-- A queue head that waits would take this engine (12 R278, R285). -/
def leasePass (s : State) (tile e : Nat) : Bool := decide (headPick (tileGet s tile) = some e)

/-- The bobbins parked at leasew on a granted entry become ready with the handle (12 R275). -/
def leaseReady (s : State) (tile : Nat) (inst : Bool) (k : Nat) (h : Word) : State :=
  let t := tileGet s tile
  let mine (e : CreelEntry) : Option Nat := match e.wait with
    | some (.lease i j p) => if i = inst ∧ j = k then some p else none
    | _ => none
  let up := t.creel.filterMap fun e => (mine e).map fun p =>
    { e with bobbin := entryBobbin s tile e, wait := none, handle := some (h, p), area := none }
  up.foldl (fun s _ => creelSpill s tile) (tilePut s tile { t with creel := up ++ t.creel.filter fun e => (mine e).isNone })

/-- The grant of the head of the lease queue (12 R275). -/
def leaseHeadGrant (s : State) (tile : Nat) (awake : Bool) : State :=
  let t := tileGet s tile
  match t.leaseQ, headPick t with
  | r :: rest, some e =>
    let awake := awake || stillAwake s (engGet t e)
    let status := if awake then 0 else grantStatus s t e
    let rest := match rest with | [] => [] | x :: xs => { x with since := timeOf s } :: xs
    let t1 := leaseGrant { t with leaseQ := rest } e r.noevict awake
    leaseReady (tilePut s tile t1) tile r.inst r.k (leaseHandle t1.leaseGen status e)
  | _, _ => s

/-- The eviction of the standby lease of an engine; the engine's state stays in its pack's context (12 R285, R288, R289). A command of
fx0 in the middle is aborted, and is over in the context too (20 R460). -/
def evictStandby (s : State) (tile e trigger : Nat) (b : Standby) : State :=
  let t := tileGet s tile
  let x := (((mapGet? s.saved b.slot).map (·.engines)).bind fun m => mapGet? m e).getD (engineReset e)
  let asid := ((nodeGet? s b.node).map nodeAsid).getD 0
  let s1 := tilePut s tile { t with standby := mapDel t.standby e }
  let s2 := if e = 7 then (match x.runs with
      | r :: _ =>
        let s2 := fxAbortAdd (fxReport (fxMarkers s1 r.cmd) (some b.node) asid tile x r 5 (fxPrev r.cmd)) (some b.node) asid tile r
        { s2 with saved := s2.saved.map fun y =>
            if y.1 = b.slot then (y.1, { y.2 with engines := mapPut y.2.engines 7 (fxEnded x r) }) else y }
      | [] => s1)
    else s1
  let (s3, c) := evictAdd s2 (some b.node) tile asid (runVc s x) e x.evreel.v
  standbyNote s3 b tile e x.progNext trigger c

/-- The eviction of an engine that the node on a tile holds (12 R285, R286). -/
def evictHeld (s : State) (tile e trigger : Nat) : State :=
  let t := tileGet s tile
  let s := if e < 2 then (let s1 := mxStop s tile e; tilePut s1 tile (mxLetGo (tileGet s1 tile) e)) else s
  let s := if e = 7 then fxAbort s tile 5 (match (engGet t 7).runs with | r :: _ => fxPrev r.cmd | [] => 0) else s
  let x := engGet (tileGet s tile) e
  let code := match x.runs with | r :: _ => cmdCode r.cmd | [] => x.lastcode
  let fx := decide (e = 7) && !(engGet t 7).runs.isEmpty
  let s1 := engMap s tile e fun y =>
    { engDropped e (setCause y 6 code) with
      progSeq := y.progSeq + (if fx then 0 else 1), st := if y.st = 7 then 0 else 6, pwTick := 0, pwDone := true }
  let (s2, c) := evictAdd s1 t.node tile (tileAsid s tile) (runVc s x) e x.evreel.v
  match t.node with
  | some n => evictNote s2 n tile e x.progNext trigger c
  | none => s2

/-- The eviction of an engine (12 R285): trigger 0 force, 1 governor, 2 host, 3 restoration without grant. For a moment it passes on
awake. -/
def evict (s : State) (tile e trigger : Nat) : State :=
  let t := tileGet s tile
  let free (s : State) : State := engMap s tile e fun x => { x with freed := s.clock + 1 }
  match mapGet? t.standby e with
  | some b => free (evictStandby s tile e trigger b)
  | none =>
    if (engGet t e).st = 1 then engMap s tile e (engKennel e)
    else if leaseHeld (engGet t e).st then free (evictHeld s tile e trigger)
    else s

/-- The order in which a governor emergency evicts (12 R284). -/
def emergencyOrder (t : Tile) : List Nat :=
  let all := List.range 8
  let by' (p : Nat → Bool) : List Nat := all.filter p
  let latest (l : List Nat) : Option Nat := l.foldl (fun r e => match r with
    | none => some e
    | some f => if (engGet t f).ord < (engGet t e).ord then some e else some f) none
  by' (fun e => decide (engState t e = 1)) ++ by' (fun e => decide (engState t e = 5))
    ++ by' (fun e => decide (engState t e = 4))
    ++ (latest (by' fun e => decide (engState t e = 2) || decide (engState t e = 3) || decide (engState t e = 7))).toList

/-- Evictions of an emergency, until H is at most G (12 R284). -/
def emergencyEvict (tile : Nat) : Nat → State → State
  | 0, s => s
  | n + 1, s =>
    let t := tileGet s tile
    if leaseH t ≤ t.grant then s
    else match (emergencyOrder t).head? with
      | some e => emergencyEvict tile n (evict s tile e 1)
      | none => s

/-- Releases every lease and clears every record of the node on a tile (12 R290). -/
def leaseEnd (s : State) (tile : Nat) : State :=
  let t := tileGet s tile
  tilePut s tile { t with engines := [], leaseQ := [], leaseGen := 0, leaseOrd := 0 }

/-- The idle count of a tile in ticks; 0 is never (12 R279, R283). -/
def leaseIdle (t : Tile) : Nat := natBits t.leaseCtl.toNat 0 16

/-- One tick of the idle counts (12 R279): arrays leased awake, and woken engines. -/
def idleTick (t : Tile) : Tile :=
  (List.range 8).foldl (fun t e =>
    let x := engGet t e
    let counts := decide (x.st = 1) || (decide (e < 2) && decide (x.st = 3))
    if counts && (decide (x.st = 1) || engIdle x) then engPut t e { x with idle := x.idle + 1 }
    else if x.idle = 0 then t else engPut t e { x with idle := 0 }) t

/-- A tile's engines may change state: a node is there and nothing holds the tile (12 R279). -/
def leaseRuns (s : State) (tile : Nat) : Bool :=
  let t := tileGet s tile
  t.node.isSome && !t.halted && !s.clockStop

/-- A tick of the tile has just passed: in no stall, freeze or stop (12 R279). -/
def leaseTicks (s : State) (tile : Nat) : Bool :=
  leaseRuns s tile && (coreGet s tile).frozen.isNone && (coreGet s tile).ticked

/-- Every pair of a tile and a leasable engine that satisfies a test. -/
def engWhere (s : State) (n : Nat) (p : Nat → Tile → Nat → Bool) : List (Nat × Nat) :=
  s.tiles.flatMap fun x => ((List.range n).filter (p x.1 x.2)).map fun e => (x.1, e)

/-- ENGINE_POWER_UP_COMPLETE (12 R273). -/
def powerDone (tile e : Nat) (s : State) : State :=
  let x := engGet (tileGet s tile) e
  if leaseRuns s tile ∧ e < 8 ∧ !x.pwDone ∧ (x.st = 1 ∨ x.st = 2 ∨ x.st = 7) then
    engMap s tile e fun x => { x with pwDone := true, st := if x.st = 2 then 3 else x.st }
  else s

/-- Tiles whose queue head can be granted (12 R275). -/
def grantable (s : State) : List Nat :=
  s.tiles.filterMap fun x => if leaseRuns s x.1 && (headPick x.2).isSome then some x.1 else none

/-- Arrays due for gating (12 R279). -/
def gateable (s : State) : List (Nat × Nat) :=
  engWhere s 2 fun tile t e => leaseTicks s tile && decide (engState t e = 3) && engIdle (engGet t e)
    && decide (leaseIdle t ≠ 0) && decide (leaseIdle t ≤ (engGet t e).idle)

/-- Woken engines due to return (12 R279). -/
def returnable (s : State) : List (Nat × Nat) :=
  engWhere s 8 fun tile t e => leaseTicks s tile && decide (engState t e = 1) && decide (leaseIdle t ≠ 0)
    && decide (leaseIdle t ≤ (engGet t e).idle)

/-- Releasing engines that are idle (12 R278). -/
def released (s : State) : List (Nat × Nat) :=
  engWhere s 8 fun tile t e => leaseRuns s tile && decide (engState t e = 7) && engIdle (engGet t e)

/-- A releasing engine enters the kennel, or passes to a waiting request awake (12 R278, R285, R291). -/
def releaseDone (s : State) (tile e : Nat) : State :=
  let s1 := engMap s tile e (engKennel e)
  if leasePass s1 tile e then leaseHeadGrant s1 tile true else s1

/-- Tiles at which standby points have blocked the queue head for the grace (12 R288). -/
def graceOver (s : State) : List Nat :=
  s.tiles.filterMap fun x => match x.2.leaseQ with
    | r :: _ =>
      if leaseRuns s x.1 && (headPick x.2).isNone && (headPick (dropStandby x.2 (List.range 8))).isSome
          && decide (r.since + natBits x.2.leaseCtl.toNat 32 8 * 1000 ≤ timeOf s) then some x.1 else none
    | [] => none

/-- Standby leases are released, lowest engine first, until the queue head is covered and takes its engine (12 R288). -/
def graceRelease (tile : Nat) : List Nat → State → State
  | [], s => s
  | e :: es, s => if (headPick (tileGet s tile)).isSome then leaseHeadGrant s tile false
    else graceRelease tile es (tilePut s tile (dropStandby (tileGet s tile) [e]))

/-- A write of LEASE_CMD: each named engine is evicted, or a woken one returned (12 R283). -/
def leaseCmd (h tile : Nat) (v : Word) (s : State) : State :=
  let owner := (tileNode? s tile).map (·.host)
  if h = s.mgmt.mgmtHost ∨ owner = some h then
    ((List.range 8).filter fun e => v.getLsbD e).foldl (fun s e => evict s tile e 2) s
  else hostNote s h (trapOf causeManagementAccess)

/-- A power-up is physically complete (12 R273). -/
def execEnginePowerUpComplete (tile : BitVec 8) (eng : BitVec 4) (s : State) : Out :=
  .next (powerDone tile.toNat eng.toNat s)

/-- The head of a lease queue is granted (12 R275). -/
def execLeaseQueueGrant (s : State) : Out :=
  .next (match pickTurn s (grantable s) with | some tile => leaseHeadGrant s tile false | none => s)

/-- An idle array is gated (12 R279). -/
def execIdleGating (s : State) : Out :=
  .next (match pickTurn s (gateable s) with
    | some (tile, e) => engMap s tile e fun x => { x with st := 4, idle := 0 }
    | none => s)

/-- A woken engine that nothing claims returns to the kennel (12 R279). -/
def execWokenIdleReturn (s : State) : Out :=
  .next (match pickTurn s (returnable s) with | some (tile, e) => engMap s tile e (engKennel e) | none => s)

/-- A releasing engine has become idle (12 R278). -/
def execReleaseComplete (s : State) : Out :=
  .next (match pickTurn s (released s) with | some (tile, e) => releaseDone s tile e | none => s)

/-- The grace of a standby lease ends (12 R288). -/
def execStandbyGraceExpiry (s : State) : Out :=
  .next (match pickTurn s (graceOver s) with | some tile => graceRelease tile (List.range 9) s | none => s)

/-- A write of LEASE_CMD (12 R283). -/
def execLeaseCmdEvict (host : BitVec 1) (tile : BitVec 8) (val : BitVec 64) (s : State) : Out :=
  hostDoes host s (leaseCmd host.toNat tile.toNat val)

end Sys2Proof.Machine
end

