-- ==== Sys2Proof/Machine/Copy.lean ====
section
/-! DEFINITION. The copy sequencers: acceptance, address generation, bursts, signals, waits, follow-ons and abort
(11 R250 to R269). -/

namespace Sys2Proof.Machine

open Sys2Proof

/-- The command code of a copy command: that of its etrig, or CTL.code of its block (11 R257). -/
def cpCode (c : Cmd) : Nat := match c.src with | .block => natBits (cmdReg c 2) 17 8 | _ => cmdCode c

/-- The set that a block holds: its eight words (11 R257). -/
def blockRegs (block : List Word) : NMap RV := (List.range 8).map fun i => (i, rvOf (block.getD i 0))

/-- Fields of CTL (11 R251). -/
def cpBurst (c : Cmd) : Nat := natBits (cmdReg c 2) 0 17
def cpRl (c : Cmd) : Bool := natBit (cmdReg c 2) 25
def cpGate (c : Cmd) : Bool := natBit (cmdReg c 2) 26
def cpSl (c : Cmd) : Nat := natBits (cmdReg c 2) 27 3
def cpMode (c : Cmd) : Bool := natBit (cmdReg c 2) 30
def cpScope (c : Cmd) : Nat := natBits (cmdReg c 2) 31 3
def cpCache (c : Cmd) : Bool := natBit (cmdReg c 2) 34
def cpX (c : Cmd) : Bool := natBit (cmdReg c 2) 35
def cpFoneng (c : Cmd) : Nat := natBits (cmdReg c 2) 36 2
def cpFon (c : Cmd) : Nat := natBits (cmdReg c 2) 38 26

/-- One level of the loop nest: count, start, bound, circ, side, strides (11 R250, R251, R258). -/
structure CpLevel where
  n : Nat
  c : Int
  b : Nat
  circ : Bool
  side : Bool
  ss : Int
  ds : Int
deriving DecidableEq, Repr

/-- The six levels of a command (11 R251). -/
def cpLevels (c : Cmd) : List CpLevel :=
  (List.range 6).map fun l =>
    if cpX c then
      let cnt := cmdReg c (8 + l)
      let bnd := cmdReg c (14 + l)
      let str := cmdReg c (20 + l)
      ⟨natBits cnt 0 32, signedNat 32 (natBits cnt 32 32), natBits bnd 0 32, natBit bnd 63, natBit bnd 62,
       signedNat 32 (natBits str 0 32), signedNat 32 (natBits str 32 32)⟩
    else if l < 2 then
      ⟨natBits (cmdReg c 3) (32 * l) 32, 0, 0, false, false, signedNat 32 (natBits (cmdReg c 4) (32 * l) 32),
       signedNat 32 (natBits (cmdReg c 5) (32 * l) 32)⟩
    else ⟨1, 0, 0, false, false, 0, 0⟩

/-- The product of a list of counts. -/
def prodNat : List Nat → Nat
  | [] => 1
  | x :: xs => x * prodNat xs

/-- The number of bursts of a command (11 R258). -/
def cpTotal (c : Cmd) : Nat := prodNat ((cpLevels c).map (·.n))

/-- G, the bursts of a signal group (11 R258). -/
def cpGroup (c : Cmd) : Nat := prodNat (((cpLevels c).take (cpSl c)).map (·.n))

/-- FIRST of a command (11 R250, R251). -/
def cpFirst (c : Cmd) : Nat := if cpX c then natBits (cmdReg c 29) 0 48 else 0

/-- The addend of a signal (11 R261). -/
def cpAddend (c : Cmd) : Nat := if cpMode c then 1 else cpBurst c * cpGroup c

/-- What a side of a command names (11 R255). -/
inductive CpSide where
  | none | pool | glob | bad
deriving DecidableEq, Repr

/-- The source side (11 R255). -/
def cpSrcSide (c : Cmd) : CpSide :=
  match cpCode c with
  | 1 | 4 => .glob
  | 2 | 3 => .pool
  | _ => .none

/-- The destination side and its address: cp.fill takes a full address (11 R255). -/
def cpDst (c : Cmd) : CpSide × Nat :=
  let a := cmdReg c 1
  match cpCode c with
  | 1 | 3 => (.pool, a)
  | 2 | 4 => (.glob, a)
  | _ =>
    match natBits a 62 2 with
    | 0 => (.glob, a)
    | 2 => if natBits a 32 30 = 0 then (.pool, natBits a 0 32) else (.bad, a)
    | _ => (.bad, a)

/-- The destination is the sequencer's own pool (11 R256). -/
def cpDstOwn (tile : Nat) (c : Cmd) : Bool :=
  match cpDst c with
  | (.pool, a) => (match poolPlace a with
    | .ownPool _ => true
    | .pool t _ => decide (t = tile)
    | _ => false)
  | _ => false

/-- The conditions of copy-param (11 R256, R257). -/
def cpBad (tile : Nat) (c : Cmd) : Bool :=
  let l := cpLevels c
  let total := cpTotal c
  decide (cpBurst c = 0) || decide (65536 < cpBurst c) || l.any (fun x => decide (x.n = 0)) || decide (2 ^ 48 < total)
    || decide (total ≤ cpFirst c) || decide (cpSl c = 7) || decide (4 < cpScope c) || decide (cpFoneng c = 3)
    || (decide (cpFoneng c ≠ 0) && !cpDstOwn tile c) || l.any (fun x => decide (x.b = 0) && decide (x.c ≠ 0))
    || (cpX c && ((List.range 6).any (fun i => decide (natBits (cmdReg c (14 + i)) 32 30 ≠ 0)) || decide (natBits (cmdReg c 29) 48 16 ≠ 0)))
    || !(decide (natBits (cmdReg c 2) 17 8 = 0) || decide (natBits (cmdReg c 2) 17 8 = cpCode c))
    || (decide (cpCode c = 5) && (decide (cmdReg c 0 ≠ 0) || l.any fun x => decide (x.ss ≠ 0)))
    || (cpGate c && (!cpX c
        || decide (2 ^ 64 ≤ cmdReg c 27 + (total / cpGroup c - 1) * cmdReg c 28)))
    || (decide (c.src = .block) && (cpX c || cpGate c))

/-- A copy sequencer takes a command into its queue, or refuses it (04 R90; 11 R252, R256, R257). -/
def cpTake (s : State) (tile e : Nat) (c : Cmd) (vc : NMap Nat) (seq : Nat) : State :=
  let code := cpCode c
  if code = 0 ∨ 5 < code ∨ (c.src ≠ .block ∧ c.imm / 256 ≠ 0) then
    engRefuse s tile e 1 causeBadCommand (if c.src = .block then code else c.imm)
  else if cpBad tile c then engRefuse s tile e 2 causeCopyParam (if c.src = .block then code else c.imm)
  else
    let r := newAgent s tile e vc
    engMap r.1 tile e fun x => { x with queue := x.queue ++ [⟨0, true, tile, seq, { c with agent := r.2 }, vc⟩] }

/-- The index of level `l` in burst `k`, with the position that its bound gives: none when out of bounds (11 R258). -/
def cpPos (x : CpLevel) (i : Nat) : Option Int :=
  if x.b = 0 then some i
  else
    let p := x.c + i
    if x.circ then some (p % (x.b : Int)) else if p < 0 ∨ (x.b : Int) ≤ p then none else some p

/-- Offsets and bounds of burst `k`: source and destination offset, out of bounds on each side (11 R258). -/
structure CpAddr where
  sa : Int
  da : Int
  oobS : Bool
  oobD : Bool
deriving DecidableEq, Repr

/-- Address generation, level by level; `k` is the rest of the burst index (11 R258). Where a level is out of bounds its
position is not wrapped. -/
def cpAddr : List CpLevel → Nat → CpAddr
  | [], _ => ⟨0, 0, false, false⟩
  | x :: xs, k =>
    let i := k % x.n
    let p := cpPos x i
    let q : Int := p.getD (x.c + i)
    let r := cpAddr xs (k / x.n)
    ⟨(if x.side then (i : Int) else q) * x.ss + r.sa, (if x.side then q else (i : Int)) * x.ds + r.da,
     r.oobS || (p.isNone && !x.side), r.oobD || (p.isNone && x.side)⟩

/-- The pieces of one side of a burst (11 R258). -/
def cpPieces (s : State) (tile : Nat) (wr : Bool) (side : CpSide) (base : Nat) (d : Int) (n : Nat) : EngOut (List Piece) :=
  match side with
  | .none => .ok []
  | .bad => .bad (engTrap causeBadAddress base)
  | .pool => poolPieces s tile base ((natBits base 0 23 : Nat) + d) n
  | .glob =>
    let a : Int := base + d
    if a < 0 ∨ (2 ^ 52 : Int) < a + n then .bad (engTrap causeBadAddress (a % (2 ^ 64 : Int)).toNat)
    else globalPieces s tile (tileAsid s tile) wr a.toNat n

/-- Bytes `a` to `a + n − 1` of a list of pieces. -/
def piecesSub : List Piece → Nat → Nat → List Piece
  | [], _, _ => []
  | p :: ps, a, n =>
    let k := pieceLen p
    if n = 0 then []
    else if k ≤ a then piecesSub ps (a - k) n
    else
      let m := min n (k - a)
      (match p with
       | .pool t off _ => Piece.pool t (off + a) m
       | .mem va pa _ leaf => Piece.mem (va + a) (pa + a) m leaf) :: piecesSub ps 0 (n - m)

/-- The address at which a list of pieces starts. -/
def piecesStart : List Piece → Nat
  | .pool _ off _ :: _ => off
  | .mem va _ _ _ :: _ => va
  | [] => 0

/-- The runs of at most 64 bytes of a burst, cut at 64-byte boundaries of its destination (11 R259). -/
def cpRuns (start n : Nat) : List (Nat × Nat) :=
  let head := min n (64 - start % 64)
  (0, head) :: (List.range (ceilDiv (n - head) 64)).map fun i => (head + 64 * i, min 64 (n - head - 64 * i))

/-- The granules of a cacheable source enter the die's cache when CTL.cache asks for it (10 R234, 11 R251). -/
def cpFill (s : State) (tile : Nat) (l : List Piece) : State :=
  l.foldl (fun s p => match p with
    | .mem _ pa n leaf => (match homeOf pa with
      | .stack _ => if leafCache leaf then (granList pa n).foldl (fun s g => cacheFill s (dieOf tile) g) s else s
      | _ => s)
    | .pool _ _ _ => s) s

/-- A completion of a read of host memory reports an error where the host says so, at any time (11 R259): a free choice, and then
line-lost (DESIGN CHOICE, log entry 69). -/
def cpHostErr (s : State) (l : List Piece) : Option Trap × State :=
  match l.find? fun p => match p with | .mem _ pa _ _ => (match homeOf pa with | .port _ => true | _ => false) | .pool _ _ _ => false with
  | some (.mem _ pa _ _) =>
    (if Config.freeBool s.free then some (engTrap causeLineLost pa) else none, { s with free := s.free + 1 })
  | _ => (none, s)

/-- Moves the runs of a burst in order; a fault stops it with what is written before (11 R259). `src` none fills. -/
def cpMove (tile : Nat) (cache : Bool) (pat : List Byte) (src : Option (List Piece)) (dst : List Piece) :
    State → List (Nat × Nat) → State × Option Trap
  | s, [] => (s, none)
  | s, (a, n) :: l =>
    let from' := (src.getD []) |> fun p => piecesSub p a n
    let (err, s) := cpHostErr s from'
    let data : EngOut (List Byte) := match err, src with
      | some x, _ => .bad x
      | none, some _ => piecesRead s from'
      | none, none => .ok ((List.range n).map fun j => pat.getD ((a + j) % 8) 0)
    match engThen data fun bs => piecesWrite s tile cache (piecesSub dst a n) bs with
    | .ok s1 => cpMove tile cache pat src dst s1 l
    | .bad x => (s, some x)
    | .wait _ => (s, none)

/-- A record of a write by another command of the same sequencer: the byte rule orders it before a later write
(11 R260, 17 R394). -/
def sameSeq (s : State) (ident : Nat) (r : OpenRec) : Bool :=
  r.write && r.plain && decide (((mapGet? s.agents r.agent).map (·.ident)).getD 0 = ident)

/-- The conflict check of a burst's writes (11 R259, 17 R394). -/
def cpCheckWr (s : State) (agent ident : Nat) (l : List Piece) : EngOut State :=
  let hid := s.records.filter fun r => sameSeq s ident r && decide (r.agent ≠ agent)
  if hid.isEmpty then engCheck s agent true l
  else engThen (engCheck { s with records := s.records.filter fun r => !(sameSeq s ident r && decide (r.agent ≠ agent)) } agent true l)
    fun s1 => .ok { s1 with records := s1.records ++ hid }

/-- What burst `k` of a command comes to: the new state with the fault that the moving met (11 R258, R259). -/
def cpBurstRun (s : State) (tile e : Nat) (c : Cmd) (k : Nat) : EngOut (State × Option Trap) :=
  let a := cpAddr (cpLevels c) k
  let n := cpBurst c
  if a.oobD then .ok (s, none)
  else
    let fill := decide (cpSrcSide c = .none) || a.oobS
    let d := cpDst c
    engThen (if fill then .ok [] else cpPieces s tile false (cpSrcSide c) (cmdReg c 0) a.sa n) fun src =>
    engThen (cpPieces s tile true d.1 d.2 a.da n) fun dst =>
    engThen (engCheck s c.agent false src) fun s1 =>
    engThen (cpCheckWr s1 c.agent (engIdent tile e) dst) fun s2 =>
      let s3 := (src ++ dst).foldl (fun s p => pieceTouch s (tileAsid s tile) p) s2
      let s4 := if cpCache c then cpFill s3 tile src else s3
      .ok (cpMove tile (cpCache c) (leBytes 8 (cmdReg c 7)) (if fill then none else some src) dst s4 (cpRuns (piecesStart dst) n))

/-- Keys of a copy run's progress: groups signalled; group + 1 whose binding wait, and whose gate wait, has ended. -/
def cpKeySig : Nat := 0
def cpKeyBind : Nat := 1
def cpKeyGate : Nat := 2

/-- The group of the next burst, and whether its first burst in this run is next. -/
def cpNextGroup (r : Run) : Nat × Bool :=
  (r.unit / cpGroup r.cmd, decide (r.unit % cpGroup r.cmd = 0) || decide (r.unit = cpFirst r.cmd))

/-- The bound reel register that REEL names, with its ceiling and depth (11 R262). -/
def cpBinding (s : State) (tile : Nat) (c : Cmd) : Option (Nat × Nat × Nat × Nat) :=
  if cpRl c then
    match engReel s tile (BitVec.ofNat 64 (cmdReg c 6)) true with
    | .ok (.reg t k) =>
      let x := reelGet (tileGet s t) k
      if x.bound then some (t, k, x.ceiling, x.depth) else none
    | _ => none
  else none

/-- The command waits on its binding before the next burst (11 R262). -/
def cpBindWait (s : State) (tile : Nat) (r : Run) : Bool :=
  (cpNextGroup r).2 && decide (mapGet r.aux cpKeyBind 0 ≠ (cpNextGroup r).1 + 1) && (cpBinding s tile r.cmd).isSome

/-- The binding admits the next group's addend (11 R262). -/
def cpBindMet (s : State) (tile : Nat) (r : Run) : Bool :=
  match cpBinding s tile r.cmd with
  | some (t, k, ceiling, depth) =>
    let p := ((cpNextGroup r).1 - mapGet r.aux cpKeySig 0) * cpAddend r.cmd
    decide ((reelVal s (.reg t k)).toNat + p + cpAddend r.cmd ≤ (reelVal s (.reg t ceiling)).toNat + depth)
  | none => true

/-- The command waits on its gate before the next burst (11 R263). -/
def cpGateWait (r : Run) : Bool :=
  (cpNextGroup r).2 && cpGate r.cmd && decide (mapGet r.aux cpKeyGate 0 ≠ (cpNextGroup r).1 + 1)

/-- The value that the gate reel must reach for the next group (11 R263). -/
def cpGateNeed (r : Run) : Nat := cmdReg r.cmd 27 + (cpNextGroup r).1 * cmdReg r.cmd 28

/-- A signal is due: every burst of the next group to signal is done, and no follow-on is pending (11 R258, R261, R264). -/
def cpSigDue (t : Tile) (e : Nat) (r : Run) : Bool :=
  let g := mapGet r.aux cpKeySig 0
  decide ((g + 1) * cpGroup r.cmd ≤ r.unit) && !followPending t e

/-- The command has done everything (11 R254). -/
def cpDone (t : Tile) (e : Nat) (r : Run) : Bool :=
  decide (cpTotal r.cmd ≤ r.unit) && decide (cpTotal r.cmd / cpGroup r.cmd ≤ mapGet r.aux cpKeySig 0) && !followPending t e

/-- A run of a command at its first unit. -/
def runOf (c : Cmd) (unit : Nat) (aux : NMap Nat) : Run :=
  { cmd := c, unit, phase := 0, aux, data := [], flags := 0, rows := [] }

/-- The next command of a sequencer's queue, with the rest. -/
def cpNext (x : Engine) : Option (QEntry × List QEntry) := takeFirst (fun q : QEntry => decide (q.cmd.agent ≠ 0)) x.queue

/-- A sequencer may act: it is one, its tile runs, and it has not stopped. -/
def cpOpen (s : State) (tile e : Nat) : Bool :=
  engOpen s tile e && (decide (e = 8) || decide (e = 9))

/-- Rewrites the run at the head of an engine's list. -/
def runMap (x : Engine) (f : Run → Run) : Engine :=
  match x.runs with
  | [] => x
  | r :: rs => { x with runs := f r :: rs }

/-- COPY_BURST: the next command starts, a wait is noted, or the next burst is performed; a signal that is due goes first
(11 R258 to R263, R266). -/
def copyBurst (tile e : Nat) (s : State) : State :=
  if !cpOpen s tile e then s
  else
    let x := engGet (tileGet s tile) e
    match x.runs with
    | [] =>
      match cpNext x with
      | none => s
      | some (q, rest) =>
        let k := cpFirst q.cmd
        engMap s tile e fun x =>
          { x with queue := rest, progNext := k, runs := [runOf q.cmd k [(cpKeySig, k / cpGroup q.cmd)]] }
    | r :: _ =>
      if cpTotal r.cmd ≤ r.unit ∨ !forkReady s r.cmd.fork ∨ cpSigDue (tileGet s tile) e r then s
      else if cpBindWait s tile r || cpGateWait r then engMap s tile e fun x => { x with waiting := true }
      else match cpBurstRun s tile e r.cmd r.unit with
        | .wait ask => engAsk s ask
        | .bad t => engStopAt s tile e (cpCode r.cmd) t
        | .ok (s1, some t) => engStopAt s1 tile e (cpCode r.cmd) t
        | .ok (s1, none) => engMap s1 tile e fun x =>
            { runMap x (fun r => { r with unit := r.unit + 1 }) with progNext := r.unit + 1 }

/-- COPY_BINDING_WAIT_END: the test that ends the wait acquires the ceiling (11 R262, 17 R383). -/
def copyBindEnd (tile e : Nat) (s : State) : State :=
  match (engGet (tileGet s tile) e).runs with
  | [] => s
  | r :: _ =>
    if cpOpen s tile e && cpBindWait s tile r && cpBindMet s tile r then
      match cpBinding s tile r.cmd with
      | none => s
      | some (t, _, ceiling, _) =>
        let c := ReelAt.reg t ceiling
        let s1 := acquire s r.cmd.agent (agentOf s r.cmd.agent) (reelLoc c) (reachOf tile c)
        engMap s1 tile e fun x =>
          { runMap x (fun r => { r with aux := mapPut r.aux cpKeyBind ((cpNextGroup r).1 + 1) }) with waiting := false }
    else s

/-- COPY_GATE_WAIT_END: the test that ends the wait acquires the gate reel (11 R263). -/
def copyGateEnd (tile e : Nat) (s : State) : State :=
  match (engGet (tileGet s tile) e).runs with
  | [] => s
  | r :: _ =>
    if cpOpen s tile e && cpGateWait r && !cpBindWait s tile r then
      match engReel s tile (BitVec.ofNat 64 (cmdReg r.cmd 26)) false with
      | .wait ask => engAsk s ask
      | .bad x => engStopAt s tile e (cpCode r.cmd) x
      | .ok p =>
        if cpGateNeed r ≤ (reelVal s p).toNat then
          let s1 := reelTouch s (tileAsid s tile) p
          let s2 := acquire s1 r.cmd.agent (agentOf s1 r.cmd.agent) (reelLoc p) (reachOf tile p)
          engMap s2 tile e fun x =>
            { runMap x (fun r => { r with aux := mapPut r.aux cpKeyGate ((cpNextGroup r).1 + 1) }) with waiting := false }
        else s
    else s

/-- The gate wait of a sequencer can end, or its reel faults. -/
def copyGateDue (s : State) (tile e : Nat) : Bool :=
  match (engGet (tileGet s tile) e).runs with
  | [] => false
  | r :: _ => cpOpen s tile e && cpGateWait r && !cpBindWait s tile r
      && (match engReel s tile (BitVec.ofNat 64 (cmdReg r.cmd 26)) false with
          | .wait _ => false
          | .bad _ => true
          | .ok p => decide (cpGateNeed r ≤ (reelVal s p).toNat))

/-- Delivers the follow-on of a group, forked by its signal (11 R264, 17 R383, R391). -/
def cpFollow (s : State) (tile e : Nat) (r : Run) : State :=
  if cpFoneng r.cmd = 0 then s
  else
    let a := agentOf s r.cmd.agent
    let s1 := agentPut s r.cmd.agent (agentBump r.cmd.agent a)
    let s2 := engMap s1 tile (cpFoneng r.cmd - 1) fun x =>
      { x with queue := x.queue ++ [⟨0, true, e, 0, ⟨.follow, cpFon r.cmd, [], [], 0, x.nextOrd, none⟩, a.vc⟩], nextOrd := x.nextOrd + 1 }
    s2

/-- COPY_SIGNAL: the add with release at the wider of CTL.scope and REEL's reach, then the follow-on (11 R261, R264). Every
write of the group has been performed. -/
def copySignal (tile e : Nat) (s : State) : State :=
  let t := tileGet s tile
  match (engGet t e).runs with
  | [] => s
  | r :: _ =>
    if cpOpen s tile e && cpSigDue t e r then
      let addr : Word := BitVec.ofNat 64 (cmdReg r.cmd 6)
      let add : EngOut State := if !cpRl r.cmd then .ok s
        else if cpAddend r.cmd < 2 ^ 64 then
          engAdd s tile r.cmd.agent addr (BitVec.ofNat 64 (cpAddend r.cmd)) (scopeOfCode (cpScope r.cmd))
        else engThen (engReel s tile addr true) fun _ => .bad (engTrap causeReelOverflow addr.toNat)
      match add with
      | .wait ask => engAsk s ask
      | .bad x => engStopAt s tile e (cpCode r.cmd) x
      | .ok s1 =>
        let s2 := engMap s1 tile e fun x => { runMap x (fun r => { r with aux := mapPut r.aux cpKeySig (mapGet r.aux cpKeySig 0 + 1) }) with waiting := false }
        cpFollow s2 tile e r
    else s

/-- A copy command completes (11 R254). -/
def copyDone (tile e : Nat) (s : State) : State :=
  let t := tileGet s tile
  match (engGet t e).runs with
  | [] => s
  | r :: rs =>
    if cpOpen s tile e && cpDone t e r then
      engMap s tile e fun x => { x with runs := rs, progSeq := x.progSeq + 1, progNext := r.unit, waiting := false }
    else s

/-- The follow-ons of a sequencer are withdrawn (11 R267, R269). -/
def cpWithdraw (t : Tile) (e : Nat) : Tile :=
  (List.range 2).foldl (fun t m => engPut t m { engGet t m with
    queue := (engGet t m).queue.filter fun q => !(decide (q.cmd.src = .follow) && decide (q.sender = e)) }) t

/-- eabort on a sequencer: what it has accepted and not started is discarded, and the running command stops between two bursts. With
nothing accepted it is idle (11 R255, R267). -/
def cpAbort (t : Tile) (e : Nat) : Tile :=
  let g := engGet t e
  let old (q : QEntry) : Bool := decide (q.cmd.agent ≠ 0)
  let x := { g with queue := g.queue.filter fun q => !old q }
  match x.runs with
  | [] => (match g.queue.find? old with
    | none => engPut t e { x with cause := 4 }
    | some q => engPut t e { setCause x 4 (cpCode q.cmd) with progSeq := x.progSeq + 1 })
  | r :: _ => engPut (cpWithdraw t e) e
      { setCause x 4 (cpCode r.cmd) with runs := [], waiting := false, progNext := r.unit, progSeq := x.progSeq + 1 }

/-- A copy sequencer performs a burst, or starts a command (11 R258, R259). -/
def execCopyBurst (tile : BitVec 8) (cq : BitVec 1) (s : State) : Out := .next (copyBurst tile.toNat (8 + cq.toNat) s)

/-- The gate of a copy command opens (11 R263). -/
def execCopyGateWaitEnd (tile : BitVec 8) (cq : BitVec 1) (s : State) : Out := .next (copyGateEnd tile.toNat (8 + cq.toNat) s)

/-- The binding of a copy command's reel admits the next group (11 R262). -/
def execCopyBindingWaitEnd (tile : BitVec 8) (cq : BitVec 1) (s : State) : Out := .next (copyBindEnd tile.toNat (8 + cq.toNat) s)

/-- A group of a copy command signals (11 R261). -/
def execCopySignal (tile : BitVec 8) (cq : BitVec 1) (s : State) : Out := .next (copySignal tile.toNat (8 + cq.toNat) s)

end Sys2Proof.Machine
end

