-- ==== Sys2Proof/Machine/Array.lean ====
section
/-! DEFINITION. The matrix arrays: acceptance, ring waits, groups, the end of the compute phase, the completion add and
abort (13 R298 to R312). -/

namespace Sys2Proof.Machine

open Sys2Proof

/-- Micro-instructions that round (14 R319, R320). -/
def dnRounds (op : Nat) : Bool := [0x01, 0x02, 0x03, 0x08, 0x09, 0x0A, 0x0B, 0x0E].contains op

/-- A ring of a multiply breaks R300. -/
def axRingBad (t : Tile) (c : Cmd) (b : Bool) : Bool :=
  let w := axRing c b
  decide (rgBase w % 256 ≠ 0) || decide (scratchSize t < rgBase w + (rgDepth w + 1) * axZ c b)
    || decide (natBits w 24 8 ≠ 0) || decide (natBits w 8 8 ≠ 0) || decide (4 < rgScope w)
    || (if rgConst w then decide (rgFilled w ≠ 0) || decide (rgReleased w ≠ 0) || decide (rgDepth w ≠ 0) || rgUnit w
        else decide (rgFilled w = rgReleased w))

/-- The conditions of array-param (13 R300, 14 R321). -/
def axBad (t : Tile) (c : Cmd) : Bool :=
  let w := cmdReg c 2
  let prog := mapGet t.drains (axDp c) []
  let common := decide (16 * t.partAcc ≤ axAcc c) || decide (natBits w 35 2 ≠ 0) || decide (natBits w 12 9 ≠ 0) || decide (4 < axScope c)
  let mul := axMul c && (match axPair (axFa c) (axFb c) with
    | none => true
    | some (grp, sc) => (!sc && (axSa c || axSb c)) || decide (axK c = 0) || decide (2048 < axK c) || decide (axK c % grp ≠ 0)
        || decide (axK c / grp ≤ axFg c) || axRingBad t c false || axRingBad t c true)
  let drain := axDrains c && (prog.isEmpty
    || (decide (6 ≤ natBits (cmdReg c 28) 0 3) && (axProg t c).any fun x => dnRounds (dnOp x) && decide (natBits x 10 3 = 7)))
  let kat := axKat c && (!rgConst (axRing c false) || !rgConst (axRing c true) || !axDoc c
    || !(axProg t c).any fun x => decide (dnOp x = 0x0F))
  common || mul || drain || kat

/-- A command code or modifier that the arrays do not define (04 R89, R90). -/
def axCodeBad (c : Cmd) : Bool :=
  decide (cmdCode c = 0) || decide (4 < cmdCode c) || decide ((if axMul c then 512 else 256) ≤ c.imm)

/-- The stage that a command uses first holds no command (13 R301). -/
def mxStageFree (x : Engine) (c : Cmd) : Bool :=
  if cmdCode c = 3 then
    x.runs.all fun r => !(decide (ra r akDrain = 1) || (decide (2 ≤ r.phase) && axDoc r.cmd && decide (ra r akDrain = 0)))
  else x.runs.all fun r => decide (2 ≤ r.phase)

/-- A command as it starts on an array. -/
def mxFresh (c : Cmd) : Run :=
  if cmdCode c = 3 then { runOf c (axFr c) [(akDrain, 1), (akStored, axFr c)] with phase := 2 }
  else if cmdCode c = 4 then runOf c 0 []
  else runOf c (axFr c) [(akRead, axFg c), (akLand, axFg c), (akStored, axFr c)]

/-- An array takes a command whose stage is free, or refuses it (04 R90; 13 R300, R301). -/
def mxTake (s : State) (tile e : Nat) (c : Cmd) (vc : NMap Nat) : State :=
  if axCodeBad c then engRefuse s tile e 1 causeBadCommand c.imm
  else if axBad (tileGet s tile) c then engRefuse s tile e 2 causeArrayParam c.imm
  else
    let r := newAgent s tile e vc
    engMap r.1 tile e fun x => { x with runs := x.runs ++ [mxFresh { c with agent := r.2 }] }

/-- An array may act. -/
def mxOpen (s : State) (tile e : Nat) : Bool :=
  engOpen s tile e && decide (e < 2)

/-- WaitTile (13 R306). -/
def mxTileFree (t : Tile) (e : Nat) (c : Cmd) : Bool :=
  (mxRuns t).all fun x =>
    !(decide (axAcc x.2.cmd = axAcc c) && decide (x.2.cmd.agent < c.agent))
      || (decide (x.1 = e) && (!axDrains x.2.cmd || decide (64 ≤ x.2.unit)))

/-- The command that waits in the compute stage. -/
def mxWaiting (x : Engine) : Option Run := x.runs.find? fun r => decide (r.phase = 0)

/-- A ring of a command is ready (13 R303). -/
def mxRingReady (t : Tile) (c : Cmd) (b : Bool) : Bool :=
  let w := axRing c b
  rgConst w || decide ((reelGet t (rgReleased w)).value.toNat + axU c b ≤ (reelGet t (rgFilled w)).value.toNat)

/-- The slot that a ring gives a command (13 R303). -/
def mxSlot (t : Tile) (c : Cmd) (b : Bool) : Nat :=
  let w := axRing c b
  if rgConst w then 0 else (reelGet t (rgReleased w)).value.toNat / axU c b % (rgDepth w + 1)

/-- The acquire that ends a ring wait (13 R303, 17 R379). -/
def mxRingAcquire (s : State) (tile : Nat) (c : Cmd) (b : Bool) : State :=
  let w := axRing c b
  if axMul c && !rgConst w then
    acquire s c.agent (agentOf s c.agent) (locReel tile (rgFilled w)) (scopeOfCode (rgScope w))
  else s

/-- The waiting command can begin. -/
def mxCanBegin (s : State) (tile e : Nat) : Option Run :=
  let t := tileGet s tile
  if mxOpen s tile e then
    match mxWaiting (engGet t e) with
    | some r =>
      if forkReady s r.cmd.fork && mxTileFree t e r.cmd && (!axMul r.cmd || (mxRingReady t r.cmd false && mxRingReady t r.cmd true))
      then some r else none
    | none => none
  else none

/-- ARRAY_RING_WAIT_END: the compute phase starts (13 R303, R306). -/
def mxBegin (tile e : Nat) (s : State) : State :=
  match mxCanBegin s tile e with
  | none => s
  | some r =>
    let c := r.cmd
    let t := tileGet s tile
    let a := mxSlot t c false
    let b := mxSlot t c true
    let s1 := mxRingAcquire (mxRingAcquire s tile c false) tile c true
    let s2 := tilePut s1 tile (wmarkMap (tileGet s1 tile) (axAcc c) fun w =>
      { w with wf := 0, ws := if axMul c then 0 else w.ws, wr := true })
    mxRun s2 tile e c.agent fun r =>
      if axMul c then raSet (raSet { r with phase := 1 } akSlotA a) akSlotB b else { r with phase := 1 }

/-- The bytes of group `g` of operand A or B, with their scales, as runs (13 R295, R303). -/
def axReads (tile : Nat) (c : Cmd) (r : Run) (b : Bool) (g : Nat) : List Piece :=
  let base := axBase c r b
  let grp := axGrp c
  let bits := fmtBits (axFmt c b)
  let data := if b then [Piece.pool tile (base + g * grp * 64 * bits / 8) (grp * 64 * bits / 8)]
    else (List.range 64).map fun i => Piece.pool tile (base + (i * axK c + g * grp) * bits / 8) (grp * bits / 8)
  let blocks := grp / 32
  let scales := if axScaled c b then
      (if b then [Piece.pool tile (base + axScaleAt c true 0 (g * grp)) (64 * blocks)]
       else (List.range 64).map fun i => Piece.pool tile (base + axScaleAt c false i (g * grp)) blocks)
    else []
  data ++ scales

/-- The first fault of reading a list of pieces of a pool (19 R430). -/
def piecesTrap (s : State) (l : List Piece) : Option Trap :=
  l.findSome? fun p => match p with
    | .pool t off n => poolReadTrap s t off n
    | .mem _ _ _ _ => none

/-- The sums of group `g` as cells of the run's data, with their flags (13 R303). -/
def groupSums (t : Tile) (c : Cmd) (r : Run) (g : Nat) : Mem × Nat :=
  (List.range 4096).foldl (fun (x : Mem × Nat) k =>
    let y := macSum t c r g (k / 64) (k % 64)
    (memPutNat x.1 (sumAt g (k / 64) (k % 64)) 4 y.1, x.2 ||| y.2)) (r.data, 0)

/-- A command of an array stops at a run fault of its compute phase: at its last committed group (13 R309). -/
def mxFault (s : State) (tile e : Nat) (r : Run) (x : Trap) : State :=
  let s1 := landRest tile e 16 s r.cmd.agent
  engStopAt (engMap s1 tile e fun y => { y with progNext := axUnit ((runOfAgent s1 tile e r.cmd.agent).getD r) }) tile e (cmdCode r.cmd) x

/-- An array reads the operands of its next group (13 R303, 17 R394). -/
def mxRead (s : State) (tile e : Nat) (r : Run) : State :=
  let c := r.cmd
  let g := ra r akRead
  let l := axReads tile c r false g ++ axReads tile c r true g
  match engCheck s c.agent false l with
  | .wait ask => engAsk s ask
  | .bad x => mxFault s tile e r x
  | .ok s1 =>
    match piecesTrap s1 l with
    | some x => mxFault s1 tile e r (engTrapOf x)
    | none =>
      let y := groupSums (tileGet s1 tile) c r g
      mxRun s1 tile e c.agent fun r => raSet { r with data := y.1, flags := r.flags ||| y.2 } akRead (g + 1)

/-- A command with rows that land in this step: of the group read first, or of azero, whose rows follow those of older commands
on its tile (13 R303, R306, R307). -/
def mxLands (x : Engine) (r : Run) : Bool :=
  (axMul r.cmd && decide (1 ≤ r.phase) && decide (ra r akLand < ra r akRead) && decide (landClk r.cmd (ra r akLand) (ra r akRow) ≤ ra r akClk))
    || (decide (cmdCode r.cmd = 4) && decide (r.phase = 1) && decide (r.unit / 4 ≤ ra r akClk)
      && x.runs.all fun q => !(decide (q.cmd.agent < r.cmd.agent) && axWrites q.cmd && decide (axAcc q.cmd = axAcc r.cmd)) || axLanded q
          || (decide (axG q.cmd ≤ ra q akLand + 1) && decide (r.unit + 4 ≤ ra q akRow)))

/-- A command that begins to read its next group in this step (13 R303). -/
def mxReads (r : Run) : Bool :=
  axMul r.cmd && decide (r.phase = 1) && decide (ra r akRead < axG r.cmd) && decide (grpClk r.cmd (ra r akRead) ≤ ra r akClk)

/-- ARRAY_GROUP_LANDING: four rows of a command land, or a group is read (13 R303, R307). -/
def mxGroup (tile e : Nat) (s : State) : State :=
  if !mxOpen s tile e then s
  else
    let x := engGet (tileGet s tile) e
    match x.runs.find? (mxLands x) with
    | some r =>
      if cmdCode r.cmd = 4 then zeroStep s tile e r
      else match landBad s tile r with
        | some (_, y) => mxFault s tile e r (engTrapOf y)
        | none => landStep s tile e r
    | none =>
      match x.runs.find? mxReads with
      | some r => mxRead s tile e r
      | none => s

/-- The command whose compute phase is over: every group has been read, and the step after has come (13 R303). -/
def mxEnds (x : Engine) : Option Run :=
  x.runs.find? fun r => axMul r.cmd && decide (r.phase = 1) && decide (axG r.cmd ≤ ra r akRead) && decide (grpClk r.cmd (axG r.cmd) ≤ ra r akClk)

/-- The release of one ring, which a fault leaves to be made at resumption (13 R303, R309). -/
def mxRelease (s : State) (tile : Nat) (c : Cmd) (b : Bool) : Except Trap State :=
  let w := axRing c b
  if rgConst w then .ok s
  else match addBy s tile c.agent (.reg tile (rgReleased w)) (BitVec.ofNat 64 (axU c b)) (scopeOfCode (rgScope w)) with
    | .ok s1 => .ok s1
    | .error k => .error (engTrap k (ownReelFull (rgReleased w)))

/-- Every group that a command has read lands, before a fault at its release stops it (13 R309). -/
def relLand (tile e agent : Nat) : Nat → State → State
  | 0, s => s
  | n + 1, s =>
    match runOfAgent s tile e agent with
    | none => s
    | some r =>
      if ra r akLand < ra r akRead ∧ (landBad s tile r).isNone then relLand tile e agent n (landStep s tile e r) else s

/-- ARRAY_COMPUTE_END: ring A is released before ring B, and the stage is free (13 R303). -/
def mxComputeEnd (tile e : Nat) (s : State) : State :=
  if !mxOpen s tile e then s
  else match mxEnds (engGet (tileGet s tile) e) with
    | none => s
    | some r =>
      let c := r.cmd
      let a := if ra r akRel = 0 then mxRelease s tile c false else .ok s
      match a with
      | .error x => mxFault (relLand tile e c.agent 32 s) tile e r x
      | .ok s1 =>
        match mxRelease s1 tile c true with
        | .error x => mxFault (relLand tile e c.agent 32 (mxRun s1 tile e c.agent fun r => raSet r akRel 1)) tile e r x
        | .ok s2 => mxRun s2 tile e c.agent fun r => raSet { r with phase := 2 } akRel 2

/-- The oldest command of an array has done its work (13 R302, R303). -/
def mxFinished (x : Engine) : Option Run :=
  match x.runs with
  | r :: _ => if decide (2 ≤ r.phase) && axLanded r && (!axDrains r.cmd || decide (ra r akDrain = 2)) then some r else none
  | [] => none

/-- KSTAT after an outcome (13 R297, R308). -/
def kstatAdd (x : Engine) (pass : Bool) : Engine :=
  let w := (mapGet x.regs 7 (rvOf 0)).v.toNat
  let hi := natBits w 32 32 + boolNat pass
  let lo := natBits w 0 32 + boolNat (!pass)
  { x with regs := mapPut x.regs 7 (rvOf (BitVec.ofNat 64 (hi % 2 ^ 32 * 2 ^ 32 + lo % 2 ^ 32))) }

/-- The compare of a known-answer command: a mismatch is a run fault (13 R308). -/
def mxCompare (s : State) (tile e : Nat) (r : Run) : State × Option Trap :=
  let c := BitVec.ofNat 64 (ra r akSum)
  let k := BitVec.ofNat 64 (cmdReg r.cmd 4)
  let s1 := mxRun (engMap s tile e fun x => kstatAdd x (decide (c = k))) tile e r.cmd.agent fun r => raSet r akCmp 1
  (s1, if c = k then none else some ⟨causeSilentError, 0, 0, c, k⟩)

/-- ARRAY_DONE_ADD: compare, add, flags, completion (13 R302, R303, R308). -/
def mxDone (tile e : Nat) (s : State) : State :=
  if !mxOpen s tile e then s
  else match mxFinished (engGet (tileGet s tile) e) with
    | none => s
    | some r =>
      let c := r.cmd
      let y := if axKat c && decide (ra r akCmp = 0) then mxCompare s tile e r else (s, none)
      match y with
      | (s1, some x) => dnStop s1 tile e r 64 x
      | (s1, none) =>
        let done : EngOut State := if cmdReg c 3 = 0 then .ok s1
          else engAdd s1 tile c.agent (BitVec.ofNat 64 (cmdReg c 3)) 1 (scopeOfCode (axScope c))
        match done with
        | .wait ask => engAsk s ask
        | .bad x => if axDrains c then dnStop s1 tile e r 64 x else mxFault s1 tile e r x
        | .ok s2 =>
          engMap (orFpstat s2 tile r.flags) tile e fun x => progSync { x with runs := x.runs.drop 1, progSeq := x.progSeq + 1 }

/-- An aborted array: commands not started go, those in a stage stop at a unit boundary, no release and no DONE add is made (13 R310,
14 R333). -/
def mxAbort (s : State) (tile e : Nat) : State :=
  let dn := (engGet (tileGet s tile) e).runs.find? fun r => decide (ra r akDrain = 1)
  let s1 := mxStop s tile e
  let t := mxLetGo (tileGet s1 tile) e
  let x := engGet t e
  let code := match x.runs with | r :: _ => cmdCode r.cmd | [] => x.lastcode
  let last := dn.bind fun r => runOfAgent s1 tile e r.cmd.agent
  tilePut s1 tile (engPut t e
    { setCause x 4 code with
      runs := [], queue := x.queue.filter (!·.ready), progSeq := x.progSeq + x.runs.length,
      waiting := false, after := last.elim x.after fun r => (agentOf s1 r.cmd.agent).vc,
      regs := match last with
        | some r => mapPut x.regs 32 (rvOf (rstWord r.cmd 9 0 (ra r akStored) false false))
        | none => x.regs })

/-- A multiply's waits are met (13 R303). -/
def execArrayRingWaitEnd (tile : BitVec 8) (mx : BitVec 1) (s : State) : Out := .next (mxBegin tile.toNat mx.toNat s)

/-- A k-group lands (13 R303). -/
def execArrayGroupLanding (tile : BitVec 8) (mx : BitVec 1) (s : State) : Out := .next (mxGroup tile.toNat mx.toNat s)

/-- A compute phase ends (13 R303). -/
def execArrayComputeEnd (tile : BitVec 8) (mx : BitVec 1) (s : State) : Out := .next (mxComputeEnd tile.toNat mx.toNat s)

/-- A command of an array completes (13 R302). -/
def execArrayDoneAdd (tile : BitVec 8) (mx : BitVec 1) (s : State) : Out := .next (mxDone tile.toNat mx.toNat s)

end Sys2Proof.Machine
end

