-- ==== Sys2Proof/Machine/Elementary.lean ====
section
/-! DEFINITION. Quotients, roots and the elementary functions as exact magnitudes with a sticky bit, from integer
bounds (09 R214; 15): a value is answered once its lower and upper bound agree on every bit kept. -/

namespace Sys2Proof.Machine

open Sys2Proof

/-- One bit at a time: the integer square root of `n`, over bit positions below `k`. -/
def isqrtGo (n : Nat) : Nat → Nat → Nat
  | 0, r => r
  | k + 1, r => let t := r + 2 ^ k; isqrtGo n k (if t * t ≤ n then t else r)

/-- The integer square root. -/
def isqrt (n : Nat) : Nat := isqrtGo n (bitLen n / 2 + 1) 0

/-- The quotient of two magnitudes, to 160 bits and a sticky bit. -/
def numQuot (neg : Bool) (a : Nat) (ea : Int) (b : Nat) (eb : Int) : Num :=
  let k := 160 + bitLen b
  let q := a * 2 ^ k / b
  .fin neg q (ea - eb - k) (decide (a * 2 ^ k % b ≠ 0))

/-- The exact quotient (06 R129, R135). -/
def numDiv : Num → Num → Num × FpFlags
  | .nan, _ => (.nan, noFlags)
  | _, .nan => (.nan, noFlags)
  | .inf _, .inf _ => (.nan, flagNv)
  | .inf a, .fin b _ _ _ => (.inf (a != b), noFlags)
  | .fin a _ _ _, .inf b => (.fin (a != b) 0 0 false, noFlags)
  | .fin a m e _, .fin b n g _ =>
    if n = 0 then (if m = 0 then (.nan, flagNv) else (.inf (a != b), noFlags))
    else if m = 0 then (.fin (a != b) 0 0 false, noFlags)
    else (numQuot (a != b) m e n g, noFlags)

/-- 1/a (09 R214). -/
def numRcp : Num → Num × FpFlags
  | .nan => (.nan, noFlags)
  | .inf s => (.fin s 0 0 false, noFlags)
  | .fin s m e _ => if m = 0 then (.inf s, noFlags) else (numQuot s 1 0 m e, noFlags)

/-- √a (09 R214). -/
def numSqrt : Num → Num × FpFlags
  | .nan => (.nan, noFlags)
  | .inf s => if s then (.nan, flagNv) else (.inf false, noFlags)
  | .fin s m e t =>
    if m = 0 then (.fin s 0 0 false, noFlags)
    else if s then (.nan, flagNv)
    else
      let sh := 320 + (e % 2).toNat
      let x := m * 2 ^ sh
      let r := isqrt x
      (.fin false r ((e - sh) / 2) (t || decide (r * r ≠ x)), noFlags)

/-- 1/√a (09 R214). -/
def numRsqrt : Num → Num × FpFlags
  | .nan => (.nan, noFlags)
  | .inf s => if s then (.nan, flagNv) else (.fin false 0 0 false, noFlags)
  | .fin s m e _ =>
    if m = 0 then (.inf s, noFlags)
    else if s then (.nan, flagNv)
    else
      let m' := if e % 2 = 0 then m else 2 * m
      let e' := if e % 2 = 0 then e else e - 1
      let j := 160 + bitLen m'
      let r := isqrt (2 ^ (2 * j) / m')
      (.fin false r (-(e' / 2) - j) (decide (r * r * m' ≠ 2 ^ (2 * j))), noFlags)

/-- Terms of the exponential series of `x / 2 ^ p` below 1, each scaled by `2 ^ p`: their sum and number. -/
def expTerms (p x : Nat) : Nat → Nat → Nat → Nat → Nat × Nat
  | 0, _, k, acc => (acc, k)
  | f + 1, t, k, acc => if t = 0 then (acc, k) else expTerms p x f (t * x / (2 ^ p * (k + 1))) (k + 1) (acc + t)

/-- Bounds of `exp (x / 2 ^ p) * 2 ^ p` for an argument between `x` and `x + dx`, below 1. -/
def expBounds (p x dx : Nat) : Nat × Nat :=
  let r := expTerms p x (p + 8) (2 ^ p) 0 0
  (r.1, r.1 + 2 * r.2 + 8 + 8 * dx)

/-- Terms of atanh of `1 / d` style series: `2 * Σ z^(2k+1)/(2k+1)`, all scaled by `2 ^ p`. -/
def atanhTerms (p z2 : Nat) : Nat → Nat → Nat → Nat → Nat × Nat
  | 0, _, k, acc => (acc, k)
  | f + 1, t, k, acc =>
    if t = 0 then (acc, k) else atanhTerms p z2 f (t * z2 / 2 ^ p) (k + 1) (acc + 2 * t / (2 * k + 1))

/-- Bounds of `ln ((1 + z) / (1 - z)) * 2 ^ p` for `z` between `zn / 2 ^ p` and one more, at most 1/3. -/
def atanhBounds (p zn : Nat) : Nat × Nat :=
  let r := atanhTerms p (zn * zn / 2 ^ p) (p + 8) zn 0 0
  (r.1, r.1 + 8 * r.2 + 32)

/-- Bounds of `ln 2 * 2 ^ p`. -/
def ln2Bounds (p : Nat) : Nat × Nat := atanhBounds p (2 ^ p / 3)

/-- A value between two bounds scaled by `2 ^ p`, if they agree above bit `d`. -/
def agreeAt (lo hi d : Nat) (e : Int) : Option Num :=
  if lo / 2 ^ d = hi / 2 ^ d then some (.fin false (lo / 2 ^ d) (e + d) true) else none

/-- Tries growing precisions; past the last the magnitude is a free value near the lower bound (log entry 9). -/
def tryPrec (f : Nat → Nat × Nat × Int) : List Nat → Nat → Num
  | [], key => let r := f 256; .fin false (r.1 / 2 ^ 96 + Config.freeMag key % 2) (r.2.2 + 96) true
  | p :: ps, key => let r := f p; (agreeAt r.1 r.2.1 (p / 3) r.2.2).getD (tryPrec f ps key)

/-- The precisions tried. -/
def precs : List Nat := [320, 640, 1280, 2560]

/-- Bounds of `exp y` for `y = n * 2 ^ e ≥ 0`, as integers times `2 ^ (third)`. -/
def expPos (n : Nat) (e : Int) (p : Nat) : Nat × Nat × Int :=
  let y := (cutAt n (e + p) 0).1
  let l := ln2Bounds (p + 16)
  let k := y * 2 ^ 16 / l.2
  let lo := y - k * l.2 / 2 ^ 16 - 1
  let hi := y + 1 - k * l.1 / 2 ^ 16
  let b := expBounds p lo (hi - lo)
  (b.1, b.2, (k : Int) - p)

/-- 2^a (09 R214). -/
def numExp2 : Num → Num × FpFlags
  | .nan => (.nan, noFlags)
  | .inf s => (if s then numZero else .inf false, noFlags)
  | .fin s m e _ =>
    if m = 0 then (.fin false 1 0 false, noFlags)
    else if (bitLen m : Int) + e > 20 then (.fin false 1 (if s then -(2 ^ 20 : Nat) else (2 ^ 20 : Nat)) true, noFlags)
    else
      let x : Int := if s then -(m : Int) else m
      if 0 ≤ e then (.fin false 1 (x * 2 ^ e.toNat) false, noFlags)
      else
        let d := (-e).toNat
        let i := x / (2 ^ d : Nat)
        let fr := (x % (2 ^ d : Nat)).toNat
        if fr = 0 then (.fin false 1 i false, noFlags)
        else
          let go (p : Nat) : Nat × Nat × Int :=
            let l := ln2Bounds (p + 16)
            let lo := fr * l.1 / 2 ^ (d + 16)
            let hi := fr * l.2 / 2 ^ (d + 16) + 1
            let b := expBounds p lo (hi - lo)
            (b.1, b.2, i - p)
          if 300 < d then (if s then .fin false (2 ^ 201 - 1) (i - 200) true else .fin false (2 ^ 200) (i - 200) true, noFlags)
          else (tryPrec go precs (fr + 2 ^ d), noFlags)

/-- log2 a (09 R214). -/
def numLog2 : Num → Num × FpFlags
  | .nan => (.nan, noFlags)
  | .inf s => if s then (.nan, flagNv) else (.inf false, noFlags)
  | .fin s m e _ =>
    if m = 0 then (.inf true, noFlags)
    else if s then (.nan, flagNv)
    else
      let k : Int := (bitLen m : Int) - 1
      let i := k + e
      if m = 2 ^ k.toNat then (numInt i, noFlags)
      else
        -- x = m / 2^k lies between 1 and 2; ln x = 2 atanh ((x - 1) / (x + 1))
        let go (p : Nat) : Nat × Nat × Int :=
          let one := 2 ^ k.toNat
          let z := (m - one) * 2 ^ p / (m + one)
          let a := atanhBounds p z
          let l := ln2Bounds p
          let lo : Int := i * (2 ^ p : Nat) + (a.1 * 2 ^ p / l.2 : Nat)
          let hi : Int := i * (2 ^ p : Nat) + (a.2 * 2 ^ p / l.1 + 1 : Nat)
          if 0 ≤ i then (lo.toNat, hi.toNat, -(p : Int)) else ((-hi).toNat, (-lo).toNat, -(p : Int))
        let r := tryPrec go precs (m + 2 ^ (bitLen m + 8) * (i + 2 ^ 20).toNat)
        (if 0 ≤ i then r else numNeg r, noFlags)

/-- e^a (15 R343). -/
def numExp : Num → Num × FpFlags
  | .nan => (.nan, noFlags)
  | .inf s => (if s then numZero else .inf false, noFlags)
  | .fin s m e _ =>
    if m = 0 then (.fin false 1 0 false, noFlags)
    else if (bitLen m : Int) + e > 12 then (.fin false 1 (if s then -8192 else 8192) true, noFlags)
    else
      let go (p : Nat) : Nat × Nat × Int :=
        let b := expPos m e p
        if s then (2 ^ (2 * p) / b.2.1, 2 ^ (2 * p) / b.1 + 1, -b.2.2 - 2 * p) else b
      (tryPrec go precs (m + 2 ^ (bitLen m + 8) * (e + 2 ^ 12).toNat), noFlags)

/-- Bounds of `atan (1 / q) * 2 ^ p`, by its alternating series. -/
def atanInv (p q : Nat) : Nat × Nat :=
  let n := p / 2 + 8
  let s : Int := (List.range n).foldl (fun (a : Int) k =>
    let t : Nat := 2 ^ p / (q ^ (2 * k + 1) * (2 * k + 1))
    if k % 2 = 0 then a + t else a - t) 0
  ((s - n - 1).toNat, (s + n + 1).toNat)

/-- Bounds of `π * 2 ^ p`, by Machin's formula. -/
def piBounds (p : Nat) : Nat × Nat :=
  let a := atanInv p 5
  let b := atanInv p 239
  (16 * a.1 - 4 * b.2, 16 * a.2 - 4 * b.1)

/-- Bounds of the series x + x³/3 + x⁵/15 + …, scaled by `2 ^ p`, from the bounds of a term on; the terms left at the end
shrink by half or more. -/
def gaussTerms (p x2 : Nat) : Nat → Nat → Nat → Nat → Nat → Nat → Nat × Nat
  | 0, _, _, th, lo, hi => (lo, hi + 2 * th)
  | f + 1, k, tl, th, lo, hi =>
    gaussTerms p x2 f (k + 1) (tl * x2 / (2 ^ p * (2 * k + 3))) (th * (x2 + 1) / (2 ^ p * (2 * k + 3)) + 1) (lo + tl) (hi + th)

/-- x (1 + erf (x / √2)) / 2 (15 R343), as x Φ(x) with Φ(x) = 1/2 + φ(x) (x + x³/3 + x⁵/15 + …). -/
def numGelu : Num → Num × FpFlags
  | .nan => (.nan, noFlags)
  | .inf s => (if s then .fin true 0 0 false else .inf false, noFlags)
  | .fin s m e _ =>
    let top := (bitLen m : Int) + e
    if m = 0 then (.fin s 0 0 false, noFlags)
    else if top > 4 then (if s then .fin true 0 (-180) true else .fin false (m * 2 ^ 100 - 1) (e - 100) true, noFlags)
    else if top < -110 then (if s then .fin true (m * 2 ^ 80 - 1) (e - 81) true else .fin false (m * 2 ^ 80) (e - 81) true, noFlags)
    else
      let go (p : Nat) : Nat × Nat × Int :=
        let x := (cutAt m (e + p) 0).1
        let x2 := x * x / 2 ^ p
        let ser := gaussTerms p x2 (600 + p) 0 x (x + 1) 0 0
        let ex := expPos (m * m) (2 * e - 1) p
        let k := (ex.2.2 + p).toNat
        let el := 2 ^ (2 * p) / (ex.2.1 * 2 ^ k)
        let eh := 2 ^ (2 * p) / (ex.1 * 2 ^ k) + 1
        let pb := piBounds p
        let rl := isqrt (2 * pb.1 * 2 ^ p)
        let rh := isqrt (2 * pb.2 * 2 ^ p) + 1
        let fl := el * ser.1 / rh
        let fh := eh * ser.2 / rl + 1
        let half := 2 ^ (p - 1)
        if s then (m * (half - fh), m * (half - fl), e - p) else (m * (half + fl), m * (half + fh), e - p)
      let r := tryPrec go precs (m + 2 ^ (bitLen m + 8) * (e + 2 ^ 12).toNat)
      (if s then numNeg r else r, noFlags)

/-- tanh a (09 R214). -/
def numTanh : Num → Num × FpFlags
  | .nan => (.nan, noFlags)
  | .inf s => (.fin s 1 0 false, noFlags)
  | .fin s m e _ =>
    let top := (bitLen m : Int) + e
    if m = 0 then (.fin s 0 0 false, noFlags)
    else if top > 6 then (.fin s (2 ^ 120 - 1) (-120) true, noFlags)
    else if top < -60 then (.fin s (m * 2 ^ 80 - 1) (e - 80) true, noFlags)
    else
      let go (p : Nat) : Nat × Nat × Int :=
        let b := expPos m (e + 1) p
        -- E = b * 2^third; tanh = (E - 1) / (E + 1)
        let k := (b.2.2 + p).toNat
        let one := 2 ^ p
        let elo := b.1 * 2 ^ k
        let ehi := b.2.1 * 2 ^ k
        ((elo - one) * 2 ^ p / (elo + one), (ehi - one) * 2 ^ p / (ehi + one) + 1, -(p : Int))
      let r := tryPrec go precs (m + 2 ^ (bitLen m + 8) * (e + 2 ^ 12).toNat)
      (if s then numNeg r else r, noFlags)

end Sys2Proof.Machine
end

