-- ==== Sys2Proof/Machine/Flags.lean ====
section
/-! DEFINITION. Scalar floating arithmetic with every flag it sets (06 R129 to R138; 07 R168, R169). -/

namespace Sys2Proof.Machine

open Sys2Proof

/-- What a floating operation takes from its control word and FPCTL (07 R168, 06 R129 to R131). -/
structure FpCtx where
  fmt : Fmt
  mode : Rnd
  fzi : Bool
  fzo : Bool
  sat : Bool
  draw : Nat
deriving DecidableEq, Repr

/-- The context of a scalar operation: rsr draws with the bundle's pc as counter (07 R169, 06 R130). -/
def scalarFpCtx (s : State) (tile : Nat) (b : Bundle) (imm : BitVec 17) : FpCtx :=
  let ctl := (regRd (coreGet s tile) keyFpctl).v
  { fmt := fmtOf (ctlFmt imm), mode := rndOf (ctlRnd imm) (fpctlRm ctl), fzi := imm.getLsbD 5, fzo := imm.getLsbD 4,
    sat := imm.getLsbD 3, draw := rsrDraw ctl (BitVec.ofNat 64 b.pc) }

/-- The rounding of a context into its format from the given source formats. -/
def ctxRnd (c : FpCtx) (srcs : List Fmt) : RndCtl := ⟨c.mode, c.fzo, c.sat, isNarrow c.fmt srcs, c.draw⟩

/-- Rounds an exact result and joins the flags raised on the way. -/
def finish (c : FpCtx) (srcs : List Fmt) (r : Num × FpFlags) : Nat × FpFlags :=
  let x := roundTo c.fmt (ctxRnd c srcs) r.1
  (x.1, orFlags r.2 x.2)

/-- fadd (07 R169). -/
def fpAdd (c : FpCtx) (a b : Nat) : Nat × FpFlags :=
  finish c [c.fmt] (numAdd c.mode (numIn c.fmt c.fzi a) (numIn c.fmt c.fzi b))

/-- fsub (07 R169). -/
def fpSub (c : FpCtx) (a b : Nat) : Nat × FpFlags :=
  finish c [c.fmt] (numAdd c.mode (numIn c.fmt c.fzi a) (numNeg (numIn c.fmt c.fzi b)))

/-- fmul (07 R169). -/
def fpMul (c : FpCtx) (a b : Nat) : Nat × FpFlags :=
  finish c [c.fmt] (numMul (numIn c.fmt c.fzi a) (numIn c.fmt c.fzi b))

/-- ffma (07 R169). -/
def fpFma (c : FpCtx) (a b d : Nat) : Nat × FpFlags :=
  finish c [c.fmt] (numFma c.mode (numIn c.fmt c.fzi a) (numIn c.fmt c.fzi b) (numIn c.fmt c.fzi d))

/-- A value of the format that is stored without rounding. -/
def exactTo (f : Fmt) (v : Num) : Nat := (roundTo f ctlRne v).1

/-- fmin: no flag (06 R136). -/
def fpMin (c : FpCtx) (a b : Nat) : Nat × FpFlags :=
  (exactTo c.fmt (numMin (numIn c.fmt c.fzi a) (numIn c.fmt c.fzi b)), noFlags)

/-- fmax: no flag (06 R136). -/
def fpMax (c : FpCtx) (a b : Nat) : Nat × FpFlags :=
  (exactTo c.fmt (numMax (numIn c.fmt c.fzi a) (numIn c.fmt c.fzi b)), noFlags)

/-- fcmp: no flag (07 R169). -/
def fpCmp (cond : Nat) (c : FpCtx) (a b : Nat) : Nat × FpFlags :=
  (boolNat (numCmp cond (numIn c.fmt c.fzi a) (numIn c.fmt c.fzi b)), noFlags)

/-- fcvt: an integer result is held extended to 64 bits (06 R125, R134; 07 R169), though 07 R168 writes results zero-extended
(DEDUCED, log entry 74). -/
def fpCvt (c : FpCtx) (src : Fmt) (a : Nat) : Nat × FpFlags :=
  let r := convert c.fmt src (ctxRnd c [src]) c.fzi a
  (if fmtIsI c.fmt then wrapInt 64 (signedNat (fmtBits c.fmt) r.1) else r.1, r.2)

end Sys2Proof.Machine
end

