-- ==== Sys2Proof/Machine/Drain.lean ====
section
/-! DEFINITION. Drain programs: side regions, the micro-instructions over one row, the stores and adds of a row, faults and
the restart state (14 R315 to R334). -/

namespace Sys2Proof.Machine

open Sys2Proof

/-- Formats that a side region allows (14 R318). -/
def dnAllowed (reg : Nat) (f : Fmt) : Bool :=
  match reg with
  | 16 | 17 | 18 => [Fmt.f32, .f16, .bf16, .e4m3, .e5m2, .e2m1].contains f
  | 22 => [Fmt.f32, .f16, .bf16].contains f
  | 21 => decide (f = .f32)
  | _ => !([Fmt.i64, .n64, .f64, .e8m0] : List Fmt).contains f

/-- The region of a side register. -/
def dnRegion (c : Cmd) (reg : Nat) : Region := regionOf (BitVec.ofNat 64 (cmdReg c reg))

/-- The format of a side register. -/
def dnFmt (c : Cmd) (reg : Nat) : Fmt := fmtOf (dnRegion c reg).fmt

/-- Row pitch of a two-dimensional side region (14 R317). -/
def dnPitch (c : Cmd) (reg : Nat) : Nat :=
  match reg with
  | 18 => natBits (cmdReg c 23) 0 16
  | 19 => natBits (cmdReg c 23) 16 16
  | 20 => natBits (cmdReg c 23) 32 16
  | _ => 0

/-- Element index of row `i` and index `j` in a side region (14 R318). -/
def dnIdx (c : Cmd) (reg i j : Nat) : Int :=
  let st := (dnRegion c reg).stride
  match reg with
  | 16 | 22 => (i : Int) * st
  | 17 | 21 => (j : Int) * st
  | _ => (i : Int) * dnPitch c reg + (j : Int) * st

/-- The access to an element of a side region, checked (14 R318). -/
def dnAt (t : Tile) (c : Cmd) (reg i j : Nat) : DnRes DnUse :=
  let r := dnRegion c reg
  let f := dnFmt c reg
  let col := if reg = 17 ∨ 18 ≤ reg ∧ reg ≤ 20 then j else 0
  let off : Int := r.base + dnIdx c reg i j * (fmtBits f : Int) / 8
  let n := ceilDiv (fmtBits f) 8
  if r.rsv || r.chk || r.orel || r.circ || !dnAllowed reg f then .error (dnBad causeDrainRegion reg col 0)
  else if r.base % 64 ≠ 0 then .error (dnBad causeAlignment reg col r.base)
  else if off < 0 ∨ (scratchSize t : Int) < off + n then .error (dnBad causeScratchBound reg col off)
  else .ok ⟨reg, col, off.toNat, n⟩

/-- The pattern that an access reads; the nibble of an E2M1 element by its index's parity (06 R124). -/
def dnPat (t : Tile) (f : Fmt) (idx : Int) (u : DnUse) : Nat :=
  let w := memNat t.pool u.off u.n
  if fmtBits f = 4 then natBits w (if idx % 2 = 0 then 0 else 4) 4 else w

/-- Row `i`, column `j` of a side region, as its pattern. -/
def dnElem (t : Tile) (c : Cmd) (reg i j : Nat) : Nat :=
  match dnAt t c reg i j with
  | .ok u => dnPat t (dnFmt c reg) (dnIdx c reg i j) u
  | .error _ => 0

/-- The check of DQ at the first row that uses dstq (14 R327). -/
def dqCheck (c : Cmd) : DnRes (List DnUse) :=
  let w := cmdReg c 30
  if natBits w 24 10 ≠ 0 ∨ natBits w 8 8 ≠ 0 ∨ dqRps c = 7 then .error (dnBad causeDrainRegion 30 0 0)
  else if dqBase c % 256 ≠ 0 then .error (dnBad causeAlignment 30 0 (dqBase c))
  else .ok []

/-- The side accesses of row `i` that one micro-instruction makes, reads (`wr` false) or stores (14 R318, R330). -/
def dnUsesOf (t : Tile) (c : Cmd) (i w : Nat) (wr : Bool) : DnRes (List DnUse) :=
  let row (reg : Nat) := dnAll ((List.range 64).map fun j => dnAt t c reg i j)
  match dnOp w, wr with
  | 0x08, false => dnAll [dnAt t c 16 i 0]
  | 0x0B, false => row 18
  | 0x0D, true => if natBit w 7 then dnAll [dnAt t c 22 i 0] else .ok []
  | 0x10, true => row (if natBit w 20 then 20 else 19)
  | 0x11, true => dqCheck c
  | _, _ => .ok []

/-- The side accesses of row `i`; the tables of the first row come first (14 R322, R330). -/
def dnUses (t : Tile) (c : Cmd) (prog : List Nat) (i : Nat) (first wr : Bool) : DnRes (List DnUse) :=
  let tables : List (DnRes (List DnUse)) := if first && !wr then
      (if dnHas prog 0x09 then [dnAll ((List.range 64).map fun j => dnAt t c 17 i j)] else [])
        ++ (if dnHas prog 0x07 then [dnAll ((List.range 256).map fun j => dnAt t c 21 i j)] else [])
    else []
  match dnAll (tables ++ prog.map fun w => dnUsesOf t c i w wr) with
  | .ok l => .ok l.flatten
  | .error e => .error e

/-- Side registers that the program reads (14 R332). -/
def dnRegs (prog : List Nat) (rm : Nat) : List Nat :=
  let srcs := prog.flatMap fun w =>
    let op := dnOp w
    let a := if op = 0 ∨ op = 0x12 then [] else [natBits w 21 4]
    let b := if (1 ≤ op ∧ op ≤ 7) ∨ op = 0x0C ∨ op = 0x0D then [natBits w 17 4] else []
    let c := if op = 3 ∨ op = 6 ∨ op = 7 ∨ op = 0x0C then [natBits w 13 4] else []
    a ++ b ++ c
  let rnds := prog.filterMap fun w => if dnRounds (dnOp w) then some (natBits w 10 3) else none
  let sr := rnds.contains 5 || (rnds.contains 7 && decide (rm = 5))
  (List.range 16).map (16 + ·) |>.filter fun reg =>
    match reg with
    | 16 => dnHas prog 0x08
    | 17 => dnHas prog 0x09
    | 18 => dnHas prog 0x0B
    | 19 => prog.any fun w => decide (dnOp w = 0x10) && !natBit w 20
    | 20 => prog.any fun w => decide (dnOp w = 0x10) && natBit w 20
    | 21 => dnHas prog 0x07
    | 22 => prog.any fun w => decide (dnOp w = 0x0D) && natBit w 7
    | 23 => dnHas prog 0x0B || dnHas prog 0x10
    | 28 => sr || rnds.contains 7
    | 29 => sr
    | 30 => dnHas prog 0x11
    | 31 => dnHas prog 0x12
    | _ => srcs.any fun x => decide (8 ≤ x) && decide (24 + (x - 8) / 2 = reg)

/-- The first side register whose residue fails (07 R172, 14 R332). -/
def dnResidue (c : Cmd) (prog : List Nat) : Option DnBad :=
  (dnRegs prog (natBits (cmdReg c 28) 0 3)).findSome? fun reg =>
    let x := mapGet c.regs reg (rvOf 0)
    if resBad x then some ⟨trapOf causeResidue, reg, 0, 0⟩ else none

/-- An uncorrectable codeword under the accumulator row or a side read (14 R332, 19 R430). -/
def dnPool (s : State) (tile a i : Nat) (l : List DnUse) : Option DnBad :=
  if poolSound s tile then none
  else
    let acc := (List.range 64).findSome? fun j =>
      let off := accOff (tileGet s tile) a i + 4 * j
      (poolReadTrap s tile off 4).map fun x => DnBad.mk (engTrapOf x) 31 j off
    acc.or (l.findSome? fun u => (poolReadTrap s tile u.off u.n).map fun x => ⟨engTrapOf x, u.reg, u.col, u.off⟩)

/-- What a row's program works on: working registers, row scale, checksum, stores, signals, flags (14 R315, R323, R325). -/
structure DnSt where
  v : List (List Nat)
  rs : Nat
  mx : Option Nat
  sum : Word
  outs : List DrainOut
  sigs : List Nat
  flags : FpFlags
deriving DecidableEq, Repr

/-- Places of the buffers of DBC and DTB in a run's data. -/
def dnDbc : Nat := 0x10000
def dnDtb : Nat := 0x20000

/-- A source in lane `j` (14 R316). -/
def dnSrc (c : Cmd) (x : DnSt) (code j : Nat) : Nat :=
  if code < 4 then (x.v.getD code []).getD j 0
  else if code < 8 then 0
  else natBits (cmdReg c (24 + (code - 8) / 2)) (32 * (code % 2)) 32

/-- The rounding of a micro-instruction in lane `j` of row `i` (14 R321). -/
def dnCtl (c : Cmd) (i j w : Nat) (sat narrow : Bool) : RndCtl :=
  let dsr := BitVec.ofNat 64 (cmdReg c 28)
  ⟨rndOf (natBits w 10 3) (natBits (cmdReg c 28) 0 3), natBit w 8, sat, narrow,
   rsrDraw dsr (BitVec.ofNat 64 (cmdReg c 29 + 64 * i + j))⟩

/-- A lane-wise micro-instruction: each lane's pattern and flags go to register d. -/
def dnLanes (x : DnSt) (w : Nat) (f : Nat → Nat × FpFlags) : DnSt :=
  let l := (List.range 64).map f
  { x with v := listSet x.v (natBits w 25 2) (l.map (·.1)), flags := l.foldl (fun a y => orFlags a y.2) x.flags }

/-- An arithmetic micro-instruction: an exact result, rounded into FP32 (14 R320, R321). -/
def dnArith (c : Cmd) (i : Nat) (x : DnSt) (w : Nat) (f : Nat → Num × FpFlags) : DnSt :=
  dnLanes x w fun j =>
    let y := f j
    let z := roundTo .f32 (dnCtl c i j w true false) y.1
    (z.1, orFlags y.2 z.2)

/-- The row's largest magnitude: NaN lanes are ignored (14 R323). -/
def dnRowMax (c : Cmd) (x : DnSt) (code : Nat) : Num :=
  (List.range 64).foldl (fun m j => numMax m (numAbs (numOf .f32 (dnSrc c x code j)))) .nan

/-- damax (14 R323); `sat` is the unstated saturation of q's rounding. -/
def dnAmax (c : Cmd) (t : Tile) (i : Nat) (sat : Bool) (x : DnSt) (w : Nat) : DnSt :=
  let m := dnRowMax c x (natBits w 21 4)
  let b := numOf .f32 (dnSrc c x (natBits w 17 4) 0)
  let zero := match m with | .fin _ 0 _ false => true | _ => false
  let one := 0x3F800000
  let p := numDiv b m
  let q := numDiv m b
  let rs := if zero then (one, noFlags) else let y := roundTo .f32 ctlRne p.1; (y.1, orFlags p.2 y.2)
  let qv := if zero then (one, noFlags) else let y := roundTo .f32 ctlRne q.1; (y.1, orFlags q.2 y.2)
  let x1 := { x with rs := rs.1, mx := some (rs.1 * 2 ^ 32 + exactTo .f32 m), flags := orFlags x.flags (orFlags rs.2 qv.2) }
  if natBit w 7 then
    match dnAt t c 22 i 0 with
    | .ok u =>
      let f := dnFmt c 22
      let y := roundTo f { ctlRne with sat, narrow := isNarrow f [.f32] } (numOf .f32 qv.1)
      { x1 with outs := x1.outs ++ [.cells u.reg u.col u.off (leBytes u.n y.1)], flags := orFlags x1.flags y.2 }
    | .error _ => x1
  else x1

/-- The store of one lane (14 R326). -/
def dnStore (t : Tile) (c : Cmd) (reg i j pat : Nat) : List DrainOut :=
  match dnAt t c reg i j with
  | .ok u =>
    if fmtBits (dnFmt c reg) = 4 then [.nib u.reg u.col u.off (decide (dnIdx c reg i j % 2 ≠ 0)) (BitVec.ofNat 4 pat)]
    else [.cells u.reg u.col u.off (leBytes u.n pat)]
  | .error _ => []

/-- The index that dtab looks up (14 R322). -/
def dnTabIdx (t : Num) : Nat :=
  match t with
  | .nan | .inf true => 0
  | .inf false => 255
  | .fin neg m e _ => if neg then 0 else min 255 (cutAt m e 0).1

/-- One micro-instruction on row `i` (14 R320). -/
def dnExec (t : Tile) (r : Run) (i : Nat) (sat : Bool) (x : DnSt) (w : Nat) : DnSt :=
  let c := r.cmd
  let fzi := natBit w 9
  let a (j : Nat) : Num := numIn .f32 fzi (dnSrc c x (natBits w 21 4) j)
  let b (j : Nat) : Num := numIn .f32 fzi (dnSrc c x (natBits w 17 4) j)
  let d (j : Nat) : Num := numIn .f32 fzi (dnSrc c x (natBits w 13 4) j)
  let md := rndOf (natBits w 10 3) (natBits (cmdReg c 28) 0 3)
  let side (y : Nat → Num) : DnSt := dnArith c i x w fun j => if natBit w 7 then numMul (a j) (y j) else numAdd md (a j) (y j)
  match dnOp w with
  | 0x01 => dnArith c i x w fun j => numMul (a j) (b j)
  | 0x02 => dnArith c i x w fun j => numAdd md (a j) (b j)
  | 0x03 => dnArith c i x w fun j => numFma md (a j) (b j) (d j)
  | 0x04 => dnLanes x w fun j => (exactTo .f32 (numMax (a j) (b j)), noFlags)
  | 0x05 => dnLanes x w fun j => (exactTo .f32 (numMin (a j) (b j)), noFlags)
  | 0x06 => dnLanes x w fun j => (exactTo .f32 (numMin (numMax (a j) (b j)) (d j)), noFlags)
  | 0x07 => dnLanes x w fun j =>
      let y := roundTo .f32 ctlRne (numFma .rne (a j) (b j) (d j)).1
      (memNat r.data (dnDtb + 4 * dnTabIdx (numOf .f32 y.1)) 4, noFlags)
  | 0x08 => let y := numOf (dnFmt c 16) (dnElem t c 16 i 0); side fun _ => y
  | 0x09 => side fun j => numOf (dnFmt c 17) (memNat r.data (dnDbc + 4 * j) 4)
  | 0x0A => dnArith c i x w fun j => numMul (a j) (numIn .f32 fzi x.rs)
  | 0x0B => dnArith c i x w fun j => numAdd md (a j) (numOf (dnFmt c 18) (dnElem t c 18 i j))
  | 0x0C => dnLanes x w fun j =>
      (if natBits (dnSrc c x (natBits w 21 4) j) 0 31 ≠ 0 then dnSrc c x (natBits w 17 4) j else dnSrc c x (natBits w 13 4) j, noFlags)
  | 0x0D => dnAmax c t i sat x w
  | 0x0E =>
    let f := fmtOf (natBits w 17 4)
    let src : Fmt := if natBit w 16 then .i32 else .f32
    dnLanes x w fun j => convert f src (dnCtl c i j w (natBit w 7) (isNarrow f [src])) fzi (dnSrc c x (natBits w 21 4) j)
  | 0x0F => { x with sum := (List.range 64).foldl (fun k j => rotl64 k 5 ^^^ BitVec.ofNat 64 (dnSrc c x (natBits w 21 4) j)) x.sum }
  | 0x10 => { x with outs := x.outs ++ (List.range 64).flatMap fun j => dnStore t c (if natBit w 20 then 20 else 19) i j (dnSrc c x (natBits w 21 4) j) }
  | 0x11 => { x with outs := x.outs ++ [.ring (2 ^ natBits w 19 2) ((List.range 64).map fun j => dnSrc c x (natBits w 21 4) j)] }
  | 0x12 => { x with sigs := x.sigs ++ [natBits w 0 3] }
  | _ => x

/-- The row that a program makes of accumulator row `i` (14 R315). -/
def dnRow (t : Tile) (r : Run) (prog : List Nat) (i : Nat) (sat : Bool) : RowOut :=
  let acc := (List.range 64).map fun j => memNat t.pool (accOff t (axAcc r.cmd) i + 4 * j) 4
  let zero := List.replicate 64 0
  let sum := match r.rows.getLast? with | some y => y.sum | none => ra r akSum
  let x := prog.foldl (dnExec t r i sat) ⟨[acc, zero, zero, zero], 0x3F800000, none, BitVec.ofNat 64 sum, [], [], noFlags⟩
  ⟨i, x.outs, x.sigs, x.sum.toNat, x.mx, flagBits x.flags, ra r akClk⟩

/-- The drain stage's command, or the oldest that waits for the free stage (13 R301). -/
def dnHolder (x : Engine) : Option Run :=
  (x.runs.find? fun r => decide (ra r akDrain = 1)).or
    (x.runs.find? fun r => decide (2 ≤ r.phase) && axDoc r.cmd && decide (ra r akDrain = 0))

/-- The row may be read: it is final, and no earlier writing command is still to begin on the tile (13 R306). -/
def dnRowFinal (t : Tile) (r : Run) : Bool :=
  decide (r.unit < (mapGet t.wmarks (axAcc r.cmd) wmarkReset).wf)
    && (mxRuns t).all fun x => !(axWrites x.2.cmd && decide (x.2.phase = 0) && decide (axAcc x.2.cmd = axAcc r.cmd)
        && decide (x.2.cmd.agent < r.cmd.agent))

/-- The drain that can read its next row: one in each step, with at most seven read and not stored (13 R304, R307; 14 R330). -/
def dnCanRead (s : State) (tile e : Nat) : Option Run :=
  if mxOpen s tile e then
    match dnHolder (engGet (tileGet s tile) e) with
    | some r =>
      if decide (r.unit < 64) && decide (r.rows.length < 7) && decide (ra r akRowClk ≤ ra r akClk) && !dnOwes r
        && forkReady s r.cmd.fork && dnRowFinal (tileGet s tile) r then some r else none
    | none => none
  else none

/-- The drain starts: the restart state is cleared, the checksum is 0, ws is 0, and it happens after the drain before it
(13 R306; 14 R325, R331; 17 R394). -/
def dnBegin (s : State) (tile e : Nat) (r : Run) : State :=
  let a := r.cmd.agent
  let x := agentOf s a
  let s1 := agentPut s a { x with vc := vcJoin x.vc (engGet (tileGet s tile) e).after }
  let ord := s1.nextOrder + 1
  let s2 := tilePut s1 tile (wmarkMap (tileGet s1 tile) (axAcc r.cmd) fun w => { w with ws := 0, drain := ord })
  engMap { s2 with nextOrder := ord } tile e fun x =>
    { progSync (runFor x a fun r => raSet (raSet r akFirst ord) akDrain 1) with
      regs := mapPut (mapPut x.regs 32 (rvOf 0)) 33 (rvOf 0) }

/-- The buffers of DBC and DTB (14 R322, R330). -/
def dnBuffers (t : Tile) (c : Cmd) (prog : List Nat) (i : Nat) (data : Mem) : Mem :=
  let d1 := if dnHas prog 0x09 then (List.range 64).foldl (fun m j => memPutNat m (dnDbc + 4 * j) 4 (dnElem t c 17 i j)) data else data
  if dnHas prog 0x07 then (List.range 256).foldl (fun m k => memPutNat m (dnDtb + 4 * k) 4 (dnElem t c 21 i k)) d1 else d1

/-- The checks of row `i` before its program runs (14 R332). -/
def dnChecks (s : State) (tile : Nat) (r : Run) (prog : List Nat) (first : Bool) : DnRes State :=
  let t := tileGet s tile
  let i := r.unit
  match if first then dnResidue r.cmd prog else none with
  | some b => .error b
  | none =>
    match dnUses t r.cmd prog i first false, dnUses t r.cmd prog i first true with
    | .error b, _ => .error b
    | .ok _, .error b => .error b
    | .ok l, .ok _ =>
      match dnCheck s tile r.cmd.agent false l with
      | .error b => .error b
      | .ok s1 =>
        match dnPool s1 tile (axAcc r.cmd) i l with
        | some b => .error b
        | none => .ok s1

/-- DRAIN_ROW: the drain reads row i and runs its program over 64 lanes (14 R315, R330). A fault waits until the rows below
are stored (14 R332). -/
def drainRow (tile e : Nat) (s : State) : State :=
  match dnCanRead s tile e with
  | none => s
  | some r0 =>
    let first := decide (ra r0 akFirst = 0)
    let s1 := if first then dnBegin s tile e r0 else s
    let r := (runOfAgent s1 tile e r0.cmd.agent).getD r0
    let i := r.unit
    let prog := axProg (tileGet s1 tile) r.cmd
    let fresh := decide (ra r akBuf = 0)
    match dnChecks s1 tile r prog fresh with
    | .error b => if r.rows.isEmpty then dnFault s1 tile e r i b else s1
    | .ok s2 =>
      let t := tileGet s2 tile
      let r := if fresh then raSet { r with data := dnBuffers t r.cmd prog i r.data } akBuf 1 else r
      let y := dnRow t r prog i (Config.freeBool s.free)
      mxRun { s2 with free := s2.free + 1 } tile e r.cmd.agent fun _ => { raSet r akRowClk (ra r akClk + 1) with unit := i + 1, rows := r.rows ++ [y] }

/-- The drain whose oldest row waits for its ring. -/
def dqWaiting (s : State) (tile e : Nat) : Option (Run × Nat) :=
  let t := tileGet s tile
  if mxOpen s tile e then
    match (engGet t e).runs.find? fun r => decide (ra r akDrain = 1) with
    | some r => (match r.rows with
      | y :: _ => if dqWaits t r y.row then some (r, y.row) else none
      | [] => none)
    | none => none
  else none

/-- DSTQ_WAIT_END: the test acquires the released reel at .tile (14 R327). -/
def dstqWaitEnd (tile e : Nat) (s : State) : State :=
  match dqWaiting s tile e with
  | none => s
  | some (r, i) =>
    if dqRoom (tileGet s tile) r.cmd then dqGo s tile e r i else s

/-- The drain with a row to store, six steps after it was read, or with adds that a fault has left owed (14 R329, R332). -/
def dnCanStore (s : State) (tile e : Nat) : Option Run :=
  let t := tileGet s tile
  if mxOpen s tile e then
    match (engGet t e).runs.find? fun r => decide (ra r akDrain = 1) with
    | some r =>
      if dnOwes r then some r
      else (match r.rows with
        | y :: _ => if dqWaits t r y.row || decide (ra r akClk < y.clk + 6) then none else some r
        | [] => none)
    | none => none
  else none

/-- DRAIN_ROW_STORE: the end of the oldest row read (14 R329), or the adds owed (14 R332). -/
def drainStore (tile e : Nat) (s : State) : State :=
  match dnCanStore s tile e with
  | none => s
  | some r =>
    if dnOwes r then dnAdds tile e r.cmd.agent 20 s
    else match r.rows with
      | y :: _ => dnEndRow s tile e r y
      | [] => s

/-- A drain reads a row (14 R315). -/
def execDrainRow (tile : BitVec 8) (mx : BitVec 1) (s : State) : Out := .next (drainRow tile.toNat mx.toNat s)

/-- A dstq ring has room (14 R327). -/
def execDstqWaitEnd (tile : BitVec 8) (mx : BitVec 1) (s : State) : Out := .next (dstqWaitEnd tile.toNat mx.toNat s)

/-- A row's stores are performed (14 R329). -/
def execDrainRowStore (tile : BitVec 8) (mx : BitVec 1) (s : State) : Out := .next (drainStore tile.toNat mx.toNat s)

end Sys2Proof.Machine
end

