-- ==== Sys2Proof/Machine/Special.lean ====
section
/-! DEFINITION. The special-function, gather, sort, activation-list and quantiser engines: acceptance, units, completion,
abort (15 R335 to R355). -/

namespace Sys2Proof.Machine

open Sys2Proof

/-- Fields of CTL (15 R336). -/
def spCtl (c : Cmd) : Nat := cmdReg c 5
def spOpt (c : Cmd) : Bool := natBit (spCtl c) 32
def spScope (c : Cmd) : Nat := natBits (spCtl c) 16 3
def spRnd (c : Cmd) : Nat := natBits (spCtl c) 13 3
def spFzi (c : Cmd) : Bool := natBit (spCtl c) 12
def spFzo (c : Cmd) : Bool := natBit (spCtl c) 11
def spSat (c : Cmd) : Bool := natBit (spCtl c) 10

/-- Fields of PAR and FIRST (15 R337). -/
def spPar (c : Cmd) (lo n : Nat) : Nat := natBits (cmdReg c 4) lo n
def spFirst (c : Cmd) : Nat := natBits (cmdReg c 10) 0 48

/-- A region register of a command, and its format. -/
def spReg (c : Cmd) (n : Nat) : Region := regionOf (BitVec.ofNat 64 (cmdReg c n))
def spFmt (c : Cmd) (n : Nat) : Fmt := fmtOf (spReg c n).fmt

/-- Byte offset of element `i` of a region (09 R200). -/
def spOff (r : Region) (i : Nat) : Int := r.base + r.stride * (i : Int) * (fmtBits (fmtOf r.fmt) : Int) / 8

/-- Bytes that an element occupies, at least one. -/
def spLen (r : Region) : Nat := ceilDiv (fmtBits (fmtOf r.fmt)) 8

/-- The piece of an element. -/
def spPiece (tile : Nat) (r : Region) (i : Nat) : Piece := .pool tile (spOff r i).toNat (spLen r)

/-- An element's pattern. -/
def spGet (t : Tile) (r : Region) (i : Nat) : Nat :=
  let w := memNat t.pool (spOff r i).toNat (spLen r)
  if fmtBits (fmtOf r.fmt) = 4 then natBits w (if r.stride * (i : Int) % 2 = 0 then 0 else 4) 4 else w

/-- The store of an element. -/
def spOut (r : Region) (i pat : Nat) : DrainOut :=
  if fmtBits (fmtOf r.fmt) = 4 then .nib 0 0 (spOff r i).toNat (decide (r.stride * (i : Int) % 2 ≠ 0)) (BitVec.ofNat 4 pat)
  else .cells 0 0 (spOff r i).toNat (leBytes (spLen r) pat)

/-- The elements of a region that a command touches: rows `lo` to `rows − 1` of `len` elements at a pitch. -/
structure SpSet where
  lo : Nat
  rows : Nat
  len : Nat
  pitch : Nat
deriving DecidableEq, Repr

/-- The first `n` elements. -/
def spRun (n : Nat) : SpSet := ⟨0, 1, n, 0⟩

/-- The elements from `lo` up to `n`. -/
def spFrom (lo n : Nat) : SpSet := if lo = 0 then spRun n else ⟨1, 2, n - lo, lo⟩

/-- No element is touched. -/
def spEmpty (x : SpSet) : Bool := decide (x.rows ≤ x.lo) || decide (x.len = 0)

/-- An element index is touched. -/
def spHas (x : SpSet) (e : Int) : Bool :=
  if e < 0 ∨ spEmpty x then false
  else
    let n := e.toNat
    let r := if x.pitch = 0 then x.lo else min (n / x.pitch) (x.rows - 1)
    decide (x.lo ≤ r) && decide (n < r * x.pitch + x.len)

/-- A byte of the pool lies in a touched element of a region. -/
def spTouches (r : Region) (x : SpSet) (b : Nat) : Bool :=
  let bits := fmtBits (fmtOf r.fmt)
  if r.stride = 0 then !spEmpty x && decide (r.base ≤ b) && decide (b < r.base + spLen r)
  else
    let d : Int := (b : Int) - r.base
    let st := r.stride
    if bits = 4 then spHas x (2 * d / st) || spHas x ((2 * d + 1) / st)
    else
      let w : Int := spLen r
      let q := d / w
      if q % st = 0 then spHas x (q / st) else false

/-- The lowest and highest byte of the touched elements. -/
def spExtent (r : Region) (x : SpSet) : Int × Int :=
  let a := spOff r (x.lo * x.pitch)
  let b := spOff r ((x.rows - 1) * x.pitch + x.len - 1)
  (min a b, max a b + spLen r - 1)

/-- Two touched sets share a byte (15 R338). -/
def spShare (r : Region) (x : SpSet) (q : Region) (y : SpSet) : Bool :=
  if spEmpty x || spEmpty y then false
  else
    let a := spExtent r x
    let b := spExtent q y
    let lo := max a.1 b.1
    let hi := min a.2 b.2
    if hi < lo then false
    else (List.range (hi - lo + 1).toNat).any fun i => spTouches r x (lo.toNat + i) && spTouches q y (lo.toNat + i)

/-- A region of a command breaks R338: its flags, count, base, formats or bounds. -/
def spRegionBad (t : Tile) (r : Region) (fmts : List Fmt) (x : SpSet) : Bool :=
  r.rsv || r.chk || r.orel || r.circ || decide (r.count = 0) || decide (r.base % 64 ≠ 0) || !fmts.contains (fmtOf r.fmt)
    || (decide (fmtOf r.fmt = .e2m1) && decide (r.stride ≠ 0) && decide (r.stride ≠ 1))
    || (!spEmpty x && (decide ((spExtent r x).1 < 0) || decide ((scratchSize t : Int) ≤ (spExtent r x).2)))

/-- A use of a region register: its number, formats, elements, and whether the command writes it. -/
structure SpUse where
  reg : Nat
  fmts : List Fmt
  set : SpSet
  wr : Bool
deriving DecidableEq, Repr

/-- Floating sources of sf0, the quantiser and its row scales. -/
def spFloats : List Fmt := [.f32, .f16, .bf16]

/-- Key formats of so0 (15 R347). -/
def spKeys : List Fmt := [.i32, .n32, .i64, .n64, .f32, .f16, .bf16]

/-- Every format a row of gs0 may have (15 R345). -/
def spRows (add : Bool) : List Fmt :=
  if add then [.f32, .bf16, .i32, .n32, .i64, .n64]
  else [.i8, .i16, .i32, .i64, .n8, .n16, .n32, .n64, .f64, .f32, .f16, .bf16, .e4m3, .e5m2, .e8m0]

/-- The table and the rows register of a gs0 command (15 R345). -/
def gsTable (c : Cmd) : Nat := if cmdCode c = 1 then 0 else 2
def gsRows (c : Cmd) : Nat := if cmdCode c = 1 then 2 else 0

/-- Parameters of gs0 (15 R337). -/
def gsNrows (c : Cmd) : Nat := spPar c 32 32
def gsWidth (c : Cmd) : Nat := spPar c 16 16
def gsPitch (c : Cmd) : Nat := spPar c 0 16

/-- Entries that alsplit works on (15 R351). -/
def alEntries (t : Tile) (c : Cmd) : Nat := min (spGet t (spReg c 0) 0) ((spReg c 0).count - 1)

/-- The elements of a list that albuild and alupd can reach: its header, and an entry for each bit of the flags (15 R349). -/
def alSpan (c : Cmd) (reg : Nat) : SpSet := spRun (min (spReg c reg).count (64 * (spReg c 0).count + 1))

/-- Buckets of alsplit. -/
def alB (c : Cmd) : Nat := spPar c 48 16

/-- Rows and length of a row of sf0 and of the quantiser's row mode. -/
def spR (c : Cmd) : Nat := spPar c 48 16
def spL (c : Cmd) : Nat := spPar c 32 16

/-- Blocks of 32 in a row of the quantiser's row mode. -/
def qzRowBlocks (c : Cmd) : Nat := spL c / 32

/-- Units of a command (15 R337). -/
def spUnits (t : Tile) (e : Nat) (c : Cmd) : Nat :=
  match e with
  | 2 => spR c
  | 3 => (spReg c 1).count
  | 4 => (match cmdCode c with
    | 1 => 1
    | 2 => ceilDiv (spReg c 0).count 4096
    | _ => ceilDiv ((spReg c 0).count + (spReg c 1).count) 4096)
  | 5 => if cmdCode c = 3 then 2 * ceilDiv (alEntries t c) 64 else (spReg c 0).count
  | _ => if spOpt c then spR c * qzRowBlocks c else ceilDiv (spReg c 0).count 32

/-- The elements of the quantiser's sources and results. -/
def qzN (c : Cmd) : Nat := if spOpt c then spR c * spL c else (spReg c 0).count

/-- The regions that a command uses (15 R342, R345, R348 to R354). -/
def spUses (t : Tile) (e : Nat) (c : Cmd) : List SpUse :=
  let f := spFirst c
  let code := cmdCode c
  let n0 := (spReg c 0).count
  let n1 := (spReg c 1).count
  match e with
  | 2 => [⟨0, spFloats, ⟨f, spR c, spL c, spPar c 16 16⟩, false⟩, ⟨2, spFloats ++ [.e4m3, .e5m2], ⟨f, spR c, spL c, spPar c 0 16⟩, true⟩]
  | 3 =>
    let add := decide (code = 3)
    let tab : List SpUse := if spOpt c then [] else [⟨gsTable c, spRows add, ⟨0, gsNrows c, gsWidth c, gsPitch c⟩, decide (code ≠ 1)⟩]
    [⟨1, [.i32, .n32, .i64, .n64], ⟨f, n1, 1, 1⟩, false⟩, ⟨gsRows c, spRows add, ⟨f, n1, gsWidth c, gsWidth c⟩, decide (code = 1)⟩] ++ tab
  | 4 =>
    let out := if code = 1 then n0 else if code = 2 then spPar c 48 16 else n0 + n1
    let src : List SpUse := if code = 3 then [⟨0, spKeys, spRun n0, false⟩, ⟨1, spKeys, spRun n1, false⟩]
      else [⟨0, spKeys, spFrom (4096 * f) n0, false⟩]
    let dst := if code = 3 then spFrom (4096 * f) out else spRun out
    src ++ [⟨2, spKeys, dst, true⟩, ⟨3, [.n32, .n64], dst, true⟩]
  | 5 => (match code with
    | 1 => [⟨0, [.n64], spFrom f n0, false⟩, ⟨2, [.n32], alSpan c 2, true⟩]
    | 2 => [⟨0, [.n64], spFrom f n0, false⟩, ⟨1, [.n64], spFrom f n1, false⟩, ⟨2, [.n32], alSpan c 2, true⟩, ⟨3, [.n32], alSpan c 3, true⟩]
    | _ =>
      let m := alEntries t c
      [⟨0, [.n32], spRun (m + 1), false⟩, ⟨1, [.n8, .n16], spRun m, false⟩, ⟨2, [.n32], spRun m, true⟩, ⟨3, [.n32], spRun (alB c + 1), true⟩])
  | _ =>
    let n := qzN c
    let sc := if spOpt c then spR c else ceilDiv n 32
    let scf := if spOpt c then spFloats else [Fmt.e8m0]
    let lo := if spOpt c then f / qzRowBlocks c else f
    let el (n : Nat) : SpSet := if spOpt c then ⟨lo, spR c, spL c, spL c⟩ else spFrom (32 * f) n
    let scs : SpSet := ⟨lo, sc, 1, 1⟩
    if code = 3 then [⟨0, [.e4m3, .e5m2, .e2m1], el n, false⟩, ⟨1, scf, scs, false⟩, ⟨2, spFloats, el n, true⟩]
    else [⟨0, spFloats, el n, false⟩, ⟨2, if code = 1 then [.e4m3, .e5m2] else [.e2m1], el n, true⟩, ⟨3, scf, scs, true⟩]

/-- Codes that an engine assigns (04 R89). -/
def spCodes (e : Nat) : Nat := if e = 2 then 4 else 3

/-- A field or parameter of a command that R337 and its rules do not allow. -/
def spParBad (e : Nat) (c : Cmd) : Bool :=
  let code := cmdCode c
  let par := cmdReg c 4
  match e with
  | 2 => spOpt c || decide (spR c = 0) || decide (spL c = 0) || decide (spPar c 16 16 = 0) || decide (spPar c 0 16 = 0)
  | 3 => decide (gsWidth c = 0) || decide (4096 < gsWidth c)
      || decide (spFmt c (gsTable c) ≠ spFmt c (gsRows c))
      || (if spOpt c then decide (cmdReg c (gsTable c) ≠ natBits (cmdReg c (gsTable c)) 4 4 * 16) || !(spRows (decide (code = 3))).contains (spFmt c (gsTable c))
          else decide (cmdReg c 7 ≠ 0))
  | 4 =>
    let n0 := (spReg c 0).count
    let out := if code = 1 then n0 else if code = 2 then spPar c 48 16 else n0 + (spReg c 1).count
    decide (spPar c 32 16 ≠ 0) || (decide (code ≠ 2) && decide (spPar c 48 16 ≠ 0)) || (decide (code = 1) && decide (4096 < n0))
      || (decide (code = 2) && (decide (spPar c 48 16 = 0) || decide (min n0 4096 < spPar c 48 16)))
      || (decide (code = 3) && (decide (65535 < out) || decide (spFmt c 0 ≠ spFmt c 1)))
      || decide (spFmt c 2 ≠ spFmt c 0) || decide ((spReg c 2).count < out) || decide ((spReg c 3).count < out)
  | 5 =>
    decide (spPar c 32 16 ≠ 0) || (decide (code ≠ 1) && spOpt c) || (decide (code ≠ 3) && decide (spPar c 48 16 ≠ 0))
      || (decide (code = 2) && decide ((spReg c 0).count ≠ (spReg c 1).count))
      || (decide (code = 3) && (decide (alB c = 0) || decide (256 < alB c) || decide (spPar c 0 32 ≠ 0) || decide ((spReg c 3).count < alB c + 1)))
  | _ =>
    (if spOpt c then decide (spR c = 0) || decide (spL c = 0) || decide (65504 < spL c) || decide (spL c % 32 ≠ 0) || decide (spPar c 0 32 ≠ 0)
        || decide ((spReg c 0).count < spR c * spL c)
      else decide (par ≠ 0))
      || (decide (code = 2) && decide ((spReg c 2).stride ≠ 1)) || (decide (code ≠ 3) && !spOpt c && decide ((spReg c 3).stride ≠ 1))

/-- Registers that a command does not use must be 0 (15 R338). -/
def spUnused (e : Nat) (c : Cmd) : List Nat :=
  let code := cmdCode c
  match e with
  | 2 => [1, 3, 7]
  | 3 => [3, 8, 9]
  | 4 => (if code = 3 then [] else [1]) ++ [7, 8, 9]
  | 5 => (if code = 1 then [1, 3] else []) ++ [7, 8, 9]
  | _ => (if code = 3 then [3] else [1]) ++ [7]

/-- FIRST lies past the units, or where the command cannot start (15 R338, R341). -/
def spFirstBad (t : Tile) (e : Nat) (c : Cmd) : Bool :=
  let f := spFirst c
  decide (spUnits t e c ≤ f) || (decide (e = 6) && spOpt c && decide (f % qzRowBlocks c ≠ 0))

/-- A written region shares a byte with another that the command uses (15 R338). -/
def spOverlap (c : Cmd) (l : List SpUse) : Bool :=
  l.any fun x => x.wr && l.any fun y => decide (y.reg ≠ x.reg) && spShare (spReg c x.reg) x.set (spReg c y.reg) y.set

/-- The conditions of engine-param (15 R338). -/
def spBad (t : Tile) (e : Nat) (c : Cmd) : Bool :=
  let ctl := spCtl c
  decide (natBits ctl 40 24 ≠ 0) || decide (natBits ctl 33 7 ≠ 0) || decide (natBits ctl 19 13 ≠ 0) || decide (natBits ctl 0 10 ≠ 0)
    || decide (5 < spRnd c) || decide (4 < spScope c) || decide (natBits (cmdReg c 8) 0 8 ≠ 0) || decide (natBits (cmdReg c 10) 48 16 ≠ 0)
    || (spUnused e c).any (fun n => decide (cmdReg c n ≠ 0)) || spParBad e c || spFirstBad t e c
    || (let l := spUses t e c
        l.any (fun x => spRegionBad t (spReg c x.reg) x.fmts x.set) || spOverlap c l)

/-- Keys of a run's progress: its first unit has begun; what RES counts; entries that alsplit works on, plus 1. -/
def akBegun : Nat := 0
def akCount : Nat := 1
def akList : Nat := 2

/-- The unit a command starts at: alsplit restarts its count pass at 0 (15 R341). -/
def spStart (t : Tile) (e : Nat) (c : Cmd) : Nat :=
  if e = 5 ∧ cmdCode c = 3 ∧ spFirst c < ceilDiv (alEntries t c) 64 then 0 else spFirst c

/-- A special engine takes a command, or refuses it; the command happens after the one before it (04 R90; 15 R338, R339;
17 R394). -/
def spTake (s : State) (tile e : Nat) (c : Cmd) (vc : NMap Nat) : State :=
  if cmdCode c = 0 ∨ spCodes e < cmdCode c ∨ c.imm / 256 ≠ 0 then engRefuse s tile e 1 causeBadCommand c.imm
  else if spBad (tileGet s tile) e c then engRefuse s tile e 2 causeEngineParam c.imm
  else
    let r := newAgent s tile e (vcJoin vc (engGet (tileGet s tile) e).after)
    let k := spStart (tileGet s tile) e c
    engMap r.1 tile e fun x => { x with runs := [runOf { c with agent := r.2 } k []], progNext := k }

/-- What a unit needs: its state, the run's progress and flags. -/
structure SpStep where
  s : State
  r : Run

/-- A command reads pieces of its pool. -/
def spRead (s : State) (agent : Nat) (l : List Piece) : EngOut State :=
  engThen (engCheck s agent false l) fun s1 =>
    match piecesTrap s1 l with
    | some x => .bad (engTrapOf x)
    | none => .ok s1

/-- The piece that a store writes. -/
def spOutPiece (tile : Nat) : DrainOut → Piece
  | .cells _ _ a bs => .pool tile a bs.length
  | .nib _ _ a _ _ => .pool tile a 1
  | .ring _ _ => .pool tile 0 0

/-- Performs stores of a unit in order. -/
def spPut (tile : Nat) : State → List DrainOut → EngOut State
  | s, [] => .ok s
  | s, o :: os =>
    engThen (match o with
      | .cells _ _ a bs => pieceWrite s tile false (.pool tile a bs.length) bs
      | .nib _ _ a hi v => pieceWrite s tile false (.pool tile a 1) [nibSet (memGet (tileGet s tile).pool a) hi v]
      | .ring _ _ => .ok s) fun s1 => spPut tile s1 os

/-- A command writes elements of its pool. -/
def spWrite (s : State) (tile agent : Nat) (l : List DrainOut) : EngOut State :=
  engThen (engCheck s agent true (l.map (spOutPiece tile))) fun s1 => spPut tile s1 l

/-- The rounding of a command at a counter (15 R336). -/
def spRound (c : Cmd) (narrow : Bool) (k : Nat) : RndCtl :=
  ⟨rndOf (spRnd c) 0, spFzo c, spSat c, narrow, rsrDraw (BitVec.ofNat 64 (cmdReg c 8)) (BitVec.ofNat 64 (cmdReg c 9 + k))⟩

/-- The sum of R142 over values of FP32: groups of 64, each rounded once, then the pairwise tree (06 R142). -/
def gsTree : Nat → List Num → Num × FpFlags
  | 0, l => (l.headD numZero, noFlags)
  | n + 1, l =>
    match l with
    | _ :: _ :: _ =>
      let pairs := (List.range ((l.length + 1) / 2)).map fun j =>
        match l[2 * j]?, l[2 * j + 1]? with
        | some x, some y =>
          let z := numAdd .rne x y
          let w := roundTo .f32 ctlRne z.1
          (numOf .f32 w.1, orFlags z.2 w.2)
        | some x, none => (x, noFlags)
        | _, _ => (numZero, noFlags)
      let r := gsTree n (pairs.map (·.1))
      (r.1, pairs.foldl (fun f x => orFlags f x.2) r.2)
    | _ => (l.headD numZero, noFlags)

/-- The sum of a list of FP32 values under R142. -/
def groupTree (l : List Num) : Num × FpFlags :=
  let gs := (List.range (ceilDiv l.length 64)).map fun g =>
    let x := ((l.drop (64 * g)).take 64).foldl (fun (a : Num × FpFlags) v => let y := numAdd .rne a.1 v; (y.1, orFlags a.2 y.2)) (numZero, noFlags)
    let w := roundTo .f32 ctlRne x.1
    (numOf .f32 w.1, orFlags x.2 w.2)
  let r := gsTree 32 (gs.map (·.1))
  (r.1, gs.foldl (fun f x => orFlags f x.2) r.2)

/-- The results of one row of sf0 with their flags (15 R342 to R344). -/
def sfRow (c : Cmd) (row : Nat) (xs : List Nat) : List Nat × FpFlags :=
  let fs := spFmt c 0
  let fd := spFmt c 2
  let nums := xs.map (numIn fs (spFzi c))
  let k0 := row * spL c
  let fin (l : List (Num × FpFlags)) : List Nat × FpFlags :=
    let ys := (List.range l.length).map fun j =>
      let x := l.getD j (numZero, noFlags)
      let y := roundTo fd (spRound c (isNarrow fd [fs]) (k0 + j)) x.1
      (y.1, orFlags x.2 y.2)
    (ys.map (·.1), ys.foldl (fun f y => orFlags f y.2) noFlags)
  match cmdCode c with
  | 1 => fin (nums.map numExp)
  | 2 => fin (nums.map numTanh)
  | 3 => fin (nums.map numGelu)
  | _ =>
    let m := nums.foldl numMax .nan
    if nums.contains .nan then (nums.map fun _ => fmtNaN fd, noFlags)
    else if m = .inf false ∨ m = .inf true then (nums.map fun _ => fmtNaN fd, flagNv)
    else
      let es := nums.map fun x =>
        let y := numExp (numAdd .rne x (numNeg m)).1
        let z := roundTo .f32 ctlRne y.1
        (numOf .f32 z.1, z.2)
      let sm := groupTree (es.map (·.1))
      let r := fin (es.map fun y => numDiv y.1 sm.1)
      (r.1, es.foldl (fun f y => orFlags f y.2) (orFlags sm.2 r.2))

/-- Unit of sf0: one row. -/
def sfUnit (s : State) (tile : Nat) (r : Run) : EngOut SpStep :=
  let c := r.cmd
  let row := r.unit
  let src := spReg c 0
  let idx := (List.range (spL c)).map fun j => row * spPar c 16 16 + j
  engThen (spRead s c.agent (idx.map (spPiece tile src))) fun s1 =>
    let y := sfRow c row (idx.map (spGet (tileGet s1 tile) src))
    let outs := (List.range (spL c)).map fun j => spOut (spReg c 2) (row * spPar c 0 16 + j) (y.1.getD j 0)
    engThen (spWrite s1 tile c.agent outs) fun s2 =>
      .ok ⟨s2, { r with unit := row + 1, flags := r.flags ||| flagBits y.2, aux := mapPut r.aux akCount (ra r akCount + 1) }⟩

/-- The elements of a table row of gs0 in the pool. -/
def gsIdx (c : Cmd) (v : Nat) : List Nat := (List.range (gsWidth c)).map fun k => v * gsPitch c + k

/-- Bytes of an element of a gs0 row. -/
def gsBytes (c : Cmd) : Nat := ceilDiv (fmtBits (spFmt c (gsTable c))) 8

/-- The pieces of table row `v` in global memory (15 R345). -/
def gsGlobal (s : State) (tile : Nat) (c : Cmd) (v : Nat) (wr : Bool) : EngOut (List Piece) :=
  globalPieces s tile (tileAsid s tile) wr (cmdReg c 7 + v * gsPitch c * gsBytes c) (gsWidth c * gsBytes c)

/-- One element add of sctadd, with the flags that it gathers (15 R346). -/
def gsAdd (f : Fmt) (old x : Nat) : Nat × Nat :=
  if fmtIsInt f then (wrapInt (fmtBits f) (old + x : Nat), 0)
  else
    let y := numAdd .rne (numOf f old) (numOf f x)
    let z := roundTo f ctlRne y.1
    let g := orFlags y.2 z.2
    (z.1, flagBits { noFlags with nv := g.nv, of := g.of, nx := g.nx })

/-- The check of an element add's granules, as an atomic's (15 R346, 17 R385). -/
def gsAtomicCheck (s : State) (agent : Nat) (l : List Piece) : EngOut State := engCheckAs s agent true false l

/-- Table row `v` of an sctadd in global memory (15 R346; 02 R47). -/
def gsAddGlobal (s : State) (tile : Nat) (c : Cmd) (v : Nat) (xs : List Nat) : EngOut (State × Nat) :=
  engThen (gsGlobal s tile c v false) fun _ =>
  engThen (gsGlobal s tile c v true) fun l =>
    let va := cmdReg c 7 + v * gsPitch c * gsBytes c
    if l.any fun p => match p with | .mem _ pa _ _ => (match homeOf pa with | .port _ => true | _ => false) | .pool _ _ _ => false then
      .bad (engTrap causeHostAtomic va)
    else if l.any fun p => match p with | .mem _ pa _ _ => frameFrozen s pa | .pool _ _ _ => false then .wait none
    else
      engThen (gsAtomicCheck s c.agent l) fun s1 =>
      engThen (piecesRead s1 l) fun bs =>
        let w := gsBytes c
        let ys := (List.range (gsWidth c)).map fun k => gsAdd (spFmt c (gsTable c)) (leNat ((bs.drop (k * w)).take w)) (xs.getD k 0)
        let s2 := l.foldl (fun s p => pieceTouch s (tileAsid s tile) p) s1
        let s3 := if inOutputs s2 tile va (gsWidth c * w) then s2 else demote s2 tile (agentOf s2 c.agent).ident
        engThen (piecesWrite s3 tile false l (ys.flatMap fun y => leBytes w y.1)) fun s4 =>
          .ok (s4, ys.foldl (fun f y => f ||| y.2) 0)

/-- Unit of gs0: one index (15 R346). -/
def gsUnit (s : State) (tile : Nat) (r : Run) : EngOut SpStep :=
  let c := r.cmd
  let u := r.unit
  let fin (s : State) (miss flags : Nat) : EngOut SpStep :=
    .ok ⟨s, { r with unit := u + 1, flags := r.flags ||| flags, aux := mapPut r.aux akCount (ra r akCount + miss) }⟩
  let ir := spReg c 1
  let rows := spReg c (gsRows c)
  let ridx := (List.range (gsWidth c)).map fun k => u * gsWidth c + k
  let w := gsBytes c
  engThen (spRead s c.agent [spPiece tile ir u]) fun s1 =>
    let v := intOf (fmtOf ir.fmt) (spGet (tileGet s1 tile) ir u)
    let hit := decide (0 ≤ v) && decide (v < gsNrows c)
    let v := v.toNat
    let tab := spReg c (gsTable c)
    let rowOut (pats : List Nat) : List DrainOut := (List.range (gsWidth c)).map fun k => spOut rows (ridx.getD k 0) (pats.getD k 0)
    if cmdCode c = 1 then
      if !hit then engThen (spWrite s1 tile c.agent (rowOut [])) fun s2 => fin s2 1 0
      else if spOpt c then
        engThen (gsGlobal s1 tile c v false) fun l =>
        engThen (engCheck s1 c.agent false l) fun s2 =>
        engThen (piecesRead s2 l) fun bs =>
          let s3 := cpFill (l.foldl (fun s p => pieceTouch s (tileAsid s tile) p) s2) tile l
          engThen (spWrite s3 tile c.agent (rowOut ((List.range (gsWidth c)).map fun k => leNat ((bs.drop (k * w)).take w)))) fun s4 =>
            fin s4 0 0
      else
        engThen (spRead s1 c.agent ((gsIdx c v).map (spPiece tile tab))) fun s2 =>
        engThen (spWrite s2 tile c.agent (rowOut ((gsIdx c v).map (spGet (tileGet s2 tile) tab)))) fun s3 => fin s3 0 0
    else if !hit then fin s1 1 0
    else
      engThen (spRead s1 c.agent (ridx.map (spPiece tile rows))) fun s2 =>
        let xs := ridx.map (spGet (tileGet s2 tile) rows)
        if cmdCode c = 2 then
          if spOpt c then
            engThen (gsGlobal s2 tile c v true) fun l =>
            engThen (engCheck s2 c.agent true l) fun s3 =>
            engThen (piecesWrite (l.foldl (fun s p => pieceTouch s (tileAsid s tile) p) s3) tile false l (xs.flatMap (leBytes w))) fun s4 => fin s4 0 0
          else
            engThen (spWrite s2 tile c.agent ((List.range (gsWidth c)).map fun k => spOut tab ((gsIdx c v).getD k 0) (xs.getD k 0))) fun s3 => fin s3 0 0
        else if spOpt c then engThen (gsAddGlobal s2 tile c v xs) fun y => fin y.1 0 y.2
        else
          let ps := (gsIdx c v).map (spPiece tile tab)
          engThen (gsAtomicCheck s2 c.agent ps) fun s3 =>
            match piecesTrap s3 ps with
            | some x => .bad (engTrapOf x)
            | none =>
              let olds := (gsIdx c v).map (spGet (tileGet s3 tile) tab)
              let ys := (List.range (gsWidth c)).map fun k => gsAdd (spFmt c (gsTable c)) (olds.getD k 0) (xs.getD k 0)
              engThen (spPut tile s3 ((List.range (gsWidth c)).map fun k => spOut tab ((gsIdx c v).getD k 0) (ys.getD k (0, 0)).1)) fun s4 =>
                fin s4 0 (ys.foldl (fun f y => f ||| y.2) 0)

/-- The place of a key in the order of so0 (15 R347). -/
def soRank (f : Fmt) (pat : Nat) : Int :=
  if fmtIsInt f then intOf f pat
  else if numOf f pat = .nan then 2 ^ 70
  else
    let mag := pat % 2 ^ (fmtBits f - 1)
    if natBit pat (fmtBits f - 1) then -(mag : Int) - 1 else mag

/-- A key with its index output. -/
structure SoKey where
  pat : Nat
  idx : Nat
deriving DecidableEq, Repr

/-- A key strictly precedes another. -/
def soBefore (c : Cmd) (a b : SoKey) : Bool :=
  let x := soRank (spFmt c 0) a.pat
  let y := soRank (spFmt c 0) b.pat
  if spOpt c then decide (y < x) else decide (x < y)

/-- Puts a key behind those that do not come after it: equal keys keep their order. -/
def soInsert (c : Cmd) (x : SoKey) : List SoKey → List SoKey
  | [] => [x]
  | y :: ys => if soBefore c x y then x :: y :: ys else y :: soInsert c x ys

/-- A stable sort. -/
def soSort (c : Cmd) (l : List SoKey) : List SoKey := l.foldl (fun s x => soInsert c x s) []

/-- The two-pointer merge (15 R348). -/
def soMerge (c : Cmd) : Nat → List SoKey → List SoKey → List SoKey
  | 0, _, _ => []
  | _ + 1, [], l => l
  | _ + 1, l, [] => l
  | n + 1, a :: as, b :: bs => if soBefore c b a then b :: soMerge c n (a :: as) bs else a :: soMerge c n as (b :: bs)

/-- Keys of a source with their indices. -/
def soKeys (t : Tile) (c : Cmd) (reg from' n off : Nat) : List SoKey :=
  (List.range n).map fun i => ⟨spGet t (spReg c reg) (from' + i), off + from' + i + spPar c 0 32⟩

/-- Stores of keys and indices from place `k` on. -/
def soOuts (c : Cmd) (k : Nat) (l : List SoKey) : List DrainOut :=
  ((List.range l.length).map fun i => spOut (spReg c 2) (k + i) ((l[i]?.map (·.pat)).getD 0))
    ++ (List.range l.length).map fun i => spOut (spReg c 3) (k + i) ((l[i]?.map (·.idx)).getD 0)

/-- Unit of so0 (15 R347, R348). -/
def soUnit (s : State) (tile : Nat) (r : Run) : EngOut SpStep :=
  let c := r.cmd
  let u := r.unit
  let n0 := (spReg c 0).count
  let n1 := (spReg c 1).count
  let pieces (reg from' n : Nat) : List Piece := (List.range n).map fun i => spPiece tile (spReg c reg) (from' + i)
  let fin (s : State) (n : Nat) : EngOut SpStep := .ok ⟨s, { r with unit := u + 1, aux := mapPut r.aux akCount n }⟩
  match cmdCode c with
  | 1 =>
    engThen (spRead s c.agent (pieces 0 0 n0)) fun s1 =>
    engThen (spWrite s1 tile c.agent (soOuts c 0 (soSort c (soKeys (tileGet s1 tile) c 0 0 n0 0)))) fun s2 => fin s2 n0
  | 2 =>
    let k := spPar c 48 16
    let old := min k (4096 * u)
    let n := min 4096 (n0 - 4096 * u)
    engThen (spRead s c.agent (pieces 0 (4096 * u) n ++ pieces 2 0 old ++ pieces 3 0 old)) fun s1 =>
      let t := tileGet s1 tile
      let kept := (List.range old).map fun i => SoKey.mk (spGet t (spReg c 2) i) (spGet t (spReg c 3) i)
      let all := (soKeys t c 0 (4096 * u) n 0).foldl (fun l x => soInsert c x l) kept
      engThen (spWrite s1 tile c.agent (soOuts c 0 (all.take k))) fun s2 => fin s2 k
  | _ =>
    engThen (spRead s c.agent (pieces 0 0 n0 ++ pieces 1 0 n1)) fun s1 =>
      let t := tileGet s1 tile
      let all := soMerge c (n0 + n1) (soKeys t c 0 0 n0 0) (soKeys t c 1 0 n1 n0)
      let l := (all.drop (4096 * u)).take 4096
      engThen (spWrite s1 tile c.agent (soOuts c (4096 * u) l)) fun s2 => fin s2 (ra r akCount + l.length)

/-- Appends an index list to a list region: entries beyond the capacity are counted and not written (15 R349). -/
def alAppend (t : Tile) (r : Region) (fresh : Bool) (l : List Nat) : List DrainOut × Nat :=
  let c0 := if fresh then 0 else spGet t r 0
  let outs := (List.range l.length).filterMap fun i =>
    if c0 + i + 1 < r.count then some (spOut r (c0 + i + 1) (l.getD i 0)) else none
  let c1 := (c0 + l.length) % 2 ^ 32
  (outs ++ [spOut r 0 c1], c1)

/-- The indices of the set bits of a flag word (15 R349). -/
def alBits (c : Cmd) (w : Nat) (x : Nat) : List Nat :=
  ((List.range 64).filter fun b => natBit x b).map fun b => (spPar c 0 32 + 64 * w + b) % 2 ^ 32

/-- Unit of albuild and alupd: one flag word (15 R350). -/
def alWord (s : State) (tile : Nat) (r : Run) : EngOut SpStep :=
  let c := r.cmd
  let u := r.unit
  let up := decide (cmdCode c = 2)
  let head (reg : Nat) : List Piece := if u = 0 then [] else [spPiece tile (spReg c reg) 0]
  let reads := [spPiece tile (spReg c 0) u] ++ (if up then [spPiece tile (spReg c 1) u] ++ head 3 else []) ++ head 2
  engThen (spRead s c.agent reads) fun s1 =>
    let t := tileGet s1 tile
    let n := spGet t (spReg c 0) u
    let o := if up then spGet t (spReg c 1) u else 0
    let ones := 2 ^ 64 - 1
    let a := if up then n &&& (ones - o) else if spOpt c then ones - n else n
    let x := alAppend t (spReg c 2) (decide (u = 0)) (alBits c u a)
    let y := if up then alAppend t (spReg c 3) (decide (u = 0)) (alBits c u (o &&& (ones - n))) else ([], 0)
    engThen (spWrite s1 tile c.agent (x.1 ++ y.1)) fun s2 =>
      .ok ⟨s2, { r with unit := u + 1, aux := mapPut r.aux akCount (y.2 * 2 ^ 32 + x.2) }⟩

/-- Bucket counts of the first `n` entries (15 R351). -/
def alCounts (t : Tile) (c : Cmd) (n : Nat) : List Nat :=
  let keys := (List.range n).map (spGet t (spReg c 1))
  (List.range (alB c)).map fun b => (keys.filter fun k => decide (k = b)).length

/-- Running sums of a list, from a start, ending with the total. -/
def runSums : Nat → List Nat → List Nat
  | a, [] => [a]
  | a, x :: xs => a :: runSums (a + x) xs

/-- Unit of alsplit: 64 entries of the count pass or of the write pass (15 R351). -/
def alSplit (s : State) (tile : Nat) (r : Run) : EngOut SpStep :=
  let c := r.cmd
  let u := r.unit
  let src := spReg c 0
  let keyr := spReg c 1
  engThen (if ra r akList = 0 then spRead s c.agent [spPiece tile src 0] else .ok s) fun s1 =>
    let m := if ra r akList = 0 then alEntries (tileGet s1 tile) c else ra r akList - 1
    let r := { r with aux := mapPut r.aux akList (m + 1) }
    let half := ceilDiv m 64
    if u < half then
      let n := min m (64 * (u + 1))
      engThen (spRead s1 c.agent ((List.range (n - 64 * u)).map fun i => spPiece tile keyr (64 * u + i))) fun s2 =>
        if u + 1 = half then
          let sums := runSums 0 (alCounts (tileGet s2 tile) c m)
          engThen (spWrite s2 tile c.agent ((List.range (alB c + 1)).map fun b => spOut (spReg c 3) b (sums.getD b 0))) fun s3 =>
            .ok ⟨s3, { r with unit := u + 1 }⟩
        else .ok ⟨s2, { r with unit := u + 1 }⟩
    else if half + half ≤ u then .ok ⟨s1, { r with unit := u + 1 }⟩
    else
      let lo := 64 * (u - half)
      let hi := min m (lo + 64)
      let reads := ((List.range hi).map (spPiece tile keyr)) ++ ((List.range (hi - lo)).map fun i => spPiece tile src (lo + i + 1))
        ++ (List.range (alB c)).map (spPiece tile (spReg c 3))
      engThen (spRead s1 c.agent reads) fun s2 =>
        let t := tileGet s2 tile
        let key (e : Nat) : Nat := spGet t keyr e
        let es := (List.range (hi - lo)).map (lo + ·)
        let outs := es.filterMap fun e =>
          if key e < alB c then
            let before := ((List.range e).filter fun i => decide (key i = key e)).length
            some (spOut (spReg c 2) (spGet t (spReg c 3) (key e) + before) (spGet t src (e + 1)))
          else none
        engThen (spWrite s2 tile c.agent outs) fun s3 =>
          .ok ⟨s3, { r with unit := u + 1, aux := mapPut r.aux akCount (ra r akCount + (es.length - outs.length)) }⟩

/-- Emax and emax of a quantised format (15 R352). -/
def qzMax (f : Fmt) : Nat × Int := match f with | .e4m3 => (448, 8) | .e5m2 => (57344, 15) | _ => (6, 2)

/-- What an element becomes in a block with a NaN or an infinity (15 R352). -/
def qzNaN (f : Fmt) : Nat := match f with | .e4m3 => 0x7F | .e5m2 => 0x7E | _ => 0

/-- The flags of such a block (15 R352). -/
def qzNaNFlags (f : Fmt) (xs : List Num) : FpFlags :=
  let inf := xs.any fun x => match x with | .inf _ => true | _ => false
  if inf || (decide (f = .e2m1) && xs.contains .nan) then flagNv else noFlags

/-- A list of values holds a NaN or an infinity. -/
def qzSpecial (xs : List Num) : Bool := xs.any fun x => match x with | .fin _ _ _ _ => false | _ => true

/-- The greatest magnitude of a list. -/
def qzAmax (xs : List Num) : Num := xs.foldl (fun m x => numMax m (numAbs x)) numZero

/-- Elements converted under a factor, from element index `k` on. -/
def qzConv (c : Cmd) (f : Fmt) (k : Nat) (xs : List Num) (factor : Num) : List Nat × FpFlags :=
  let ys := (List.range xs.length).map fun j =>
    let p := numMul (xs.getD j numZero) factor
    let y := roundTo f (spRound c true (k + j)) p.1
    (y.1, orFlags p.2 y.2)
  (ys.map (·.1), ys.foldl (fun g y => orFlags g y.2) noFlags)

/-- One MX block: its scale, its elements, the flags (15 R352). -/
def qzBlock (c : Cmd) (k : Nat) (xs : List Num) : Nat × List Nat × FpFlags :=
  let f := spFmt c 2
  if qzSpecial xs then (0xFF, xs.map fun _ => qzNaN f, qzNaNFlags f xs)
  else
    let e : Int := match qzAmax xs with
      | .fin _ m x _ => if m = 0 then 127 else max 0 (min 254 ((bitLen m : Int) - 1 + x - (qzMax f).2 + 127))
      | _ => 127
    let y := qzConv c f k xs (.fin false 1 (127 - e) false)
    (e.toNat, y.1, y.2)

/-- One row: q in the scale's format, its elements, the flags (15 R353). -/
def qzRow (c : Cmd) (k : Nat) (xs : List Num) : Nat × List Nat × FpFlags :=
  let f := spFmt c 2
  let fs := spFmt c 3
  let a := qzAmax xs
  if qzSpecial xs then (fmtNaN fs, xs.map fun _ => qzNaN f, qzNaNFlags f xs)
  else
    let zero := match a with | .fin _ 0 _ _ => true | _ => false
    let mx := numInt (qzMax f).1
    let sv := if zero then (0x3F800000, noFlags) else roundTo .f32 ctlRne (numDiv mx a).1
    let qv := if zero then (0x3F800000, noFlags) else roundTo .f32 ctlRne (numDiv a mx).1
    let qs := roundTo fs { ctlRne with sat := spSat c, narrow := isNarrow fs [.f32] } (numOf .f32 qv.1)
    let y := qzConv c f k xs (numOf .f32 sv.1)
    (qs.1, y.1, orFlags y.2 (orFlags sv.2 (orFlags qv.2 qs.2)))

/-- Elements dequantised under a scale (15 R354). -/
def qzBack (c : Cmd) (k : Nat) (xs : List Nat) (scale : Nat) : List Nat × FpFlags :=
  let f := spFmt c 2
  let fs := spFmt c 0
  let sf := spFmt c 1
  let sc := if sf = .e8m0 then numOf .e8m0 scale else numIn sf (spFzi c) scale
  let ys := (List.range xs.length).map fun j =>
    let p := numMul (numIn fs (spFzi c) (xs.getD j 0)) sc
    let y := roundTo f (spRound c (isNarrow f [fs, sf]) (k + j)) p.1
    (y.1, orFlags p.2 y.2)
  (ys.map (·.1), ys.foldl (fun g y => orFlags g y.2) noFlags)

/-- Unit of qz0: one block, or one row in row mode (15 R352 to R354). -/
def qzUnit (s : State) (tile : Nat) (r : Run) : EngOut SpStep :=
  let c := r.cmd
  let u := r.unit
  let row := spOpt c
  let step := if row then qzRowBlocks c else 1
  let k := if row then u / step * spL c else 32 * u
  let n := if row then spL c else min 32 ((spReg c 0).count - 32 * u)
  let sc := if row then u / step else u
  let idx := (List.range n).map (k + ·)
  let back := decide (cmdCode c = 3)
  let src := spReg c 0
  let reads := idx.map (spPiece tile src) ++ if back then [spPiece tile (spReg c 1) sc] else []
  engThen (spRead s c.agent reads) fun s1 =>
    let t := tileGet s1 tile
    let pats := idx.map (spGet t src)
    let nums := pats.map (numIn (spFmt c 0) (spFzi c))
    let y : Nat × List Nat × FpFlags := if back then (0, qzBack c k pats (spGet t (spReg c 1) sc)) else if row then qzRow c k nums else qzBlock c k nums
    let outs := ((List.range n).map fun j => spOut (spReg c 2) (k + j) (y.2.1.getD j 0)) ++ if back then [] else [spOut (spReg c 3) sc y.1]
    engThen (spWrite s1 tile c.agent outs) fun s2 =>
      .ok ⟨s2, { r with unit := u + step, flags := r.flags ||| flagBits y.2.2, aux := mapPut r.aux akCount (ra r akCount + step) }⟩

/-- One unit of the running command of a special engine. -/
def spUnit (s : State) (tile e : Nat) (r : Run) : EngOut SpStep :=
  match e with
  | 2 => sfUnit s tile r
  | 3 => gsUnit s tile r
  | 4 => soUnit s tile r
  | 5 => if cmdCode r.cmd = 3 then alSplit s tile r else alWord s tile r
  | _ => qzUnit s tile r

/-- Units of a running command: alsplit counts the entries it found. -/
def spTotal (t : Tile) (e : Nat) (r : Run) : Nat :=
  if e = 5 ∧ cmdCode r.cmd = 3 ∧ ra r akList ≠ 0 then 2 * ceilDiv (ra r akList - 1) 64 else spUnits t e r.cmd

/-- A special engine may act. -/
def spOpen (s : State) (tile e : Nat) : Bool :=
  engOpen s tile e && decide (2 ≤ e) && decide (e ≤ 6)

/-- The command of a special engine with a unit to run. -/
def spNext (s : State) (tile e : Nat) : Option Run :=
  let t := tileGet s tile
  if spOpen s tile e then
    match (engGet t e).runs with
    | r :: _ => if forkReady s r.cmd.fork && decide (r.unit < spTotal t e r) then some r else none
    | [] => none
  else none

/-- ENGINE_UNIT: one unit is performed, or discarded at a run fault (15 R339, R341). -/
def engineUnit (tile e : Nat) (s : State) : State :=
  match spNext s tile e with
  | none => s
  | some r =>
    let bad := decide (ra r akBegun = 0) && (List.range 11).any fun n => resBad (mapGet r.cmd.regs n (rvOf 0))
    if bad then engStopAt s tile e (cmdCode r.cmd) (trapOf causeResidue)
    else match spUnit s tile e r with
      | .wait ask => engAsk s ask
      | .bad x => engStopAt s tile e (cmdCode r.cmd) x
      | .ok y => engMap y.s tile e fun x =>
          { x with runs := [{ y.r with aux := mapPut y.r.aux akBegun 1 }], progNext := y.r.unit }

/-- A special engine's command has run its units. -/
def spFinished (s : State) (tile e : Nat) : Option Run :=
  let t := tileGet s tile
  if spOpen s tile e then
    match (engGet t e).runs with
    | r :: _ => if spTotal t e r ≤ r.unit then some r else none
    | [] => none
  else none

/-- A command completes: RES, flags, DONE (15 R339). -/
def spDone (tile e : Nat) (s : State) : State :=
  match spFinished s tile e with
  | none => s
  | some r =>
    let c := r.cmd
    let done : EngOut State := if cmdReg c 6 = 0 then .ok s
      else engAdd s tile c.agent (BitVec.ofNat 64 (cmdReg c 6)) 1 (scopeOfCode (spScope c))
    match done with
    | .wait ask => engAsk s ask
    | .bad x => engStopAt s tile e (cmdCode c) x
    | .ok s1 =>
      engMap (orFpstat s1 tile r.flags) tile e fun x =>
        { x with runs := [], progSeq := x.progSeq + 1, after := (agentOf s1 c.agent).vc,
                 regs := mapPut x.regs 11 (rvOf (BitVec.ofNat 64 (ra r akCount))) }

/-- eabort on a special engine (15 R341). -/
def spAbort (s : State) (tile e : Nat) : State :=
  engMap s tile e fun x =>
    let code := match x.runs with | r :: _ => cmdCode r.cmd | [] => x.lastcode
    { setCause x 4 code with
      runs := [], queue := x.queue.filter (!·.ready), progSeq := x.progSeq + x.runs.length,
      after := (match x.runs with | r :: _ => (agentOf s r.cmd.agent).vc | [] => x.after),
      progNext := (match x.runs with | r :: _ => r.unit | [] => x.progNext) }

/-- A special engine performs a unit (15 R339). -/
def execEngineUnit (tile : BitVec 8) (eng : BitVec 4) (s : State) : Out := .next (engineUnit tile.toNat eng.toNat s)

end Sys2Proof.Machine
end

