-- ==== Sys2Proof/Machine/Fx.lean ====
section
/-! DEFINITION. The collective engine fx0, its neighbours, and the strand ports (20 R451 to R460, R494; 16 R359). -/

namespace Sys2Proof.Machine

open Sys2Proof

/-- The formats of a collective (20 R454). -/
def fxFormat (c : Cmd) : Fmt := fmtOf (fxFmt c)

/-- Bytes of an element. -/
def fxWidth (c : Cmd) : Nat := fmtBits (fxFormat c) / 8

/-- Devices, bytes per device, elements. -/
def fxN (c : Cmd) : Nat := fxSize c + 1
def fxLen (c : Cmd) : Nat := cmdReg c 2
def fxElems (c : Cmd) : Nat := fxLen c / fxWidth c

/-- Bytes of a chunk. -/
def fxChunk (c : Cmd) : Nat := 2 ^ cmdReg c 9

/-- Chunks of one ring step (20 R456). -/
def fxPerStep (c : Cmd) : Nat :=
  if cmdCode c = 1 then ceilDiv (ceilDiv (fxElems c) (fxN c) * fxWidth c) (fxChunk c) else ceilDiv (fxLen c) (fxChunk c)

/-- The chunk count of a command (20 R456). -/
def fxCount (c : Cmd) : Nat :=
  match cmdCode c with
  | 1 => 2 * (fxN c - 1) * fxPerStep c
  | 2 => (fxN c - 1) * fxPerStep c
  | _ => fxPerStep c

/-- A collective command. -/
def fxColl (c : Cmd) : Bool := decide (cmdCode c ≤ 3)

/-- Bytes of SRC and of DST. -/
def fxDstLen (c : Cmd) : Nat := if cmdCode c = 2 then fxN c * fxLen c else fxLen c

/-- The conditions of engine-param (20 R455). -/
def fxBad (s : State) (c : Cmd) : Bool :=
  let src := cmdReg c 0
  let dst := cmdReg c 1
  let port (p : Nat) : Bool := decide (11 < p) || !(strandGet s p).up
  decide (natBits (cmdReg c 3) 24 40 ≠ 0) || decide (natBits (cmdReg c 4) 16 48 ≠ 0) || decide (natBits (cmdReg c 10) 48 16 ≠ 0)
    || decide (fxOpc c = 3) || !([Fmt.f32, .f16, .bf16, .i32, .n32] : List Fmt).contains (fxFormat c) || port (fxPrev c) || port (fxNext c)
    || (fxColl c && (decide (fxSize c < fxPos c) || decide (fxSize c < fxRoot c)))
    || decide (fxLen c < 64) || decide (2 ^ 40 < fxLen c) || decide (fxLen c % fxWidth c ≠ 0)
    || decide (cmdReg c 7 = 0) || decide (1000000 < cmdReg c 7) || decide (cmdReg c 9 < 12) || decide (24 < cmdReg c 9)
    || decide (cmdReg c 8 = 0) || decide (cmdReg c 8 % 64 ≠ 0)
    || (decide (src ≠ dst) && decide (src < dst + fxDstLen c) && decide (dst < src + fxLen c))
    || decide (fxCount c ≤ fxFirst c) || (fxColl c && decide (fxFirst c ≠ 0))

/-- Keys of a run's progress: prev and next checked; time of the last flit; a run fault that ends in an abort; rounds begun. -/
def akPrev : Nat := 0
def akNext : Nat := 1
def akFlit : Nat := 2
def akHalt : Nat := 3
def akRounds : Nat := 4

/-- The parameters that the first flit of each direction carries (20 R455). -/
def fxParams (c : Cmd) : List Nat :=
  [cmdCode c, fxTag c, fxLen c, fxFirst c] ++ if fxColl c then [fxSize c, fxOpc c, fxFmt c, if cmdCode c = 3 then fxRoot c else 0] else []

/-- What a neighbour's first flit must carry: fxsend meets fxrecv (20 R455). -/
def fxExpected (c : Cmd) : List Nat :=
  match fxParams c with
  | code :: l => (if fxColl c then code else 9 - code) :: l
  | [] => []

/-- A command exchanges flits with its previous and its next neighbour. -/
def fxUsesPrev (c : Cmd) : Bool := decide (cmdCode c ≠ 4)
def fxUsesNext (c : Cmd) : Bool := decide (cmdCode c ≠ 5)

/-- What a port has received without what belongs to commands that are over: all up to the last marker, then what precedes a
first flit (20 R458). -/
def fxFresh (l : List FxMsg) : List FxMsg :=
  (l.reverse.takeWhile fun m => decide (m ≠ .marker)).reverse.dropWhile fun m => match m with | .first _ => false | _ => true

/-- A port for a new command. -/
def strandFresh (s : State) (p : Nat) : State := strandPut s p { strandGet s p with rx := fxFresh (strandGet s p).rx }

/-- fx0 takes a command, or refuses it; its first flits go out (20 R455). -/
def fxTake (s : State) (tile : Nat) (c : Cmd) (vc : NMap Nat) : State :=
  if cmdCode c = 0 ∨ 5 < cmdCode c ∨ c.imm / 256 ≠ 0 then engRefuse s tile 7 1 causeBadCommand c.imm
  else if fxBad s c then engRefuse s tile 7 2 causeEngineParam c.imm
  else
    let r := newAgent s tile 7 vc
    let run : Run := raSet (raSet (raSet (runOf { c with agent := r.2 } (fxFirst c) []) akFlit (timeOf s))
      akPrev (boolNat (!fxUsesPrev c))) akNext (boolNat (!fxUsesNext c))
    let s0 := strandFresh (strandFresh r.1 (fxPrev c)) (fxNext c)
    let s1 := if fxUsesNext c then strandSend s0 (fxNext c) (.first (fxParams c)) else s0
    let s2 := if fxUsesPrev c then strandSend s1 (fxPrev c) (.first (fxParams c)) else s1
    engMap s2 tile 7 fun x => { x with runs := [run], progNext := fxFirst c }

/-- fx0 may act, with its command. -/
def fxOpen (s : State) (tile : Nat) : Option Run :=
  let x := engGet (tileGet s tile) 7
  if engOpen s tile 7 then
    match x.runs with
    | r :: _ => if forkReady s r.cmd.fork then some r else none
    | [] => none
  else none

/-- Rewrites fx0's command. -/
def fxMap (s : State) (tile : Nat) (f : Run → Run) : State := engMap s tile 7 fun x => runMap x f

/-- Takes the head of what a port has received. -/
def strandTake (s : State) (p : Nat) : State :=
  let x := strandGet s p
  strandPut s p { x with rx := x.rx.drop 1 }

/-- The port whose first flit is to be checked next, with the flit if it has been received (20 R455). -/
def fxToCheck (s : State) (r : Run) : Option (Bool × Nat × Option FxMsg) :=
  if ra r akPrev = 0 then some (false, fxPrev r.cmd, (strandGet s (fxPrev r.cmd)).rx.head?)
  else if ra r akNext = 0 then some (true, fxNext r.cmd, (strandGet s (fxNext r.cmd)).rx.head?)
  else none

/-- FX_FIRST_FLIT_CHECK: a difference aborts with cause 6. A flit that nothing has received is one that arrives now, with
parameters that are free (20 R455; log entry 4). -/
def fxFirstCheck (tile : Nat) (s : State) : State :=
  match fxOpen s tile with
  | none => s
  | some r =>
    match fxToCheck s r with
    | none => s
    | some (next, port, m) =>
      let done (s : State) : State := fxMap s tile fun r => raSet (raSet r (if next then akNext else akPrev) 1) akFlit (timeOf s)
      match m with
      | some (.first ps) =>
        let s1 := strandTake s port
        if ps = fxExpected r.cmd then done s1 else fxAbort s1 tile 6 port
      | none =>
        let s1 := { s with free := s.free + 1 }
        if Config.freeBool s.free then done s1 else fxAbort s1 tile 6 port
      | some _ => s

/-- Bytes `lo` to `hi − 1` of a segment of fxred, within SRC and DST (20 R456). -/
def fxSeg (c : Cmd) (seg : Nat) : Nat × Nat :=
  (seg * fxElems c / fxN c * fxWidth c, (seg + 1) * fxElems c / fxN c * fxWidth c)

/-- Chunk `k` of bytes `lo` to `hi − 1`: its start and length. -/
def fxPart (c : Cmd) (lo hi k : Nat) : Nat × Nat :=
  let a := lo + k * fxChunk c
  if hi ≤ a then (hi, 0) else (a, min (fxChunk c) (hi - a))

/-- Position `p − k` of the ring. -/
def fxBack (c : Cmd) (k : Nat) : Nat := (fxPos c + fxN c * (k + 1) - k) % fxN c

/-- What one chunk-step sends and receives: address to send from, bytes; address to store to, bytes, whether it reduces with
SRC, and where from; and an own copy (20 R455, R456). -/
structure FxPlan where
  send : Option (Nat × Nat)
  recv : Option (Nat × Nat)
  /-- Address of the own elements that a received chunk is combined with. -/
  mix : Option Nat
  /-- Own copy: from, to, bytes. -/
  copy : Option (Nat × Nat × Nat)
  /-- What is sent is what is received. -/
  relay : Bool
deriving DecidableEq, Repr

/-- The plan of chunk-step `i`. -/
def fxPlan (c : Cmd) (i : Nat) : FxPlan :=
  let src := cmdReg c 0
  let dst := cmdReg c 1
  let j := i / fxPerStep c
  let k := i % fxPerStep c
  match cmdCode c with
  | 1 =>
    let red := decide (j < fxN c - 1)
    let j' := j - (fxN c - 1)
    let sg := fxSeg c (if red then fxBack c (1 + j) else fxBack c j')
    let rg := fxSeg c (if red then fxBack c (2 + j) else fxBack c (1 + j'))
    let sp := fxPart c sg.1 sg.2 k
    let rp := fxPart c rg.1 rg.2 k
    ⟨some ((if red && decide (j = 0) then src else dst) + sp.1, sp.2), some (dst + rp.1, rp.2),
     if red then some (src + rp.1) else none, none, false⟩
  | 2 =>
    let p := fxPart c 0 (fxLen c) k
    let sb := fxBack c j
    ⟨some (if j = 0 then src + p.1 else dst + sb * fxLen c + p.1, p.2), some (dst + fxBack c (1 + j) * fxLen c + p.1, p.2), none,
     if j = 0 then some (src + p.1, dst + fxPos c * fxLen c + p.1, p.2) else none, false⟩
  | 3 =>
    let p := fxPart c 0 (fxLen c) k
    let last := decide ((fxPos c + 1) % fxN c = fxRoot c)
    if fxPos c = fxRoot c then ⟨if last then none else some (src + p.1, p.2), none, none, some (src + p.1, dst + p.1, p.2), false⟩
    else ⟨none, some (dst + p.1, p.2), none, none, !last⟩
  | 4 => let p := fxPart c 0 (fxLen c) k; ⟨some (src + p.1, p.2), none, none, none, false⟩
  | _ => let p := fxPart c 0 (fxLen c) k; ⟨none, some (dst + p.1, p.2), none, none, false⟩

/-- Op on one element (20 R456). -/
def fxOp (c : Cmd) (a b : Nat) : Nat × FpFlags :=
  let f := fxFormat c
  if fmtIsInt f then
    match fxOpc c with
    | 0 => (wrapInt 32 (a + b : Nat), noFlags)
    | 1 => (if intOf f a < intOf f b then b else a, noFlags)
    | _ => (if intOf f b < intOf f a then b else a, noFlags)
  else
    let x := numOf f a
    let y := numOf f b
    match fxOpc c with
    | 0 =>
      let z := numAdd .rne x y
      let w := roundTo f ctlRne z.1
      (w.1, orFlags z.2 w.2)
    | 1 => ((roundTo f ctlRne (numMax x y)).1, noFlags)
    | _ => ((roundTo f ctlRne (numMin x y)).1, noFlags)

/-- A received chunk combined with the own elements. -/
def fxCombine (c : Cmd) (acc own : List Byte) : List Byte × FpFlags :=
  let w := fxWidth c
  let ys := (List.range (acc.length / w)).map fun i =>
    fxOp c (leNat ((acc.drop (i * w)).take w)) (leNat ((own.drop (i * w)).take w))
  (ys.flatMap fun y => leBytes w y.1, ys.foldl (fun f y => orFlags f y.2) noFlags)

/-- fx0 reads global memory (20 R453). -/
def fxRead (s : State) (tile agent va n : Nat) : EngOut (State × List Byte) :=
  if n = 0 then .ok (s, [])
  else
    engThen (globalPieces s tile (tileAsid s tile) false va n) fun l =>
    engThen (engCheck s agent false l) fun s1 =>
    engThen (piecesRead s1 l) fun bs => .ok (l.foldl (fun s p => pieceTouch s (tileAsid s tile) p) s1, bs)

/-- fx0 writes global memory. -/
def fxWrite (s : State) (tile agent va : Nat) (bs : List Byte) : EngOut State :=
  if bs.isEmpty then .ok s
  else
    engThen (globalPieces s tile (tileAsid s tile) true va bs.length) fun l =>
    engThen (engCheck s agent true l) fun s1 =>
      piecesWrite (l.foldl (fun s p => pieceTouch s (tileAsid s tile) p) s1) tile false l bs

/-- The chunk that a step receives through prev: none when another message stands first. A chunk that nothing has received
is one that arrives now, of free bytes (log entry 4). -/
def fxArrived (s : State) (c : Cmd) (n : Nat) : Option (State × List Byte) :=
  match (strandGet s (fxPrev c)).rx with
  | [] => some ({ s with free := s.free + n }, (List.range n).map fun i => Config.freeByte (s.free + i))
  | .chunk bs :: _ => some (strandTake s (fxPrev c), (List.range n).map fun i => bs.getD i 0)
  | _ => none

/-- The half of a chunk-step that sends a chunk of its own and makes the own copy (20 R456). -/
def fxSendHalf (s : State) (tile : Nat) (c : Cmd) (p : FxPlan) : EngOut State :=
  let a := c.agent
  engThen (match p.send with
    | some (va, n) => engThen (fxRead s tile a va n) fun x => .ok (strandSend x.1 (fxNext c) (.chunk x.2))
    | none => .ok s) fun s1 =>
  match p.copy with
  | some (src, dst, n) => engThen (fxRead s1 tile a src n) fun w => fxWrite w.1 tile a dst w.2
  | none => .ok s1

/-- The half of a chunk-step that reduces or stores the received chunk, and passes it on where the step relays it
(20 R456). -/
def fxRecvHalf (s : State) (tile : Nat) (c : Cmd) (p : FxPlan) (got : List Byte) : EngOut (State × FpFlags) :=
  let a := c.agent
  engThen (match p.mix with | some va => fxRead s tile a va got.length | none => .ok (s, [])) fun y =>
    let z := match p.mix with | some _ => fxCombine c got y.2 | none => (got, noFlags)
    engThen (match p.recv with | some (va, _) => fxWrite y.1 tile a va z.1 | none => .ok y.1) fun s1 =>
      .ok (if p.relay then strandSend s1 (fxNext c) (.chunk z.1) else s1, z.2)

/-- A run fault in the middle of a command: markers go out at once; resumption ends in the abort (20 R494). -/
def fxFault (s : State) (tile : Nat) (r : Run) (x : Trap) : State :=
  engStopAt (fxMarkers (fxMap s tile fun r => raSet r akHalt 1) r.cmd) tile 7 (cmdCode r.cmd) x

/-- The command whose next chunk-step can run: both neighbours are checked (20 R455, R456). -/
def fxNextStep (s : State) (tile : Nat) : Option Run :=
  match fxOpen s tile with
  | some r => if ra r akPrev = 1 ∧ ra r akNext = 1 ∧ r.unit < fxCount r.cmd then some r else none
  | none => none

/-- A chunk-step is done. -/
def fxStepEnd (s : State) (tile : Nat) (r : Run) (fl : FpFlags) : State :=
  let c := r.cmd
  let begins := fxColl c && decide (r.unit % fxPerStep c = 0) || decide (r.unit = fxFirst c)
  engMap s tile 7 fun x =>
    { runMap x (fun r => raSet { r with unit := r.unit + 1, phase := 0, flags := r.flags ||| flagBits fl } akFlit (timeOf s)) with
      progNext := r.unit + 1,
      regs := if begins then mapPut x.regs 12 (rvOf ((mapGet x.regs 12 (rvOf 0)).v + 1)) else x.regs }

/-- The step receives a chunk that is not empty. -/
def fxReceives (p : FxPlan) : Bool := match p.recv with | some (_, n) => decide (n ≠ 0) | none => false

/-- The receiving half, once the chunk is there. -/
def fxChunkIn (s : State) (tile : Nat) (r : Run) : State :=
  let p := fxPlan r.cmd r.unit
  match (match p.recv with | some (_, n) => if n = 0 then some (s, []) else fxArrived s r.cmd n | none => some (s, [])) with
  | none => s
  | some (s1, bs) =>
    match fxRecvHalf s1 tile r.cmd p bs with
    | .wait ask => engAsk s ask
    | .bad x => fxFault s tile r x
    | .ok (s2, fl) => fxStepEnd s2 tile r fl

/-- FX_CHUNK_STEP (20 R456, R458): the chunk goes out at once; the step ends when the chunk of the same step has come in, in
this event if it is there, else in a later one. -/
def fxChunkStep (tile : Nat) (s : State) : State :=
  match fxNextStep s tile with
  | none => s
  | some r =>
    let p := fxPlan r.cmd r.unit
    if r.phase = 1 then fxChunkIn s tile r
    else match fxSendHalf s tile r.cmd p with
      | .wait ask => engAsk s ask
      | .bad x => fxFault s tile r x
      | .ok s1 =>
        if p.send.isSome && fxReceives p && (strandGet s1 (fxPrev r.cmd)).rx.isEmpty then fxMap s1 tile fun r => { r with phase := 1 }
        else fxChunkIn s1 tile r

/-- The device makes its own DONE add: the sender of fxsend and the root of fxbcast (20 R457). -/
def fxSender (c : Cmd) : Bool := decide (cmdCode c = 4) || (decide (cmdCode c = 3) && decide (fxPos c = fxRoot c))

/-- The command whose chunk-steps are all done. -/
def fxFinished (s : State) (tile : Nat) (sender : Bool) : Option Run :=
  match fxOpen s tile with
  | some r => if fxCount r.cmd ≤ r.unit ∧ fxSender r.cmd = sender then some r else none
  | none => none

/-- A command completes: RES, flags (20 R456). -/
def fxComplete (s : State) (tile : Nat) (r : Run) : State :=
  engMap (orFpstat s tile r.flags) tile 7 fun x =>
    { x with runs := [], progSeq := x.progSeq + 1, regs := mapPut x.regs 11 (rvOf (BitVec.ofNat 64 (r.unit - fxFirst r.cmd))) }

/-- The DONE add of a command; 0 names no reel. -/
def fxAdd (s : State) (tile : Nat) (r : Run) (sc : Scope) : EngOut State :=
  if cmdReg r.cmd 5 = 0 then .ok s else engAdd s tile r.cmd.agent (BitVec.ofNat 64 (cmdReg r.cmd 5)) 1 sc

/-- ENGINE_COMMAND_COMPLETE on fx0: a sender's DONE add (20 R456, R494). -/
def fxDone (tile : Nat) (s : State) : State :=
  match fxFinished s tile true with
  | none => s
  | some r =>
    match fxAdd s tile r (fxScope r.cmd) with
    | .wait ask => engAsk s ask
    | .bad x => engStopAt s tile 7 (cmdCode r.cmd) x
    | .ok s1 => fxComplete s1 tile r

/-- FX_RECEIVE_ADD: the port's add for the sender, a release at .fab; a refused one stops both sides (20 R457, R494). -/
def fxReceiveAdd (tile : Nat) (s : State) : State :=
  match fxFinished s tile false with
  | none => s
  | some r =>
    match fxAdd s tile r .fab with
    | .wait ask => engAsk s ask
    | .bad x => engStopAt (strandSend s (fxPrev r.cmd) (.refused x.cause)) tile 7 (cmdCode r.cmd) x
    | .ok s1 => fxComplete s1 tile r

/-- The neighbour refused an add: the sender stops with its cause (20 R457). -/
def fxRefused (s : State) (tile : Nat) (r : Run) (cause : Nat) : State :=
  let s1 := strandTake s (fxNext r.cmd)
  if fxCount r.cmd ≤ r.unit then engStopAt s1 tile 7 (cmdCode r.cmd) (engTrap cause 0) else fxFault s1 tile r (engTrap cause 0)

/-- The command that has waited TMO µs for a flit, or has lost a link: cause and port (20 R458). -/
def fxLate (s : State) (tile : Nat) : Option (Nat × Nat) :=
  match fxOpen s tile with
  | some r =>
    let c := r.cmd
    if !(strandGet s (fxPrev c)).up then some (3, fxPrev c)
    else if !(strandGet s (fxNext c)).up then some (3, fxNext c)
    else if decide (r.unit < fxCount c) && decide (ra r akFlit + cmdReg c 7 * 1000 ≤ timeOf s) then
      (if ra r akPrev = 0 then some (1, fxPrev c)
       else if ra r akNext = 0 then some (2, fxNext c)
       else if (fxPlan c r.unit).recv.isSome then some (1, fxPrev c) else some (2, fxNext c))
    else none
  | none => none

/-- Tiles whose fx0 has waited too long, with cause and port (20 R458). -/
def fxDelays (s : State) : List (Nat × Nat × Nat) := s.tiles.filterMap fun x => (fxLate s x.1).map fun y => (x.1, y)

/-- FX_TIMEOUT (20 R458): a tile whose fx0 has waited too long. -/
def fxTimeout (s : State) : State :=
  match pickTurn s (fxDelays s) with
  | some (tile, cause, port) => fxAbort s tile cause port
  | none => s

/-- A port of a command that holds a marker, or a refusal, at its head. -/
def fxHasMarker (s : State) (c : Cmd) : Option Nat :=
  [fxPrev c, fxNext c].find? fun p => decide ((strandGet s p).rx.head? = some .marker)

/-- FX_ABORT_MARKER_ARRIVAL: the marker received, or one that arrives now on a free choice of port (20 R458; log entry 4). A
neighbour's refusal of an add is taken here too (20 R457). -/
def fxMarker (tile : Nat) (s : State) : State :=
  match fxOpen s tile with
  | none => s
  | some r =>
    let c := r.cmd
    match (strandGet s (fxNext c)).rx with
    | .refused cause :: _ => fxRefused s tile r cause
    | _ =>
      match fxHasMarker s c with
      | some p => fxAbort (strandTake s p) tile 4 p
      | none => fxAbort { s with free := s.free + 1 } tile 4 (if Config.freeBool s.free then fxPrev c else fxNext c)

/-- FX_FIRST_FLIT_CHECK, FX_CHUNK_STEP or FX_ABORT_MARKER_ARRIVAL needs something that the ports have not received: it is then
the arrival of it (log entry 4). -/
def fxAwaits (s : State) (tile code : Nat) : Bool :=
  match fxOpen s tile with
  | none => false
  | some r =>
    match code with
    | 110 => (match fxToCheck s r with | some (_, _, none) => true | _ => false)
    | 111 =>
      let p := fxPlan r.cmd r.unit
      (strandGet s (fxPrev r.cmd)).rx.isEmpty && fxReceives p && (p.send.isNone || decide (r.phase = 1))
    | _ => (fxHasMarker s r.cmd).isNone
      && !(match (strandGet s (fxNext r.cmd)).rx.head? with | some (.refused _) => true | _ => false)

/-- Resumption of a node with fx0 stopped: a fault in the middle of a command ends in the abort with cause 8; a fault of an
add leaves it owed (20 R494). -/
def fxResume (s : State) (tile : Nat) : State :=
  match (engGet (tileGet s tile) 7).runs with
  | r :: _ => if ra r akHalt = 1 then fxAbortEnd s tile 8 (fxPrev r.cmd) else s
  | [] => s

/-- Tiles whose fx0 runs a command over a port. -/
def fxOver (s : State) (p : Nat) : List Nat :=
  s.tiles.filterMap fun x => match (engGet x.2 7).runs with
    | r :: _ => if (fxPrev r.cmd = p ∨ fxNext r.cmd = p) ∧ (fxOpen s x.1).isSome then some x.1 else none
    | [] => none

/-- STRAND_REEL_ADD: an add of a remote F9, performed or refused to its sender, or sent again later where its page migrates (10 R247;
16 R359, 20 R457). -/
def strandAdd (port asid : Nat) (addr v : Word) (s : State) : State :=
  if !(strandGet s port).up then s
  else if addWaits s asid addr || s.owed.any fun o => decide (o.agent = remoteAgentId port) then
    owe (agentPut s (remoteAgentId port) (remoteAgent s port)) ⟨asid, none, 256, port, remoteAgentId port, addr, v, .fab, []⟩
  else match extAdd s asid (remoteAgentId port) (remoteAgent s port) addr v .fab with
    | .ok s1 => s1
    | .error c => strandSend s port (.refused c)

/-- TIME stamps are exchanged with a peer: align within 50 ns, and the F9 with the higher FAB_ID slews (20 R452). -/
def timeAlign (port : Nat) (peerTime : Word) (s : State) : State :=
  let x := strandGet s port
  if !x.up then s
  else
    let d : Int := (peerTime.toNat : Int) - timeOf s
    let near := decide (d.natAbs ≤ 50)
    let s1 := strandPut s port { x with align := x.align || near }
    if x.peer < s.mgmt.fabId.toNat % 4096 then { s1 with slew := if near then 0 else d * 360000 } else s1

/-- STRAND_LINK_UP: the link trains and the first exchange is made (20 R451, R452). -/
def strandUp (port peer pport : Nat) (peerTime : Word) (s : State) : State :=
  if 12 ≤ port ∨ s.portsLost.contains (port / 3) then s
  else
    let x := strandGet s port
    timeAlign port peerTime (strandPut s port { x with up := true, peer := peer % 4096, pport := pport % 16, align := false, rx := [] })

/-- STRAND_LINK_DOWN: up and align clear; collectives over the port abort with cause 3 (20 R451, R452, R458). -/
def strandDown (port : Nat) (s : State) : State :=
  let x := strandGet s port
  let s1 := strandPut s port { x with up := false, align := false, rx := [] }
  (fxOver s1 port).foldl (fun s tile => fxAbort s tile 3 port) s1

/-- The first flit of a neighbour is checked (20 R455). -/
def execFxFirstFlitCheck (tile : BitVec 8) (s : State) : Out := .next (fxFirstCheck tile.toNat s)

/-- One chunk goes each way (20 R456). -/
def execFxChunkStep (tile : BitVec 8) (s : State) : Out := .next (fxChunkStep tile.toNat s)

/-- The receiver-side add (20 R457). -/
def execFxReceiveAdd (tile : BitVec 8) (s : State) : Out := .next (fxReceiveAdd tile.toNat s)

/-- A flit has not come in time (20 R458). -/
def execFxTimeout (s : State) : Out := .next (fxTimeout s)

/-- An abort marker arrives (20 R458). -/
def execFxAbortMarkerArrival (tile : BitVec 8) (s : State) : Out := .next (fxMarker tile.toNat s)

/-- A strand link trains (20 R451, R452). -/
def execStrandLinkUp (port : BitVec 4) (peer : BitVec 12) (pport : BitVec 4) (peerTime : BitVec 64) (s : State) : Out :=
  .next (strandUp port.toNat peer.toNat pport.toNat peerTime s)

/-- A strand link goes down (20 R451, R458). -/
def execStrandLinkDown (port : BitVec 4) (s : State) : Out := .next (strandDown port.toNat s)

/-- TIME stamps are exchanged over a strand link (20 R452). -/
def execTimeAlignExchange (port : BitVec 4) (peerTime : BitVec 64) (s : State) : Out := .next (timeAlign port.toNat peerTime s)

/-- An add of a remote F9 arrives (16 R359). -/
def execStrandReelAdd (port : BitVec 4) (asid : BitVec 11) (addr : BitVec 64) (v : BitVec 64) (s : State) : Out :=
  .next (strandAdd port.toNat asid.toNat addr v s)

end Sys2Proof.Machine
end

