-- ==== Sys2Proof/Machine/View.lean ====
section
/-! DEFINITION. A slot operation as its class sees it: tile, slot, opcode and payload. -/

namespace Sys2Proof.Machine

open Sys2Proof

/-- A slot operation by class; an event is none of them. -/
inductive OpView where
  | c (tile opc : Nat) (o : COp)
  | m (tile slot opc : Nat) (o : MOp)
  | s (tile slot opc : Nat) (o : SOp)
  | v (tile slot opc : Nat) (o : VOp)
  | e (tile opc : Nat) (o : EOp)
  | event
deriving DecidableEq, Repr

/-- The class view of an instruction. -/
def opView (i : Instr) : OpView :=
  match i with
  | .nop tile o => .c tile.toNat 0x0 o
  | .jmp tile o => .c tile.toNat 0x1 o
  | .jmpi tile o => .c tile.toNat 0x2 o
  | .call tile o => .c tile.toNat 0x3 o
  | .ret tile o => .c tile.toNat 0x4 o
  | .loop tile o => .c tile.toNat 0x5 o
  | .loopr tile o => .c tile.toNat 0x6 o
  | .endOp tile o => .c tile.toNat 0x7 o
  | .yield tile o => .c tile.toNat 0x8 o
  | .suspend tile o => .c tile.toNat 0x9 o
  | .fork tile o => .c tile.toNat 0xA o
  | .join tile o => .c tile.toNat 0xB o
  | .csend tile o => .c tile.toNat 0xC o
  | .lease tile o => .c tile.toNat 0xD o
  | .leasew tile o => .c tile.toNat 0xE o
  | .wake tile o => .c tile.toNat 0xF o
  | .unleash tile o => .c tile.toNat 0x10 o
  | .slack tile o => .c tile.toNat 0x11 o
  | .fence tile o => .c tile.toNat 0x12 o
  | .vfence tile o => .c tile.toNat 0x13 o
  | .trap tile o => .c tile.toNat 0x14 o
  | .brk tile o => .c tile.toNat 0x15 o
  | .psplit tile o => .c tile.toNat 0x16 o
  | .pmerge tile o => .c tile.toNat 0x17 o
  | .parrive tile o => .c tile.toNat 0x18 o
  | .pwait tile o => .c tile.toNat 0x19 o
  | .ovl tile o => .c tile.toNat 0x1A o
  | .sleepk tile o => .c tile.toNat 0x1B o
  | .sleepkSource tile o => .c tile.toNat 0x1B o
  | .sleepkSet tile o => .c tile.toNat 0x1B o
  | .ld tile hi o => .m tile.toNat (if hi then 2 else 1) 0x0 o
  | .st tile hi o => .m tile.toNat (if hi then 2 else 1) 0x1 o
  | .ldq tile hi o => .m tile.toNat (if hi then 2 else 1) 0x2 o
  | .stq tile hi o => .m tile.toNat (if hi then 2 else 1) 0x3 o
  | .ldc tile hi o => .m tile.toNat (if hi then 2 else 1) 0x4 o
  | .stc tile hi o => .m tile.toNat (if hi then 2 else 1) 0x5 o
  | .pref tile hi o => .m tile.toNat (if hi then 2 else 1) 0x6 o
  | .rdset tile hi o => .m tile.toNat (if hi then 2 else 1) 0x7 o
  | .rdsetOrg tile hi o => .m tile.toNat (if hi then 2 else 1) 0x7 o
  | .rdget tile hi o => .m tile.toNat (if hi then 2 else 1) 0x8 o
  | .rdgetOrg tile hi o => .m tile.toNat (if hi then 2 else 1) 0x8 o
  | .rdadv tile hi o => .m tile.toNat (if hi then 2 else 1) 0x9 o
  | .rdadvOrg tile hi o => .m tile.toNat (if hi then 2 else 1) 0x9 o
  | .aadd tile hi o => .m tile.toNat (if hi then 2 else 1) 0x40 o
  | .aand tile hi o => .m tile.toNat (if hi then 2 else 1) 0x41 o
  | .aor tile hi o => .m tile.toNat (if hi then 2 else 1) 0x42 o
  | .axor tile hi o => .m tile.toNat (if hi then 2 else 1) 0x43 o
  | .amin tile hi o => .m tile.toNat (if hi then 2 else 1) 0x44 o
  | .amax tile hi o => .m tile.toNat (if hi then 2 else 1) 0x45 o
  | .aminn tile hi o => .m tile.toNat (if hi then 2 else 1) 0x46 o
  | .amaxn tile hi o => .m tile.toNat (if hi then 2 else 1) 0x47 o
  | .aswap tile hi o => .m tile.toNat (if hi then 2 else 1) 0x48 o
  | .acas tile hi o => .m tile.toNat (if hi then 2 else 1) 0x49 o
  | .aincw tile hi o => .m tile.toNat (if hi then 2 else 1) 0x4A o
  | .afaddb tile hi o => .m tile.toNat (if hi then 2 else 1) 0x4B o
  | .afaddF32 tile hi o => .m tile.toNat (if hi then 2 else 1) 0x4C o
  | .afaddBf16x2 tile hi o => .m tile.toNat (if hi then 2 else 1) 0x4D o
  | .kadd tile hi o => .m tile.toNat (if hi then 2 else 1) 0x80 o
  | .kwait tile hi o => .m tile.toNat (if hi then 2 else 1) 0x81 o
  | .kread tile hi o => .m tile.toNat (if hi then 2 else 1) 0x82 o
  | .kpoll tile hi o => .m tile.toNat (if hi then 2 else 1) 0x83 o
  | .kbind tile hi o => .m tile.toNat (if hi then 2 else 1) 0x84 o
  | .kinit tile hi o => .m tile.toNat (if hi then 2 else 1) 0x85 o
  | .add tile hi o => .s tile.toNat (if hi then 4 else 3) 0x0 o
  | .sub tile hi o => .s tile.toNat (if hi then 4 else 3) 0x1 o
  | .mul tile hi o => .s tile.toNat (if hi then 4 else 3) 0x2 o
  | .mulh tile hi o => .s tile.toNat (if hi then 4 else 3) 0x3 o
  | .mulhn tile hi o => .s tile.toNat (if hi then 4 else 3) 0x4 o
  | .div tile hi o => .s tile.toNat (if hi then 4 else 3) 0x5 o
  | .divn tile hi o => .s tile.toNat (if hi then 4 else 3) 0x6 o
  | .rem tile hi o => .s tile.toNat (if hi then 4 else 3) 0x7 o
  | .remn tile hi o => .s tile.toNat (if hi then 4 else 3) 0x8 o
  | .andOp tile hi o => .s tile.toNat (if hi then 4 else 3) 0x9 o
  | .orOp tile hi o => .s tile.toNat (if hi then 4 else 3) 0xA o
  | .xorOp tile hi o => .s tile.toNat (if hi then 4 else 3) 0xB o
  | .andn tile hi o => .s tile.toNat (if hi then 4 else 3) 0xC o
  | .shl tile hi o => .s tile.toNat (if hi then 4 else 3) 0xD o
  | .shr tile hi o => .s tile.toNat (if hi then 4 else 3) 0xE o
  | .sar tile hi o => .s tile.toNat (if hi then 4 else 3) 0xF o
  | .rol tile hi o => .s tile.toNat (if hi then 4 else 3) 0x10 o
  | .minOp tile hi o => .s tile.toNat (if hi then 4 else 3) 0x11 o
  | .maxOp tile hi o => .s tile.toNat (if hi then 4 else 3) 0x12 o
  | .minn tile hi o => .s tile.toNat (if hi then 4 else 3) 0x13 o
  | .maxn tile hi o => .s tile.toNat (if hi then 4 else 3) 0x14 o
  | .clz tile hi o => .s tile.toNat (if hi then 4 else 3) 0x15 o
  | .ctz tile hi o => .s tile.toNat (if hi then 4 else 3) 0x16 o
  | .popc tile hi o => .s tile.toNat (if hi then 4 else 3) 0x17 o
  | .brev tile hi o => .s tile.toNat (if hi then 4 else 3) 0x18 o
  | .bext tile hi o => .s tile.toNat (if hi then 4 else 3) 0x19 o
  | .bins tile hi o => .s tile.toNat (if hi then 4 else 3) 0x1A o
  | .sel tile hi o => .s tile.toNat (if hi then 4 else 3) 0x1B o
  | .mov tile hi o => .s tile.toNat (if hi then 4 else 3) 0x1C o
  | .li tile hi o => .s tile.toNat (if hi then 4 else 3) 0x1D o
  | .lih tile hi o => .s tile.toNat (if hi then 4 else 3) 0x1E o
  | .madr tile hi o => .s tile.toNat (if hi then 4 else 3) 0x1F o
  | .ceq tile hi o => .s tile.toNat (if hi then 4 else 3) 0x20 o
  | .cne tile hi o => .s tile.toNat (if hi then 4 else 3) 0x21 o
  | .clt tile hi o => .s tile.toNat (if hi then 4 else 3) 0x22 o
  | .cltn tile hi o => .s tile.toNat (if hi then 4 else 3) 0x23 o
  | .cle tile hi o => .s tile.toNat (if hi then 4 else 3) 0x24 o
  | .clen tile hi o => .s tile.toNat (if hi then 4 else 3) 0x25 o
  | .ctst tile hi o => .s tile.toNat (if hi then 4 else 3) 0x26 o
  | .pand tile hi o => .s tile.toNat (if hi then 4 else 3) 0x27 o
  | .por tile hi o => .s tile.toNat (if hi then 4 else 3) 0x28 o
  | .pnot tile hi o => .s tile.toNat (if hi then 4 else 3) 0x29 o
  | .fadd tile hi o => .s tile.toNat (if hi then 4 else 3) 0x2A o
  | .fsub tile hi o => .s tile.toNat (if hi then 4 else 3) 0x2B o
  | .fmul tile hi o => .s tile.toNat (if hi then 4 else 3) 0x2C o
  | .ffma tile hi o => .s tile.toNat (if hi then 4 else 3) 0x2D o
  | .fmin tile hi o => .s tile.toNat (if hi then 4 else 3) 0x2E o
  | .fmax tile hi o => .s tile.toNat (if hi then 4 else 3) 0x2F o
  | .fcmp tile hi o => .s tile.toNat (if hi then 4 else 3) 0x30 o
  | .fcvt tile hi o => .s tile.toNat (if hi then 4 else 3) 0x31 o
  | .vadd tile hi o => .v tile.toNat (if hi then 4 else 3) 0x100 o
  | .vsub tile hi o => .v tile.toNat (if hi then 4 else 3) 0x101 o
  | .vmul tile hi o => .v tile.toNat (if hi then 4 else 3) 0x102 o
  | .vfma tile hi o => .v tile.toNat (if hi then 4 else 3) 0x103 o
  | .vmin tile hi o => .v tile.toNat (if hi then 4 else 3) 0x104 o
  | .vmax tile hi o => .v tile.toNat (if hi then 4 else 3) 0x105 o
  | .vabs tile hi o => .v tile.toNat (if hi then 4 else 3) 0x106 o
  | .vneg tile hi o => .v tile.toNat (if hi then 4 else 3) 0x107 o
  | .vrcp tile hi o => .v tile.toNat (if hi then 4 else 3) 0x108 o
  | .vrsqrt tile hi o => .v tile.toNat (if hi then 4 else 3) 0x109 o
  | .vsqrt tile hi o => .v tile.toNat (if hi then 4 else 3) 0x10A o
  | .vexp2 tile hi o => .v tile.toNat (if hi then 4 else 3) 0x10B o
  | .vlog2 tile hi o => .v tile.toNat (if hi then 4 else 3) 0x10C o
  | .vtanh tile hi o => .v tile.toNat (if hi then 4 else 3) 0x10D o
  | .vcvt tile hi o => .v tile.toNat (if hi then 4 else 3) 0x10E o
  | .vscl tile hi o => .v tile.toNat (if hi then 4 else 3) 0x10F o
  | .vamax tile hi o => .v tile.toNat (if hi then 4 else 3) 0x110 o
  | .vand tile hi o => .v tile.toNat (if hi then 4 else 3) 0x111 o
  | .vor tile hi o => .v tile.toNat (if hi then 4 else 3) 0x112 o
  | .vxor tile hi o => .v tile.toNat (if hi then 4 else 3) 0x113 o
  | .vnot tile hi o => .v tile.toNat (if hi then 4 else 3) 0x114 o
  | .vshl tile hi o => .v tile.toNat (if hi then 4 else 3) 0x115 o
  | .vshr tile hi o => .v tile.toNat (if hi then 4 else 3) 0x116 o
  | .vsar tile hi o => .v tile.toNat (if hi then 4 else 3) 0x117 o
  | .vcmp tile hi o => .v tile.toNat (if hi then 4 else 3) 0x118 o
  | .vsel tile hi o => .v tile.toNat (if hi then 4 else 3) 0x119 o
  | .vbcast tile hi o => .v tile.toNat (if hi then 4 else 3) 0x11A o
  | .vcopy tile hi o => .v tile.toNat (if hi then 4 else 3) 0x11B o
  | .vperm tile hi o => .v tile.toNat (if hi then 4 else 3) 0x11C o
  | .viota tile hi o => .v tile.toNat (if hi then 4 else 3) 0x11D o
  | .vredsum tile hi o => .v tile.toNat (if hi then 4 else 3) 0x11E o
  | .vredmax tile hi o => .v tile.toNat (if hi then 4 else 3) 0x11F o
  | .vredmin tile hi o => .v tile.toNat (if hi then 4 else 3) 0x120 o
  | .vscan tile hi o => .v tile.toNat (if hi then 4 else 3) 0x121 o
  | .vsqsum tile hi o => .v tile.toNat (if hi then 4 else 3) 0x122 o
  | .vdot tile hi o => .v tile.toNat (if hi then 4 else 3) 0x123 o
  | .vrng tile hi o => .v tile.toNat (if hi then 4 else 3) 0x124 o
  | .vdrop tile hi o => .v tile.toNat (if hi then 4 else 3) 0x125 o
  | .vkat tile hi o => .v tile.toNat (if hi then 4 else 3) 0x126 o
  | .vclamp tile hi o => .v tile.toNat (if hi then 4 else 3) 0x127 o
  | .vpopc tile hi o => .v tile.toNat (if hi then 4 else 3) 0x128 o
  | .vcompress tile hi o => .v tile.toNat (if hi then 4 else 3) 0x129 o
  | .vexpand tile hi o => .v tile.toNat (if hi then 4 else 3) 0x12A o
  | .ewr tile o => .e tile.toNat 0x0 o
  | .erd tile o => .e tile.toNat 0x1 o
  | .etrig tile o => .e tile.toNat 0x2 o
  | .eabort tile o => .e tile.toNat 0x3 o
  | .ewaitq tile o => .e tile.toNat 0x4 o
  | .packageReset _ _ _ => .event
  | .toldodyLinkTrained _ _ _ => .event
  | .securityAlarm _ => .event
  | .dieLost _ => .event
  | .strandLinkUp _ _ _ _ => .event
  | .strandLinkDown _ => .event
  | .timeAlignExchange _ _ => .event
  | .strandReelAdd _ _ _ _ => .event
  | .freqCmd _ _ => .event
  | .lqTailWrite _ _ _ => .event
  | .lqCtlWrite _ _ _ => .event
  | .lqBaseWrite _ _ _ => .event
  | .bobbinPickup _ => .event
  | .stealAttempt _ => .event
  | .stewardSteal _ => .event
  | .indexFetch _ => .event
  | .bundleDispatch _ => .event
  | .bundleCommit _ => .event
  | .resultLanding _ => .event
  | .remoteReplyArrival _ _ => .event
  | .freezeBegin _ => .event
  | .lateTransitionFlag _ => .event
  | .clockStretch _ => .event
  | .preciseTrap _ => .event
  | .inFlightFault _ => .event
  | .frCtlWrite _ _ _ => .event
  | .frBaseWrite _ _ _ => .event
  | .frHeadWrite _ _ _ => .event
  | .frStatIpendClear _ _ _ => .event
  | .nodeResume _ _ => .event
  | .nodeResumeOver _ _ => .event
  | .nodeSave _ _ => .event
  | .nodeKill _ _ => .event
  | .nodeYield _ _ => .event
  | .tlbiPage _ _ => .event
  | .tlbiAsid _ _ => .event
  | .tlbiHost _ _ => .event
  | .frzFreeze _ _ => .event
  | .frzThaw _ _ => .event
  | .patrolScrubRead _ => .event
  | .windowBarAccess _ _ _ _ => .event
  | .completerAtomicop _ _ _ _ => .event
  | .hkadd _ _ => .event
  | .leaseCmdEvict _ _ _ => .event
  | .shepFcmdClear _ _ => .event
  | .sumCmd _ _ => .event
  | .attCmd _ _ => .event
  | .tileDbgWrite _ _ _ => .event
  | .csaWrite _ _ _ => .event
  | .hostCfgWrite _ _ => .event
  | .alarmCtlWrite _ _ => .event
  | .scrubCtlWrite _ _ => .event
  | .shepCtlWrite _ _ _ => .event
  | .dieStealCtlWrite _ _ _ => .event
  | .mmioRegisterWrite _ _ _ _ => .event
  | .rcRegisterRead _ _ _ => .event
  | .elasticBufferAccept _ _ => .event
  | .enginePowerUpComplete _ _ => .event
  | .copyBurst _ _ => .event
  | .copyGateWaitEnd _ _ => .event
  | .copyBindingWaitEnd _ _ => .event
  | .copySignal _ _ => .event
  | .arrayRingWaitEnd _ _ => .event
  | .arrayGroupLanding _ _ => .event
  | .arrayComputeEnd _ _ => .event
  | .drainRow _ _ => .event
  | .dstqWaitEnd _ _ => .event
  | .drainRowStore _ _ => .event
  | .arrayDoneAdd _ _ => .event
  | .engineUnit _ _ => .event
  | .engineCommandComplete _ _ => .event
  | .fxFirstFlitCheck _ => .event
  | .fxChunkStep _ => .event
  | .fxReceiveAdd _ => .event
  | .fxAbortMarkerArrival _ => .event
  | .vectorOperationStart _ => .event
  | .vectorElementGroup _ => .event
  | .spuriousWake _ _ => .event
  | .governorWindowEnd _ => .event
  | .safeRestore _ => .event
  | .currentReading _ _ => .event
  | .temperatureReading _ _ => .event
  | .marginTableLoad => .event
  | .freqChangeClockStop => .event
  | .freqChangeClockRestart => .event
  | .launchRecordCheck => .event
  | .dependenceMet => .event
  | .agingLift => .event
  | .placementDecision => .event
  | .launchLoadComplete => .event
  | .dictionaryFillComplete => .event
  | .fetchBufferFillComplete => .event
  | .freezeWatchdogExpiry => .event
  | .faultRecordWrite => .event
  | .nodeCommandComplete => .event
  | .yieldDeadlineExpiry => .event
  | .contextSaveComplete => .event
  | .contextRestore => .event
  | .retirementComplete => .event
  | .tlbiComplete => .event
  | .freezeRecallComplete => .event
  | .translationWalk => .event
  | .walkComplete => .event
  | .migrationWalkRetry => .event
  | .atomicBounce => .event
  | .remotePoolRequest => .event
  | .nearMemoryAtomic => .event
  | .conflictCheckAnswer => .event
  | .poolCorrectionWriteback => .event
  | .bankMarkFailed => .event
  | .bankRebuildLine => .event
  | .hkaddPerform => .event
  | .shepFcmdComplete => .event
  | .summaryComplete => .event
  | .attQuoteComplete => .event
  | .leaseQueueGrant => .event
  | .idleGating => .event
  | .wokenIdleReturn => .event
  | .releaseComplete => .event
  | .standbyGraceExpiry => .event
  | .engineRunFault => .event
  | .fxTimeout => .event
  | .pollBackoffExpiry => .event
  | .parkedPollTest => .event
  | .sleepkWaitEnd => .event
  | .governorWindowTimeout => .event
  | .grantAdjust => .event
  | .governorEmergency => .event
  | .emergencyEnd => .event
  | .marginDailyWrite => .event
  | .managementPortFailure => .event

end Sys2Proof.Machine
end

