-- ==== Sys2Proof/Machine/Issue.lean ====
section
/-! DEFINITION. How an operation issues: queue positions in sequential order (05 R101), the conditions of issue and
the core stalls (05 R98 to R100, R110, R113), and the frame that every meaning of a slot operation runs in. -/

namespace Sys2Proof.Machine

open Sys2Proof

/-- Element size in bytes of an access (03 R71). -/
def sizeBytes : Size → Nat
  | .b => 1 | .h => 2 | .w => 4 | .d => 8 | .line => 64

/-- The queue that a port names, as a list of at most one. -/
def qOf (p : Port) : List Nat := (queueOf p).toList

/-- Load-type operations of the access class: data is a destination (08 R197). -/
def isLoadType (opc : Nat) : Bool :=
  decide (opc = 0x000) || decide (opc = 0x002) || decide (opc = 0x004) || decide (opc = 0x008) || decide (opc = 0x082)

/-- The queues an operation pops, in order (03 R77, 08 R197, 09 R203). -/
def popUse : OpView → List Nat
  | .m _ _ opc o =>
    qOf o.base ++ qOf o.index ++
      (if isLoadType opc then []
       else if opc = 0x003 then (qOf o.data).flatMap fun q => List.replicate (64 / sizeBytes o.size) q
       else qOf o.data)
  | .s _ _ _ o => qOf o.srcA ++ qOf o.srcB
  | .v _ _ _ o => (if o.qa then [o.va.toNat % 8] else []) ++ (if o.qb then [o.vb.toNat % 8] else [])
  | _ => []

/-- The queues an operation pushes, in order. -/
def pushUse : OpView → List Nat
  | .m _ _ opc o =>
    if opc = 0x002 then (qOf o.data).flatMap fun q => List.replicate (64 / sizeBytes o.size) q
    else if isLoadType opc then qOf o.data else []
  | .s _ _ _ o => qOf o.dst
  | .v _ slot _ o => if o.qd then [if slot = 3 then 8 else 9] else []
  | _ => []

/-- Queue counters with the positions handed out so far and whether a pop found nothing or a push found no room. -/
structure QAlloc where
  pop : NMap Nat
  push : NMap Nat
  pops : List (Nat × Nat × Nat)
  pushes : List (Nat × Nat × Nat)
  bad : List (Nat × Trap)
deriving DecidableEq, Repr

/-- Records a queue fault of a slot once. -/
def qFault (a : QAlloc) (slot cause : Nat) : QAlloc :=
  if a.bad.any (fun f => decide (f.1 = slot)) then a else { a with bad := a.bad ++ [(slot, trapOf cause)] }

/-- One pop in sequential order (05 R101). -/
def allocPop (slot : Nat) (a : QAlloc) (q : Nat) : QAlloc :=
  let i := mapGet a.pop q 0
  if i < mapGet a.push q 0 then { a with pop := mapPut a.pop q (i + 1), pops := a.pops ++ [(slot, q, i)] }
  else qFault a slot causeQueueUnderflow

/-- One push in sequential order (05 R101). -/
def allocPush (cap slot : Nat) (a : QAlloc) (q : Nat) : QAlloc :=
  let i := mapGet a.push q 0
  if i - mapGet a.pop q 0 < cap then { a with push := mapPut a.push q (i + 1), pushes := a.pushes ++ [(slot, q, i)] }
  else qFault a slot causeQueueOverflow

/-- The pops, then the pushes, of one slot operation. -/
def allocOp (cap : Nat) (a : QAlloc) (x : Nat × OpView) : QAlloc :=
  (pushUse x.2).foldl (allocPush cap x.1) ((popUse x.2).foldl (allocPop x.1) a)

/-- Entries of each queue: 512 for each unit of the partition's queue field (05 R101). -/
def queueCap (t : Tile) : Nat := 512 * t.partQueue

/-- A control operation that holds dispatch until its issue: a transfer that resolves there, and sleepk (07 R148, R162). -/
def lateTransfer (o : COp) (opc : Nat) : Bool :=
  let guarded := decide (o.guard ≠ ⟨false, 0⟩)
  decide (opc = 0x002) || decide (opc = 0x004) || decide (opc = 0x006) || decide (opc = 0x01B)
    || (guarded && (decide (opc = 0x001) || decide (opc = 0x003) || decide (opc = 0x005)))

/-- B + SignExtend(target), modulo 2^64 (07 R147). -/
def pcAdd (b : Nat) (t : BitVec 24) : Nat := (BitVec.ofNat 64 b + t.signExtend 64).toNat

/-- Control reaches `pc`: the exits of innermost loop entries there are counted down (07 R149). -/
def exitTest : List LoopEnt → Nat → List LoopEnt × Nat
  | [], pc => ([], pc)
  | e :: es, pc =>
    if e.exit = pc then (if e.left ≤ 1 then exitTest es pc else ({ e with left := e.left - 1 } :: es, e.start))
    else (e :: es, pc)

/-- A taken jmp or jmpi: entries whose body it leaves are popped (07 R149, R150). -/
def jumpTo : List LoopEnt → Nat → List LoopEnt × Nat
  | [], pc => ([], pc)
  | e :: es, pc => if pc < e.start ∨ e.exit < pc then jumpTo es pc else exitTest (e :: es) pc

/-- B + target of a loop or loopr, not reduced (07 R149). -/
def loopExit (pc : Nat) (t : BitVec 24) : Int := (pc : Int) + t.toInt

/-- loop and loopr with `n` runs of the body from `next` to `exit` (07 R149, R150). -/
def loopEnter (l : List LoopEnt) (next : Nat) (exit : Int) (n : Nat) : Except Nat (List LoopEnt × Nat) :=
  if exit ≤ next then .error causeIllegalOperation
  else if n = 0 then .ok (exitTest l exit.toNat)
  else if 4 ≤ l.length then .error causeLoopState
  else .ok (⟨next, exit.toNat, n⟩ :: l, next)

/-- The guard that is always true (07 R144). -/
def unguarded (g : Guard) : Bool := decide (g = ⟨false, 0⟩)

/-- The control operation of a bundle. -/
def ctlOf (views : List (Nat × OpView)) : Option (Nat × COp) :=
  views.findSome? fun x => match x.2 with
    | .c _ opc o => some (opc, o)
    | _ => none

/-- Where control goes at the dispatch of a bundle: unguarded jmp, call and loop resolve there, and everything else goes to
its successor (07 R148, R149). -/
def earlyFlow (l : List LoopEnt) (pc next : Nat) (ctl : Option (Nat × COp)) : Except Nat (List LoopEnt × Nat) :=
  match ctl with
  | some (opc, o) =>
    if unguarded o.guard then
      match opc with
      | 0x001 => .ok (jumpTo l (pcAdd pc o.target))
      | 0x003 => .ok (l, pcAdd pc o.target)
      | 0x005 => loopEnter l next (loopExit pc o.target) o.imm.toNat
      | _ => .ok (exitTest l next)
    else .ok (exitTest l next)
  | none => .ok (exitTest l next)

/-- The bundle ends the bobbin, whatever its predicates: nothing is dispatched after it (07 R152). -/
def endsHere (hdr : Nat) (ctl : Option (Nat × COp)) : Bool :=
  natBit hdr 22 || (match ctl with
    | some (opc, o) => decide (opc = 0x007) && unguarded o.guard
    | none => false)

/-- The guard of an operation. -/
def viewGuard : OpView → Guard
  | .c _ _ o => o.guard
  | .m _ _ _ o => o.guard
  | .s _ _ _ o => o.guard
  | .v _ _ _ o => o.guard
  | .e _ _ o => o.guard
  | .event => ⟨false, 0⟩

/-- What an operation word of a slot says. -/
def slotView (tile slot : Nat) (w : SlotWord) : OpView := ((slotInstr slot (BitVec.ofNat 8 tile) w).map opView).getD .event

/-- Puts a bundle into the window: assigns its queue entries, resolves what resolves at dispatch, and remembers the control
state before it (05 R98, R101; 07 R148). The end bit leaves a transfer no effect (07 R148). A sleepk holds dispatch but is no transfer: control reaches N at its dispatch
(07 R149, R162). -/
def enterBundle (s : State) (tile pc next hdr : Nat) (ops : List (Nat × SlotWord)) : State × Bundle :=
  let t := tileGet s tile
  let c := t.core
  let views := ops.map fun x => (x.1, slotView tile x.1 x.2)
  let a := views.foldl (allocOp (queueCap t)) ⟨c.qpop, c.qpush, [], [], []⟩
  let ctl := ctlOf views
  let late := match ctl with
    | some (opc, o) => lateTransfer o opc
    | none => false
  let sleeps := match ctl with
    | some (opc, _) => decide (opc = 0x01B)
    | none => false
  let flow : Except Nat (List LoopEnt × Nat) := if natBit hdr 22 || late && !sleeps then .ok (c.loops, next) else earlyFlow c.loops pc next ctl
  let bad : List (Nat × Trap) := match flow with
    | .error x => [(0, trapOf x)]
    | .ok _ => []
  let go : List LoopEnt × Nat := match flow with
    | .error _ => (c.loops, next)
    | .ok x => x
  let b : Bundle :=
    { seq := c.nextSeq, pc, next, hdr, sync := natBit hdr 23, fin := natBit hdr 22, words := ops,
      todo := (ops.map (·.1)).filter fun k => !a.bad.any fun f => decide (f.1 = k),
      past := 0, pops := a.pops, pushes := a.pushes, faults := bad ++ a.bad, acts := [], loops0 := c.loops, qpop0 := c.qpop,
      qpush0 := c.qpush, unresolved := late || endsHere hdr ctl, poll := none }
  (corePut s tile { c with window := c.window ++ [b], nextSeq := c.nextSeq + 1, qpop := a.pop, qpush := a.push,
                           pc := go.2, loops := go.1, cur := none }, b)

/-- Every slot of the bundles older than a sync bundle at or before `seq` has issued in an earlier tick (05 R99). -/
def syncClear (c : Core) (seq : Nat) : Bool :=
  c.window.all fun y => !(y.sync && decide (y.seq ≤ seq)) ||
    c.window.all fun x => !decide (x.seq < y.seq) || (x.todo.isEmpty && decide (x.past ≤ c.ticks))

/-- The oldest bundle whose operation of a slot has not issued. -/
def slotNext? (c : Core) (slot : Nat) : Option Bundle := c.window.find? fun b => b.todo.contains slot

/-- An unaccepted engine operation forbids issue of bundle `seq` under its slack (05 R110). -/
def slackBlocks (t : Tile) (seq : Nat) : Bool :=
  (List.range 10).any fun e => (engGet t e).buf.any fun x => decide (x.seq + x.slack + 1 ≤ seq)

/-- The engine that an engine-slot word names, whatever its fields. -/
def eaEngine (w : SlotWord) : Nat := (w.extractLsb' 42 5).toNat

/-- The elastic buffer of an engine-slot operation is full (05 R109). -/
def bufFull (t : Tile) (w : SlotWord) : Bool := decide (16 ≤ (engGet t (eaEngine w)).buf.length)

/-- The energy weight of a fetched bundle (03 R68). -/
def bundleEnergy (bits : Nat) : Nat := natBits bits 378 4

/-- Dispatch of the fetched bundle could take place in this tick, energy aside (05 R98, 07 R148, R162, 16 R366). -/
def dispatchOpen (t : Tile) : Bool :=
  let c := t.core
  t.running.isSome && !t.halted && decide (c.window.length < 16) && decide (mapGet c.busy 6 0 ≤ c.ticks)
    && decide (c.hold ≤ c.ticks) && c.decodeStop.isNone && c.window.all (fun b => !b.unresolved)

/-- Dispatching a bundle of weight `e` would exceed the energy profile over 32 cycles (05 R114). -/
def energyOver (t : Tile) (e : Nat) : Bool :=
  decide (0 < e) && decide (t.gov.p < (t.core.energy.take 31).sum + e)

/-- An older fence or vfence has not issued (07 R159). -/
def fenceHolds (c : Core) (seq : Nat) : Bool :=
  c.window.any fun b => decide (b.seq < seq) && b.todo.contains 0 &&
    (let k := (opcodeOf (mapGet b.words 0 0)).toNat
     decide (k = 0x12) || decide (k = 0x13))

/-- The test of a pwait or a join that has issued, which lands at the commit of its bundle (07 R151, R153, R158). -/
def testHolds (b : Bundle) : Bool :=
  b.acts.any fun a => match a.2 with
    | .pwait => true
    | .park _ _ _ always => !always
    | _ => false

/-- An older acquire has not landed (08 R178). -/
def acqHolds (c : Core) (seq : Nat) : Bool :=
  c.flights.any (fun f => f.acq && decide (f.seq < seq)) || c.window.any fun b => decide (b.seq < seq) && testHolds b

/-- Operations that an older acquire holds: M, E, csend, fork (08 R178). -/
def acqHeld : OpView → Bool
  | .m _ _ _ _ => true
  | .e _ _ _ => true
  | .c _ opc _ => decide (opc = 0x00A) || decide (opc = 0x00C)
  | _ => false

/-- An older slack has not issued: an engine operation waits (05 R111). -/
def slackHolds (c : Core) (seq : Nat) : Bool :=
  c.window.any fun b => decide (b.seq ≤ seq) && b.todo.contains 0 && decide ((opcodeOf (mapGet b.words 0 0)).toNat = 0x11)

/-- Every write, atomic and reel add of a bundle older than `seq` has been performed (07 R159). -/
def writesDone (c : Core) (seq : Nat) : Bool :=
  c.window.all (fun b => decide (seq ≤ b.seq))
    && c.flights.all (fun f => decide (seq ≤ f.seq) || f.effs.all fun e => match e with
      | .cells _ | .nib _ _ _ | .reelAdd _ _ | .reelSet _ _ => false
      | _ => true)
    && c.vec.all (fun v => decide (seq ≤ v.seq))
    && c.reqs.all (fun r => decide (seq ≤ r.seq) || (match r.kind with
      | .store | .atomic | .kadd | .kinit => decide (r.st = .sent) || decide (r.st = .done)
      | _ => true))

/-- Every read of a bundle older than `seq` has landed (07 R159). -/
def readsDone (c : Core) (seq : Nat) : Bool :=
  c.window.all (fun b => decide (seq ≤ b.seq) || (!b.todo.contains 1 && !b.todo.contains 2))
    && c.flights.all (fun f => decide (seq ≤ f.seq) || !f.rd)

/-- An ordered access waits in its slot for the condition of a rel fence (08 R178). -/
def relWaits (c : Core) (seq : Nat) (o : Order) : Bool :=
  match o with
  | .rel | .acqrel => !writesDone c seq
  | _ => false

/-- A fence waits for older writes, older reads or both (07 R159). -/
def fenceWaits (c : Core) (seq : Nat) (imm : BitVec 13) : Bool :=
  let ord := memOrderOf (imm.extractLsb' 3 2)
  (ordRel ord && !writesDone c seq) || (ordAcq ord && !readsDone c seq)

/-- Every vector operation of an older bundle has issued and landed its last element (07 R159). -/
def vecDone (c : Core) (seq : Nat) : Bool :=
  c.vec.all (fun v => decide (seq ≤ v.seq))
    && c.window.all fun b => decide (seq ≤ b.seq) || b.todo.all fun k =>
      !(decide (k = 3) || decide (k = 4)) || decide ((opcodeOf (mapGet b.words k 0)).toNat < 0x100)

/-- A request writes bytes of the 64-byte block at offset `off` of a tile's pool. -/
def reqHits (tile off : Nat) (r : Req) : Bool :=
  match fullPlace r.addr with
  | .pool t x => (decide (r.kind = .store) || decide (r.kind = .atomic)) && decide (t = tile) && decide (off < x + r.size * r.n)
      && decide (x < off + 64)
  | _ => false

/-- A store of an older bundle may still change the block (07 R155). -/
def blockPending (t : Tile) (tile seq off : Nat) : Bool :=
  let hits (e : Eff) : Bool := match e with
    | .cells cs => cs.any fun x => decide (off ≤ x.1) && decide (x.1 < off + 64)
    | .nib a _ _ => decide (off ≤ a) && decide (a < off + 64)
    | _ => false
  t.core.window.any (fun b => decide (b.seq < seq) && (b.todo.contains 1 || b.todo.contains 2))
    || t.core.flights.any (fun f => decide (f.seq < seq) && f.effs.any hits)
    || t.core.reqs.any fun r => decide (r.seq < seq) && reqHits tile off r && decide (r.st ≠ .sent) && decide (r.st ≠ .done)

/-- A csend whose send spec is `v` waits in its slot: for stores to its block, or for room in the target's queue (02 R59,
07 R155). -/
def csendWaits (s : State) (tile seq : Nat) (v : Word) : Bool :=
  blockPending (tileGet s tile) tile seq (natBits v.toNat 0 23)
    || decide (16 ≤ (engGet (tileGet s (natBits v.toNat 32 8)) (natBits v.toNat 40 4)).queue.length)

/-- A tile waits in slot ca at a collective operation: its field j (07 R158). -/
def collWaiting (s : State) (opc tile : Nat) : Option Nat :=
  let c := coreGet s tile
  match slotNext? c 0 with
  | none => none
  | some b =>
    let w := mapGet b.words 0 0
    if (opcodeOf w).toNat = opc ∧ guardTrue s tile (guardOf (w.extractLsb' 56 4)) then some (w.toNat % 16) else none

/-- The fields j of all tiles of a pack, once each has reached the operation; the asking tile has. -/
def collAll (s : State) (opc tile j : Nat) (p : Pack) : Option (List Nat) :=
  p.tiles.mapM fun x => if x = tile then some j else collWaiting s opc x

/-- A psplit or pmerge waits for another tile of its pack (07 R158). -/
def collWaits (s : State) (opc tile : Nat) : Bool :=
  match packGet? s (tileGet s tile).packId with
  | none => true
  | some p => !(p.arrived.any fun x => decide (x.1 = tile)) && (collAll s opc tile 0 p).isNone

/-- A wait that an operation of slot ca makes for itself (07 R155, R158, R159). -/
def ctlWaits (s : State) (tile seq opc : Nat) (o : COp) : Bool :=
  match opc with
  | 0x00C => csendWaits s tile seq ((readPorts s tile (o.imm.setWidth 64) [o.cport] []).headD (rvOf 0)).v
  | 0x012 => fenceWaits (coreGet s tile) seq o.imm
  | 0x013 => !vecDone (coreGet s tile) seq
  | 0x016 | 0x017 => collWaits s opc tile
  | _ => false

/-- An opcode of an atomic (04 R85). -/
def isAtomic (opc : Nat) : Bool := decide (0x040 ≤ opc) && decide (opc ≤ 0x04D)

/-- An atomic of slot ab waits for that of slot aa of its bundle, whose new value it is to read on one word (08 R188; DESIGN CHOICE, log
entry 65). -/
def atomWaits (b : Bundle) (slot opc : Nat) : Bool :=
  decide (slot = 2) && isAtomic opc && b.todo.contains 1 && isAtomic (opcodeOf (mapGet b.words 1 0)).toNat

/-- A slot wait that an operation whose guard is true makes for itself, pool arbitration aside (05 R100, R106; 07 R155, R158,
R159; 08 R178). -/
def bodyWaits (s : State) (tile : Nat) (b : Bundle) : OpView → Bool
  | .v _ _ _ _ => decide (4 ≤ (coreGet s tile).vec.length)
  | .m _ slot opc o => relWaits (coreGet s tile) b.seq o.order || atomWaits b slot opc
  | .c _ opc o => ctlWaits s tile b.seq opc o
  | _ => false

/-- An operation may issue in this tick as far as its class-independent conditions go, the elastic buffers and the slack aside
(05 R99, R100); one that is predicated off waits in its slot for its pops alone (07 R144). -/
def issueOpen (s : State) (tile slot : Nat) (b : Bundle) (v : OpView) : Bool :=
  let c := coreGet s tile
  b.todo.contains slot && decide (mapGet c.busy slot 0 ≤ c.ticks) && syncClear c b.seq && !fenceHolds c b.seq
    && popsLanded c b slot
    && (!guardTrue s tile (viewGuard v)
        || (!(acqHeld v && acqHolds c b.seq) && !(decide (slot = 5) && slackHolds c b.seq)))

/-- It finds the elastic buffer of its engine full (05 R109). -/
def bufHolds (s : State) (tile slot : Nat) (b : Bundle) (v : OpView) : Bool :=
  decide (slot = 5) && guardTrue s tile (viewGuard v) && bufFull (tileGet s tile) (mapGet b.words 5 0)

/-- An operation may issue in this tick as far as its class-independent conditions go (05 R99, R100, R109, R110). -/
def canIssue (s : State) (tile slot : Nat) (b : Bundle) (v : OpView) : Bool :=
  issueOpen s tile slot b v && !slackBlocks (tileGet s tile) b.seq && !bufHolds s tile slot b v

/-- A bundle may leave its bobbin at its commit, which then waits for landings (07 R151 to R153; 08 R192). -/
def mayLeave (c : Core) (b : Bundle) : Bool :=
  b.fin || c.reqs.any (fun r => decide (r.seq = b.seq) && decide (r.kind = .kwait)) || b.acts.any fun a => match a.2 with
    | .endBobbin | .yield | .pwait | .park _ _ _ _ => true
    | .lease _ _ _ _ w _ _ _ => w
    | _ => false

/-- The commits of the bundles up to `seq` need no further tick: every operation has issued, and where a bundle may leave its
bobbin, everything has landed (log entry 32). -/
def commitsUntimed (c : Core) (seq : Nat) : Bool :=
  c.window.all fun b => decide (seq < b.seq) || (b.todo.isEmpty && b.poll.isNone
    && (!mayLeave c b || (c.flights.all (fun f => decide (b.seq < f.seq)) && c.vec.all fun v => decide (b.seq < v.seq))))

/-- The oldest operation of a slot with its bundle, if nothing holds its issue but an elastic buffer or the slack. -/
def slotReady? (s : State) (tile slot : Nat) : Option (Bundle × OpView) :=
  (slotNext? (coreGet s tile) slot).bind fun b =>
    let v := slotView tile slot (mapGet b.words slot 0)
    if issueOpen s tile slot b v && !(guardTrue s tile (viewGuard v) && bodyWaits s tile b v) then some (b, v) else none

/-- The state in which the other slots find slot ca in this tick: its operation issues first. -/
def caFirst (s : State) (tile : Nat) : State :=
  match slotReady? s tile 0 with
  | some (b, _) => corePut s tile (bundleMap (coreGet s tile) b.seq fun x => { x with todo := x.todo.filter (· ≠ 0) })
  | none => s

/-- An operation would issue in this tick but for an elastic buffer or the slack (05 R109, R110). Where the commit of the
engine operation that holds it needs further ticks, it waits in its slot and does not stall the core (DESIGN CHOICE, log
entry 32). -/
def slotStalls (s : State) (tile slot : Nat) : Bool :=
  let t := tileGet s tile
  match slotReady? (if slot = 0 then s else caFirst s tile) tile slot with
  | none => false
  | some (b, v) =>
    let soon (x : EEntry) : Bool := x.committed || commitsUntimed t.core x.seq
    ((List.range 10).any fun e => (engGet t e).buf.any fun x => soon x && decide (x.seq + x.slack + 1 ≤ b.seq))
      || (bufHolds s tile slot b v && (engGet t (eaEngine (mapGet b.words 5 0))).buf.head?.any soon)

/-- The core is in a core stall (05 R113). -/
def coreStalled (s : State) (tile : Nat) : Bool :=
  let t := tileGet s tile
  t.core.lineWait.isSome || t.core.pageWait.isSome
    || (match t.core.cur with
        | some (bits, _) => dispatchOpen t && energyOver t (bundleEnergy bits)
        | none => false)
    || (t.engines.any (fun e => !e.2.buf.isEmpty) && (List.range 6).any (slotStalls s tile))

/-- A bobbin is on the tile, and its clock runs (05 R96). -/
def coreLive (s : State) (tile : Nat) : Bool :=
  let t := tileGet s tile
  t.running.isSome && !t.halted && t.core.frozen.isNone && !s.clockStop && clockOn t.core

/-- Operations may issue: nothing holds the tick in progress, and its results have not landed (05 R96, R105, R113). -/
def coreRuns (s : State) (tile : Nat) : Bool :=
  coreLive s tile && (match (coreGet s tile).stage with
    | .start => !coreStalled s tile
    | .issue => true
    | .landed => false)

/-- The slot word of an instruction. -/
def slotWordOf (i : Instr) : SlotWord := (encodeStep i).l0.setWidth 60

/-- The bundle whose operation this is: the oldest one whose operation of the slot has not issued, if it is this word;
with none waiting, a literal bundle at the fetch pc that holds this operation alone (DESIGN CHOICE, log entry 1). -/
def takeOp (s : State) (tile slot : Nat) (w : SlotWord) : Option (State × Bundle) :=
  let c := coreGet s tile
  match slotNext? c slot with
  | some b => if mapGet b.words slot 0 = w then some (s, b) else none
  | none =>
    if c.window.length < 16 then some (enterBundle s tile c.pc (c.pc + 25) (2 ^ (12 + slot)) [(slot, w)]) else none

/-- The operation has issued: the slot is used in this tick (05 R99). -/
def markIssued (s : State) (tile seq slot : Nat) : State :=
  let c := coreGet s tile
  corePut s tile { bundleMap c seq (fun b => { b with todo := b.todo.filter (· ≠ slot), past := c.ticks + 1 }) with
                   busy := mapPut c.busy slot (c.ticks + 1), stage := .issue }

/-- The issue of a slot operation: where it cannot issue, or `body` answers that it waits in its slot, nothing
changes (05 R99, R100); else its effects are under way and its slot is used. -/
def issueOp (i : Instr) (tile slot : Nat) (s : State) (body : State → Bundle → Option State) : Out :=
  if coreRuns s tile then
    match takeOp s tile slot (slotWordOf i) with
    | none => .next s
    | some (s1, b) =>
      if canIssue s1 tile slot b (opView i) then
        match body s1 b with
        | none => .next s
        | some s2 => .next (markIssued s2 tile b.seq slot)
      else .next s
  else .next s

/-- The registers that the reply of a request will write (05 R104, R108). -/
def reqKeys (r : Req) : List Nat :=
  let dst := match r.dst with | .s 0 | .p 0 => [] | .s _ | .p _ | .m _ => [portKey r.dst] | _ => []
  match r.kind with
  | .load => if r.opc = 0x002 then [] else latchKey r.slot 1 :: dst
  | .atomic => latchKey r.slot 2 :: if r.opc = 0x04B then [latchKey r.slot 3] else []
  | .kread => latchKey r.slot 3 :: dst
  | .kpoll => [latchKey r.slot 3]
  | _ => []

/-- Vector operations whose scalar result goes to latch l2 (09 R225). -/
def vecScalar (opc : Nat) : Bool := [0x110, 0x11E, 0x11F, 0x120, 0x121, 0x122, 0x123, 0x126, 0x128, 0x129, 0x12A].contains opc

/-- A register that a result in flight will write: one that has been computed, the reply of a request, or the scalar result of a
vector operation (05 R108). -/
def pendingKey (c : Core) (key : Nat) : Bool :=
  c.flights.any (fun f => f.effs.any (fun e => match e with
      | .reg k _ => decide (k = key)
      | _ => false) || f.req.any fun id => c.reqs.any fun r => decide (r.id = id) && (reqKeys r).contains key)
    || c.vec.any fun v => vecScalar v.opc && decide (v.elem < v.n) && decide (latchKey v.slot 2 = key)

/-- In pending mode a read of a register that a result in flight will write raises pending-read (05 R108). -/
def pendingTrap (s : State) (tile : Nat) (ps : List Port) : Option Trap :=
  let t := tileGet s tile
  if t.dbg && ps.any (fun p => match p with
      | .s n => decide (n ≠ 0) && pendingKey t.core (portKey p)
      | .p n => decide (n ≠ 0) && pendingKey t.core (portKey p)
      | .m _ | .aaL _ | .abL _ | .xaL _ | .xbL _ | .caL _ => pendingKey t.core (portKey p)
      | _ => false)
  then some (trapOf causePendingRead) else none

/-- The predicate of a guard, as a port to check in pending mode. -/
def guardPorts (g : Guard) : List Port := if g.p = 0 then [] else [.p g.p]

end Sys2Proof.Machine
end

