-- ==== Sys2Proof/Machine/Operands.lean ====
section
/-! DEFINITION. Destinations, latches, and the integer functions of the execute slots (03 R74, R75; 07 R164 to R167). -/

namespace Sys2Proof.Machine

open Sys2Proof

/-- What a program's write to a special register leaves there, or the fault it raises (06 R138, R139; 19 R444). -/
def specialWr (n : Nat) (v : Word) : Except Trap (List Eff) :=
  match n with
  | 0x07 => if v >>> 6 = 0 then .ok [.reg keyFpstat (rvOf v)] else .error (trapOf causeIllegalOperation)
  | 0x08 =>
    if v.toNat % 8 < 6 ∧ v.toNat / 8 % 32 = 0 then .ok [.reg keyFpctl (rvOf v)]
    else .error (trapOf causeIllegalOperation)
  | 0x20 =>
    if v &&& 3 ≠ 3 ∧ v &&& 0xFFFFFFFFFE00F8FC = 0 then .ok [.reg keyHint (rvOf (v &&& 3))]
    else .error (trapOf causeIllegalOperation)
  | _ => .error (trapOf causeIllegalPort)

/-- The effects of a result on its destination port; a predicate, mask or special register is a residue check
(03 R74, 07 R172). `pushes` are the queue entries assigned to the operation. -/
def dstEffs (pushes : List (Nat × Nat)) (p : Port) (x : RV) : Except Trap (List Eff) :=
  match p with
  | .s n => .ok (if n = 0 then [] else [.reg (portKey p) x])
  | .p n =>
    if resBad x then .error (residueTrap x)
    else .ok (if n = 0 then [] else [.reg (portKey p) (rvOf (if x.v = 0 then 0 else 1))])
  | .m _ => if resBad x then .error (residueTrap x) else .ok [.reg (portKey p) (rvOf (x.v &&& 0x7FF#64))]
  | .special n => if resBad x then .error (residueTrap x) else specialWr n.toNat x.v
  | .lq _ | .sq _ => .ok (pushes.map fun q => .entry q.1 q.2 x)
  | _ => .error (trapOf causeIllegalPort)

/-- The entries that a predicated-off operation pushes: the latch's value at the landing tick (07 R145). -/
def latchEntries (pushes : List (Nat × Nat)) (key : Nat) : List Eff := pushes.map fun q => .entryLatch q.1 q.2 key

/-- 1 for true, 0 for false. -/
def boolWord (b : Bool) : Word := if b then 1 else 0

/-- A left shift; by 64 or more it gives 0 (00 R8). -/
def shiftLeft64 (a b : Word) : Word := if b < 64#64 then a <<< b.toNat else 0

/-- A logical right shift; by 64 or more it gives 0 (00 R8). -/
def shiftRight64 (a b : Word) : Word := if b < 64#64 then a >>> b.toNat else 0

/-- An arithmetic right shift; by 64 or more it gives the sign fill (00 R8). -/
def shiftArith64 (a b : Word) : Word := a.sshiftRight (if b < 64#64 then b.toNat else 63)

/-- The high half of the signed product. -/
def mulhSigned (a b : Word) : Word := BitVec.ofInt 64 (a.toInt * b.toInt / 2 ^ 64)

/-- The high half of the unsigned product. -/
def mulhUnsigned (a b : Word) : Word := BitVec.ofNat 64 (a.toNat * b.toNat / 2 ^ 64)

/-- The signed quotient toward zero; by 0 all ones (07 R164). -/
def divSigned (a b : Word) : Word := if b = 0 then BitVec.allOnes 64 else a.sdiv b

/-- The unsigned quotient; by 0 all ones (07 R164). -/
def divUnsigned (a b : Word) : Word := if b = 0 then BitVec.allOnes 64 else a / b

/-- The signed remainder; by 0 the dividend (07 R164). -/
def remSigned (a b : Word) : Word := if b = 0 then a else a.srem b

/-- The unsigned remainder; by 0 the dividend (07 R164). -/
def remUnsigned (a b : Word) : Word := if b = 0 then a else a % b

/-- Leading zero bits (07 R164). -/
def leadingZeros (a : Word) : Word := BitVec.ofNat 64 (64 - bitLen a.toNat)

/-- Trailing zero bits (07 R164). -/
def trailingZeros (a : Word) : Word :=
  BitVec.ofNat 64 ((findIdxFrom (fun i => a.getLsbD i) (List.range 64) 0).getD 64)

/-- Number of 1 bits (07 R164). -/
def popCount (a : Word) : Word := BitVec.ofNat 64 ((List.range 64).filter fun i => a.getLsbD i).length

/-- bext: pos in bits 5:0 of the control value, width min(bits 12:6, 64) (07 R165). -/
def fieldExtract (a ctl : Word) : Word :=
  let w := min (ctl.toNat / 64 % 128) 64
  BitVec.ofNat 64 (a.toNat / 2 ^ (ctl.toNat % 64) % 2 ^ w)

/-- bins: the field of width `w` at `pos` of a takes the low bits of b (07 R165). -/
def fieldInsert (pos w : Nat) (a b : Word) : Word :=
  let mask : Word := BitVec.ofNat 64 ((2 ^ w - 1) * 2 ^ pos)
  (a &&& ~~~mask) ||| ((b <<< pos) &&& mask)

/-- A residue number modulo 15. -/
def res15 (x : Int) : BitVec 4 := BitVec.ofInt 4 (x % 15)

/-- A poisoned residue. -/
def poison : BitVec 4 := 15#4

/-- A result with a residue propagated from the operands' residues; poison stays (07 R171). -/
def propagated (a b : RV) (v : Word) (r : Int) : RV :=
  if a.r = poison ∨ b.r = poison then ⟨v, poison⟩ else ⟨v, res15 r⟩

/-- a + b: (ra + rb − carry) mod 15 (07 R171). -/
def resAdd (a b : RV) : RV :=
  propagated a b (a.v + b.v) ((a.r.toNat : Int) + b.r.toNat - boolNat (decide (2 ^ 64 ≤ a.v.toNat + b.v.toNat)))

/-- a − b: (ra − rb + borrow) mod 15 (07 R171). -/
def resSub (a b : RV) : RV :=
  propagated a b (a.v - b.v) ((a.r.toNat : Int) - b.r.toNat + boolNat (decide (a.v.toNat < b.v.toNat)))

/-- The low half of a × b: (ra × rb − rh) mod 15, rh being the residue of the high half (07 R171). -/
def resMul (a b : RV) : RV :=
  propagated a b (a.v * b.v) ((a.r.toNat * b.r.toNat : Nat) - (mulhUnsigned a.v b.v).toNat % 15)

/-- A result whose residue is formed from its value, once every operand has passed its check; else poisoned
(07 R171). -/
def remade (l : List RV) (v : Word) : RV := if l.any resBad then ⟨v, poison⟩ else rvOf v

end Sys2Proof.Machine
end

