-- ==== Sys2Proof/Machine/EngineOps.lean ====
section
/-! DEFINITION. The operations of slot ea, the acceptance of what they and the engine queues hold, and the completion of
commands (04 R88 to R90; 05 R109 to R112; 11 R249, R257, R264; 12 R280). -/

namespace Sys2Proof.Machine

open Sys2Proof

/-- The slack in force for a bundle: that of the youngest slack not younger than it (05 R110, R111). -/
def slackFor (c : Core) (seq : Nat) : Nat :=
  (logReg (c.log.filter fun x => decide (x.seq ≤ seq)) keySlack (mapGet c.regs keySlack (rvOf 0))).v.toNat % 16

/-- An operation enters its engine's elastic buffer (05 R109). -/
def engEnter (s : State) (tile e seq : Nat) (kind : EOpKind) (shadow : Nat) (x : RV) (imm : Nat) : State :=
  let slack := slackFor (coreGet s tile) seq
  engMap s tile e fun g =>
    { g with buf := g.buf ++ [⟨seq, kind, shadow, x, imm, false, slack, [], g.nextOrd⟩], nextOrd := g.nextOrd + 1 }

/-- The issue of an operation of slot ea: its ports are read and checked, and a predicated-off one does nothing (05 R108;
07 R144, R172; 11 R249). -/
def engRun (tile : Nat) (o : EOp) (src : Bool) (body : State → Bundle → RV → State) (s : State) (b : Bundle) : Option State :=
  let run := guardTrue s tile o.guard
  let ports := if src then [o.source] else []
  match pendingTrap s tile (guardPorts o.guard ++ if run then ports else []) with
  | some x => some (raiseAt s tile b.seq 5 x)
  | none =>
    if run then
      let vals := readPorts s tile (o.imm.setWidth 64) ports []
      match resCheck vals with
      | some x => some (raiseAt s tile b.seq 5 x)
      | none => some (body s b (vals.getD 0 (rvOf 0)))
    else some s

/-- The issue of an operation that only enters its engine's buffer. -/
def engOp (i : Instr) (tile : BitVec 8) (o : EOp) (src : Bool) (kind : EOpKind) (s : State) : Out :=
  issueOp i tile.toNat 5 s (engRun tile.toNat o src fun s b x =>
    engEnter s tile.toNat (engineNum o.engine).toNat b.seq kind o.shadow.toNat x o.imm.toNat)

/-- The engine acts on what reaches it (12 R280). -/
def engHeld (t : Tile) (e seq : Nat) : Bool :=
  decide (8 ≤ e) || (match engState t e with
    | 2 | 3 | 4 => true
    | 7 => decide (seq ≤ (engGet t e).relSeq)
    | _ => false)

/-- STATUS.cause becomes not-leased unless it holds evicted (12 R280). -/
def notLeased (x : Engine) (code : Nat) : Engine := if x.cause = 6 then x else setCause x 3 code

/-- The head of the elastic buffer leaves. -/
def bufPop (s : State) (tile e : Nat) : State := engMap s tile e fun x => { x with buf := x.buf.drop 1 }

/-- An engine may take another command (11 R252; 13 R301; 15 R339). -/
def engRoom (x : Engine) (e : Nat) (c : Cmd) : Bool :=
  if e < 2 then mxStageFree x c else if e < 8 then x.runs.isEmpty else decide (x.queue.length < 16)

/-- What an engine's acceptance of a command reads stands: alsplit's reads the header of its list (15 R338, 17 R391). -/
def engSees (s : State) (e : Nat) (c : Cmd) : Bool := decide (e ≠ 5) || decide (cmdCode c ≠ 3) || forkReady s c.fork

/-- The command of a csend block for an engine: a copy command as its words give it; another engine's as a free value has it
(11 R257; 15 R339; DESIGN CHOICE, log entry 34). -/
def blockCmd (e : Nat) (g : Engine) (c : Cmd) : Cmd :=
  if 8 ≤ e then { c with regs := blockRegs c.block }
  else { c with imm := Config.blockImm e c.block % 2 ^ 26,
                regs := (List.range 32).map fun n => (n, rvOf (Config.blockReg e c.block n (mapGet g.regs n (rvOf 0)).v)) }

/-- The code of a csend block's command. -/
def blockCode (e : Nat) (b : List Word) : Nat := if 8 ≤ e then natBits (b.getD 2 0).toNat 17 8 else Config.blockImm e b % 256

/-- An engine takes a command, or refuses it. -/
def engTake (s : State) (tile e : Nat) (c : Cmd) (vc : NMap Nat) (seq : Nat) : State :=
  if e < 2 then mxTake s tile e c vc
  else if e < 7 then spTake s tile e c vc
  else if e = 7 then fxTake s tile c vc
  else cpTake s tile e c vc seq

/-- An engine aborts (11 R267; 13 R310; 15 R341; 20 R458). -/
def engAbort (s : State) (tile e : Nat) : State :=
  if e < 2 then mxAbort s tile e
  else if e < 7 then spAbort s tile e
  else if e = 7 then
    match (engGet (tileGet s tile) 7).runs with
    | r :: _ => fxAbort s tile 7 (fxPrev r.cmd)
    | [] => engMap s tile 7 fun x => { x with cause := 4 }
  else tilePut s tile (cpAbort (tileGet s tile) e)

/-- A gated array starts its power-up for a command (12 R279, R280). -/
def engWake (s : State) (tile e : Nat) : State :=
  let t := tileGet s tile
  tilePut s tile (engPut t e { powerUp t e (engGet t e) with st := 2, idle := 0 })

/-- The bits of an array's register that a write reaches: those of its RO fields it does not (00 R6; 13 R297; 14 R317). The reserved
bits of the rings, CMD and DQ are kept, for the checks of them (13 R300; 14 R327). -/
def mxWritable (n : Nat) : Word :=
  match n with
  | 5 => 0xFF
  | 23 => 0x0000FFFFFFFFFFFF
  | 28 => 0xFFFFFFFFFFFFFF07
  | _ => 0xFFFFFFFFFFFFFFFF

/-- An ewr is accepted; a value whose bits all stand keeps its residue (14 R317). -/
def engWrite (x : Engine) (e n : Nat) (v : RV) : Engine :=
  if n = 50 then { x with evreel := v }
  else
    let w := v.v &&& mxWritable n
    { x with regs := mapPut x.regs n (if e < 2 ∧ w ≠ v.v then rvOf w else v) }

/-- The acceptance of a committed buffer entry; none while it waits (05 R109; 11 R249; 12 R280). -/
def acceptBuf (s : State) (tile e : Nat) (x : EEntry) : Option State :=
  let t := tileGet s tile
  let g := engGet t e
  let s1 := bufPop s tile e
  if engWakes t e && engHeld t e x.seq then none
  else if !engHeld t e x.seq then
    some (match x.kind with
      | .erd => s1
      | .etrig => engMap s1 tile e fun g => notLeased g (x.imm % 256)
      | _ => engMap s1 tile e fun g => notLeased g g.lastcode)
  else match x.kind with
    | .ewr => some (engMap s1 tile e fun g => engWrite g e x.shadow x.x)
    | .erd => some s1
    | .eabort => some (engAbort s1 tile e)
    | .ewaitq => if queuedCount g = 0 ∧ g.runs.isEmpty then some s1 else none
    | .etrig =>
      let c : Cmd := ⟨.etrig, x.imm, [], g.regs, 0, x.ord, some (tile, x.seq)⟩
      if engState t e = 4 ∧ e < 8 then some (engWake s tile e)
      else if engRoom g e c && engSees s e c then some (engTake s1 tile e c x.vc x.seq) else none

/-- An entry of the engine queue leaves it. -/
def queuePop (s : State) (tile e : Nat) (q : QEntry) : State :=
  engMap s tile e fun x => { x with queue := x.queue.filter fun y => decide (y.cmd.ord ≠ q.cmd.ord) || decide (y.id ≠ q.id) }

/-- A refused follow-on: its sequencer's cause is set by the copy command that it belongs to, whose code lastcode takes (11 R253, R264;
DEDUCED, log entry 69). -/
def followRefused (s : State) (tile e : Nat) (q : QEntry) : State :=
  let s1 := engMap s tile q.sender fun x => setCause x 3 (match x.runs with | r :: _ => cpCode r.cmd | [] => x.lastcode)
  engNotice s1 tile e causeNotLeased (BitVec.ofNat 64 q.cmd.imm) (BitVec.ofNat 64 e) 0

/-- The acceptance of an entry of the engine queue: a block or a follow-on; none while it waits (02 R59; 11 R257, R264;
12 R278 to R280). -/
def acceptQueue (s : State) (tile e : Nat) (q : QEntry) : Option State :=
  let t := tileGet s tile
  let g := engGet t e
  let st := engState t e
  let leased := decide (8 ≤ e) || decide (st = 2) || decide (st = 3) || decide (st = 4)
  let s1 := queuePop s tile e q
  match q.cmd.src with
  | .follow =>
    if !leased then some (followRefused s1 tile e q)
    else if st = 4 then some (engWake s tile e)
    else if engWakes t e then none
    else
      let c := { q.cmd with regs := g.regs }
      if mxStageFree g c then some (mxTake s1 tile e c q.vc) else none
  | _ =>
    let code := blockCode e q.cmd.block
    if !leased && !(decide (st = 7) && g.relIds.contains q.id) then
      some (engNotice (engMap s1 tile e fun x => notLeased x code) tile e causeNotLeased (BitVec.ofNat 64 code) (BitVec.ofNat 64 e) 0)
    else if st = 4 ∧ e < 8 then some (engWake s tile e)
    else if engWakes t e then none
    else
      let c := blockCmd e g q.cmd
      if (8 ≤ e ∨ engRoom g e c) ∧ engSees s e c then some (engTake s1 tile e c q.vc q.seq) else none

/-- The committed entry at the head of an elastic buffer. -/
def bufHead (x : Engine) : Option EEntry := match x.buf with | y :: _ => if y.committed then some y else none | [] => none

/-- The first block or follow-on that has not been accepted. -/
def queueHead (x : Engine) : Option QEntry := x.queue.find? fun q => q.ready && decide (q.cmd.agent = 0)

/-- A buffer entry that waits lets what stands in the engine queue go by: an ewaitq holds back only the operations behind it, and a copy
command that waits for room cannot come before blocks that hold it (11 R249, R257). -/
def letsBy (e : Nat) (b : EEntry) : Bool := decide (b.kind = .ewaitq) || (decide (b.kind = .etrig) && decide (8 ≤ e))

/-- The next acceptance of an engine, if one can take place: a follow-on goes next after what has been accepted, a block by its
arrival; an entry that is no command does not wait for a follow-on's stage (02 R59; 05 R109; 11 R264; 13 R301, R312). -/
def engAccept? (s : State) (tile e : Nat) : Option State :=
  let x := engGet (tileGet s tile) e
  if engClock s tile && decide (e < 10) && !x.stopped then
    match bufHead x, queueHead x with
    | some b, some q =>
      if b.ord < q.cmd.ord ∧ q.cmd.src ≠ .follow then
        match acceptBuf s tile e b with
        | some s1 => some s1
        | none => if letsBy e b then acceptQueue s tile e q else none
      else match acceptQueue s tile e q with
        | some s1 => some s1
        | none => if b.kind = .etrig then none else acceptBuf s tile e b
    | some b, none => acceptBuf s tile e b
    | none, some q => acceptQueue s tile e q
    | none, none => none
  else none

/-- ELASTIC_BUFFER_ACCEPT (05 R109). -/
def engAccept (tile e : Nat) (s : State) : State := (engAccept? s tile e).getD s

/-- ENGINE_COMMAND_COMPLETE (11 R254; 15 R339; 20 R456). -/
def engComplete (tile e : Nat) (s : State) : State :=
  if e < 2 then s else if e < 7 then spDone tile e s else if e = 7 then fxDone tile s else copyDone tile e s

/-- ewr: the value read at issue is written at acceptance (11 R249). -/
def execEwr (tile : BitVec 8) (o : EOp) (s : State) : Out := engOp (.ewr tile o) tile o true .ewr s

/-- erd: the register as it stands in the issue tick, with latency 2 (11 R249). -/
def execErd (tile : BitVec 8) (o : EOp) (s : State) : Out :=
  issueOp (.erd tile o) tile.toNat 5 s (engRun tile.toNat o false fun s b _ =>
    let e := (engineNum o.engine).toNat
    let v := engRegRd (tileGet s tile.toNat) e o.shadow.toNat
    let s1 := addFlight s tile.toNat b.seq 5 2 [.reg (portKey o.source) (rvOf v)]
    engEnter s1 tile.toNat e b.seq .erd o.shadow.toNat (rvOf 0) 0)

/-- etrig: one command at acceptance (11 R249). -/
def execEtrig (tile : BitVec 8) (o : EOp) (s : State) : Out := engOp (.etrig tile o) tile o false .etrig s

/-- eabort: the engine aborts at acceptance (11 R249). -/
def execEabort (tile : BitVec 8) (o : EOp) (s : State) : Out := engOp (.eabort tile o) tile o false .eabort s

/-- ewaitq: accepted once the engine is idle (11 R249). -/
def execEwaitq (tile : BitVec 8) (o : EOp) (s : State) : Out := engOp (.ewaitq tile o) tile o false .ewaitq s

/-- An engine accepts the next entry (05 R109). -/
def execElasticBufferAccept (tile : BitVec 8) (eng : BitVec 4) (s : State) : Out := .next (engAccept tile.toNat eng.toNat s)

/-- A command of an engine completes (15 R339). -/
def execEngineCommandComplete (tile : BitVec 8) (eng : BitVec 4) (s : State) : Out := .next (engComplete tile.toNat eng.toNat s)

end Sys2Proof.Machine
end

