-- ==== Sys2Proof/Machine/Vector.lean ====
section
/-! DEFINITION. The vector operations: regions, the checks at issue, the vector unit's queue, its start of an operation
and its element groups (05 R106; 09 R199 to R229). -/

namespace Sys2Proof.Machine

open Sys2Proof

/-- How an instruction reads a source operand (09 R201 to R203, R206). -/
inductive VRole where
  | none
  /-- Element by element. -/
  | region
  /-- Any element, by index (vperm). -/
  | indexed
  /-- The next element in order (vexpand). -/
  | follow
  | scalar
  | param (k : Nat)
  | carry
  /-- E8M0 block scales, or a region of exponents (vscl). -/
  | scale
  | pair
deriving DecidableEq, Repr

/-- A row of the instruction table (09 R206): `fromVa` gives n, `single` the single-result instructions. -/
structure VRow where
  fromVa : Bool
  hasVd : Bool
  va : VRole
  vb : VRole
  single : Bool
  scalarRes : Bool
deriving DecidableEq, Repr

/-- The row of an opcode (09 R206, R225). -/
def vecRow (opc : Nat) : VRow :=
  match opc with
  | 0x100 | 0x101 | 0x102 | 0x103 | 0x104 | 0x105 | 0x111 | 0x112 | 0x113 | 0x115 | 0x116 | 0x117 | 0x118 | 0x119 =>
    ⟨false, true, .region, .region, false, false⟩
  | 0x10F => ⟨false, true, .region, .scale, false, false⟩
  | 0x110 | 0x11E | 0x11F | 0x120 | 0x122 | 0x128 => ⟨true, true, .region, .none, true, true⟩
  | 0x11A => ⟨false, true, .scalar, .none, false, false⟩
  | 0x11C => ⟨false, true, .indexed, .region, false, false⟩
  | 0x11D => ⟨false, true, .none, .none, false, false⟩
  | 0x121 => ⟨false, true, .region, .carry, false, true⟩
  | 0x123 => ⟨true, true, .region, .region, true, true⟩
  | 0x124 => ⟨false, true, .param 2, .none, false, false⟩
  | 0x125 => ⟨false, true, .region, .param 3, false, false⟩
  | 0x126 => ⟨true, false, .region, .scalar, false, true⟩
  | 0x127 => ⟨false, true, .region, .pair, false, false⟩
  | 0x129 => ⟨true, true, .region, .region, false, true⟩
  | 0x12A => ⟨false, true, .follow, .region, false, true⟩
  | _ => ⟨false, true, .region, .none, false, false⟩

/-- The region that a descriptor names (09 R199). -/
def readRegion (c : Core) (n : Nat) : Region :=
  let v := (regRd c (descKey n)).v.toNat
  { base := natBits v 41 23, stride := signedNat 17 (natBits v 24 17), count := natBits v 8 16, fmt := natBits v 4 4,
    rsv := natBit v 3, chk := natBit v 2, orel := natBit v 1, circ := natBit v 0, origin := (regRd c (orgKey n)).v }

/-- Bytes of an element. -/
def elemBytes (f : Fmt) : Nat := (fmtBits f + 7) / 8

/-- The byte offset of element `i`, computed exactly (09 R200). -/
def elemOff (r : Region) (i : Nat) : Int :=
  if fmtOf r.fmt = .e2m1 then (r.base : Int) + (if r.stride = 1 then ((i / 2 : Nat) : Int) else 0)
  else (r.base : Int) + r.stride * i * elemBytes (fmtOf r.fmt)

/-- The element lies in the high nibble (06 R124, 09 R200). -/
def elemHigh (r : Region) (i : Nat) : Bool := decide (r.stride = 1) && decide (i % 2 = 1)

/-- The pattern of element `i`. -/
def elemRead (t : Tile) (r : Region) (i : Nat) : Nat :=
  let a := (elemOff r i).toNat
  if fmtOf r.fmt = .e2m1 then
    let x := (poolByte t a).toNat
    if elemHigh r i then x / 16 else x % 16
  else poolNat t a (elemBytes (fmtOf r.fmt))

/-- The write of a pattern to element `i`. -/
def elemWrite (r : Region) (i pat : Nat) : Eff :=
  let a := (elemOff r i).toNat
  if fmtOf r.fmt = .e2m1 then .nib a (elemHigh r i) (BitVec.ofNat 4 pat)
  else .cells (cellsOf a (elemBytes (fmtOf r.fmt)) pat)

/-- The index at which element `i` of a source is read (09 R201). -/
def wrapIdx (r : Region) (i : Nat) : Nat := i % r.count

/-- Element `i` of a source, wrapped. -/
def srcRead (t : Tile) (r : Region) (i : Nat) : Nat := elemRead t r (wrapIdx r i)

/-- A mask or selector element counts as non-zero (09 R204). -/
def patNonzero (fmt pat : Nat) : Bool :=
  match fmtOf fmt with
  | .e8m0 => true
  | f => if fmtIsFloat f then decide (pat % 2 ^ (fmtBits f - 1) ≠ 0) else decide (pat ≠ 0)

/-- Element `i` is active (09 R204). -/
def vecActive (t : Tile) (v : VecOp) (i : Nat) : Bool :=
  match v.msk with
  | none => true
  | some r => v.opc == 0x119 || patNonzero r.fmt (srcRead t r i)

/-- The lowest and highest byte of elements 0 to `k − 1` (09 R200). -/
def regionExtent (r : Region) (k : Nat) : Int × Int :=
  let a := elemOff r 0
  let b := elemOff r (k - 1)
  (min a b, max a b + elemBytes (fmtOf r.fmt) - 1)

/-- Rate of a full-speed region (09 R202). -/
def rateFull (opc : Nat) (f : Fmt) : Nat :=
  match fmtBits f with
  | 4 | 8 => 256
  | 16 => 128
  | 32 => 64
  | _ =>
    if decide (0x111 ≤ opc ∧ opc ≤ 0x114) || decide (0x119 ≤ opc ∧ opc ≤ 0x11C) || decide (opc = 0x129)
        || decide (opc = 0x12A) then 32 else 16

/-- Shape(region) (09 R202). -/
def rateShape (opc : Nat) (indexed : Bool) (r : Region) : Nat :=
  let w := rateFull opc (fmtOf r.fmt)
  if indexed then min w 8
  else if r.stride = 1 then (if r.base % 256 = 0 then w else w / 2)
  else if r.stride = 0 then w
  else if r.stride = -1 then w / 2
  else min w 8

/-- One of the six floating element formats of R206. -/
def fmtF (f : Fmt) : Bool := fmtIsFloat f && decide (f ≠ .e2m1)

/-- F or I, one class in both (09 R206). -/
def sameClass (a b : Fmt) : Bool := (fmtF a && fmtF b) || (fmtIsInt a && fmtIsInt b)

/-- The formats of an operation's regions satisfy its row (09 R206, R207); `qa` and `qb` mark scalars that come from
a queue. -/
def vecFormatsOk (opc : Nat) (fd fa fb : Fmt) (qa qb : Bool) : Bool :=
  let fi (f : Fmt) : Bool := fmtF f || fmtIsInt f
  let same := fmtBits fd == fmtBits fa
  let par (f : Fmt) : Bool := decide (f = .i64) || decide (f = .n64)
  match opc with
  | 0x100 | 0x101 | 0x102 | 0x103 | 0x121 | 0x123 => sameClass fa fb && sameClass fa fd
  | 0x104 | 0x105 | 0x127 => fi fa && decide (fb = fa) && decide (fd = fa)
  | 0x106 | 0x107 | 0x11F | 0x120 => fi fa && decide (fd = fa)
  | 0x108 | 0x109 | 0x10A => fmtF fa && fmtF fd
  | 0x10B | 0x10C | 0x10D => fmtF fa && decide (fa ≠ .f64) && fmtF fd
  | 0x10E => decide (fa ≠ .e8m0) && decide (fd ≠ .e8m0)
  | 0x10F => fmtF fa && (decide (fb = .e8m0) || fmtIsInt fb) && fmtF fd
  | 0x110 => fmtF fa && fmtF fd
  | 0x111 | 0x112 | 0x113 | 0x119 => fmtBits fb == fmtBits fa && same
  | 0x114 | 0x11B => same
  | 0x115 | 0x116 | 0x117 => fmtIsInt fa && fmtIsInt fb && fmtIsInt fd && same
  | 0x118 => sameClass fa fb && fmtIsInt fd
  | 0x11A => qa || same
  | 0x11C => fmtIsInt fb && same
  | 0x11D => fi fd
  | 0x11E | 0x122 => fi fa && sameClass fa fd
  | 0x124 => par fa && fi fd
  | 0x125 => fmtF fa && par fb && fmtF fd
  | 0x126 => qb || par fb
  | 0x128 => fmtIsInt fd
  | _ => same

/-- A region as the checks meet it: descriptor number, region, elements touched, and whether elements 0 to n − 1 are
read one by one. -/
structure Named where
  num : Nat
  reg : Region
  k : Nat
  each : Bool
  need : Nat
deriving DecidableEq, Repr

/-- A source operand's region under its role; none where the operand names none. Whatever its role reads, its extent is that of
elements 0 to min(count, n) − 1 (09 R200, R201). -/
def namedOf (role : VRole) (num n : Nat) (r : Region) (queued : Bool) : List Named :=
  let k := min r.count n
  match role with
  | .none => []
  | .region => [⟨num, r, k, true, 0⟩]
  | .indexed | .follow => [⟨num, r, k, false, 0⟩]
  | .scalar => if queued then [] else [⟨num, r, k, false, 1⟩]
  | .param i => [⟨num, r, k, false, i⟩]
  | .carry => [⟨num, r, k, false, 1⟩]
  | .pair => [⟨num, r, k, false, 2⟩]
  | .scale => if fmtOf r.fmt = .e8m0 then [⟨num, r, k, false, ceilDiv n 32⟩] else [⟨num, r, k, true, 0⟩]

/-- The first region of a list that a test names, as a fault. -/
def namedTrap (cause : Nat) (bad : Named → Bool) (l : List Named) : Option Trap :=
  (l.find? bad).map fun x => trapAt cause (BitVec.ofNat 64 x.num) 0

/-- Two extents share a byte. -/
def extentsMeet (a b : Int × Int) : Bool := decide (a.1 ≤ b.2) && decide (b.1 ≤ a.2)

/-- The checks of R208 in their order, over the regions of an operation: `dst` is vd's, `srcs` the others, `mask` the
mask region. -/
def vecChecks (t : Tile) (opc : Nat) (o : VOp) (n : Nat) (fd fa fb : Fmt) (dst srcs mask : List Named) : Option Trap :=
  let all := dst ++ srcs ++ mask
  let size := scratchSize t
  let anyFloat := (dst ++ srcs).any fun x => fmtIsFloat (fmtOf x.reg.fmt)
  let fzBad := ((decide (o.rnd ≠ 0) && decide (opc ≠ 0x118)) || o.fzi || o.fzo) && !anyFloat
  let t1 := namedTrap causeBadDescriptor (fun x => x.reg.rsv || decide (x.reg.count = 0)
      || (decide (fmtOf x.reg.fmt = .e2m1) && decide (x.reg.stride ≠ 0) && decide (x.reg.stride ≠ 1))) all
  let t2 := if !vecFormatsOk opc fd fa fb o.qa o.qb || fzBad then some (trapOf causeRegionFormat) else none
  let t3 := namedTrap causeRegionCount (fun x => (x.each && decide (x.reg.count < n) && !x.reg.circ)
      || decide (x.reg.count < x.need)) (srcs ++ mask)
  let t4 := namedTrap causeAlignment (fun x => decide (x.reg.base % 64 ≠ 0)) all
  let t5 := namedTrap causeScratchBound (fun x =>
      let e := regionExtent x.reg x.k
      decide (e.1 < 0) || decide ((size : Int) ≤ e.2)) all
  let t6 := if opc = 0x125 then
      (srcs.find? fun x => decide (x.need = 3)).bind fun x =>
        if intOf (fmtOf x.reg.fmt) (elemRead t x.reg 2) > 2 ^ 24 then
          some (trapAt causeRegionRange (BitVec.ofNat 64 x.num) 0) else none
    else none
  let meets (d x : Named) : Bool := (d.reg.chk || x.reg.chk) && extentsMeet (regionExtent d.reg d.k) (regionExtent x.reg x.k)
  let same (d x : Named) : Bool :=
    decide (x.reg.base = d.reg.base) && decide (x.reg.stride = d.reg.stride) && decide (x.reg.fmt = d.reg.fmt)
  let t7 := dst.findSome? fun d =>
    (namedTrap causeRegionOverlap (fun x => meets d x && !same d x) srcs).or (namedTrap causeRegionOverlap (meets d) mask)
  t1.or (t2.or (t3.or (t4.or (t5.or (t6.or t7)))))

/-- A popped entry whose bits above a descriptor number are not zero (09 R203). -/
def tokenTrap (x : RV) : Option Trap := if x.v >>> 11 ≠ 0 then some (trapAt causeBadToken x.v 0) else none

/-- The operation with its operands as issue finds them, or the fault of its checks (09 R202, R203, R208). -/
def vecPlan (s : State) (tile : Nat) (b : Bundle) (slot opc : Nat) (o : VOp) : Except Trap VecOp :=
  let t := tileGet s tile
  let c := t.core
  let row := vecRow opc
  let pops := (slotQ b.pops slot).map fun x => mapGet c.qent (qKey x.1 x.2) (rvOf 0)
  let ea := if o.qa then pops.head? else none
  let eb := if o.qb then pops.getLast? else none
  let scA := decide (row.va = .scalar)
  let scB := decide (row.vb = .scalar)
  let tokens := (if scA then [] else ea.toList) ++ (if scB then [] else eb.toList)
  match (tokens.findSome? tokenTrap).or (resCheck pops) with
  | some x => .error x
  | none =>
    let numA := match ea with | some x => if scA then o.va.toNat else x.v.toNat | none => o.va.toNat
    let numB := match eb with | some x => if scB then o.vb.toNat else x.v.toNat | none => o.vb.toNat
    let vd := readRegion c o.vd.toNat
    let va := readRegion c numA
    let vb := readRegion c numB
    let mnum := (regRd c (portKey (.m o.mask))).v.toNat % 2048
    let msk := if o.mask = 0 then none else some (readRegion c mnum)
    let n := if row.fromVa then va.count else vd.count
    let dst := if row.hasVd then [⟨o.vd.toNat, vd, if row.single then 1 else vd.count, false, 0⟩] else []
    let srcs := namedOf row.va numA n va o.qa ++ namedOf row.vb numB n vb o.qb
    let mask := match msk with | some r => [⟨mnum, r, min r.count n, true, 0⟩] | none => []
    match vecChecks t opc o n (fmtOf vd.fmt) (fmtOf va.fmt) (fmtOf vb.fmt) dst srcs mask with
    | some x => .error x
    | none =>
      let rates := ((srcs ++ mask).filterMap fun x => if x.each then some (rateShape opc false x.reg) else none)
        ++ (if row.va = .indexed then [rateShape opc true va] else [])
        ++ (if row.va = .follow then [rateShape opc false va] else [])
        ++ (if row.hasVd && !row.single then [rateShape opc false vd] else [])
      .ok { seq := b.seq, slot, pc := b.pc, opc, op := o, vd, va, vb, msk,
            sa := if scA then ea.map (·.v) else none, sb := if scB then eb.map (·.v) else none,
            fpctl := (regRd c keyFpctl).v, n, w := rates.foldl min 256, t0 := none, elem := 0, resumed := 0,
            push := (slotQ b.pushes slot).head?, acc := [], part := [], flags := 0, cnt := 0, faulted := false, last := 0 }

/-- The issue of a vector operation: it enters the unit's queue of four; predicated off, it only pops and pushes
(05 R106, 09 R205). -/
def vecRun (tile slot opc : Nat) (o : VOp) (s : State) (b : Bundle) : Option State :=
  let c := coreGet s tile
  let run := guardTrue s tile o.guard
  match pendingTrap s tile (guardPorts o.guard ++ if run && decide (o.mask ≠ 0) then [.m o.mask] else []) with
  | some x => some (raiseAt s tile b.seq slot x)
  | none =>
    if run then
      if 4 ≤ c.vec.length then none
      else match vecPlan s tile b slot opc o with
        | .error x => some (raiseAt s tile b.seq slot x)
        | .ok v => some (corePut s tile { c with vec := c.vec ++ [v] })
    else
      some (addFlight s tile b.seq slot 6
        ((slotQ b.pushes slot).map fun q => .entry q.1 q.2 (rvOf (o.vd.setWidth 64))))

/-- The slot of a vector operation. -/
def vSlot (hi : Bool) : Nat := if hi then 4 else 3

/-- The issue of a vector operation of an opcode. -/
def vecOp (i : Instr) (tile : BitVec 8) (hi : Bool) (opc : Nat) (o : VOp) (s : State) : Out :=
  issueOp i tile.toNat (vSlot hi) s (vecRun tile.toNat (vSlot hi) opc o)

/-- The accumulation format of a sum (06 R142); an integer accumulates in i64. -/
def accFmt (a b : Fmt) : Fmt := if fmtIsInt a then .i64 else if a = .f64 || b = .f64 then .f64 else .f32

/-- Rounding context of element `i` of an operation (06 R130, 09 R212). -/
def vecRnd (v : VecOp) (srcs : List Fmt) (i : Nat) : RndCtl :=
  { mode := rndOf v.op.rnd.toNat (fpctlRm v.fpctl), fzo := v.op.fzo, sat := v.op.sat,
    narrow := isNarrow (fmtOf v.vd.fmt) srcs, draw := rsrDraw v.fpctl (v.vd.origin + BitVec.ofNat 64 i) }

/-- Round into vd's format at element `i`, joined with the flags raised before (09 R212). -/
def vecRound (v : VecOp) (srcs : List Fmt) (i : Nat) (r : Num × FpFlags) : Nat × FpFlags :=
  let x := roundTo (fmtOf v.vd.fmt) (vecRnd v srcs i) r.1
  (x.1, orFlags r.2 x.2)

/-- IntFit (09 R212). -/
def intFit (v : VecOp) (x : Int) : Nat × FpFlags := intToInt (fmtOf v.vd.fmt) v.op.sat x

/-- A value of a source after the input flush (09 R212). -/
def vecNum (v : VecOp) (fmt pat : Nat) : Num := numIn (fmtOf fmt) v.op.fzi pat

/-- A quotient of a value by 1 − T / 2^24 (09 R227). -/
def dropScale (x : Num) (t : Int) : Num :=
  match x with
  | .fin neg m e _ => if m = 0 then .fin neg 0 0 false else numQuot neg (m * 2 ^ 24) e (2 ^ 24 - t).toNat 0
  | y => y

/-- A shift of a pattern of width `w` (09 R217): 0 left, 1 logical right, 2 arithmetic right. -/
def shiftPat (kind w a n : Nat) : Nat :=
  match kind with
  | 0 => if w ≤ n then 0 else a * 2 ^ n % 2 ^ w
  | 1 => if w ≤ n then 0 else a / 2 ^ n
  | _ =>
    let k := if w ≤ n then w - 1 else n
    wrapInt w (signedNat w a / (2 ^ k : Nat))

/-- A floating function of one operand (09 R214). -/
def vecFun (opc : Nat) (x : Num) : Num × FpFlags :=
  match opc with
  | 0x108 => numRcp x
  | 0x109 => numRsqrt x
  | 0x10A => numSqrt x
  | 0x10B => numExp2 x
  | 0x10C => numLog2 x
  | _ => numTanh x

/-- The twist hash of element `i` under the parameters read in t0 (09 R226, R227). -/
def vecHash (v : VecOp) (i : Nat) : Word :=
  twistHash (BitVec.ofNat 64 (v.acc.getD 0 0)) (BitVec.ofNat 64 (v.acc.getD 1 0)) (v.vd.origin + BitVec.ofNat 64 i)

/-- The index that vperm takes into va; none where it lies outside (09 R220). -/
def permIdx (t : Tile) (v : VecOp) (i : Nat) : Option Nat :=
  let j := intOf (fmtOf v.vb.fmt) (srcRead t v.vb i) - (if v.vb.orel then (v.vb.origin.toNat : Int) else 0)
  let j := if v.va.circ then j % (v.va.count : Int) else j
  if 0 ≤ j ∧ j < (v.va.count : Int) then some j.toNat else none

/-- The scale exponent of vscl at element `i`; none for the scale 0xFF (09 R215). -/
def sclExp (t : Tile) (v : VecOp) (i : Nat) : Option Int :=
  if fmtOf v.vb.fmt = .e8m0 then
    let k := elemRead t v.vb (i / 32)
    if k = 0xFF then none else some ((k : Int) - 127)
  else some (intOf (fmtOf v.vb.fmt) (srcRead t v.vb i))

/-- Result(i) of the element-wise instructions, with its flags (09 R212 to R220, R226, R227). -/
def vecResult (t : Tile) (v : VecOp) (i : Nat) : Nat × FpFlags :=
  let fa := fmtOf v.va.fmt
  let fb := fmtOf v.vb.fmt
  let fd := fmtOf v.vd.fmt
  let pa := srcRead t v.va i
  let pb := srcRead t v.vb i
  let int := fmtIsInt fa
  let ia := intOf fa pa
  let ib := intOf fb pb
  let na := vecNum v v.va.fmt pa
  let nb := vecNum v v.vb.fmt pb
  let mode := rndOf v.op.rnd.toNat (fpctlRm v.fpctl)
  let w := fmtBits fd
  match v.opc with
  | 0x100 => if int then intFit v (ia + ib) else vecRound v [fa, fb] i (numAdd mode na nb)
  | 0x101 => if int then intFit v (ia - ib) else vecRound v [fa, fb] i (numAdd mode na (numNeg nb))
  | 0x102 => if int then intFit v (ia * ib) else vecRound v [fa, fb] i (numMul na nb)
  | 0x103 =>
    let pd := elemRead t v.vd i
    if int then intFit v (ia * ib + intOf fd pd)
    else vecRound v [fa, fb, fd] i (numFma mode na nb (vecNum v v.vd.fmt pd))
  | 0x104 => if int then intFit v (min ia ib) else (exactTo fd (numMin na nb), noFlags)
  | 0x105 => if int then intFit v (max ia ib) else (exactTo fd (numMax na nb), noFlags)
  | 0x106 => if int then intFit v ia.natAbs else (exactTo fd (numAbs na), noFlags)
  | 0x107 => if int then intFit v (-ia) else (exactTo fd (numNeg na), noFlags)
  | 0x108 | 0x109 | 0x10A | 0x10B | 0x10C | 0x10D => vecRound v [fa] i (vecFun v.opc na)
  | 0x10E => convert fd fa (vecRnd v [fa] i) v.op.fzi pa
  | 0x10F =>
    match sclExp t v i with
    | none => vecRound v [fa] i (.nan, noFlags)
    | some k => vecRound v [fa] i (numMul na (.fin false 1 k false))
  | 0x111 => (pa &&& pb, noFlags)
  | 0x112 => (pa ||| pb, noFlags)
  | 0x113 => (pa ^^^ pb, noFlags)
  | 0x114 => (2 ^ w - 1 - pa, noFlags)
  | 0x115 => (shiftPat 0 w pa pb, noFlags)
  | 0x116 => (shiftPat 1 w pa pb, noFlags)
  | 0x117 => (shiftPat 2 w pa pb, noFlags)
  | 0x118 => (boolNat (numCmp v.op.rnd.toNat na nb), noFlags)
  | 0x119 =>
    let m := match v.msk with | some r => patNonzero r.fmt (srcRead t r i) | none => true
    (if m then pa else pb, noFlags)
  | 0x11A => ((v.sa.getD 0).toNat % 2 ^ w, noFlags)
  | 0x11C => ((match permIdx t v i with | some j => elemRead t v.va j | none => 0), noFlags)
  | 0x11D =>
    let x : Int := i + (if v.vd.orel then (v.vd.origin.toNat : Int) else 0)
    if fmtIsInt fd then intFit v x else vecRound v [] i (numInt x, noFlags)
  | 0x124 =>
    let x := (vecHash v i).toNat
    if fmtIsInt fd then (x / 2 ^ (64 - w), noFlags)
    else vecRound v [] i (.fin false (x / 2 ^ 40) (-24) false, noFlags)
  | 0x125 =>
    let thr := intOf fb (v.acc.getD 2 0)
    if thr ≤ ((vecHash v i).toNat / 2 ^ 40 : Nat) then vecRound v [fa] i (dropScale na thr, noFlags) else (0, noFlags)
  | 0x127 =>
    let lo := v.acc.getD 0 0
    let hi := v.acc.getD 1 0
    if int then intFit v (min (max ia (intOf fa lo)) (intOf fa hi))
    else (exactTo fd (numMin (numMax na (vecNum v v.va.fmt lo)) (vecNum v v.va.fmt hi)), noFlags)
  | _ => (pa, noFlags)

/-- What a group has produced so far. -/
structure VecAcc where
  effs : List Eff
  fl : FpFlags
  acc : List Nat
  part : List Nat
  cnt : Nat
  /-- Accesses: offset, bytes, write. -/
  uses : List (Nat × Nat × Bool)
deriving DecidableEq, Repr

/-- An element's access. -/
def elemUse (r : Region) (i : Nat) (wr : Bool) : Nat × Nat × Bool := ((elemOff r i).toNat, elemBytes (fmtOf r.fmt), wr)

/-- Adds accesses. -/
def useAdd (a : VecAcc) (l : List (Nat × Nat × Bool)) : VecAcc := { a with uses := a.uses ++ l }

/-- Stores an element of vd. -/
def storeElem (v : VecOp) (a : VecAcc) (i : Nat) (r : Nat × FpFlags) : VecAcc :=
  { a with effs := a.effs ++ [elemWrite v.vd i r.1], fl := orFlags a.fl r.2, uses := a.uses ++ [elemUse v.vd i true] }

/-- The reads of an active element that R201 gives, for the operands read element by element. -/
def elemReads (t : Tile) (v : VecOp) (i : Nat) : List (Nat × Nat × Bool) :=
  let row := vecRow v.opc
  let rd (r : Region) : Nat × Nat × Bool := elemUse r (wrapIdx r i) false
  (match row.va with
   | .region => [rd v.va]
   | .indexed => ((permIdx t v i).map fun j => elemUse v.va j false).toList
   | _ => [])
  ++ (match row.vb with
      | .region => [rd v.vb]
      | .scale => if fmtOf v.vb.fmt = .e8m0 then [elemUse v.vb (i / 32) false] else [rd v.vb]
      | _ => [])
  ++ (if v.opc = 0x103 then [elemUse v.vd i false] else [])

/-- One term of a sum: 0 for an inactive element, else 1 + 2 (a + 2^64 b). -/
def termOf (a b : Nat) : Nat := 1 + 2 * (a + 2 ^ 64 * b)

/-- The value of a term (09 R222): vredsum a, vsqsum a × a, vdot a × b. -/
def termNum (v : VecOp) (x : Nat) : Num × FpFlags :=
  if x = 0 then (numZero, noFlags)
  else
    let a := vecNum v v.va.fmt (x / 2 % 2 ^ 64)
    match v.opc with
    | 0x11E => (a, noFlags)
    | 0x122 => numMul a a
    | _ => numMul a (vecNum v v.vb.fmt (x / 2 / 2 ^ 64))

/-- The same for integers. -/
def termInt (v : VecOp) (x : Nat) : Int :=
  if x = 0 then 0
  else
    let a := intOf (fmtOf v.va.fmt) (x / 2 % 2 ^ 64)
    match v.opc with
    | 0x11E => a
    | 0x122 => a * a
    | _ => a * intOf (fmtOf v.vb.fmt) (x / 2 / 2 ^ 64)

/-- The exact sum of a group: a NaN term makes it NaN with no further flag; infinities of both signs are invalid
(06 R135, R142). -/
def sumExact (l : List (Num × FpFlags)) : Num × FpFlags :=
  let fl := l.foldl (fun f x => orFlags f x.2) noFlags
  if l.any fun x => decide (x.1 = .nan) then (.nan, fl)
  else match l with
    | [] => (numZero, fl)
    | x :: xs =>
      xs.foldl (fun (r : Num × FpFlags) y =>
        let z := numAdd .rne r.1 y.1
        (z.1, orFlags r.2 z.2)) (x.1, fl)

/-- The rounded sum of a group of at most 64 terms (06 R142). -/
def groupSum (v : VecOp) (l : List Nat) : Nat × FpFlags :=
  if fmtIsInt (fmtOf v.va.fmt) then (wrapInt 64 ((l.map (termInt v)).foldl (· + ·) 0), noFlags)
  else
    let f := accFmt (fmtOf v.va.fmt) (if v.opc = 0x123 then fmtOf v.vb.fmt else fmtOf v.va.fmt)
    let x := sumExact (l.map (termNum v))
    let r := roundTo f ctlRne x.1
    (r.1, orFlags x.2 r.2)

/-- One addition of the accumulation format, rounded to nearest even (06 R142). -/
def accAdd (f : Fmt) (a b : Nat) : Nat × FpFlags :=
  if fmtIsInt f then ((a + b) % 2 ^ 64, noFlags)
  else
    let x := numAdd .rne (numOf f a) (numOf f b)
    let r := roundTo f ctlRne x.1
    (r.1, orFlags x.2 r.2)

/-- One level of the pairwise tree (06 R142). -/
def treeLevel (f : Fmt) : List Nat → List Nat × FpFlags
  | a :: b :: l =>
    let r := treeLevel f l
    let x := accAdd f a b
    (x.1 :: r.1, orFlags x.2 r.2)
  | l => (l, noFlags)

/-- The pairwise tree over the group sums; sixteen levels serve 65,535 elements (06 R142). -/
def treeSum (f : Fmt) (l : List Nat) : Nat × FpFlags :=
  let r := (List.range 16).foldl (fun (x : List Nat × FpFlags) _ =>
    let y := treeLevel f x.1
    (y.1, orFlags x.2 y.2)) (l, noFlags)
  (r.1.headD 0, r.2)

/-- One step of a fold by value: greatest or least (09 R223). -/
def foldStep (v : VecOp) (acc : List Nat) (pat : Nat) : List Nat :=
  let f := fmtOf v.va.fmt
  let n := vecNum v v.va.fmt pat
  match acc with
  | [] => [if fmtIsInt f then pat else exactTo f (if v.opc = 0x110 then numAbs n else n)]
  | a :: _ =>
    if fmtIsInt f then
      (if v.opc = 0x120 then (if intOf f pat < intOf f a then [pat] else [a])
       else (if intOf f a < intOf f pat then [pat] else [a]))
    else
      let m := numOf f a
      [exactTo f (if v.opc = 0x120 then numMin m n else numMax m (if v.opc = 0x110 then numAbs n else n))]

/-- vkat's fold of one element (09 R228). -/
def katStep (fmt c pat : Nat) : Nat :=
  let step (c q : Nat) : Nat := (rotl64 (BitVec.ofNat 64 c) 5).toNat ^^^ q
  if fmtBits (fmtOf fmt) = 64 then step (step c (pat % 2 ^ 32)) (pat / 2 ^ 32) else step c pat

/-- One element of a group, in ascending order (09 R204, R212, R221 to R224, R228). -/
def vecElem (t : Tile) (v : VecOp) (a : VecAcc) (i : Nat) : VecAcc :=
  let act := vecActive t v i
  let a := match v.msk with
    | some r => useAdd a [elemUse r (wrapIdx r i) false]
    | none => a
  let pa := srcRead t v.va i
  let a := if act then useAdd a (elemReads t v i) else a
  match v.opc with
  | 0x11E | 0x122 | 0x123 =>
    let a := { a with part := a.part ++ [if act then termOf pa (if v.opc = 0x123 then srcRead t v.vb i else 0) else 0] }
    if a.part.length = 64 ∨ i + 1 = v.n then
      let g := groupSum v a.part
      { a with part := [], acc := a.acc ++ [g.1], fl := orFlags a.fl g.2 }
    else a
  | 0x110 | 0x11F | 0x120 => if act then { a with acc := foldStep v a.acc pa } else a
  | 0x128 => if act && patNonzero v.va.fmt pa then { a with cnt := a.cnt + 1 } else a
  | 0x121 =>
    if act then
      let f := accFmt (fmtOf v.va.fmt) (fmtOf v.va.fmt)
      let old := a.acc.headD 0
      if fmtIsInt f then
        let x := wrapInt 64 (signedNat 64 old + intOf (fmtOf v.va.fmt) pa)
        storeElem v { a with acc := [x] } i (intFit v (signedNat 64 x))
      else
        let y := numAdd .rne (numOf f old) (vecNum v v.va.fmt pa)
        let x := roundTo f ctlRne y.1
        let a := { a with acc := [x.1], fl := orFlags a.fl (orFlags y.2 x.2) }
        storeElem v a i (vecRound v [fmtOf v.va.fmt, fmtOf v.vb.fmt] i (numOf f x.1, noFlags))
    else a
  | 0x126 => if act then { a with acc := [katStep v.va.fmt (a.acc.headD 0) pa] } else a
  | 0x129 =>
    if patNonzero v.vb.fmt (srcRead t v.vb i) then
      let a' := if a.cnt < v.vd.count then storeElem v a a.cnt (pa, noFlags) else a
      { a' with cnt := a.cnt + 1 }
    else a
  | 0x12A =>
    if patNonzero v.vb.fmt (srcRead t v.vb i) then
      let a' := if a.cnt < v.va.count then
          storeElem v (useAdd a [elemUse v.va a.cnt false]) i (elemRead t v.va a.cnt, noFlags) else a
      { a' with cnt := a.cnt + 1 }
    else a
  | _ => if act then storeElem v a i (vecResult t v i) else a

/-- The pattern of a single result held in a register: integers extended under R125. -/
def scalarOf (fmt pat : Nat) : Nat :=
  if fmtIsI (fmtOf fmt) then wrapInt 64 (signedNat (fmtBits (fmtOf fmt)) pat) else pat

/-- What the last element adds: the single result, the scalar result in latch l2, the token (09 R203, R222 to R225). -/
def vecFinish (v : VecOp) (a : VecAcc) : VecAcc :=
  let fa := fmtOf v.va.fmt
  let fd := fmtOf v.vd.fmt
  let f := accFmt fa (if v.opc = 0x123 then fmtOf v.vb.fmt else fa)
  let (a, res) : VecAcc × Option Nat := match v.opc with
    | 0x11E | 0x122 | 0x123 =>
      let g := treeSum f a.acc
      let a := { a with fl := orFlags a.fl g.2 }
      let r := if fmtIsInt fa then intFit v (signedNat 64 g.1) else vecRound v (fa :: if v.opc = 0x123 then [fmtOf v.vb.fmt] else []) 0 (numOf f g.1, noFlags)
      (storeElem v a 0 r, some g.1)
    | 0x110 | 0x11F | 0x120 =>
      -- R223 gives no rounding into another format; rne with sat 0 (DESIGN CHOICE, log entry 62).
      let r : Nat × FpFlags := match a.acc with
        | [] => if v.opc = 0x110 || fmtIsInt fa then (0, noFlags) else (fmtNaN fd, noFlags)
        | x :: _ => if fmtIsInt fa then (x, noFlags) else vecRound v [fa] 0 (numOf fa x, noFlags)
      (storeElem v a 0 r, some (scalarOf v.vd.fmt r.1))
    | 0x128 =>
      let r := intFit v a.cnt
      (storeElem v a 0 r, some (scalarOf v.vd.fmt r.1))
    | 0x121 | 0x126 => (a, some (a.acc.headD 0))
    | 0x129 | 0x12A => (a, some a.cnt)
    | _ => (a, none)
  let lat := match res with | some x => [Eff.reg (latchKey v.slot 2) (rvOf (BitVec.ofNat 64 x))] | none => []
  let tok := match v.push with | some q => [Eff.entry q.1 q.2 (rvOf (v.op.vd.setWidth 64))] | none => []
  { a with effs := a.effs ++ lat ++ tok }

/-- The granules of a list of accesses, each once, with their write flags. -/
def useGrans (tile : Nat) (l : List (Nat × Nat × Bool)) : List (Nat × Bool) :=
  (l.flatMap fun u => (gransOf (granPool tile) u.1 u.2.1).map fun g => (g, u.2.2)).eraseDups

/-- The conflict check of the accesses of the vector unit (17 R389). -/
def checkUses (s : State) (tile seq : Nat) (l : List (Nat × Nat × Bool)) : Except Trap State :=
  let pend := if isCommitted (coreGet s tile) seq then none else some (tile, seq)
  (useGrans tile l).foldl (fun r g => match r with
    | .error x => .error x
    | .ok s => checkGran s (tileAgentId s tile) (coreAgent s tile) g.1 g.2 true pend) (.ok s)

/-- A word that a result in flight will write is among the reads (05 R108). -/
def pendingWord (c : Core) (l : List (Nat × Nat × Bool)) : Bool :=
  let meets (a : Nat) : Bool := l.any fun u => !u.2.2 && decide (u.1 / 8 ≤ a / 8) && decide (a / 8 ≤ (u.1 + u.2.1 - 1) / 8)
  c.flights.any fun f => f.effs.any fun e => match e with
    | .cells cs => cs.any fun x => meets x.1
    | .nib a _ _ => meets a
    | _ => false

/-- In pending mode a core access to the own pool meets a word that a result in flight or a vector operation in the unit's queue
will write (05 R108). -/
def pendingOwn (t : Tile) (off n : Nat) : Option Trap :=
  let elems := t.core.vec.flatMap fun v =>
    if (vecRow v.opc).hasVd then (List.range v.vd.count).filterMap fun i =>
      if v.elem ≤ i ∨ (vecRow v.opc).single then some ((elemOff v.vd i).toNat, elemBytes (fmtOf v.vd.fmt)) else none
    else []
  let meets (u : Nat × Nat) : Bool := decide (u.1 / 8 ≤ (off + n - 1) / 8) && decide (off / 8 ≤ (u.1 + u.2 - 1) / 8)
  if t.dbg && (pendingWord t.core [(off, n, false)] || elems.any meets) then some (trapOf causePendingRead) else none

/-- What the accesses of a group meet in the code words of the pool (09 R210, 19 R430). -/
def usesTrap (s : State) (tile : Nat) (l : List (Nat × Nat × Bool)) : Option Trap :=
  if poolSound s tile then none
  else l.findSome? fun u => if u.2.2 then poolWriteTrap s tile u.1 u.2.1 else poolReadTrap s tile u.1 u.2.1

/-- What the accesses of a group meet: a pending word, a bad code word, a conflict (09 R210). -/
def vecUses (s : State) (tile seq : Nat) (l : List (Nat × Nat × Bool)) : Except Trap State :=
  let t := tileGet s tile
  if t.dbg && pendingWord t.core l then .error (trapOf causePendingRead)
  else match usesTrap s tile l with
    | some x => .error x
    | none => checkUses s tile seq l

/-- The vector unit stops at element `p` with an in-flight fault; what it has done below `p` lands with this tick (09 R210). -/
def vecFault (s : State) (tile : Nat) (v : VecOp) (p : Nat) (x : Trap) : State :=
  let c := coreGet s tile
  corePut s tile { c with
    flights := c.flights.map fun f => if f.seq = v.seq ∧ f.slot = v.slot then { f with land := min f.land c.ticks } else f,
    vec := c.vec.map fun y => if y.seq = v.seq ∧ y.slot = v.slot then { v with faulted := true, elem := p } else y,
    fault := match c.fault with | some f => some f | none => some (v.pc, v.slot, { (opcDetail v.opc x) with d3 := BitVec.ofNat 64 p }) }

/-- The operation that the unit may start in this tick (05 R106). -/
def vecToStart (c : Core) : Option VecOp :=
  if c.vec.any (·.faulted) then none
  else match c.vec.find? fun v => v.t0.isNone with
    | none => none
    | some v =>
      if (c.vec.takeWhile fun y => y.t0.isSome).all fun y => decide (y.n ≤ y.elem) && decide (y.last < c.ticks + 5)
      then some v else none

/-- The operand values that an operation reads in tick t0, with the flags of vscan's carry-in (09 R203, R216, R224,
R226, R227). -/
def vecOpen (t : Tile) (v : VecOp) : VecOp × List (Nat × Nat × Bool) :=
  let row := vecRow v.opc
  let rd (r : Region) (k : Nat) : List (Nat × Nat × Bool) := (List.range k).map fun i => elemUse r i false
  match row.va, row.vb with
  | .scalar, _ => if v.sa.isNone then ({ v with sa := some (BitVec.ofNat 64 (elemRead t v.va 0)) }, rd v.va 1) else (v, [])
  | .param k, _ => ({ v with acc := (List.range k).map (elemRead t v.va) }, rd v.va k)
  | _, .scalar =>
    if v.sb.isNone then ({ v with sb := some (BitVec.ofNat 64 (elemRead t v.vb 0)), acc := [0] }, rd v.vb 1)
    else ({ v with acc := [0] }, [])
  | _, .param k => ({ v with acc := (List.range k).map (elemRead t v.vb) }, rd v.vb k)
  | _, .pair => ({ v with acc := (List.range 2).map (elemRead t v.vb) }, rd v.vb 2)
  | _, .carry =>
    let f := accFmt (fmtOf v.va.fmt) (fmtOf v.va.fmt)
    let pat := elemRead t v.vb 0
    let r : Nat × FpFlags := if fmtIsInt f then (wrapInt 64 (intOf (fmtOf v.vb.fmt) pat), noFlags)
      else roundTo f { ctlRne with narrow := isNarrow f [fmtOf v.vb.fmt], sat := v.op.sat } (vecNum v v.vb.fmt pat)
    ({ v with acc := [r.1], flags := flagBits r.2 }, rd v.vb 1)
  | _, _ => (v, [])

/-- Rewrites an operation of the unit's queue. -/
def vecPut (c : Core) (v : VecOp) : Core :=
  { c with vec := c.vec.map fun y => if y.seq = v.seq ∧ y.slot = v.slot then v else y }

/-- The unit starts its next operation: tick t0 (05 R106). -/
def vecStart (tile : Nat) (s : State) : State :=
  let t := tileGet s tile
  let c := t.core
  if coreRuns s tile then
    match vecToStart c with
    | none => s
    | some v =>
      let r := vecOpen t { v with t0 := some c.ticks }
      match vecUses s tile v.seq r.2 with
      | .error x => vecFault s tile v 0 x
      | .ok s1 => corePut s1 tile (vecPut (coreGet s1 tile) r.1)
  else s

/-- The operation whose group is due in this tick (05 R106, 09 R210). -/
def vecDue (c : Core) : Option VecOp :=
  if c.vec.any (·.faulted) then none
  else c.vec.find? fun v => decide (v.elem < v.n) && (match v.t0 with
    | some t0 => decide (c.ticks = t0 + (v.elem / v.w - v.resumed / v.w))
    | none => false)

/-- The element after the last one of the group that is due (05 R106). -/
def vecStop (v : VecOp) : Nat := min v.n ((v.elem / v.w + 1) * v.w)

/-- What the group that is due produces from the pool as it stands, with the results of the whole operation where it is the
last (09 R212, R221 to R225). -/
def vecAccOf (t : Tile) (v : VecOp) : VecAcc :=
  let a0 : VecAcc := ⟨[], flagsOfBits v.flags, v.acc, v.part, v.cnt, []⟩
  let a1 := (List.range (vecStop v - v.elem)).foldl (fun a i => vecElem t v a (v.elem + i)) a0
  if vecStop v = v.n then vecFinish v a1 else a1

/-- The group of elements due in this tick runs: its elements are read now and land five ticks later (05 R106,
09 R212). -/
def vecGroup (tile : Nat) (s : State) : State :=
  let t := tileGet s tile
  let c := t.core
  if coreRuns s tile then
    match vecDue c with
    | none => s
    | some v =>
      let stop := vecStop v
      let a := vecAccOf t v
      match vecUses s tile v.seq a.uses with
      | .error x => vecFault s tile v v.elem x
      | .ok s1 =>
        let fl := flagBits a.fl
        let s2 := addFlight s1 tile v.seq v.slot 6 (a.effs ++ if fl = 0 then [] else [.fp fl])
        let v' := { v with elem := stop, acc := a.acc, part := a.part, cnt := a.cnt, flags := 0, last := c.ticks + 5 }
        let s3 := corePut s2 tile (vecPut (coreGet s2 tile) v')
        if v.opc = 0x126 ∧ stop = v.n ∧ BitVec.ofNat 64 (a.acc.headD 0) ≠ v.sb.getD 0 then
          vecFault s3 tile v' v.n ⟨causeSilentError, BitVec.ofNat 64 (a.acc.headD 0), 0, v.sb.getD 0, 0⟩
        else s3
  else s

/-- vadd: a + b, element by element (09 R213). -/
def execVadd (tile : BitVec 8) (hi : Bool) (o : VOp) (s : State) : Out :=
  vecOp (.vadd tile hi o) tile hi 0x100 o s

/-- vsub: a − b (09 R213). -/
def execVsub (tile : BitVec 8) (hi : Bool) (o : VOp) (s : State) : Out :=
  vecOp (.vsub tile hi o) tile hi 0x101 o s

/-- vmul: a × b (09 R213). -/
def execVmul (tile : BitVec 8) (hi : Bool) (o : VOp) (s : State) : Out :=
  vecOp (.vmul tile hi o) tile hi 0x102 o s

/-- vfma: a × b + d with one rounding (09 R213). -/
def execVfma (tile : BitVec 8) (hi : Bool) (o : VOp) (s : State) : Out :=
  vecOp (.vfma tile hi o) tile hi 0x103 o s

/-- vmin: the lesser (09 R213, 06 R136). -/
def execVmin (tile : BitVec 8) (hi : Bool) (o : VOp) (s : State) : Out :=
  vecOp (.vmin tile hi o) tile hi 0x104 o s

/-- vmax: the greater (09 R213, 06 R136). -/
def execVmax (tile : BitVec 8) (hi : Bool) (o : VOp) (s : State) : Out :=
  vecOp (.vmax tile hi o) tile hi 0x105 o s

/-- vabs: magnitude (09 R214). -/
def execVabs (tile : BitVec 8) (hi : Bool) (o : VOp) (s : State) : Out :=
  vecOp (.vabs tile hi o) tile hi 0x106 o s

/-- vneg: sign inverted (09 R214). -/
def execVneg (tile : BitVec 8) (hi : Bool) (o : VOp) (s : State) : Out :=
  vecOp (.vneg tile hi o) tile hi 0x107 o s

/-- vrcp: 1 / a (09 R214). -/
def execVrcp (tile : BitVec 8) (hi : Bool) (o : VOp) (s : State) : Out :=
  vecOp (.vrcp tile hi o) tile hi 0x108 o s

/-- vrsqrt: 1 / √a (09 R214). -/
def execVrsqrt (tile : BitVec 8) (hi : Bool) (o : VOp) (s : State) : Out :=
  vecOp (.vrsqrt tile hi o) tile hi 0x109 o s

/-- vsqrt: √a (09 R214). -/
def execVsqrt (tile : BitVec 8) (hi : Bool) (o : VOp) (s : State) : Out :=
  vecOp (.vsqrt tile hi o) tile hi 0x10a o s

/-- vexp2: 2^a (09 R214). -/
def execVexp2 (tile : BitVec 8) (hi : Bool) (o : VOp) (s : State) : Out :=
  vecOp (.vexp2 tile hi o) tile hi 0x10b o s

/-- vlog2: log2 a (09 R214). -/
def execVlog2 (tile : BitVec 8) (hi : Bool) (o : VOp) (s : State) : Out :=
  vecOp (.vlog2 tile hi o) tile hi 0x10c o s

/-- vtanh: tanh a (09 R214). -/
def execVtanh (tile : BitVec 8) (hi : Bool) (o : VOp) (s : State) : Out :=
  vecOp (.vtanh tile hi o) tile hi 0x10d o s

/-- vcvt: conversion between formats (09 R215). -/
def execVcvt (tile : BitVec 8) (hi : Bool) (o : VOp) (s : State) : Out :=
  vecOp (.vcvt tile hi o) tile hi 0x10e o s

/-- vscl: a × 2^k (09 R215). -/
def execVscl (tile : BitVec 8) (hi : Bool) (o : VOp) (s : State) : Out :=
  vecOp (.vscl tile hi o) tile hi 0x10f o s

/-- vamax: greatest magnitude (09 R223). -/
def execVamax (tile : BitVec 8) (hi : Bool) (o : VOp) (s : State) : Out :=
  vecOp (.vamax tile hi o) tile hi 0x110 o s

/-- vand: AND of patterns (09 R217). -/
def execVand (tile : BitVec 8) (hi : Bool) (o : VOp) (s : State) : Out :=
  vecOp (.vand tile hi o) tile hi 0x111 o s

/-- vor: OR of patterns (09 R217). -/
def execVor (tile : BitVec 8) (hi : Bool) (o : VOp) (s : State) : Out :=
  vecOp (.vor tile hi o) tile hi 0x112 o s

/-- vxor: exclusive OR of patterns (09 R217). -/
def execVxor (tile : BitVec 8) (hi : Bool) (o : VOp) (s : State) : Out :=
  vecOp (.vxor tile hi o) tile hi 0x113 o s

/-- vnot: complement of patterns (09 R217). -/
def execVnot (tile : BitVec 8) (hi : Bool) (o : VOp) (s : State) : Out :=
  vecOp (.vnot tile hi o) tile hi 0x114 o s

/-- vshl: left shift (09 R217). -/
def execVshl (tile : BitVec 8) (hi : Bool) (o : VOp) (s : State) : Out :=
  vecOp (.vshl tile hi o) tile hi 0x115 o s

/-- vshr: logical right shift (09 R217). -/
def execVshr (tile : BitVec 8) (hi : Bool) (o : VOp) (s : State) : Out :=
  vecOp (.vshr tile hi o) tile hi 0x116 o s

/-- vsar: arithmetic right shift (09 R217). -/
def execVsar (tile : BitVec 8) (hi : Bool) (o : VOp) (s : State) : Out :=
  vecOp (.vsar tile hi o) tile hi 0x117 o s

/-- vcmp: 1 where the condition holds (09 R218). -/
def execVcmp (tile : BitVec 8) (hi : Bool) (o : VOp) (s : State) : Out :=
  vecOp (.vcmp tile hi o) tile hi 0x118 o s

/-- vsel: selection by the mask (09 R219). -/
def execVsel (tile : BitVec 8) (hi : Bool) (o : VOp) (s : State) : Out :=
  vecOp (.vsel tile hi o) tile hi 0x119 o s

/-- vbcast: one scalar to every active element (09 R219). -/
def execVbcast (tile : BitVec 8) (hi : Bool) (o : VOp) (s : State) : Out :=
  vecOp (.vbcast tile hi o) tile hi 0x11a o s

/-- vcopy: copy of patterns (09 R219). -/
def execVcopy (tile : BitVec 8) (hi : Bool) (o : VOp) (s : State) : Out :=
  vecOp (.vcopy tile hi o) tile hi 0x11b o s

/-- vperm: element by index (09 R220). -/
def execVperm (tile : BitVec 8) (hi : Bool) (o : VOp) (s : State) : Out :=
  vecOp (.vperm tile hi o) tile hi 0x11c o s

/-- viota: index, or global index (09 R220). -/
def execViota (tile : BitVec 8) (hi : Bool) (o : VOp) (s : State) : Out :=
  vecOp (.viota tile hi o) tile hi 0x11d o s

/-- vredsum: sum (09 R222). -/
def execVredsum (tile : BitVec 8) (hi : Bool) (o : VOp) (s : State) : Out :=
  vecOp (.vredsum tile hi o) tile hi 0x11e o s

/-- vredmax: greatest (09 R223). -/
def execVredmax (tile : BitVec 8) (hi : Bool) (o : VOp) (s : State) : Out :=
  vecOp (.vredmax tile hi o) tile hi 0x11f o s

/-- vredmin: least (09 R223). -/
def execVredmin (tile : BitVec 8) (hi : Bool) (o : VOp) (s : State) : Out :=
  vecOp (.vredmin tile hi o) tile hi 0x120 o s

/-- vscan: inclusive scan (09 R224). -/
def execVscan (tile : BitVec 8) (hi : Bool) (o : VOp) (s : State) : Out :=
  vecOp (.vscan tile hi o) tile hi 0x121 o s

/-- vsqsum: sum of squares (09 R222). -/
def execVsqsum (tile : BitVec 8) (hi : Bool) (o : VOp) (s : State) : Out :=
  vecOp (.vsqsum tile hi o) tile hi 0x122 o s

/-- vdot: sum of products (09 R222). -/
def execVdot (tile : BitVec 8) (hi : Bool) (o : VOp) (s : State) : Out :=
  vecOp (.vdot tile hi o) tile hi 0x123 o s

/-- vrng: random numbers by the twist hash (09 R226). -/
def execVrng (tile : BitVec 8) (hi : Bool) (o : VOp) (s : State) : Out :=
  vecOp (.vrng tile hi o) tile hi 0x124 o s

/-- vdrop: dropout by the twist hash (09 R227). -/
def execVdrop (tile : BitVec 8) (hi : Bool) (o : VOp) (s : State) : Out :=
  vecOp (.vdrop tile hi o) tile hi 0x125 o s

/-- vkat: known-answer checksum (09 R228). -/
def execVkat (tile : BitVec 8) (hi : Bool) (o : VOp) (s : State) : Out :=
  vecOp (.vkat tile hi o) tile hi 0x126 o s

/-- vclamp: clamp to a pair (09 R216). -/
def execVclamp (tile : BitVec 8) (hi : Bool) (o : VOp) (s : State) : Out :=
  vecOp (.vclamp tile hi o) tile hi 0x127 o s

/-- vpopc: count of non-zero elements (09 R223). -/
def execVpopc (tile : BitVec 8) (hi : Bool) (o : VOp) (s : State) : Out :=
  vecOp (.vpopc tile hi o) tile hi 0x128 o s

/-- vcompress: selected elements moved together (09 R221). -/
def execVcompress (tile : BitVec 8) (hi : Bool) (o : VOp) (s : State) : Out :=
  vecOp (.vcompress tile hi o) tile hi 0x129 o s

/-- vexpand: elements spread to the selected places (09 R221). -/
def execVexpand (tile : BitVec 8) (hi : Bool) (o : VOp) (s : State) : Out :=
  vecOp (.vexpand tile hi o) tile hi 0x12a o s

/-- The vector unit starts the next operation of its queue (05 R106). -/
def execVectorOperationStart (tile : BitVec 8) (s : State) : Out := .next (vecStart tile.toNat s)

/-- The vector unit runs the element group due in this tick (05 R106, 09 R212). -/
def execVectorElementGroup (tile : BitVec 8) (s : State) : Out := .next (vecGroup tile.toNat s)

end Sys2Proof.Machine
end

