-- ==== Sys2Proof/Machine/Access.lean ====
section
/-! DEFINITION. The operations of slots aa and ab: loads, stores, descriptors, atomics and reels (08 R174 to R198).
What they ask of other tiles and of memory becomes a request, which the events of Request.lean perform. -/

namespace Sys2Proof.Machine

open Sys2Proof

/-- The slot of an access operation. -/
def mSlot (hi : Bool) : Nat := if hi then 2 else 1

/-- base + index × size + disp9 × size, modulo 2^64 (03 R71). -/
def effAddr (base index : Word) (o : MOp) : Word :=
  let z : Word := BitVec.ofNat 64 (sizeBytes o.size)
  base + index * z + o.disp.signExtend 64 * z

/-- base + disp9 × size: the address of acas, afaddb and kbind (08 R177). -/
def effAddr2 (base : Word) (o : MOp) : Word := base + o.disp.signExtend 64 * BitVec.ofNat 64 (sizeBytes o.size)

/-- A scratchpad access past S (08 R174). -/
def pastScratch (t : Tile) (off n : Nat) : Bool := decide (scratchSize t < off + n)

/-- Pool segments that the vector unit uses in this tick: reads of the due group, writes that land (10 R232). -/
def vecSegs (t : Tile) : List Nat :=
  let c := t.core
  let rd := match (vecDue c).or (vecToStart c) with
    | none => []
    | some v =>
      let stop := min v.n ((v.elem / v.w + 1) * v.w)
      (List.range (stop - v.elem)).flatMap fun i => (elemReads t v (v.elem + i)).map fun u => u.1 / 256 % 8
  let wr := c.flights.flatMap fun f => if f.slot < 3 ∨ f.land ≠ c.ticks then [] else f.effs.flatMap fun e => match e with
    | .cells cs => (cs.head?.map fun x => x.1 / 256 % 8).toList
    | .nib a _ _ => [a / 256 % 8]
    | _ => []
  rd ++ wr

/-- The lines of a run of bytes. -/
def linesOf (off n : Nat) : List Nat := if n = 0 then [] else (List.range ((off + n - 1) / 256 - off / 256 + 1)).map (off / 256 + ·)

/-- Pool segments from which an array reads operands in the step in progress; which step of the 16 a line falls in is a free value
(10 R232, 13 R303; DESIGN CHOICE, log entry 33). -/
def readSegs (tile : Nat) (x : Engine) : List Nat :=
  x.runs.flatMap fun r =>
    let g := axFg r.cmd + ra r akClk / 16
    if axMul r.cmd ∧ r.phase = 1 ∧ g < axG r.cmd then
      (axReads tile r.cmd r false g ++ axReads tile r.cmd r true g).flatMap fun p => match p with
        | .pool _ off n => ((linesOf off n).filter fun l => decide (Config.operandStep r.cmd.agent g l % 16 = ra r akClk % 16)).map (· % 8)
        | .mem _ _ _ _ => []
    else []

/-- Pool segments that a drain reads or writes in the step in progress (10 R232, 14 R330). -/
def drainSegs (s : State) (tile e : Nat) : List Nat :=
  let t := tileGet s tile
  let segs (l : List DnUse) : List Nat := l.flatMap fun u => (linesOf u.off u.n).map (· % 8)
  let rd := match dnCanRead s tile e with
    | some r => (match dnUses t r.cmd (axProg t r.cmd) r.unit (decide (ra r akBuf = 0)) false with | .ok l => segs l | .error _ => [])
    | none => []
  let wr := match dnCanStore s tile e with
    | some r => (match r.rows with
      | y :: _ => if dnOwes r then [] else (match dnAll (y.outs.map (dnWrites t r.cmd y.row)) with
        | .ok ll => segs (ll.flatten.map (·.1))
        | .error _ => [])
      | [] => [])
    | none => []
  rd ++ wr

/-- Pool segments that the arrays and their drains use in the step in progress (10 R232). -/
def arraySegs (s : State) (tile : Nat) : List Nat :=
  let t := tileGet s tile
  if t.engines.all fun e => decide (2 ≤ e.1) || e.2.runs.isEmpty then []
  else if engClock s tile then (List.range 2).flatMap fun e => readSegs tile (engGet t e) ++ drainSegs s tile e
  else []

/-- Two core accesses cannot be served together: they meet on a segment, on two lines or in two directions (10 R232). -/
def portMeet (x y : Nat) : Bool := decide (x ≠ y) && decide (x / 2 % 8 = y / 2 % 8)

/-- The losses of a core slot that go on, none when it has not lost in the tick before (10 R232). -/
def lossOf (c : Core) (slot : Nat) : Nat :=
  match mapGet? c.lost slot with
  | some l => if c.ticks ≤ l.tick + 1 then l.count else 0
  | none => 0

/-- The other core slot has lost 16 times in a row, and more often, and asks what cannot be served together with this (10 R232). -/
def portYields (c : Core) (slot ask : Nat) : Bool :=
  let o := 3 - slot
  decide (16 ≤ lossOf c o) && decide (lossOf c slot < lossOf c o)
    && (match mapGet? c.lost o with | some l => portMeet l.ask ask | none => false)

/-- What a core access to the byte at an offset asks of the pool. -/
def portAskOf (off : Nat) (wr : Bool) : Nat := off / 256 * 2 + boolNat wr

/-- A core access to the own pool is served in this tick: the vector unit goes first, then the arrays and their drains, unless the
access has lost 16 times in a row, and the two core slots share a segment only on one line in one direction (10 R232). -/
def portOpen (s : State) (tile slot off : Nat) (wr : Bool) : Bool :=
  let t := tileGet s tile
  let c := t.core
  let ask := portAskOf off wr
  let seg := off / 256 % 8
  !(vecSegs t).contains seg && (decide (16 ≤ lossOf c slot) || !(arraySegs s tile).contains seg)
    && c.served.all (fun x => decide (x.1 ≠ c.ticks) || !portMeet x.2 ask) && !portYields c slot ask

/-- Records the access served. -/
def servePort (s : State) (tile off : Nat) (wr : Bool) : State :=
  let c := coreGet s tile
  corePut s tile { c with served := (c.ticks, portAskOf off wr) :: c.served.filter fun x => decide (x.1 = c.ticks) }

/-- Adds a result that reads, with its flags. -/
def addRead (s : State) (tile seq slot l : Nat) (effs : List Eff) (acq atom : Bool) : State :=
  let c := coreGet s tile
  corePut s tile { c with flights := c.flights ++ [⟨seq, slot, c.ticks + l - 1, effs, none, true, acq, atom⟩] }

/-- The values an access operation reads: base, index, and data when it is a source. -/
structure MVals where
  base : Word
  index : Word
  data : RV
deriving DecidableEq, Repr

/-- The frame of every access operation (08 R177, R196, R197; 07 R144, R172). `src` says that data is a source, `off`
gives the latch and latency of the entries that a predicated-off load pushes. -/
def accessRun (tile slot : Nat) (o : MOp) (src : Bool) (off : Option (Nat × Nat))
    (body : State → Bundle → MVals → Except Trap (Option State)) (s : State) (b : Bundle) : Option State :=
  let run := guardTrue s tile o.guard
  let ports := o.base :: o.index :: if src then [o.data] else []
  match pendingTrap s tile (guardPorts o.guard ++ if run then ports else []) with
  | some x => some (raiseAt s tile b.seq slot x)
  | none =>
    if run then
      let vals := readPorts s tile 0 ports (slotQ b.pops slot)
      match resCheck vals with
      | some x => some (raiseAt s tile b.seq slot x)
      | none =>
        match body s b ⟨(vals.getD 0 (rvOf 0)).v, (vals.getD 1 (rvOf 0)).v, vals.getD 2 (rvOf 0)⟩ with
        | .error x => some (raiseAt s tile b.seq slot x)
        | .ok r => r
    else match off with
      | some (latch, l) => some (addFlight s tile b.seq slot l (latchEntries (slotQ b.pushes slot) (latchKey slot latch)))
      | none => some s

/-- The issue of an access operation. -/
def accessOp (i : Instr) (tile : BitVec 8) (hi : Bool) (o : MOp) (src : Bool) (off : Option (Nat × Nat))
    (body : Nat → Nat → State → Bundle → MVals → Except Trap (Option State)) (s : State) : Out :=
  issueOp i tile.toNat (mSlot hi) s (accessRun tile.toNat (mSlot hi) o src off (body tile.toNat (mSlot hi)))

/-- A fault that names an address. -/
def addrTrap (cause : Nat) (a d : Word) : Trap := trapAt cause a d

/-- The checks of an access to a page that its leaf decides (08 R175, R183, R189, R190, R194, R196; 10 R239). A kinit needs write
permission and no read, and a kbind, which then raises reel-bind, neither: the rule names neither of them (DESIGN CHOICE, log
entry 64). -/
def leafTrap (r : Req) (e : TlbEnt) : Option Nat :=
  let rd := match r.kind with | .store | .kinit | .kbind => false | _ => true
  let wr := match r.kind with | .store | .atomic | .kadd | .kinit => true | _ => false
  let host := match homeOf (entPa e r.addr.toNat) with | .port _ => true | _ => false
  if permBad e r.addr.toNat (r.size * r.n) rd wr then some causeAccessPermission
  else match r.kind with
    | .load => none
    | .store => if leafReel e.leaf then some causeReelPage else none
    | .atomic =>
      if leafReel e.leaf then some causeReelPage
      else if host && decide (r.opc ≠ 0x040) && decide (r.opc ≠ 0x048) && decide (r.opc ≠ 0x049) then some causeHostAtomic
      else none
    | .kbind => some (if leafReel e.leaf then causeReelBind else causeReelPage)
    | _ => if leafReel e.leaf then none else some causeReelPage

/-- The request with a translation: ready, at the reach of its home (08 R178), with the conflict check that a checked page asks
(17 R390), or its fault. -/
def reqXlated (r : Req) (e : TlbEnt) : Req :=
  match leafTrap r e with
  | some c => { r with st := .bad (addrTrap c r.addr r.data) }
  | none =>
    { r with st := .ready, pa := entPa e r.addr.toNat, leaf := leafKept e, scope := scopeMax r.scope (reachOf 256 (.mem (entPa e r.addr.toNat))),
             check := leafChk e.leaf && !leafReel e.leaf && (decide (r.kind = .load) || decide (r.kind = .store)) }

/-- A request that writes its location. -/
def reqWrites (r : Req) : Bool :=
  match r.kind with
  | .store | .atomic | .kadd | .kinit => true
  | _ => false

/-- A request that is performed when its bundle is ready to commit in every other respect (08 R182). -/
def atReady (r : Req) : Bool := reqWrites r && decide (r.kind ≠ .store)

/-- Performed at its location. -/
def reqSent (r : Req) : Bool := decide (r.st = .sent) || decide (r.st = .done)

/-- The location that orders a tile's own requests: a granule, or a reel register (08 R179). -/
def reqLoc (r : Req) : Nat :=
  match fullPlace r.addr with
  | .mem va => 2 ^ 70 + va / 64
  | .pool t off => granPool t off
  | .reel t k => locReel t k
  | .ownReel k => locReel 256 k
  | _ => 0

/-- Two requests act on one location, by their addresses or by where two translated ones lie (08 R179). -/
def sameLoc (x r : Req) : Bool :=
  decide (reqLoc x = reqLoc r) || (decide (x.pa ≠ 0) && decide (r.pa ≠ 0) && decide (x.pa / 64 = r.pa / 64))

/-- Request `x` comes before request `r` in sequential order (05 R101). -/
def reqBefore (x r : Req) : Bool := decide (x.seq < r.seq) || (decide (x.seq = r.seq) && decide (x.slot < r.slot))

/-- A store of the bundle of a request that comes before it on its location: it goes with it where the request is performed before
the bundle's commit (DESIGN CHOICE, log entry 63). -/
def storeWith (x r : Req) : Bool := atReady r && decide (x.kind = .store) && decide (x.seq = r.seq) && reqBefore x r && sameLoc x r

/-- An operation of the same tile on the same location that comes before this one has not been performed (08 R179). -/
def olderOpen (c : Core) (r : Req) : Bool :=
  c.reqs.any fun x => !reqSent x && reqBefore x r && sameLoc x r && !storeWith x r

/-- A read that has been sent and has not landed comes back to its tile when an older write to its location issues after it: it
is to return that write too (08 R179). -/
def recallReads (c : Core) (r : Req) : Core :=
  if reqWrites r then
    { c with reqs := c.reqs.map fun x =>
        if !reqWrites x && reqSent x && reqBefore r x && sameLoc x r && c.flights.any fun f => decide (f.req = some x.id)
        then { x with st := .ready } else x }
  else c

/-- A fresh request, with its translation looked up or asked for, and with the clock that its releases carry
(08 R182, 17 R384). `l` is the landing latency of its value, if it has one. -/
def addReq (s : State) (tile : Nat) (b : Bundle) (slot : Nat) (l : Option Nat) (r : Req) : State :=
  let c := coreGet s tile
  let x := coreAgent s tile
  let r := { r with id := c.nextReq, seq := b.seq, slot, pc := b.pc, vc := x.vc }
  let s := if ordRel r.order then agentPut s (tileAgentId s tile) (agentBump (tileAgentId s tile) x) else s
  let (s, r) : State × Req := match fullPlace r.addr with
    | .mem va =>
      match xlate s tile (tileAsid s tile) va with
      | some e => (s, reqXlated r e)
      | none => (askWalk s tile (tileAsid s tile) (va / 65536), { r with st := .walk })
    | .pool _ _ => (s, { r with st := .ready, check := decide (r.kind = .load) || decide (r.kind = .store) })
    | .ownReel _ => (s, { r with st := .done })
    | _ => (s, { r with st := .ready })
  let fl : List Flight := match l with
    | some l => [⟨b.seq, slot, c.ticks + l - 1, [], some r.id, true, ordAcq r.order, false⟩]
    | none => []
  let c := recallReads (coreGet s tile) r
  corePut s tile { c with reqs := c.reqs ++ [r], nextReq := c.nextReq + 1, flights := c.flights ++ fl }

/-- A request with nothing filled in but what its operation knows. -/
def reqOf (kind : ReqKind) (opc : Nat) (addr : Word) (o : MOp) (sc : Scope) : Req :=
  { id := 0, seq := 0, slot := 0, pc := 0, kind, opc, addr, size := sizeBytes o.size, n := 1, data := 0, data2 := 0,
    bytes := [], order := o.order, scope := sc, st := .walk, pa := 0, leaf := 0, check := false, result := 0, ok := false,
    go := false, dst := .s 0, entries := [], vc := [] }

/-- A pool address in the form of a full address. -/
def poolFull (a : Word) : Word := a ||| 0x8000000000000000

/-- The reach of a pool place for a tile (08 R178). -/
def poolReach (tile target : Nat) : Scope := reachOf tile (.reg target 0)

/-- The effective scope of an access: the wider of encoded scope and reach (08 R178). -/
def effScope (o : MOp) (reach : Scope) : Scope := scopeMax o.scope reach

/-- The checks of a pool address for `n` bytes (08 R174, R180, R196): alignment to `al`. -/
def poolCheck (s : State) (tile : Nat) (ea : Word) (n al : Nat) : Except Trap Place :=
  match poolPlace ea.toNat with
  | .bad => .error (addrTrap causeBadAddress ea 0)
  | p =>
    if ea.toNat % al ≠ 0 then .error (addrTrap causeAlignment ea 0)
    else match p with
      | .pool t off =>
        if !(nodeTiles s tile).contains t then .error (addrTrap causeIllegalTarget ea 0)
        else if pastScratch (tileGet s t) off n then .error (addrTrap causeScratchBound ea 0)
        else .ok p
      | .ownPool off => if pastScratch (tileGet s tile) off n then .error (addrTrap causeScratchBound ea 0) else .ok p
      | q => .ok q

/-- Synchronises a load of the tile's own pool, word by word (17 R379). -/
def ownSync (s : State) (tile off n : Nat) (o : MOp) : State :=
  if ordAcq o.order then
    (locsOf (locPool tile) off n).foldl (fun s loc => coreSync s tile .acq (effScope o .tile) loc true false) s
  else s

/-- A read of the own pool at issue: port, code and conflict checks (08 R180, 10 R232, 17 R389, 19 R430). -/
def ownRead (s : State) (tile slot : Nat) (b : Bundle) (off n : Nat) (o : MOp) : Except Trap (Option State) :=
  if !portOpen s tile slot off false then .ok none
  else match (pendingOwn (tileGet s tile) off n).or (poolReadTrap s tile off n) with
    | some x => .error x
    | none =>
      match checkOwn s tile b.seq off n false (decide (o.order = .rlx)) with
      | .error x => .error x
      | .ok s1 => .ok (some (ownSync (servePort s1 tile off false) tile off n o))

/-- ld: own pool after 5 ticks, remote pool at the declared latency (08 R180, R182). -/
def loadBody (o : MOp) (tile slot : Nat) (s : State) (b : Bundle) (v : MVals) : Except Trap (Option State) :=
  let ea := effAddr v.base v.index o
  let n := sizeBytes o.size
  if relWaits (coreGet s tile) b.seq o.order then .ok none
  else match poolCheck s tile ea n n with
    | .error x => .error x
    | .ok (.ownPool off) =>
      match ownRead s tile slot b off n o with
      | .error x => .error x
      | .ok none => .ok none
      | .ok (some s1) =>
        let x := rvOf (BitVec.ofNat 64 (poolNat (tileGet s tile) off n))
        match dstEffs (slotQ b.pushes slot) o.data x with
        | .error t => .error t
        | .ok effs => .ok (some (addRead s1 tile b.seq slot 5 (.reg (latchKey slot 0) x :: effs) (ordAcq o.order) false))
    | .ok (.pool t _) =>
      .ok (some (addReq s tile b slot (some 64)
        { reqOf .load 0x000 (poolFull ea) o (effScope o (poolReach tile t)) with
          dst := o.data, entries := slotQ b.pushes slot }))
    | .ok _ => .error (addrTrap causeBadAddress ea 0)

/-- Bytes of a store: the own pool takes them at the end of the tick, with conflict and code checks (08 R180, R181). -/
def ownWrite (s : State) (tile slot : Nat) (b : Bundle) (off : Nat) (bs : List Byte) (o : MOp) : Except Trap (Option State) :=
  let n := bs.length
  if !portOpen s tile slot off true then .ok none
  else match poolWriteTrap s tile off n with
    | some x => .error x
    | none =>
      match checkOwn s tile b.seq off n true (decide (o.order = .rlx)) with
      | .error x => .error x
      | .ok s1 =>
        let locs := locsOf (locPool tile) off n
        let s2 := if o.order = .rlx then addAct s1 tile b.seq slot (.plain locs)
          else addAct (locs.foldl (fun s loc => addAct s tile b.seq slot (.sync loc o.order (effScope o .tile) true)) s1) tile b.seq slot
            (.stored locs (ordRel o.order))
        let c := coreGet s2 tile
        let cells := (List.range n).zip bs |>.map fun p => (off + p.1, p.2)
        let hits (x : Host.Cell) : Bool := decide (off ≤ x.1) && decide (x.1 < off + n)
        let c := { c with flights := c.flights.map fun f =>
          if f.atom ∧ f.land = c.ticks + 5 then
            { f with effs := f.effs.map fun e => match e with
                | .cells cs => .cells (cs.filter fun x => !hits x)
                | e => e }
          else f }
        .ok (some (addFlight (servePort (corePut s2 tile c) tile off true) tile b.seq slot 1 [.cells cells]))

/-- A store of bytes at a pool address: own at once, remote as a request after commit (08 R180 to R182). -/
def storeAt (o : MOp) (opc tile slot : Nat) (s : State) (b : Bundle) (ea : Word) (al : Nat) (bs : List Byte) :
    Except Trap (Option State) :=
  if relWaits (coreGet s tile) b.seq o.order then .ok none
  else match poolCheck s tile ea bs.length al with
    | .error x => .error x
    | .ok (.ownPool off) => ownWrite s tile slot b off bs o
    | .ok (.pool t _) =>
      .ok (some (addReq s tile b slot none
        { reqOf .store opc (poolFull ea) o (effScope o (poolReach tile t)) with
          bytes := bs, size := bs.length, data := BitVec.ofNat 64 (leNat (bs.take 8)) }))
    | .ok _ => .error (addrTrap causeBadAddress ea 0)

/-- st (08 R180). -/
def storeBody (o : MOp) (tile slot : Nat) (s : State) (b : Bundle) (v : MVals) : Except Trap (Option State) :=
  let n := sizeBytes o.size
  storeAt o 0x001 tile slot s b (effAddr v.base v.index o) n (leBytes n v.data.v.toNat)

/-- The elements of a 64-byte block. -/
def elemsOf (size : Nat) (bs : List Byte) : List Nat := (List.range (64 / size)).map fun i => leNat ((bs.drop (size * i)).take size)

/-- ldq: 64 bytes as entries, element 0 first (08 R181). -/
def ldqBody (o : MOp) (tile slot : Nat) (s : State) (b : Bundle) (v : MVals) : Except Trap (Option State) :=
  let ea := effAddr v.base v.index o
  let z := sizeBytes o.size
  let pushes := slotQ b.pushes slot
  if relWaits (coreGet s tile) b.seq o.order then .ok none
  else match poolCheck s tile ea 64 64 with
    | .error x => .error x
    | .ok (.ownPool off) =>
      match ownRead s tile slot b off 64 o with
      | .error x => .error x
      | .ok none => .ok none
      | .ok (some s1) =>
        let bs := (List.range 64).map fun i => poolByte (tileGet s tile) (off + i)
        let effs := (pushes.zip (elemsOf z bs)).map fun p => Eff.entry p.1.1 p.1.2 (rvOf (BitVec.ofNat 64 p.2))
        .ok (some (addRead s1 tile b.seq slot 5 effs (ordAcq o.order) false))
    | .ok (.pool t _) =>
      .ok (some (addReq s tile b slot (some 64)
        { reqOf .load 0x002 (poolFull ea) o (effScope o (poolReach tile t)) with n := 64 / z, entries := pushes }))
    | .ok _ => .error (addrTrap causeBadAddress ea 0)

/-- stq: the low bytes of 64 / size entries (08 R181); every popped entry is checked (07 R172). -/
def stqBody (o : MOp) (tile slot : Nat) (s : State) (b : Bundle) (v : MVals) : Except Trap (Option State) :=
  let z := sizeBytes o.size
  let c := coreGet s tile
  let pops := (slotQ b.pops slot).drop ((qOf o.base ++ qOf o.index).length)
  let vals := pops.map fun q => mapGet c.qent (qKey q.1 q.2) (rvOf 0)
  match resCheck vals with
  | some x => .error x
  | none => storeAt o 0x003 tile slot s b (effAddr v.base v.index o) 64 (vals.flatMap fun x => leBytes z x.v.toNat)

/-- The check of a global address (08 R175, R183). -/
def globalCheck (ea : Word) (n : Nat) : Option Trap :=
  if ea.toNat / 2 ^ 52 ≠ 0 then some (addrTrap causeBadAddress ea 0)
  else if ea.toNat % n ≠ 0 then some (addrTrap causeAlignment ea 0)
  else none

/-- ldc (08 R182, R183). -/
def ldcBody (o : MOp) (tile slot : Nat) (s : State) (b : Bundle) (v : MVals) : Except Trap (Option State) :=
  let ea := effAddr v.base v.index o
  if relWaits (coreGet s tile) b.seq o.order then .ok none
  else match globalCheck ea (sizeBytes o.size) with
    | some x => .error x
    | none =>
      .ok (some (addReq s tile b slot (some 64)
        { reqOf .load 0x004 ea o (effScope o .pkg) with dst := o.data, entries := slotQ b.pushes slot }))

/-- stc (08 R182, R183). -/
def stcBody (o : MOp) (tile slot : Nat) (s : State) (b : Bundle) (v : MVals) : Except Trap (Option State) :=
  let ea := effAddr v.base v.index o
  let n := sizeBytes o.size
  if relWaits (coreGet s tile) b.seq o.order then .ok none
  else match globalCheck ea n with
    | some x => .error x
    | none =>
      .ok (some (addReq s tile b slot none
        { reqOf .store 0x005 ea o (effScope o .pkg) with bytes := leBytes n v.data.v.toNat, data := v.data.v }))

/-- pref: a granule that translates, is readable and is cacheable comes into the die's cache (08 R183). -/
def prefBody (o : MOp) (tile _slot : Nat) (s : State) (_b : Bundle) (v : MVals) : Except Trap (Option State) :=
  let ea := effAddr v.base v.index o
  if ea.toNat / 2 ^ 52 ≠ 0 then .ok (some s)
  else match (walkTables s (tileAsid s tile) (ea.toNat / 65536)).1 with
    | .leaf w bits =>
      let e : TlbEnt := ⟨tileAsid s tile, ea.toNat / 2 ^ bits, bits, w⟩
      if leafR w && leafCache w && !permBad e ea.toNat 1 true false then
        let pa := entPa e ea.toNat
        .ok (some (touchPa (cacheFill s (dieOf tile) (pa / 64)) (tileAsid s tile) pa))
      else .ok (some s)
    | _ => .ok (some s)

/-- The descriptor number of rdset, rdget and rdadv (08 R184). -/
def descNum (v : MVals) (o : MOp) : Except Trap Nat :=
  let n := (v.base + o.disp.signExtend 64).toNat
  if 2047 < n then .error (trapAt causeBadDescriptor (BitVec.ofNat 64 n) v.data.v) else .ok n

/-- rdset: form 0 writes D[n], form 1 O[n], at the end of the tick (08 R184). -/
def rdsetBody (org : Bool) (o : MOp) (tile slot : Nat) (s : State) (b : Bundle) (v : MVals) : Except Trap (Option State) :=
  match descNum v o with
  | .error x => .error x
  | .ok n => .ok (some (addFlight s tile b.seq slot 1 [.reg (if org then orgKey n else descKey n) (rvOf v.data.v)]))

/-- rdget: D[n] or O[n] into l3 after two ticks (08 R184). -/
def rdgetBody (org : Bool) (o : MOp) (tile slot : Nat) (s : State) (b : Bundle) (v : MVals) : Except Trap (Option State) :=
  match descNum v o with
  | .error x => .error x
  | .ok n =>
    let x := rvOf (regRd (coreGet s tile) (if org then orgKey n else descKey n)).v
    match dstEffs (slotQ b.pushes slot) o.data x with
    | .error t => .error t
    | .ok effs => .ok (some (addFlight s tile b.seq slot 2 (.reg (latchKey slot 3) x :: effs)))

/-- The descriptor with its base moved by `v` elements; none where the new base is no offset (08 R184). -/
def advBase (d : Word) (v : Int) : Option Word :=
  let r := d.toNat
  let f := fmtOf (natBits r 4 4)
  let half := v * fmtBits f
  let nb : Int := (natBits r 41 23 : Int) + half / 8
  if half % 8 ≠ 0 ∨ nb < 0 ∨ nb > 2 ^ 23 - 1 then none
  else some (BitVec.ofNat 64 (nb.toNat * 2 ^ 41 + r % 2 ^ 41))

/-- rdadv: form 0 moves the base and the origin, form 1 the origin (08 R184). -/
def rdadvBody (org : Bool) (o : MOp) (tile slot : Nat) (s : State) (b : Bundle) (v : MVals) : Except Trap (Option State) :=
  match descNum v o with
  | .error x => .error x
  | .ok n =>
    let c := coreGet s tile
    let og := Eff.reg (orgKey n) (rvOf ((regRd c (orgKey n)).v + v.data.v))
    if org then .ok (some (addFlight s tile b.seq slot 1 [og]))
    else match advBase (regRd c (descKey n)).v v.data.v.toInt with
      | none => .error (trapAt causeRegionRange (BitVec.ofNat 64 n) v.data.v)
      | some d => .ok (some (addFlight s tile b.seq slot 1 [.reg (descKey n) (rvOf d), og]))

/-- One floating add of an atomic, to nearest even (08 R185). -/
def atomFadd (f : Fmt) (a b : Nat) : Nat := (roundTo f ctlRne (numAdd .rne (numOf f a) (numOf f b)).1).1

/-- What an atomic stores (none: no write), whether afaddb succeeded, on unsigned values of `8 * n` bits (08 R185,
R186). -/
def atomicNew (opc n old v x : Nat) : Option Nat × Bool :=
  let w := 8 * n
  let m := 2 ^ w
  match opc with
  | 0x040 => (some ((old + v) % m), true)
  | 0x041 => (some (old &&& v), true)
  | 0x042 => (some (old ||| v), true)
  | 0x043 => (some (old ^^^ v), true)
  | 0x044 => (some (if signedNat w v < signedNat w old then v else old), true)
  | 0x045 => (some (if signedNat w old < signedNat w v then v else old), true)
  | 0x046 => (some (min old v), true)
  | 0x047 => (some (max old v), true)
  | 0x048 => (some v, true)
  | 0x049 => (if old = x then some v else none, true)
  | 0x04A => (some (if v ≤ old then 0 else old + 1), true)
  | 0x04B => if old ≤ x ∧ v ≤ x - old then (some (old + v), true) else (none, false)
  | 0x04C => (some (atomFadd .f32 old v), true)
  | _ => (some (atomFadd .bf16 (old % 65536) (v % 65536) + 65536 * atomFadd .bf16 (old / 65536) (v / 65536)), true)

/-- The old value as returned: zero-extended, but sign-extended for amin and amax of size w (08 R185). -/
def atomicRet (opc n old : Nat) : Word :=
  if (opc = 0x044 ∨ opc = 0x045) ∧ n = 4 then (BitVec.ofNat 32 old).signExtend 64 else BitVec.ofNat 64 old

/-- The latch results of an atomic: old value in l2, and ok in l3 for afaddb (08 R186). -/
def atomicEffs (slot opc : Nat) (ret : Word) (ok : Bool) : List Eff :=
  .reg (latchKey slot 2) (rvOf ret) :: if opc = 0x04B then [.reg (latchKey slot 3) (rvOf (boolWord ok))] else []

/-- A byte of the own pool as an atomic of the tile reads it: atomics in flight and stores of lower slots in this tick
count (08 R188, R198). -/
def heldByte (t : Tile) (a : Nat) : Byte :=
  t.core.flights.foldl (fun x f => if f.atom ∨ (f.slot < 3 ∧ f.land = t.core.ticks) then
      f.effs.foldl (fun x e => match e with | .cells cs => (cellFind cs a).getD x | _ => x) x else x) (poolByte t a)

/-- What the oldest operation of slot aa or ab asks of its own pool, where nothing else holds its issue in this tick: a load or an
atomic reads, a store writes (08 R174, R180 to R188; 10 R232). -/
def portAsk (s : State) (tile slot : Nat) : Option (Nat × Bool) :=
  if coreRuns s tile then
    match slotNext? (coreGet s tile) slot with
    | none => none
    | some b =>
      match slotView tile slot (mapGet b.words slot 0) with
      | .m hi k opc o =>
        let v := readPorts s tile 0 [o.base, o.index] (slotQ b.pops slot)
        let base := (v.getD 0 (rvOf 0)).v
        let ea := if opc = 0x049 ∨ opc = 0x04B then effAddr2 base o else effAddr base (v.getD 1 (rvOf 0)).v o
        let place := if isAtomic opc then fullPlace ea else if opc < 4 then poolPlace ea.toNat else .bad
        if canIssue s tile slot b (.m hi k opc o) && guardTrue s tile o.guard && !relWaits (coreGet s tile) b.seq o.order
            && !atomWaits b slot opc then
          (match place with
           | .ownPool off => some (off, decide (opc = 1) || decide (opc = 3))
           | _ => none)
        else none
      | _ => none
  else none

/-- A loss on a segment is counted before the offer of slot aa or ab meets it (10 R232). -/
def noteLoss (s : State) (tile slot : Nat) : State :=
  match (if slot = 1 ∨ slot = 2 then portAsk s tile slot else none) with
  | none => s
  | some (off, wr) =>
    if portOpen s tile slot off wr then s
    else
      let c := coreGet s tile
      corePut s tile { c with lost := mapPut c.lost slot ⟨c.ticks, lossOf c slot + 1, portAskOf off wr⟩ }

/-- An atomic: on the own pool in 6 ticks, elsewhere a request (08 R185 to R189). `two` marks acas and afaddb. -/
def atomicBody (opc : Nat) (two : Bool) (o : MOp) (tile slot : Nat) (s : State) (b : Bundle) (v : MVals) :
    Except Trap (Option State) :=
  let n := sizeBytes o.size
  let ea := if two then effAddr2 v.base o else effAddr v.base v.index o
  let m := 2 ^ (8 * n)
  let d := v.data.v.toNat % m
  let x := if two then v.index.toNat % m else 0
  let pl := fullPlace ea
  let isReel := match pl with | .ownReel _ | .reel _ _ | .bad => true | _ => false
  if isReel then .error (addrTrap causeBadAddress ea v.data.v)
  else if ea.toNat % n ≠ 0 then .error (addrTrap causeAlignment ea v.data.v)
  else if relWaits (coreGet s tile) b.seq o.order || atomWaits b slot opc then .ok none
  else
    let req (reach : Scope) : State := addReq s tile b slot (some 64)
      { reqOf .atomic opc ea o (effScope o reach) with data := BitVec.ofNat 64 d, data2 := BitVec.ofNat 64 x }
    match pl with
    | .ownPool off =>
      if pastScratch (tileGet s tile) off n then .error (addrTrap causeScratchBound ea v.data.v)
      else if !portOpen s tile slot off false then .ok none
      else match (pendingOwn (tileGet s tile) off n).or (poolReadTrap s tile off n) with
        | some t => .error t
        | none =>
          match checkOwn s tile b.seq off n true false with
          | .error t => .error t
          | .ok s1 =>
            let t := tileGet s tile
            let old := leNat ((List.range n).map fun i => heldByte t (off + i))
            let r := atomicNew opc n old d x
            let cells := match r.1 with | some y => [Eff.cells (cellsOf off n y)] | none => []
            let s2 := ownSync (servePort s1 tile off false) tile off n o
            let s3 := addAct (addAct s2 tile b.seq slot (.atomic off n)) tile b.seq slot (.sync (locPool tile off) o.order (effScope o .tile) r.1.isSome)
            .ok (some (addRead s3 tile b.seq slot 6 (atomicEffs slot opc (atomicRet opc n old) r.2 ++ cells)
              (ordAcq o.order) true))
    | .pool t off =>
      if !(nodeTiles s tile).contains t then .error (addrTrap causeIllegalTarget ea v.data.v)
      else if pastScratch (tileGet s t) off n then .error (addrTrap causeScratchBound ea v.data.v)
      else .ok (some (req (poolReach tile t)))
    | _ => .ok (some (req .pkg))

/-- The checks of a reel's address (08 R190, R196). -/
def reelCheck (ea d : Word) : Except Trap Place :=
  match fullPlace ea with
  | .mem va => if va % 8 ≠ 0 then .error (addrTrap causeAlignment ea d) else .ok (.mem va)
  | .ownReel k => .ok (.ownReel k)
  | .reel t k => .ok (.reel t k)
  | _ => .error (addrTrap causeBadAddress ea d)

/-- The reach of a reel's address for a tile; host memory is found at its translation (08 R178). -/
def reelReach (tile : Nat) : Place → Scope
  | .ownReel _ => .tile
  | .reel t _ => poolReach tile t
  | _ => .pkg

/-- An own reel register as an operation of the tile reads it: with the adds that come before it and that name the register as another
tile would, not performed yet (08 R179, R191). -/
def reelSeen (s : State) (tile seq slot k : Nat) : Word :=
  let t := tileGet s tile
  t.core.reqs.foldl (fun x r => if r.kind = .kadd ∧ fullPlace r.addr = .reel tile k ∧ !reqSent r
      ∧ (r.seq < seq ∨ (r.seq = seq ∧ r.slot < slot)) then x + r.data else x) (reelOwn t k)

/-- kadd: on an own register it lands with its bundle, elsewhere it is a request (08 R182, R191). -/
def kaddBody (o : MOp) (tile slot : Nat) (s : State) (b : Bundle) (v : MVals) : Except Trap (Option State) :=
  let ea := effAddr v.base v.index o
  if relWaits (coreGet s tile) b.seq o.order then .ok none
  else match reelCheck ea v.data.v with
    | .error x => .error x
    | .ok (.ownReel k) =>
      let s1 := addAct s tile b.seq slot (.sync (locReel tile k) o.order (effScope o .tile) true)
      .ok (some (addFlight s1 tile b.seq slot 1 [.reelAdd k v.data.v]))
    | .ok p => .ok (some (addReq s tile b slot none
        { reqOf .kadd 0x080 ea o (effScope o (reelReach tile p)) with data := v.data.v }))

/-- kwait: the test lands after 2 ticks for an own register, else at the declared latency (08 R192). -/
def kwaitBody (o : MOp) (tile slot : Nat) (s : State) (b : Bundle) (v : MVals) : Except Trap (Option State) :=
  let ea := effAddr v.base v.index o
  match reelCheck ea v.data.v with
  | .error x => .error x
  | .ok p =>
    let r := { reqOf .kwait 0x081 ea o (effScope o (reelReach tile p)) with data := v.data.v, order := .acq }
    match p with
    | .ownReel k => .ok (some (addReq s tile b slot (some 2)
        { r with result := boolNat (decide (v.data.v.toNat ≤ (reelSeen s tile b.seq slot k).toNat)) }))
    | _ => .ok (some (addReq s tile b slot (some 64) r))

/-- kread and kpoll (08 R193). -/
def kreadBody (poll : Bool) (o : MOp) (tile slot : Nat) (s : State) (b : Bundle) (v : MVals) : Except Trap (Option State) :=
  let ea := effAddr v.base v.index o
  match reelCheck ea v.data.v with
  | .error x => .error x
  | .ok (.ownReel k) =>
    let val := reelSeen s tile b.seq slot k
    let met := decide (v.data.v.toNat ≤ val.toNat)
    let x := if poll then rvOf (boolWord met) else rvOf val
    let s1 := if ordAcq o.order && (!poll || met) then coreSync s tile .acq (effScope o .tile) (locReel tile k) true false else s
    match (if poll then .ok [] else dstEffs (slotQ b.pushes slot) o.data x) with
    | .error t => .error t
    | .ok effs => .ok (some (addRead s1 tile b.seq slot 2 (.reg (latchKey slot 3) x :: effs) (ordAcq o.order) false))
  | .ok p =>
    .ok (some (addReq s tile b slot (some 64)
      { reqOf (if poll then .kpoll else .kread) (if poll then 0x083 else 0x082) ea o (effScope o (reelReach tile p)) with
        data := v.data.v, dst := if poll then .s 0 else o.data, entries := if poll then [] else slotQ b.pushes slot }))

/-- kbind on an own register; the current values are checked when it is performed (08 R194). A global address is translated, and
its faults come first (08 R196). -/
def kbindBody (o : MOp) (tile slot : Nat) (s : State) (b : Bundle) (v : MVals) : Except Trap (Option State) :=
  let ea := effAddr2 v.base o
  let d := v.data.v
  match reelCheck ea d with
  | .error x => .error x
  | .ok (.ownReel k) =>
    let c := v.index.toNat
    if 256 ≤ c ∨ c = k ∨ (2 ^ 32 ≤ d.toNat ∧ d ≠ BitVec.allOnes 64) then .error (addrTrap causeReelBind ea d)
    else .ok (some (addFlight s tile b.seq slot 1 [.reelBind k c d]))
  | .ok (.mem _) => .ok (some (addReq s tile b slot none { reqOf .kbind 0x084 ea o .pkg with data := d, order := .rlx }))
  | .ok _ => .error (addrTrap causeReelBind ea d)

/-- The phase count of the tile in its level-0 pack (07 R158, 08 R195). -/
def phase0 (t : Tile) : Nat := match t.packStack.getLast? with | some p => p.phase | none => t.core.phase

/-- kinit on an own register or a memory reel; whether the pack is in its prologue is seen at its commit (08 R195). -/
def kinitBody (o : MOp) (tile slot : Nat) (s : State) (b : Bundle) (v : MVals) : Except Trap (Option State) :=
  let ea := effAddr v.base v.index o
  match reelCheck ea v.data.v with
  | .error x => .error x
  | .ok (.reel _ _) => .error (addrTrap causeIllegalTarget ea v.data.v)
  | .ok p =>
    match p with
    | .ownReel k => .ok (some (addFlight s tile b.seq slot 1 [.reelSet k v.data.v]))
    | _ => .ok (some (addReq s tile b slot none { reqOf .kinit 0x085 ea o .pkg with data := v.data.v, order := .rlx }))

/-- ld (08 R180). -/
def execLd (tile : BitVec 8) (hi : Bool) (o : MOp) (s : State) : Out :=
  accessOp (.ld tile hi o) tile hi o false (some (0, 5)) (loadBody o) s

/-- st (08 R180). -/
def execSt (tile : BitVec 8) (hi : Bool) (o : MOp) (s : State) : Out :=
  accessOp (.st tile hi o) tile hi o true none (storeBody o) s

/-- ldq (08 R181). -/
def execLdq (tile : BitVec 8) (hi : Bool) (o : MOp) (s : State) : Out :=
  accessOp (.ldq tile hi o) tile hi o false (some (0, 5)) (ldqBody o) s

/-- stq (08 R181). -/
def execStq (tile : BitVec 8) (hi : Bool) (o : MOp) (s : State) : Out :=
  accessOp (.stq tile hi o) tile hi o false none (stqBody o) s

/-- ldc (08 R182, R183). -/
def execLdc (tile : BitVec 8) (hi : Bool) (o : MOp) (s : State) : Out :=
  accessOp (.ldc tile hi o) tile hi o false (some (1, 64)) (ldcBody o) s

/-- stc (08 R182, R183). -/
def execStc (tile : BitVec 8) (hi : Bool) (o : MOp) (s : State) : Out :=
  accessOp (.stc tile hi o) tile hi o true none (stcBody o) s

/-- pref (08 R183). -/
def execPref (tile : BitVec 8) (hi : Bool) (o : MOp) (s : State) : Out :=
  accessOp (.pref tile hi o) tile hi o false none (prefBody o) s

/-- rdset, form 0 (08 R184). -/
def execRdset (tile : BitVec 8) (hi : Bool) (o : MOp) (s : State) : Out :=
  accessOp (.rdset tile hi o) tile hi o true none (rdsetBody false o) s

/-- rdset.org (08 R184). -/
def execRdsetOrg (tile : BitVec 8) (hi : Bool) (o : MOp) (s : State) : Out :=
  accessOp (.rdsetOrg tile hi o) tile hi o true none (rdsetBody true o) s

/-- rdget, form 0 (08 R184). -/
def execRdget (tile : BitVec 8) (hi : Bool) (o : MOp) (s : State) : Out :=
  accessOp (.rdget tile hi o) tile hi o false (some (3, 2)) (rdgetBody false o) s

/-- rdget.org (08 R184). -/
def execRdgetOrg (tile : BitVec 8) (hi : Bool) (o : MOp) (s : State) : Out :=
  accessOp (.rdgetOrg tile hi o) tile hi o false (some (3, 2)) (rdgetBody true o) s

/-- rdadv, form 0 (08 R184). -/
def execRdadv (tile : BitVec 8) (hi : Bool) (o : MOp) (s : State) : Out :=
  accessOp (.rdadv tile hi o) tile hi o true none (rdadvBody false o) s

/-- rdadv.org (08 R184). -/
def execRdadvOrg (tile : BitVec 8) (hi : Bool) (o : MOp) (s : State) : Out :=
  accessOp (.rdadvOrg tile hi o) tile hi o true none (rdadvBody true o) s

/-- aadd: stores old + v (08 R185). -/
def execAadd (tile : BitVec 8) (hi : Bool) (o : MOp) (s : State) : Out :=
  accessOp (.aadd tile hi o) tile hi o true none (atomicBody 0x40 false o) s

/-- aand: stores old AND v (08 R185). -/
def execAand (tile : BitVec 8) (hi : Bool) (o : MOp) (s : State) : Out :=
  accessOp (.aand tile hi o) tile hi o true none (atomicBody 0x41 false o) s

/-- aor: stores old OR v (08 R185). -/
def execAor (tile : BitVec 8) (hi : Bool) (o : MOp) (s : State) : Out :=
  accessOp (.aor tile hi o) tile hi o true none (atomicBody 0x42 false o) s

/-- axor: stores old XOR v (08 R185). -/
def execAxor (tile : BitVec 8) (hi : Bool) (o : MOp) (s : State) : Out :=
  accessOp (.axor tile hi o) tile hi o true none (atomicBody 0x43 false o) s

/-- amin: stores the signed minimum (08 R185). -/
def execAmin (tile : BitVec 8) (hi : Bool) (o : MOp) (s : State) : Out :=
  accessOp (.amin tile hi o) tile hi o true none (atomicBody 0x44 false o) s

/-- amax: stores the signed maximum (08 R185). -/
def execAmax (tile : BitVec 8) (hi : Bool) (o : MOp) (s : State) : Out :=
  accessOp (.amax tile hi o) tile hi o true none (atomicBody 0x45 false o) s

/-- aminn: stores the unsigned minimum (08 R185). -/
def execAminn (tile : BitVec 8) (hi : Bool) (o : MOp) (s : State) : Out :=
  accessOp (.aminn tile hi o) tile hi o true none (atomicBody 0x46 false o) s

/-- amaxn: stores the unsigned maximum (08 R185). -/
def execAmaxn (tile : BitVec 8) (hi : Bool) (o : MOp) (s : State) : Out :=
  accessOp (.amaxn tile hi o) tile hi o true none (atomicBody 0x47 false o) s

/-- aswap: stores v (08 R185). -/
def execAswap (tile : BitVec 8) (hi : Bool) (o : MOp) (s : State) : Out :=
  accessOp (.aswap tile hi o) tile hi o true none (atomicBody 0x48 false o) s

/-- acas: stores v when old equals the second operand (08 R185). -/
def execAcas (tile : BitVec 8) (hi : Bool) (o : MOp) (s : State) : Out :=
  accessOp (.acas tile hi o) tile hi o true none (atomicBody 0x49 true o) s

/-- aincw: stores the wrapping increment of R186 (08 R185). -/
def execAincw (tile : BitVec 8) (hi : Bool) (o : MOp) (s : State) : Out :=
  accessOp (.aincw tile hi o) tile hi o true none (atomicBody 0x4a false o) s

/-- afaddb: stores the bounded add of R186 (08 R185). -/
def execAfaddb (tile : BitVec 8) (hi : Bool) (o : MOp) (s : State) : Out :=
  accessOp (.afaddb tile hi o) tile hi o true none (atomicBody 0x4b true o) s

/-- afaddF32: stores the FP32 sum (08 R185). -/
def execAfaddF32 (tile : BitVec 8) (hi : Bool) (o : MOp) (s : State) : Out :=
  accessOp (.afaddF32 tile hi o) tile hi o true none (atomicBody 0x4c false o) s

/-- afaddBf16x2: stores two BF16 sums (08 R185). -/
def execAfaddBf16x2 (tile : BitVec 8) (hi : Bool) (o : MOp) (s : State) : Out :=
  accessOp (.afaddBf16x2 tile hi o) tile hi o true none (atomicBody 0x4d false o) s

/-- kadd (08 R191). -/
def execKadd (tile : BitVec 8) (hi : Bool) (o : MOp) (s : State) : Out :=
  accessOp (.kadd tile hi o) tile hi o true none (kaddBody o) s

/-- kwait (08 R192). -/
def execKwait (tile : BitVec 8) (hi : Bool) (o : MOp) (s : State) : Out :=
  accessOp (.kwait tile hi o) tile hi o true none (kwaitBody o) s

/-- kread (08 R193). -/
def execKread (tile : BitVec 8) (hi : Bool) (o : MOp) (s : State) : Out :=
  accessOp (.kread tile hi o) tile hi o false (some (3, 2)) (kreadBody false o) s

/-- kpoll (08 R193). -/
def execKpoll (tile : BitVec 8) (hi : Bool) (o : MOp) (s : State) : Out :=
  accessOp (.kpoll tile hi o) tile hi o true none (kreadBody true o) s

/-- kbind (08 R194). -/
def execKbind (tile : BitVec 8) (hi : Bool) (o : MOp) (s : State) : Out :=
  accessOp (.kbind tile hi o) tile hi o true none (kbindBody o) s

/-- kinit (08 R195). -/
def execKinit (tile : BitVec 8) (hi : Bool) (o : MOp) (s : State) : Out :=
  accessOp (.kinit tile hi o) tile hi o true none (kinitBody o) s

end Sys2Proof.Machine
end

