-- ==== Sys2Proof/Machine/Fetch.lean ====
section
/-! DEFINITION. Fetching code: the index stream, dictionary pages and their fills, and dispatch (03 R61 to R69;
04 R92 to R94; 05 R98, R114). -/

namespace Sys2Proof.Machine

open Sys2Proof

/-- A field of the header of the image that a tile's node runs (02 R25). -/
def hdrField (s : State) (tile off : Nat) : Nat := ((tileNode? s tile).map fun n => mapGet n.hdr off 0).getD 0

/-- The base of that image. -/
def imageBase (s : State) (tile : Nat) : Nat := ((tileNode? s tile).map (·.image)).getD 0

/-- The image ID of the running bobbin. -/
def runImage (t : Tile) : Nat := (t.running.map (·.image)).getD 0

/-- Dictionary pages of the image (03 R64). -/
def dictPages (s : State) (tile : Nat) : Nat := ceilDiv (hdrField s tile 0x1C) 256

/-- The frame that holds a page of the image that runs, under the node's generation (03 R64). -/
def frameOf (s : State) (tile page : Nat) : Option Frame :=
  let t := tileGet s tile
  t.core.frames.find? fun f => decide (f.image = runImage t) && decide (f.gen = hdrField s tile 0x10) && decide (f.page = page)

/-- A stamp later than every frame's. -/
def nextStamp (c : Core) : Nat := c.frames.foldl (fun m f => max m (f.stamp + 1)) 1


/-- A fetch fault, which waits for the older bundles (03 R62, 04 R93). -/
def fetchStop (s : State) (tile pc cause : Nat) : State :=
  let c := coreGet s tile
  corePut s tile { c with decodeStop := some (pc, 0, trapAt cause (BitVec.ofNat 64 pc) 0), lineWait := none, pageWait := none }

/-- A line of the index stream in the fetch buffer (03 R67). -/
def lineFind (c : Core) (line : Nat) : Option FetchLine := c.lines.find? fun l => decide (l.line = line)

/-- The address of a halfword of the index stream. -/
def idxAddr (s : State) (tile pc : Nat) : Nat := imageBase s tile + hdrField s tile 0x20 + 2 * pc

/-- A halfword of the index stream, or the line that it lacks. -/
def halfAt (s : State) (tile pc : Nat) : Nat ⊕ Nat :=
  let a := idxAddr s tile pc
  match lineFind (coreGet s tile) (a / 64) with
  | some l => .inl (leNat ((l.bytes.drop (a % 64)).take 2))
  | none => .inr (a / 64)

/-- Lines `a` and `b` are in the fetch buffer and were filled by one fill, so that what straddles them is wholly of one moment
(03 R67). -/
def linesAgree (c : Core) (a b : Nat) : Bool :=
  match lineFind c a, lineFind c b with
  | some x, some y => decide (x.fill = y.fill)
  | _, _ => false

/-- The bits of a literal whose escape stands at `pc`, or the line that it lacks; one that straddles two lines takes both from
one fill (03 R61, R67). -/
def literalAt (s : State) (tile pc : Nat) : Nat ⊕ Nat :=
  let a := idxAddr s tile pc / 64
  let b := idxAddr s tile (pc + 24) / 64
  if a ≠ b ∧ !linesAgree (coreGet s tile) a b then .inr b
  else (List.range 24).foldl (fun r n => match r with
    | .inr l => .inr l
    | .inl x => match halfAt s tile (pc + 1 + n) with
      | .inl h => .inl (x + h * 2 ^ (16 * n))
      | .inr l => .inr l) (.inl 0)

/-- The frame that holds the page of the bundle now at pc (03 R64). -/
def pcFrame (s : State) (tile : Nat) : Option Frame :=
  match halfAt s tile (coreGet s tile).pc with
  | .inl i => if i < 0x8000 then frameOf s tile (i / 256) else none
  | .inr _ => none

/-- A fill takes a frame: with none empty, the least recently fetched one but that of the bundle now at pc (03 R64). -/
def evictFrame (s : State) (tile : Nat) : State :=
  let c := coreGet s tile
  if c.frames.length < 32 then s
  else
    let l := c.frames.filter fun f => decide (some f ≠ pcFrame s tile)
    let low := l.foldl (fun m f => min m f.stamp) (nextStamp c)
    corePut s tile { c with frames := c.frames.filter fun f => decide (f.stamp ≠ low) }

/-- A page's fill begins, or waits for the one in progress (03 R64, R65). -/
def fillBegin (s : State) (tile page : Nat) : State :=
  let c := coreGet s tile
  if c.fill.contains page then s
  else if c.fill.isEmpty then
    let s := evictFrame s tile
    corePut s tile { coreGet s tile with fill := [page] }
  else corePut s tile { c with fill := c.fill ++ [page] }

/-- The bundle at a tile's pc is wanted and not there (03 R61). -/
def fetchOpen (s : State) (tile : Nat) : Bool :=
  let t := tileGet s tile
  let c := t.core
  t.running.isSome && !t.halted && c.frozen.isNone && !s.clockStop && c.cur.isNone && c.decodeStop.isNone
    && c.lineWait.isNone && c.window.all fun b => !b.unresolved

/-- INDEX_FETCH (03 R61, R62). -/
def indexFetch (tile : Nat) (s : State) : State :=
  if !fetchOpen s tile then s
  else
    let c := coreGet s tile
    let len := hdrField s tile 0x24
    if len ≤ c.pc then fetchStop s tile c.pc causeFetchBound
    else match halfAt s tile c.pc with
      | .inr l => corePut s tile { c with lineWait := some l }
      | .inl i =>
        if i < 0x8000 then
          if hdrField s tile 0x1C ≤ i then fetchStop s tile c.pc causeIllegalIndex
          else match frameOf s tile (i / 256) with
            | some f =>
              let c := { c with pageWait := none,
                                cur := some (leNat ((f.bytes.drop (i % 256 * 48)).take 48), c.pc + 1),
                                frames := c.frames.map fun g => if g = f then { g with stamp := nextStamp c } else g }
              corePut s tile c
            | none => fillBegin (corePut s tile { c with pageWait := some (i / 256) }) tile (i / 256)
        else if i = 0xFFFF then
          if len ≤ c.pc + 24 then fetchStop s tile c.pc causeFetchBound
          else match literalAt s tile c.pc with
            | .inr l => corePut s tile { c with lineWait := some l }
            | .inl bits => corePut s tile { c with cur := some (bits, c.pc + 25) }
        else fetchStop s tile c.pc causeIllegalIndex

/-- `n` bytes of a node's code, one 64 KiB page at a time: the bytes, a fault's cause, or nothing while a walk is awaited;
a walk is asked for (03 R62; 10 R238, R240; 18 R420). -/
def codeRead (s : State) (tile : Nat) : Nat → Nat → Nat → State × Except Nat (Option (List Byte))
  | 0, _, _ => (s, .ok (some []))
  | fuel + 1, va, n =>
    if n = 0 then (s, .ok (some []))
    else
      let k := min n (65536 - va % 65536)
      match xlateWait s tile (tileAsid s tile) va with
      | (.miss, s1) => (s1, .ok none)
      | (.bad c, s1) => (s1, .error (if c = causeLineLost then c else causeFetchTranslation))
      | (.hit e, s1) =>
        if permBad e va k true false then (s1, .error causeFetchTranslation)
        else
          let pa := entPa e va
          match memReadTrap s1 pa k with
          | some x => (s1, .error x.cause)
          | none =>
            let s1 := touchPa (touch s1 (tileAsid s1 tile) (dieOf tile)) (tileAsid s1 tile) pa
            match codeRead s1 tile fuel (va + k) (n - k) with
            | (s2, .ok (some bs)) => (s2, .ok (some (devBytes s1 pa k ++ bs)))
            | r => r

/-- Tiles whose fetch waits for a line. -/
def lineWaiters (s : State) : List (Nat × Nat) :=
  s.tiles.filterMap fun x => if x.2.halted then none else x.2.core.lineWait.map fun l => (x.1, l)

/-- FETCH_BUFFER_FILL_COMPLETE: a 64-byte line comes into the 1 KiB buffer (03 R67). The second line of a literal comes with
the first one, read again. -/
def lineFill (s : State) : State :=
  match pickTurn s (lineWaiters s) with
  | none => s
  | some (tile, l) =>
    let c := coreGet s tile
    let l0 := if idxAddr s tile c.pc / 64 + 1 = l then l - 1 else l
    match codeRead s tile 2 (l0 * 64) (64 * (l + 1 - l0)) with
    | (s1, .ok none) => s1
    | (s1, .error x) => fetchStop s1 tile (coreGet s1 tile).pc x
    | (s1, .ok (some bs)) =>
      let c := coreGet s1 tile
      let fill := c.lines.foldl (fun m x => max m (x.fill + 1)) 0
      let got := (List.range (l + 1 - l0)).map fun i => (⟨l0 + i, fill, (bs.drop (64 * i)).take 64⟩ : FetchLine)
      let kept := c.lines.filter fun x => decide (x.line < l0) || decide (l < x.line)
      corePut s1 tile { c with lineWait := none, lines := (got ++ kept).take 16 }

/-- Tiles on which a page fills. -/
def fillTiles (s : State) : List (Nat × Nat) :=
  s.tiles.filterMap fun x => if x.2.node.isNone then none else x.2.core.fill.head?.map fun p => (x.1, p)

/-- DICTIONARY_FILL_COMPLETE: 12 KiB of the dictionary come into the frame (03 R64 to R66). Of the last page only the
dictionary's own entries are read and translated, which the rule does not say (DESIGN CHOICE, log entry 61). A fault reaches
the fetch that waits for the page. -/
def dictFill (s : State) : State :=
  match pickTurn s (fillTiles s) with
  | none => s
  | some (tile, p) =>
    match codeRead s tile 3 (imageBase s tile + hdrField s tile 0x18 + p * 12288)
        (48 * min 256 (hdrField s tile 0x1C - 256 * p)) with
    | (s1, .ok none) => s1
    | (s1, .error x) =>
      let c := coreGet s1 tile
      let s2 := corePut s1 tile { c with fill := c.fill.drop 1 }
      if c.pageWait = some p then fetchStop s2 tile c.pc x else s2
    | (s1, .ok (some bs)) =>
      let c := coreGet s1 tile
      let f : Frame := ⟨hdrField s1 tile 0x06, hdrField s1 tile 0x10, p, bs, nextStamp c⟩
      let c := { c with frames := c.frames ++ [f], fill := c.fill.drop 1,
                        pageWait := if c.pageWait = some p then none else c.pageWait }
      let s2 := corePut s1 tile c
      if c.fill.isEmpty then s2 else evictFrame s2 tile

/-- The slot word of slot `n` in a bundle (03 R68). -/
def bundleWord (bits n : Nat) : SlotWord := BitVec.ofNat 60 (bits / 2 ^ (60 * n))

/-- A loop or loopr whose exit does not lie past its successor: a narrower limit on its target, whatever its guard
(03 R72; 04 R92, R93; 07 R149). -/
def loopBad (pc next : Nat) (w : SlotWord) : Bool :=
  let opc := (opcodeOf w).toNat
  (decide (opc = 0x005) || decide (opc = 0x006)) && decide (loopExit pc (w.extractLsb' 23 24) ≤ next)

/-- The decode faults of a bundle by slot, and whether a reserved header bit is set (04 R92, R94). -/
def bundleTrap (pc next bits : Nat) : Option (Nat × Trap) :=
  let hdr := bits / 2 ^ 360
  let valid (n : Nat) : Bool := natBit bits (372 + n)
  let stray := (List.range 6).filter fun n => !valid n && decide (bundleWord bits n ≠ 0)
  let flt (f : DecodeFault) := (List.range 6).filter fun n => valid n && decide (slotFault n (bundleWord bits n) = some f)
  let opBad := flt .illegalOperation ++ if valid 0 && loopBad pc next (bundleWord bits 0) then [0] else []
  let portBad := flt .illegalPort
  let mask := ((stray ++ opBad ++ portBad).eraseDups.map fun n => 2 ^ n).sum
  let at' (c : Nat) : Option (Nat × Trap) := some (mask, trapAt c (BitVec.ofNat 64 hdr) 0)
  if hdr % 4096 ≠ 0 ∨ !stray.isEmpty then at' causeIllegalBundle
  else if !opBad.isEmpty then at' causeIllegalOperation
  else if !portBad.isEmpty then at' causeIllegalPort
  else none

/-- The fetched bundle is dispatched (04 R93; 05 R98, R114). -/
def dispatchNow (tile : Nat) (s : State) (bits next : Nat) : State :=
  let t := tileGet s tile
  match bundleTrap t.core.pc next bits with
  | some (mask, x) => corePut s tile { t.core with decodeStop := some (t.core.pc, mask, x), cur := none }
  | none =>
    let ops := ((List.range 6).filter fun n => natBit bits (372 + n)).map fun n => (n, bundleWord bits n)
    let r := enterBundle s tile t.core.pc next (bits / 2 ^ 360) ops
    let t := tileGet r.1 tile
    let c := t.core
    tilePut r.1 tile { t with
      core := { c with weight := bundleEnergy bits, busy := mapPut c.busy 6 (c.ticks + 1) },
      gov := dayCount s.point 1 0 { t.gov with wBundles := t.gov.wBundles + 1 } }

/-- The tick in progress begins to issue where no core stall holds it (05 R96, R113). -/
def tickOpen (tile : Nat) (s : State) : State :=
  if coreRuns s tile then corePut s tile { coreGet s tile with stage := .issue } else s

/-- BUNDLE_DISPATCH: at most one bundle a tick, which then issues unless the core stalls (05 R98, R113). -/
def dispatch (tile : Nat) (s : State) : State :=
  let t := tileGet s tile
  tickOpen tile (match t.core.cur with
    | some (bits, next) => if coreRuns s tile && dispatchOpen t then dispatchNow tile s bits next else s
    | none => s)

/-- The tile fetches at its pc (03 R61). -/
def execIndexFetch (tile : BitVec 8) (s : State) : Out := .next (indexFetch tile.toNat s)

/-- A line of the index stream arrives (03 R67). -/
def execFetchBufferFillComplete (s : State) : Out := .next (lineFill s)

/-- A dictionary page has been filled (03 R64). -/
def execDictionaryFillComplete (s : State) : Out := .next (dictFill s)

/-- One bundle is dispatched (05 R98). -/
def execBundleDispatch (tile : BitVec 8) (s : State) : Out := .next (dispatch tile.toNat s)

end Sys2Proof.Machine
end

