-- ==== Sys2Proof/Machine/Control.lean ====
section
/-! DEFINITION. The operations of slot ca at their issue (05 R111; 07 R146 to R162; 12 R274 to R278). What they do at the
commit of their bundle is in Commit.lean. -/

namespace Sys2Proof.Machine

open Sys2Proof

/-- What an operation of slot ca does at its issue: a fault, a wait in its slot, or a new state. -/
abbrev CtlRes := Except Trap (Option State)

/-- The frame of every operation of slot ca (07 R144, R146, R172). `src` says that countport is a source; `off` is what a
false guard leaves. -/
def ctlRun (tile : Nat) (o : COp) (src : Bool) (off : State → Bundle → State) (body : State → Bundle → Word → CtlRes)
    (s : State) (b : Bundle) : Option State :=
  let run := guardTrue s tile o.guard
  let ports := if src then [o.cport] else []
  match pendingTrap s tile (guardPorts o.guard ++ if run then ports else []) with
  | some x => some (raiseAt s tile b.seq 0 x)
  | none =>
    if run then
      let vals := readPorts s tile (o.imm.setWidth 64) ports []
      match resCheck vals with
      | some x => some (raiseAt s tile b.seq 0 x)
      | none =>
        match body s b (vals.getD 0 (rvOf 0)).v with
        | .error x => some (raiseAt s tile b.seq 0 x)
        | .ok r => r
    else some (off s b)

/-- The issue of an operation of slot ca. -/
def ctlOp (i : Instr) (tile : BitVec 8) (o : COp) (src : Bool) (off : Nat → State → Bundle → State)
    (body : Nat → State → Bundle → Word → CtlRes) (s : State) : Out :=
  issueOp i tile.toNat 0 s (ctlRun tile.toNat o src (off tile.toNat) (body tile.toNat))

/-- A false guard leaves nothing. -/
def offNone (_tile : Nat) (s : State) (_b : Bundle) : State := s

/-- A transfer resolves: the next bundle dispatches in the tick after (07 R148). -/
def setFlow (s : State) (tile : Nat) (b : Bundle) (go : List LoopEnt × Nat) : State :=
  let c := bundleMap (coreGet s tile) b.seq fun x => { x with unresolved := b.fin }
  corePut s tile { c with loops := go.1, pc := go.2, busy := mapPut c.busy 6 (c.ticks + 1) }

/-- A transfer whose guard is false: flow goes on at N (07 R147, R149). -/
def offFlow (tile : Nat) (s : State) (b : Bundle) : State := setFlow s tile b (exitTest (coreGet s tile).loops b.next)

/-- jmp: an unguarded one has resolved at dispatch (07 R147, R148). -/
def jmpBody (o : COp) (tile : Nat) (s : State) (b : Bundle) (_v : Word) : CtlRes :=
  .ok (some (if unguarded o.guard then s else setFlow s tile b (jumpTo (coreGet s tile).loops (pcAdd b.pc o.target))))

/-- jmpi (07 R147, R150). -/
def jmpiBody (tile : Nat) (s : State) (b : Bundle) (v : Word) : CtlRes :=
  .ok (some (setFlow s tile b (jumpTo (coreGet s tile).loops v.toNat)))

/-- ret (07 R147, R150). -/
def retBody (tile : Nat) (s : State) (b : Bundle) (v : Word) : CtlRes :=
  .ok (some (setFlow s tile b ((coreGet s tile).loops, v.toNat)))

/-- A result of slot ca in latch `n` after `l` ticks (05 R104). -/
def caResult (s : State) (tile : Nat) (b : Bundle) (n l : Nat) (v : Word) : State :=
  addFlight s tile b.seq 0 l [.reg (latchKey 0 n) (rvOf v)]

/-- call: ca.l1 := N (07 R147). -/
def callBody (o : COp) (tile : Nat) (s : State) (b : Bundle) (_v : Word) : CtlRes :=
  let s1 := if unguarded o.guard then s else setFlow s tile b ((coreGet s tile).loops, pcAdd b.pc o.target)
  .ok (some (caResult s1 tile b 1 1 (BitVec.ofNat 64 b.next)))

/-- loop and loopr at issue: a count and an exit (07 R149, R150); beside the end bit they have no effect (07 R148). -/
def loopRun (tile : Nat) (exit : Int) (n : Nat) (s : State) (b : Bundle) : CtlRes :=
  if b.fin then .ok (some s)
  else match loopEnter (coreGet s tile).loops b.next exit n with
  | .error c => .error (trapOf c)
  | .ok go => .ok (some (setFlow s tile b go))

/-- loop: an unguarded one has resolved at dispatch (07 R148, R149). -/
def loopBody (o : COp) (tile : Nat) (s : State) (b : Bundle) (_v : Word) : CtlRes :=
  if unguarded o.guard then .ok (some s) else loopRun tile (loopExit b.pc o.target) o.imm.toNat s b

/-- loopr (07 R149). -/
def looprBody (o : COp) (tile : Nat) (s : State) (b : Bundle) (v : Word) : CtlRes :=
  loopRun tile (loopExit b.pc o.target) v.toNat s b

/-- An operation whose whole effect comes at its commit. -/
def actBody (a : CommitAct) (tile : Nat) (s : State) (b : Bundle) (_v : Word) : CtlRes := .ok (some (addAct s tile b.seq 0 a))

/-- end: nothing younger is dispatched (07 R152). -/
def endBody (tile : Nat) (s : State) (b : Bundle) (_v : Word) : CtlRes :=
  let s1 := addAct s tile b.seq 0 .endBobbin
  .ok (some (corePut s1 tile (bundleMap (coreGet s1 tile) b.seq fun x => { x with unresolved := true })))

/-- The full address of an own reel register. -/
def ownReelAddr (k : Nat) : Word := 0xC000000000000000 ||| BitVec.ofNat 64 k

/-- suspend and join on register n of imm bits 7:0 with the scope of bits 10:8 (07 R153). -/
def parkBody (always : Bool) (o : COp) (tile : Nat) (s : State) (b : Bundle) (v : Word) : CtlRes :=
  let k := o.imm.toNat % 256
  .ok (some (addAct s tile b.seq 0 (.park (ownReelAddr k) v (scopeOfCode (o.imm.toNat / 256 % 8)) always)))

/-- Bobbins that a bundle forks at its commit (07 R154). -/
def forksOf (b : Bundle) : Nat := (b.acts.filter fun a => match a.2 with | .fork _ _ _ _ => true | _ => false).length

/-- Entries of a tile's creel and spill area, and those that forks of the window will add (02 R55). -/
def creelCount (t : Tile) : Nat := t.creel.length + (t.core.window.map forksOf).sum

/-- The outstanding count of a tile's node (02 R53). -/
def outstanding (s : State) (tile : Nat) : Nat :=
  (((tileNode? s tile).bind fun n => packGet? s n.pack).map (·.outstanding)).getD 0

/-- Changes the outstanding count of a tile's node (02 R53). -/
def setOutstanding (s : State) (tile n : Nat) : State :=
  match (tileNode? s tile).bind fun x => packGet? s x.pack with
  | some p => packPut s { p with outstanding := n }
  | none => s

/-- s58 to s63 as a read in this tick sees them (07 R154). -/
def carryNow (s : State) (tile : Nat) : List Word := (List.range 6).map fun i => (regRd (coreGet s tile) (58 + i)).v

/-- fork: the join spec is checked, the count rises and lands in ca.l0; the bobbin enters the creel at commit
(02 R53, R55; 07 R154). The order of its faults is the model's (DESIGN CHOICE, log entry 72). -/
def forkBody (o : COp) (tile : Nat) (s : State) (b : Bundle) (v : Word) : CtlRes :=
  let n := v.toNat
  let link := natBit n 32
  let trap (c : Nat) : CtlRes := .error (trapAt c 0 v)
  if natBits n 33 31 ≠ 0 ∨ (!link ∧ natBits n 16 16 ≠ 0) then trap causeBadJoin
  else if !link && !(nodeTiles s tile).contains (natBits n 8 8) then trap causeIllegalTarget
  else
    let k := outstanding s tile + 1
    if 4160 ≤ creelCount (tileGet s tile) ∨ 2 ^ 32 ≤ k then trap causeCreelFull
    else
      let s1 := addAct s tile b.seq 0 (.fork (pcAdd b.pc o.target) link (n % 2 ^ 32) (carryNow s tile))
      .ok (some (caResult (setOutstanding s1 tile k) tile b 0 2 (BitVec.ofNat 64 k)))

/-- The entry that a csend reserves. -/
def csendEntry (tile seq ord : Nat) (block : List Word) : QEntry :=
  { id := tile * 2 ^ 40 + seq, ready := false, sender := tile, seq,
    cmd := ⟨.block, 0, block, [], 0, ord, some (tile, seq)⟩, vc := [] }

/-- csend: reads its block and reserves an entry of the target's queue (02 R59, 07 R155). The order of its faults is the model's
(DESIGN CHOICE, log entry 72). -/
def csendBody (tile : Nat) (s : State) (b : Bundle) (v : Word) : CtlRes :=
  let n := v.toNat
  let eng := natBits n 40 4
  let target := natBits n 32 8
  let off := natBits n 0 23
  let t := tileGet s tile
  let trap (c : Nat) : CtlRes := .error (trapAt c 0 v)
  if off % 64 ≠ 0 then trap causeAlignment
  else if natBits n 44 20 ≠ 0 ∨ natBits n 23 9 ≠ 0 ∨ 10 ≤ eng ∨ !(nodeTiles s tile).contains target then trap causeIllegalTarget
  else if pastScratch t off 64 then trap causeScratchBound
  else if csendWaits s tile b.seq v then .ok none
  else match (pendingOwn t off 64).or (poolReadTrap s tile off 64) with
    | some x => .error x
    | none =>
      match checkOwn s tile b.seq off 64 false true with
      | .error x => .error x
      | .ok s1 =>
        let block := (List.range 8).map fun i => BitVec.ofNat 64 (poolNat t (off + 8 * i) 8)
        let s2 := engMap s1 target eng fun x =>
          { x with queue := x.queue ++ [csendEntry tile b.seq x.nextOrd block], nextOrd := x.nextOrd + 1 }
        let free := 16 - (engGet (tileGet s2 target) eng).queue.length
        let s3 := addAct s2 tile b.seq 0 (.csend target eng (tile * 2 ^ 40 + b.seq))
        .ok (some (caResult s3 tile b 0 2 (BitVec.ofNat 64 free)))

/-- lease and leasew: the decision, the evictions that it forces, and the handle and predicate (07 R156; 12 R274). -/
def leaseBody (wait : Bool) (o : COp) (tile : Nat) (s : State) (b : Bundle) (_v : Word) : CtlRes :=
  let inst := o.imm.getLsbD 4
  let noevict := o.imm.getLsbD 5
  let force := o.imm.getLsbD 6
  let k := o.imm.toNat % 16
  let t := leaseView s tile b.seq
  let d := leaseDecide s tile t inst k force
  let s1 := d.evicted.foldl (fun s e => evict s tile e 0) s
  let pk := match o.cport with | .p n => if n = 0 then 0 else portKey o.cport | _ => 0
  let s2 := addAct s1 tile b.seq 0 (.lease inst k force noevict wait pk d.status d.eng)
  if wait && decide (d.status = 2) then .ok (some s2)
  else
    let ok := decide (d.status ≤ 1) || decide (d.status = 3)
    let effs := Eff.reg (latchKey 0 0) (rvOf (decHandle t d)) :: if pk = 0 then [] else [.reg pk (rvOf (boolWord ok))]
    .ok (some (addFlight s2 tile b.seq 0 2 effs))

/-- unleash: its handle must name a record of this tile with its generation (07 R157; 12 R278); its status and reserved bits are
not looked at (DESIGN CHOICE, log entry 73). -/
def unleashBody (tile : Nat) (s : State) (b : Bundle) (v : Word) : CtlRes :=
  let e := v.toNat % 16
  let t := leaseView s tile b.seq
  let x := engGet t e
  let st := engState t e
  if e < 8 ∧ (st = 2 ∨ st = 3 ∨ st = 4 ∨ st = 6) ∧ x.gen = natBits v.toNat 16 32 then
    .ok (some (addAct s tile b.seq 0 (.unleash e)))
  else .error (trapAt causeBadHandle 0 v)

/-- slack: the declared slack from its bundle on (05 R111). -/
def slackBody (o : COp) (tile : Nat) (s : State) (b : Bundle) (_v : Word) : CtlRes :=
  .ok (some (stageNow s tile b.seq (.reg keySlack (rvOf (o.imm.setWidth 64)))))

/-- fence: waits for older writes, older reads or both (07 R159). -/
def fenceBody (o : COp) (tile : Nat) (s : State) (b : Bundle) (_v : Word) : CtlRes :=
  if fenceWaits (coreGet s tile) b.seq o.imm then .ok none
  else .ok (some (addAct s tile b.seq 0 (.fence (memOrderOf (o.imm.extractLsb' 3 2)) (scopeOfCode (o.imm.toNat % 8)))))

/-- vfence (07 R159). -/
def vfenceBody (tile : Nat) (s : State) (b : Bundle) (_v : Word) : CtlRes :=
  if vecDone (coreGet s tile) b.seq then .ok (some s) else .ok none

/-- brk: breakpoint, but that it acts as nop once after a resume-over (07 R161; 18 R407). -/
def brkBody (o : COp) (tile : Nat) (s : State) (_b : Bundle) (_v : Word) : CtlRes :=
  let c := coreGet s tile
  if c.skipBrk then .ok (some (corePut s tile { c with skipBrk := false }))
  else .error (trapAt causeBreakpoint (o.imm.setWidth 64) 0)

/-- The lowest `n` free pack IDs (02 R49, R51). With all 8,192 live it goes on above them, which the spec leaves open
(DESIGN CHOICE, log entry 60). -/
def freePacks (s : State) (n : Nat) : List Nat :=
  ((List.range (s.packs.length + n)).filter fun i => (packGet? s i).isNone).take n

/-- The sub-packs of a psplit into 2^j parts (02 R51). -/
def splitPacks (s : State) (p : Pack) (j : Nat) : List Pack :=
  let size := p.tiles.length / 2 ^ j
  (freePacks s (2 ^ j)).zip (List.range (2 ^ j)) |>.map fun x =>
    { id := x.1, node := p.node, level := p.level + 1, parent := p.id, tiles := (p.tiles.drop (x.2 * size)).take size,
      phase := 0, outstanding := 0, arrived := [] }

/-- The phase of the tile in its pack is complete (16 R370, R373). -/
def phaseDone (t : Tile) (p : Pack) : Bool := decide (t.core.phase * t.packSize ≤ p.phase)

/-- What a pack holds for a tile that was told of a mismatch of j: no pack's ID. -/
def splitMark : Nat := 2 ^ 64

/-- psplit: waits for every tile of the pack; the first tile to see them all lays out the sub-packs, and each tile finds its
own there (02 R51, 07 R158). -/
def psplitBody (o : COp) (tile : Nat) (s : State) (b : Bundle) (_v : Word) : CtlRes :=
  let t := tileGet s tile
  let j := o.imm.toNat % 16
  let pass (s : State) (id : Nat) : CtlRes :=
    if id = splitMark then
      let s1 := match packGet? s t.packId with
        | some p => packPut s { p with arrived := p.arrived.filter fun x => decide (x.1 ≠ tile) }
        | none => s
      .ok (some (raiseAt s1 tile b.seq 0 (trapOf causePackMismatch)))
    else .ok (some (addAct (caResult s tile b 0 2 (BitVec.ofNat 64 id)) tile b.seq 0 (.psplit j)))
  if 3 ≤ t.packLevel ∨ t.packSize < 2 ^ j then .error (trapOf causePackDepth)
  else match packGet? s t.packId with
    | none => .ok none
    | some p =>
      if !phaseDone t p then .error (trapOf causePackPhase)
      else match p.arrived.find? fun x => decide (x.1 = tile) with
      | some x => pass s x.2
      | none =>
        match collAll s 0x16 tile j p with
        | none => .ok none
        | some js =>
          if js.all fun i => decide (i = j) then
            let subs := splitPacks s p j
            let l := subs.flatMap fun q => q.tiles.map fun x => (x, q.id)
            let s1 := packPut (subs.foldl packPut s) { p with arrived := l }
            pass s1 ((l.find? fun x => decide (x.1 = tile)).map (·.2) |>.getD splitMark)
          else pass (packPut s { p with arrived := p.tiles.map fun x => (x, splitMark) }) splitMark

/-- pmerge: waits for every tile of the sub-pack (02 R51, 07 R158). -/
def pmergeBody (tile : Nat) (s : State) (b : Bundle) (_v : Word) : CtlRes :=
  let t := tileGet s tile
  let pass (s : State) : CtlRes := .ok (some (addAct s tile b.seq 0 .pmerge))
  if t.packLevel = 0 then .error (trapOf causePackDepth)
  else match packGet? s t.packId with
    | none => .ok none
    | some p =>
      if !phaseDone t p then .error (trapOf causePackPhase)
      else if p.arrived.any fun x => decide (x.1 = tile) then pass s
      else match collAll s 0x17 tile 0 p with
        | none => .ok none
        | some _ => pass (packPut s { p with arrived := p.tiles.map fun x => (x, 0) })

/-- ovl: the fill of a dictionary page begins (03 R65, 07 R160). -/
def ovlBody (o : COp) (tile : Nat) (s : State) (_b : Bundle) (v : Word) : CtlRes :=
  let page := if o.cport = .s 0 then o.imm.toNat else v.toNat
  if dictPages s tile ≤ page then .error (trapAt causeIllegalIndex (BitVec.ofNat 64 page) 0)
  else .ok (some (if (frameOf s tile page).isSome then s else fillBegin s tile page))

/-- Dispatch holds for `w` ticks (07 R162). -/
def holdFor (s : State) (tile : Nat) (b : Bundle) (w : Nat) : State :=
  let c := bundleMap (coreGet s tile) b.seq fun x => { x with unresolved := b.fin }
  corePut s tile { c with hold := max c.hold (c.ticks + w + 1) }

/-- A predicated-off sleepk lets dispatch go on. -/
def offSleep (tile : Nat) (s : State) (b : Bundle) : State := holdFor s tile b 0

/-- The back-off interval doubles, up to its ceiling (07 R162, 16 R366). -/
def backOff (c : Core) : Word :=
  let b := (regRd c keyBack).v.toNat
  BitVec.ofNat 64 (min (2 * b) (regRd c keyCeil).v.toNat)

/-- sleepk (07 R162). -/
def sleepkBody (tile : Nat) (s : State) (b : Bundle) (_v : Word) : CtlRes :=
  let c := coreGet s tile
  .ok (some (holdFor (stageNow s tile b.seq (.reg keyBack (rvOf (backOff c)))) tile b (regRd c keyBack).v.toNat))

/-- sleepk with a source (07 R162). -/
def sleepkSourceBody (tile : Nat) (s : State) (b : Bundle) (v : Word) : CtlRes :=
  if v.toNat = 0 ∨ 65536 < v.toNat then .error (trapAt causeSleepkRange 0 v) else .ok (some (holdFor s tile b v.toNat))

/-- sleepk.set (07 R162). -/
def sleepkSetBody (o : COp) (tile : Nat) (s : State) (b : Bundle) (_v : Word) : CtlRes :=
  let f := BitVec.ofNat 64 (2 ^ (o.imm.toNat % 32))
  let c := BitVec.ofNat 64 (2 ^ (o.imm.toNat / 32 % 32))
  let put (s : State) (k : Nat) (v : Word) : State := stageNow s tile b.seq (.reg k (rvOf v))
  .ok (some (holdFor (put (put (put s keyFloor f) keyCeil c) keyBack f) tile b 0))

/-- nop (07 R146). -/
def execNop (tile : BitVec 8) (o : COp) (s : State) : Out :=
  ctlOp (.nop tile o) tile o false offNone (fun _ s _ _ => .ok (some s)) s

/-- jmp (07 R147). -/
def execJmp (tile : BitVec 8) (o : COp) (s : State) : Out := ctlOp (.jmp tile o) tile o false offFlow (jmpBody o) s

/-- jmpi (07 R147). -/
def execJmpi (tile : BitVec 8) (o : COp) (s : State) : Out := ctlOp (.jmpi tile o) tile o true offFlow jmpiBody s

/-- call (07 R147). -/
def execCall (tile : BitVec 8) (o : COp) (s : State) : Out := ctlOp (.call tile o) tile o false offFlow (callBody o) s

/-- ret (07 R147). -/
def execRet (tile : BitVec 8) (o : COp) (s : State) : Out := ctlOp (.ret tile o) tile o true offFlow retBody s

/-- loop (07 R149). -/
def execLoop (tile : BitVec 8) (o : COp) (s : State) : Out := ctlOp (.loop tile o) tile o false offFlow (loopBody o) s

/-- loopr (07 R149). -/
def execLoopr (tile : BitVec 8) (o : COp) (s : State) : Out := ctlOp (.loopr tile o) tile o true offFlow (looprBody o) s

/-- end (07 R152). -/
def execEnd (tile : BitVec 8) (o : COp) (s : State) : Out := ctlOp (.endOp tile o) tile o false offNone endBody s

/-- yield (07 R152). -/
def execYield (tile : BitVec 8) (o : COp) (s : State) : Out := ctlOp (.yield tile o) tile o false offNone (actBody .yield) s

/-- suspend (07 R153). -/
def execSuspend (tile : BitVec 8) (o : COp) (s : State) : Out :=
  ctlOp (.suspend tile o) tile o true offNone (parkBody true o) s

/-- fork (07 R154). -/
def execFork (tile : BitVec 8) (o : COp) (s : State) : Out := ctlOp (.fork tile o) tile o true offNone (forkBody o) s

/-- join (07 R153). -/
def execJoin (tile : BitVec 8) (o : COp) (s : State) : Out := ctlOp (.join tile o) tile o true offNone (parkBody false o) s

/-- csend (07 R155). -/
def execCsend (tile : BitVec 8) (o : COp) (s : State) : Out := ctlOp (.csend tile o) tile o true offNone csendBody s

/-- lease (07 R156). -/
def execLease (tile : BitVec 8) (o : COp) (s : State) : Out := ctlOp (.lease tile o) tile o false offNone (leaseBody false o) s

/-- leasew (07 R156). -/
def execLeasew (tile : BitVec 8) (o : COp) (s : State) : Out := ctlOp (.leasew tile o) tile o false offNone (leaseBody true o) s

/-- wake (07 R157). -/
def execWake (tile : BitVec 8) (o : COp) (s : State) : Out :=
  ctlOp (.wake tile o) tile o false offNone (actBody (.wake (o.imm.toNat % 16))) s

/-- unleash (07 R157). -/
def execUnleash (tile : BitVec 8) (o : COp) (s : State) : Out := ctlOp (.unleash tile o) tile o true offNone unleashBody s

/-- slack (05 R111). -/
def execSlack (tile : BitVec 8) (o : COp) (s : State) : Out := ctlOp (.slack tile o) tile o false offNone (slackBody o) s

/-- fence (07 R159). -/
def execFence (tile : BitVec 8) (o : COp) (s : State) : Out := ctlOp (.fence tile o) tile o false offNone (fenceBody o) s

/-- vfence (07 R159). -/
def execVfence (tile : BitVec 8) (o : COp) (s : State) : Out := ctlOp (.vfence tile o) tile o false offNone vfenceBody s

/-- trap (07 R161). -/
def execTrap (tile : BitVec 8) (o : COp) (s : State) : Out :=
  ctlOp (.trap tile o) tile o false offNone (actBody (.trapCode o.imm.toNat)) s

/-- brk (07 R161). -/
def execBrk (tile : BitVec 8) (o : COp) (s : State) : Out := ctlOp (.brk tile o) tile o false offNone (brkBody o) s

/-- psplit (07 R158). -/
def execPsplit (tile : BitVec 8) (o : COp) (s : State) : Out := ctlOp (.psplit tile o) tile o false offNone (psplitBody o) s

/-- pmerge (07 R158). -/
def execPmerge (tile : BitVec 8) (o : COp) (s : State) : Out := ctlOp (.pmerge tile o) tile o false offNone pmergeBody s

/-- parrive (07 R158, 16 R371). -/
def execParrive (tile : BitVec 8) (o : COp) (s : State) : Out :=
  ctlOp (.parrive tile o) tile o false offNone (actBody (.parrive (!o.imm.getLsbD 0))) s

/-- pwait (07 R158, 16 R372). -/
def execPwait (tile : BitVec 8) (o : COp) (s : State) : Out := ctlOp (.pwait tile o) tile o false offNone (actBody .pwait) s

/-- ovl (03 R65, 07 R160). -/
def execOvl (tile : BitVec 8) (o : COp) (s : State) : Out :=
  ctlOp (.ovl tile o) tile o (decide (o.cport ≠ .s 0)) offNone (ovlBody o) s

/-- sleepk (07 R162). -/
def execSleepk (tile : BitVec 8) (o : COp) (s : State) : Out := ctlOp (.sleepk tile o) tile o false offSleep sleepkBody s

/-- sleepk with a source (07 R162). -/
def execSleepkSource (tile : BitVec 8) (o : COp) (s : State) : Out :=
  ctlOp (.sleepkSource tile o) tile o true offSleep sleepkSourceBody s

/-- sleepk.set (07 R162). -/
def execSleepkSet (tile : BitVec 8) (o : COp) (s : State) : Out :=
  ctlOp (.sleepkSet tile o) tile o false offSleep (sleepkSetBody o) s

end Sys2Proof.Machine
end

