-- ==== Sys2Proof/Machine/Bobbin.lean ====
section
/-! DEFINITION. Bobbins: pick-up, stealing, parked waiters and their wakes
(02 R52 to R58; 03 R75; 07 R151; 16 R363 to R369). -/

namespace Sys2Proof.Machine

open Sys2Proof

/-- Ready entries of a tile (02 R57). -/
def readyCount (t : Tile) : Nat := (t.creel.filter fun e => e.wait.isNone).length

/-- The owner's pick: the newest ready entry (02 R56). -/
def ownerPick (t : Tile) : Option (CreelEntry × Tile) :=
  (takeFirst (fun e : CreelEntry => e.wait.isNone) t.creel).map fun x => (x.1, { t with creel := x.2 })

/-- The packs that a tile belongs to: its current one and those that enclose it (02 R51). -/
def tilePacks (t : Tile) : List Nat := t.packId :: t.packStack.map (·.id)

/-- A ready entry that a tile of these packs may steal (02 R52, R54). -/
def stealable (ids : List Nat) (e : CreelEntry) : Bool := e.wait.isNone && ids.contains e.bobbin.pack

/-- A thief's pick: the oldest ready entry of its packs (02 R54, R56). -/
def thiefPick (ids : List Nat) (t : Tile) : Option (CreelEntry × Tile) :=
  (lastWhere (stealable ids) t.creel).bind fun i => (t.creel[i]?).map fun e => (e, { t with creel := dropAt t.creel i })

/-- Registers that a pick-up leaves: FPSTAT, FPCTL, the hint, descriptors and origins (03 R75, 06 R138). -/
def keptAtPickup (k : Nat) : Bool :=
  decide (k = keyFpstat) || decide (k = keyFpctl) || decide (k = keyHint) || (decide (0x1000 ≤ k) && decide (k < keyBack))

/-- Pick-up: everything is zero and empty but s58 to s63, and a granted leasew's handle and predicate; the bobbin's last
suspension happens before (03 R75; 05 R112; 12 R275; 17 R383). -/
def startBobbin (s : State) (tile : Nat) (e : CreelEntry) : State :=
  let t := tileGet s tile
  let regs := t.core.regs.filter fun x => keptAtPickup x.1
  let regs := (List.range 6).foldl (fun m i => mapPut m (58 + i) (rvOf (e.bobbin.carry.getD i 0))) regs
  let regs := match e.handle with
    | some (h, p) => let m := mapPut regs (latchKey 0 0) (rvOf h); if p = 0 then m else mapPut m p (rvOf 1)
    | none => regs
  let c := { t.core with
    regs, log := [], flights := [], window := [], pc := e.bobbin.pc, cur := none, loops := [], qent := [], qpop := [],
    qpush := [], hold := 0, decodeStop := none, vec := [], lineWait := none, pageWait := none, skipBrk := false }
  let s1 := tilePut s tile { t with core := c, running := some { e.bobbin with spilled := false }, stealFails := 0, stealNext := 0,
                                    stewardAsked := false }
  let x := coreAgent s1 tile
  agentPut s1 (tileAgentId s1 tile) { x with vc := vcJoin x.vc e.vc }

/-- The tile may run a bobbin now: its node runs, and no yield request stands, which an idle tile has answered (02 R56,
18 R409). -/
def pickOpen (s : State) (tile : Nat) : Bool :=
  let t := tileGet s tile
  t.running.isNone && !t.halted && !t.yreqPosted && t.core.fault.isNone && !s.clockStop
    && (match tileNode? s tile with
        | some n => decide (n.st = .running) || decide (n.st = .yielding)
        | none => false)

/-- BOBBIN_PICKUP (02 R54, R56). -/
def pickup (tile : Nat) (s : State) : State :=
  if pickOpen s tile then
    match ownerPick (tileGet s tile) with
    | some (e, t) => startBobbin (tilePut s tile t) tile { e with bobbin := entryBobbin s tile e }
    | none => s
  else s

/-- An idle tile: nothing runs and nothing in its creel is ready (02 R57). -/
def tileIdle (s : State) (tile : Nat) : Bool := pickOpen s tile && decide (readyCount (tileGet s tile) = 0)

/-- The local tiles that an idle tile probes, in order (02 R57). -/
def stealOrder (s : State) (tile : Nat) : List Nat :=
  ((List.range 31).map fun i => tile / 32 * 32 + (tile % 32 + 1 + i) % 32).filter (nodeTiles s tile).contains

/-- A free tile picks its last ready entry itself in this cycle, so that a steal fails (02 R56). -/
def ownerKeeps (s : State) (v : Nat) : Bool := pickOpen s v && decide (readyCount (tileGet s v) ≤ 1)

/-- What a thief of the given packs takes from a tile (02 R56, R57). -/
def stealFrom (s : State) (ids : List Nat) (v : Nat) : Option (CreelEntry × Tile) :=
  if ownerKeeps s v then none else thiefPick ids (tileGet s v)

/-- STEAL_ATTEMPT: one probe (02 R57). -/
def stealAttempt (tile : Nat) (s : State) : State :=
  let l := stealOrder s tile
  let t := tileGet s tile
  match l[t.stealNext % l.length]? with
  | none => s
  | some v =>
    if tileIdle s tile then
      match stealFrom s (tilePacks t) v with
      | some (e, tv) => startBobbin (tilePut s v tv) tile { e with bobbin := entryBobbin s v e }
      | none =>
        let d := dieGet s (dieOf tile)
        let fails := t.stealFails + 1
        tilePut s tile { t with stealNext := t.stealNext + 1, stealFails := fails,
                                stewardAsked := t.stewardAsked || (d.xdie && decide (d.tries ≤ fails)) }
    else s

/-- The tile of a list with the most ready entries of the given packs, the lowest on a tie (02 R57). -/
def fullest (s : State) (ids l : List Nat) : Option Nat :=
  let count (v : Nat) : Nat :=
    let t := tileGet s v
    if ownerKeeps s v then 0 else (t.creel.filter (stealable ids)).length
  l.foldl (fun r v =>
    if count v = 0 then r
    else match r with
      | none => some v
      | some u => if count u < count v then some v else some u) none

/-- STEWARD_STEAL: the die steward's search for an idle tile (02 R57, R58). After one that finds nothing the tile counts its
failed attempts from 0 again before it asks anew (DESIGN CHOICE, log entry 59). -/
def stewardSteal (tile : Nat) (s : State) : State :=
  let t := tileGet s tile
  if t.stewardAsked && tileIdle s tile then
    let dies := ((List.range 7).map fun i => (dieOf tile + 1 + i) % 8).filter fun d => !(dieGet s d).lost
    match dies.findSome? fun d => fullest s (tilePacks t) ((nodeTiles s tile).filter fun v => decide (dieOf v = d)) with
    | some v => match stealFrom s (tilePacks t) v with
      | some (e, tv) => startBobbin (tilePut s v tv) tile { e with bobbin := entryBobbin s v e }
      | none => s
    | none => tilePut s tile { t with stewardAsked := false, stealFails := 0 }
  else s

/-- What the entry at a position of a creel waits for. -/
def waitAt (t : Tile) (i : Nat) : Option Wait := t.creel[i]?.bind fun e => e.wait

/-- Wakes the entry at a position of a creel. -/
def wakeAt (s : State) (tile i : Nat) (acq : Option (Nat × Scope)) : State :=
  let t := tileGet s tile
  match t.creel[i]? with
  | none => s
  | some e => readyHead (tilePut s tile { t with creel := dropAt t.creel i }) tile e acq

/-- The narrowest scope that covers a pack (16 R370). -/
def packScope (p : Pack) : Scope :=
  match p.tiles with
  | [] | [_] => .tile
  | x :: xs => if xs.all fun y => decide (dieOf y = dieOf x) then .die else .pkg

/-- Wakes the parked pwaiters of a tile when its phase is complete (16 R372). -/
def wakePhase (s : State) (tile : Nat) : State :=
  let t := tileGet s tile
  match packGet? s t.packId with
  | none => s
  | some p =>
    if phaseDone t p then
      match (List.range t.creel.length).find? fun i => decide (waitAt t i = some .phase) with
      | some i => wakeAt s tile i (some (locPhase p.id, packScope p))
      | none => s
    else s

/-- Where a parked waiter's reel lies, from its location key. -/
def locReelAt (loc : Nat) : ReelAt :=
  if 2 ^ 61 ≤ loc then .reg ((loc - 2 ^ 61) / 256) (loc % 256) else .mem (loc * 8)

/-- Wait entries of these reels have become free, and are offered (16 R365). -/
def offerFreed (l : List WaitEnt) (s : State) : State :=
  l.foldl (fun s w => if waitRoom s (locReelAt w.loc) then offerEntry s (locReelAt w.loc) else s) s

/-- SPURIOUS_WAKE: the part may wake any parked waiter; pwait tests again first, and the entry is free (16 R365, R368). -/
def spuriousWake (tile i : Nat) (s : State) : State :=
  match waitAt (tileGet s tile) i with
  | some (.reel addr loc t _ listed _ _) =>
    let s1 := wakeAt s tile i none
    if listed then
      match takeFirst (fun w : WaitEnt => decide (w.loc = loc) && decide (w.tile = tile) && decide (w.addr = addr)
          && decide (w.t = t)) s1.waits with
      | some (w, rest) => offerFreed [w] { s1 with waits := rest }
      | none => s1
    else s1
  | some .phase => wakePhase s tile
  | _ => s

/-- Parked polling waiters due for a test: every 32 µs, or when their tile is idle (16 R367). -/
def pollDue (s : State) : List (Nat × Nat) :=
  s.tiles.flatMap fun x => (List.range x.2.creel.length).filterMap fun i =>
    match waitAt x.2 i with
    | some (.reel _ _ _ _ false _ tested) =>
      if tested + 32000 ≤ timeOf s ∨ (decide (tested < timeOf s) && tileIdle s x.1) then some (x.1, i) else none
    | _ => none

/-- Where the reel of a parked waiter lies now: a memory reel is translated for each read, as the tables stand (10 R247, R248). -/
inductive ParkedAt where
  | here (r : ReelAt)
  /-- The read bounces, or its walk waits on a migrating page. -/
  | bounced
  /-- The read would fault: the bobbin is to find it itself (16 R368; DESIGN CHOICE, log entry 68). -/
  | faulty
deriving DecidableEq, Repr

/-- The place of a parked waiter's reel, from its address and its location key. -/
def parkedAt (s : State) (tile : Nat) (addr : Word) (loc : Nat) : ParkedAt :=
  match fullPlace addr with
  | .mem va =>
    (match (walkTables s (tileAsid s tile) (va / 65536)).1 with
     | .bad _ => .faulty
     | .mig => .bounced
     | .leaf w bits =>
       let e : TlbEnt := ⟨tileAsid s tile, va / 2 ^ bits, bits, w⟩
       let pa := entPa e va
       if !leafReel w || permBad e va 8 true false || (memReadTrap s pa 8).isSome then .faulty
       else if frameFrozen s pa then .bounced
       else .here (.mem pa))
  | .reel u _ => if tileAsid s u = tileAsid s tile then .here (locReelAt loc) else .faulty
  | _ => .here (locReelAt loc)

/-- A read of the reel of a parked waiter that polls (16 R367). -/
def pollRead (s : State) (tile i : Nat) (addr : Word) (loc : Nat) (th : Word) (sc : Scope) (li : Bool) (since : Nat)
    (e : CreelEntry) : State :=
  let t := tileGet s tile
  let again (loc : Nat) : State :=
    tilePut s tile { t with creel := t.creel.set i { e with wait := some (.reel addr loc th sc li since (timeOf s)) } }
  match parkedAt s tile addr loc with
  | .faulty => wakeAt s tile i none
  | .bounced => again loc
  | .here r => if th.toNat ≤ (reelVal s r).toNat then wakeAt s tile i (some (reelLoc r, sc)) else again (reelLoc r)

/-- PARKED_POLL_TEST (16 R367). -/
def parkedPoll (s : State) : State :=
  match pickTurn s (pollDue s) with
  | none => s
  | some (tile, i) =>
    match (tileGet s tile).creel[i]? with
    | some e =>
      (match e.wait with
       | some (.reel addr loc th sc li since _) => pollRead s tile i addr loc th sc li since e
       | _ => s)
    | none => s

/-- An idle tile picks up a bobbin (02 R56, 03 R75). -/
def execBobbinPickup (tile : BitVec 8) (s : State) : Out := .next (pickup tile.toNat s)

/-- An idle tile probes another (02 R57). -/
def execStealAttempt (tile : BitVec 8) (s : State) : Out := .next (stealAttempt tile.toNat s)

/-- The die steward steals for an idle tile (02 R57). -/
def execStewardSteal (tile : BitVec 8) (s : State) : Out := .next (stewardSteal tile.toNat s)

/-- A parked waiter is woken (16 R368). -/
def execSpuriousWake (tile : BitVec 8) (idx : BitVec 12) (s : State) : Out := .next (spuriousWake tile.toNat idx.toNat s)

/-- A parked polling waiter's reel is tested (16 R367). -/
def execParkedPollTest (s : State) : Out := .next (parkedPoll s)

end Sys2Proof.Machine
end

