-- ==== Sys2Proof/Machine/Serve.lean ====
section
/-! DEFINITION. Requests at their locations: what another tile's pool or reels, or memory, do for them
(08 R176 to R193; 10 R234, R235; 17 R379 to R390). -/

namespace Sys2Proof.Machine

open Sys2Proof

/-- A request of a tile by its number. -/
def reqGet? (c : Core) (id : Nat) : Option Req := c.reqs.find? fun r => decide (r.id = id)

/-- Rewrites a request. -/
def reqMap (c : Core) (id : Nat) (f : Req → Req) : Core := { c with reqs := c.reqs.map fun r => if r.id = id then f r else r }

/-- Removes a request. -/
def reqDel (c : Core) (id : Nat) : Core := { c with reqs := c.reqs.filter fun r => decide (r.id ≠ id) }

/-- The tile runs a node of the requester's ASID (08 R176, 16 R357). -/
def reelServed (s : State) (tile target : Nat) : Bool :=
  match tileNode? s target with
  | some n => decide (nodeAsid n = tileAsid s tile)
  | none => false

/-- The result of performing a request. -/
abbrev Served := Except Trap (State × Nat × Bool)

/-- An own register's value as a request of the tile reads it: with what older operations of the tile have staged (08 R179). -/
def reelAhead (t : Tile) (k : Nat) (r : Req) (v : Word) : Word :=
  let older (seq slot : Nat) : Bool := decide (seq < r.seq) || (decide (seq = r.seq) && decide (slot < r.slot))
  let effs := ((t.core.log.filter fun x => older x.seq x.slot).map (·.eff))
    ++ (t.core.flights.filter fun f => older f.seq f.slot).flatMap (·.effs)
  effs.foldl (fun x e => match e with
    | .reelAdd j y => if j = k then x + y else x
    | .reelSet j y => if j = k then y else x
    | _ => x) v

/-- The value of a reel as a read of a tile finds it there. -/
def reelRead (s : State) (tile : Nat) (r : Req) (p : ReelAt) : Word :=
  match p with
  | .reg t k => if t = tile then reelAhead (tileGet s t) k r (reelVal s p) else reelVal s p
  | .mem _ => reelVal s p

/-- A reel operation at a place (08 R191 to R195): the release stands before waiters wake. -/
def serveReel (s : State) (tile : Nat) (r : Req) (p : ReelAt) : Served :=
  let loc := reelLoc p
  let v := reelRead s tile r p
  match r.kind with
  | .kadd =>
    match addCheck s p r.data with
    | some c => .error (addrTrap c r.addr r.data)
    | none =>
      match reelAdd (reqSync s tile r loc false true) p r.data with
      | .ok s1 => .ok (s1, 0, true)
      | .error c => .error (addrTrap c r.addr r.data)
  | .kinit => .ok (reelInit s p r.data, 0, true)
  | .kread => .ok (reqSync s tile r loc true false, v.toNat, true)
  | _ =>
    let met := decide (r.data.toNat ≤ v.toNat)
    .ok (if met then reqSync s tile r loc true false else s, boolNat met, true)

/-- An atomic at a place whose bytes it reads and writes through two functions (08 R185, R187). -/
def serveAtomic (s : State) (tile : Nat) (r : Req) (loc : Nat) (old : Nat) (put : State → Nat → State) : State × Nat × Bool :=
  let x := atomicNew r.opc r.size old r.data.toNat r.data2.toNat
  let s1 := reqSync s tile r loc true x.1.isSome
  ((match x.1 with | some y => put s1 y | none => s1), old, x.2)

/-- The core's agent as a request of the tile acts for it: with the clock of its issue (17 R384). -/
def reqAgent (s : State) (tile : Nat) (r : Req) : Agent := { coreAgent s tile with vc := r.vc }

/-- The check of a synchronisation access on another tile's granule (17 R385, R388): other agents' plain accesses. -/
def checkSync (s : State) (tile : Nat) (r : Req) (gran : Nat) : Except Trap State :=
  checkGran s (tileAgentId s tile) (reqAgent s tile r) gran true false none

/-- Performs a request on memory (08 R183, R187, R189; 10 R234). -/
def serveMem (s : State) (tile : Nat) (r : Req) : Served :=
  let pa := r.pa
  let s := touchPa s (tileAsid s tile) pa
  let n := r.size * r.n
  let locs := locsOf locMem pa n
  match r.kind with
  | .load =>
    match memReadTrap s pa n with
    | some x => .error { x with d1 := r.data }
    | none =>
      let s := if leafCache r.leaf then cacheFill s (dieOf tile) (pa / 64) else s
      let s := if ordAcq r.order || leafReel r.leaf then locs.foldl (fun s l => reqSync s tile r l true false) s else s
      .ok (s, devNat s pa n, true)
  | .store =>
    match memWriteTrap s pa n with
    | some x => .error { x with d1 := r.data }
    | none =>
      let s := storeSync s tile r locs
      let s := if leafCache r.leaf then cacheDirty s (dieOf tile) (pa / 64) else cacheDrop s (pa / 64)
      .ok (devWrite s pa r.bytes, 0, true)
  | .atomic =>
    match memReadTrap s pa n with
    | some x => .error { x with d1 := r.data }
    | none =>
      match (if leafChk r.leaf && !r.go then checkMem s (tileAgentId s tile) (reqAgent s tile r) r.leaf pa true false none else .ok s) with
      | .error x => .error x
      | .ok s1 => .ok (serveAtomic (cacheDrop s1 (pa / 64)) tile r (locMem pa) (devNat s pa n)
          (fun s y => devWrite s pa (leBytes n y)))
  | _ =>
    match memReadTrap s pa 8 with
    | some x => .error { x with d1 := r.data }
    | none => serveReel s tile r (.mem pa)

/-- An uncorrectable codeword of a remote pool is named by its remote pool address (08 R174, 19 R430). -/
def remoteBad (t : Nat) (x : Trap) : Trap := { x with d0 := x.d0 ||| BitVec.ofNat 64 (2 ^ 31 + t * 2 ^ 23) }

/-- Performs a request on another tile's pool (08 R180, R187). An atomic that has been accepted has passed its check. -/
def servePool (s : State) (tile : Nat) (r : Req) (t off : Nat) : Served :=
  let s := touch s (tileAsid s tile) (dieOf t)
  let n := r.size * r.n
  let locs := locsOf (locPool t) off n
  match r.kind with
  | .load =>
    match poolReadTrap s t off n with
    | some x => .error (remoteBad t x)
    | none =>
      let s := if ordAcq r.order then locs.foldl (fun s l => reqSync s tile r l true false) s else s
      .ok (s, leNat (poolBytes s t off n), true)
  | .store =>
    match poolWriteTrap s t off n with
    | some x => .error (remoteBad t x)
    | none =>
      let s := storeSync s tile r locs
      .ok (poolWrite s t off r.bytes, 0, true)
  | _ =>
    match poolReadTrap s t off n with
    | some x => .error (remoteBad t x)
    | none =>
      match (if r.go then .ok s else checkSync s tile r (granPool t off)) with
      | .error x => .error x
      | .ok s1 => .ok (serveAtomic s1 tile r (locPool t off) (leNat (poolBytes s1 t off n))
          (fun s y => poolWrite s t off (leBytes n y)))

/-- Performs a request at its location. -/
def serve (s : State) (tile : Nat) (r : Req) : Served :=
  match fullPlace r.addr with
  | .mem _ => serveMem s tile r
  | .pool t off => servePool s tile r t off
  | .reel t k =>
    if reelServed s tile t then serveReel (touch s (tileAsid s tile) (dieOf t)) tile r (.reg t k)
    else .error (addrTrap causeIllegalTarget r.addr r.data)
  | _ => .error (addrTrap causeBadAddress r.addr r.data)

end Sys2Proof.Machine
end

