-- ==== Sys2Proof/Machine/Ready.lean ====
section
/-! DEFINITION. What the oldest bundle of a tile comes to when all its operations have issued: it waits, traps, polls in place
or is ready to commit in every other respect than the operations that are then performed (05 R102; 07 R151 to R153; 08 R182, R191 to
R196; 16 R363 to R373). -/

namespace Sys2Proof.Machine

open Sys2Proof

/-- A bundle holds a parrive that takes effect at its commit (07 R158). -/
def holdsArrive (b : Bundle) : Bool := b.acts.any fun a => match a.2 with
  | .parrive _ => true
  | _ => false

/-- The pack's prologue is over for a kinit of the oldest bundle: every older parrive has committed, and the bundle's own comes first
in it (08 R195). -/
def prologueOver (s : State) (tile : Nat) (b : Bundle) : Bool := decide (phase0 (tileGet s tile) ≠ 0) || holdsArrive b

/-- The own reel effects of a bundle, in slot order (08 R182, R191, R194, R195). -/
def ownReelEffs (c : Core) (seq : Nat) : List (Nat × Eff) :=
  let isReel (e : Eff) : Bool := match e with
    | .reelAdd _ _ | .reelSet _ _ | .reelBind _ _ _ => true
    | _ => false
  let l := ((c.log.filter fun x => decide (x.seq = seq)).map fun x => (x.slot, x.eff))
    ++ (c.flights.filter fun f => decide (f.seq = seq)).flatMap fun f => f.effs.map fun e => (f.slot, e)
  (List.range 6).flatMap fun k => l.filter fun x => decide (x.1 = k) && isReel x.2

/-- Performs one of them with its check; `late` when the prologue is over (08 R191, R194, R195). -/
def reelEff (late : Bool) (s : State) (tile : Nat) (e : Eff) : Except Trap State :=
  let bad (k : Nat) (v : Word) (c : Nat) : Except Trap State := .error (trapAt c (ownReelAddr k) v)
  match e with
  | .reelAdd k v => match reelAdd s (.reg tile k) v with | .ok s1 => .ok s1 | .error c => bad k v c
  | .reelSet k v => if late then bad k v causeReelInit else if initBreaks (tileGet s tile) k v then bad k v causeRingCeiling else .ok (reelInit s (.reg tile k) v)
  | .reelBind k c d => match reelBindTo s tile k c d with | .ok s1 => .ok s1 | .error x => bad k d x
  | _ => .ok s

/-- Performs a list of them, up to the first fault. -/
def reelEffsDo (tile : Nat) (late : Bool) : State → List (Nat × Eff) → Except (Nat × Trap) State
  | s, [] => .ok s
  | s, (k, e) :: l =>
    match reelEff late s tile e with
    | .ok s1 => reelEffsDo tile late s1 l
    | .error x => .error (k, x)

/-- Queue counters and loop stack as a bundle leaves them (07 R150, R151). -/
def afterBundle (c : Core) : NMap Nat × NMap Nat × List LoopEnt :=
  match c.window with
  | _ :: b :: _ => (b.qpop0, b.qpush0, b.loops0)
  | _ => (c.qpop, c.qpush, c.loops)

/-- A queue holds an entry after the oldest bundle (07 R151). -/
def queuesHold (c : Core) : Bool :=
  let a := afterBundle c
  (List.range 12).any fun q => decide (mapGet a.1 q 0 ≠ mapGet a.2.1 q 0)

/-- A reel wait of a bundle (07 R153, 08 R192). -/
structure SuspWait where
  slot : Nat
  addr : Word
  t : Word
  /-- The scope at which a met test acquires, and the one at which a wake does (08 R178, R192). -/
  scope : Scope
  wakes : Scope
  place : ReelAt
  /-- suspend parks even when its reel is met. -/
  always : Bool
deriving DecidableEq, Repr

/-- Where the reel of a kwait lies. -/
def waitPlace (tile : Nat) (r : Req) : ReelAt :=
  match fullPlace r.addr with
  | .ownReel k => .reg tile k
  | .reel t k => .reg t k
  | _ => .mem r.pa

/-- The scope that an access operation's word encodes. -/
def wordScope (tile slot : Nat) (w : SlotWord) : Scope :=
  match slotView tile slot w with
  | .m _ _ _ o => o.scope
  | _ => .tile

/-- The reel waits of a bundle in slot order. -/
def bundleWaits (c : Core) (tile : Nat) (b : Bundle) : List SuspWait :=
  (b.acts.filterMap fun a => match a.2 with
    | .park addr t sc always => some ⟨a.1, addr, t, sc, sc, .reg tile (addr.toNat % 256), always⟩
    | _ => none)
  ++ (c.reqs.filter fun r => decide (r.seq = b.seq) && decide (r.kind = .kwait)).map fun r =>
    ⟨r.slot, r.addr, r.data, r.scope, wordScope tile r.slot (mapGet b.words r.slot 0), waitPlace tile r, false⟩

/-- The test of a wait has been met: for a kwait by its own test, unless the tile tests again (08 R192, 16 R366). -/
def waitMet (s : State) (tile : Nat) (again : Bool) (b : Bundle) (w : SuspWait) : Bool :=
  let now := decide (w.t.toNat ≤ (reelVal s w.place).toNat)
  match (coreGet s tile).reqs.find? fun r => decide (r.seq = b.seq) && decide (r.slot = w.slot) && decide (r.kind = .kwait) with
  | some r => if again then now else decide (r.result = 1)
  | none => now

/-- The oldest bundle, once all its operations have issued, no fault stands against it, and its translations, conflict checks and reel
tests have answered (05 R102; 08 R182, R192). -/
def headIssued (s : State) (tile : Nat) : Option Bundle :=
  let t := tileGet s tile
  let c := t.core
  match c.window with
  | [] => none
  | b :: _ =>
    if t.running.isSome && !t.halted && b.todo.isEmpty && b.faults.isEmpty && b.poll.isNone && c.fault.isNone
        && c.reqs.all fun r => decide (r.seq ≠ b.seq) || (match r.st with
          | .walk | .bad _ => false
          | _ => !r.check && (decide (r.kind ≠ .kwait) || r.go))
    then some b else none

/-- Every operation of the bundle that is performed when the bundle is ready to commit has been (08 R182). -/
def allSent (c : Core) (seq : Nat) : Bool := c.reqs.all fun r => decide (r.seq ≠ seq) || !atReady r || r.go || reqSent r

/-- Commits take place: nothing holds the tile's ticks (05 R102, R120). -/
def commitsOpen (s : State) (tile : Nat) : Bool := (coreGet s tile).frozen.isNone && !s.clockStop

/-- The oldest bundle may commit, its waits aside (05 R102, 08 R182). -/
def headReady (s : State) (tile : Nat) : Option Bundle :=
  (headIssued s tile).filter fun b => commitsOpen s tile && allSent (coreGet s tile) b.seq

/-- Every result of bundles up to `seq` has landed, those of operations that wait for the bundle to be ready aside (07 R151,
08 R182). -/
def othersLanded (c : Core) (seq : Nat) : Bool :=
  c.flights.all (fun f => decide (seq < f.seq) || f.req.any fun id => c.reqs.any fun r =>
      decide (r.id = id) && decide (r.seq = seq) && atReady r && !reqSent r)
    && c.vec.all fun v => decide (seq < v.seq)

/-- Every result of bundles up to `seq` has landed (07 R151). -/
def allLanded (c : Core) (seq : Nat) : Bool :=
  c.flights.all (fun f => decide (seq < f.seq)) && c.vec.all fun v => decide (seq < v.seq)

/-- The full address of the join reel of a bobbin (02 R52, R53). -/
def joinAddr (s : State) (tile : Nat) (b : Bobbin) : Word :=
  if b.link then BitVec.ofNat 64 (((tileNode? s tile).map (·.param)).getD 0 + 8 * b.join)
  else 0xC000000000010000 ||| BitVec.ofNat 64 (b.join % 65536)

/-- The add of an ending bobbin to its join reel, with release at .pkg (02 R53). -/
def joinAdd (s : State) (tile : Nat) : EngOut State :=
  match (tileGet s tile).running with
  | none => .ok s
  | some b =>
    if b.root then .ok s
    else
      let addr := joinAddr s tile b
      engThen (engReel s tile addr true) fun r =>
        match addCheck s r 1 with
        | some c => .bad (trapAt c addr 1)
        | none =>
          let s1 := coreSync (demoteAdd (reelTouch s (tileAsid s tile) r) tile (identOf 0 0 tile) r) tile .rel .pkg (reelLoc r) false true
          match reelAdd s1 r 1 with
          | .ok s2 => .ok s2
          | .error c => .bad (trapAt c addr 1)

/-- Whether the bundle suspends or ends its bobbin, and the slot that a fault of the suspension names. -/
def suspends (s : State) (tile : Nat) (again : Bool) (b : Bundle) : Option (Nat × Option SuspWait) :=
  let t := tileGet s tile
  let act := b.acts.any fun a => match a.2 with
    | .yield => true
    | .lease _ _ _ _ w _ st _ => w && decide (st = 2)
    | .pwait => (match packGet? s t.packId with | some p => !phaseDone t p | none => false)
    | _ => false
  if act then some (0, none)
  else ((bundleWaits t.core tile b).find? fun w => w.always || !waitMet s tile again b w).map fun w => (w.slot, some w)

/-- The bundle ends the bobbin (07 R151, R152). -/
def bundleEnds (b : Bundle) : Bool := b.fin || b.acts.any fun a => decide (a.2 = .endBobbin)

/-- pack-phase of a parrive: the tile's previous phase is incomplete (16 R371). -/
def arriveBad (s : State) (tile : Nat) (b : Bundle) : Bool :=
  let t := tileGet s tile
  b.acts.any (fun a => match a.2 with | .parrive _ => true | _ => false)
    && (match packGet? s t.packId with | some p => !phaseDone t p | none => false)


/-- What a request that has not been performed would be answered with: a location that would return a fault does so while the bundle has
not committed (08 R176, R196; 10 R235; log entry 66). -/
def reqProbe (s : State) (tile : Nat) (r : Req) : Option Trap :=
  if r.st = .ready ∧ !atReady r ∧ r.kind ≠ .kwait ∧ !olderOpen (coreGet s tile) r then
    match serve s tile r with
    | .error x => some x
    | .ok _ => none
  else none

/-- The faults that the oldest bundle meets at its commit, by slot (08 R191, R194 to R196; 16 R371). -/
def commitFaults (s : State) (tile : Nat) (b : Bundle) : List (Nat × Trap) :=
  let c := coreGet s tile
  let late := prologueOver s tile b
  let mine := c.reqs.filter fun r => decide (r.seq = b.seq)
  (if arriveBad s tile b then [(0, trapOf causePackPhase)] else [])
    ++ (mine.filterMap fun r => if late ∧ r.kind = .kinit ∧ !reqSent r then some (r.slot, addrTrap causeReelInit r.addr r.data) else none)
    ++ (match reelEffsDo tile late s (ownReelEffs c b.seq) with
        | .error x => [x]
        | .ok _ => [])
    ++ mine.filterMap fun r => (reqProbe s tile r).map fun x => (r.slot, x)

/-- What the oldest bundle comes to. -/
inductive CommitPlan where
  /-- Results are still to land, or a translation to come: a tile, an ASID and a page that a walk is wanted for. -/
  | wait (ask : Option (Nat × Nat × Nat))
  | trap (l : List (Nat × Trap))
  | poll (w : SuspWait)
  | go
deriving DecidableEq, Repr

/-- How the bundle leaves its bobbin; `s1` holds its own reel effects (07 R151 to R153; 16 R366). -/
def leavePlan (s s1 : State) (tile : Nat) (again : Bool) (b : Bundle) : CommitPlan :=
  let c := coreGet s tile
  if bundleEnds b then
    if !othersLanded c b.seq then .wait none
    else match joinAdd s1 tile with
      | .wait a => .wait a
      | .bad x => .trap [(0, x)]
      | .ok _ => .go
  else match suspends s tile again b with
    | none => .go
    | some (slot, w) =>
      if !othersLanded c b.seq then .wait none
      else if queuesHold c || !(afterBundle c).2.2.isEmpty then .trap [(slot, trapOf causeSuspendState)]
      else if 4160 ≤ (tileGet s1 tile).creel.length + forksOf b then .trap [(slot, trapOf causeCreelFull)]
      else match w with
        | none => .go
        | some w =>
          let now := waitMet s1 tile true b { w with always := false }
          let ceil := decide ((regRd c keyCeil).v.toNat ≤ (regRd c keyBack).v.toNat)
          if !now && !waitRoom s w.place && !ceil then .poll w else .go

/-- What the oldest bundle comes to now; `again` when the tile has read its reels anew (05 R102; 16 R366). -/
def commitPlan (s : State) (tile : Nat) (again : Bool) (b : Bundle) : CommitPlan :=
  match commitFaults s tile b with
  | [] => (match reelEffsDo tile (prologueOver s tile b) s (ownReelEffs (coreGet s tile) b.seq) with
    | .ok s1 => leavePlan s s1 tile again b
    | .error x => .trap [x])
  | l => .trap l

/-- The bundle is ready to commit in every other respect than what its requests do then (08 R182). -/
def bundleReady (s : State) (tile seq : Nat) : Bool :=
  match headIssued s tile with
  | none => false
  | some b => decide (b.seq = seq) && decide (commitPlan s tile false b = .go)

end Sys2Proof.Machine
end

