-- ==== Sys2Proof/Machine/Request.lean ====
section
/-! DEFINITION. The events of requests: walks, conflict checks, remote pools and reels, near-memory atomics, bounces,
replies and the end of a freeze; invalidations and frame freezes (05 R119 to R122; 08 R179, R182, R187 to R193;
10 R240 to R248; 17 R390). -/

namespace Sys2Proof.Machine

open Sys2Proof

/-- A request may be sent to its location now (08 R179, R182). -/
def reqOpen (s : State) (tile : Nat) (r : Req) : Bool :=
  let t := tileGet s tile
  decide (r.st = .ready) && !r.check && !olderOpen t.core r
    && (if r.kind = .store then r.go && !t.halted
        else if atReady r then !t.halted && (r.go || bundleReady s tile r.seq)
        else true)

/-- What holds a tile frozen: a result at its landing tick whose reply is outstanding, or a full window whose oldest bundle
waits on a translation (05 R119). Its address is what the watchdog's record names (05 R121). -/
def freezeCause (c : Core) : Option Word :=
  let late := c.flights.findSome? fun f => if f.land ≤ c.ticks then
      (f.req.bind (reqGet? c)).bind fun r => match r.st with
        | .done | .bad _ => none
        | _ => some r.addr
    else none
  let full := if 16 ≤ c.window.length then
      c.window.head?.bind fun b => (c.reqs.find? fun r => decide (r.seq = b.seq) && (match r.st with
        | .walk => true
        | .ready => atReady r && b.todo.isEmpty && b.poll.isNone && (!mayLeave c b || othersLanded c b.seq)
        | _ => false)).map (·.addr)
    else none
  late.or full

/-- The freeze of a tile ends once its cause has cleared; its time is counted (05 R120, R122). -/
def thaw (s : State) (tile : Nat) : State :=
  let t := tileGet s tile
  match t.core.frozen with
  | none => s
  | some f =>
    if (freezeCause t.core).isSome then s
    else tilePut s tile { t with core := { t.core with frozen := none }, frzNs := t.frzNs + (timeOf s - f.since) }

/-- A request returns a fault: a precise trap at its bundle while that has not committed, else an in-flight fault
(10 R235, 18 R398, 19 R430). -/
def reqFault (s : State) (tile : Nat) (r : Req) (x : Trap) : State :=
  let c := coreGet s tile
  if isCommitted c r.seq then
    let c := { reqDel c r.id with flights := c.flights.filter fun f => decide (f.req ≠ some r.id),
                                  fault := c.fault.or (some (r.pc, r.slot, opcDetail r.opc x)) }
    thaw (corePut s tile c) tile
  else thaw (corePut s tile (reqMap c r.id fun y => { y with st := .bad x })) tile

/-- The request is performed: a store is gone, anything else waits for its reply. -/
def reqServed (s : State) (tile : Nat) (r : Req) (result : Nat) (ok arrived : Bool) : State :=
  let c := coreGet s tile
  if r.kind = .store then thaw (corePut s tile (reqDel c r.id)) tile
  else thaw (corePut s tile (reqMap c r.id fun y =>
    { y with st := if arrived then .done else .sent, result, ok, go := y.go || decide (y.kind ≠ .kwait) })) tile

/-- The other operations of the bundle that are performed before its commit, not performed yet (08 R182). -/
def bundleMates (c : Core) (r : Req) : List Req :=
  c.reqs.filter fun x => decide (x.seq = r.seq) && decide (x.id ≠ r.id) && atReady x && !reqSent x

/-- What R47 makes of a request that has been performed: an atomic outside the output extents, or an add to a reel outside
the pack, demotes the node. -/
def reqDemote (s : State) (tile : Nat) (r : Req) : State :=
  let out := match r.kind, fullPlace r.addr with
    | .atomic, .mem va => !inOutputs s tile va r.size
    | .atomic, _ => true
    | .kadd, .mem _ => true
    | .kadd, .reel t _ => !(nodeTiles s tile).contains t
    | _, _ => false
  if out then demote s tile (identOf 0 0 tile) else s

/-- Performs the stores that go with a request (08 R179). -/
def serveStores (tile : Nat) : State → List Req → Except (Req × Trap) State
  | s, [] => .ok s
  | s, x :: l =>
    match serve s tile x with
    | .error t => .error (x, t)
    | .ok (s1, _, _) => serveStores tile (reqServed s1 tile x 0 true true) l

/-- The faults that the bundle of an operation performed before its commit meets after it, by slot (05 R102, 08 R182). -/
def matesFaults (s : State) (tile : Nat) (r : Req) : List (Nat × Trap) :=
  let c := coreGet s tile
  let l := (bundleMates c r).filterMap fun m => match serve s tile m with
    | .error x => some (m.slot, x)
    | .ok _ => none
  match l, c.window with
  | [], b :: _ => (match commitPlan s tile false b with | .trap y => y | _ => [])
  | _, _ => l

/-- A request is performed at its location, or its fault returns. Where its bundle would then meet another fault, that one is raised
and the request stays unperformed: a bundle that does not commit has no effect (05 R102). -/
def serveReq (s : State) (tile : Nat) (r : Req) (arrived : Bool) : State :=
  match serveStores tile s ((coreGet s tile).reqs.filter fun x => storeWith x r) with
  | .error (x, t) => reqFault s tile x t
  | .ok s0 =>
    match serve s0 tile r with
    | .error x => reqFault s tile r x
    | .ok (s1, v, ok) =>
      let s2 := reqServed (reqDemote s1 tile r) tile r v ok arrived
      match (if atReady r && !r.go then matesFaults s2 tile r else []) with
      | [] => s2
      | l => l.foldl (fun s x => raiseAt s tile r.seq x.1 x.2) s

/-- Every request of every tile that satisfies a test, with its tile. -/
def reqsWhere (s : State) (p : Nat → Req → Bool) : List (Nat × Req) :=
  s.tiles.flatMap fun x => (x.2.core.reqs.filter (p x.1)).map fun r => (x.1, r)

/-- An atomic of the tile itself that has not committed holds bytes of its pool (08 R188). -/
def wordHeld (t : Tile) (off n : Nat) : Bool :=
  t.core.window.any fun b => b.acts.any fun a => match a.2 with
    | .atomic o m => decide (o < off + n) && decide (off < o + m)
    | _ => false

/-- Requests for a pool or reel register of some tile that may be performed. -/
def remoteReqs (s : State) : List (Nat × Req) :=
  reqsWhere s fun tile r => reqOpen s tile r && (match fullPlace r.addr with
    | .pool _ _ | .reel _ _ => true
    | _ => false)

/-- A request for a pool or reel register of some tile is performed there; an atomic on a held word is accepted, with its conflict
check, and waits for the hold to end (08 R187, R188, R196). -/
def remotePool (s : State) : State :=
  match pickTurn s (remoteReqs s) with
  | none => s
  | some (tile, r) =>
    match fullPlace r.addr with
    | .pool t off =>
      if r.kind = .atomic ∧ wordHeld (tileGet s t) off r.size then
        if r.go then s
        else match checkSync s tile r (granPool t off) with
          | .error x => reqFault s tile r x
          | .ok s1 => corePut s1 tile (reqMap (coreGet s1 tile) r.id fun y => { y with go := true })
      else serveReq s tile r false
    | _ => serveReq s tile r false

/-- The request is an atomic or a reel operation. -/
def reqIsSync (r : Req) : Bool := decide (r.kind ≠ .load) && decide (r.kind ≠ .store)

/-- Atomics and reel operations on device memory that may be performed, frozen frames included. -/
def nearReqs (s : State) (frozen : Bool) : List (Nat × Req) :=
  reqsWhere s fun tile r => reqIsSync r && reqOpen s tile r && (match fullPlace r.addr, homeOf r.pa with
    | .mem _, .stack _ => frameFrozen s r.pa == frozen
    | _, _ => false)

/-- The near-memory atomic unit of the home stack performs an operation, and one that was bounced to an agent other than a core
(08 R187; 10 R247). -/
def nearAtomic (s : State) : State :=
  owedRun (match pickTurn s (nearReqs s false) with
    | none => s
    | some (tile, r) => serveReq s tile r false)

/-- A frozen frame bounces an operation before acceptance: it is translated again (10 R245, R247). -/
def atomicBounce (s : State) : State :=
  match pickTurn s (nearReqs s true) with
  | none => s
  | some (tile, r) =>
    let va := r.addr.toNat
    let asid := tileAsid s tile
    match xlate s tile asid va with
    | some e => corePut s tile (reqMap (coreGet s tile) r.id fun y => reqXlated y e)
    | none =>
      let s := askWalk s tile asid (va / 65536)
      corePut s tile (reqMap (coreGet s tile) r.id fun y => { y with st := .walk })

/-- Loads and stores whose conflict check has not answered. -/
def checkReqs (s : State) : List (Nat × Req) := reqsWhere s fun _ r => r.check && decide (r.st = .ready)

/-- A granule's conflict check answers a load or store (17 R389, R390). -/
def conflictAnswer (s : State) : State :=
  match pickTurn s (checkReqs s) with
  | none => s
  | some (tile, r) =>
    let pend := if isCommitted (coreGet s tile) r.seq then none else some (tile, r.seq)
    let wr := decide (r.kind = .store)
    let plain := decide (r.order = .rlx)
    match (match fullPlace r.addr with
        | .pool t off => checkGran s (tileAgentId s tile) (reqAgent s tile r) (granPool t off) wr plain pend
        | _ => checkMem s (tileAgentId s tile) (reqAgent s tile r) r.leaf r.pa wr plain pend) with
    | .error x => reqFault s tile r x
    | .ok s1 => thaw (corePut s1 tile (reqMap (coreGet s1 tile) r.id fun y => { y with check := false })) tile

/-- The reply of a request arrives; loads, stores and operations on host memory are performed on the way, at some moment
before it (08 R182, R189). A freeze that waits for it ends (05 R120). `id` gives the low 16 bits of the request's number. -/
def replyArrival (tile id : Nat) (s : State) : State :=
  match (coreGet s tile).reqs.find? fun r => decide (r.id % 2 ^ 16 = id) with
  | none => s
  | some r =>
    match r.st with
    | .sent => thaw (corePut s tile (reqMap (coreGet s tile) r.id fun y => { y with st := .done })) tile
    | .ready =>
      let mine := match fullPlace r.addr, homeOf r.pa with
        | .mem _, .port _ => true
        | .mem _, _ => !reqIsSync r
        | _, _ => false
      if mine && reqOpen s tile r then serveReq s tile r true else s
    | _ => s

/-- The retry time of a walk that met a migrating page: 2 µs on (10 R247). -/
def migRetry (s : State) : Nat := s.clock + 72000

/-- A walk with what its tables hold now; the homes of the tables are touched (10 R238, 18 R420). -/
def walkRead (s : State) (w : Walk) : Walk × State :=
  let r := walkTables s w.asid w.vpn
  let s := r.2.foldl (fun s pa => touchPa s w.asid pa) s
  match r.1 with
  | .leaf x bits => ({ w with out := some (x, bits), bad := 0, retry := 0 }, s)
  | .bad c => ({ w with out := none, bad := c, retry := 0 }, s)
  | .mig => ({ w with out := none, bad := 0, retry := migRetry s }, s)

/-- The first waiting miss that the walker of a die may start (10 R241). -/
def startMiss (d : Die) : Option (Nat × Nat × Nat) :=
  let mine (tile : Nat) : Nat := (d.walks.filter fun w => w.tiles.contains tile).length
  d.missQ.find? fun m =>
    d.walks.any (fun w => decide (w.asid = m.2.1) && decide (w.vpn = m.2.2))
      || (decide (d.walks.length < 32) && decide (mine m.1 < 8)
          && (decide (mine m.1 < 4) || d.missQ.all fun x => decide (x.1 = m.1)))

/-- Misses that the walkers of the dies may start. -/
def missesReady (s : State) : List (Nat × Nat × Nat × Nat) :=
  (List.range 8).filterMap fun d => (startMiss (dieGet s d)).map fun m => (d, m)

/-- A miss starts a walk, or joins the one that walks its page (10 R238, R241). -/
def walkStart (s : State) : State :=
  match pickTurn s (missesReady s) with
  | none => s
  | some (d, m) =>
    let x := dieGet s d
    let q := x.missQ.filter fun y => decide (y ≠ m)
    if x.walks.any fun w => decide (w.asid = m.2.1) && decide (w.vpn = m.2.2) then
      diePut s d { x with missQ := q, walks := x.walks.map fun w =>
        if w.asid = m.2.1 ∧ w.vpn = m.2.2 then { w with tiles := w.tiles ++ [m.1] } else w }
    else
      let r := walkRead s ⟨m.2.1, m.2.2, [m.1], 0, none, 0⟩
      let x := dieGet r.2 d
      diePut r.2 d { x with missQ := q, walks := x.walks ++ [r.1] }

/-- Walks that met a migrating page and are due to repeat. -/
def walksRetry (s : State) : List (Nat × Walk) :=
  (List.range 8).flatMap fun d => ((dieGet s d).walks.filter fun w =>
    decide (w.retry ≠ 0) && decide (w.retry ≤ s.clock)).map fun w => (d, w)

/-- A walk that waits on a migrating page repeats from level 3 (10 R247). -/
def walkRetry (s : State) : State :=
  match pickTurn s (walksRetry s) with
  | none => s
  | some (d, w) =>
    let r := walkRead s w
    let x := dieGet r.2 d
    diePut r.2 d { x with walks := x.walks.map fun y => if y.asid = w.asid ∧ y.vpn = w.vpn then r.1 else y }

/-- The outcome of a walk for one of its tiles: its requests for the page go on or return the fault; fetch and engines find
the fault kept for them (10 R238, R240). -/
def walkDeliver (w : Walk) (s : State) (tile : Nat) : State :=
  let t := tileGet s tile
  let mine (r : Req) : Bool := decide (r.st = .walk) && decide (r.addr.toNat / 65536 = w.vpn)
  match w.out with
  | some (leaf, bits) =>
    let e : TlbEnt := ⟨w.asid, w.vpn * 65536 / 2 ^ bits, bits, leaf⟩
    thaw (tilePut s tile { t with walkBad := mapDel t.walkBad (badKey w.asid w.vpn), core := { t.core with
      tlb := tlbPut t.core.tlb e,
      reqs := if w.asid = tileAsid s tile then t.core.reqs.map fun r => if mine r then reqXlated r e else r
        else t.core.reqs } }) tile
  | none =>
    thaw (tilePut s tile { t with
      walkBad := if (mapGet? t.walkBad (badKey w.asid w.vpn)).isSome then mapPut t.walkBad (badKey w.asid w.vpn) w.bad
        else t.walkBad,
      core := { t.core with
        reqs := if w.asid = tileAsid s tile then t.core.reqs.map fun r => if mine r then { r with st := .bad (addrTrap w.bad r.addr r.data) } else r
          else t.core.reqs } }) tile

/-- Walks with an outcome. -/
def walksDone (s : State) : List (Nat × Walk) :=
  (List.range 8).flatMap fun d => ((dieGet s d).walks.filter fun w => w.out.isSome || decide (w.bad ≠ 0)).map fun w => (d, w)

/-- A walk ends: its leaf is installed in both TLBs, or its fault returns (10 R240). -/
def walkEnd (s : State) : State :=
  match pickTurn s (walksDone s) with
  | none => s
  | some (d, w) =>
    let x := dieGet s d
    let tlb2 := match w.out with
      | some (leaf, bits) => (⟨w.asid, w.vpn * 65536 / 2 ^ bits, bits, leaf⟩ :: x.tlb2).take 16384
      | none => x.tlb2
    w.tiles.foldl (walkDeliver w)
      (diePut s d { x with tlb2, walks := x.walks.filter fun y => !(decide (y.asid = w.asid) && decide (y.vpn = w.vpn)) })

/-- The ASIDs of a host: below HOST_CFG.split host 0's, from it on host 1's (20 R447). -/
def hostOwns (s : State) (h asid : Nat) : Bool :=
  if h = 0 then decide (asid < s.mgmt.hostSplit) else decide (s.mgmt.hostSplit ≤ asid)

/-- A write of TLBI_CMD (10 R242). -/
def tlbiWrite (h : Nat) (v : Word) (s : State) : State :=
  let x := hostGet s h
  let kind := natBits v.toNat 62 2
  let bad := x.tlbi.isSome || decide (kind = 3) || decide (natBits v.toNat 36 15 ≠ 0)
    || !hostOwns s h (natBits v.toNat 51 11)
  if bad then noteBits (hostPut s h { x with tlbiErr := true }) (hostReg h 0x1018) 2 else hostPut s h { x with tlbi := some v }

/-- An entry that an invalidation names (10 R242). -/
def tlbiHits (s : State) (h : Nat) (v : Word) (asid vpn bits : Nat) : Bool :=
  match natBits v.toNat 62 2 with
  | 0 => decide (asid = natBits v.toNat 51 11) && decide (natBits v.toNat 0 36 * 65536 / 2 ^ bits = vpn)
  | 1 => decide (asid = natBits v.toNat 51 11)
  | _ => hostOwns s h asid

/-- Invalidations in progress. -/
def tlbiAsked (s : State) : List (Nat × Word) := (List.range 2).filterMap fun h => (hostGet s h).tlbi.map fun v => (h, v)

/-- An access that an entry named by an invalidation may have translated: of kind 0, any of the 1 GiB about its page, which is as
far as one leaf reaches (10 R236, R243). -/
def tlbiNear (s : State) (h : Nat) (v : Word) (asid va : Nat) : Bool := tlbiHits s h v asid (va / 2 ^ 30) 30

/-- A request whose translation an invalidation names (10 R243). -/
def tlbiReq (s : State) (h : Nat) (v : Word) (tile : Nat) (r : Req) : Bool :=
  match fullPlace r.addr with
  | .mem va => tlbiNear s h v (tileAsid s tile) va
  | _ => false

/-- The request is translated again by an invalidation: it has not been performed, or it is the test of a wait that may yet register at
its reel (10 R243, R248). -/
def tlbiBack (r : Req) : Bool := decide (r.st = .ready) || (decide (r.kind = .kwait) && reqSent r)

/-- A committed store that an invalidation names has not been performed (10 R243). -/
def tlbiStores (s : State) (h : Nat) (v : Word) : Bool :=
  s.tiles.any fun t => t.2.core.reqs.any fun r => tlbiReq s h v t.1 r && decide (r.st = .ready) && decide (r.kind = .store) && r.go

/-- An invalidation completes: entries go, walks that may have read them restart, accesses translated by them and not yet
performed are translated again (10 R243). It waits for stores already committed. -/
def tlbiDone (s : State) : State :=
  match pickTurn s (tlbiAsked s) with
  | none => s
  | some (h, v) =>
    let asidOf (tile : Nat) : Nat := tileAsid s tile
    if tlbiStores s h v then s
    else
      let named (tile : Nat) (r : Req) : Bool := tlbiReq s h v tile r && tlbiBack r
      let back := reqsWhere s named
      let keep (e : TlbEnt) : Bool := !tlbiHits s h v e.asid e.vpn e.bits
      let s1 := { s with
        tiles := s.tiles.map fun t => (t.1, { t.2 with core := { t.2.core with
          tlb := t.2.core.tlb.filter keep,
          reqs := t.2.core.reqs.map fun r => if named t.1 r then { r with st := .walk, check := false } else r } }),
        dies := s.dies.map fun d => (d.1, { d.2 with tlb2 := d.2.tlb2.filter keep }) }
      let s2 := back.foldl (fun s x => askWalk s x.1 (asidOf x.1) (x.2.addr.toNat / 65536)) s1
      let s3 := (List.range 8).foldl (fun s d => (dieGet s d).walks.foldl (fun s w =>
          if tlbiNear s h v w.asid (w.vpn * 65536) then
            let r := walkRead s w
            let x := dieGet r.2 d
            diePut r.2 d { x with walks := x.walks.map fun y => if y.asid = w.asid ∧ y.vpn = w.vpn then r.1 else y }
          else s) s) s2
      hostPut s3 h { hostGet s3 h with tlbi := none }

/-- The frame and size of FRZ_ADDR (10 R244). -/
def frzFrame (x : HostBlk) : Nat × Nat := (natBits x.frzAddr.toNat 16 30 * 65536, natBits x.frzAddr.toNat 0 2)

/-- The waiters listed on reels of a frozen frame: their bobbins stay parked, and their reads bounce and retry as those of the polling
form (10 R248; 16 R367; DESIGN CHOICE for the form, log entry 68). -/
def frzWaits (s : State) : State :=
  let out (loc : Nat) : Bool := decide (loc < 2 ^ 60) && frameFrozen s (loc * 8)
  if s.waits.all fun w => !out w.loc then s
  else { s with
    waits := s.waits.filter fun w => !out w.loc,
    tiles := s.tiles.map fun x => (x.1, { x.2 with creel := x.2.creel.map fun e => match e.wait with
      | some (.reel a l t sc true since tested) => if out l then { e with wait := some (.reel a l t sc false since tested) } else e
      | _ => e }) }

/-- A write of FRZ_CTL: freeze, thaw, or a refusal (10 R244, R245). -/
def frzWrite (h : Nat) (v : Word) (s : State) : State :=
  let x := hostGet s h
  let x := if (keepSet s (hostReg h 0x1028) v).getLsbD 9 then { x with frzErr := false } else x
  let f := frzFrame x
  let size := if f.2 = 0 then 2 ^ 16 else if f.2 = 1 then 2 ^ 21 else 2 ^ 30
  let freeze := v.getLsbD 0
  let thaw := v.getLsbD 1
  if !freeze && !thaw then hostPut s h x
  else
    let bad := x.frzBusy || (freeze && thaw) || decide (f.2 = 3) || decide (f.1 % size ≠ 0) || !inHbm f.1 size
      || (freeze && !x.frozen.contains f && decide (16 ≤ x.frozen.length)) || (thaw && !x.frozen.contains f)
    if bad then noteBits (hostPut s h { x with frzErr := true }) (hostReg h 0x1028) (2 ^ 9)
    else if freeze then
      frzWaits (hostPut s h { x with frzBusy := true, frozen := if x.frozen.contains f then x.frozen else x.frozen ++ [f] })
    else hostPut s h { x with frozen := x.frozen.filter (· ≠ f) }

/-- Every cached line of the frozen frame has been recalled (10 R245). -/
def frzRecall (s : State) : State :=
  match pickTurn s ((List.range 2).filter fun h => (hostGet s h).frzBusy) with
  | none => s
  | some h =>
    let out (g : Nat) : Bool := !frameFrozen s (g * 64)
    let back := s.dies.flatMap fun d => d.2.dirty.filter fun g => !out g
    let s1 := wroteBack { s with dies := s.dies.map fun d => (d.1, { d.2 with cached := d.2.cached.filter out, dirty := d.2.dirty.filter out }) } back
    hostPut s1 h { hostGet s1 h with frzBusy := false }

/-- A miss in both TLBs starts a page walk (10 R238). -/
def execTranslationWalk (s : State) : Out := .next (walkStart s)

/-- A page walk ends (10 R240). -/
def execWalkComplete (s : State) : Out := .next (walkEnd s)

/-- A walk on a migrating page repeats (10 R247). -/
def execMigrationWalkRetry (s : State) : Out := .next (walkRetry s)

/-- A frozen frame bounces an operation (10 R245). -/
def execAtomicBounce (s : State) : Out := .next (atomicBounce s)

/-- A request is performed at another tile's bank or synchronisation unit (08 R187). -/
def execRemotePoolRequest (s : State) : Out := .next (remotePool s)

/-- A near-memory atomic unit performs an operation (08 R187). -/
def execNearMemoryAtomic (s : State) : Out := .next (nearAtomic s)

/-- A conflict check answers (17 R390). -/
def execConflictCheckAnswer (s : State) : Out := .next (conflictAnswer s)

/-- A reply arrives at its tile (08 R182, 05 R119). -/
def execRemoteReplyArrival (tile : BitVec 8) (req : BitVec 16) (s : State) : Out := .next (replyArrival tile.toNat req.toNat s)

/-- A write of TLBI_CMD with kind 0 (10 R242). -/
def execTlbiPage (host : BitVec 1) (val : BitVec 64) (s : State) : Out :=
  hostDoes host s (tlbiWrite host.toNat (BitVec.ofNat 64 (val.toNat % 2 ^ 62)))

/-- A write of TLBI_CMD with kind 1 (10 R242). -/
def execTlbiAsid (host : BitVec 1) (val : BitVec 64) (s : State) : Out :=
  hostDoes host s (tlbiWrite host.toNat (BitVec.ofNat 64 (val.toNat % 2 ^ 62 + 2 ^ 62)))

/-- A write of TLBI_CMD with kind 2 (10 R242). -/
def execTlbiHost (host : BitVec 1) (val : BitVec 64) (s : State) : Out :=
  hostDoes host s (tlbiWrite host.toNat (BitVec.ofNat 64 (val.toNat % 2 ^ 62 + 2 ^ 63)))

/-- An invalidation completes (10 R243). -/
def execTlbiComplete (s : State) : Out := .next (tlbiDone s)

/-- A write of FRZ_CTL with freeze = 1 (10 R244, R245). -/
def execFrzFreeze (host : BitVec 1) (val : BitVec 64) (s : State) : Out := hostDoes host s (frzWrite host.toNat (val ||| 1))

/-- A write of FRZ_CTL with thaw = 1 (10 R244, R245). -/
def execFrzThaw (host : BitVec 1) (val : BitVec 64) (s : State) : Out := hostDoes host s (frzWrite host.toNat (val ||| 2))

/-- The recall of a frozen frame's lines completes (10 R245). -/
def execFreezeRecallComplete (s : State) : Out := .next (frzRecall s)

end Sys2Proof.Machine
end

