-- ==== Sys2Proof/Machine/Commit.lean ====
section
/-! DEFINITION. Landing of results, commit of bundles, suspension points and polling in place (05 R102 to R105;
07 R149 to R158; 08 R188, R191 to R195; 16 R363 to R373; 17 R379 to R384). -/

namespace Sys2Proof.Machine

open Sys2Proof

/-- What an earlier landed effect still shows once a later one on the same register or byte has become the committed value:
later landings win (05 R105). -/
def shadowed (e : Eff) (x : Landed) : Option Landed :=
  match e, x.eff with
  | .reg k _, .reg j _ => if j = k then none else some x
  | .reg k _, .fp _ => if k = keyFpstat then none else some x
  | .fp bits, .reg j y => if j = keyFpstat then some { x with eff := .reg j (rvOf (y.v ||| BitVec.ofNat 64 bits)) } else some x
  | .cells cs, .cells ds =>
    let l := ds.filter fun d => !cs.any fun c => decide (c.1 = d.1)
    if l.isEmpty then none else some { x with eff := .cells l }
  | .cells cs, .nib a _ _ => if cs.any fun c => decide (c.1 = a) then none else some x
  | .nib a hi v, .cells ds => some { x with eff := .cells (ds.map fun d => if d.1 = a then (a, nibSet d.2 hi v) else d) }
  | .nib a hi _, .nib b hj _ => if b = a ∧ hi = hj then none else some x
  | _, _ => some x

/-- A committed effect on registers and scratchpad (05 R102, R103). -/
def baseApply (t : Tile) (e : Eff) : Tile :=
  match e with
  | .reg k x => { t with core := { t.core with regs := mapPut t.core.regs k x } }
  | .fp bits =>
    let old := (mapGet t.core.regs keyFpstat (rvOf 0)).v
    { t with core := { t.core with regs := mapPut t.core.regs keyFpstat (rvOf (old ||| BitVec.ofNat 64 bits)) } }
  | .cells cs => { t with pool := memPutCells t.pool cs }
  | .nib a hi v => { t with pool := memPut t.pool a (nibSet (memGet t.pool a) hi v) }
  | _ => t

/-- The codewords that a committed effect re-encodes (19 R426). -/
def effClean (s : State) (tile : Nat) (e : Eff) : State :=
  match e with
  | .cells cs => if s.symErr.isEmpty then s else cs.foldl (fun s c => poolClean s tile c.1 1) s
  | .nib a _ _ => poolClean s tile a 1
  | _ => s

/-- The queue entries that an effect lands (07 R145). -/
def landEntry (c : Core) (e : Eff) : Core :=
  match e with
  | .entry q i x => { c with qent := mapPut c.qent (qKey q i) x }
  | .entryLatch q i k => { c with qent := mapPut c.qent (qKey q i) (regRd c k) }
  | _ => c

/-- One effect lands: committed at once for a committed bundle, else staged (05 R103, R105). -/
def landEff (tile seq slot : Nat) (s : State) (e : Eff) : State :=
  let t := tileGet s tile
  match e with
  | .entry _ _ _ | .entryLatch _ _ _ => corePut s tile (landEntry t.core e)
  | _ =>
    if isCommitted t.core seq then
      let t1 := baseApply t e
      effClean (tilePut s tile { t1 with core := { t1.core with log := t1.core.log.filterMap (shadowed e) } }) tile e
    else corePut s tile { t.core with log := t.core.log ++ [⟨seq, slot, e⟩] }

/-- The effects of a declared-latency result from its reply, or the fault of its destination (08 R180 to R193). -/
def reqEffs (r : Req) : Except Trap (List Eff) :=
  let x := rvOf (BitVec.ofNat 64 r.result)
  match r.kind with
  | .load =>
    if r.opc = 0x002 then
      .ok ((r.entries.zip (elemsOf r.size (leBytes 64 r.result))).map fun p => Eff.entry p.1.1 p.1.2 (rvOf (BitVec.ofNat 64 p.2)))
    else match dstEffs r.entries r.dst x with
      | .ok l => .ok (.reg (latchKey r.slot 1) x :: l)
      | .error t => .error t
  | .atomic => .ok (atomicEffs r.slot r.opc (atomicRet r.opc r.size r.result) r.ok)
  | .kread =>
    match dstEffs r.entries r.dst x with
    | .ok l => .ok (.reg (latchKey r.slot 3) x :: l)
    | .error t => .error t
  | .kpoll => .ok [.reg (latchKey r.slot 3) x]
  | _ => .ok []

/-- A fault found as a result lands: precise while its bundle has not committed, else in flight (18 R397, R398). -/
def landTrap (s : State) (tile seq slot : Nat) (x : Trap) : State :=
  let c := coreGet s tile
  if isCommitted c seq then corePut s tile { c with fault := c.fault.or (some (corePc c, slot, x)) } else raiseAt s tile seq slot x

/-- One result lands with all its effects (05 R105). A reply that has not come keeps its result. -/
def landFlight (tile : Nat) (s : State) (f : Flight) : State :=
  let c := coreGet s tile
  let gone (s : State) : State :=
    let c := coreGet s tile
    corePut s tile { c with flights := c.flights.filter fun x => decide (x ≠ f) }
  match f.req with
  | none => f.effs.foldl (landEff tile f.seq f.slot) (gone s)
  | some id =>
    match reqGet? c id with
    | none => gone s
    | some r =>
      match r.st with
      | .done =>
        let s1 := gone s
        if r.kind = .kwait then corePut s1 tile (reqMap (coreGet s1 tile) id fun y => { y with go := true })
        else match reqEffs r with
          | .ok l => l.foldl (landEff tile f.seq f.slot) s1
          | .error x => landTrap s1 tile f.seq f.slot x
      | _ => s

/-- Requests that nothing waits for any more are forgotten. -/
def reqTidy (c : Core) : Core :=
  { c with reqs := c.reqs.filter fun r =>
      !(decide (r.st = .done) && isCommitted c r.seq && c.flights.all fun f => decide (f.req ≠ some r.id)) }

/-- The results of the tick in progress may land: it has begun, or no core stall holds it (05 R105, R113). -/
def landOpen (s : State) (tile : Nat) : Bool :=
  coreLive s tile && (decide ((coreGet s tile).stage ≠ .start) || !coreStalled s tile)

/-- Sticky flags among the effects of a result. -/
def effIsFp : Eff → Bool
  | .fp _ => true
  | _ => false

/-- RESULT_LANDING: at the end of a tick its results land, by slot and then by age, and flags after every write of FPSTAT
(03 R77; 05 R105; 06 R138); a vector operation whose last element has landed is finished (05 R106). Nothing more issues in the
tick. -/
def landing (tile : Nat) (s : State) : State :=
  if landOpen s tile then
    let c := coreGet s tile
    let late (f : Flight) : Bool := decide (f.land ≤ c.ticks)
    let dry (f : Flight) : Flight := { f with effs := f.effs.filter fun e => !effIsFp e }
    let flags := (c.flights.filter late).flatMap fun f => (f.effs.filter effIsFp).map fun e => (f.seq, f.slot, e)
    let s0 := if flags.isEmpty then s
      else corePut s tile { c with flights := c.flights.map fun f => if late f then dry f else f }
    let due := (coreGet s0 tile).flights.filter late
    let s1 := ((List.range 6).flatMap fun k => due.filter fun f => decide (f.slot = k)).foldl (landFlight tile) s0
    let s2 := flags.foldl (fun s x => landEff tile x.1 x.2.1 s x.2.2) s1
    let c1 := reqTidy (coreGet s2 tile)
    corePut s2 tile { c1 with stage := .landed, vec := c1.vec.filter fun v => !(decide (v.n ≤ v.elem) && v.t0.isSome && decide (v.last ≤ c.ticks)) }
  else s

/-- Undoes bundle `seq` and every younger one on a tile, with what they hold elsewhere: forks counted, entries reserved by
csend, elastic entries, reserved granules (05 R109; 07 R155; 17 R390; 18 R397). -/
def undoTile (s : State) (tile seq : Nat) : State :=
  let t := tileGet s tile
  let acts := (t.core.window.filter fun b => decide (seq ≤ b.seq)).flatMap (·.acts)
  let forks := (acts.filter fun a => match a.2 with | .fork _ _ _ _ => true | _ => false).length
  let s1 := if forks = 0 then s else setOutstanding s tile (outstanding s tile - forks)
  let s2 := acts.foldl (fun s a => match a.2 with
    | .csend target e id => engMap s target e fun x => { x with queue := x.queue.filter fun q => decide (q.id ≠ id) }
    | _ => s) s1
  let s3 := if s2.records.any fun r => r.pend.isSome then
      keepRecords s2 fun r => match r.pend with
          | some (u, q) => !(decide (u = tile) && decide (seq ≤ q))
          | none => true
    else s2
  let t := tileGet s3 tile
  tilePut s3 tile { t with core := undoFrom t.core seq,
                           engines := t.engines.map fun e => (e.1, { e.2 with buf := e.2.buf.filter fun x => x.committed || decide (x.seq < seq) }) }

/-- Drops the reel effects of a bundle, which its commit has performed. -/
def dropReelEffs (c : Core) (seq : Nat) : Core :=
  let keep (e : Eff) : Bool := match e with
    | .reelAdd _ _ | .reelSet _ _ | .reelBind _ _ _ => false
    | _ => true
  { c with log := c.log.filter (fun x => decide (x.seq ≠ seq) || keep x.eff),
           flights := c.flights.map fun f => if f.seq = seq then { f with effs := f.effs.filter keep } else f }

/-- The staged results of a bundle become committed (05 R102). -/
def foldLog (s : State) (tile seq : Nat) : State :=
  let t := tileGet s tile
  let r := t.core.log.foldl (fun (r : Tile × List Landed) x =>
    if x.seq = seq then (baseApply r.1 x.eff, r.2.filterMap (shadowed x.eff)) else (r.1, r.2 ++ [x])) (t, [])
  let s1 := tilePut s tile { r.1 with core := { r.1.core with log := r.2 } }
  if s.symErr.isEmpty then s1
  else (t.core.log.filter fun x => decide (x.seq = seq)).foldl (fun s x => effClean s tile x.eff) s1

/-- The clock at the commit, and the agent's time moves on: what the bundle has done happens before what it forks
(17 R383, R391). -/
def forkClock (s : State) (tile : Nat) : State × NMap Nat :=
  let x := coreAgent s tile
  (agentPut s (tileAgentId s tile) (agentBump (tileAgentId s tile) x), x.vc)

/-- The field of a pack that psplit gives a tile (02 R51). -/
def splitTile (s : State) (tile j : Nat) : State :=
  let t := tileGet s tile
  match packGet? s t.packId with
  | none => s
  | some p =>
    match p.arrived.find? fun x => decide (x.1 = tile) with
    | none => s
    | some (_, id) =>
      let size := t.packSize / 2 ^ j
      let save : PackSave := ⟨t.packId, t.packParent, t.packLevel, t.packRank, t.packSize, t.core.phase⟩
      let s1 := packPut s { p with arrived := p.arrived.filter fun x => decide (x.1 ≠ tile) }
      tilePut s1 tile { t with packId := id, packParent := p.id, packLevel := t.packLevel + 1, packRank := t.packRank % size,
                               packSize := size, packStack := save :: t.packStack, core := { t.core with phase := 0 },
                               running := t.running.map fun b => { b with pack := id, level := t.packLevel + 1 } }

/-- pmerge at its commit: the enclosing pack's registers and phase count return; the last tile ends the sub-pack and its
phase reel (02 R51; 07 R158; 16 R373). -/
def mergeTile (s : State) (tile : Nat) : State :=
  let t := tileGet s tile
  match t.packStack with
  | [] => s
  | v :: rest =>
    let s1 := match packGet? s t.packId with
      | some p =>
        let l := p.arrived.filter fun x => decide (x.1 ≠ tile)
        if l.isEmpty then { s with packs := mapDel s.packs p.id, releases := mapDel s.releases (locPhase p.id) }
        else packPut s { p with arrived := l }
      | none => s
    tilePut s1 tile { t with packId := v.id, packParent := v.parent, packLevel := v.level, packRank := v.rank,
                             packSize := v.size, packStack := rest, core := { t.core with phase := v.phase },
                             running := t.running.map fun b => { b with pack := v.id, level := v.level } }

/-- parrive at its commit: the phase reel and the phase count rise, and pwaiters wake (16 R371, R372). -/
def arrive (s : State) (tile : Nat) (rel : Bool) : State :=
  let t := tileGet s tile
  match packGet? s t.packId with
  | none => s
  | some p =>
    let s1 := coreSync s tile (if rel then .rel else .rlx) (packScope p) (locPhase p.id) false true
    let s2 := packPut s1 { p with phase := p.phase + 1 }
    let s3 := corePut s2 tile { coreGet s2 tile with phase := t.core.phase + 1 }
    p.tiles.foldl wakePhase s3

/-- pwait that continues: an acquire at the pack's scope (16 R372). -/
def phasePass (s : State) (tile : Nat) : State :=
  let t := tileGet s tile
  match packGet? s t.packId with
  | some p => if phaseDone t p then coreSync s tile .acq (packScope p) (locPhase p.id) true false else s
  | none => s

/-- A bobbin that fork makes (07 R154). -/
def forkBobbin (t : Tile) (pc : Nat) (link : Bool) (join : Nat) (carry : List Word) : Bobbin :=
  match t.running with
  | some b => { b with pc, link, join, carry, root := false, spilled := false }
  | none => ⟨0, pc, 0, t.packId, t.packLevel, false, false, link, join, carry⟩

/-- The effect of one act at the commit of its bundle; suspensions come last (05 R102). -/
def commitAct (tile seq : Nat) (s : State) (a : Nat × CommitAct) : State :=
  match a.2 with
  | .sync loc order sc wr => coreSync s tile order sc loc false wr
  | .plain locs => plainWrite s locs
  | .stored locs rel => storeOver s locs (rel || (coreAgent s tile).frel.isSome)
  | .atomic _ _ => demote s tile (identOf 0 0 tile)
  | .fence order sc =>
    let id := tileAgentId s tile
    let s1 := if ordAcq order then agentPut s id (fenceAcquire (coreAgent s tile) sc) else s
    if ordRel order then agentPut s1 id (fenceRelease id (coreAgent s1 tile) sc) else s1
  | .fork pc link join carry =>
    let r := forkClock s tile
    creelAdd r.1 tile true ⟨forkBobbin (tileGet s tile) pc link join carry, none, none, r.2, none⟩
  | .csend target e id =>
    let r := forkClock s tile
    engMap r.1 target e fun x => { x with queue := x.queue.map fun q => if q.id = id then { q with ready := true, vc := r.2 } else q }
  | .wake _ =>
    let s := leaseHeadGrant s tile false
    tilePut s tile (leaseAct (tileGet s tile) (tilePrio s tile) (timeOf s) seq a.2)
  | .lease _ _ _ _ _ _ _ _ | .unleash _ =>
    tilePut s tile (leaseAct (tileGet s tile) (tilePrio s tile) (timeOf s) seq a.2)
  | .psplit j => splitTile s tile j
  | .pmerge => mergeTile s tile
  | .parrive rel => arrive s tile rel
  | .trapCode code =>
    let c := coreGet s tile
    let pc := ((bundleGet? c seq).map (·.pc)).getD c.pc
    corePut s tile { c with fault := c.fault.or (some (pc, a.1, trapAt causeSoftwareTrap (BitVec.ofNat 64 code) 0)) }
  | .pwait => phasePass s tile
  | .endBobbin | .yield | .park _ _ _ _ => s

/-- A met wait acquires, and the back-off interval returns to its floor (08 R192, 16 R366). -/
def waitDone (tile : Nat) (s : State) (w : SuspWait) : State :=
  let s1 := coreSync s tile .acq w.scope (reelLoc w.place) true false
  let c := coreGet s1 tile
  corePut s1 tile { c with regs := mapPut c.regs keyBack (regRd c keyFloor) }

/-- What a bundle does that other agents can synchronise with, in slot order, the release of each operation before the wakes that its add
makes (07 R158; 08 R178, R191, R192; 17 R379 to R382). -/
def syncActs (a : CommitAct) : Bool :=
  match a with
  | .sync _ _ _ _ | .plain _ | .stored _ _ | .atomic _ _ | .fence _ _ | .pwait | .parrive _ => true
  | _ => false

/-- The part of one slot in it: met waits acquire, then accesses synchronise, then own reel effects are performed. -/
def slotActs (tile : Nat) (b : Bundle) (met : List SuspWait) (effs : List (Nat × Eff)) (late : Bool) (s : State) (k : Nat) : State :=
  let s1 := (met.filter fun w => decide (w.slot = k)).foldl (waitDone tile) s
  let s2 := (b.acts.filter fun a => decide (a.1 = k) && syncActs a.2).foldl (commitAct tile b.seq) s1
  (effs.filter fun x => decide (x.1 = k)).foldl (fun s x => match reelEff late s tile x.2 with
    | .ok s' => s'
    | .error _ => s) s2

/-- The commit of the oldest bundle with all its effects, suspensions aside; `met` are its reel waits that have ended (05 R102;
08 R182). -/
def commitEffects (s : State) (tile : Nat) (b : Bundle) (met : List SuspWait) : State :=
  let effs := ownReelEffs (coreGet s tile) b.seq
  let s0 := (List.range 6).foldl (slotActs tile b met effs (prologueOver s tile b)) s
  let s1 := foldLog (corePut s0 tile (dropReelEffs (coreGet s0 tile) b.seq)) tile b.seq
  let s2 := (b.acts.filter fun a => !syncActs a.2).foldl (commitAct tile b.seq) s1
  let t := tileGet s2 tile
  let s3 := if t.engines.any fun e => e.2.buf.any fun x => decide (x.seq = b.seq) then
      let r := forkClock s2 tile
      let t := tileGet r.1 tile
      tilePut r.1 tile { t with engines := t.engines.map fun e => (e.1, { e.2 with buf := e.2.buf.map fun x =>
        if x.seq = b.seq then { x with committed := true, vc := r.2 } else x }) }
    else s2
  let s4 := if s3.records.any fun r => decide (r.pend = some (tile, b.seq)) then
      { s3 with records := s3.records.map fun r => if r.pend = some (tile, b.seq) then { r with pend := none } else r }
    else s3
  let c := coreGet s4 tile
  let popped (k : Nat) : Bool := b.pops.any fun p => decide (qKey p.2.1 p.2.2 = k)
  corePut s4 tile (reqTidy { c with
    window := c.window.filter fun x => decide (x.seq ≠ b.seq),
    qent := if b.pops.isEmpty then c.qent else c.qent.filter fun x => !popped x.1,
    reqs := c.reqs.map fun r => if r.seq = b.seq then { r with go := true } else r })

/-- The bobbin leaves the core: what is younger is undone, and every queue is emptied (07 R151, R152). -/
def leaveCore (s : State) (tile seq : Nat) : State :=
  let s1 := undoTile s tile (seq + 1)
  let t := tileGet s1 tile
  tilePut s1 tile { t with running := none, core := { t.core with
    window := [], cur := none, loops := [], qent := [], qpop := [], qpush := [], log := [], hold := 0, decodeStop := none,
    lineWait := none, pageWait := none } }

/-- The entry of a bobbin that suspends: it resumes at N with s58 to s63 as its carries (07 R151). Their residues are generated anew
at pick-up (07 R170; DEDUCED, log entry 75). -/
def suspendEntry (t : Tile) (b : Bundle) (w : Option Wait) (vc : NMap Nat) : CreelEntry :=
  let carry := (List.range 6).map fun i => (mapGet t.core.regs (58 + i) (rvOf 0)).v
  let bb := match t.running with
    | some x => { x with pc := b.next, carry, spilled := false }
    | none => ⟨0, b.next, 0, t.packId, t.packLevel, false, false, false, 0, carry⟩
  ⟨bb, w, none, vc, none⟩

/-- The end of a bobbin: the outstanding count falls, and at 0 the node retires (02 R53, 18 R422). -/
def endNow (s : State) (tile seq : Nat) : State :=
  let s1 := leaveCore s tile seq
  let k := outstanding s1 tile - 1
  let s2 := setOutstanding s1 tile k
  match (tileGet s2 tile).node with
  | none => s2
  | some n =>
    match nodeGet? s2 n with
    | some nd => if k = 0 ∧ (nd.st = .running ∨ nd.st = .yielding) then nodePut s2 n { nd with st := .retiring } else s2
    | none => s2

/-- leasew parks on its queue entry; one granted since its decision is handed over at once (12 R274, R275). -/
def leasePark (s : State) (tile seq : Nat) (b : Bundle) (inst : Bool) (k pred : Nat) (vc : NMap Nat) : State :=
  let t := tileGet s tile
  let e := suspendEntry t b (some (.lease inst k pred)) vc
  let s1 := leaveCore s tile seq
  if t.leaseQ.any fun r => decide (r.inst = inst) && decide (r.k = k) then creelAdd s1 tile false e
  else
    let g := (leaseInsts inst k).foldl (fun g i => if leaseHeld (engState t i) ∧ (8 ≤ g ∨ (engGet t g).ord < (engGet t i).ord) then i else g) 15
    creelAdd s1 tile true { e with wait := none, handle := some (leaseHandle (engGet t g).gen (leaseField t g) g, pred) }

/-- The suspension of the bobbin by one of its bundle's acts: yield, pwait or leasew (07 R151, R152). -/
def suspendAct (s : State) (tile : Nat) (b : Bundle) : Option State :=
  let t := tileGet s tile
  b.acts.findSome? fun a => match a.2 with
    | .yield =>
      let r := forkClock s tile
      some (creelAdd (leaveCore r.1 tile b.seq) tile false (suspendEntry t b none r.2))
    | .pwait =>
      (match packGet? s t.packId with
       | none => none
       | some p =>
         if phaseDone t p then none
         else
           let r := forkClock s tile
           some (creelAdd (leaveCore r.1 tile b.seq) tile false (suspendEntry t b (some .phase) r.2)))
    | .lease inst k _ _ true pred 2 _ =>
      let r := forkClock s tile
      some (leasePark r.1 tile b.seq b inst k pred r.2)
    | _ => none

/-- A waiter that finds no entry polls in place: dispatch holds for b ticks, b doubles, and the reel is read again
(16 R366). -/
def pollInPlace (s : State) (tile : Nat) (b : Bundle) (w : SuspWait) : State :=
  let c := coreGet s tile
  let back := (regRd c keyBack).v.toNat
  let lat := match w.place with | .reg t _ => if t = tile then 2 else 64 | _ => 64
  let c := bundleMap c b.seq fun x => { x with poll := some (c.ticks + back + lat) }
  corePut s tile { c with hold := max c.hold (c.ticks + back + 1), regs := mapPut c.regs keyBack (rvOf (backOff c)) }

/-- The commit of a bundle that is ready, with its suspension or the end of its bobbin (05 R102; 07 R151 to R153). -/
def commitGo (s : State) (tile : Nat) (again : Bool) (b : Bundle) : State :=
  let met := (bundleWaits (coreGet s tile) tile b).filter fun w => !w.always && waitMet s tile again b w
  let s1 := commitEffects s tile b met
  if bundleEnds b then
    match joinAdd s1 tile with
    | .ok s2 => endNow s2 tile b.seq
    | _ => s
  else match suspends s tile again b with
    | none => s1
    | some (_, none) => (suspendAct s1 tile b).getD s1
    | some (_, some w) =>
      let r := forkClock s1 tile
      let e := suspendEntry (tileGet r.1 tile) b none r.2
      parkOn (leaveCore r.1 tile b.seq) tile e w.place w.addr w.t w.wakes

/-- The bundle is to wait for what it has sent (07 R151; 08 R182). -/
def commitHeld (s : State) (tile : Nat) (again : Bool) (b : Bundle) : Bool :=
  let c := coreGet s tile
  !allSent c b.seq || ((bundleEnds b || (suspends s tile again b).isSome) && !allLanded c b.seq)

/-- A test that has been met in polling stays met while the bundle waits for what it has sent (16 R366). -/
def keepMet (s : State) (tile : Nat) (b : Bundle) : State :=
  let c := coreGet s tile
  let met := (bundleWaits c tile b).filter (waitMet s tile true b)
  corePut s tile { c with reqs := c.reqs.map fun r =>
    if r.seq = b.seq ∧ r.kind = .kwait ∧ met.any (fun w => decide (w.slot = r.slot)) then { r with result := 1 } else r }

/-- The commit of a tile's oldest bundle; `again` when the tile has read its reels anew (05 R102, 16 R366). -/
def commitBundle (again : Bool) (tile : Nat) (s : State) : State :=
  match headIssued s tile with
  | none => s
  | some b =>
    if !commitsOpen s tile then s
    else match commitPlan s tile again b with
    | .wait ask => engAsk s ask
    | .trap l => l.foldl (fun s x => raiseAt s tile b.seq x.1 x.2) s
    | .poll w => pollInPlace s tile b w
    | .go =>
      if commitHeld s tile again b then (if again then keepMet s tile b else s) else commitGo s tile again b

/-- Tiles whose polling in place is due to read again (16 R366). -/
def pollTiles (s : State) : List Nat :=
  s.tiles.filterMap fun x => match x.2.core.window with
    | b :: _ => match b.poll with
      | some t => if t ≤ x.2.core.ticks ∧ coreLive s x.1 then some x.1 else none
      | none => none
    | [] => none

/-- A reel that a kwait reads again is found anew: a memory reel is translated for each read, and a frozen frame bounces it
(08 R176; 10 R235, R247). -/
def pollLook (s : State) (tile : Nat) (r : Req) : EngOut State :=
  match fullPlace r.addr with
  | .mem va =>
    (match engXlate s tile (tileAsid s tile) va with
     | .miss => .wait (some (tile, tileAsid s tile, va / 65536))
     | .bad c => .bad (addrTrap c r.addr r.data)
     | .hit e =>
       let y := reqXlated r e
       match y.st, memReadTrap s y.pa 8 with
       | .bad x, _ => .bad x
       | _, some x => .bad { x with d1 := r.data }
       | _, none =>
         if frameFrozen s y.pa then .wait none
         else .ok (corePut s tile (reqMap (coreGet s tile) r.id fun z => { z with pa := y.pa, leaf := y.leaf, scope := y.scope })))
  | .reel t _ => if reelServed s tile t then .ok s else .bad (addrTrap causeIllegalTarget r.addr r.data)
  | _ => .ok s

/-- The reads of a bundle's kwaits, up to the first that waits or faults. -/
def pollLooks (tile : Nat) : State → List Req → EngOut State
  | s, [] => .ok s
  | s, r :: l =>
    match pollLook s tile r with
    | .ok s1 => pollLooks tile s1 l
    | .bad x => .ok (raiseAt s tile r.seq r.slot x)
    | .wait a => .wait a

/-- POLL_BACKOFF_EXPIRY (16 R366). -/
def pollAgain (s : State) : State :=
  match pickTurn s (pollTiles s) with
  | none => s
  | some tile =>
    let c := coreGet s tile
    match c.window with
    | b :: _ =>
      (match pollLooks tile s (c.reqs.filter fun r => decide (r.seq = b.seq) && decide (r.kind = .kwait)) with
       | .wait a => engAsk s a
       | .ok s1 => commitBundle true tile (corePut s1 tile (bundleMap (coreGet s1 tile) b.seq fun x => { x with poll := none }))
       | .bad _ => s)
    | [] => s

/-- Tiles whose hold of dispatch is over (07 R162). -/
def holdTiles (s : State) : List Nat :=
  s.tiles.filterMap fun x =>
    if decide (x.2.core.hold ≠ 0) && decide (x.2.core.hold ≤ x.2.core.ticks) then some x.1 else none

/-- SLEEPK_WAIT_END: dispatch goes on (07 R162). -/
def holdEnd (s : State) : State :=
  match pickTurn s (holdTiles s) with
  | none => s
  | some tile => corePut s tile { coreGet s tile with hold := 0 }

/-- Results land at the end of a tick (05 R105). -/
def execResultLanding (tile : BitVec 8) (s : State) : Out := .next (landing tile.toNat s)

/-- The oldest bundle commits (05 R102). -/
def execBundleCommit (tile : BitVec 8) (s : State) : Out := .next (commitBundle false tile.toNat s)

/-- A reel that is polled in place is read again (16 R366). -/
def execPollBackoffExpiry (s : State) : Out := .next (pollAgain s)

/-- The wait of a sleepk ends (07 R162). -/
def execSleepkWaitEnd (s : State) : Out := .next (holdEnd s)

end Sys2Proof.Machine
end

