-- ==== Sys2Proof/Machine/Stop.lean ====
section
/-! DEFINITION. Stops of nodes: precise traps, in-flight faults, run faults of engines and freeze timeouts; what a node
leaves behind, and the re-queue of a restartable one (05 R121; 18 R397 to R401, R411; 19 R424, R430, R434 to R437). -/

namespace Sys2Proof.Machine

open Sys2Proof

/-- A fault as an agent of a tile takes it: agent, mask, pc, trap (18 R399, R401). -/
structure Due where
  tile : Nat
  agent : Nat
  mask : Nat
  pc : Nat
  trap : Trap
deriving DecidableEq, Repr

/-- A fault of a bundle is decided: a queue's is once every lower slot has issued (05 R101). -/
def faultDecided (b : Bundle) (f : Nat × Trap) : Bool :=
  !(decide (f.2.cause = causeQueueUnderflow) || decide (f.2.cause = causeQueueOverflow)) || b.todo.all fun k => decide (f.1 < k)

/-- The detail words that a fault takes from its bundle: the header, or the opcode of its slot (18 R402). -/
def bundleDetail (b : Bundle) (slot : Nat) (x : Trap) : Trap :=
  if 0x23 ≤ x.cause ∧ x.cause ≤ 0x25 then { x with d0 := BitVec.ofNat 64 (b.hdr % 2 ^ 24) }
  else opcDetail (opcodeOf (mapGet b.words slot 0)).toNat x

/-- The margin class of a residue or silent-error record (19 R424, R434). -/
def marginDetail (s : State) (tile : Nat) (x : Trap) : Trap :=
  if (x.cause = causeResidue ∨ x.cause = causeSilentError) ∧ marginNow s tile then { x with d1 := x.d1 ||| 0x8000000000000000 } else x

/-- The trap of the oldest uncommitted bundle: its pc, its mask, and the cause of its lowest faulting slot (18 R397). -/
def headTrap (c : Core) : Option (Nat × Nat × Trap) :=
  match c.window with
  | [] => c.decodeStop
  | b :: _ =>
    let l := (b.faults.filter (faultDecided b))
      ++ c.reqs.filterMap fun r => if r.seq = b.seq then (match r.st with | .bad x => some (r.slot, x) | _ => none) else none
    let slots := (List.range 6).filter fun k => l.any fun f => decide (f.1 = k)
    match slots with
    | [] => none
    | k :: _ => (l.find? fun f => decide (f.1 = k)).map fun f => (b.pc, (slots.map fun i => 2 ^ i).sum, bundleDetail b k f.2)

/-- What an engine's run fault records (18 R402). -/
def engineDetail (tile : Tile) (e : Nat) (t : Trap) : Trap :=
  let x := engGet tile e
  if t.cause = causeConflict ∨ t.cause = causeConflictCapacity then { t with d2 := progWord x }
  else { t with d0 := progWord x, d1 := statusWord tile e ||| (t.d1 &&& 0x8000000000000000#64) }

/-- The agents of a tile that trap now (18 R397 to R399). -/
def tileDue (s : State) (tile : Nat) : List Due :=
  let t := tileGet s tile
  let core : List Due := match t.core.fault with
    | some (pc, _, x) => [⟨tile, identOf 0 0 tile, 0, pc, marginDetail s tile x⟩]
    | none => match headTrap t.core with
      | some (pc, mask, x) => [⟨tile, identOf 0 0 tile, mask, pc, marginDetail s tile x⟩]
      | none => []
  core ++ (List.range 10).filterMap fun e =>
    let x := engGet t e
    x.fault.map fun y => ⟨tile, engIdent tile e, 0, corePc t.core, marginDetail s tile (engineDetail t e y)⟩

/-- An alarm or a margin-class error on a tile is counted, and the safe voltage is to be restored (19 R441, R443). -/
def govCount (s : State) (tile : Nat) : State :=
  let t := tileGet s tile
  let s := if t.gov.alarms < 65535 then noteCount s (tileReg tile 0x50) 1 else s
  tilePut s tile { t with gov := { t.gov with alarms := min 65535 (t.gov.alarms + 1), restore := t.gov.restore + 1 } }

/-- A silent-error alarm on a tile: it ends pinned mode too (19 R424, R441). -/
def govAlarm (s : State) (tile : Nat) : State :=
  let s := govCount s tile
  let t := tileGet s tile
  tilePut s tile { t with gov := { t.gov with ctl := t.gov.ctl &&& ~~~0x10000#64 } }

/-- The head bundles of a tile that can commit do; an atomic that has been performed is not performed again after the stop
(18 R397, R411). -/
def settle (s : State) (tile : Nat) : State :=
  let mates (s : State) : State :=
    let c := coreGet s tile
    match c.window with
    | b :: _ =>
      if c.reqs.any fun r => decide (r.seq = b.seq) && decide (r.kind = .atomic) && reqSent r then
        corePut s tile { c with reqs := c.reqs.map fun r => if r.seq = b.seq ∧ reqWrites r then { r with go := true } else r }
      else s
    | [] => s
  (List.range 16).foldl (fun s _ => commitBundle false tile (mates s)) s

/-- The core of a tile stops, and a freeze ends; its arrays stop at unit boundaries (05 R122; 13 R309; 18 R397, R411). -/
def stopTile (cause mask : Nat) (s : State) (tile : Nat) : State :=
  let c := coreGet s tile
  let seq := match c.window with | b :: _ => b.seq | [] => c.nextSeq
  let s1 := undoTile s tile seq
  let s1 := mxStop (mxStop s1 tile 0) tile 1
  let t := tileGet s1 tile
  tilePut s1 tile { t with core := takeStop t.core cause mask 2, halted := true, frzNs := frozenNs s1 t, walkBad := [] }

/-- The address that an uncorrectable error names (18 R402, 19 R430). -/
def badAddr (x : Trap) : Nat := (if x.d0 = 0 ∨ x.d2 ≠ 0 then x.d2 else x.d0).toNat

/-- Where an uncorrectable error lies: 0 in a pool, 1 in HBM, 2 in a die cache that holds its granule (19 R437). -/
def badWhere (s : State) (x : Trap) : Nat :=
  let g := badAddr x / 64
  if badAddr x < 2 ^ 32 ∧ !granBad s g then 0
  else if s.dies.any fun d => d.2.cached.contains g then 2 else 1

/-- A host's report of an uncorrectable error of its node, which lies at `at'` (19 R437). -/
def rasReport (s : State) (n : Nat) (nd : Node) (at' : Nat) (x : Trap) (stop : Bool) (retries : Nat) : State :=
  let h := hostGet s nd.host
  let margin := x.d1.getLsbD 63
  let last := n * 2 ^ 40 + boolNat margin * 2 ^ 39 + at' * 2 ^ 37 + boolNat stop * 2 ^ 36 + retries % 16 * 2 ^ 32
  let rq := natBits h.rasCnt.toNat 32 32
  let st := natBits h.rasCnt.toNat 0 32
  let cnt := if stop then rq * 2 ^ 32 + min (2 ^ 32 - 1) (st + 1) else min (2 ^ 32 - 1) (rq + 1) * 2 ^ 32 + st
  let s := noteCount s (hostReg nd.host 0x1090) (cnt - h.rasCnt.toNat)
  hostPut s nd.host { h with rasLast := BitVec.ofNat 64 last, rasAddr := BitVec.ofNat 64 (badAddr x), rasCnt := BitVec.ofNat 64 cnt }

/-- The tile at which an uncorrectable error arose: that of the pool it names, or the reader's (19 R430, R435). -/
def badTile (d : Due) : Nat :=
  let a := badAddr d.trap
  if a < 2 ^ 32 ∧ natBit a 31 then natBits a 23 8 else d.tile

/-- Remembers the pool codeword of an uncorrectable error on the tile that holds it, and counts a margin-class one
(19 R430, R441, R443). -/
def noteBad (s : State) (d : Due) : State :=
  if d.trap.cause ≠ causeUncorrectable then s
  else
    let a := badAddr d.trap
    let tile := badTile d
    let off := natBits a 0 23
    if a < 2 ^ 32 ∧ cwBad s tile (off / 256) (off / 2 % 4) then
      let s := noteFound s tile off
      if d.trap.d1.getLsbD 63 then govCount s tile else s
    else s

/-- A node that still holds an ASID's touched-dies mask (18 R420). -/
def holdsMask (nd : Node) : Bool :=
  match nd.st with
  | .placed | .running | .yielding | .preempted | .stopped | .saved | .retiring => true
  | _ => false

/-- The mask of an ASID ends with its last such node (18 R420). -/
def dropTouched (s : State) (asid : Nat) : State :=
  if s.nodes.any fun x => holdsMask x.2 && decide (nodeAsid x.2 = asid) then s else { s with touched := mapDel s.touched asid }

/-- Zeros over the codewords of a tile's pool that were found uncorrectable (19 R430): 64 data bytes, two of each eight of
the line. -/
def zeroFound (s : State) (tile : Nat) : State :=
  let t := tileGet s tile
  let s1 := t.found.foldl (fun s k =>
    let s := { s with symErr := mapDel s.symErr (cwKey tile (k / 4) (k % 4)) }
    let t := tileGet s tile
    tilePut s tile { t with pool := t.pool.filter fun c => !(decide (c.1 / 256 = k / 4) && decide (c.1 / 2 % 4 = k % 4)) }) s
  tilePut s1 tile { tileGet s1 tile with found := [] }

/-- What stays of a core when its node leaves the tile: ticks and clock, dictionary frames, TLB (03 R66; 05 R97). -/
def coreLeft (c : Core) : Core :=
  { coreReset with ticks := c.ticks, frames := c.frames, tlb := c.tlb, energy := c.energy, nextSeq := c.nextSeq,
                   replay := c.replay, stretch := c.stretch, stage := c.stage, ticked := c.ticked }

/-- A tile is freed (18 R407, R422): waiters of other nodes on its registers wake spuriously, its own wait entries become free (16 R365,
R368, R369). -/
def freeTile (s : State) (tile : Nat) : State :=
  let s := zeroFound s tile
  let gone := s.waits.filter fun w => decide (w.tile = tile)
  let s := { s with waits := s.waits.filter fun w => decide (w.tile ≠ tile) }
  let t := tileGet s tile
  let s := offerFreed gone (tilePut s tile { t with creel := [] })
  let s := leaseEnd (withdrawWaits s tile) tile
  let t := tileGet s tile
  let d := dieGet s (dieOf tile)
  let s := diePut s (dieOf tile) { d with missQ := d.missQ.filter fun m => decide (m.1 ≠ tile) }
  tilePut s tile { t with
    core := coreLeft t.core, running := none, creel := [], node := none, packId := 0, packParent := 0, packLevel := 0,
    packRank := 0, packSize := 1, packStack := [], wmarks := [], reels := [], engines := [], drains := [], leaseQ := [],
    yreqPosted := false, yreqSeq := 0, yreqUntil := 0, stealNext := 0, stealFails := 0, stewardAsked := false,
    halted := false, frzNs := 0, walkBad := [] }

/-- What stays of an agent when its node ends: the time of a core agent, so that a later one of its number is told apart
(17 R377, R388). -/
def agentLeft (n : Nat) (x : Nat × Agent) : Option (Nat × Agent) :=
  if x.2.node ≠ n then some x
  else if x.1 < 2 ^ 23 then some (x.1, { x.2 with vc := [(x.1, vcGet x.2.vc x.1)], frel := none, qacq := [] })
  else none

/-- The node's tiles, packs, slots, agents, conflict records and standby leases go (18 R407, R422; 12 R288, R290). -/
def freeNode (s : State) (n : Nat) : State :=
  match nodeGet? s n with
  | none => s
  | some nd =>
    let s := nd.tiles.foldl freeTile s
    let s := dropRecords s n
    let s := nodePut s n { nd with tiles := [], slots := [], saving := none, restoring := false }
    { s with
      packs := s.packs.filter (fun p => decide (p.2.node ≠ n)),
      agents := s.agents.filterMap (agentLeft n),
      saved := s.saved.filter (fun x => !nd.slots.contains x.1),
      tiles := s.tiles.map fun t => (t.1, { t.2 with standby := t.2.standby.filter fun x => decide (x.2.node ≠ n) }) }

/-- Where the output extents of a node lie in memory, page by page (02 R46; 19 R435). -/
def outPlaces (s : State) (nd : Node) : List (Nat × Nat) :=
  nd.outs.flatMap fun e =>
    let last := (e.1 + e.2 + 65535) / 65536
    (List.range (last - e.1 / 65536)).filterMap fun i =>
      let page := e.1 / 65536 + i
      let lo := max e.1 (page * 65536)
      match (walkTables s (nodeAsid nd) page).1 with
      | .leaf w bits =>
        let pa := entPa ⟨nodeAsid nd, page * 65536 / 2 ^ bits, bits, w⟩ lo
        some (pa, pa + (min (e.1 + e.2) ((page + 1) * 65536) - lo))
      | _ => none

/-- The dirty cache lines inside a node's output extents are invalidated without write-back; the bytes keep what the discarded run
wrote, as they may (19 R435, R436). -/
def dropOutputs (s : State) (nd : Node) : State :=
  if s.dies.all fun d => d.2.dirty.isEmpty then s
  else
    let places := outPlaces s nd
    let out (g : Nat) : Bool := places.any fun p => decide (p.1 ≤ g * 64) && decide (g * 64 + 64 ≤ p.2)
    { s with dies := s.dies.map fun d =>
      let gone := d.2.dirty.filter out
      (d.1, { d.2 with cached := d.2.cached.filter (fun g => !gone.contains g), dirty := d.2.dirty.filter (fun g => !out g) }) }

/-- The re-queue of a restartable node: everything of it is discarded, dirty lines of its outputs lose their dirty state, and
it waits to be placed afresh (19 R435). -/
def requeue (s : State) (n : Nat) (nd : Node) (margin : Bool) (tile : Nat) : State :=
  let s := freeNode (dropOutputs s nd) n
  nodePut s n { nd with st := .preempted, tiles := [], slots := [], saving := none, restoring := false, requeue := true, since := timeOf s, order := s.nextOrder,
                        retries := nd.retries + boolNat (!margin), avoid := if margin then some tile else none }

/-- The stop of a node with the agents that trap (18 R399, R411; 19 R435). -/
def stopNode (s : State) (n : Nat) (l : List Due) : State :=
  match nodeGet? s n with
  | none => s
  | some nd =>
    let s := l.foldl noteBad s
    let alarms (s : State) : State := l.foldl (fun s d =>
      if d.trap.cause = causeResidue ∨ d.trap.cause = causeSilentError then govAlarm s d.tile else s) s
    let bad := l.find? fun d => decide (d.trap.cause = causeUncorrectable)
    let again := match bad with
      | some d => nd.restart && (d.trap.d1.getLsbD 63 || decide (nd.retries < s.mgmt.rqLim))
      | none => false
    match bad, again with
    | some d, true =>
      let margin := d.trap.d1.getLsbD 63
      let s1 := requeue (alarms s) n nd margin (badTile d)
      rasReport { s1 with nextOrder := s1.nextOrder + 1 } n nd (badWhere s d.trap) d.trap false (nd.retries + boolNat (!margin))
    | _, _ =>
      let cause := (l.head?.map (·.trap.cause)).getD 0
      let s := nd.tiles.foldl settle s
      let s := l.foldl (fun s d => nodeRec s n d.tile d.agent d.mask d.pc d.trap) s
      let s := alarms s
      let s := match bad with | some d => rasReport s n nd (badWhere s d.trap) d.trap true nd.retries | none => s
      let s := nd.tiles.foldl (fun s tile =>
        stopTile cause (((l.find? fun d => decide (d.tile = tile)).map (·.mask)).getD 0) s tile) s
      match nodeGet? s n with
      | some nd => nodePut s n { nd with st := .stopped, lastCause := cause }
      | none => s

/-- A psplit that waits in its slot in a pack whose tiles carry different values of j has raised pack-mismatch too (07 R158). -/
def standSplit (s : State) (tile : Nat) : State :=
  let t := tileGet s tile
  match packGet? s t.packId, slotNext? t.core 0 with
  | some p, some b =>
    if p.arrived.contains (tile, splitMark) then
      raiseAt (packPut s { p with arrived := p.arrived.filter fun x => decide (x.1 ≠ tile) }) tile b.seq 0 (trapOf causePackMismatch)
    else s
  | _, _ => s

/-- The stop that begins at a tile: every agent of its node that traps now writes its record, in ascending tile order
(18 R399). A tile without a node only stops. -/
def stopAt (s : State) (tile : Nat) (more : List Due) : State :=
  match (tileGet s tile).node with
  | some n =>
    let tiles := ((nodeGet? s n).map (·.tiles)).getD []
    let s := tiles.foldl standSplit s
    stopNode s n (tiles.flatMap fun x => (more.filter fun d => decide (d.tile = x)) ++ tileDue s x)
  | none => stopTile (((more ++ tileDue s tile).head?.map (·.trap.cause)).getD 0) 0 s tile

/-- The core of a tile may take a trap: it is not stopped, frozen or held by the frequency stop. -/
def trapOpen (s : State) (tile : Nat) : Bool :=
  let t := tileGet s tile
  t.running.isSome && !t.halted && t.core.frozen.isNone && !s.clockStop

/-- PRECISE_TRAP (18 R397). -/
def preciseTrap (tile : Nat) (s : State) : State :=
  if trapOpen s tile && (headTrap (coreGet s tile)).isSome then stopAt s tile [] else s

/-- IN_FLIGHT_FAULT (18 R398). -/
def inFlightFault (tile : Nat) (s : State) : State :=
  let t := tileGet s tile
  if !t.halted && t.core.fault.isSome then stopAt s tile [] else s

/-- Tiles with an engine whose run fault waits to be taken. -/
def runFaults (s : State) : List Nat :=
  s.tiles.filterMap fun x => if !x.2.halted && x.2.engines.any fun e => e.2.fault.isSome then some x.1 else none

/-- ENGINE_RUN_FAULT (11 R266, 18 R398). -/
def runFault (s : State) : State :=
  match pickTurn s (runFaults s) with
  | some tile => stopAt s tile []
  | none => s

/-- Freezes whose watchdog has run out: 2^22 cycles (05 R121). -/
def lateFreezes (s : State) : List (Nat × Freeze) :=
  s.tiles.filterMap fun x => match x.2.core.frozen with
    | some f => if 2 ^ 22 ≤ f.cycles ∧ !x.2.halted then some (x.1, f) else none
    | none => none

/-- FREEZE_WATCHDOG_EXPIRY (05 R121, R122). -/
def freezeTimeout (s : State) : State :=
  match pickTurn s (lateFreezes s) with
  | none => s
  | some (tile, f) =>
    let t := tileGet s tile
    let s1 := tilePut s tile { t with frzNs := frozenNs s t, core := { t.core with frozen := none } }
    stopAt s1 tile [⟨tile, identOf 0 0 tile, 0, corePc t.core, trapAt causeFreezeTimeout f.addr (BitVec.ofNat 64 (2 ^ 22))⟩]

/-- A precise trap is taken (18 R397). -/
def execPreciseTrap (tile : BitVec 8) (s : State) : Out := .next (preciseTrap tile.toNat s)

/-- A fault after commit is taken (18 R398). -/
def execInFlightFault (tile : BitVec 8) (s : State) : Out := .next (inFlightFault tile.toNat s)

/-- A run fault of an engine stops its node (11 R266). -/
def execEngineRunFault (s : State) : Out := .next (runFault s)

/-- A freeze has lasted too long (05 R121). -/
def execFreezeWatchdogExpiry (s : State) : Out := .next (freezeTimeout s)

end Sys2Proof.Machine
end

