-- ==== Sys2Proof/Machine/Launch.lean ====
section
/-! DEFINITION. Launch queues, launch records and images: their registers, reads and checks, rejections, dependences and
impossible candidates (02 R25 to R38, R42, R45, R46; 14 R313, R314). -/

namespace Sys2Proof.Machine

open Sys2Proof

/-- The tables' mapping of `n` bytes at a virtual address, one piece for each leaf: the dispatcher's own translation (02 R34,
10 R238). -/
def vPieces (s : State) (asid : Nat) (wr : Bool) : Nat → Nat → Nat → EngOut (List (Nat × Nat))
  | 0, _, n => if n = 0 then .ok [] else .bad (trapOf causeAccessTranslation)
  | fuel + 1, va, n =>
    if n = 0 then .ok []
    else if 2 ^ 52 < va + n then .bad (trapOf causeBadAddress)
    else match (walkTables s asid (va / 65536)).1 with
      | .mig => .wait none
      | .bad c => .bad (trapOf c)
      | .leaf w bits =>
        let e : TlbEnt := ⟨asid, va / 2 ^ bits, bits, w⟩
        let k := min n (2 ^ bits - va % 2 ^ bits)
        if permBad e va k (!wr) wr then .bad (trapOf causeAccessPermission)
        else engThen (vPieces s asid wr fuel (va + k) (n - k)) fun l => .ok ((entPa e va, k) :: l)

/-- The mapping of `n` bytes at a virtual address. -/
def vMap (s : State) (asid : Nat) (wr : Bool) (va n : Nat) : EngOut (List (Nat × Nat)) :=
  vPieces s asid wr (n / 65536 + 2) va n

/-- `n` bytes at a device physical address can be read by the part: sound device memory, or the memory of a host whose link is
up (02 R37). -/
def partReads (s : State) (pa n : Nat) : Bool :=
  match homeOf pa, homeOf (pa + n - 1) with
  | .stack _, .stack _ => inHbm pa n && (memReadTrap s pa n).isNone
  | .port a, .port b => decide (a = b) && (hostGet s a).linkUp
  | _, _ => false

/-- `n` bytes at a virtual address, read by the dispatcher. -/
def vRead (s : State) (asid va n : Nat) : EngOut (List Byte) :=
  engThen (vMap s asid false va n) fun l =>
    if l.all fun x => partReads s x.1 x.2 then .ok (l.flatMap fun x => devBytes s x.1 x.2) else .bad (trapOf causeLineLost)

/-- A launch queue of a host. -/
def lqGet (s : State) (h level : Nat) : LaunchQ := mapGet (hostGet s h).lq level lqReset

/-- Puts a launch queue back. -/
def lqPut (s : State) (h level : Nat) (q : LaunchQ) : State :=
  let x := hostGet s h
  hostPut s h { x with lq := mapPut x.lq level q }

/-- Hardware sets bits of a queue's LQ_STAT (00 R7, 02 R36). -/
def lqNote (h level bits : Nat) (s : State) : State := noteBits s (hostReg h (0x40 * level + 0x20)) bits

/-- Records that a queue's ring holds (02 R36). -/
def lqSize (q : LaunchQ) : Nat := 2 ^ natBits q.ctl.toNat 0 5

/-- Records between head and tail (02 R35). -/
def lqUsed (q : LaunchQ) : Nat := (q.tail + 2 ^ 32 - q.head) % 2 ^ 32

/-- The dispatcher consumes the queue (02 R36, R37). -/
def lqOpen (q : LaunchQ) : Bool := q.ctl.getLsbD 8 && decide (lqUsed q ≤ lqSize q)

/-- A write of LQ_STAT clears what it names (02 R36). -/
def lqStatWrite (h level : Nat) (v : Word) (s : State) : State :=
  let q := lqGet s h level
  lqPut s h level { q with fetch := q.fetch && !v.getLsbD 3, ctlerr := q.ctlerr && !v.getLsbD 2, overflow := q.overflow && !v.getLsbD 1 }

/-- A node's record at the head of its queue is eligible, or held when served (02 R60). -/
def headEligible (nd : Node) : Bool := decide (nd.st = .eligible) || decide (nd.st = .held)

/-- LQ_STAT (02 R36): blocked while there is a head record and it is not eligible, also one not read yet (02 R38). -/
def lqStat (s : State) (q : LaunchQ) : Nat :=
  let eligible := match q.headNode.bind (nodeGet? s) with
    | some nd => headEligible nd
    | none => false
  let blocked := decide (q.head ≠ q.tail) && !eligible
  boolNat q.fetch * 8 + boolNat q.ctlerr * 4 + boolNat q.overflow * 2 + boolNat blocked

/-- Fields of a control word (02 R31). -/
def ctlPack (c : Word) : Nat := natBits c.toNat 40 4
def ctlDeps (c : Word) : Nat := natBits c.toNat 17 3
def ctlIns (c : Word) : Nat := natBits c.toNat 14 3
def ctlOuts (c : Word) : Nat := natBits c.toNat 11 3
def ctlDie (c : Word) : Bool := c.getLsbD 38

/-- Tiles of a node's pack (02 R31). -/
def packSize (nd : Node) : Nat := 2 ^ ctlPack nd.ctl

/-- Tiles of live dies that no mark has retired (19 R427). -/
def goodTiles (s : State) : List Nat := (List.range 256).filter fun t => !(dieGet s (dieOf t)).lost && !(tileGet s t).retired

/-- A candidate that can never be placed as things stand (02 R34, R45). -/
def impossible (s : State) (nd : Node) : Bool :=
  let good := goodTiles s
  let n := packSize nd
  decide (good.length < n) || decide (s.mgmt.csaCnt < n)
    || (ctlDie nd.ctl && !(List.range 8).any fun d => decide (n ≤ (good.filter fun t => decide (dieOf t = d)).length))

/-- A state in which a node no longer counts (02 R46, R60). -/
def nodeGone (nd : Node) : Bool :=
  match nd.st with
  | .done | .rejected | .killed => true
  | _ => false

/-- Some queue still stands at a node's record. -/
def isHead (s : State) (n : Nat) : Bool := s.hosts.any fun h => h.2.lq.any fun q => decide (q.2.headNode = some n)

/-- The lowest node number that is free (02 R46). -/
def freeNodeNum (s : State) : Option Nat :=
  (List.range 4096).find? fun n => match nodeGet? s n with
    | none => true
    | some nd => nodeGone nd && !isHead s n

/-- The header's fields: offset and bytes (02 R25). -/
def hdrFields : List (Nat × Nat) :=
  [(0x00, 4), (0x04, 2), (0x06, 2), (0x08, 8), (0x10, 4), (0x14, 4), (0x18, 4), (0x1C, 2), (0x1E, 2), (0x20, 4), (0x24, 4),
   (0x28, 4), (0x2C, 4), (0x30, 4), (0x34, 4), (0x38, 4), (0x3C, 4), (0x40, 4), (0x44, 4)]

/-- A header read from its 128 bytes. -/
def hdrOf (bs : List Byte) : NMap Nat := hdrFields.map fun f => (f.1, leNat ((bs.drop f.1).take f.2))

/-- A field of a header. -/
def hf (h : NMap Nat) (off : Nat) : Nat := mapGet h off 0

/-- The sections of an image: offset and bytes (02 R25, R26). -/
def hdrSections (h : NMap Nat) : List (Nat × Nat) :=
  [(hf h 0x18, 48 * hf h 0x1C), (hf h 0x20, 2 * hf h 0x24), (hf h 0x28, hf h 0x2C), (hf h 0x30, 64 * hf h 0x34),
   (hf h 0x38, 8 * hf h 0x3C), (hf h 0x40, 16 * hf h 0x44)]

/-- A reel declaration (02 R26). -/
structure ReelDecl where
  word : Nat
  init : Nat
deriving DecidableEq, Repr

/-- The declarations that a section holds. -/
def declsOf (bs : List Byte) (n : Nat) : List ReelDecl :=
  (List.range n).map fun i => ⟨leNat ((bs.drop (16 * i)).take 8), leNat ((bs.drop (16 * i + 8)).take 8)⟩

/-- The register that a declaration sets, its ceiling, and whether it binds. -/
def declReg (d : ReelDecl) : Nat := natBits d.word 0 8
def declCeil (d : ReelDecl) : Nat := natBits d.word 16 8
def declBound (d : ReelDecl) : Bool := natBit d.word 8

/-- A faulty set of declarations (02 R26). -/
def declsBad (l : List ReelDecl) : Bool :=
  let initOf (k : Nat) : Nat := ((l.find? fun d => decide (declReg d = k)).map (·.init)).getD 0
  l.any fun d => decide (natBits d.word 24 8 ≠ 0) || decide (natBits d.word 9 7 ≠ 0)
    || decide (1 < (l.filter fun x => decide (declReg x = declReg d)).length)
    || (declBound d && (decide (declCeil d = declReg d) || decide (initOf (declCeil d) + natBits d.word 32 32 < d.init)))

/-- The operand bits that a micro-instruction uses (14 R320), or none for an opcode that is not assigned (04 R91). -/
def dnUsed (op : Nat) : Option Nat :=
  let d := 0x06000000
  let a := 0x01E00000
  let b := 0x001E0000
  let c := 0x0001E000
  let rnd := 0x00001C00
  let fzi := 0x00000200
  let fz := 0x00000300
  let mode := 0x00000080
  match op with
  | 0x00 | 0x13 => some 0
  | 0x01 | 0x02 => some (d + a + b + rnd + fz)
  | 0x03 => some (d + a + b + c + rnd + fz)
  | 0x04 | 0x05 => some (d + a + b + fzi)
  | 0x06 | 0x07 => some (d + a + b + c + fzi)
  | 0x08 | 0x09 => some (d + a + rnd + fz + mode)
  | 0x0A | 0x0B => some (d + a + rnd + fz)
  | 0x0C => some (d + a + b + c)
  | 0x0D => some (a + b + mode)
  | 0x0E => some (d + a + b + 0x00010000 + rnd + fz + mode)
  | 0x0F => some a
  | 0x10 => some (a + 0x00100000)
  | 0x11 => some (a + 0x00180000)
  | 0x12 => some 7
  | _ => none

/-- A source code that names nothing (14 R316). -/
def dnSrcBad (code : Nat) : Bool := decide (5 ≤ code) && decide (code ≤ 7)

/-- A micro-instruction that the load check refuses (04 R91; 14 R314, R320). -/
def dnWordBad (w : Nat) : Bool :=
  let op := dnOp w
  match dnUsed op with
  | none => true
  | some used =>
    let has (m : Nat) : Bool := decide (used &&& m = m)
    decide (w % 2 ^ 27 &&& used ≠ w % 2 ^ 27)
      || (has 0x01E00000 && dnSrcBad (natBits w 21 4))
      || (has 0x001E0000 && decide (op ≠ 0x0E) && dnSrcBad (natBits w 17 4))
      || (has 0x0001E000 && dnSrcBad (natBits w 13 4))
      || (has 0x00001C00 && decide (natBits w 10 3 = 6))
      || (decide (op = 0x0E) && (match fmtOf (natBits w 17 4) with | .i64 | .n64 | .f64 | .e8m0 => true | _ => false))
      || (decide (op = 0x11) && decide (natBits w 19 2 = 3))
      || (decide (op = 0x12) && decide (w % 8 = 7))
      || (decide (op = 0x0D) && decide (natBits w 17 4 < 8))

/-- A drain program that fails its load check (02 R29; 04 R91; 14 R314). -/
def dnProgBad (l : List Nat) : Bool :=
  let run := l.takeWhile fun w => decide (dnOp w ≠ 0x13)
  let rest := l.drop run.length
  rest.isEmpty || run.any dnWordBad || (rest.head?.map dnWordBad).getD true || (rest.drop 1).any (fun w => decide (w ≠ 0))
    || decide (1 < (run.filter fun w => decide (dnOp w = 0x11)).length)

/-- The sixteen words of each program of a section. -/
def progsOf (bs : List Byte) (n : Nat) : List (List Nat) :=
  (List.range n).map fun i => (List.range 16).map fun k => leNat ((bs.drop (64 * i + 4 * k)).take 4)

/-- The 256 bytes of a launch record as 64-bit words. -/
def recWords (bs : List Byte) : List Nat := (List.range 32).map fun i => leNat ((bs.drop (8 * i)).take 8)

/-- The node that a record describes, before its checks (02 R30, R31). -/
def recNode (h level addr idx : Nat) (w : List Nat) : Node :=
  let g (i : Nat) : Nat := w.getD i 0
  let c := BitVec.ofNat 64 (g 1)
  let pairs (from' n : Nat) : List (Nat × Nat) := (List.range n).map fun i => (g (from' + 2 * i), g (from' + 2 * i + 1))
  { st := .queued, host := h, level, image := g 0, ctl := c, param := g 2 % 2 ^ 52, paramlen := g 2 / 2 ^ 52,
    completion := g 3, deps := (pairs 4 (min 6 (ctlDeps c))).map fun x => (x.1, BitVec.ofNat 64 x.2),
    ins := pairs 16 (min 4 (ctlIns c)), outs := pairs 24 (min 4 (ctlOuts c)), hdr := [], restart := c.getLsbD 36, retries := 0,
    pack := 0, tiles := [], slots := [], recAddr := addr, qIndex := idx, since := 0, order := 0, lastCause := 0,
    diesLost := false, requeue := false, avoid := none, conflictBy := none, saving := none, restoring := false, acq := [],
    reels0 := [], lift := 0 }

/-- bad-record (02 R30, R31, R34, R35). -/
def recBad (s : State) (nd : Node) (w : List Nat) : Bool :=
  let c := nd.ctl
  let g (i : Nat) : Nat := w.getD i 0
  let unused (from' used all : Nat) : Bool := (List.range all).any fun i =>
    decide (used ≤ i) && (decide (g (from' + 2 * i) ≠ 0) || decide (g (from' + 2 * i + 1) ≠ 0))
  let high (x : Nat) : Bool := decide (2 ^ 52 ≤ x)
  decide (natBits c.toNat 60 4 ≠ 1) || decide (6 < ctlDeps c) || decide (4 < ctlIns c) || decide (4 < ctlOuts c)
    || decide (23 < nodePrio nd) || decide (8 < ctlPack c) || c.getLsbD 39 || (ctlDie c && decide (5 < ctlPack c))
    || decide (nodePrio nd ≠ nd.level) || !hostOwns s nd.host (nodeAsid nd)
    || unused 4 (ctlDeps c) 6 || unused 16 (ctlIns c) 4 || unused 24 (ctlOuts c) 4
    || high nd.image || high nd.completion || nd.deps.any (fun x => high x.1) || nd.ins.any (fun x => high x.1)
    || nd.outs.any (fun x => high x.1) || decide (nd.param % 64 ≠ 0) || (decide (nd.paramlen = 0) && decide (nd.param ≠ 0))

/-- bad-image, as far as the header tells (02 R25, R34). R25 gives dictcount from 1 and constlen as a multiple of 64 and no
cause for others; they are refused here too (DEDUCED, log entry 41). -/
def hdrBad (base : Nat) (bs : List Byte) (h : NMap Nat) : Bool :=
  decide (base % 4096 ≠ 0) || decide (hf h 0 ≠ 0x4D493946) || decide (hf h 4 ≠ 1) || decide (hf h 6 = 0) || decide (hf h 6 = 0xFFFF)
    || decide (hf h 0x1C = 0) || decide (32768 < hf h 0x1C) || decide (hf h 0x1E ≠ 0) || decide (64 < hf h 0x34)
    || decide (2048 < hf h 0x3C) || decide (256 < hf h 0x44) || decide (hf h 0x24 = 0) || decide (hf h 0x2C % 64 ≠ 0)
    || decide (hf h 0x24 ≤ hf h 0x14) || (bs.drop 0x48).any (fun b => decide (b ≠ 0))
    || (hdrSections h).any fun x => decide (x.1 % 64 ≠ 0)

/-- bad-partition (02 R27). -/
def partBad (h : NMap Nat) : Bool :=
  let p := hf h 8
  let acc := natBits p 4 4
  let q := natBits p 0 4
  decide (p / 256 ≠ 0) || decide (acc < 4) || decide (12 < acc) || decide (q < 1) || decide (8 < q)
    || decide (6291456 < 262144 * acc + 65536 * q + hf h 0x2C)

/-- What the check of a reel address finds: its DPA, bad-reel, or a translation that fails (02 R34). -/
def reelFind (s : State) (asid va : Nat) (wr : Bool) : EngOut Nat :=
  if va % 8 ≠ 0 then .bad (trapOf causeBadReel)
  else match (walkTables s asid (va / 65536)).1 with
    | .mig => .wait none
    | .bad _ => .bad (trapOf causeLaunchTranslation)
    | .leaf w bits =>
      let e : TlbEnt := ⟨asid, va / 2 ^ bits, bits, w⟩
      if !leafReel w then .bad (trapOf causeBadReel)
      else if permBad e va 8 true wr then .bad (trapOf causeLaunchTranslation)
      else .ok (entPa e va)

/-- The worst of several reel checks: bad-reel first (02 R34). -/
def reelFinds (l : List (EngOut Nat)) : Option (EngOut Nat) :=
  let of' (c : Nat) : Option (EngOut Nat) := l.find? fun x => match x with | .bad t => decide (t.cause = c) | _ => false
  let waits : Option (EngOut Nat) := l.find? fun x => match x with | .wait _ => true | _ => false
  (of' causeBadReel).or (waits.or (of' causeLaunchTranslation))

/-- Replaces the fault of an act. -/
def engCause {α : Type} (c : Nat) : EngOut α → EngOut α
  | .bad _ => .bad (trapOf c)
  | x => x

/-- A test that rejects a record. -/
def engNeed (c : Nat) (bad : Bool) : EngOut Unit := if bad then .bad (trapOf c) else .ok ()

/-- Every mapping of a list can be had. -/
def engEach : List (EngOut (List (Nat × Nat))) → EngOut Unit
  | [] => .ok ()
  | x :: xs => engThen x fun _ => engEach xs

/-- The checks of a record, in the order of the table's causes: the node with its header, or the cause (02 R34). -/
def recCheck (s : State) (nd : Node) (w : List Nat) : EngOut Node :=
  let asid := nodeAsid nd
  engThen (engNeed causeBadRecord (recBad s nd w)) fun _ =>
  engThen (engNeed causeBadImage (decide (nd.image % 4096 ≠ 0))) fun _ =>
  engThen (engCause causeLaunchTranslation (vRead s asid nd.image 128)) fun bs =>
  let h := hdrOf bs
  engThen (engNeed causeBadImage (hdrBad nd.image bs h)) fun _ =>
  engThen (engCause causeBadImage (engEach ((hdrSections h).map fun x => vMap s asid false (nd.image + x.1) x.2))) fun _ =>
  engThen (engCause causeLaunchTranslation (vRead s asid (nd.image + hf h 0x40) (16 * hf h 0x44))) fun rs =>
  engThen (engNeed causeBadImage (declsBad (declsOf rs (hf h 0x44)))) fun _ =>
  engThen (engNeed causeBadPartition (partBad h)) fun _ =>
  engThen (engCause causeLaunchTranslation (vRead s asid (nd.image + hf h 0x30) (64 * hf h 0x34))) fun ps =>
  engThen (engNeed causeBadDrain ((progsOf ps (hf h 0x34)).any dnProgBad)) fun _ =>
  let reels := reelFinds ((nd.deps.map fun d => reelFind s asid d.1 false)
    ++ if nd.completion = 0 then [] else [reelFind s asid nd.completion true])
  let early := match reels with | some (.bad t) => decide (t.cause = causeBadReel) | _ => false
  engThen (engNeed causeBadReel early) fun _ =>
  engThen (engNeed causeNoPack (impossible s nd)) fun _ =>
  engThen (reels.getD (.ok 0)) fun _ =>
  engThen (engCause causeLaunchTranslation (vMap s asid false nd.param (64 * nd.paramlen))) fun _ => .ok { nd with hdr := h }

/-- A rejection: the head record stays the head until its fault record has been written (02 R34, 18 R404). -/
def reject (s : State) (n : Nat) (nd : Node) (cause : Nat) : State :=
  rejectRec (nodePut s n { nd with st := .rejected, deps := [] }) n nd cause

/-- The place of a queue's head record (02 R35, R36). -/
def lqAddr (h : Nat) (q : LaunchQ) : Nat :=
  let a := q.base.toNat / 256 * 256 + q.head % lqSize q * 256
  if q.base.getLsbD 0 then hostPa h a else a

/-- Queues whose head record may be read: host, level, node number (02 R38, R46). -/
def checkable (s : State) : List (Nat × Nat × Nat) :=
  match freeNodeNum s with
  | none => []
  | some n => (List.range 2).flatMap fun h => (List.range 24).filterMap fun l =>
      let q := lqGet s h l
      if lqOpen q && decide (q.head ≠ q.tail) && q.headNode.isNone then some (h, l, n) else none

/-- A dependence has reached its threshold: the place of its reel (02 R32). -/
def depMet (s : State) (asid : Nat) (d : Nat × Word) : Option ReelAt :=
  match reelFind s asid d.1 false with
  | .ok pa => if !frameFrozen s pa && partReads s pa 8 && decide (d.2.toNat ≤ (reelVal s (.mem pa)).toNat) then some (.mem pa) else none
  | _ => none

/-- Nodes that wait for their dependences, all of which are met, with the reels (02 R32). -/
def depReady (s : State) : List (Nat × List ReelAt) :=
  s.nodes.filterMap fun x =>
    if x.2.st = .queued ∨ x.2.st = .blocked then (x.2.deps.mapM (depMet s (nodeAsid x.2))).map fun l => (x.1, l) else none

/-- DEPENDENCE_MET: the node is eligible, and keeps what its dependences released (02 R32, R60). -/
def dependenceMet (s : State) : State :=
  match pickTurn s (depReady s) with
  | none => s
  | some (n, l) =>
    match nodeGet? s n with
    | none => s
    | some nd => nodePut s n { nd with st := .eligible, since := timeOf s, acq := l.flatMap fun r => mapGet s.releases (reelLoc r) [] }

/-- The queue that a node's record heads. -/
def headQueue (s : State) (n : Nat) (nd : Node) : Option LaunchQ :=
  let q := lqGet s nd.host nd.level
  if q.headNode = some n then some q else none

/-- The level that a head record counts at (02 R42). -/
def headLevel (q : LaunchQ) (nd : Node) : Nat :=
  if q.ctl.getLsbD 9 then min 23 (nd.level + min nd.lift (natBits q.ctl.toNat 32 2)) else nd.level

/-- The head record of a queue that counts at a level: an eligible or held one of an enabled queue (02 R39, R42, R60). -/
def headAt (s : State) (h l level : Nat) : Option (Nat × Node) :=
  let q := lqGet s h l
  if !lqOpen q then none
  else match q.headNode with
    | none => none
    | some n => (nodeGet? s n).bind fun nd =>
      if headEligible nd ∧ headLevel q nd = level ∧ !impossible s nd then some (n, nd) else none

/-- A host's candidates of a level: its own queue's head, then heads lifted there, from the nearest level down (02 R42). -/
def headsAt (s : State) (h level : Nat) : List (Nat × Node) :=
  ((List.range (level + 1)).reverse).filterMap fun l => headAt s h l level

/-- The next head of a host's queue is still to be read or found eligible: the decision waits for it. -/
def headPending (s : State) (h level : Nat) : Bool :=
  let q := lqGet s h level
  lqOpen q && decide (q.head ≠ q.tail) && (match q.headNode with
    | none => (freeNodeNum s).isSome
    | some n => (depReady s).any fun x => decide (x.1 = n))

/-- Changes a host's deficit at a level. -/
def drrSet (s : State) (h level d : Nat) : State := lqPut s h level { lqGet s h level with deficit := d }

/-- The deficit of a host with no eligible head at a level returns to 0; a head that is still to be read or found eligible leaves
it (02 R40). -/
def drrClear (s : State) (level : Nat) : State :=
  (List.range 2).foldl (fun s h =>
    if (lqGet s h level).deficit ≠ 0 ∧ (headsAt s h level).isEmpty ∧ !headPending s h level then drrSet s h level 0 else s) s

/-- The deficits of every level, after a change of the queues (02 R40). -/
def drrRest (s : State) : State := (List.range 24).foldl drrClear s

/-- A doorbell write (02 R37). -/
def lqTailWrite (h level : Nat) (v : Word) (s : State) : State :=
  let q := { lqGet s h level with tail := v.toNat % 2 ^ 32 }
  if lqSize q < lqUsed q then drrRest (lqNote h level 2 (lqPut s h level { q with overflow := true, ctl := q.ctl &&& ~~~0x100#64 }))
  else drrRest (lqPut s h level q)

/-- A write of LQ_CTL (02 R37). -/
def lqCtlWrite (h level : Nat) (v : Word) (s : State) : State :=
  let q := lqGet s h level
  let n := v.toNat
  let size := natBits n 0 5
  let bad := decide (size < 4) || decide (16 < size) || decide (natBits n 32 2 = 3) || (natBit n 9 && decide (natBits n 16 16 = 0))
    || (q.ctl.getLsbD 8 && decide (q.head ≠ q.tail) && decide (size ≠ natBits q.ctl.toNat 0 5))
  if bad then lqNote h level 4 (lqPut s h level { q with ctlerr := true })
  else drrRest (lqPut s h level { q with ctl := v &&& 0x3FFFF031F#64 })

/-- A write of LQ_BASE (02 R37). -/
def lqBaseWrite (h level : Nat) (v : Word) (s : State) : State :=
  let q := lqGet s h level
  let w := v &&& 0xFFFFFFFFFFFFFF01#64
  if q.ctl.getLsbD 8 && decide (q.head ≠ q.tail) && decide (w ≠ q.base) then lqNote h level 4 (lqPut s h level { q with ctlerr := true })
  else lqPut s h level { q with base := w }

/-- LAUNCH_RECORD_CHECK (02 R34, R37, R38, R60). -/
def launchCheck (s : State) : State :=
  match pickTurn s (checkable s) with
  | none => s
  | some (h, level, n) =>
    let q := lqGet s h level
    let pa := lqAddr h q
    let addr := q.base.toNat / 256 * 256 + q.head % lqSize q * 256
    if !partReads s pa 256 then
      drrRest (lqNote h level 8 (lqPut s h level { q with fetch := true, ctl := q.ctl &&& ~~~0x100#64 }))
    else
      let w := recWords (devBytes s pa 256)
      let nd := { recNode h level addr q.head w with order := s.nextOrder }
      let s1 := lqPut { s with nextOrder := s.nextOrder + 1 } h level { q with headNode := some n }
      match recCheck s nd w with
      | .wait _ => s
      | .bad t => drrRest (reject s1 n nd t.cause)
      | .ok nd =>
        let met := nd.deps.all fun d => (depMet s (nodeAsid nd) d).isSome
        drrRest (nodePut s1 n { nd with st := if met then .queued else .blocked })

/-- Head records due for a lift (02 R42). -/
def liftable (s : State) : List Nat :=
  s.nodes.filterMap fun x =>
    if x.2.st = .eligible ∨ x.2.st = .held then
      match headQueue s x.1 x.2 with
      | some q =>
        let c := q.ctl.toNat
        if natBit c 9 && decide (x.2.lift < natBits c 32 2) && decide (x.2.since + (x.2.lift + 1) * natBits c 16 16 * 1000 ≤ timeOf s)
        then some x.1 else none
      | none => none
    else none

/-- AGING_LIFT (02 R42). -/
def agingLift (s : State) : State :=
  match pickTurn s (liftable s) with
  | none => s
  | some n => match nodeGet? s n with
    | some nd => nodePut s n { nd with lift := nd.lift + 1 }
    | none => s

/-- An impossible pre-empted node becomes saved, with its record (02 R45, 18 R402). -/
def packLost (s : State) (n : Nat) (nd : Node) : State :=
  nodeNote (nodePut s n { nd with st := .saved, lastCause := causePackLost }) n
    ⟨causePackLost, BitVec.ofNat 64 (packSize nd), BitVec.ofNat 64 (goodTiles s).length, BitVec.ofNat 64 s.mgmt.csaCnt, 0⟩

/-- CANDIDATE_RETEST: impossible heads and held records are rejected, and pre-empted nodes become saved (02 R45). -/
def retest (s : State) : State :=
  drrRest <| s.nodes.foldl (fun s x =>
    let nd := x.2
    if !impossible s nd then s
    else match nd.st with
      | .queued | .blocked | .eligible | .held => reject s x.1 nd causeNoPack
      | .preempted => packLost s x.1 nd
      | _ => s) s

/-- A doorbell write (02 R37). -/
def execLqTailWrite (host : BitVec 1) (level : BitVec 5) (val : BitVec 64) (s : State) : Out :=
  hostDoes host s fun s => if 24 ≤ level.toNat then s else lqTailWrite host.toNat level.toNat val s

/-- A write of LQ_CTL (02 R37). -/
def execLqCtlWrite (host : BitVec 1) (level : BitVec 5) (val : BitVec 64) (s : State) : Out :=
  hostDoes host s fun s => if 24 ≤ level.toNat then s else lqCtlWrite host.toNat level.toNat val s

/-- A write of LQ_BASE (02 R37). -/
def execLqBaseWrite (host : BitVec 1) (level : BitVec 5) (val : BitVec 64) (s : State) : Out :=
  hostDoes host s fun s => if 24 ≤ level.toNat then s else lqBaseWrite host.toNat level.toNat val s

/-- A head record is read and checked (02 R34). -/
def execLaunchRecordCheck (s : State) : Out := .next (launchCheck s)

/-- A node's dependences are met (02 R32). -/
def execDependenceMet (s : State) : Out := .next (dependenceMet s)

/-- A head record is lifted by one level (02 R42). -/
def execAgingLift (s : State) : Out := .next (agingLift s)

end Sys2Proof.Machine
end

