-- ==== Sys2Proof/Machine/Context.lean ====
section
/-! DEFINITION. Pre-emption and saves: how a node's tiles stop, what their slots hold, and how they restore them
(12 R287 to R289; 16 R369; 17 R395; 18 R407, R409 to R416, R423). -/

namespace Sys2Proof.Machine

open Sys2Proof

/-- One tile of a node stops to be saved: `kind` 0 cooperative, 1 forced; a tile with nothing running has answered. What its
window reserved stays answered (17 R396; 18 R411, R414). -/
def saveStop (kind : Nat) (s : State) (tile : Nat) : State :=
  let t := tileGet s tile
  if t.halted then s
  else
    let s := { s with records := s.records.map fun r => match r.pend with
      | some (u, _) => if u = tile then { r with pend := none } else r
      | none => r }
    let seq := match t.core.window with | b :: _ => b.seq | [] => t.core.nextSeq
    let s := undoTile s tile seq
    let t := tileGet s tile
    let s := tilePut s tile { t with
      core := takeStop t.core 0 0 (if t.running.isNone then 0 else kind), halted := true, frzNs := frozenNs s t, walkBad := [] }
    mxStop (mxStop s tile 0) tile 1

/-- A node's tiles stop to be saved, after which it enters `target`; a fault of one of them wins, and a node that retires is
left alone (18 R411, R423). -/
def beginSave (s : State) (n kind : Nat) (target : NodeState) : State :=
  match nodeGet? s n with
  | none => s
  | some nd =>
    let s := nd.tiles.foldl (fun s tile => if (tileGet s tile).halted then s else settle s tile) s
    match nodeGet? s n with
    | none => s
    | some nd =>
      if nd.st = .retiring || nd.tiles.any fun tile => !(tileGet s tile).halted && !(tileDue s tile).isEmpty then s
      else nodePut (nd.tiles.foldl (saveStop kind) s) n { nd with saving := some target }

/-- A tile of a node as its rank, for what outlives the placement; `rankTile` turns it back. -/
def tileRank (tiles : List Nat) (x : Nat) : Nat :=
  match findIdxFrom (fun y => decide (y = x)) tiles 0 with
  | some i => 2 ^ 16 + i
  | none => x

/-- The tile of a rank under a placement. -/
def rankTile (tiles : List Nat) (x : Nat) : Nat := if 2 ^ 16 ≤ x then tiles.getD (x - 2 ^ 16) 0 else x

/-- The tiles that an engine's commands name, through `f`. -/
def engTiles (f : Nat → Nat) (x : Engine) : Engine :=
  let cmd (c : Cmd) : Cmd := { c with fork := c.fork.map fun y => (f y.1, y.2) }
  { x with runs := x.runs.map fun r => { r with cmd := cmd r.cmd }, queue := x.queue.map fun q => { q with cmd := cmd q.cmd } }

/-- The tiles that a node's packs and agents name, through `f` (02 R51; 07 R158; 17 R377). -/
def nodeTilesMap (s : State) (n : Nat) (f : Nat → Nat) : State :=
  { s with
    packs := s.packs.map fun p => if p.2.node ≠ n then p
      else (p.1, { p.2 with tiles := p.2.tiles.map f, arrived := p.2.arrived.map fun x => (f x.1, x.2) }),
    agents := s.agents.map fun a => if a.2.node ≠ n then a
      else
        let place := f a.2.place
        (a.1, { a.2 with place, ident := if place < 256 then a.2.ident / 256 * 256 + place else a.2.ident }) }

/-- The part writes `n` bytes of a slot: cells in place of everything there (18 R413). -/
def slotWrite (s : State) (a n : Nat) (cells : Mem) : State :=
  let out (g : Nat) : Bool := decide (g < a / 64) || decide ((a + n) / 64 ≤ g)
  { s with
    mem := memSplice s.mem a n cells,
    lostGran := s.lostGran.filter out,
    symErr := s.symErr.filter fun e => out e.1,
    releases := s.releases.filter fun r => decide (r.1 < a / 8) || decide ((a + n) / 8 ≤ r.1),
    dies := s.dies.map fun d => (d.1, { d.2 with cached := d.2.cached.filter out, dirty := d.2.dirty.filter out }) }

/-- The words of the core block up to its kind of stop (18 R414). -/
def coreBlock (t : Tile) : List Nat :=
  let c := t.core
  let g (k : Nat) : Nat := (regRd c k).v.toNat
  let loops := c.loops.reverse
  (match t.running with | some b => bobbinWords { b with pc := c.pc } | none => List.replicate 8 0)
    ++ (List.range 64).map g
    ++ [((List.range 7).map fun i => if g (0x41 + i) = 0 then 0 else 2 ^ (i + 1)).sum]
    ++ (List.range 8).map (fun i => g (0x48 + i) % 2 ^ 11)
    ++ (List.range 18).map (fun i => g (0x50 + i))
    ++ [loops.length] ++ (List.range 4).flatMap (fun i => match loops[i]? with
        | some l => [l.start, l.exit, l.left]
        | none => [0, 0, 0])
    ++ [g keyFpstat, g keyFpctl, t.frzNs, g keySlack, g keyBack, g keyFloor, g keyCeil,
        c.stopCause + c.stopMask * 256, c.stopKind]

/-- The binding word of a reel register (16 R362). -/
def bindWord (s : State) (tile k : Nat) : Nat :=
  let x := reelGet (tileGet s tile) k
  let w := (s.waits.filter fun w => decide (w.loc = locReel tile k)).length
  x.depth % 2 ^ 32 * 2 ^ 32 + x.ceiling * 2 ^ 16 + w % 32 * 2 ^ 9 + boolNat x.bound * 2 ^ 8 + k

/-- Lines of a tile's pool that hold a codeword which does not decode. -/
def badLines (s : State) (tile : Nat) : List Nat :=
  if poolSound s tile then []
  else (List.range 24576).filter fun l => (List.range 4).any fun c => cwBad s tile l c

/-- An engine as it is saved: a woken one is back in the kennel (12 R287). -/
def engSaved (f : Nat → Nat) (e : Nat) (x : Engine) : Engine := engTiles f (if x.st = 1 then engKennel e x else x)

/-- A lease that stays in standby: one that is not idle (12 R287). -/
def standsBy (x : Engine) : Bool := leaseHeld x.st && !engIdle x

/-- A reply that is under way at the save is written into the snapshot (05 R121, 18 R415). -/
def lateReply (r : Req) : Req := if r.st = .sent then { r with st := .done } else r

/-- A tile's slot is written, and what it leaves in standby stays (12 R287; 18 R413 to R415). -/
def saveTile (nd : Node) (n : Nat) (target : NodeState) (s : State) (tile : Nat) : State :=
  let t := tileGet s tile
  match nd.slots[rank0 t]? with
  | none => s
  | some slot =>
    let a := csaSlot s slot
    let c := t.core
    let desc := (List.range 2048).map (fun i => (regRd c (descKey i)).v.toNat)
      ++ (List.range 2048).map fun i => (regRd c (orgKey i)).v.toNat
    let reels := (List.range 256).flatMap fun k => [(reelGet t k).value.toNat, bindWord s tile k]
    let words := wordsBytes (desc ++ reels ++ coreBlock t)
    let block := (List.range 155648).filterMap fun i =>
      let b := Config.freeByte (s.free + i)
      if b = 0 then none else some (a + 0x65A000 + i, b)
    let bad := (badLines s tile).flatMap fun l => (List.range 4).map fun i => ((a + 256 * l) / 64 + i, [0, 1, 2])
    let ctx : SavedCtx :=
      { core := { c with reqs := c.reqs.map lateReply, frames := [], tlb := [], lines := [], fill := [], energy := [], lineWait := none, pageWait := none },
        engines := t.engines.map fun e => (e.1, engSaved (tileRank nd.tiles) e.1 e.2),
        leaseQ := t.leaseQ, leaseGen := t.leaseGen, creel := t.creel, packs := t.packStack,
        pack := ⟨t.packId, t.packParent, t.packLevel, t.packRank, t.packSize, c.phase⟩, wmarks := t.wmarks,
        running := t.running.isSome, damaged := false }
    let s := slotWrite s a 0x600000 (memSlice t.pool 0 0x600000 a)
    let s := slotWrite { s with free := s.free + 155648 } (a + 0x650000) 0x30000 (cellsFrom (a + 0x650000) words ++ block)
    let s := { s with symErr := bad.foldl (fun m x => mapPut m x.1 x.2) s.symErr, saved := mapPut s.saved slot ctx }
    if target = .preempted then
      let held := t.engines.filter fun e => decide (e.1 < 8) && standsBy e.2
      tilePut s tile { tileGet s tile with
        standby := held.foldl (fun m e => mapPut m e.1 ⟨n, slot, e.2.noevict⟩) t.standby }
    else s

/-- A node's tiles have been written: they are freed, and the node enters its state; a pre-empted one whose pack has become
impossible is saved (02 R45; 18 R407, R411). A node still to be restored keeps its slots as they are. -/
def saveNode (s : State) (n : Nat) : State :=
  match nodeGet? s n with
  | none => s
  | some nd =>
    match nd.saving with
    | none => s
    | some target =>
      let s := if nd.restoring then s else nd.tiles.foldl (saveTile nd n target) s
      let s := nodeTilesMap s n (tileRank nd.tiles)
      let s := nd.tiles.foldl freeTile s
      let nd := { nd with st := target, tiles := [], saving := none, restoring := true }
      if target = .preempted then
        let nd := { nd with since := timeOf s, order := s.nextOrder, lift := 0 }
        let s := nodePut { s with nextOrder := s.nextOrder + 1 } n nd
        if impossible s nd then packLost s n nd else s
      else nodePut s n nd

/-- Every tile of a yielding node has answered: nothing runs on it, and no fault is to be taken (18 R409, R423). -/
def allAnswered (s : State) (nd : Node) : Bool :=
  decide (nd.st = .yielding) && !nd.tiles.isEmpty && nd.tiles.all fun tile =>
    let t := tileGet s tile
    t.running.isNone && t.yreqPosted && !t.halted && (tileDue s tile).isEmpty

/-- Nodes whose save can complete: those that stop for it, and those that have answered a yield request. A saved node's
record has been written (18 R404, R407, R411). -/
def saveReady (s : State) : List Nat :=
  s.nodes.filterMap fun x => match x.2.saving with
    | some t => if t = .saved ∧ recHeld s x.1 then none else some x.1
    | none => if allAnswered s x.2 then some x.1 else none

/-- CONTEXT_SAVE_COMPLETE (18 R409, R411, R413). -/
def contextSave (s : State) : State :=
  match pickTurn s (saveReady s) with
  | none => s
  | some n =>
    match nodeGet? s n with
    | some nd => saveNode (if nd.saving.isSome then s else beginSave s n 0 .preempted) n
    | none => s

/-- What a read of a range of the context save pool meets first (10 R235, 19 R430). -/
def rangeTrap (s : State) (a n : Nat) : Option Trap :=
  let here (g : Nat) : Bool := decide (a / 64 ≤ g) && decide (g < (a + n) / 64)
  match s.lostGran.filter here with
  | g :: _ => some (trapAt causeLineLost (BitVec.ofNat 64 (g * 64)) 0)
  | [] => match s.symErr.filter fun e => here e.1 && decide (2 < e.2.length) with
    | e :: _ => some (trapAt causeUncorrectable (BitVec.ofNat 64 (e.1 * 64)) 0)
    | [] => none

/-- A word of the core block of a slot. -/
def coreWord (s : State) (a off : Nat) : Nat := devNat s (a + 0x659000 + off) 8

/-- The first entry of a core block with a reserved bit set or a value outside its field's range, or a pc past the index
stream (18 R414). -/
def coreBad (s : State) (nd : Node) (a : Nat) (running : Bool) : Option Nat :=
  let w (off : Nat) : Nat := coreWord s a off
  let big (off : Nat) : Bool := decide (2 ^ 48 ≤ w off)
  let back (off : Nat) : Bool := decide (w off < 64) || decide (65536 < w off)
  let b1 := w 8
  let fpctl := w 0x388
  let tests : List (Nat × Bool) :=
    [(0x000, running && decide (hf nd.hdr 0x24 ≤ w 0 % 2 ^ 48)),
     (0x008, running && (natBit b1 35 || decide (natBits b1 38 2 ≠ 0) || (!natBit b1 32 && decide (natBits b1 16 16 ≠ 0)))),
     (0x240, decide (256 ≤ w 0x240) || natBit (w 0x240) 0)]
    ++ (List.range 8).map (fun i => (0x248 + 8 * i, decide (2 ^ 11 ≤ w (0x248 + 8 * i))))
    ++ [(0x318, decide (4 < w 0x318))]
    ++ (List.range 4).flatMap (fun i => [(0x320 + 24 * i, big (0x320 + 24 * i)), (0x328 + 24 * i, big (0x328 + 24 * i))])
    ++ [(0x380, decide (64 ≤ w 0x380)), (0x388, decide (6 ≤ fpctl % 8) || decide (natBits fpctl 3 61 % 32 ≠ 0)),
        (0x398, decide (16 ≤ w 0x398)), (0x3A0, back 0x3A0), (0x3A8, back 0x3A8), (0x3B0, back 0x3B0),
        (0x3B8, decide (2 ^ 14 ≤ w 0x3B8)), (0x3C0, decide (2 < w 0x3C0))]
  match tests.find? (·.2) with
  | some x => some (a + 0x659000 + x.1)
  | none => (memSlice s.mem (a + 0x6593C8) 0xC38 (a + 0x6593C8)).head?.map fun c => c.1 / 8 * 8

/-- What the restore of a slot meets (18 R414, R415). -/
def slotBad (s : State) (nd : Node) (slot : Nat) : Option Trap :=
  let a := csaSlot s slot
  let bad (x : Nat) : Trap := trapAt causeBadContext (BitVec.ofNat 64 x) 0
  match mapGet? s.saved slot with
  | none => some (bad (a + 0x65A000))
  | some x =>
    (rangeTrap s a 0x600000).or ((rangeTrap s (a + 0x650000) 0x30000).or
      (if x.damaged then some (bad (a + 0x65A000)) else (coreBad s nd a x.running).map bad))

/-- The bobbin of a core block (02 R52, 18 R414). -/
def coreBobbin (s : State) (a : Nat) : Bobbin :=
  bobbinOf fun i => coreWord s a (8 * i)

/-- A tick of the tile that was saved, in the ticks of the tile that goes on (18 R416). -/
def tickShift (old new k : Nat) : Nat := new + (k - old)

/-- The registers that a slot's blocks give (18 R413, R414); residues are computed again. -/
def slotRegs (s : State) (a : Nat) : NMap RV :=
  let w (off : Nat) : Nat := coreWord s a off
  let p := w 0x240
  let l : List (Nat × Nat) :=
    (List.range 64).map (fun i => (i, w (0x40 + 8 * i))) ++ (List.range 7).map (fun i => (0x41 + i, boolNat (natBit p (i + 1))))
      ++ (List.range 8).map (fun i => (0x48 + i, w (0x248 + 8 * i))) ++ (List.range 18).map (fun i => (0x50 + i, w (0x288 + 8 * i)))
      ++ [(keyFpstat, w 0x380), (keyFpctl, w 0x388), (keySlack, w 0x398)]
      ++ (cellWords (memSlice s.mem (a + 0x650000) 0x8000 0)).map (fun x =>
          (if x.1 < 2048 then descKey x.1 else orgKey (x.1 - 2048), x.2))
      ++ [(keyBack, w 0x3A0), (keyFloor, w 0x3A8), (keyCeil, w 0x3B0)]
  l.map fun x => (x.1, rvOf (BitVec.ofNat 64 x.2))

/-- The loop stack of a core block: entry 0 is the outermost (log entry 11). -/
def slotLoops (s : State) (a : Nat) : List LoopEnt :=
  let w (off : Nat) : Nat := coreWord s a off
  ((List.range (w 0x318)).map fun i => ⟨w (0x320 + 24 * i), w (0x328 + 24 * i), w (0x330 + 24 * i)⟩).reverse

/-- The reel registers of a slot (16 R362, 18 R413). -/
def slotReels (s : State) (a : Nat) : NMap Reel :=
  let m := cellWords (memSlice s.mem (a + 0x658000) 0x1000 0)
  (List.range 256).filterMap fun k =>
    let b := mapGet m (2 * k + 1) 0
    let x : Reel := ⟨BitVec.ofNat 64 (mapGet m (2 * k) 0), natBit b 8, natBits b 16 8, natBits b 32 32⟩
    if x = reelReset then none else some (k, x)

/-- A request goes on: one that had not been performed is translated and sent again (17 R395, 18 R416). -/
def reqAgain (r : Req) : Req :=
  match r.st, fullPlace r.addr with
  | .ready, .mem _ => { r with st := .walk }
  | _, _ => r

/-- The core of a restored tile (18 R414 to R416). -/
def slotCore (s : State) (a : Nat) (here : Core) (x : SavedCtx) : Core :=
  let c := x.core
  let sh := tickShift c.ticks here.ticks
  { c with
    ticks := here.ticks, frames := here.frames, tlb := here.tlb, energy := here.energy, weight := 0,
    busy := c.busy.map fun x => (x.1, sh x.2), served := [], lost := [],
    lines := [], fill := [], cur := none, lineWait := none, pageWait := none, decodeStop := none, frozen := none, replay := here.replay,
    stretch := here.stretch, ticked := here.ticked, fault := none, regs := slotRegs s a, loops := slotLoops s a,
    pc := if x.running then coreWord s a 0 % 2 ^ 48 else c.pc,
    hold := if c.hold = 0 then 0 else sh c.hold,
    flights := c.flights.map fun f => { f with land := sh f.land },
    vec := c.vec.map fun v => vecResume (nextTick { c with ticks := here.ticks }) { v with t0 := v.t0.map sh, last := sh v.last },
    reqs := c.reqs.map reqAgain,
    stopCause := coreWord s a 0x3B8 % 256, stopMask := coreWord s a 0x3B8 / 256, stopKind := coreWord s a 0x3C0 }

/-- The drain programs of a node's image, as memory holds them (02 R26, 13 R313): unreadable bytes are free values. -/
def sectionBytes (s : State) (nd : Node) (off n : Nat) : State × List Byte :=
  match vRead s (nodeAsid nd) (nd.image + off) n with
  | .ok bs => (s, bs)
  | _ => ({ s with free := s.free + n }, (List.range n).map fun i => Config.freeByte (s.free + i))

/-- Drain-program memory as the image loads it. -/
def loadDrains (l : List (List Nat)) : NMap (List Nat) := (List.range l.length).zip l

/-- A parked waiter's bobbin is tested and registered again (16 R369); own registers are those of the new tile. -/
def parkAgain (tile : Nat) (s : State) (e : CreelEntry) : State :=
  match e.wait with
  | some (.reel addr loc t sc _ _ _) =>
    let r : ParkedAt := match fullPlace addr with
      | .ownReel k => .here (.reg tile k)
      | .reel u k => .here (.reg u k)
      | _ => parkedAt s tile addr loc
    (match r with
     | .here r => parkOn s tile e r addr t sc
     | .bounced => creelAdd s tile false { e with wait := some (.reel addr loc t sc false (timeOf s) (timeOf s)) }
     | .faulty => readyHead s tile e none)
  | _ => s

/-- An entry of a creel that waits on a reel. -/
def waitsReel (e : CreelEntry) : Bool := match e.wait with | some (.reel _ _ _ _ _ _ _) => true | _ => false

/-- An engine that comes from the kennel goes on from p with the pool alone: groups read and not landed are read again
(12 R289, 13 R311). -/
def engAfresh (x : Engine) : Engine :=
  { x with runs := x.runs.map fun r =>
      if axMul r.cmd ∧ r.phase = 1 then { raSet (raSet r akRead (ra r akLand)) akClk (grpClk r.cmd (ra r akLand)) with data := [] } else r }

/-- A lease that cannot be covered is restored as evicted: R285 steps 3, 6 and 7 against its registers, with trigger 3 (12 R289). Its
array's tiles are let go, and a collective in the middle is aborted (13 R306; 20 R460). -/
def restoreEvicted (s : State) (n tile e : Nat) (x : Engine) : State :=
  let s := engMap s tile e fun _ => x
  let s := if e < 2 then tilePut s tile (mxLetGo (tileGet s tile) e) else s
  let s := if e = 7 then fxAbort s tile 5 (match x.runs with | r :: _ => fxPrev r.cmd | [] => 0) else s
  let code := match x.runs with | r :: _ => cmdCode r.cmd | [] => x.lastcode
  let fx := decide (e = 7) && !x.runs.isEmpty
  let s1 := engMap s tile e fun y =>
    { setCause y 6 code with progSeq := y.progSeq + (if fx then 0 else 1), st := 6, pwTick := 0, pwDone := true, runs := [], after := [],
                             fault := none, waiting := false, stopped := false }
  let (s2, c) := evictAdd s1 (some n) tile (tileAsid s tile) (runVc s x) e x.evreel.v
  evictNote s2 n tile e x.progNext 3 c

/-- One lease of a pack is restored: reattached, granted by instance, or restored as evicted (12 R288, R289). -/
def restoreLease (n slot tile : Nat) (s : State) (y : Nat × Engine) : State :=
  let e := y.1
  let t := tileGet s tile
  let x := { engTiles (rankTile (((nodeGet? s n).map (·.tiles)).getD [])) y.2 with fault := none, stopped := false, idle := 0 }
  match mapGet? t.standby e with
  | some b =>
    if b.node = n ∧ b.slot = slot then
      tilePut s tile (engPut { t with standby := mapDel t.standby e } e
        { x with st := if x.st = 7 then 7 else 3, pwTick := 0, pwDone := true })
    else restoreEvicted s n tile e x
  | none =>
    if leaseFits t e then
      tilePut s tile (engPut t e { powerUp t e (engAfresh x) with st := if x.st = 7 then 7 else 2 })
    else restoreEvicted s n tile e x

/-- Inserts an engine by the order of its grant. -/
def byGrant (y : Nat × Engine) : List (Nat × Engine) → List (Nat × Engine)
  | [] => [y]
  | z :: l => if y.2.ord < z.2.ord then y :: z :: l else z :: byGrant y l

/-- fx0 after a restore: a command in the middle has been aborted by its peers, or ends its abort; an owed add stays owed
(20 R460, R494). -/
def fxRestored (s : State) (tile : Nat) : State :=
  match (engGet (tileGet s tile) 7).runs with
  | [] => s
  | r :: _ => if ra r akHalt = 1 then fxResume s tile
    else if r.unit < fxCount r.cmd then fxAbort s tile 4 (fxPrev r.cmd) else s

/-- A tile restores its slot (12 R289; 18 R413, R416). Everything it holds has been checked. -/
def restoreTile (n : Nat) (nd : Node) (drains : List (List Nat)) (s : State) (rank : Nat) : State :=
  match nd.tiles[rank]?, nd.slots[rank]? with
  | some tile, some slot =>
    match mapGet? s.saved slot with
    | none => s
    | some x =>
      let a := csaSlot s slot
      let t := tileGet s tile
      let c := slotCore s a t.core x
      let own (e : Nat × Engine) : Bool := decide (e.1 < 8) && leaseHeld e.2.st
      let rest := (x.engines.filter fun e => !own e).map fun e => (e.1, { engTiles (rankTile nd.tiles) e.2 with fault := none, stopped := false })
      let p := natBits (hf nd.hdr 0x08) 0 8
      let lo := cwKey tile 0 0
      let s := { s with symErr := s.symErr.filter fun e => !(decide (lo ≤ e.1) && decide (e.1 < lo + 2 ^ 23)),
                        saved := mapDel s.saved slot }
      let s := tilePut s tile { t with
        core := c, running := if x.running then some (coreBobbin s a) else none, creel := x.creel.filter fun e => !waitsReel e,
        packId := x.pack.id, packParent := x.pack.parent, packLevel := x.pack.level, packRank := x.pack.rank,
        packSize := x.pack.size, packStack := x.packs, partAcc := natBits p 4 4, partQueue := natBits p 0 4,
        pool := memSlice s.mem a 0x600000 0, wmarks := x.wmarks, reels := slotReels s a, engines := rest,
        drains := loadDrains drains, leaseQ := x.leaseQ.map fun r => { r with since := timeOf s }, leaseGen := x.leaseGen,
        leaseOrd := x.engines.foldl (fun m e => max m (e.2.ord + 1)) 0, halted := false, frzNs := coreWord s a 0x390,
        walkBad := [] }
      let s := ((x.engines.filter own).foldl (fun l e => byGrant e l) []).foldl (restoreLease n slot tile) s
      let s := fxRestored s tile
      let s := (c.reqs.filter fun r => decide (r.st = .walk)).foldl
        (fun s r => askWalk s tile (nodeAsid nd) (r.addr.toNat / 65536)) s
      wakePhase ((x.creel.filter waitsReel).foldl (parkAgain tile) s) tile
  | _, _ => s

/-- Standby leases of a node that its ranks do not find on the tile they come back to end (12 R288). -/
def dropElsewhere (s : State) (n : Nat) (nd : Node) : State :=
  let mine (tile slot : Nat) : Bool := (nd.tiles.zip nd.slots).contains (tile, slot)
  { s with tiles := s.tiles.map fun t => (t.1, { t.2 with
      standby := t.2.standby.filter fun x => decide (x.2.node ≠ n) || mine t.1 x.2.slot }) }

/-- A stop of a node as a whole, with one record by none, or by a host, whose access meets one of a tile that the record names too
(17 R389; 18 R398, R401, R402, R421). -/
def stopWide (s : State) (n agent : Nat) (x : Trap) : State :=
  match nodeGet? s n with
  | none => s
  | some nd =>
    let s := nd.tiles.foldl (fun s tile => if (tileGet s tile).halted then s else settle s tile) s
    let s := if agent = noAgent then nodeNote s n x
      else
        let other := natBits x.d1.toNat 0 8
        let tile := if nd.tiles.contains other then other else nd.tiles.headD 0
        nodeRec s n tile agent 0 (corePc (coreGet s tile)) x
    let s := nd.tiles.foldl (fun s tile => if (tileGet s tile).halted then s else stopTile x.cause 0 s tile) s
    match nodeGet? s n with
    | some nd => nodePut s n { nd with st := .stopped, lastCause := x.cause, saving := none }
    | none => s

/-- The die-lost record of a node: the dies lost and its mask (18 R402, R421). -/
def dieLostTrap (s : State) (asid : Nat) : Trap :=
  let lost := ((List.range 8).map fun d => if (dieGet s d).lost then 2 ^ d else 0).sum
    + ((s.portsLost.filter (· < 4)).eraseDups.map fun p => 2 ^ (8 + p)).sum
  trapAt causeDieLost (BitVec.ofNat 64 lost) (BitVec.ofNat 64 (mapGet s.touched asid 0))

/-- Nodes that restore their slots. -/
def restoring (s : State) : List Nat :=
  s.nodes.filterMap fun x => if x.2.st = .placed ∧ x.2.restoring then some x.1 else none

/-- CONTEXT_RESTORE: every tile of a resumed node restores its slot before the node's first bundle, or the node stops
(18 R414 to R416, R423). -/
def contextRestore (s : State) : State :=
  match pickTurn s (restoring s) with
  | none => s
  | some n =>
    match nodeGet? s n with
    | none => s
    | some nd =>
      let bad := (nd.tiles.zip nd.slots).filterMap fun x => (slotBad s nd x.2).map fun y =>
        (⟨x.1, identOf 0 0 x.1, 0, ((mapGet? s.saved x.2).map (·.core.pc)).getD 0, marginDetail s x.1 y⟩ : Due)
      if !bad.isEmpty then stopNode s n bad
      else
        let (s, bs) := sectionBytes s nd (hf nd.hdr 0x30) (64 * hf nd.hdr 0x34)
        let s := nodeTilesMap (dropElsewhere s n nd) n (rankTile nd.tiles)
        let s := nodePut s n { nd with st := .running, restoring := false, diesLost := false }
        let s := (List.range nd.tiles.length).foldl (restoreTile n nd (progsOf bs (hf nd.hdr 0x34))) s
        if nd.diesLost then stopWide s n noAgent (dieLostTrap s (nodeAsid nd)) else s

/-- A node's context has been written to its slots (18 R413). -/
def execContextSaveComplete (s : State) : Out := .next (contextSave s)

/-- A node's tiles restore their slots (18 R416). -/
def execContextRestore (s : State) : Out := .next (contextRestore s)

end Sys2Proof.Machine
end

