-- ==== Sys2Proof/Machine/Place.lean ====
section
/-! DEFINITION. Placement: the dispatcher's decisions, yield requests, tiles and slots, and the loading of a launch
(02 R26 to R28, R39 to R53; 18 R408, R412, R417). -/

namespace Sys2Proof.Machine

open Sys2Proof

/-- The physical tile of a tile (19 R438). -/
def physTile (s : State) (tile : Nat) : Nat := (dieGet s (dieOf tile)).phys * 32 + tile % 32

/-- Tiles that a node may be placed on now (02 R48; 19 R427, R439). -/
def freeTiles (s : State) : List Nat :=
  (goodTiles s).filter fun t => (tileGet s t).node.isNone && decide (s.mgmt.shepCmd ≠ some (physTile s t))

/-- The first free slots of the context save pool, or none when they are short (18 R412). -/
def freeSlots (s : State) (n : Nat) : Option (List Nat) :=
  let l := ((List.range s.mgmt.csaCnt).filter fun k => !(s.nodes.any fun x => x.2.slots.contains k)).take n
  if l.length = n then some l else none

/-- The free tiles of a die. -/
def dieTiles (l : List Nat) (d : Nat) : List Nat := l.filter fun t => decide (dieOf t = d)

/-- The live die with the fewest free tiles that has `n` of them, the lowest on a tie (02 R48). -/
def tightDie (l : List Nat) (n : Nat) : Option Nat :=
  ((List.range 8).foldl (fun r d =>
    let k := (dieTiles l d).length
    if k < n then r
    else match r with
      | none => some (d, k)
      | some (c, m) => if k < m then some (d, k) else some (c, m)) none).map (·.1)

/-- The tiles of a pack of `n` out of the free ones (02 R48). -/
def chooseTiles (l : List Nat) (n : Nat) (dielocal : Bool) : Option (List Nat) :=
  let any : Option (List Nat) := if l.length < n then none else some (l.take n)
  if n ≤ 32 then
    match tightDie l n with
    | some d =>
      let f := dieTiles l d
      let block (b : Nat) : List Nat := (List.range n).map fun i => 32 * d + b * n + i
      (match (List.range (32 / n)).find? fun b => (block b).all f.contains with
       | some b => some (block b)
       | none => some (f.take n))
    | none => if dielocal then none else any
  else
    let whole := (List.range 8).filter fun d => decide ((dieTiles l d).length = 32)
    if n / 32 ≤ whole.length then some ((whole.take (n / 32)).flatMap fun d => (List.range 32).map fun i => 32 * d + i) else any

/-- The tiles of a candidate, leaving out the one that it avoids where it can (02 R48, 19 R435). -/
def nodeTilesFor (s : State) (nd : Node) : Option (List Nat) :=
  let l := freeTiles s
  let go (l : List Nat) : Option (List Nat) := chooseTiles l (packSize nd) (ctlDie nd.ctl)
  match nd.avoid with
  | some t => (go (l.filter fun x => decide (x ≠ t))).or (go l)
  | none => go l

/-- The slots of a candidate: its own, or free ones (18 R412). -/
def nodeSlotsFor (s : State) (nd : Node) : Option (List Nat) :=
  if nd.slots.isEmpty then freeSlots s (packSize nd) else some nd.slots

/-- The default yield deadline of a node in ns (02 R31). -/
def yieldNs (nd : Node) : Nat :=
  let d := natBits nd.ctl.toNat 20 12
  (if d = 0 then 100 else d) * 1000

/-- A yield request is posted to every tile of a node on which none stands (18 R408). -/
def postYield (s : State) (n : Nat) : State :=
  match nodeGet? s n with
  | none => s
  | some nd =>
    let s1 := nd.tiles.foldl (fun s tile =>
      let t := tileGet s tile
      if t.yreqPosted then s
      else tilePut s tile { t with yreqPosted := true, yreqSeq := (t.yreqSeq + 1) % 2 ^ 32, yreqUntil := timeOf s + yieldNs nd }) s
    nodePut s1 n { nd with st := .yielding }

/-- The running nodes that a candidate of level `level` may ask to yield: lowest priority first, then the one placed last
(02 R43). -/
def yieldVictims (s : State) (level : Nat) : List (Nat × Node) :=
  let l := s.nodes.filter fun x => decide (x.2.st = .running) && decide (nodePrio x.2 < level)
  (List.range level).flatMap fun p =>
    (l.filter fun x => decide (nodePrio x.2 = p)).foldl (fun r x => insertLate x r) []
where
  /-- Inserts a node before those placed earlier. -/
  insertLate (x : Nat × Node) : List (Nat × Node) → List (Nat × Node)
    | [] => [x]
    | y :: l => if y.2.order < x.2.order then x :: y :: l else y :: insertLate x l

/-- Tiles that cover a candidate: as many as its pack, on one die where it must lie on one (02 R31, R43). -/
def coversPack (nd : Node) (l : List Nat) : Bool :=
  if ctlDie nd.ctl then (List.range 8).any fun d => decide (packSize nd ≤ (dieTiles l d).length) else decide (packSize nd ≤ l.length)

/-- Requests yields until the tiles requested and the tiles free cover the candidate (02 R43). -/
def askYields (nd : Node) : State → List Nat → List (Nat × Node) → State
  | s, _, [] => s
  | s, l, x :: xs => if coversPack nd l then s else askYields nd (postYield s x.1) (l ++ x.2.tiles) xs

/-- Tiles whose nodes have been asked to yield, or are being saved. -/
def yieldingTiles (s : State) : List Nat :=
  s.nodes.flatMap fun x => if x.2.st = .yielding ∨ x.2.saving.isSome then x.2.tiles else []

/-- Every bobbin of a running node is parked, and none is ready (18 R417). -/
def stalled (s : State) (nd : Node) : Bool :=
  (decide (nd.st = .running) || decide (nd.st = .yielding)) && nd.saving.isNone && nd.tiles.all fun tile =>
    let t := tileGet s tile
    t.running.isNone && decide (readyCount t = 0) && t.core.frozen.isNone

/-- A served candidate cannot be placed: it is held, asks for yields, and stalled nodes of its priority or less are
pre-empted at once (02 R39, R43; 18 R417). -/
def holdCandidate (s : State) (n : Nat) (nd : Node) (level : Nat) (lifted : Bool) : State :=
  let s := if nd.st = .eligible then nodePut s n { nd with st := .held } else s
  let short := (nodeTilesFor s nd).isNone
  let s := if short then
      (s.nodes.filter fun x => stalled s x.2 && decide (nodePrio x.2 ≤ nodePrio nd)).foldl
        (fun s x => beginSave s x.1 0 .preempted) s
    else s
  if short && !lifted then askYields nd s (freeTiles s ++ yieldingTiles s) (yieldVictims s level) else s

/-- Two extents overlap. -/
def overlaps (x y : Nat × Nat) : Bool := decide (x.1 < y.1 + y.2) && decide (y.1 < x.1 + x.2)

/-- No two extents of a list overlap. -/
def apart : List (Nat × Nat) → Bool
  | [] => true
  | x :: l => l.all (fun y => !overlaps x y) && apart l

/-- The conditions of the restartable flag at the taking of a node (02 R46). -/
def restartOk (s : State) (nd : Node) : EngOut Unit :=
  let asid := nodeAsid nd
  if (nd.ins ++ nd.outs).any (fun x => decide (x.2 = 0)) || !apart nd.outs || nd.outs.any (fun x => nd.ins.any (overlaps x)) then
    .bad (trapOf causeRestartRefused)
  else engEach (nd.ins.map (fun x => vMap s asid false x.1 x.2) ++ nd.outs.map fun x => vMap s asid true x.1 x.2)

/-- Dictionary pages of the image's ID under another generation are invalidated on every tile (02 R28). -/
def dropStale (s : State) (nd : Node) : State :=
  let id := hf nd.hdr 0x06
  let gen := hf nd.hdr 0x10
  { s with tiles := s.tiles.map fun t => (t.1, { t.2 with core := { t.2.core with
      frames := t.2.core.frames.filter fun f => !(decide (f.image = id) && decide (f.gen ≠ gen)) } }) }

/-- A head record is taken: the head advances (02 R38, R60). -/
def takeHead (s : State) (n : Nat) (nd : Node) : State :=
  let q := lqGet s nd.host nd.level
  if q.headNode = some n then lqPut s nd.host nd.level { q with head := (q.head + 1) % 2 ^ 32, headNode := none } else s

/-- A candidate is placed on tiles with slots, and the grant of each tile is 7 (12 R271; 02 R46, R48, R49; 18 R412, R420). -/
def place (s : State) (n : Nat) (nd : Node) (tiles slots : List Nat) : State :=
  let fresh := !nd.restoring
  let s := if fresh then dropStale s nd else s
  let pack := if fresh then (freePacks s 1).headD 0 else nd.pack
  let nd' : Node := { nd with st := .placed, tiles, slots, pack, since := timeOf s, order := s.nextOrder, avoid := none, lift := 0,
                              requeue := fresh }
  let s := nodePut { s with nextOrder := s.nextOrder + 1 } n nd'
  let s := if fresh then packPut s ⟨pack, n, 0, pack, tiles, 0, tiles.length, []⟩ else s
  tiles.foldl (fun s t => touch (tilePut s t { tileGet s t with node := some n, grant := 7 }) (nodeAsid nd) (dieOf t)) s

/-- What becomes of a served candidate. -/
inductive Served1 where
  /-- It is placed. -/
  | placed (s : State)
  /-- It holds its level. -/
  | held (s : State)
  /-- Its pages migrate: the decision waits. -/
  | wait

/-- A served candidate is placed or held (02 R38, R39, R46). -/
def serveCandidate (s : State) (n : Nat) (nd : Node) (level : Nat) (lifted : Bool) : Served1 :=
  match nodeTilesFor s nd, nodeSlotsFor s nd with
  | some tiles, some slots =>
    if nd.st = .preempted then .placed (place s n nd tiles slots)
    else if nd.restart then
      match restartOk s nd with
      | .wait _ => .wait
      | .ok _ => .placed (place (takeHead s n nd) n nd tiles slots)
      | .bad _ =>
        .placed (nodeNote (place (takeHead s n nd) n { nd with restart := false } tiles slots) n (trapOf causeRestartRefused))
    else .placed (place (takeHead s n nd) n nd tiles slots)
  | _, _ => .held (holdCandidate s n nd level lifted)

/-- Pre-empted nodes of a priority, that one first whose pre-emption is oldest (02 R39). -/
def preemptedAt (s : State) (level : Nat) : Option (Nat × Node) :=
  (s.nodes.filter fun x => decide (x.2.st = .preempted) && decide (nodePrio x.2 = level) && !impossible s x.2).foldl
    (fun r x => match r with
      | none => some x
      | some y => if x.2.order < y.2.order then some x else some y) none

/-- The weight of a host at a level (02 R41). -/
def drrWeight (s : State) (h level : Nat) : Nat := natBits (mapGet s.mgmt.drr level 0x0101).toNat (8 * h) 8

/-- Deficit round-robin at a level: the head that is served, with the deficits and turn that it leaves (02 R40). The turn holds
the host, and whether its weight has been added. -/
def drrServe (level : Nat) : Nat → State → Option (State × Nat × Node)
  | 0, _ => none
  | fuel + 1, s =>
    let turn := mapGet s.drrTurn level 0
    let h := turn % 2
    let other := 1 - h
    let pass (s : State) : State := { s with drrTurn := mapPut s.drrTurn level other }
    let w := drrWeight s h level
    match headsAt s h level with
    | [] => if (headsAt s other level).isEmpty then none else drrServe level fuel (pass (drrSet s h level 0))
    | (n, nd) :: _ =>
      if w = 0 then
        if (headsAt s other level).isEmpty then some (s, n, nd)
        else if drrWeight s other level = 0 then none
        else drrServe level fuel (pass (drrSet s h level 0))
      else
        let d := (lqGet s h level).deficit + (if turn / 2 = 0 then 16 * w else 0)
        let s1 := drrSet { s with drrTurn := mapPut s.drrTurn level (2 + h) } h level d
        if packSize nd ≤ d then some (s1, n, nd) else drrServe level fuel (pass s1)

/-- The held head that holds a level. -/
def heldAt (s : State) (level : Nat) : Option (Nat × Node) :=
  ((List.range 2).flatMap fun h => headsAt s h level).find? fun x => decide (x.2.st = .held)

/-- One placement decision over the levels from `level - 1` down: a held head holds its level, then pre-empted nodes, then
heads by deficit round-robin. A level that holds candidates lets none below be served (02 R39, R40, R44). -/
def decide' : Nat → State → State
  | 0, s => s
  | level + 1, s =>
    let serve (s0 s : State) (n : Nat) (nd : Node) (lifted : Bool) (pay : Bool) : State :=
      match serveCandidate s n nd level lifted with
      | .placed s1 =>
        if pay then
          let q := lqGet s1 nd.host level
          drrRest (lqPut s1 nd.host level { q with deficit := q.deficit - packSize nd })
        else s1
      | .held s1 => s1
      | .wait => s0
    match heldAt s level with
    | some (n, nd) => serve s s n nd (decide (nd.level ≠ level)) true
    | none => match preemptedAt s level with
      | some (n, nd) => serve s s n nd false false
      | none =>
        if headPending s 0 level || headPending s 1 level then s
        else match drrServe level 64 (drrClear s level) with
          | some (s1, n, nd) => serve s s1 n nd (decide (nd.level ≠ level)) true
          | none =>
            if (headsAt s 0 level).isEmpty ∧ (headsAt s 1 level).isEmpty then decide' level (drrClear s level) else s

/-- The dispatcher works: the part is not stopped by an alarm. -/
def dispatches (s : State) : Bool := !s.mgmt.halted

/-- PLACEMENT_DECISION (02 R39). -/
def placement (s : State) : State := if dispatches s then decide' 24 s else s

/-- The root bobbin of a pack's tiles (02 R53). -/
def rootBobbin (nd : Node) : Bobbin :=
  { image := hf nd.hdr 0x06, pc := hf nd.hdr 0x14, asid := nodeAsid nd, pack := nd.pack, level := 0, spilled := false, root := true,
    link := false, join := 0, carry := [BitVec.ofNat 64 nd.param, BitVec.ofNat 64 (nd.paramlen * 64), 0, 0, 0, 0] }

/-- The sections of an image that every tile of a pack takes (02 R26). -/
structure Sections where
  consts : List Byte
  drains : List (List Nat)
  descs : List Nat
  decls : List ReelDecl

/-- The reel registers that the declarations set (02 R26). -/
def declReels (l : List ReelDecl) : NMap Reel :=
  l.foldl (fun m d => mapPut m (declReg d)
    ⟨BitVec.ofNat 64 d.init, declBound d, if declBound d then declCeil d else 0,
     if declBound d then natBits d.word 32 32 else 0⟩) []

/-- The core agent of a rank starts: its time goes on from that of an earlier agent of its number, and it knows what the node's
dependences released (02 R32; 17 R377, R383). -/
def rootAgent (s : State) (n rank tile : Nat) (acq : List Rel) : State :=
  let a := coreAgentId n rank
  let k := match mapGet? s.agents a with | some x => vcGet x.vc a + 1 | none => 1
  let vc := (relsCovered acq .sys tile).foldl (fun v r => vcJoin v r.vc) []
  agentPut s a ⟨identOf 0 0 tile, n, tile, mapPut vc a k, none, []⟩

/-- One tile of a pack is loaded (02 R26, R27, R50, R53). -/
def loadTile (n : Nat) (nd : Node) (x : Sections) (s : State) (rank : Nat) : State :=
  let tile := nd.tiles.getD rank 0
  let p := hf nd.hdr 0x08
  let t := tileGet s tile
  let c := coreLeft t.core
  let regs := ((List.range x.descs.length).zip x.descs).map fun d => (descKey d.1, rvOf (BitVec.ofNat 64 d.2))
  let acc := scratchSize { t with partAcc := natBits p 4 4, partQueue := natBits p 0 4 }
  let s := poolClean s tile acc (natBits p 4 4 * 2 ^ 18)
  let s := tilePut s tile { t with
    pool := memSplice t.pool acc (natBits p 4 4 * 2 ^ 18) [],
    core := { c with regs }, running := none, creel := [⟨rootBobbin nd, none, none, [], none⟩], packId := nd.pack,
    packParent := nd.pack, packLevel := 0, packRank := rank, packSize := nd.tiles.length, packStack := [], partAcc := natBits p 4 4,
    partQueue := natBits p 0 4, wmarks := [], reels := declReels x.decls, engines := [], drains := loadDrains x.drains,
    leaseQ := [], leaseGen := 0, leaseOrd := 0, yreqPosted := false, yreqSeq := 0, yreqUntil := 0, halted := false, frzNs := 0,
    walkBad := [], found := [] }
  let s := if x.consts.isEmpty then s
    else poolWrite (plainWrite s (locsOf (locPool tile) 0 x.consts.length)) tile 0 x.consts
  rootAgent s n rank tile nd.acq

/-- Placed nodes that are to be loaded. -/
def loadable (s : State) : List Nat :=
  s.nodes.filterMap fun x => if x.2.st = .placed ∧ !x.2.restoring then some x.1 else none

/-- LAUNCH_LOAD_COMPLETE: every tile has loaded R26 and written R50, and the node runs (02 R49, R60). -/
def launchLoad (s : State) : State :=
  match pickTurn s (loadable s) with
  | none => s
  | some n =>
    match nodeGet? s n with
    | none => s
    | some nd =>
      let h := nd.hdr
      let (s, cs) := sectionBytes s nd (hf h 0x28) (hf h 0x2C)
      let (s, ps) := sectionBytes s nd (hf h 0x30) (64 * hf h 0x34)
      let (s, ds) := sectionBytes s nd (hf h 0x38) (8 * hf h 0x3C)
      let (s, rs) := sectionBytes s nd (hf h 0x40) (16 * hf h 0x44)
      let x : Sections :=
        ⟨cs, progsOf ps (hf h 0x34), (List.range (hf h 0x3C)).map (fun i => leNat ((ds.drop (8 * i)).take 8)), declsOf rs (hf h 0x44)⟩
      let s := (List.range nd.tiles.length).foldl (loadTile n nd x) s
      let s := nodePut s n { nd with st := .running, requeue := false, diesLost := false, reels0 := declReels x.decls }
      if nd.diesLost then stopWide s n noAgent (dieLostTrap s (nodeAsid nd)) else s

/-- A placement decision (02 R39). -/
def execPlacementDecision (s : State) : Out := .next (placement s)

/-- A placed node's tiles are loaded (02 R26). -/
def execLaunchLoadComplete (s : State) : Out := .next (launchLoad s)

end Sys2Proof.Machine
end

