-- ==== Sys2Proof/Machine/Nodes.lean ====
section
/-! DEFINITION. Host commands to nodes, yield deadlines, retirement and the loss of a die
(01 R14; 02 R33, R60; 18 R406 to R410, R420 to R423). -/

namespace Sys2Proof.Machine

open Sys2Proof

/-- The agent of a core learns what a host's command happens after (17 R383). -/
def hostOrders (s : State) (h n rank : Nat) : State :=
  let a := coreAgentId n rank
  match mapGet? s.agents a with
  | some x => agentPut s a { x with vc := vcJoin x.vc (hostAgent s h).vc }
  | none => s

/-- A stopped tile goes on from the bundle at which it stopped, and its engines from their units (11 R266; 18 R407; 20 R494). -/
def resumeTile (past : Bool) (s : State) (tile : Nat) : State :=
  let t := tileGet s tile
  let brk := past && decide (t.core.stopCause = causeBreakpoint)
  let s := tilePut s tile { t with
    halted := false, core := resumeStop t.core brk,
    engines := t.engines.map fun e => (e.1, { e.2 with fault := none, stopped := false }) }
  fxResume s tile

/-- A stopped node is resumed: a node that had not been loaded or restored goes on with that, one that has ended retires, and a
yield request that stands applies. A host's conflict of the meantime stops it again (17 R396; 18 R407, R423). -/
def resumeNode (s : State) (h n : Nat) (past : Bool) : State :=
  match nodeGet? s n with
  | none => s
  | some nd =>
    let s := (List.range nd.tiles.length).foldl (fun s r => hostOrders s h n r) s
    let s := agentPut s (hostAgentId h) (agentBump (hostAgentId h) (hostAgent s h))
    let s := nd.tiles.foldl (resumeTile past) s
    let left := ((packGet? s nd.pack).map (·.outstanding)).getD 0
    let st : NodeState :=
      if nd.restoring || nd.requeue then .placed
      else if left = 0 then .retiring
      else if nd.tiles.any fun t => (tileGet s t).yreqPosted then .yielding else .running
    let s := nodePut s n { nd with st, conflictBy := none }
    match nd.conflictBy with
    | some (by', x) => stopWide s n (identOf 2 by' 0) x
    | none => s

/-- A saved node becomes a pre-empted candidate, which is tested again (02 R45, 18 R407). -/
def resumeSaved (s : State) (n : Nat) (nd : Node) : State :=
  let nd := { nd with st := .preempted, since := timeOf s, order := s.nextOrder }
  let s := nodePut { s with nextOrder := s.nextOrder + 1 } n nd
  if impossible s nd then packLost s n nd else s

/-- The records of a node that has gone name none. -/
def orphanRecs (s : State) (n : Nat) : State :=
  { s with recQ := s.recQ.map fun r => if r.node = n ∧ r.cls ≠ 2 then { r with node := 4096 } else r }

/-- A node leaves for good (18 R420, R422). -/
def endNode (s : State) (n : Nat) (st : NodeState) : State :=
  match nodeGet? s n with
  | none => s
  | some nd =>
    let s := freeNode (orphanRecs s n) n
    match nodeGet? s n with
    | some x => dropTouched (nodePut s n { x with st, acq := [], conflictBy := none }) (nodeAsid nd)
    | none => s

/-- A rank of a node stopped by die-lost was on a lost die (18 R421). -/
def rankLost (s : State) (nd : Node) : Bool :=
  decide (nd.lastCause = causeDieLost) && nd.tiles.any fun t => (dieGet s (dieOf t)).lost

/-- The states in which a command is legal (18 R407). -/
def cmdLegal (op : Nat) (st : NodeState) : Bool :=
  match op, st with
  | 1, .stopped | 1, .saved | 2, .stopped | 3, .stopped | 5, .running => true
  | 4, .placed | 4, .running | 4, .yielding | 4, .retiring | 4, .stopped | 4, .saved | 4, .preempted => true
  | _, _ => false

/-- Why a command is refused, or none (18 R406, R407). -/
def cmdWhy (s : State) (h : Nat) (v : Word) : Option Nat :=
  let op := natBits v.toNat 61 3
  let n := natBits v.toNat 0 12
  if (hostGet s h).nodeCmd.isSome then some 1
  else if op = 0 ∨ 5 < op ∨ natBits v.toNat 12 49 ≠ 0 then some 4
  else match nodeGet? s n with
    | none => some 3
    | some nd =>
      if !hostOwns s h (nodeAsid nd) then some 2
      else if !cmdLegal op nd.st || nd.saving.isSome && decide (op ≠ 4) then some 3
      else if rankLost s nd && decide (op ≠ 4) then some 5
      else none

/-- A write of NODE_CMD (18 R406, R407). A resume waits for the node's record to have been written (18 R404).
A command that the node's state does not list is recorded (02 R60). -/
def nodeCmd (h : Nat) (v : Word) (s : State) : State :=
  let x := hostGet s h
  let op := natBits v.toNat 61 3
  let n := natBits v.toNat 0 12
  match cmdWhy s h v with
  | some w =>
    let s := noteBits (hostPut s h { x with nodeErr := true, nodeWhy := w }) (hostReg h 0x1008) 2
    if w = 3 then protocolNote s n else s
  | none =>
    let busy (s : State) (done : Bool) : State :=
      hostPut s h { hostGet s h with nodeCmd := some ⟨op, BitVec.ofNat 64 n, if done then 1 else 0⟩ }
    match op with
    | 3 => busy (nodePut' s n) true
    | 4 => busy (endNode s n .killed) true
    | 5 => busy (postYield s n) true
    | _ => match nodeGet? s n with
      | some nd =>
        if nd.st = .saved then busy (resumeSaved s n nd) true
        else if recHeld s n then busy s false
        else busy (resumeNode s h n (decide (op = 2))) true
      | none => s
where
  /-- A stopped node is to be saved: its tiles stand already. -/
  nodePut' (s : State) (n : Nat) : State :=
    match nodeGet? s n with
    | some nd => nodePut s n { nd with saving := some .saved }
    | none => s

/-- A tile has issued again since its node was resumed, or has nothing to issue (18 R406). -/
def issuedAgain (t : Tile) : Bool :=
  t.running.isNone || (decide (t.core.resumeSeq < t.core.nextSeq)
    && t.core.window.all fun b => decide (b.seq ≠ t.core.resumeSeq) || decide (b.past ≠ 0) || b.todo.isEmpty)

/-- Hosts whose command can complete, with it: a resume once every tile of the node has issued again, a save once the node is
saved (18 R406). -/
def cmdReady (s : State) : List (Nat × HostCmd) :=
  (List.range 2).filterMap fun h => (hostGet s h).nodeCmd.bind fun c =>
    let n := c.a.toNat
    let held : Bool := match nodeGet? s n with
      | some nd =>
        if c.b = 0 then decide (nd.st = .stopped) && recHeld s n
        else nd.saving.isSome
          || ((decide (c.kind = 1) || decide (c.kind = 2)) && (decide (nd.st = .running) || decide (nd.st = .yielding))
            && !nd.tiles.all fun tile => issuedAgain (tileGet s tile))
      | none => false
    if held then none else some (h, c)

/-- NODE_COMMAND_COMPLETE: a resume that waited for its record takes effect, and ends later as one that did not wait
(18 R404, R406). -/
def cmdComplete (s : State) : State :=
  match pickTurn s (cmdReady s) with
  | none => s
  | some (h, c) =>
    let n := c.a.toNat
    let done := hostPut s h { hostGet s h with nodeCmd := none }
    if c.b = 1 then done
    else match nodeGet? s n with
      | some nd =>
        if nd.st = .stopped then
          resumeNode (hostPut s h { hostGet s h with nodeCmd := some { c with b := 1 } }) h n (decide (c.kind = 2))
        else done
      | none => done

/-- Yielding nodes whose deadline has passed on a tile that has not answered: none of their tiles is frozen or faults
(18 R410, R423). -/
def deadlines (s : State) : List (Nat × Node) :=
  s.nodes.filter fun x => decide (x.2.st = .yielding) && x.2.saving.isNone
    && (x.2.tiles.any fun tile =>
        let t := tileGet s tile
        t.yreqPosted && t.running.isSome && decide (t.yreqUntil ≤ timeOf s))
    && x.2.tiles.all fun tile => (tileGet s tile).core.frozen.isNone && (tileDue s tile).isEmpty

/-- YIELD_DEADLINE_EXPIRY (18 R410). -/
def yieldExpiry (s : State) : State :=
  match pickTurn s (deadlines s) with
  | none => s
  | some (n, nd) =>
    let late := nd.tiles.foldl (fun m tile => max m (timeOf s - (tileGet s tile).yreqUntil)) 0
    let s1 := beginSave s n 1 .preempted
    if late = 0 then s1 else nodeNote s1 n (trapAt causeYieldOverrun (BitVec.ofNat 64 late) 0)

/-- A tile has nothing left to do for its node: engines idle, writes performed, results landed (18 R422). -/
def tileQuiet (s : State) (tile : Nat) : Bool :=
  let t := tileGet s tile
  t.running.isNone && t.core.flights.isEmpty && t.core.vec.isEmpty && (t.core.reqs.all fun r => !reqWrites r || reqSent r)
    && (tileDue s tile).isEmpty && t.engines.all fun e => engIdle e.2 && e.2.queue.isEmpty && !e.2.waiting

/-- Nodes that can retire (18 R422). -/
def retirable (s : State) : List (Nat × Node) :=
  s.nodes.filter fun x => decide (x.2.st = .retiring) && !recHeld s x.1 && x.2.tiles.all (tileQuiet s)

/-- The completion add of a node: a release at .pkg, or at .sys in host memory (02 R33, 16 R359). -/
def completionAdd (s : State) (n : Nat) (nd : Node) : EngOut State :=
  if nd.completion = 0 then .ok s
  else engThen (reelFind s (nodeAsid nd) nd.completion true) fun pa =>
    let sc : Scope := match homeOf pa with | .port _ => .sys | _ => .pkg
    if frameFrozen s pa then .wait none
    else if !partReads s pa 8 then .bad (trapOf causeLineLost)
    else
      let s1 := releaseVc (touchPa s (nodeAsid nd) pa) (nodeClock s n) (locMem pa) sc 0
      match reelAdd s1 (.mem pa) 1 with
      | .ok s2 => .ok s2
      | .error c => .bad (trapOf c)

/-- RETIREMENT_COMPLETE (18 R422). -/
def retire (s : State) : State :=
  match pickTurn s (retirable s) with
  | none => s
  | some (n, nd) =>
    match completionAdd s n nd with
    | .wait _ => s
    | .ok s1 => endNode s1 n .done
    | .bad _ => endNode (nodeNote s n (trapOf causeCompletionAdd)) n .done

/-- A node is struck by a lost die: its ASID's mask holds the die's bit (18 R421). -/
def dieStrikes (s : State) (n bit : Nat) (nd : Node) : State :=
  if !natBit (mapGet s.touched (nodeAsid nd) 0) bit then s
  else match nd.st with
    | .placed | .running | .yielding | .stopped | .retiring => stopWide s n noAgent (dieLostTrap s (nodeAsid nd))
    | .saved | .preempted => nodePut s n { nd with diesLost := true }
    | _ => s

/-- The requests and walks of a tile towards a lost home are never performed: what they wait for never comes (18 R421). -/
def reqsLost (bit : Nat) (tile : Nat) (c : Core) : Core :=
  let gone (r : Req) : Bool := (decide (r.st = .ready) || decide (r.st = .walk)) && (match fullPlace r.addr with
    | .mem _ => decide (r.st = .ready) && decide (homeBit r.pa = some bit)
    | .pool t _ => decide (dieOf t = bit) && decide (dieOf tile ≠ bit)
    | .reel t _ => decide (dieOf t = bit) && decide (dieOf tile ≠ bit)
    | _ => false)
  let ids := (c.reqs.filter gone).map fun r => some r.id
  { c with reqs := c.reqs.filter fun r => !gone r, flights := c.flights.filter fun f => f.req.isNone || !ids.contains f.req }

/-- DIE_LOST: a compute die is lost. Its dirty granules are lost at home, its caches and tiles are gone, the nodes that touched it
stop, and candidates are tested again (01 R14, R19; 02 R45; 10 R235; 18 R421). -/
def loseDie (d : Nat) (s : State) : State :=
  let x := dieGet s d
  if x.lost then s
  else
    let s := { s with lostGran := s.lostGran ++ x.dirty.filter fun g => !s.lostGran.contains g }
    let s := diePut s d { x with lost := true, tlb2 := [], walks := [], missQ := [], cached := [], dirty := [] }
    let s := s.nodes.foldl (fun s y => dieStrikes s y.1 d y.2) s
    let s := { s with tiles := s.tiles.map fun t => (t.1, { t.2 with core := reqsLost d t.1 t.2.core }) }
    retest s

/-- A write of NODE_CMD with a given operation (18 R406). -/
def nodeCmdOp (op : Nat) (host : BitVec 1) (val : BitVec 64) (s : State) : Out :=
  hostDoes host s (nodeCmd host.toNat (BitVec.ofNat 64 (val.toNat % 2 ^ 61 + op * 2 ^ 61)))

/-- A host's resume (18 R407). -/
def execNodeResume (host : BitVec 1) (val : BitVec 64) (s : State) : Out := nodeCmdOp 1 host val s

/-- A host's resume-over (18 R407). -/
def execNodeResumeOver (host : BitVec 1) (val : BitVec 64) (s : State) : Out := nodeCmdOp 2 host val s

/-- A host's save (18 R407). -/
def execNodeSave (host : BitVec 1) (val : BitVec 64) (s : State) : Out := nodeCmdOp 3 host val s

/-- A host's kill (18 R407). -/
def execNodeKill (host : BitVec 1) (val : BitVec 64) (s : State) : Out := nodeCmdOp 4 host val s

/-- A host's yield (18 R407). -/
def execNodeYield (host : BitVec 1) (val : BitVec 64) (s : State) : Out := nodeCmdOp 5 host val s

/-- A host's command completes (18 R406). -/
def execNodeCommandComplete (s : State) : Out := .next (cmdComplete s)

/-- A yield deadline expires (18 R410). -/
def execYieldDeadlineExpiry (s : State) : Out := .next (yieldExpiry s)

/-- A node retires (18 R422). -/
def execRetirementComplete (s : State) : Out := .next (retire s)

/-- A compute die is lost (18 R421). -/
def execDieLost (die : BitVec 3) (s : State) : Out := .next (loseDie die.toNat s)

end Sys2Proof.Machine
end

