-- ==== Sys2Proof/Machine/Pipeline.lean ====
section
/-! DEFINITION. Tile cycles and ticks, freezes, replays, stretches and the advance of package time (01 R17, R21; 05 R96,
R114 to R120; 20 R452). -/

namespace Sys2Proof.Machine

open Sys2Proof

/-- A result is due in this tick and has not landed; one whose request has returned a fault never lands (05 R105). -/
def flightDue (c : Core) (f : Flight) : Bool :=
  decide (f.land ≤ c.ticks) && (match f.req.bind (reqGet? c) with
    | some r => (match r.st with | .bad _ => false | _ => true)
    | none => true)

/-- Everything that belongs to the tick in progress has come about, and the core goes on to the next one (05 R96). The tick in
which a bobbin leaves its core ends with that. -/
def tickOver (s : State) (tile : Nat) : Bool :=
  let t := tileGet s tile
  let c := t.core
  match t.running with
  | none => decide (c.stage ≠ .start)
  | some _ => decide (c.stage = .landed) && coreLive s tile && c.flights.all (fun f => !flightDue c f) && (freezeCause c).isNone
      && (vecDue c).isNone && c.fault.isNone && (headTrap c).isNone

/-- The energy window moves on by one cycle (05 R114). -/
def energyShift (c : Core) : Core := { c with energy := (c.weight :: c.energy).take 31, weight := 0 }

/-- A tick ends, and the next one has not begun (05 R96); the idle counts of the engines are in ticks (12 R279). -/
def tickNext (t : Tile) : Tile :=
  let t := idleTick t
  { t with core := { t.core with ticks := t.core.ticks + 1, stage := .start, served := [], ticked := true } }

/-- A replay after one more tile cycle: it spends the flagged cycle, two on the flagged tick again and two on each of the
three ticks after it. A core stall in the second half of a tick holds it; a freeze waits until it has completed (05 R123). After
four flags it goes on until the safe voltage is restored (05 R116, R117). -/
def replayNext (hold safe : Bool) (r : Replay) : Option Replay :=
  if hold then some { r with left := r.left + 1 }
  else if r.left ≤ 1 then (if r.flags = 4 ∧ !safe then some { r with left := 2 } else none)
  else some { r with left := r.left - 1 }

/-- The end of a tile cycle, which is a tick when the tick in progress is over (05 R96, R114, R116). -/
def cycleEnd (s : State) (tile : Nat) : Tile :=
  let t := tileGet s tile
  let c := t.core
  let go := tickOver s tile
  let hold := coreLive s tile && !go && (freezeCause c).isNone && (headTrap c).isNone && c.fault.isNone
  let t := { t with core := { energyShift c with
    stretch := 0, replay := c.replay.bind (replayNext hold (decide (t.gov.restore = 0))),
    ticked := (match c.replay with | some r => decide (r.left = 7) | none => false) } }
  if go then tickNext t else t

/-- One package cycle on one tile: a freeze counts it, a stretch takes a second one, and else a tile cycle ends (05 R96, R114,
R116, R118, R120, R121). -/
def cycleTile (s : State) (tile : Nat) : State :=
  let t := tileGet s tile
  let c := t.core
  if s.clockStop then s
  else match c.frozen with
    | some f => tilePut s tile { t with core := { c with frozen := some { f with cycles := f.cycles + 1 } } }
    | none =>
      let s := arraysStep s tile
      let t := tileGet s tile
      tilePut s tile (if c.stretch = 1 then { t with core := { c with stretch := 2 } } else cycleEnd s tile)

/-- The timebase slews by at most one part in ten thousand of the time that has passed (20 R452). -/
def slewStep (s : State) (d : Nat) : State :=
  let k : Int := max (-(d : Int)) (min (d : Int) s.slew)
  { s with timeAdj := s.timeAdj + k, slew := s.slew - k }

/-- One package cycle passes on every tile (01 R17). -/
def cyclePass (s : State) : State :=
  let d := cyclePeriod s
  let s1 := (s.tiles.map (·.1)).foldl cycleTile s
  slewStep { s1 with clock := s1.clock + d, sets := [] } d

/-- FREEZE_BEGIN (05 R119, R123). -/
def freezeBegin (tile : Nat) (s : State) : State :=
  let t := tileGet s tile
  if trapOpen s tile && t.core.replay.isNone then
    match freezeCause t.core with
    | some a => tilePut s tile { t with core := { t.core with frozen := some ⟨a, timeOf s, 0⟩ } }
    | none => s
  else s

/-- A late transition of the tick before can be flagged in this tile cycle: by the fourth flag of a replay the voltage is on its way
up (05 R116, R117). -/
def flagOpen (s : State) (tile : Nat) : Bool :=
  let c := coreGet s tile
  c.frozen.isNone && !s.clockStop && c.ticked && (match c.replay with | some r => decide (r.flags < 4) | none => true)

/-- LATE_TRANSITION_FLAG: the flagged tick and the one in progress are executed again; a further flag restarts the replay, and
the fourth is an alarm. A replay counts once (05 R116, R117; 19 R424). -/
def lateFlag (tile : Nat) (s : State) : State :=
  let t := tileGet s tile
  if flagOpen s tile then
    let flags := (match t.core.replay with | some r => r.flags | none => 0) + 1
    let gov := if flags = 1 then
        dayCount s.point 0 1 { t.gov with replays := min (2 ^ 32 - 1) (t.gov.replays + 1), wReplays := t.gov.wReplays + 1 }
      else t.gov
    let s := if flags = 1 ∧ t.gov.replays < 2 ^ 32 - 1 then noteCount s (tileReg tile 0x50) (2 ^ 32) else s
    let s1 := tilePut s tile { t with core := { t.core with replay := some ⟨9, flags⟩, ticked := false }, gov }
    if flags = 4 then govAlarm s1 tile else s1
  else s

/-- CLOCK_STRETCH: the tile cycle in progress takes two periods, and no more (05 R118). -/
def clockStretch (tile : Nat) (s : State) : State :=
  let t := tileGet s tile
  if t.core.frozen.isNone && !s.clockStop && decide (t.core.stretch = 0) then
    tilePut s tile { t with core := { t.core with stretch := 1 } }
  else s

/-- A tile freezes (05 R119). -/
def execFreezeBegin (tile : BitVec 8) (s : State) : Out := .next (freezeBegin tile.toNat s)

/-- A shadow latch flags a late transition (05 R116). -/
def execLateTransitionFlag (tile : BitVec 8) (s : State) : Out := .next (lateFlag tile.toNat s)

/-- A tile cycle is stretched (05 R118). -/
def execClockStretch (tile : BitVec 8) (s : State) : Out := .next (clockStretch tile.toNat s)

end Sys2Proof.Machine
end

