-- ==== Sys2Proof/Machine/Reliab.lean ====
section
/-! DEFINITION. Reliability: corrections, bank marks, rebuild and patrol of the memory codes, and the margin governor
(19 R424 to R445; 01 R17 to R20). -/

namespace Sys2Proof.Machine

open Sys2Proof

/-- The index of a tile's entry of the margin table at a point (19 R438). -/
def flashKey (s : State) (tile point : Nat) : Nat := 4 * physTile s tile + point

/-- A byte of a physical tile's bank entry in flash: 0x3F for no bank, 0 for the retired byte (19 R438). -/
def bankByte (s : State) (p i : Nat) : Nat := mapGet s.bankMarks (p * 64 + i) (if i < 32 then 0x3F else 0)

/-- A write of flash fails when the flash says so (19 R438): whether it does, and the state that has asked. -/
def flashTry (s : State) : Bool × State := (!Config.freeBool s.free, { s with free := s.free + 1 })

/-- Reports a failed flash write of a tile (19 R438, R443). -/
def flashFailed (s : State) (tile : Nat) : State :=
  let t := tileGet s tile
  noteBits (tilePut s tile { t with gov := { t.gov with flerr := true } }) (tileReg tile 0x48) 8

/-- The entry of a tile at a point is written; a failed write leaves the one before (19 R438). -/
def flashWriteAt (s : State) (tile point : Nat) (f : FlashEnt → FlashEnt) : State :=
  let (ok, s1) := flashTry s
  if ok then { s1 with flash := mapPut s1.flash (flashKey s1 tile point) (f (flashOf s1 tile point)) }
  else flashFailed s1 tile

/-- The entry of a tile at the point in force is written (19 R438). -/
def flashWrite (s : State) (tile : Nat) (f : FlashEnt → FlashEnt) : State := flashWriteAt s tile s.point f

/-- The floor of an entry: the learned one, else that of the factory test (19 R438). -/
def entFloor (e : FlashEnt) : Nat := if e.valid then e.floor else e.fab

/-- Nanoseconds since the last 24-hour write (19 R440). -/
def dayNs (s : State) : Nat := timeOf s % 86400000000000

/-- The effective floor in whole mV, from a floor and a signed slope in µV per 1,000 h (19 R440). -/
def effOf (s : State) (floor slope : Nat) : Nat :=
  ((floor : Int) + signedNat 32 slope * (dayNs s : Int) / 3600000000000000000).toNat

/-- The effective floor of a tile (19 R440, R443). -/
def effFloor (s : State) (tile : Nat) : Nat := effOf s (tileGet s tile).gov.floor (flashOf s tile s.point).slope

/-- The voltage that the table gives for a tile at a point: the effective learned floor, else the safe value
(01 R17 to R19; 19 R438). -/
def tableVolt (s : State) (tile point : Nat) : Nat :=
  let e := flashOf s tile point
  trimUp (if e.valid then effOf s e.floor e.slope else e.safe)

/-- Pinned mode (19 R443). -/
def pinned (g : Governor) : Bool := g.ctl.getLsbD 16

/-- Pinned voltage, P and G (19 R443). -/
def pinMv (g : Governor) : Nat := natBits g.ctl.toNat 32 16
def pinP (g : Governor) : Nat := natBits g.ctl.toNat 23 9
def pinG (g : Governor) : Nat := natBits g.ctl.toNat 20 3

/-- The greatest profile of the point in force (19 R442). -/
def pMax (s : State) : Nat := if s.point = 3 then 384 else 480

/-- Rewrites the governor of a tile. -/
def govMap (s : State) (tile : Nat) (f : Governor → Governor) : State :=
  let t := tileGet s tile
  tilePut s tile { t with gov := f t.gov }

/-- A tile's voltage is set; the last moment below the safe value is kept (19 R434). -/
def setVolt (s : State) (tile v : Nat) : State :=
  let safe := safeOf s tile
  govMap s tile fun g => { g with v, lastBelow := if g.v < safe ∧ safe ≤ v then timeOf s else g.lastBelow }

/-- A window of the governor ends and the next one begins; a burst hint's raise ends with it unless the hint still stands
(19 R440, R444). -/
def windowNext (s : State) (tile : Nat) : State :=
  let safe := safeOf s tile
  let g := (tileGet s tile).gov
  let base := g.v - g.boost
  let up := if g.boost ≠ 0 ∧ g.hint = 1 ∧ !pinned g then min 10 (safe - base) else 0
  let s1 := setVolt s tile (base + up)
  govMap s1 tile fun g => { g with
    boost := up, wBundles := 0, wReplays := 0, wCe := 0, wStart := timeOf s }

/-- What a window that ended on its bundle count changes: the voltage without a burst's raise, and the floor
(19 R440, R444). -/
def windowLearn (g : Governor) (safe eff : Nat) : Nat × Nat :=
  let base := g.v - g.boost
  if 8 ≤ g.wReplays ∨ 4 ≤ g.wCe then (min safe (base + 2), if base ≤ eff then g.floor + 2 else g.floor)
  else if (g.wReplays ≤ 1 ∨ g.hint = 2) ∧ g.wCe = 0 ∧ eff < base then (base - 2, g.floor)
  else (base, g.floor)

/-- GOVERNOR_WINDOW_END (19 R440, R443, R445): a safe restore that is due goes first, and a pinned tile learns nothing. -/
def windowEnd (tile : Nat) (s : State) : State :=
  let g := (tileGet s tile).gov
  if g.wBundles < 2 ^ (natBits g.ctl.toNat 8 5 + 2) then s
  else if pinned g ∨ g.restore ≠ 0 then windowNext s tile
  else
    let (v, floor) := windowLearn g (safeOf s tile) (trimUp (effFloor s tile))
    let s1 := setVolt s tile (v + g.boost)
    let s2 := if floor = g.floor then s1
      else flashWrite (govMap s1 tile fun g => { g with floor }) tile fun e => { e with floor, valid := true }
    windowNext s2 tile

/-- Windows that have lasted 10 ms (19 R440). -/
def lateWindows (s : State) : List Nat :=
  s.tiles.filterMap fun x => if x.2.gov.wStart + 10000000 ≤ timeOf s then some x.1 else none

/-- GOVERNOR_WINDOW_TIMEOUT: a window that ends on its time changes nothing (19 R440). -/
def windowTimeout (s : State) : State :=
  match pickTurn s (lateWindows s) with
  | some tile => windowNext s tile
  | none => s

/-- SAFE_RESTORE (19 R441, R445): the safe voltage, the floor 10 mV higher, and the entry written. -/
def safeRestore (tile : Nat) (s : State) : State :=
  let g := (tileGet s tile).gov
  if g.restore = 0 ∨ s.clockStop then s
  else
    let floor := min (g.floor + 10) (flashOf s tile s.point).safe
    let s1 := setVolt s tile (safeOf s tile)
    let s2 := govMap s1 tile fun g => { g with boost := 0, floor, restore := 0 }
    windowNext (flashWrite s2 tile fun e =>
      { e with floor, valid := true, alarms := min (2 ^ 32 - 1) (e.alarms + g.restore) }) tile

/-- An emergency condition holds (19 R442). -/
def emergCond (g : Governor) : Bool := g.overTwice || decide (105 ≤ g.temp)

/-- Remembers when a condition of an emergency in force last held (19 R442). -/
def emergNote (s : State) (tile : Nat) : State :=
  govMap s tile fun g => if g.emerg && emergCond g then { g with emergSince := timeOf s } else g

/-- CURRENT_READING: a reading of a tile's current, in percent of the point's limit (19 R442), and the hint acted on
(19 R444). -/
def currentReading (tile reading : Nat) (s : State) : State :=
  let t := tileGet s tile
  let g := t.gov
  let auto := !pinned g
  let hint := if auto then (regRd t.core keyHint).v.toNat % 4 else 0
  let since := if reading < 90 then (if g.lowSince = 0 then max 1 (timeOf s) else g.lowSince) else 0
  let low := decide (since ≠ 0) && decide (since + 10000 ≤ timeOf s)
  let p := if pinned g && !g.emerg then g.p
    else if 100 < reading then max 15 (g.p - 32)
    else if hint = 1 then pMax s
    else if low then min (pMax s) (g.p + 32)
    else g.p
  let up := if hint = 1 ∧ g.boost = 0 then min 10 (safeOf s tile - g.v) else 0
  let s1 := setVolt s tile (g.v + up)
  emergNote (govMap s1 tile fun g => { g with
    p, hint, boost := g.boost + up, cur := reading, lowSince := if low then timeOf s else since,
    overTwice := decide (125 < g.cur) && decide (125 < reading) }) tile

/-- TEMPERATURE_READING: a reading of a tile's temperature in °C (19 R442). -/
def temperatureReading (tile reading : Nat) (s : State) : State :=
  emergNote (govMap s tile fun g => { g with temp := reading }) tile

/-- GRANT_ADJUST: the grant of every tile follows its temperature; a pinned one and one in an emergency keep theirs
(19 R442). -/
def grantAdjust (s : State) : State :=
  { s with tiles := s.tiles.map fun x =>
    let t := x.2
    if pinned t.gov || t.gov.emerg then x
    else (x.1, { t with grant :=
      if 95 ≤ t.gov.temp then max 4 (t.grant - 1) else if t.gov.temp ≤ 85 then min 7 (t.grant + 1) else t.grant }) }

/-- Tiles with an emergency condition and no emergency in force. -/
def emergDue (s : State) : List Nat := s.tiles.filterMap fun x => if !x.2.gov.emerg && emergCond x.2.gov then some x.1 else none

/-- GOVERNOR_EMERGENCY: the grant falls to 4 and engines are evicted until the points held fit (19 R442, 12 R284). -/
def emergency (s : State) : State :=
  match pickTurn s (emergDue s) with
  | none => s
  | some tile =>
    let t := tileGet s tile
    emergencyEvict tile 8 (tilePut s tile { t with grant := 4, gov := { t.gov with emerg := true, emergSince := timeOf s } })

/-- Emergencies whose conditions have not held for 100 µs (19 R442). -/
def emergOver (s : State) : List Nat :=
  s.tiles.filterMap fun x =>
    let g := x.2.gov
    if g.emerg && !emergCond g && decide (g.emergSince + 100000 ≤ timeOf s) then some x.1 else none

/-- The pinned values are put in force (19 R443, R445); a pinned voltage of 0, which no write has set, sets none. -/
def pinApply (s : State) (tile : Nat) : State :=
  let g := (tileGet s tile).gov
  if pinned g && !g.emerg then
    let s1 := if pinMv g = 0 then s else setVolt (govMap s tile fun g => { g with boost := 0 }) tile (pinMv g)
    let t := tileGet s1 tile
    tilePut s1 tile { t with grant := pinG g, gov := { t.gov with p := pinP g } }
  else s

/-- EMERGENCY_END (19 R442, R445). -/
def emergencyEnd (s : State) : State :=
  match pickTurn s (emergOver s) with
  | none => s
  | some tile => pinApply (govMap s tile fun g => { g with emerg := false }) tile

/-- The day at a point with the time since the last count, which goes to the point in force (01 R21). -/
def dayCounted (s : State) (g : Governor) : NMap PointDay :=
  let d := pointDay g s.point
  mapPut g.days s.point { d with ns := d.ns + (timeOf s - g.daySince) }

/-- The entry of a point after a day there: the ageing slope, unless the tile is pinned, the hours and the rate
(19 R438, R440). -/
def dayEntry (learn : Bool) (floor : Nat) (d : PointDay) (e : FlashEnt) : FlashEnt :=
  let s24 : Int := ((floor : Int) - (d.floor : Int)) * 1000000 / 24
  { e with
    slope := if learn then wrapInt 32 (signedNat 32 e.slope + (s24 - signedNat 32 e.slope) / 8) else e.slope,
    floor, valid := true, hours := min (2 ^ 32 - 1) (e.hours + (d.left + d.ns) / 3600000000000),
    rate := if d.bundles = 0 then 0 else min (2 ^ 32 - 1) (d.replays * 2 ^ 32 / d.bundles) }

/-- The 24-hour write of one tile, at each point that it has run at since the last one (01 R21; 19 R438, R440). -/
def dailyTile (s : State) (tile : Nat) : State :=
  let g := (tileGet s tile).gov
  let floorAt (p : Nat) : Nat := if p = s.point then g.floor else entFloor (flashOf s tile p)
  let days := dayCounted s g
  let s1 := govMap s tile fun g => { g with
    days := days.map fun x => (x.1, ⟨0, 0, floorAt x.1, 0, (x.2.left + x.2.ns) % 3600000000000⟩), daySince := timeOf s }
  days.foldl (fun s x => if x.2.ns = 0 ∧ x.1 ≠ s.point then s
    else flashWriteAt s tile x.1 (dayEntry (!pinned g) (floorAt x.1) x.2)) s1

/-- MARGIN_DAILY_WRITE: the governor of every tile writes its entry, every 24 h of timebase time (19 R438). -/
def dailyWrite (s : State) : State :=
  (s.tiles.map (·.1)).foldl (fun s t => if (dieGet s (dieOf t)).lost then s else dailyTile s t) s

/-- Codewords of the pool with wrong symbols that decode: tile, line, codeword (19 R426). -/
def correctable (s : State) : List (Nat × Nat × Nat) :=
  s.symErr.filterMap fun e =>
    let k := e.1 - 2 ^ 46
    let (tile, line, cw) := (k / 2 ^ 23, k / 4 % 2 ^ 21, k % 4)
    if 2 ^ 46 ≤ e.1 ∧ cwErrors s tile line cw ≠ [] ∧ !cwBad s tile line cw then some (tile, line, cw) else none

/-- POOL_CORRECTION_WRITEBACK: a corrected codeword is written back and counted, by bank for the steward
(19 R426, R427, R429, R440). -/
def correctionWriteback (s : State) : State :=
  match pickTurn s (correctable s) with
  | none => s
  | some (tile, line, cw) =>
    let banks := cwErrors s tile line cw
    let s1 := { s with symErr := mapDel s.symErr (cwKey tile line cw) }
    let t := tileGet s1 tile
    let g := segGet t (line % 8)
    let g1 := { g with ce := min 65535 (g.ce + 1), counts := banks.foldl (fun m b => mapPut m b (mapGet m b 0 + 1)) g.counts }
    let s2 := if g.ce < 65535 then noteCount s1 (tileReg tile (0x80 + 8 * (line % 8))) (2 ^ 16) else s1
    let s3 := if t.gov.ce < 65535 then noteCount s2 (tileReg tile 0x50) (2 ^ 16) else s2
    tilePut s3 tile { t with
      segs := mapPut t.segs (line % 8) g1, gov := { t.gov with ce := min 65535 (t.gov.ce + 1), wCe := t.gov.wCe + 1 } }

/-- A bank is marked failed already (19 R427). -/
def bankMarked (g : Seg) (b : Nat) : Bool :=
  (segErasures g).contains b || decide (g.spared = b) || (decide (b = 36) && decide (g.spared = 0x24))

/-- A further erasure of a segment; a fifth failed bank has no place to stand in (19 R427). -/
def addErasure (g : Seg) (b : Nat) : Seg :=
  if g.er1 = 0x3F then { g with er1 := b } else if g.er2 = 0x3F then { g with er2 := b }
  else if g.er3 = 0x3F then { g with er3 := b } else g

/-- A bank of a segment is marked failed; bank 36 is the spare (19 R427). -/
def markBank (g : Seg) (b : Nat) : Seg :=
  let g1 := { g with failed := g.failed + 1 }
  if b = 36 then
    let g2 := { g1 with spared := 0x24, rl := 3072 }
    if g.spared < 0x24 then addErasure g2 g.spared else g2
  else if g.spared = 0x3F then { g1 with spared := b, rl := 0 }
  else addErasure g1 b

/-- Banks due to be marked: 64 correctable errors placed in them (19 R427): tile, segment, bank. -/
def bankDue (s : State) : List (Nat × Nat × Nat) :=
  s.tiles.flatMap fun x => x.2.segs.flatMap fun y =>
    (y.2.counts.filter fun c => decide (64 ≤ c.2) && decide (c.1 ≤ 36) && decide (y.2.failed < 5) && !bankMarked y.2 c.1).map
      fun c => (x.1, y.1, c.1)

/-- The marks of a segment go to package flash; the retired mirror too (19 R427, R438). -/
def bankFlash (s : State) (tile seg : Nat) (g : Seg) (retired : Bool) : State :=
  let (ok, s1) := flashTry s
  if ok then
    let p := physTile s1 tile
    let m := [g.spared, g.er1, g.er2, g.er3].foldl (fun (r : NMap Nat × Nat) b => (mapPut r.1 (p * 64 + 4 * seg + r.2) b, r.2 + 1))
      (s1.bankMarks, 0)
    let s2 := { s1 with bankMarks := if retired then mapPut m.1 (p * 64 + 32) 1 else m.1 }
    if retired then
      (List.range 4).foldl (fun s f => { s with flash := mapPut s.flash (4 * p + f) { flashOf s tile f with retired := true } }) s2
    else s2
  else flashFailed s1 tile

/-- BANK_MARK_FAILED (19 R427, R438): the fourth failed bank of a segment retires the tile; later failures of a retired tile
are not recorded in flash. -/
def bankFailed (s : State) : State :=
  match pickTurn s (bankDue s) with
  | none => s
  | some (tile, seg, bank) =>
    let t := tileGet s tile
    let g := markBank (segGet t seg) bank
    let retire := decide (4 ≤ g.failed)
    let s1 := tilePut s tile { t with segs := mapPut t.segs seg g, retired := t.retired || retire }
    let s2 := if t.retired then s1 else bankFlash s1 tile seg g retire
    if retire && !t.retired then retest s2 else s2

/-- Segments that rebuild a bank onto the spare (19 R428). -/
def rebuilding (s : State) : List (Nat × Nat) :=
  s.tiles.flatMap fun x => (x.2.segs.filter fun y => decide (y.2.spared < 0x24) && decide (y.2.rl < 3072)).map fun y => (x.1, y.1)

/-- BANK_REBUILD_LINE: the next line of a rebuild (19 R428). -/
def rebuildLine (s : State) : State :=
  match pickTurn s (rebuilding s) with
  | none => s
  | some (tile, seg) =>
    let t := tileGet s tile
    let g := segGet t seg
    tilePut s tile { t with segs := mapPut t.segs seg { g with rl := g.rl + 1 } }

/-- Granules of a channel (19 R431). -/
def channelGrans : Nat := 25165824

/-- The DPA of a granule of a channel, in ascending order (10 R233; 19 R431). -/
def channelPa (channel p : Nat) : Nat := channel / 32 * 2 ^ 36 + p / 4 * 8192 + channel % 32 * 256 + p % 4 * 64

/-- The three counts of SCRUB_STAT of a stack, for both hosts: `k` is 0 skip, 1 ce, 2 ue (19 R433). -/
def scrubCount (s : State) (stack k : Nat) : State :=
  (List.range 2).foldl (fun s h =>
    let x := hostGet s h
    let w := (mapGet x.scrub stack 0).toNat
    let n := min 65535 (natBits w (16 * k) 16 + 1)
    let y : Word := BitVec.ofNat 64 (w - natBits w (16 * k) 16 * 2 ^ (16 * k) + n * 2 ^ (16 * k))
    let s := if n = natBits w (16 * k) 16 then s else noteCount s (hostReg h (0x10C0 + 8 * stack)) (2 ^ (16 * k))
    hostPut s h { x with scrub := mapPut x.scrub stack y }) s

/-- PATROL_SCRUB_READ: the next granule of a channel is read; one that needs correction is written back when it is unchanged,
which in one step it always is (19 R431, R433). -/
def patrolRead (channel : Nat) (s : State) : State :=
  if !s.mgmt.scrubCtl.getLsbD 32 then s
  else
    let p := mapGet s.patrol channel 0
    let pa := channelPa channel p
    let s1 := { s with patrol := mapPut s.patrol channel ((p + 1) % channelGrans) }
    if frameFrozen s pa || s.lostGran.contains (pa / 64) then s1
    else if granBad s (pa / 64) then scrubCount s1 (channel / 32) 2
    else if (mapGet s.symErr (pa / 64) []).isEmpty then s1
    else scrubCount { s1 with symErr := mapDel s1.symErr (pa / 64) } (channel / 32) 1

/-- A write of the management register block by a host: the other host's is dropped with a management-access record
(02 R41, 20 R447). -/
def mgmtWrite (h : Nat) (s : State) (f : State → State) : State :=
  if h = s.mgmt.mgmtHost then f s else hostNote s h (trapOf causeManagementAccess)

/-- The tile's registers read and write: its die is not lost (20 R449). -/
def tileThere (s : State) (tile : Nat) : Bool := !(dieGet s (dieOf tile)).lost

/-- A write of SHEP_CTL (19 R443). -/
def shepCtlWrite (h tile : Nat) (v : Word) (s : State) : State :=
  if !tileThere s tile then s
  else mgmtWrite h s fun s =>
    let w := v.toNat
    let mv := natBits w 32 16
    let p := natBits w 23 9
    let tgt := natBits w 8 5
    let safe := (flashOf s tile s.point).safe
    let pin := natBit w 16
    let mvOk := decide (mv % 2 = 0) && decide (400 ≤ mv) && decide (mv ≤ safe)
    let bad := decide (natBits w 48 16 ≠ 0) || decide (natBits w 17 3 ≠ 0) || decide (natBits w 13 3 ≠ 0) || decide (natBits w 0 8 ≠ 0)
      || !(mvOk || (decide (mv = 0) && !pin)) || decide (p < 15) || decide (pMax s < p) || decide (natBits w 20 3 < 4)
      || decide (tgt < 16) || decide (28 < tgt)
    if bad then noteBits (govMap s tile fun g => { g with ctlerr := true }) (tileReg tile 0x48) 1
    else pinApply (govMap s tile fun g => { g with ctl := v }) tile

/-- A write of SCRUB_CTL (19 R432). -/
def scrubCtlWrite (h : Nat) (v : Word) (s : State) : State :=
  mgmtWrite h s fun s =>
    let w := v.toNat
    let err := s.mgmt.scrubCtl.getLsbD 33 && !(keepSet s (mgmtReg 0x158) v).getLsbD 33
    let pass := natBits w 0 32
    let bad := decide (natBits w 34 30 ≠ 0) || decide (pass < 3600) || decide (31536000 < pass)
    let keep := if bad then s.mgmt.scrubCtl.toNat % 2 ^ 33 else w % 2 ^ 33
    let s := if bad then noteBits s (mgmtReg 0x158) (2 ^ 33) else s
    { s with mgmt := { s.mgmt with scrubCtl := BitVec.ofNat 64 (keep + boolNat (err || bad) * 2 ^ 33) } }

/-- The tile that a physical tile is, when its die is mapped and live (19 R439). -/
def tileOfPhys (s : State) (p : Nat) : Option Nat :=
  ((List.range 8).find? fun d => decide ((dieGet s d).phys = p / 32) && !(dieGet s d).lost).map fun d => d * 32 + p % 32

/-- A node is placed on a physical tile or stopped on it, be its die lost or not (19 R439). -/
def physTaken (s : State) (p : Nat) : Bool :=
  (List.range 8).any fun d => decide ((dieGet s d).phys = p / 32) && (tileGet s (d * 32 + p % 32)).node.isSome

/-- A SHEP_FCMD command fails (19 R439). -/
def shepFail (s : State) : State := noteBits { s with mgmt := { s.mgmt with shepErr := true } } (mgmtReg 0x1B8) (2 ^ 11)

/-- A write of SHEP_FCMD (19 R439). -/
def shepFcmd (h : Nat) (v : Word) (s : State) : State :=
  mgmtWrite h s fun s =>
    let w := v.toNat
    let p := natBits w 0 9
    let s := { s with mgmt := { s.mgmt with shepErr := s.mgmt.shepErr && !(keepSet s (mgmtReg 0x1B8) v).getLsbD 11 } }
    if !natBit w 9 then s
    else
      let bad := s.mgmt.shepCmd.isSome || decide (287 < p) || decide (natBits w 12 52 ≠ 0)
        || physTaken s p
      if bad then shepFail s else { s with mgmt := { s.mgmt with shepCmd := some p } }

/-- SHEP_FCMD_COMPLETE: the steps of a clear command (19 R439). -/
def shepComplete (s : State) : State :=
  match s.mgmt.shepCmd with
  | none => s
  | some p =>
    let tile := tileOfPhys s p
    let s := { s with mgmt := { s.mgmt with shepCmd := none } }
    let s := match tile with
      | some t =>
        let keys (k : Nat) : Bool := decide (cwKey t 0 0 ≤ k) && decide (k < cwKey (t + 1) 0 0)
        tilePut { s with symErr := s.symErr.filter fun e => !keys e.1 } t { tileGet s t with pool := [], found := [] }
      | none => s
    let (ok, s) := flashTry s
    if ok then
      let s := { s with
        bankMarks := s.bankMarks.filter (fun e => decide (e.1 / 64 ≠ p)),
        flash := s.flash.map fun e => if e.1 / 4 = p then (e.1, { e.2 with retired := false }) else e }
      let s := match tile with
        | some t => tilePut s t { tileGet s t with segs := (tileGet s t).segs.map fun y =>
            (y.1, { segReset with ce := y.2.ce }), retired := false }
        | none => s
      retest s
    else shepFail s

/-- A corrected codeword is written back (19 R426). -/
def execPoolCorrectionWriteback (s : State) : Out := .next (correctionWriteback s)

/-- A bank is marked failed (19 R427). -/
def execBankMarkFailed (s : State) : Out := .next (bankFailed s)

/-- A line is rebuilt onto the spare (19 R428). -/
def execBankRebuildLine (s : State) : Out := .next (rebuildLine s)

/-- A patrol engine reads a granule (19 R431). -/
def execPatrolScrubRead (channel : BitVec 8) (s : State) : Out := .next (patrolRead channel.toNat s)

/-- A governor's window ends on its bundle count (19 R440). -/
def execGovernorWindowEnd (tile : BitVec 8) (s : State) : Out := .next (windowEnd tile.toNat s)

/-- A governor's window ends on its time (19 R440). -/
def execGovernorWindowTimeout (s : State) : Out := .next (windowTimeout s)

/-- A safe restore (19 R441). -/
def execSafeRestore (tile : BitVec 8) (s : State) : Out := .next (safeRestore tile.toNat s)

/-- A reading of the current (19 R442). -/
def execCurrentReading (tile : BitVec 8) (reading : BitVec 16) (s : State) : Out :=
  .next (currentReading tile.toNat reading.toNat s)

/-- A reading of the temperature (19 R442). -/
def execTemperatureReading (tile : BitVec 8) (reading : BitVec 16) (s : State) : Out :=
  .next (temperatureReading tile.toNat reading.toNat s)

/-- The grants follow the temperature (19 R442). -/
def execGrantAdjust (s : State) : Out := .next (grantAdjust s)

/-- A governor emergency (19 R442). -/
def execGovernorEmergency (s : State) : Out := .next (emergency s)

/-- An emergency ends (19 R442). -/
def execEmergencyEnd (s : State) : Out := .next (emergencyEnd s)

/-- The 24-hour write of the margin table (19 R438). -/
def execMarginDailyWrite (s : State) : Out := .next (dailyWrite s)

/-- A write of SHEP_CTL (19 R443). -/
def execShepCtlWrite (host : BitVec 1) (tile : BitVec 8) (val : BitVec 64) (s : State) : Out :=
  hostDoes host s (shepCtlWrite host.toNat tile.toNat val)

/-- A write of SCRUB_CTL (19 R432). -/
def execScrubCtlWrite (host : BitVec 1) (val : BitVec 64) (s : State) : Out := hostDoes host s (scrubCtlWrite host.toNat val)

/-- A write of SHEP_FCMD (19 R439). -/
def execShepFcmdClear (host : BitVec 1) (val : BitVec 64) (s : State) : Out := hostDoes host s (shepFcmd host.toNat val)

/-- A clear command completes (19 R439). -/
def execShepFcmdComplete (s : State) : Out := .next (shepComplete s)

end Sys2Proof.Machine
end

