-- ==== Sys2Proof/Machine/Board.lean ====
section
/-! DEFINITION. Package reset and bring-up, frequency changes and the security alarm (01 R11 to R19; 20 R447, R448,
R461 to R467, R470). -/

namespace Sys2Proof.Machine

open Sys2Proof

/-- A host's port has no link: it did not come up, or its port die is lost (01 R13; 20 R447, R462). -/
def portOut (portsLost : List Nat) (ports h : Nat) : Bool := !natBit ports h || portsLost.contains (3 * h)

/-- The governor of a tile at reset: the full guard-band voltage, and the floor that flash gives (01 R19; 19 R443). -/
def govAtReset (e : FlashEnt) : Governor := { govReset with v := trimUp e.safe, floor := entFloor e, days := [(0, ⟨0, 0, entFloor e, 0, 0⟩)] }

/-- The tiles that flash gives a voltage, at 1.2 GHz and on the dies that the fuses name (01 R12, R19). -/
def tilesAtReset (s : State) : NMap Tile :=
  (List.range 256).filterMap fun n =>
    let e := flashOf s n 0
    if e = ⟨false, false, 0, 0, 0, 0, 0, 0, 0⟩ then none else some (n, { tileReset with gov := govAtReset e })

/-- PACKAGE_RESET: everything is as after reset but flash, fuses, memory contents, the keys that an alarm has zeroised, and
what stands outside; each boot ROM verifies its firmware, with failures by physical compute die and by port die, and
bring-up waits for its Toldody links (01 R12, R19; 20 R461, R462, R464). `ports` has a bit for each PCIe port whose link
comes up. -/
def packageReset (cfail pfail ports : Nat) (s : State) : State :=
  let r := State.reset
  let lost := (List.range 4).filter (natBit pfail)
  let host (h : Nat) : HostBlk := { hostReset with gone := portOut lost ports h }
  let bits := (2 ^ 9 - 1 - cfail % 2 ^ 9) * 2 ^ 15 + (2 ^ 4 - 1 - pfail % 2 ^ 4) * 2 ^ 11
  { r with
    agenda := s.agenda, turn := s.turn, free := s.free, clock := r.clock,
    flash := s.flash, flashPoint := s.flashPoint, flashMgmt := s.flashMgmt, bankMarks := s.bankMarks,
    dies := s.dies.map (fun d => (d.1, { dieReset d.1 with phys := d.2.phys })), tiles := tilesAtReset s,
    mem := s.mem, hostMem0 := s.hostMem0, hostMem1 := s.hostMem1, lostGran := s.lostGran,
    symErr := s.symErr.filter (fun e => decide (e.1 < 2 ^ 46)),
    portsLost := lost, hosts := [(0, host 0), (1, host 1)],
    mgmt := { mgmtReset with mgmtHost := s.flashMgmt % 2, zeroised := s.mgmt.zeroised, bootPhase := 1, bootBits := BitVec.ofNat 64 bits } }

/-- The highest revision in both bitmaps, plus 1; 0 with none in common (20 R463). -/
def commonRev (a b : Nat) : Nat := bitLen (a &&& b &&& 0xFFFF)

/-- A physical compute die has a link to some port die that stands (20 R463). -/
def dieLinked (s : State) (phys : Nat) : Bool :=
  (List.range 4).any fun p => !s.portsLost.contains p && decide (mapGet s.links (4 * phys + p) 0 ≠ 0)

/-- The logical dies that failed phases 0 and 1: firmware that did not verify, or no link (20 R461 to R463). -/
def bootLost (s : State) (d : Nat) : Bool :=
  let p := (dieGet s d).phys
  !natBit s.mgmt.bootBits.toNat (15 + p) || !dieLinked s p

/-- FUSED_REMAP_APPLY: the remap stands, and the dies that failed are lost (01 R12; 20 R461). -/
def remapApply (s : State) : State :=
  let s1 := (List.range 8).foldl (fun s d =>
    if bootLost s d then diePut s d { dieGet s d with lost := true } else diePut s d (dieGet s d)) s
  { s1 with mgmt := { s1.mgmt with bootPhase := 3 } }

/-- TOLDODY_LINK_TRAINED: a link finishes training; once all have, bring-up goes on; a die left without one in service is
lost (20 R461, R463). -/
def linkTrained (link reva revb : Nat) (s : State) : State :=
  if 36 ≤ link then s
  else
    let s1 := { s with links := mapPut s.links link (commonRev reva revb) }
    if s.mgmt.bootPhase = 1 then (if s1.links.length = 36 then remapApply s1 else s1)
    else if 3 ≤ s.mgmt.bootPhase then
      (List.range 8).foldl (fun s d => if (dieGet s d).phys = link / 4 && !dieLinked s (link / 4) then loseDie d s else s) s1
    else s1

/-- The marks of a segment in flash as the segment takes them: a bank on the spare is rebuilt again (19 R427 to R429). -/
def segLoaded (s : State) (p seg : Nat) : Seg :=
  let b (i : Nat) := bankByte s p (4 * seg + i)
  let n := ((List.range 4).filter fun i => decide (b i ≠ 0x3F)).length
  { segReset with
    spared := b 0, er1 := b 1, er2 := b 2, er3 := b 3, failed := n, rl := if b 0 < 0x24 then 0 else 3072 }

/-- The marks and the margin of a tile are loaded (19 R427, R438; 01 R19). -/
def tileLoaded (s : State) (tile : Nat) : State :=
  let p := physTile s tile
  let marks := s.bankMarks.filter fun e => decide (e.1 / 64 = p)
  let ent := flashOf s tile s.point
  let t := tileGet s tile
  if marks.isEmpty ∧ ent = ⟨false, false, 0, 0, 0, 0, 0, 0, 0⟩ then s
  else
    let segs : NMap Seg := (List.range 8).filterMap fun k =>
      let g := segLoaded s p k
      if g = segReset then none else some (k, g)
    tilePut s tile { t with
      segs, retired := bankByte s p 32 % 2 = 1,
      gov := govAtReset ent }

/-- Every in-use island moves to the table voltage of a point (01 R18). -/
def moveVolts (s : State) (point : Nat) : State :=
  (s.tiles.map (·.1)).foldl (fun s t => govMap (setVolt s t (tableVolt s t point)) t fun g => { g with boost := 0 }) s

/-- A frequency change is commanded: busy is set, and on a rise the islands move first (01 R18; 20 R448). -/
def freqBegin (s : State) (point : Nat) : State :=
  let s1 := { s with freqTarget := point, freqFrom := s.point, freqBusy := true }
  if s.point < point then moveVolts s1 point else s1

/-- MARGIN_TABLE_LOAD: phases 3 to 5. Marks and margins are loaded and the move to flash's frequency point begins; the key
is unsealed; the PCIe ports present their functions, and the management host is the one that flash names unless it has no
link (01 R19; 20 R447, R448, R461). -/
def tableLoad (s : State) : State :=
  if s.mgmt.bootPhase ≠ 3 then s
  else
    let s1 := (List.range 256).foldl tileLoaded s
    let s2 := freqBegin s1 s.flashPoint
    let m := s.flashMgmt % 2
    let m := if (hostGet s m).gone ∧ !(hostGet s (1 - m)).gone then 1 - m else m
    { s2 with
      hosts := (List.range 2).map fun h => (h, { hostGet s2 h with linkUp := !(hostGet s2 h).gone }),
      mgmt := { s2.mgmt with bootPhase := 5, mgmtHost := m } }

/-- A write of FREQ_CMD (20 R448): dropped while a change is in progress. -/
def freqCmd (h : Nat) (v : Word) (s : State) : State :=
  mgmtWrite h s fun s => if s.freqBusy then s else freqBegin s (v.toNat % 4)

/-- FREQ_CHANGE_CLOCK_STOP: once no replay is in progress, all tile clocks stop and the frequency changes; on a rise the
voltages already stand (01 R18). -/
def freqStop (s : State) : State :=
  if s.freqBusy && !s.clockStop && s.tiles.all (fun t => t.2.core.replay.isNone) then { s with point := s.freqTarget, clockStop := true }
  else s

/-- The governor of a tile at the point now in force: the floor of that point, and the day of the one before kept apart
(01 R21; 19 R440, R442). -/
def govAtPoint (s : State) (tile : Nat) (g : Governor) : Governor :=
  let floor := entFloor (flashOf s tile s.point)
  let days := dayCounted { s with point := s.freqFrom } g
  { g with
    days := mapPut days s.point (mapGet days s.point ⟨0, 0, floor, 0, 0⟩), daySince := timeOf s, floor,
    p := if pinned g && !g.emerg then g.p else min g.p (pMax s) }

/-- FREQ_CHANGE_CLOCK_RESTART: the clocks restart, on a fall the voltages follow, and busy clears; pinned tiles take their
pinned values again (01 R18; 19 R443, R445; 20 R448). -/
def freqRestart (s : State) : State :=
  if s.freqBusy && s.clockStop && !s.mgmt.halted then
    let s1 := { s with clockStop := false, freqBusy := false }
    let s2 := (s1.tiles.map (·.1)).foldl (fun s t => govMap s t (govAtPoint s t)) s1
    let s3 := if s.point < s.freqFrom then moveVolts s2 s.point else s2
    (s3.tiles.map (·.1)).foldl pinApply s3
  else s

/-- SECURITY_ALARM: source, count and message; levels 1 and 2 stop every tile clock, and level 2 zeroises the key store
(20 R466, R467). -/
def securityAlarm (src : Nat) (s : State) : State :=
  let m := s.mgmt
  let level := m.alarmCtl.toNat % 4
  let stop := decide (level ≠ 0)
  let s1 := { s with mgmt := { m with
    alarmSrc := m.alarmSrc ||| 2 ^ (src % 4), alarmCount := min 65535 (m.alarmCount + 1), halted := m.halted || stop,
    zeroised := m.zeroised || decide (2 ≤ level) } }
  let s2 := noteBits s1 (mgmtReg 0x1A8) (2 ^ (src % 4))
  let s3 := if m.alarmCount < 65535 then noteCount s2 (mgmtReg 0x1A8) 16 else s2
  { msixSend s3 m.mgmtHost 16 with clockStop := s.clockStop || stop }

/-- A write of ALARM_CTL (20 R466): level 3, a lower level under lock, and unlocking are dropped. -/
def alarmCtlWrite (h : Nat) (v : Word) (s : State) : State :=
  mgmtWrite h s fun s =>
    let now := s.mgmt.alarmCtl.toNat
    let level := v.toNat % 4
    let lock := natBit now 2
    if level = 3 ∨ (lock ∧ (level < now % 4 ∨ !v.getLsbD 2)) then s
    else { s with mgmt := { s.mgmt with alarmCtl := v &&& 7#64 } }

/-- MANAGEMENT_PORT_FAILURE: the port's link goes in service; the management host stays the one it is (20 R447, R470). -/
def mgmtPortFail (s : State) : State :=
  let x := hostGet s s.mgmt.mgmtHost
  hostPut s s.mgmt.mgmtHost { x with linkUp := false, gone := true }

/-- Package reset (20 R461). -/
def execPackageReset (cfail : BitVec 9) (pfail : BitVec 4) (ports : BitVec 2) (s : State) : Out :=
  .next (packageReset cfail.toNat pfail.toNat ports.toNat s)

/-- A Toldody link has trained (20 R463). -/
def execToldodyLinkTrained (link : BitVec 6) (reva revb : BitVec 16) (s : State) : Out :=
  .next (linkTrained link.toNat reva.toNat revb.toNat s)

/-- Margin tables and bank marks are loaded (01 R19). -/
def execMarginTableLoad (s : State) : Out := .next (tableLoad s)

/-- A write of FREQ_CMD (20 R448). -/
def execFreqCmd (host : BitVec 1) (val : BitVec 64) (s : State) : Out := hostDoes host s (freqCmd host.toNat val)

/-- The tile clocks stop for a frequency change (01 R18). -/
def execFreqChangeClockStop (s : State) : Out := .next (freqStop s)

/-- The tile clocks restart (01 R18). -/
def execFreqChangeClockRestart (s : State) : Out := .next (freqRestart s)

/-- A security alarm (20 R466). -/
def execSecurityAlarm (src : BitVec 2) (s : State) : Out := .next (securityAlarm src.toNat s)

/-- A write of ALARM_CTL (20 R466). -/
def execAlarmCtlWrite (host : BitVec 1) (val : BitVec 64) (s : State) : Out := hostDoes host s (alarmCtlWrite host.toNat val)

/-- The management port fails in service (20 R470). -/
def execManagementPortFailure (s : State) : Out := .next (mgmtPortFail s)

end Sys2Proof.Machine
end

