-- ==== Sys2Proof/Machine/Host.lean ====
section
/-! DEFINITION. The hosts: the control BAR with its map of registers, the window BAR, AtomicOps, HKADD, SUMMARY and
attestation (16 R360 to R362; 17 R389, R396; 20 R446 to R450, R464, R465, R468, R469). -/

namespace Sys2Proof.Machine

open Sys2Proof

/-- A bit at a place. -/
def bitAt (b : Bool) (n : Nat) : Nat := boolNat b * 2 ^ n

/-- The code of a node state (02 R60). -/
def stateCode : NodeState → Nat
  | .queued => 0 | .blocked => 1 | .eligible => 2 | .held => 3 | .placed => 4 | .running => 5 | .yielding => 6
  | .preempted => 7 | .stopped => 8 | .saved => 9 | .retiring => 10 | .done => 11 | .rejected => 12 | .killed => 13

/-- BOOT_STAT (20 R464). -/
def bootStat (s : State) : Nat :=
  let remap := if 3 ≤ s.mgmt.bootPhase then ((List.range 8).map fun d => (dieGet s d).phys * 2 ^ (4 * d + 32)).sum else 0
  remap + s.mgmt.bootBits.toNat + ((List.range 8).map fun d => bitAt (dieGet s d).lost (3 + d)).sum + s.mgmt.bootPhase

/-- FREQ_CMD.point: the point in force, or the one commanded (20 R448). -/
def freqPoint (s : State) : Nat := if s.freqBusy then s.freqTarget else s.point

/-- ALARM_STAT (20 R466). -/
def alarmStat (s : State) : Nat := s.mgmt.alarmCount * 16 + s.mgmt.alarmSrc

/-- A word of a host's launch-queue block (02 R36). -/
def lqRead (s : State) (h off : Nat) : Nat :=
  let q := lqGet s h (off / 64)
  match off % 64 with
  | 0x00 => q.base.toNat
  | 0x08 => q.ctl.toNat
  | 0x10 => q.tail
  | 0x18 => q.head
  | 0x20 => lqStat s q
  | _ => 0

/-- A word of a host's fault-ring block (18 R403). -/
def frRead (s : State) (h off : Nat) : Nat :=
  let r := ringGet (hostGet s h) (off / 64)
  match off % 64 with
  | 0x00 => r.base.toNat
  | 0x08 => r.ctl.toNat
  | 0x10 => r.tail
  | 0x18 => r.head
  | 0x20 => r.lost * 2 ^ 16 + bitAt r.wrerr 3 + bitAt r.ctlerr 2 + bitAt (decide (ringUsed r = ringSize r)) 1 + bitAt r.ipend 0
  | _ => 0

/-- A word of a host's own block (20 R449). Write-only registers read 0 (00 R6). -/
def hostRead (s : State) (h off : Nat) : Nat :=
  let x := hostGet s h
  if off < 0x600 then lqRead s h off
  else if 0x800 ≤ off ∧ off < 0xC00 then frRead s h (off - 0x800)
  else if 0x10C0 ≤ off ∧ off < 0x1100 then (mapGet x.scrub ((off - 0x10C0) / 8) 0).toNat
  else match off with
    | 0x1008 => x.nodeWhy * 256 + bitAt x.nodeErr 1 + bitAt x.nodeCmd.isSome 0
    | 0x1018 => bitAt x.tlbiErr 1 + bitAt x.tlbi.isSome 0
    | 0x1020 => x.frzAddr.toNat
    | 0x1028 => bitAt x.frzErr 9 + bitAt x.frzBusy 8
    | 0x1040 => x.hkAddr.toNat
    | 0x1048 => x.hkAsid
    | 0x1058 => x.hkCause * 256 + bitAt x.hkErr 1 + bitAt x.hkCmd.isSome 0
    | 0x1060 => x.tdmAsid
    | 0x1068 => if hostOwns s h x.tdmAsid then mapGet s.touched x.tdmAsid 0 % 2 ^ 12 else 0
    | 0x1080 => x.rasLast.toNat
    | 0x1088 => x.rasAddr.toNat
    | 0x1090 => x.rasCnt.toNat
    | 0x1108 => bitAt x.sumErr 1 + bitAt x.sumCmd.isSome 0
    | 0x1118 => bitAt x.attErr 1 + bitAt x.attCmd.isSome 0
    | _ => 0

/-- A word of the margin table as SHEP_FLASH maps it (19 R438). -/
def flashRead (s : State) (off : Nat) : Nat :=
  if off < 36864 then
    let e := mapGet s.flash (off / 32) ⟨false, false, 0, 0, 0, 0, 0, 0, 0⟩
    match off % 32 / 8 with
    | 0 => bitAt e.retired 49 + bitAt e.valid 48 + e.fab % 2 ^ 16 * 2 ^ 32 + e.floor % 2 ^ 16 * 2 ^ 16 + e.safe % 2 ^ 16
    | 1 => e.hours % 2 ^ 32 * 2 ^ 32 + e.rate % 2 ^ 32
    | 2 => e.alarms % 2 ^ 32 * 2 ^ 32 + e.slope % 2 ^ 32
    | _ => 0
  else
    let p := (off - 36864) / 64
    let i := (off - 36864) % 64
    ((List.range 8).map fun j => bankByte s p (i + j) % 256 * 256 ^ j).sum

/-- A word of the management register block (20 R449). -/
def mgmtRead (s : State) (off : Nat) : Nat :=
  let m := s.mgmt
  if off < 0xC0 then (mapGet m.drr (off / 8) 0x0101).toNat
  else if 0x100 ≤ off ∧ off < 0x140 then
    let d := dieGet s ((off - 0x100) / 8)
    bitAt d.xdie 8 + d.tries
  else if 0x10000 ≤ off ∧ off < 0x10000 + 55296 then flashRead s (off - 0x10000)
  else match off with
    | 0x140 => m.asidTbl.toNat
    | 0x148 => m.csaBase.toNat
    | 0x150 => m.csaCnt
    | 0x158 => m.scrubCtl.toNat
    | 0x160 => m.rqLim
    | 0x180 => m.hostSplit * 2 + m.mgmtHost
    | 0x188 => bitAt s.freqBusy 8 + freqPoint s
    | 0x190 => m.fabId.toNat
    | 0x1A0 => m.alarmCtl.toNat
    | 0x1A8 => alarmStat s
    | 0x1B0 => bootStat s
    | 0x1B8 => bitAt m.shepErr 11 + bitAt m.shepCmd.isSome 10
    | _ => 0

/-- POOL_SEG (19 R429). -/
def poolSeg (g : Seg) : Nat := g.rl * 2 ^ 32 + g.ce * 2 ^ 16 + g.er1 * 2 ^ 8 + g.spared

/-- LEASE_STAT (12 R283). -/
def leaseStat (t : Tile) : Nat :=
  ((List.range 8).map fun e => engState t e * 2 ^ (16 + 3 * e)).sum + t.leaseQ.length * 2 ^ 12 + leaseH t * 256 + t.grant

/-- SHEP_STAT (19 R443). -/
def shepStat (s : State) (tile : Nat) : Nat :=
  let t := tileGet s tile
  let g := t.gov
  g.v * 2 ^ 48 + effFloor s tile % 2 ^ 16 * 2 ^ 32 + g.p * 2 ^ 23 + t.grant * 2 ^ 20 + bitAt g.flerr 3 + bitAt g.emerg 2
    + bitAt (decide (g.v = safeOf s tile)) 1 + bitAt g.ctlerr 0

/-- A word of REEL_WIN for a host (16 R362). -/
def reelWin (s : State) (h tile off : Nat) : Nat :=
  let mine := match tileNode? s tile with | some nd => hostOwns s h (nodeAsid nd) | none => false
  if !mine then 0
  else if off % 16 = 0 then (reelGet (tileGet s tile) (off / 16)).value.toNat
  else bindWord s tile (off / 16)

/-- A word of a tile's block (20 R449). -/
def tileRead (s : State) (h tile off : Nat) : Nat :=
  let t := tileGet s tile
  if !tileThere s tile then 0
  else if 0x1000 ≤ off ∧ off < 0x2000 then reelWin s h tile (off - 0x1000)
  else if 0x80 ≤ off ∧ off < 0xC0 then poolSeg (segGet t ((off - 0x80) / 8))
  else match off with
    | 0x00 => boolNat t.dbg
    | 0x10 => t.leaseCtl.toNat
    | 0x18 => leaseStat t
    | 0x40 => t.gov.ctl.toNat
    | 0x48 => shepStat s tile
    | 0x50 => t.gov.replays * 2 ^ 32 + t.gov.ce * 2 ^ 16 + t.gov.alarms
    | _ => 0

/-- STRAND_STAT (20 R451). -/
def strandStat (x : Strand) : Nat := x.peer * 2 ^ 28 + x.pport * 2 ^ 24 + x.crc * 256 + bitAt x.align 1 + bitAt x.up 0

/-- What a read of the control BAR returns; an unassigned offset reads 0 (20 R449). -/
def mmioRead (s : State) (h off : Nat) : Word :=
  BitVec.ofNat 64 (
    if off < 0x100000 then hostRead s h off
    else if off < 0x200000 then mgmtRead s (off - 0x100000)
    else if 0x1000000 ≤ off ∧ off < 0x2000000 then tileRead s h ((off - 0x1000000) / 0x10000) (off % 0x10000)
    else if 0x2000000 ≤ off ∧ off < 0x2000300 then
      (if off % 64 = 0 then strandStat (strandGet s ((off - 0x2000000) / 64)) else 0)
    else 0)

/-- What a read clears: FR_STAT.lost, SCRUB_STAT, RAS_CNT, ALARM_STAT.count, SHEP_CNT, POOL_SEG.ce, STRAND_STAT.crc
(00 R6). What hardware has counted in this cycle stays (00 R7). -/
def mmioClear (s : State) (h off : Nat) : State :=
  let x := hostGet s h
  let tile := (off - 0x1000000) / 0x10000
  if 0x800 ≤ off ∧ off < 0xC00 then
    (if off % 64 = 0x20 then
      (let n := (off - 0x800) / 64
       ringPut s h n { ringGet x n with lost := countIn s (ringReg h n) / 2 ^ 16 }) else s)
  else if 0x10C0 ≤ off ∧ off < 0x1100 then 
    (let k := (off - 0x10C0) / 8
     let n := countIn s (hostReg h off)
     hostPut s h { x with scrub := if n = 0 then mapDel x.scrub k else mapPut x.scrub k (BitVec.ofNat 64 n) })
  else if off = 0x1090 then hostPut s h { x with rasCnt := BitVec.ofNat 64 (countIn s (hostReg h off)) }
  else if off = 0x1001A8 then { s with mgmt := { s.mgmt with alarmCount := countIn s off / 16 } }
  else if 0x1000000 ≤ off ∧ off < 0x2000000 ∧ tileThere s tile then
    (if off % 0x10000 = 0x50 then
      (let n := countIn s off
       govMap s tile fun g => { g with replays := natBits n 32 32, ce := natBits n 16 16, alarms := natBits n 0 16 })
     else if 0x80 ≤ off % 0x10000 ∧ off % 0x10000 < 0xC0 then
      (let n := (off % 0x10000 - 0x80) / 8
       let t := tileGet s tile
       let k := countIn s off / 2 ^ 16
       if (segGet t n).ce = k then s else tilePut s tile { t with segs := mapPut t.segs n { segGet t n with ce := k } })
     else s)
  else if 0x2000000 ≤ off ∧ off < 0x2000300 ∧ off % 64 = 0 then
    (let n := (off - 0x2000000) / 64
     strandPut s n { strandGet s n with crc := 0 })
  else s

/-- A host's access through a BAR completes. -/
def complete (s : State) (h : Nat) (c : Cpl) : State := hostPut s h { hostGet s h with cpl := some c }

/-- Accesses to the control BAR are answered at this offset: all, or after a halting alarm only ALARM_STAT, BOOT_STAT and
SUMMARY (20 R467). -/
def mmioOpen (s : State) (h off : Nat) : Bool :=
  (hostGet s h).linkUp && decide (s.mgmt.bootPhase = 5)
    && (!s.mgmt.halted || [0x1001A8, 0x1001B0, 0x1100, 0x1108].contains off)

/-- RC_REGISTER_READ: a read of the control BAR, of 8 bytes at an aligned offset; it clears what reading clears
(00 R6, R7; 20 R449). -/
def rcRead (h off size : Nat) (s : State) : State :=
  if !mmioOpen s h off then s
  else if size ≠ 8 ∨ off % 8 ≠ 0 then complete s h .unsupported
  else
    let old := (mmioRead s h off).toNat - countIn s (if off < 0x100000 then hostReg h off else off)
    complete (mmioClear s h off) h (.ok (leBytes 8 old))

/-- A command with a host's reel add is refused (16 R361). -/
def hkRefuse (s : State) (h cause : Nat) : State :=
  let x := hostGet s h
  noteBits (hostPut s h { x with hkErr := true, hkCause := cause }) (hostReg h 0x1058) 2

/-- A write of HKADD_VAL (16 R361): one add starts, or is refused at once. -/
def hkAdd (h : Nat) (v : Word) (s : State) : State :=
  let x := hostGet s h
  if x.hkCmd.isSome then hkRefuse s h 7
  else if !hostOwns s h x.hkAsid then hkRefuse s h 8
  else hostPut s h { x with hkCmd := some ⟨x.hkAsid, x.hkAddr, v⟩ }

/-- The cause that HKADD_STAT records for a fault (16 R360). -/
def hkCauseOf (c : Nat) : Nat :=
  if c = causeBadAddress then 1 else if c = causeReelPage then 2 else if c = causeReelOverflow then 3
  else if c = causeRingCeiling then 4 else if c = causeIllegalTarget then 5 else 6

/-- HKADD_PERFORM: a release at .sys (16 R361). -/
def hkPerform (s : State) : State :=
  let ready (h : Nat) : Option (Nat × HostCmd) := match (hostGet s h).hkCmd with
    | some c => if addWaits s c.kind c.a then none else some (h, c)
    | none => none
  match pickTurn s ((List.range 2).filterMap ready) with
  | none => s
  | some (h, c) =>
    let s1 := hostPut s h { hostGet s h with hkCmd := none }
    match extAdd s1 c.kind (hostAgentId h) (hostAgent s1 h) c.a c.b .sys with
    | .ok s2 => s2
    | .error e => hkRefuse s1 h (hkCauseOf e)

/-- `n` bytes at an address that a host gives lie in memory that the part can write (20 R465, R468). -/
def areaThere (s : State) (a n : Nat) : Bool :=
  match homeOf a with
  | .stack _ => inHbm a n && !homeGone s a
  | .port p => (hostGet s p).linkUp && decide (homeOf (a + n - 1) = .port p)
  | .none => false

/-- A SUMMARY command fails (20 R468). -/
def sumFail (s : State) (h : Nat) : State := noteBits (hostPut s h { hostGet s h with sumErr := true }) (hostReg h 0x1108) 2

/-- An attestation command fails (20 R465). -/
def attFail (s : State) (h : Nat) : State := noteBits (hostPut s h { hostGet s h with attErr := true }) (hostReg h 0x1118) 2

/-- A write of SUM_CMD (20 R468). -/
def sumWrite (h : Nat) (v : Word) (s : State) : State :=
  let x := hostGet s h
  if x.sumCmd.isSome ∨ v.toNat % 4096 ≠ 0 ∨ !areaThere s v.toNat 4096 then sumFail s h
  else hostPut s h { x with sumCmd := some v }

/-- A write of ATT_CMD (20 R465). -/
def attWrite (h : Nat) (v : Word) (s : State) : State :=
  let x := hostGet s h
  if x.attCmd.isSome ∨ v.toNat % 4096 ≠ 0 ∨ !areaThere s v.toNat 2048 ∨ s.mgmt.bootPhase < 4 ∨ s.mgmt.zeroised then
    attFail s h
  else hostPut s h { x with attCmd := some [v] }

/-- Words that the spec leaves open, `n` of them. -/
def freeWords (s : State) (n : Nat) : List Nat × State :=
  ((List.range n).map fun i => (Config.freeWord (s.free + i)).toNat, { s with free := s.free + n })

/-- A list of words as bytes, filled with zeros to `n` bytes. -/
def wordsPad (n : Nat) (l : List Nat) : List Byte := (l.flatMap (leBytes 8) ++ List.replicate n (0 : Byte)).take n

/-- The nodes of a host that SUMMARY lists, lowest number first (20 R469). -/
def sumNodes (s : State) (h : Nat) : List (Nat × Node) :=
  s.nodes.filter fun x => decide (x.2.host = h) && decide (x.2.st ≠ .running) && decide (x.2.st ≠ .queued)

/-- An entry of SUMMARY's list of nodes. -/
def sumNode (x : Nat × Node) : Nat :=
  x.1 % 2 ^ 12 + stateCode x.2.st * 2 ^ 12 + x.2.lastCause % 256 * 2 ^ 16 + nodeAsid x.2 * 2 ^ 24

/-- SUMMARY's entry of a tile (20 R469). -/
def sumTile (s : State) (h tile : Nat) : Nat :=
  let t := tileGet s tile
  let nd := tileNode? s tile
  let code := match nd with
    | some n => if n.host = h then 1 else 2
    | none => if t.retired then 3 else 0
  let reels0 := (nd.map (·.reels0)).getD []
  let moved := ((List.range 256).filter fun k => decide (reelGet t k ≠ mapGet reels0 k reelReset)).length
  code * 2 ^ 62 + (if code = 2 then 0 else t.packId % 2 ^ 13 * 2 ^ 49 + ((nd.map nodeAsid).getD 0) * 2 ^ 38)
    + ((List.range 8).map fun e => bitAt (leaseHeld (engGet t e).st) (30 + e)).sum
    + leaseH t * 2 ^ 26 + t.grant * 2 ^ 23 + moved * 2 ^ 14

/-- A 256-bit mask of tiles as four words. -/
def tileMask (p : Nat → Bool) : List Nat :=
  (List.range 4).map fun i => ((List.range 64).map fun j => bitAt (p (64 * i + j)) j).sum

/-- The SUMMARY record of a host (20 R469); the words of the dies are open, for their layout is not given. -/
def sumBytes (s : State) (h : Nat) : List Byte × State :=
  let (dies, s1) := freeWords s 12
  let queues := (List.range 24).flatMap fun l =>
    let q := lqGet s h l
    [q.head + q.tail * 2 ^ 32, q.ctl.toNat % 2 ^ 32 + lqStat s q * 2 ^ 32]
  let nodes := sumNodes s h
  let rings := (List.range 16).map fun n => let r := ringGet (hostGet s h) n; r.head + r.tail * 2 ^ 32
  let held := (s.recQ.filter fun r => decide (r.host = h)).length
  let gov (f : Governor → Bool) := tileMask fun n => f (tileGet s n).gov
  (wordsPad 64 [0x4D533946, h, s.mgmt.mgmtHost, freqPoint s, bootStat s, timeOf s] ++ wordsPad 384 queues
    ++ wordsPad 512 ((nodes.take 64).map sumNode) ++ wordsPad 128 rings ++ wordsPad 96 dies
    ++ wordsPad 32 (gov (·.emerg)) ++ wordsPad 32 (tileMask fun n => decide ((tileGet s n).gov.v = safeOf s n))
    ++ wordsPad 32 (tileMask fun n => (tileGet s n).retired)
    ++ wordsPad 32 [s.mgmt.alarmCtl.toNat, alarmStat s, held, nodes.length]
    ++ List.replicate 736 0 ++ wordsPad 2048 ((List.range 256).map (sumTile s h)), s1)

/-- SUMMARY_COMPLETE (20 R468). -/
def sumComplete (s : State) : State :=
  match pickTurn s ((List.range 2).filterMap fun h => ((hostGet s h).sumCmd).map fun v => (h, v)) with
  | none => s
  | some (h, v) =>
    let s1 := hostPut s h { hostGet s h with sumCmd := none }
    if areaThere s1 v.toNat 4096 then
      (let (bs, s2) := sumBytes s1 h
       partWrite s2 v.toNat bs)
    else sumFail s1 h

/-- Every 64-bit word of a list of bytes. -/
def wordsOf (bs : List Byte) : List Word := (List.range (bs.length / 8)).map fun i => BitVec.ofNat 64 (leNat ((bs.drop (8 * i)).take 8))

/-- The quote over a nonce (20 R465): versions, digests and signature are the implementation's (log entry 10). -/
def quoteBytes (s : State) (nonce : List Byte) : List Byte :=
  let open' (i : Nat) (l : List Word) : Nat := (Config.quoteWord i l).toNat
  let body := nonce ++ wordsPad 64 [0x51543946, s.mgmt.fabId.toNat, timeOf s, bootStat s]
    ++ wordsPad 864 ((List.range 108).map fun i => open' i []) ++ List.replicate 544 0
  body ++ wordsPad 512 ((List.range 64).map fun i => open' (108 + i) (wordsOf body))

/-- ATT_QUOTE_COMPLETE (20 R465). -/
def attComplete (s : State) : State :=
  match pickTurn s ((List.range 2).filterMap fun h => ((hostGet s h).attCmd).map fun v => (h, v.headD 0)) with
  | none => s
  | some (h, v) =>
    let s1 := hostPut s h { hostGet s h with attCmd := none }
    if areaThere s1 v.toNat 2048 && (memReadTrap s1 v.toNat 64).isNone && !s.mgmt.zeroised then
      partWrite s1 v.toNat (quoteBytes s1 (devBytes s1 v.toNat 64))
    else attFail s1 h

/-- A record stands in a launch queue, or a node has not ended (20 R447). -/
def nodesLive (s : State) : Bool :=
  s.nodes.any (fun x => match x.2.st with | .done | .rejected | .killed => false | _ => true)
    || s.hosts.any fun h => h.2.lq.any fun q => decide (q.2.head ≠ q.2.tail)

/-- A write of HOST_CFG, whose mgmt field is read-only (20 R447). -/
def hostCfgWrite (h : Nat) (v : Word) (s : State) : State :=
  mgmtWrite h s fun s =>
    let split := natBits v.toNat 1 11
    if nodesLive s then hostNote s h (trapOf causeManagementAccess)
    else { s with mgmt := { s.mgmt with hostSplit := split } }

/-- A node is placed, stopped, saved or pre-empted (18 R412). -/
def nodesHeld (s : State) : Bool := s.nodes.any fun x => holdsMask x.2

/-- A write of CSA_BASE (`reg` 0) or CSA_CNT (18 R412, 02 R45). -/
def csaWrite (h reg : Nat) (v : Word) (s : State) : State :=
  mgmtWrite h s fun s =>
    let base := v &&& 0x3FFFFF800000#64
    let cnt := v.toNat % 2 ^ 14
    let change := if reg = 0 then decide (base ≠ s.mgmt.csaBase) else decide (cnt ≠ s.mgmt.csaCnt)
    if change && nodesHeld s then hostNote s h (trapOf causeManagementAccess)
    else if reg = 0 then { s with mgmt := { s.mgmt with csaBase := base } }
    else retest { s with mgmt := { s.mgmt with csaCnt := cnt } }

/-- A write of DIE_STEAL_CTL (02 R58). -/
def dieStealWrite (h d : Nat) (v : Word) (s : State) : State :=
  mgmtWrite h s fun s =>
    if v.toNat % 256 = 0 then hostNote s h (trapOf causeManagementAccess)
    else diePut s d { dieGet s d with xdie := v.getLsbD 8, tries := v.toNat % 256 }

/-- A write of TILE_DBG (05 R108). -/
def dbgWrite (tile : Nat) (v : Word) (s : State) : State :=
  if tileThere s tile then tilePut s tile { tileGet s tile with dbg := v.getLsbD 0 } else s

/-- A write in a host's own block (20 R449). -/
def hostBlockWrite (h off : Nat) (v : Word) (s : State) : State :=
  let x := hostGet s h
  if off < 0x600 then
    (match off % 64 with
     | 0x00 => lqBaseWrite h (off / 64) v s
     | 0x08 => lqCtlWrite h (off / 64) v s
     | 0x10 => lqTailWrite h (off / 64) v s
     | 0x20 => lqStatWrite h (off / 64) v s
     | _ => s)
  else if 0x800 ≤ off ∧ off < 0xC00 then
    (let n := (off - 0x800) / 64
     match off % 64 with
     | 0x00 => ringBaseWrite h n v s
     | 0x08 => ringCtlWrite h n v s
     | 0x18 => ringHeadWrite h n v s
     | 0x20 => ringStatWrite h n v s
     | _ => s)
  else match off with
    | 0x1000 => nodeCmd h v s
    | 0x1008 => hostPut s h { x with nodeErr := x.nodeErr && !v.getLsbD 1 }
    | 0x1010 => tlbiWrite h v s
    | 0x1018 => hostPut s h { x with tlbiErr := x.tlbiErr && !v.getLsbD 1 }
    | 0x1020 => hostPut s h { x with frzAddr := v &&& 0x3FFFFFFF0003#64 }
    | 0x1028 => frzWrite h v s
    | 0x1040 => hostPut s h { x with hkAddr := v }
    | 0x1048 => hostPut s h { x with hkAsid := v.toNat % 2 ^ 11 }
    | 0x1050 => hkAdd h v s
    | 0x1058 => hostPut s h { x with hkErr := x.hkErr && !v.getLsbD 1 }
    | 0x1060 => hostPut s h { x with tdmAsid := v.toNat % 2 ^ 11 }
    | 0x1100 => sumWrite h v s
    | 0x1108 => hostPut s h { x with sumErr := x.sumErr && !v.getLsbD 1 }
    | 0x1110 => attWrite h v s
    | 0x1118 => hostPut s h { x with attErr := x.attErr && !v.getLsbD 1 }
    | _ => s

/-- A write in the management register block (20 R449). -/
def mgmtBlockWrite (h off : Nat) (v : Word) (s : State) : State :=
  let put (f : Mgmt → Mgmt) : State := mgmtWrite h s fun s => { s with mgmt := f s.mgmt }
  if off < 0xC0 then put fun m => { m with drr := mapPut m.drr (off / 8) (v &&& 0xFFFF#64) }
  else if 0x100 ≤ off ∧ off < 0x140 then dieStealWrite h ((off - 0x100) / 8) v s
  else match off with
    | 0x140 => put fun m => { m with asidTbl := v &&& 0x3FFFFFFFC001#64 }
    | 0x148 => csaWrite h 0 v s
    | 0x150 => csaWrite h 1 v s
    | 0x158 => scrubCtlWrite h v s
    | 0x160 => put fun m => { m with rqLim := v.toNat % 16 }
    | 0x180 => hostCfgWrite h v s
    | 0x188 => freqCmd h v s
    | 0x190 => put fun m => { m with fabId := v &&& 0xFFF#64 }
    | 0x1A0 => alarmCtlWrite h v s
    | 0x1A8 => put fun m => { m with alarmSrc := m.alarmSrc &&& (15 - v.toNat % 16) }
    | 0x1B8 => shepFcmd h v s
    | _ => mgmtWrite h s id

/-- A write in a tile's block (20 R449). -/
def tileBlockWrite (h tile off : Nat) (v : Word) (s : State) : State :=
  if !tileThere s tile then s
  else match off with
    | 0x00 => dbgWrite tile v s
    | 0x10 => mgmtWrite h s fun s => tilePut s tile { tileGet s tile with leaseCtl := v &&& 0xFF00FFFFFF#64 }
    | 0x20 => leaseCmd h tile v s
    | 0x40 => shepCtlWrite h tile v s
    | 0x48 => govMap s tile fun g => { g with flerr := g.flerr && !v.getLsbD 3, ctlerr := g.ctlerr && !v.getLsbD 0 }
    | _ => s

/-- MMIO_REGISTER_WRITE: a write of the control BAR, of 8 bytes at an aligned offset; one to an unassigned or read-only
offset has no effect, and a W1C bit that hardware has set in this cycle stays set (00 R6, R7; 20 R449). -/
def mmioWrite (h off size : Nat) (v : Word) (s : State) : State :=
  if !mmioOpen s h off then s
  else if size ≠ 8 ∨ off % 8 ≠ 0 then complete s h .unsupported
  else
    let v := keepSet s (if off < 0x100000 then hostReg h off else off) v
    complete (
    if off < 0x100000 then hostBlockWrite h off v s
    else if off < 0x200000 then mgmtBlockWrite h (off - 0x100000) v s
    else if 0x1000000 ≤ off ∧ off < 0x2000000 then tileBlockWrite h ((off - 0x1000000) / 0x10000) (off % 0x10000) v s
    else s) h (.ok [])

/-- The node of a conflict with a host's access stops; one that does not run takes the fault once it is resumed
(17 R389, R396). -/
def hostStops (s : State) (h n : Nat) (x : Trap) : State :=
  match nodeGet? s n with
  | none => s
  | some nd => match nd.st with
    | .placed | .running | .yielding | .retiring => stopWide s n (identOf 2 h 0) x
    | .stopped | .saved | .preempted => nodePut s n { nd with conflictBy := some (h, x) }
    | _ => s

/-- The conflict check of a host's access to a granule: it is performed all the same, and the node of the other access stops.
Its record is kept with the nodes whose records show the page to be checked (17 R388 to R390, R396). -/
def hostCheck (h : Nat) (write plain : Bool) (s : State) (g : Nat) : State :=
  let a := hostAgentId h
  let x := hostAgent s h
  match s.records.find? (conflictsWith a x.vc g write plain) with
  | some r => hostStops s h r.node (conflictTrap s causeConflict g (some r) write)
  | none =>
    match s.records.find? (fun r => decide (r.gran = g) && decide (r.agent ≠ a)) with
    | none => s
    | some r => match checkGran s a { x with node := r.node } g write plain none with
      | .ok s1 => agentPut (recTag s1 g r.tagAt r.tag) a x
      | .error _ => s

/-- The records that lie in a slot that a host reads: their ring and number. -/
def recsAt (s : State) (h pa n : Nat) : List (Nat × Nat) :=
  (List.range 16).flatMap fun k =>
    let r := ringGet (hostGet s h) k
    let base := r.base.toNat / 128 * 128
    if r.base.getLsbD 0 ∨ pa + n ≤ base ∨ base + 128 * ringSize r ≤ pa then []
    else
      let slot := (pa - base) / 128
      let last := (r.tail + 2 ^ 32 - 1) % 2 ^ 32
      let back := (last + 2 ^ 32 - slot) % ringSize r
      [(k, (last + 2 ^ 32 - back) % 2 ^ 32)]

/-- WINDOW_BAR_ACCESS: `ctl` bit 0 writes, bits 3:1 are log2 of the size, of 1 to 8 bytes. The access names its DPA and is not
translated; it is coherent, and no frozen frame holds it up (10 R234, R235, R245; 17 R389; 19 R430; 20 R450). -/
def windowAccess (h addr ctl : Nat) (data : Word) (s : State) : State :=
  let n := 2 ^ (natBits ctl 1 3 % 4)
  let write := natBit ctl 0
  if 2 ^ 39 ≤ addr ∨ !inHbm addr n then complete s h .unsupported
  else if write then
    (match memWriteTrap s addr n with
     | some _ => complete s h .abort
     | none =>
       let s1 := (granList addr n).foldl (hostCheck h true true) s
       complete (hostWakes (partWrite s1 addr (leBytes n data.toNat)) addr n) h (.ok []))
  else
    (match memReadTrap s addr n with
     | some _ => complete s h .abort
     | none =>
       let s1 := (recsAt s h addr n).foldl (fun s r => recordRead s h r.1 r.2) s
       let s2 := (granList addr n).foldl (hostCheck h false true) s1
       complete s2 h (.ok (devBytes s2 addr n)))

/-- COMPLETER_ATOMICOP: `ctl` bit 0 is the host, bits 2:1 FetchAdd, Swap or CAS, bit 3 8 bytes and not 4. The near-memory
atomic unit performs it at the home stack and leaves no cached copy (08 R187; 20 R446). -/
def completerAtomic (ctl addr : Nat) (data data2 : Word) (s : State) : State :=
  let h := natBits ctl 0 1
  let n := if natBit ctl 3 then 8 else 4
  if !hostCan s h then s
  else if natBits ctl 1 2 = 3 ∨ 2 ^ 39 ≤ addr ∨ addr % n ≠ 0 ∨ !inHbm addr n then complete s h .unsupported
  else if (memReadTrap s addr n).isSome then complete s h .abort
  else
    let old := devNat s addr n
    let new := match natBits ctl 1 2 with
      | 0 => (old + data.toNat) % 2 ^ (8 * n)
      | 1 => data.toNat % 2 ^ (8 * n)
      | _ => if old = data.toNat % 2 ^ (8 * n) then data2.toNat % 2 ^ (8 * n) else old
    let s1 := hostCheck h true false s (granMem addr)
    let s2 := syncAccess s1 (hostAgentId h) (identOf 2 h 0) 4097 (256 + h) .rlx .sys (locMem addr) true true
    complete (hostWakes (devWrite (cacheDrop s2 (addr / 64)) addr (leBytes n new)) addr n) h (.ok (leBytes n old))

/-- A host's access through the window BAR (20 R450). -/
def execWindowBarAccess (host : BitVec 1) (addr : BitVec 64) (ctl : BitVec 8) (data : BitVec 64) (s : State) : Out :=
  hostDoes host s (windowAccess host.toNat addr.toNat ctl.toNat data)

/-- A host's AtomicOp (20 R446). -/
def execCompleterAtomicop (ctl : BitVec 8) (addr data data2 : BitVec 64) (s : State) : Out :=
  .next (completerAtomic ctl.toNat addr.toNat data data2 s)

/-- A write of HKADD_VAL (16 R361). -/
def execHkadd (host : BitVec 1) (val : BitVec 64) (s : State) : Out := hostDoes host s (hkAdd host.toNat val)

/-- A host's reel add is performed (16 R361). -/
def execHkaddPerform (s : State) : Out := .next (hkPerform s)

/-- A write of SUM_CMD (20 R468). -/
def execSumCmd (host : BitVec 1) (val : BitVec 64) (s : State) : Out :=
  .next (if mmioOpen s host.toNat 0x1100 then sumWrite host.toNat val s else s)

/-- The SUMMARY record is written (20 R468). -/
def execSummaryComplete (s : State) : Out := .next (sumComplete s)

/-- A write of ATT_CMD (20 R465). -/
def execAttCmd (host : BitVec 1) (val : BitVec 64) (s : State) : Out := hostDoes host s (attWrite host.toNat val)

/-- The quote is written (20 R465). -/
def execAttQuoteComplete (s : State) : Out := .next (attComplete s)

/-- A write of TILE_DBG (05 R108). -/
def execTileDbgWrite (host : BitVec 1) (tile : BitVec 8) (val : BitVec 64) (s : State) : Out :=
  hostDoes host s (dbgWrite tile.toNat val)

/-- A write of CSA_BASE or CSA_CNT (18 R412). -/
def execCsaWrite (host reg : BitVec 1) (val : BitVec 64) (s : State) : Out := hostDoes host s (csaWrite host.toNat reg.toNat val)

/-- A write of HOST_CFG (20 R447). -/
def execHostCfgWrite (host : BitVec 1) (val : BitVec 64) (s : State) : Out := hostDoes host s (hostCfgWrite host.toNat val)

/-- A write of DIE_STEAL_CTL (02 R58). -/
def execDieStealCtlWrite (host : BitVec 1) (die : BitVec 3) (val : BitVec 64) (s : State) : Out :=
  hostDoes host s (dieStealWrite host.toNat die.toNat val)

/-- A write through the control BAR (20 R449). -/
def execMmioRegisterWrite (host : BitVec 1) (off : BitVec 26) (size : BitVec 4) (val : BitVec 64) (s : State) : Out :=
  .next (mmioWrite host.toNat off.toNat size.toNat val s)

/-- A read through the control BAR (20 R449). -/
def execRcRegisterRead (host : BitVec 1) (off : BitVec 26) (size : BitVec 4) (s : State) : Out :=
  .next (rcRead host.toNat off.toNat size.toNat s)

end Sys2Proof.Machine
end

