-- ==== Sys2Proof/Machine/Agenda.lean ====
section
/-! DEFINITION. What moves next (DESIGN CHOICE, log entry 1): the agenda of steps, what one package cycle offers, and how an
instruction is put where the step takes it. -/

namespace Sys2Proof.Machine

open Sys2Proof

/-- A choice that the spec leaves open, and the state that has taken it (log entry 2). -/
def coin (s : State) : Bool × State := (Config.freeBool s.free, { s with free := s.free + 1 })

/-- A number that the spec leaves open, and the state that has taken it (log entry 2). -/
def dice (s : State) : Nat × State := ((Config.freeWord s.free).toNat, { s with free := s.free + 1 })

/-- The event of a row code with two operands. -/
def eventOf (code a b : Nat) : Option Instr := instrEvent code (eventStep (BitVec.ofNat 9 code) (BitVec.ofNat 64 a) (BitVec.ofNat 64 b) 0 0)

/-- The oldest operation of a slot that waits for its issue. -/
def slotOffer (s : State) (tile k : Nat) : Option Instr :=
  (slotNext? (coreGet s tile) k).bind fun b => slotInstr k (BitVec.ofNat 8 tile) (mapGet b.words k 0)

/-- An event that the agenda offers. A late transition, a stretch, a spurious wake and what a neighbour sends come when they
please; a reading of the
current or the temperature has a value that the spec leaves open (05 R116, R118; 16 R368; 19 R442). -/
def eventOffer (s : State) (code a b : Nat) : Option Instr × State :=
  let (turn, s) := dice s
  let s := { s with turn }
  match code with
  | 32 | 33 =>
    let (go, s) := coin s
    (if go then eventOf code a b else none, s)
  | 119 =>
    let (go, s) := coin s
    (if go then eventOf code a (turn % 2 ^ 12) else none, s)
  | 110 | 111 | 114 =>
    let (go, s') := coin s
    if fxAwaits s a code then (if go then eventOf code a b else none, s') else (eventOf code a b, s)
  | 124 | 125 => (eventOf code a (turn % 2 ^ 16), s)
  | _ => (eventOf code a b, s)

/-- A multiple of a time in ns has been passed in the last cycle. -/
def crossed (s : State) (ns : Nat) : Bool :=
  decide (timeOf { s with clock := s.clock - cyclePeriod s } / ns ≠ timeOf s / ns)

/-- The patrol reads that fall into the last cycle: every channel's, at one full pass every SCRUB_CTL.pass seconds
(19 R431). -/
def patrolOffers (s : State) : List Todo :=
  let pass := natBits s.mgmt.scrubCtl.toNat 0 32 * 1000000000
  let at' (t : Nat) : Nat := t * channelGrans / pass
  if s.mgmt.scrubCtl.getLsbD 32 && decide (at' (timeOf { s with clock := s.clock - cyclePeriod s }) ≠ at' (timeOf s)) then
    (List.range 256).map fun c => .probe 68 c 0
  else []

/-- One tile in one cycle: freeze, fetch and dispatch, issue, the vector unit, commits, landings, traps, and at the end what an
idle tile does (05 R96 to R106; 02 R56, R57; 18 R397, R398). -/
def tileOffers (s : State) (tile : Nat) : List Todo :=
  [.probe 30 tile 0, .probe 32 tile 0, .probe 33 tile 0, .probe 20 tile 0, .probe 23 tile 0, .probe 26 tile 0,
   .slot tile 0, .slot tile 3, .slot tile 4, .probe 115 tile 0, .slot tile 1, .slot tile 2, .slot tile 5, .probe 116 tile 0]
  ++ List.replicate 16 (.probe 27 tile 0)
  ++ (coreGet s tile).reqs.map (fun r => .probe 29 tile (r.id % 2 ^ 16))
  ++ [.probe 28 tile 0, .probe 35 tile 0, .probe 34 tile 0, .probe 21 tile 0, .probe 22 tile 0, .probe 119 tile 0]

/-- The engines of a tile in one cycle (11 to 15, 20). Of an array: the end of a compute phase, before what is accepted; a
completion, a row that is read, and a command that begins; then what comes about at the end of the step: rows that land, a group that is
read, and a row's stores (13 R303, R304). -/
def engineOffers (tile : Nat) : List Todo :=
  (List.range 8).map (fun e => .probe 90 tile e)
  ++ [.probe 103 tile 0, .probe 103 tile 1]
  ++ (List.range 10).map (fun e => .probe 89 tile e)
  ++ (List.range 2).flatMap (fun c => [.probe 97 tile c, .probe 98 tile c, .probe 96 tile c, .probe 99 tile c])
  ++ (List.range 2).flatMap (fun m =>
      [.probe 107 tile m, .probe 104 tile m, .probe 101 tile m, .probe 102 tile m, .probe 102 tile m, .probe 102 tile m,
       .probe 105 tile m, .probe 106 tile m])
  ++ [2, 3, 4, 5, 6].flatMap (fun e => [.probe 108 tile e, .probe 109 tile e])
  ++ [.probe 109 tile 8, .probe 109 tile 9, .probe 110 tile 0, .probe 114 tile 0, .probe 111 tile 0, .probe 112 tile 0,
      .probe 109 tile 7]

/-- The governor of a tile (19 R440 to R442). -/
def govOffers (s : State) (tile : Nat) : List Todo :=
  [.probe 123 tile 0, .probe 121 tile 0]
  ++ (if crossed s 1000 then [.probe 124 tile 0] else []) ++ (if crossed s 10000 then [.probe 125 tile 0] else [])

/-- Events of the package that find for themselves which tile or node they concern, offered once for each tile in use. -/
def sharedOffers : List Todo :=
  [24, 25, 62, 63, 64, 61, 91, 92, 93, 94, 117, 118, 120, 31].map fun c => .probe c 0 0

/-- Events of the package, offered once in each cycle; a yield deadline comes after the commits of its cycle (18 R410). -/
def packageOffers (s : State) : List Todo :=
  [2, 10, 11, 100, 113, 95, 47, 58, 59, 60, 54, 57, 72, 15, 16, 17, 48, 49, 50, 18, 19, 46, 36, 75, 77, 79, 65, 66, 67, 127, 128, 122].map
      (fun c => .probe c 0 0)
  ++ (if crossed s 100000 then [.probe 126 0 0] else []) ++ (if crossed s 86400000000000 then [.probe 129 0 0] else [])
  ++ patrolOffers s

/-- Tiles in use: a node is placed on them, or a core runs. -/
def tilesUsed (s : State) : List Nat := s.tiles.filterMap fun t => if t.2.node.isSome || t.2.running.isSome then some t.1 else none

/-- What one package cycle offers: evictions of a governor come before what they meet in their cycle (12 R292, 13 R312). -/
def offers (s : State) : List Todo :=
  let used := tilesUsed s
  (s.tiles.map (·.1)).flatMap (govOffers s) ++ used.flatMap (tileOffers s) ++ used.flatMap engineOffers
    ++ used.flatMap (fun _ => sharedOffers) ++ packageOffers s

/-- A cycle passes, and the agenda is filled with what the next one offers. -/
def refill (s : State) : State :=
  let s := cyclePass s
  { s with agenda := offers s }

/-- What the step takes next: an instruction with the state that it runs in, or only a state; `error` for a word that decodes
to nothing. -/
def takeNext (s : State) : Except Unit (Option Instr × State) :=
  match s.agenda with
  | [] => .ok (none, refill s)
  | .word w turn :: rest =>
    (match decodeStep w with
     | .ok i => .ok (some i, { s with agenda := rest, turn })
     | .error _ => .error ())
  | .slot tile k :: rest => .ok (slotOffer s tile k, noteLoss { s with agenda := rest } tile k)
  | .probe code a b :: rest => .ok (eventOffer { s with agenda := rest } code a b)

/-- A bobbin at image 0, pc 0, ASID 0, for a slot operation that is placed on a tile with none. -/
def bareBobbin : Bobbin :=
  { image := 0, pc := 0, asid := 0, pack := 0, level := 0, spilled := false, root := false, link := false, join := 0, carry := [] }

/-- The step word goes to the head of the agenda; the tile of a slot operation gets a running bobbin if it has none. -/
def putWord (s : State) (w : StepWord) : State :=
  let s := { s with agenda := .word w 0 :: s.agenda }
  let tile := w.l1.toNat % 256
  if (w.l0.extractLsb' 60 4).toNat < 6 ∧ (tileGet s tile).running.isNone then
    tilePut s tile { tileGet s tile with running := some bareBobbin }
  else s

end Sys2Proof.Machine
end

