-- ==== Sys2Proof/Machine/Scalar.lean ====
section
/-! DEFINITION. The scalar operations of slots xa and xb (07 R163 to R172). -/

namespace Sys2Proof.Machine

open Sys2Proof

/-- The frame of every scalar operation: guard, operands, result into its latch and destination after `l` ticks; the
guard false, its pops are consumed and its push carries the latch's value (07 R144, R145, R163). -/
def scalarRun (tile slot : Nat) (o : SOp) (latch l : Nat) (extra : List Port)
    (f : State → Bundle → RV → RV → RV × Nat) (s : State) (b : Bundle) : Option State :=
  let run := guardTrue s tile o.guard
  match pendingTrap s tile (guardPorts o.guard ++ if run then o.srcA :: o.srcB :: extra else []) with
  | some t => some (raiseAt s tile b.seq slot t)
  | none =>
    if run then
      let vals := readPorts s tile (o.imm.signExtend 64) [o.srcA, o.srcB] (slotQ b.pops slot)
      let x := f s b (vals.getD 0 (rvOf 0)) (vals.getD 1 (rvOf 0))
      match dstEffs (slotQ b.pushes slot) o.dst x.1 with
      | .error t => some (raiseAt s tile b.seq slot t)
      | .ok effs =>
        some (addFlight s tile b.seq slot l
          (.reg (latchKey slot latch) x.1 :: effs ++ if x.2 = 0 then [] else [.fp x.2]))
    else some (addFlight s tile b.seq slot l (latchEntries (slotQ b.pushes slot) (latchKey slot latch)))

/-- The slot number of an execute operation. -/
def xSlot (hi : Bool) : Nat := if hi then 4 else 3

/-- The issue of a scalar operation. -/
def scalarOp (i : Instr) (tile : BitVec 8) (hi : Bool) (o : SOp) (latch l : Nat) (extra : List Port)
    (f : State → Bundle → RV → RV → RV × Nat) (s : State) : Out :=
  issueOp i tile.toNat (xSlot hi) s (scalarRun tile.toNat (xSlot hi) o latch l extra f)

/-- A pure 64-bit operation whose residue is formed anew after its operands are checked (07 R171). -/
def pure2 (f : Word → Word → Word) : State → Bundle → RV → RV → RV × Nat :=
  fun _ _ a b => (remade [a, b] (f a.v b.v), 0)

/-- The same with one operand. -/
def pure1 (f : Word → Word) : State → Bundle → RV → RV → RV × Nat := fun _ _ a _ => (remade [a] (f a.v), 0)

/-- A floating operation on two operands (07 R168, R169). -/
def float2 (tile : Nat) (o : SOp) (f : FpCtx → Nat → Nat → Nat × FpFlags) : State → Bundle → RV → RV → RV × Nat :=
  fun s b x y =>
    let r := f (scalarFpCtx s tile b o.imm) x.v.toNat y.v.toNat
    (remade [x, y] (BitVec.ofNat 64 r.1), flagBits r.2)

/-- add: the sum modulo 2^64, its residue propagated (07 R164, R171). -/
def execAdd (tile : BitVec 8) (hi : Bool) (o : SOp) (s : State) : Out :=
  scalarOp (.add tile hi o) tile hi o 0 1 [] (fun _ _ a b => (resAdd a b, 0)) s

/-- sub: the difference (07 R164, R171). -/
def execSub (tile : BitVec 8) (hi : Bool) (o : SOp) (s : State) : Out :=
  scalarOp (.sub tile hi o) tile hi o 0 1 [] (fun _ _ a b => (resSub a b, 0)) s

/-- mul: the low half of the product (07 R164, R171). -/
def execMul (tile : BitVec 8) (hi : Bool) (o : SOp) (s : State) : Out :=
  scalarOp (.mul tile hi o) tile hi o 1 3 [] (fun _ _ a b => (resMul a b, 0)) s

/-- mulh: the high half of the signed product (07 R164). -/
def execMulh (tile : BitVec 8) (hi : Bool) (o : SOp) (s : State) : Out :=
  scalarOp (.mulh tile hi o) tile hi o 1 3 [] (pure2 mulhSigned) s

/-- mulhn: the high half of the unsigned product (07 R164). -/
def execMulhn (tile : BitVec 8) (hi : Bool) (o : SOp) (s : State) : Out :=
  scalarOp (.mulhn tile hi o) tile hi o 1 3 [] (pure2 mulhUnsigned) s

/-- div: signed quotient toward zero; by 0 all ones (07 R164). -/
def execDiv (tile : BitVec 8) (hi : Bool) (o : SOp) (s : State) : Out :=
  scalarOp (.div tile hi o) tile hi o 3 24 [] (pure2 divSigned) s

/-- divn: unsigned quotient; by 0 all ones (07 R164). -/
def execDivn (tile : BitVec 8) (hi : Bool) (o : SOp) (s : State) : Out :=
  scalarOp (.divn tile hi o) tile hi o 3 24 [] (pure2 divUnsigned) s

/-- rem: signed remainder with the sign of a; by 0 a (07 R164). -/
def execRem (tile : BitVec 8) (hi : Bool) (o : SOp) (s : State) : Out :=
  scalarOp (.rem tile hi o) tile hi o 3 24 [] (pure2 remSigned) s

/-- remn: unsigned remainder; by 0 a (07 R164). -/
def execRemn (tile : BitVec 8) (hi : Bool) (o : SOp) (s : State) : Out :=
  scalarOp (.remn tile hi o) tile hi o 3 24 [] (pure2 remUnsigned) s

/-- and (07 R164). -/
def execAnd (tile : BitVec 8) (hi : Bool) (o : SOp) (s : State) : Out :=
  scalarOp (.andOp tile hi o) tile hi o 0 1 [] (pure2 fun a b => a &&& b) s

/-- or (07 R164). -/
def execOr (tile : BitVec 8) (hi : Bool) (o : SOp) (s : State) : Out :=
  scalarOp (.orOp tile hi o) tile hi o 0 1 [] (pure2 fun a b => a ||| b) s

/-- xor (07 R164). -/
def execXor (tile : BitVec 8) (hi : Bool) (o : SOp) (s : State) : Out :=
  scalarOp (.xorOp tile hi o) tile hi o 0 1 [] (pure2 fun a b => a ^^^ b) s

/-- andn: a AND NOT b (07 R164). -/
def execAndn (tile : BitVec 8) (hi : Bool) (o : SOp) (s : State) : Out :=
  scalarOp (.andn tile hi o) tile hi o 0 1 [] (pure2 fun a b => a &&& ~~~b) s

/-- shl: by the unsigned value b (07 R164, 00 R8). -/
def execShl (tile : BitVec 8) (hi : Bool) (o : SOp) (s : State) : Out :=
  scalarOp (.shl tile hi o) tile hi o 0 1 [] (pure2 shiftLeft64) s

/-- shr: logical, by the unsigned value b (07 R164, 00 R8). -/
def execShr (tile : BitVec 8) (hi : Bool) (o : SOp) (s : State) : Out :=
  scalarOp (.shr tile hi o) tile hi o 0 1 [] (pure2 shiftRight64) s

/-- sar: arithmetic, by the unsigned value b (07 R164, 00 R8). -/
def execSar (tile : BitVec 8) (hi : Bool) (o : SOp) (s : State) : Out :=
  scalarOp (.sar tile hi o) tile hi o 0 1 [] (pure2 shiftArith64) s

/-- rol: rotate left by b mod 64 (07 R164). -/
def execRol (tile : BitVec 8) (hi : Bool) (o : SOp) (s : State) : Out :=
  scalarOp (.rol tile hi o) tile hi o 0 1 [] (pure2 fun a b => rotl64 a (b.toNat % 64)) s

/-- min: the lesser, signed (07 R164). -/
def execMin (tile : BitVec 8) (hi : Bool) (o : SOp) (s : State) : Out :=
  scalarOp (.minOp tile hi o) tile hi o 0 1 [] (pure2 fun a b => if b.slt a then b else a) s

/-- max: the greater, signed (07 R164). -/
def execMax (tile : BitVec 8) (hi : Bool) (o : SOp) (s : State) : Out :=
  scalarOp (.maxOp tile hi o) tile hi o 0 1 [] (pure2 fun a b => if a.slt b then b else a) s

/-- minn: the lesser, unsigned (07 R164). -/
def execMinn (tile : BitVec 8) (hi : Bool) (o : SOp) (s : State) : Out :=
  scalarOp (.minn tile hi o) tile hi o 0 1 [] (pure2 fun a b => if b < a then b else a) s

/-- maxn: the greater, unsigned (07 R164). -/
def execMaxn (tile : BitVec 8) (hi : Bool) (o : SOp) (s : State) : Out :=
  scalarOp (.maxn tile hi o) tile hi o 0 1 [] (pure2 fun a b => if a < b then b else a) s

/-- clz: leading zero bits, 64 for 0 (07 R164). -/
def execClz (tile : BitVec 8) (hi : Bool) (o : SOp) (s : State) : Out :=
  scalarOp (.clz tile hi o) tile hi o 0 1 [] (pure1 leadingZeros) s

/-- ctz: trailing zero bits, 64 for 0 (07 R164). -/
def execCtz (tile : BitVec 8) (hi : Bool) (o : SOp) (s : State) : Out :=
  scalarOp (.ctz tile hi o) tile hi o 0 1 [] (pure1 trailingZeros) s

/-- popc: number of 1 bits (07 R164). -/
def execPopc (tile : BitVec 8) (hi : Bool) (o : SOp) (s : State) : Out :=
  scalarOp (.popc tile hi o) tile hi o 0 1 [] (pure1 popCount) s

/-- brev: bit i is bit 63 - i of a (07 R164). -/
def execBrev (tile : BitVec 8) (hi : Bool) (o : SOp) (s : State) : Out :=
  scalarOp (.brev tile hi o) tile hi o 0 1 [] (pure1 fun a => a.reverse) s

/-- bext: a field of a by the control value b (07 R165). -/
def execBext (tile : BitVec 8) (hi : Bool) (o : SOp) (s : State) : Out :=
  scalarOp (.bext tile hi o) tile hi o 0 1 [] (pure2 fieldExtract) s

/-- bins: b into a field of a by the control word (07 R165). -/
def execBins (tile : BitVec 8) (hi : Bool) (o : SOp) (s : State) : Out :=
  scalarOp (.bins tile hi o) tile hi o 0 1 [] (pure2 (fieldInsert (o.imm.toNat % 64) (o.imm.toNat / 64 % 128))) s

/-- sel: a when the predicate is 1, else b (07 R166). -/
def execSel (tile : BitVec 8) (hi : Bool) (o : SOp) (s : State) : Out :=
  scalarOp (.sel tile hi o) tile hi o 0 1 [.p (o.imm.setWidth 3)] (fun s _ a b =>
    (remade [a, b] (if (plainRd s tile.toNat (.p (o.imm.setWidth 3)) 0).v = 0 then b.v else a.v), 0)) s

/-- mov: a, with the residue it carries (07 R167, R170). -/
def execMov (tile : BitVec 8) (hi : Bool) (o : SOp) (s : State) : Out :=
  scalarOp (.mov tile hi o) tile hi o 0 1 [] (fun _ _ a _ => (a, 0)) s

/-- li: the sign-extended immediate (07 R167). -/
def execLi (tile : BitVec 8) (hi : Bool) (o : SOp) (s : State) : Out :=
  scalarOp (.li tile hi o) tile hi o 0 1 [] (fun _ _ _ _ => (rvOf (o.imm.signExtend 64), 0)) s

/-- lih: a shifted left by 16 with the immediate below (07 R167). -/
def execLih (tile : BitVec 8) (hi : Bool) (o : SOp) (s : State) : Out :=
  scalarOp (.lih tile hi o) tile hi o 0 1 [] (pure1 fun a => (a <<< 16) ||| (o.imm.setWidth 16).setWidth 64) s

/-- madr: a + b times the immediate (07 R167, R171). -/
def execMadr (tile : BitVec 8) (hi : Bool) (o : SOp) (s : State) : Out :=
  scalarOp (.madr tile hi o) tile hi o 1 3 [] (fun _ _ a b => (resAdd a (resMul b (rvOf (o.imm.signExtend 64))), 0)) s

/-- ceq: 1 when a = b, else 0 (07 R166). -/
def execCeq (tile : BitVec 8) (hi : Bool) (o : SOp) (s : State) : Out :=
  scalarOp (.ceq tile hi o) tile hi o 0 1 [] (pure2 fun a b => boolWord (decide (a = b))) s

/-- cne: 1 when a differs from b, else 0 (07 R166). -/
def execCne (tile : BitVec 8) (hi : Bool) (o : SOp) (s : State) : Out :=
  scalarOp (.cne tile hi o) tile hi o 0 1 [] (pure2 fun a b => boolWord (decide (a ≠ b))) s

/-- clt: 1 when a < b, signed, else 0 (07 R166). -/
def execClt (tile : BitVec 8) (hi : Bool) (o : SOp) (s : State) : Out :=
  scalarOp (.clt tile hi o) tile hi o 0 1 [] (pure2 fun a b => boolWord (a.slt b)) s

/-- cltn: 1 when a < b, unsigned, else 0 (07 R166). -/
def execCltn (tile : BitVec 8) (hi : Bool) (o : SOp) (s : State) : Out :=
  scalarOp (.cltn tile hi o) tile hi o 0 1 [] (pure2 fun a b => boolWord (decide (a < b))) s

/-- cle: 1 when a ≤ b, signed, else 0 (07 R166). -/
def execCle (tile : BitVec 8) (hi : Bool) (o : SOp) (s : State) : Out :=
  scalarOp (.cle tile hi o) tile hi o 0 1 [] (pure2 fun a b => boolWord (a.sle b)) s

/-- clen: 1 when a ≤ b, unsigned, else 0 (07 R166). -/
def execClen (tile : BitVec 8) (hi : Bool) (o : SOp) (s : State) : Out :=
  scalarOp (.clen tile hi o) tile hi o 0 1 [] (pure2 fun a b => boolWord (decide (a ≤ b))) s

/-- ctst: 1 when a AND b is not 0, else 0 (07 R166). -/
def execCtst (tile : BitVec 8) (hi : Bool) (o : SOp) (s : State) : Out :=
  scalarOp (.ctst tile hi o) tile hi o 0 1 [] (pure2 fun a b => boolWord (decide (a &&& b ≠ 0))) s

/-- pand: 1 when both are non-zero, else 0 (07 R166). -/
def execPand (tile : BitVec 8) (hi : Bool) (o : SOp) (s : State) : Out :=
  scalarOp (.pand tile hi o) tile hi o 0 1 [] (pure2 fun a b => boolWord (decide (a ≠ 0) && decide (b ≠ 0))) s

/-- por: 1 when one is non-zero, else 0 (07 R166). -/
def execPor (tile : BitVec 8) (hi : Bool) (o : SOp) (s : State) : Out :=
  scalarOp (.por tile hi o) tile hi o 0 1 [] (pure2 fun a b => boolWord (decide (a ≠ 0) || decide (b ≠ 0))) s

/-- pnot: 1 when a = 0, else 0 (07 R166). -/
def execPnot (tile : BitVec 8) (hi : Bool) (o : SOp) (s : State) : Out :=
  scalarOp (.pnot tile hi o) tile hi o 0 1 [] (pure1 fun a => boolWord (decide (a = 0))) s

/-- fadd (07 R169). -/
def execFadd (tile : BitVec 8) (hi : Bool) (o : SOp) (s : State) : Out :=
  scalarOp (.fadd tile hi o) tile hi o 2 4 [] (float2 tile.toNat o fpAdd) s

/-- fsub (07 R169). -/
def execFsub (tile : BitVec 8) (hi : Bool) (o : SOp) (s : State) : Out :=
  scalarOp (.fsub tile hi o) tile hi o 2 4 [] (float2 tile.toNat o fpSub) s

/-- fmul (07 R169). -/
def execFmul (tile : BitVec 8) (hi : Bool) (o : SOp) (s : State) : Out :=
  scalarOp (.fmul tile hi o) tile hi o 2 4 [] (float2 tile.toNat o fpMul) s

/-- ffma: a times b plus the destination, rounded once (07 R169). -/
def execFfma (tile : BitVec 8) (hi : Bool) (o : SOp) (s : State) : Out :=
  scalarOp (.ffma tile hi o) tile hi o 2 4 [o.dst] (fun s b x y =>
    let d := plainRd s tile.toNat o.dst 0
    let r := fpFma (scalarFpCtx s tile.toNat b o.imm) x.v.toNat y.v.toNat d.v.toNat
    (remade [x, y, d] (BitVec.ofNat 64 r.1), flagBits r.2)) s

/-- fmin (07 R169, 06 R136). -/
def execFmin (tile : BitVec 8) (hi : Bool) (o : SOp) (s : State) : Out :=
  scalarOp (.fmin tile hi o) tile hi o 2 4 [] (float2 tile.toNat o fpMin) s

/-- fmax (07 R169, 06 R136). -/
def execFmax (tile : BitVec 8) (hi : Bool) (o : SOp) (s : State) : Out :=
  scalarOp (.fmax tile hi o) tile hi o 2 4 [] (float2 tile.toNat o fpMax) s

/-- fcmp: 1 or 0 by the condition, no flag (07 R169). -/
def execFcmp (tile : BitVec 8) (hi : Bool) (o : SOp) (s : State) : Out :=
  scalarOp (.fcmp tile hi o) tile hi o 2 4 [] (float2 tile.toNat o (fpCmp (ctlCond o.imm))) s

/-- fcvt: from sfmt to fmt (07 R169, 06 R134). -/
def execFcvt (tile : BitVec 8) (hi : Bool) (o : SOp) (s : State) : Out :=
  scalarOp (.fcvt tile hi o) tile hi o 2 4 [] (fun s b x _ =>
    let r := fpCvt (scalarFpCtx s tile.toNat b o.imm) (fmtOf (ctlSfmt o.imm)) x.v.toNat
    (remade [x] (BitVec.ofNat 64 r.1), flagBits r.2)) s

end Sys2Proof.Machine
end

