-- ==== Sys2Proof/Machine/Dispatch.lean ====
section
/-! DEFINITION. The dispatch of every step of the opcode table to its meaning, one arm per constructor. -/

namespace Sys2Proof.Machine

open Sys2Proof

/-- One step of the F9 on the state: each constructor calls its own meaning. -/
def exec (i : Instr) (s : State) : Host.Outcome State Fault Refusal :=
  match i with
  | .nop tile o => Sys2Proof.Machine.execNop tile o s
  | .jmp tile o => Sys2Proof.Machine.execJmp tile o s
  | .jmpi tile o => Sys2Proof.Machine.execJmpi tile o s
  | .call tile o => Sys2Proof.Machine.execCall tile o s
  | .ret tile o => Sys2Proof.Machine.execRet tile o s
  | .loop tile o => Sys2Proof.Machine.execLoop tile o s
  | .loopr tile o => Sys2Proof.Machine.execLoopr tile o s
  | .endOp tile o => Sys2Proof.Machine.execEnd tile o s
  | .yield tile o => Sys2Proof.Machine.execYield tile o s
  | .suspend tile o => Sys2Proof.Machine.execSuspend tile o s
  | .fork tile o => Sys2Proof.Machine.execFork tile o s
  | .join tile o => Sys2Proof.Machine.execJoin tile o s
  | .csend tile o => Sys2Proof.Machine.execCsend tile o s
  | .lease tile o => Sys2Proof.Machine.execLease tile o s
  | .leasew tile o => Sys2Proof.Machine.execLeasew tile o s
  | .wake tile o => Sys2Proof.Machine.execWake tile o s
  | .unleash tile o => Sys2Proof.Machine.execUnleash tile o s
  | .slack tile o => Sys2Proof.Machine.execSlack tile o s
  | .fence tile o => Sys2Proof.Machine.execFence tile o s
  | .vfence tile o => Sys2Proof.Machine.execVfence tile o s
  | .trap tile o => Sys2Proof.Machine.execTrap tile o s
  | .brk tile o => Sys2Proof.Machine.execBrk tile o s
  | .psplit tile o => Sys2Proof.Machine.execPsplit tile o s
  | .pmerge tile o => Sys2Proof.Machine.execPmerge tile o s
  | .parrive tile o => Sys2Proof.Machine.execParrive tile o s
  | .pwait tile o => Sys2Proof.Machine.execPwait tile o s
  | .ovl tile o => Sys2Proof.Machine.execOvl tile o s
  | .sleepk tile o => Sys2Proof.Machine.execSleepk tile o s
  | .sleepkSource tile o => Sys2Proof.Machine.execSleepkSource tile o s
  | .sleepkSet tile o => Sys2Proof.Machine.execSleepkSet tile o s
  | .ld tile hi o => Sys2Proof.Machine.execLd tile hi o s
  | .st tile hi o => Sys2Proof.Machine.execSt tile hi o s
  | .ldq tile hi o => Sys2Proof.Machine.execLdq tile hi o s
  | .stq tile hi o => Sys2Proof.Machine.execStq tile hi o s
  | .ldc tile hi o => Sys2Proof.Machine.execLdc tile hi o s
  | .stc tile hi o => Sys2Proof.Machine.execStc tile hi o s
  | .pref tile hi o => Sys2Proof.Machine.execPref tile hi o s
  | .rdset tile hi o => Sys2Proof.Machine.execRdset tile hi o s
  | .rdsetOrg tile hi o => Sys2Proof.Machine.execRdsetOrg tile hi o s
  | .rdget tile hi o => Sys2Proof.Machine.execRdget tile hi o s
  | .rdgetOrg tile hi o => Sys2Proof.Machine.execRdgetOrg tile hi o s
  | .rdadv tile hi o => Sys2Proof.Machine.execRdadv tile hi o s
  | .rdadvOrg tile hi o => Sys2Proof.Machine.execRdadvOrg tile hi o s
  | .aadd tile hi o => Sys2Proof.Machine.execAadd tile hi o s
  | .aand tile hi o => Sys2Proof.Machine.execAand tile hi o s
  | .aor tile hi o => Sys2Proof.Machine.execAor tile hi o s
  | .axor tile hi o => Sys2Proof.Machine.execAxor tile hi o s
  | .amin tile hi o => Sys2Proof.Machine.execAmin tile hi o s
  | .amax tile hi o => Sys2Proof.Machine.execAmax tile hi o s
  | .aminn tile hi o => Sys2Proof.Machine.execAminn tile hi o s
  | .amaxn tile hi o => Sys2Proof.Machine.execAmaxn tile hi o s
  | .aswap tile hi o => Sys2Proof.Machine.execAswap tile hi o s
  | .acas tile hi o => Sys2Proof.Machine.execAcas tile hi o s
  | .aincw tile hi o => Sys2Proof.Machine.execAincw tile hi o s
  | .afaddb tile hi o => Sys2Proof.Machine.execAfaddb tile hi o s
  | .afaddF32 tile hi o => Sys2Proof.Machine.execAfaddF32 tile hi o s
  | .afaddBf16x2 tile hi o => Sys2Proof.Machine.execAfaddBf16x2 tile hi o s
  | .kadd tile hi o => Sys2Proof.Machine.execKadd tile hi o s
  | .kwait tile hi o => Sys2Proof.Machine.execKwait tile hi o s
  | .kread tile hi o => Sys2Proof.Machine.execKread tile hi o s
  | .kpoll tile hi o => Sys2Proof.Machine.execKpoll tile hi o s
  | .kbind tile hi o => Sys2Proof.Machine.execKbind tile hi o s
  | .kinit tile hi o => Sys2Proof.Machine.execKinit tile hi o s
  | .add tile hi o => Sys2Proof.Machine.execAdd tile hi o s
  | .sub tile hi o => Sys2Proof.Machine.execSub tile hi o s
  | .mul tile hi o => Sys2Proof.Machine.execMul tile hi o s
  | .mulh tile hi o => Sys2Proof.Machine.execMulh tile hi o s
  | .mulhn tile hi o => Sys2Proof.Machine.execMulhn tile hi o s
  | .div tile hi o => Sys2Proof.Machine.execDiv tile hi o s
  | .divn tile hi o => Sys2Proof.Machine.execDivn tile hi o s
  | .rem tile hi o => Sys2Proof.Machine.execRem tile hi o s
  | .remn tile hi o => Sys2Proof.Machine.execRemn tile hi o s
  | .andOp tile hi o => Sys2Proof.Machine.execAnd tile hi o s
  | .orOp tile hi o => Sys2Proof.Machine.execOr tile hi o s
  | .xorOp tile hi o => Sys2Proof.Machine.execXor tile hi o s
  | .andn tile hi o => Sys2Proof.Machine.execAndn tile hi o s
  | .shl tile hi o => Sys2Proof.Machine.execShl tile hi o s
  | .shr tile hi o => Sys2Proof.Machine.execShr tile hi o s
  | .sar tile hi o => Sys2Proof.Machine.execSar tile hi o s
  | .rol tile hi o => Sys2Proof.Machine.execRol tile hi o s
  | .minOp tile hi o => Sys2Proof.Machine.execMin tile hi o s
  | .maxOp tile hi o => Sys2Proof.Machine.execMax tile hi o s
  | .minn tile hi o => Sys2Proof.Machine.execMinn tile hi o s
  | .maxn tile hi o => Sys2Proof.Machine.execMaxn tile hi o s
  | .clz tile hi o => Sys2Proof.Machine.execClz tile hi o s
  | .ctz tile hi o => Sys2Proof.Machine.execCtz tile hi o s
  | .popc tile hi o => Sys2Proof.Machine.execPopc tile hi o s
  | .brev tile hi o => Sys2Proof.Machine.execBrev tile hi o s
  | .bext tile hi o => Sys2Proof.Machine.execBext tile hi o s
  | .bins tile hi o => Sys2Proof.Machine.execBins tile hi o s
  | .sel tile hi o => Sys2Proof.Machine.execSel tile hi o s
  | .mov tile hi o => Sys2Proof.Machine.execMov tile hi o s
  | .li tile hi o => Sys2Proof.Machine.execLi tile hi o s
  | .lih tile hi o => Sys2Proof.Machine.execLih tile hi o s
  | .madr tile hi o => Sys2Proof.Machine.execMadr tile hi o s
  | .ceq tile hi o => Sys2Proof.Machine.execCeq tile hi o s
  | .cne tile hi o => Sys2Proof.Machine.execCne tile hi o s
  | .clt tile hi o => Sys2Proof.Machine.execClt tile hi o s
  | .cltn tile hi o => Sys2Proof.Machine.execCltn tile hi o s
  | .cle tile hi o => Sys2Proof.Machine.execCle tile hi o s
  | .clen tile hi o => Sys2Proof.Machine.execClen tile hi o s
  | .ctst tile hi o => Sys2Proof.Machine.execCtst tile hi o s
  | .pand tile hi o => Sys2Proof.Machine.execPand tile hi o s
  | .por tile hi o => Sys2Proof.Machine.execPor tile hi o s
  | .pnot tile hi o => Sys2Proof.Machine.execPnot tile hi o s
  | .fadd tile hi o => Sys2Proof.Machine.execFadd tile hi o s
  | .fsub tile hi o => Sys2Proof.Machine.execFsub tile hi o s
  | .fmul tile hi o => Sys2Proof.Machine.execFmul tile hi o s
  | .ffma tile hi o => Sys2Proof.Machine.execFfma tile hi o s
  | .fmin tile hi o => Sys2Proof.Machine.execFmin tile hi o s
  | .fmax tile hi o => Sys2Proof.Machine.execFmax tile hi o s
  | .fcmp tile hi o => Sys2Proof.Machine.execFcmp tile hi o s
  | .fcvt tile hi o => Sys2Proof.Machine.execFcvt tile hi o s
  | .vadd tile hi o => Sys2Proof.Machine.execVadd tile hi o s
  | .vsub tile hi o => Sys2Proof.Machine.execVsub tile hi o s
  | .vmul tile hi o => Sys2Proof.Machine.execVmul tile hi o s
  | .vfma tile hi o => Sys2Proof.Machine.execVfma tile hi o s
  | .vmin tile hi o => Sys2Proof.Machine.execVmin tile hi o s
  | .vmax tile hi o => Sys2Proof.Machine.execVmax tile hi o s
  | .vabs tile hi o => Sys2Proof.Machine.execVabs tile hi o s
  | .vneg tile hi o => Sys2Proof.Machine.execVneg tile hi o s
  | .vrcp tile hi o => Sys2Proof.Machine.execVrcp tile hi o s
  | .vrsqrt tile hi o => Sys2Proof.Machine.execVrsqrt tile hi o s
  | .vsqrt tile hi o => Sys2Proof.Machine.execVsqrt tile hi o s
  | .vexp2 tile hi o => Sys2Proof.Machine.execVexp2 tile hi o s
  | .vlog2 tile hi o => Sys2Proof.Machine.execVlog2 tile hi o s
  | .vtanh tile hi o => Sys2Proof.Machine.execVtanh tile hi o s
  | .vcvt tile hi o => Sys2Proof.Machine.execVcvt tile hi o s
  | .vscl tile hi o => Sys2Proof.Machine.execVscl tile hi o s
  | .vamax tile hi o => Sys2Proof.Machine.execVamax tile hi o s
  | .vand tile hi o => Sys2Proof.Machine.execVand tile hi o s
  | .vor tile hi o => Sys2Proof.Machine.execVor tile hi o s
  | .vxor tile hi o => Sys2Proof.Machine.execVxor tile hi o s
  | .vnot tile hi o => Sys2Proof.Machine.execVnot tile hi o s
  | .vshl tile hi o => Sys2Proof.Machine.execVshl tile hi o s
  | .vshr tile hi o => Sys2Proof.Machine.execVshr tile hi o s
  | .vsar tile hi o => Sys2Proof.Machine.execVsar tile hi o s
  | .vcmp tile hi o => Sys2Proof.Machine.execVcmp tile hi o s
  | .vsel tile hi o => Sys2Proof.Machine.execVsel tile hi o s
  | .vbcast tile hi o => Sys2Proof.Machine.execVbcast tile hi o s
  | .vcopy tile hi o => Sys2Proof.Machine.execVcopy tile hi o s
  | .vperm tile hi o => Sys2Proof.Machine.execVperm tile hi o s
  | .viota tile hi o => Sys2Proof.Machine.execViota tile hi o s
  | .vredsum tile hi o => Sys2Proof.Machine.execVredsum tile hi o s
  | .vredmax tile hi o => Sys2Proof.Machine.execVredmax tile hi o s
  | .vredmin tile hi o => Sys2Proof.Machine.execVredmin tile hi o s
  | .vscan tile hi o => Sys2Proof.Machine.execVscan tile hi o s
  | .vsqsum tile hi o => Sys2Proof.Machine.execVsqsum tile hi o s
  | .vdot tile hi o => Sys2Proof.Machine.execVdot tile hi o s
  | .vrng tile hi o => Sys2Proof.Machine.execVrng tile hi o s
  | .vdrop tile hi o => Sys2Proof.Machine.execVdrop tile hi o s
  | .vkat tile hi o => Sys2Proof.Machine.execVkat tile hi o s
  | .vclamp tile hi o => Sys2Proof.Machine.execVclamp tile hi o s
  | .vpopc tile hi o => Sys2Proof.Machine.execVpopc tile hi o s
  | .vcompress tile hi o => Sys2Proof.Machine.execVcompress tile hi o s
  | .vexpand tile hi o => Sys2Proof.Machine.execVexpand tile hi o s
  | .ewr tile o => Sys2Proof.Machine.execEwr tile o s
  | .erd tile o => Sys2Proof.Machine.execErd tile o s
  | .etrig tile o => Sys2Proof.Machine.execEtrig tile o s
  | .eabort tile o => Sys2Proof.Machine.execEabort tile o s
  | .ewaitq tile o => Sys2Proof.Machine.execEwaitq tile o s
  | .packageReset cfail pfail ports => Sys2Proof.Machine.execPackageReset cfail pfail ports s
  | .toldodyLinkTrained link reva revb => Sys2Proof.Machine.execToldodyLinkTrained link reva revb s
  | .securityAlarm src => Sys2Proof.Machine.execSecurityAlarm src s
  | .dieLost die => Sys2Proof.Machine.execDieLost die s
  | .strandLinkUp port peer pport peerTime => Sys2Proof.Machine.execStrandLinkUp port peer pport peerTime s
  | .strandLinkDown port => Sys2Proof.Machine.execStrandLinkDown port s
  | .timeAlignExchange port peerTime => Sys2Proof.Machine.execTimeAlignExchange port peerTime s
  | .strandReelAdd port asid addr v => Sys2Proof.Machine.execStrandReelAdd port asid addr v s
  | .freqCmd host val => Sys2Proof.Machine.execFreqCmd host val s
  | .lqTailWrite host level val => Sys2Proof.Machine.execLqTailWrite host level val s
  | .lqCtlWrite host level val => Sys2Proof.Machine.execLqCtlWrite host level val s
  | .lqBaseWrite host level val => Sys2Proof.Machine.execLqBaseWrite host level val s
  | .bobbinPickup tile => Sys2Proof.Machine.execBobbinPickup tile s
  | .stealAttempt tile => Sys2Proof.Machine.execStealAttempt tile s
  | .stewardSteal tile => Sys2Proof.Machine.execStewardSteal tile s
  | .indexFetch tile => Sys2Proof.Machine.execIndexFetch tile s
  | .bundleDispatch tile => Sys2Proof.Machine.execBundleDispatch tile s
  | .bundleCommit tile => Sys2Proof.Machine.execBundleCommit tile s
  | .resultLanding tile => Sys2Proof.Machine.execResultLanding tile s
  | .remoteReplyArrival tile req => Sys2Proof.Machine.execRemoteReplyArrival tile req s
  | .freezeBegin tile => Sys2Proof.Machine.execFreezeBegin tile s
  | .lateTransitionFlag tile => Sys2Proof.Machine.execLateTransitionFlag tile s
  | .clockStretch tile => Sys2Proof.Machine.execClockStretch tile s
  | .preciseTrap tile => Sys2Proof.Machine.execPreciseTrap tile s
  | .inFlightFault tile => Sys2Proof.Machine.execInFlightFault tile s
  | .frCtlWrite host ring val => Sys2Proof.Machine.execFrCtlWrite host ring val s
  | .frBaseWrite host ring val => Sys2Proof.Machine.execFrBaseWrite host ring val s
  | .frHeadWrite host ring val => Sys2Proof.Machine.execFrHeadWrite host ring val s
  | .frStatIpendClear host ring val => Sys2Proof.Machine.execFrStatIpendClear host ring val s
  | .nodeResume host val => Sys2Proof.Machine.execNodeResume host val s
  | .nodeResumeOver host val => Sys2Proof.Machine.execNodeResumeOver host val s
  | .nodeSave host val => Sys2Proof.Machine.execNodeSave host val s
  | .nodeKill host val => Sys2Proof.Machine.execNodeKill host val s
  | .nodeYield host val => Sys2Proof.Machine.execNodeYield host val s
  | .tlbiPage host val => Sys2Proof.Machine.execTlbiPage host val s
  | .tlbiAsid host val => Sys2Proof.Machine.execTlbiAsid host val s
  | .tlbiHost host val => Sys2Proof.Machine.execTlbiHost host val s
  | .frzFreeze host val => Sys2Proof.Machine.execFrzFreeze host val s
  | .frzThaw host val => Sys2Proof.Machine.execFrzThaw host val s
  | .patrolScrubRead channel => Sys2Proof.Machine.execPatrolScrubRead channel s
  | .windowBarAccess host addr ctl data => Sys2Proof.Machine.execWindowBarAccess host addr ctl data s
  | .completerAtomicop ctl addr data data2 => Sys2Proof.Machine.execCompleterAtomicop ctl addr data data2 s
  | .hkadd host val => Sys2Proof.Machine.execHkadd host val s
  | .leaseCmdEvict host tile val => Sys2Proof.Machine.execLeaseCmdEvict host tile val s
  | .shepFcmdClear host val => Sys2Proof.Machine.execShepFcmdClear host val s
  | .sumCmd host val => Sys2Proof.Machine.execSumCmd host val s
  | .attCmd host val => Sys2Proof.Machine.execAttCmd host val s
  | .tileDbgWrite host tile val => Sys2Proof.Machine.execTileDbgWrite host tile val s
  | .csaWrite host reg val => Sys2Proof.Machine.execCsaWrite host reg val s
  | .hostCfgWrite host val => Sys2Proof.Machine.execHostCfgWrite host val s
  | .alarmCtlWrite host val => Sys2Proof.Machine.execAlarmCtlWrite host val s
  | .scrubCtlWrite host val => Sys2Proof.Machine.execScrubCtlWrite host val s
  | .shepCtlWrite host tile val => Sys2Proof.Machine.execShepCtlWrite host tile val s
  | .dieStealCtlWrite host die val => Sys2Proof.Machine.execDieStealCtlWrite host die val s
  | .mmioRegisterWrite host off size val => Sys2Proof.Machine.execMmioRegisterWrite host off size val s
  | .rcRegisterRead host off size => Sys2Proof.Machine.execRcRegisterRead host off size s
  | .elasticBufferAccept tile eng => Sys2Proof.Machine.execElasticBufferAccept tile eng s
  | .enginePowerUpComplete tile eng => Sys2Proof.Machine.execEnginePowerUpComplete tile eng s
  | .copyBurst tile cq => Sys2Proof.Machine.execCopyBurst tile cq s
  | .copyGateWaitEnd tile cq => Sys2Proof.Machine.execCopyGateWaitEnd tile cq s
  | .copyBindingWaitEnd tile cq => Sys2Proof.Machine.execCopyBindingWaitEnd tile cq s
  | .copySignal tile cq => Sys2Proof.Machine.execCopySignal tile cq s
  | .arrayRingWaitEnd tile mx => Sys2Proof.Machine.execArrayRingWaitEnd tile mx s
  | .arrayGroupLanding tile mx => Sys2Proof.Machine.execArrayGroupLanding tile mx s
  | .arrayComputeEnd tile mx => Sys2Proof.Machine.execArrayComputeEnd tile mx s
  | .drainRow tile mx => Sys2Proof.Machine.execDrainRow tile mx s
  | .dstqWaitEnd tile mx => Sys2Proof.Machine.execDstqWaitEnd tile mx s
  | .drainRowStore tile mx => Sys2Proof.Machine.execDrainRowStore tile mx s
  | .arrayDoneAdd tile mx => Sys2Proof.Machine.execArrayDoneAdd tile mx s
  | .engineUnit tile eng => Sys2Proof.Machine.execEngineUnit tile eng s
  | .engineCommandComplete tile eng => Sys2Proof.Machine.execEngineCommandComplete tile eng s
  | .fxFirstFlitCheck tile => Sys2Proof.Machine.execFxFirstFlitCheck tile s
  | .fxChunkStep tile => Sys2Proof.Machine.execFxChunkStep tile s
  | .fxReceiveAdd tile => Sys2Proof.Machine.execFxReceiveAdd tile s
  | .fxAbortMarkerArrival tile => Sys2Proof.Machine.execFxAbortMarkerArrival tile s
  | .vectorOperationStart tile => Sys2Proof.Machine.execVectorOperationStart tile s
  | .vectorElementGroup tile => Sys2Proof.Machine.execVectorElementGroup tile s
  | .spuriousWake tile idx => Sys2Proof.Machine.execSpuriousWake tile idx s
  | .governorWindowEnd tile => Sys2Proof.Machine.execGovernorWindowEnd tile s
  | .safeRestore tile => Sys2Proof.Machine.execSafeRestore tile s
  | .currentReading tile reading => Sys2Proof.Machine.execCurrentReading tile reading s
  | .temperatureReading tile reading => Sys2Proof.Machine.execTemperatureReading tile reading s
  | .marginTableLoad => Sys2Proof.Machine.execMarginTableLoad s
  | .freqChangeClockStop => Sys2Proof.Machine.execFreqChangeClockStop s
  | .freqChangeClockRestart => Sys2Proof.Machine.execFreqChangeClockRestart s
  | .launchRecordCheck => Sys2Proof.Machine.execLaunchRecordCheck s
  | .dependenceMet => Sys2Proof.Machine.execDependenceMet s
  | .agingLift => Sys2Proof.Machine.execAgingLift s
  | .placementDecision => Sys2Proof.Machine.execPlacementDecision s
  | .launchLoadComplete => Sys2Proof.Machine.execLaunchLoadComplete s
  | .dictionaryFillComplete => Sys2Proof.Machine.execDictionaryFillComplete s
  | .fetchBufferFillComplete => Sys2Proof.Machine.execFetchBufferFillComplete s
  | .freezeWatchdogExpiry => Sys2Proof.Machine.execFreezeWatchdogExpiry s
  | .faultRecordWrite => Sys2Proof.Machine.execFaultRecordWrite s
  | .nodeCommandComplete => Sys2Proof.Machine.execNodeCommandComplete s
  | .yieldDeadlineExpiry => Sys2Proof.Machine.execYieldDeadlineExpiry s
  | .contextSaveComplete => Sys2Proof.Machine.execContextSaveComplete s
  | .contextRestore => Sys2Proof.Machine.execContextRestore s
  | .retirementComplete => Sys2Proof.Machine.execRetirementComplete s
  | .tlbiComplete => Sys2Proof.Machine.execTlbiComplete s
  | .freezeRecallComplete => Sys2Proof.Machine.execFreezeRecallComplete s
  | .translationWalk => Sys2Proof.Machine.execTranslationWalk s
  | .walkComplete => Sys2Proof.Machine.execWalkComplete s
  | .migrationWalkRetry => Sys2Proof.Machine.execMigrationWalkRetry s
  | .atomicBounce => Sys2Proof.Machine.execAtomicBounce s
  | .remotePoolRequest => Sys2Proof.Machine.execRemotePoolRequest s
  | .nearMemoryAtomic => Sys2Proof.Machine.execNearMemoryAtomic s
  | .conflictCheckAnswer => Sys2Proof.Machine.execConflictCheckAnswer s
  | .poolCorrectionWriteback => Sys2Proof.Machine.execPoolCorrectionWriteback s
  | .bankMarkFailed => Sys2Proof.Machine.execBankMarkFailed s
  | .bankRebuildLine => Sys2Proof.Machine.execBankRebuildLine s
  | .hkaddPerform => Sys2Proof.Machine.execHkaddPerform s
  | .shepFcmdComplete => Sys2Proof.Machine.execShepFcmdComplete s
  | .summaryComplete => Sys2Proof.Machine.execSummaryComplete s
  | .attQuoteComplete => Sys2Proof.Machine.execAttQuoteComplete s
  | .leaseQueueGrant => Sys2Proof.Machine.execLeaseQueueGrant s
  | .idleGating => Sys2Proof.Machine.execIdleGating s
  | .wokenIdleReturn => Sys2Proof.Machine.execWokenIdleReturn s
  | .releaseComplete => Sys2Proof.Machine.execReleaseComplete s
  | .standbyGraceExpiry => Sys2Proof.Machine.execStandbyGraceExpiry s
  | .engineRunFault => Sys2Proof.Machine.execEngineRunFault s
  | .fxTimeout => Sys2Proof.Machine.execFxTimeout s
  | .pollBackoffExpiry => Sys2Proof.Machine.execPollBackoffExpiry s
  | .parkedPollTest => Sys2Proof.Machine.execParkedPollTest s
  | .sleepkWaitEnd => Sys2Proof.Machine.execSleepkWaitEnd s
  | .governorWindowTimeout => Sys2Proof.Machine.execGovernorWindowTimeout s
  | .grantAdjust => Sys2Proof.Machine.execGrantAdjust s
  | .governorEmergency => Sys2Proof.Machine.execGovernorEmergency s
  | .emergencyEnd => Sys2Proof.Machine.execEmergencyEnd s
  | .marginDailyWrite => Sys2Proof.Machine.execMarginDailyWrite s
  | .managementPortFailure => Sys2Proof.Machine.execManagementPortFailure s

end Sys2Proof.Machine
end

