-- ==== Sys2Proof/Machine/Step.lean ====
section
/-! DEFINITION. The step of the part: one step of the opcode table, or the passing of one package cycle. -/

namespace Sys2Proof.Machine

open Sys2Proof

/-- One step: the head of the agenda, decoded and executed; an empty agenda lets one package cycle pass
(DESIGN CHOICE, log entry 1). -/
def step (s : State) : Host.Outcome State Fault Refusal :=
  match takeNext s with
  | .error _ => .fault .undecodable
  | .ok (none, s') => .next s'
  | .ok (some i, s') => exec i s'

/-- The state with an instruction of the table placed where `step` takes its next one. -/
def State.withFetchWord (s : State) (nbits w : Nat) : State := putWord s (stepWordOf (tableBytes nbits w))

end Sys2Proof.Machine
end

