-- ==== Sys2Proof/Safety.lean ====
section
/-! DEFINITION. The terms that the claims are stated in: an operation that may issue, what its issue leaves, the tables of results
that the spec gives, and the canonical form of the package's memories. -/

namespace Sys2Proof.Machine

open Sys2Proof

/-- An operation that issues in this tick: its core runs, it is the oldest operation of its slot that has not issued, it stands
in no slot wait (05 R96, R99, R100), and the core is not in pending mode (05 R108). -/
structure Ready (i : Instr) (tile slot : Nat) (s : State) (b : Bundle) : Prop where
  runs : coreRuns s tile = true
  oldest : slotNext? (coreGet s tile) slot = some b
  word : mapGet b.words slot 0 = slotWordOf i
  issues : canIssue s tile slot b (opView i) = true
  normal : (tileGet s tile).dbg = false

/-- The issue of bundle `b`'s operation of a slot with results that land at the end of tick t + L − 1 (05 R105). -/
def issued (s : State) (tile slot : Nat) (b : Bundle) (l : Nat) (effs : List Eff) : State :=
  markIssued (addFlight s tile b.seq slot l effs) tile b.seq slot

/-- The issue of an operation that raises a fault (18 R397). -/
def issuedBad (s : State) (tile slot : Nat) (b : Bundle) (x : Trap) : State :=
  markIssued (raiseAt s tile b.seq slot x) tile b.seq slot

/-- The issue of a scalar operation with result `x` into latch `latch` and its destination, and the flags it sets (07 R163). -/
def scalarDone (s : State) (tile : BitVec 8) (hi : Bool) (o : SOp) (b : Bundle) (latch l : Nat) (x : RV) (flags : Nat) : State :=
  match dstEffs (slotQ b.pushes (xSlot hi)) o.dst x with
  | .ok effs =>
    issued s tile.toNat (xSlot hi) b l
      ((.reg (latchKey (xSlot hi) latch) x :: effs) ++ if flags = 0 then [] else [.fp flags])
  | .error t => issuedBad s tile.toNat (xSlot hi) b t

/-- The value of operand `k` (0 or 1) of a scalar operation at its issue. -/
def scalarArg (s : State) (tile : BitVec 8) (hi : Bool) (o : SOp) (b : Bundle) (k : Nat) : RV :=
  (readPorts s tile.toNat (o.imm.signExtend 64) [o.srcA, o.srcB] (slotQ b.pops (xSlot hi))).getD k (rvOf 0)

/-- A row of the scalar class: the instruction, its latch, its latency, its value from its operands. -/
structure ScalarRow where
  op : BitVec 8 → Bool → SOp → Instr
  latch : Nat
  lat : Nat
  val : SOp → RV → RV → RV

/-- A row whose result's residue is formed anew (07 R171). -/
def rowOf (op : BitVec 8 → Bool → SOp → Instr) (latch lat : Nat) (f : SOp → Word → Word → Word) : ScalarRow :=
  ⟨op, latch, lat, fun o a b => remade [a, b] (f o a.v b.v)⟩

/-- The same with one operand. -/
def rowOf1 (op : BitVec 8 → Bool → SOp → Instr) (latch lat : Nat) (f : SOp → Word → Word) : ScalarRow :=
  ⟨op, latch, lat, fun o a _ => remade [a] (f o a.v)⟩

/-- 1 for true. -/
def flagWord (p : Bool) : Word := if p then 1 else 0

/-- The integer operations, with the formulas of 07 R164. -/
def integerRows : List ScalarRow :=
  [⟨.add, 0, 1, fun _ a b => resAdd a b⟩, ⟨.sub, 0, 1, fun _ a b => resSub a b⟩, ⟨.mul, 1, 3, fun _ a b => resMul a b⟩,
   rowOf .mulh 1 3 fun _ a b => BitVec.ofInt 64 (a.toInt * b.toInt / 2 ^ 64),
   rowOf .mulhn 1 3 fun _ a b => BitVec.ofNat 64 (a.toNat * b.toNat / 2 ^ 64),
   rowOf .div 3 24 fun _ a b => if b = 0 then BitVec.allOnes 64 else BitVec.ofInt 64 (a.toInt.tdiv b.toInt),
   rowOf .divn 3 24 fun _ a b => if b = 0 then BitVec.allOnes 64 else BitVec.ofNat 64 (a.toNat / b.toNat),
   rowOf .rem 3 24 fun _ a b => if b = 0 then a else BitVec.ofInt 64 (a.toInt.tmod b.toInt),
   rowOf .remn 3 24 fun _ a b => if b = 0 then a else BitVec.ofNat 64 (a.toNat % b.toNat),
   rowOf .andOp 0 1 fun _ a b => a &&& b, rowOf .orOp 0 1 fun _ a b => a ||| b, rowOf .xorOp 0 1 fun _ a b => a ^^^ b,
   rowOf .andn 0 1 fun _ a b => a &&& ~~~b]
  ++ [rowOf .shl 0 1 fun _ a b => BitVec.ofNat 64 (a.toNat * 2 ^ b.toNat),
   rowOf .shr 0 1 fun _ a b => BitVec.ofNat 64 (a.toNat / 2 ^ b.toNat),
   rowOf .sar 0 1 fun _ a b => BitVec.ofInt 64 (a.toInt / 2 ^ b.toNat),
   rowOf .rol 0 1 fun _ a b => a.rotateLeft (b.toNat % 64),
   rowOf .minOp 0 1 fun _ a b => if b.toInt < a.toInt then b else a,
   rowOf .maxOp 0 1 fun _ a b => if a.toInt < b.toInt then b else a,
   rowOf .minn 0 1 fun _ a b => if b.toNat < a.toNat then b else a,
   rowOf .maxn 0 1 fun _ a b => if a.toNat < b.toNat then b else a,
   rowOf1 .clz 0 1 fun _ a => leadingZeros a, rowOf1 .ctz 0 1 fun _ a => trailingZeros a, rowOf1 .popc 0 1 fun _ a => popCount a,
   rowOf1 .brev 0 1 fun _ a => a.reverse]

/-- bext and bins, with the formulas of 07 R165; the control word of bins is imm17. -/
def fieldRows : List ScalarRow :=
  [rowOf .bext 0 1 fun _ a b => (a >>> (b.toNat % 64)) &&& BitVec.ofNat 64 (2 ^ min (b.toNat / 64 % 128) 64 - 1),
   rowOf .bins 0 1 fun o a b =>
     let mask := BitVec.ofNat 64 ((2 ^ (o.imm.toNat / 64 % 128) - 1) * 2 ^ (o.imm.toNat % 64))
     (a &&& ~~~mask) ||| ((b <<< (o.imm.toNat % 64)) &&& mask)]

/-- Moves and immediates, with the formulas of 07 R167. -/
def moveRows : List ScalarRow :=
  [⟨.mov, 0, 1, fun _ a _ => a⟩, ⟨.li, 0, 1, fun o _ _ => rvOf (o.imm.signExtend 64)⟩,
   rowOf1 .lih 0 1 fun o a => BitVec.ofNat 64 (a.toNat * 2 ^ 16 + o.imm.toNat % 2 ^ 16),
   ⟨.madr, 1, 3, fun o a b => resAdd a (resMul b (rvOf (o.imm.signExtend 64)))⟩]

/-- Compares and predicate operations, with the formulas of 07 R166. -/
def compareRows : List ScalarRow :=
  [rowOf .ceq 0 1 fun _ a b => flagWord (decide (a.toNat = b.toNat)), rowOf .cne 0 1 fun _ a b => flagWord (decide (a.toNat ≠ b.toNat)),
   rowOf .clt 0 1 fun _ a b => flagWord (decide (a.toInt < b.toInt)), rowOf .cltn 0 1 fun _ a b => flagWord (decide (a.toNat < b.toNat)),
   rowOf .cle 0 1 fun _ a b => flagWord (decide (a.toInt ≤ b.toInt)), rowOf .clen 0 1 fun _ a b => flagWord (decide (a.toNat ≤ b.toNat)),
   rowOf .ctst 0 1 fun _ a b => flagWord (decide (a &&& b ≠ 0)), rowOf .pand 0 1 fun _ a b => flagWord (decide (a ≠ 0 ∧ b ≠ 0)),
   rowOf .por 0 1 fun _ a b => flagWord (decide (a ≠ 0 ∨ b ≠ 0)), rowOf1 .pnot 0 1 fun _ a => flagWord (decide (a = 0))]

/-- A floating row: the function of 06 and 07 R169 on the context of the operation. -/
structure FloatRow where
  op : BitVec 8 → Bool → SOp → Instr
  f : SOp → FpCtx → Nat → Nat → Nat × FpFlags

/-- The floating operations on two sources (07 R169). -/
def floatRows : List FloatRow :=
  [⟨.fadd, fun _ => fpAdd⟩, ⟨.fsub, fun _ => fpSub⟩, ⟨.fmul, fun _ => fpMul⟩, ⟨.fmin, fun _ => fpMin⟩, ⟨.fmax, fun _ => fpMax⟩,
   ⟨.fcmp, fun o => fpCmp (ctlCond o.imm)⟩]

/-- Every scalar operation with its output latch and its latency (05 R104; 03 R75). -/
def scalarRows : List ((BitVec 8 → Bool → SOp → Instr) × Nat × Nat) :=
  (integerRows ++ fieldRows ++ moveRows ++ compareRows).map (fun r => (r.op, r.latch, r.lat))
  ++ floatRows.map (fun r => (r.op, 2, 4)) ++ [(.sel, 0, 1), (.ffma, 2, 4), (.fcvt, 2, 4)]

/-- The operands that an access operation reads, in order: base, index and, where it is a source, data (08 R177). -/
def accessVals (s : State) (tile : BitVec 8) (hi : Bool) (o : MOp) (src : Bool) (b : Bundle) : List RV :=
  readPorts s tile.toNat 0 (o.base :: o.index :: if src then [o.data] else []) (slotQ b.pops (mSlot hi))

/-- Base, index and data of an access operation. -/
def accessArgs (s : State) (tile : BitVec 8) (hi : Bool) (o : MOp) (src : Bool) (b : Bundle) : MVals :=
  let l := accessVals s tile hi o src b
  ⟨(l.getD 0 (rvOf 0)).v, (l.getD 1 (rvOf 0)).v, l.getD 2 (rvOf 0)⟩

/-- The address of an access operation: base + index × size + disp9 × size (03 R71). -/
def accessAddr (s : State) (tile : BitVec 8) (hi : Bool) (o : MOp) (src : Bool) (b : Bundle) : Word :=
  effAddr (accessArgs s tile hi o src b).base (accessArgs s tile hi o src b).index o

/-- An access operation that issues with its guard true and its operands' residues good (07 R144, R172). -/
structure ReadyM (i : Instr) (tile : BitVec 8) (hi : Bool) (o : MOp) (src : Bool) (s : State) (b : Bundle) : Prop where
  ready : Ready i tile.toNat (mSlot hi) s b
  guard : guardTrue s tile.toNat o.guard = true
  checked : resCheck (accessVals s tile hi o src b) = none

/-- The issue of bundle `b`'s operation of a slot with effects `s2`. -/
def slotDone (s2 : State) (tile slot : Nat) (b : Bundle) : State := markIssued s2 tile b.seq slot

/-- The own pool serves an access of `n` bytes at `off` in this tick: its port is free, its codewords are correct, and no other
agent's open record conflicts; `s1` is the state with the access checked (10 R232; 17 R389; 19 R430). -/
structure PoolServes (s s1 : State) (tile slot : Nat) (b : Bundle) (off n : Nat) (wr plain : Bool) : Prop where
  port : portOpen s tile slot off wr = true
  code : (if wr then poolWriteTrap s tile off n else poolReadTrap s tile off n) = none
  conflict : checkOwn s tile b.seq off n wr plain = .ok s1

/-- An own-pool address: `n` bytes at `ea`, aligned to `al`, inside the scratchpad of R27 (08 R174, R180). -/
structure OwnPoolAt (s : State) (tile : Nat) (ea : Word) (n al : Nat) : Prop where
  own : ea.toNat < 2 ^ 23
  aligned : ea.toNat % al = 0
  inside : ea.toNat + n ≤ scratchSize (tileGet s tile)

/-- A pool address that names tile `t` of the issuing tile's node, aligned to `al`, inside that tile's scratchpad (08 R174). -/
structure RemotePoolAt (s : State) (tile : Nat) (ea : Word) (t n al : Nat) : Prop where
  remote : 2 ^ 31 ≤ ea.toNat
  zero : ea.toNat < 2 ^ 32
  named : t = (ea.toNat - 2 ^ 31) / 2 ^ 23
  aligned : ea.toNat % al = 0
  member : t ∈ nodeTiles s tile
  inside : ea.toNat % 2 ^ 23 + n ≤ scratchSize (tileGet s t)

/-- The latest result under way of a tile's core. -/
def lastFlight (s : State) (tile : Nat) : Option Flight := (coreGet s tile).flights.getLast?

/-- What an issue leaves alone: all memory, every other tile, and of its own tile the pool, the reels, the creel, the running
bobbin, the node, the engines, and the core's committed registers and ticks (05 R102, R103, R105). -/
structure IssueKeeps (tile : Nat) (s t : State) : Prop where
  mem : t.mem = s.mem
  host0 : t.hostMem0 = s.hostMem0
  host1 : t.hostMem1 = s.hostMem1
  nodes : t.nodes = s.nodes
  others : ∀ n, n ≠ tile → tileGet t n = tileGet s n
  pool : (tileGet t tile).pool = (tileGet s tile).pool
  reels : (tileGet t tile).reels = (tileGet s tile).reels
  creel : (tileGet t tile).creel = (tileGet s tile).creel
  running : (tileGet t tile).running = (tileGet s tile).running
  node : (tileGet t tile).node = (tileGet s tile).node
  engines : (tileGet t tile).engines = (tileGet s tile).engines
  regs : (coreGet t tile).regs = (coreGet s tile).regs
  ticks : (coreGet t tile).ticks = (coreGet s tile).ticks

/-- The tile and the slot of a slot operation. -/
def placeOf : OpView → Option (Nat × Nat)
  | .c tile _ _ => some (tile, 0)
  | .m tile slot _ _ => some (tile, slot)
  | .s tile slot _ _ => some (tile, slot)
  | .v tile slot _ _ => some (tile, slot)
  | .e tile _ _ => some (tile, 5)
  | .event => none

/-- csend, lease and leasew, which reach other tiles or engines at their issue, and the operations of slot ea, which enter an
engine's buffer (05 R109; 07 R155, R156). -/
def reachesOut : OpView → Bool
  | .c _ opc _ => decide (opc = 0x00C) || decide (opc = 0x00D) || decide (opc = 0x00E)
  | .e _ _ _ => true
  | _ => false

/-- An atomic: its opcode, whether index is its second operand, and what it stores (none: no write) for `n` bytes, the old
value, the data value and the index value, all below 2 ^ (8 n) (08 R185, R186). -/
structure AtomicRow where
  op : BitVec 8 → Bool → MOp → Instr
  opc : Nat
  two : Bool
  new : Nat → Nat → Nat → Nat → Option Nat

/-- The atomics with their new values (08 R185, R186). -/
def atomicRows : List AtomicRow :=
  [⟨.aadd, 0x040, false, fun n old v _ => some ((old + v) % 2 ^ (8 * n))⟩, ⟨.aand, 0x041, false, fun _ old v _ => some (old &&& v)⟩,
   ⟨.aor, 0x042, false, fun _ old v _ => some (old ||| v)⟩, ⟨.axor, 0x043, false, fun _ old v _ => some (old ^^^ v)⟩,
   ⟨.amin, 0x044, false, fun n old v _ => some (if signedNat (8 * n) v < signedNat (8 * n) old then v else old)⟩,
   ⟨.amax, 0x045, false, fun n old v _ => some (if signedNat (8 * n) old < signedNat (8 * n) v then v else old)⟩,
   ⟨.aminn, 0x046, false, fun _ old v _ => some (min old v)⟩, ⟨.amaxn, 0x047, false, fun _ old v _ => some (max old v)⟩,
   ⟨.aswap, 0x048, false, fun _ _ v _ => some v⟩, ⟨.acas, 0x049, true, fun _ old v x => if old = x then some v else none⟩,
   ⟨.aincw, 0x04A, false, fun _ old v _ => some (if v ≤ old then 0 else old + 1)⟩,
   ⟨.afaddb, 0x04B, true, fun _ old v x => if old ≤ x ∧ v ≤ x - old then some (old + v) else none⟩,
   ⟨.afaddF32, 0x04C, false, fun _ old v _ => some (atomFadd .f32 old v)⟩,
   ⟨.afaddBf16x2, 0x04D, false, fun _ old v _ =>
     some (atomFadd .bf16 (old % 2 ^ 16) (v % 2 ^ 16) + 2 ^ 16 * atomFadd .bf16 (old / 2 ^ 16) (v / 2 ^ 16))⟩]

/-- The old value as an atomic returns it: extended by zeros, by its sign for amin and amax (08 R185). -/
def oldReturned (r : AtomicRow) (n old : Nat) : Word :=
  if r.opc = 0x044 ∨ r.opc = 0x045 then BitVec.ofInt 64 (signedNat (8 * n) old) else BitVec.ofNat 64 old

/-- The address of an atomic: acas and afaddb leave the index out (08 R177). -/
def atomicAddr (r : AtomicRow) (s : State) (tile : BitVec 8) (hi : Bool) (o : MOp) (b : Bundle) : Word :=
  let v := accessArgs s tile hi o true b
  if r.two then effAddr2 v.base o else effAddr v.base v.index o

/-- An operation of slot ca that issues with its guard true and its countport's residue good (07 R144, R146, R172). -/
structure ReadyC (i : Instr) (tile : BitVec 8) (o : COp) (src : Bool) (s : State) (b : Bundle) : Prop where
  ready : Ready i tile.toNat 0 s b
  guard : guardTrue s tile.toNat o.guard = true
  checked : resCheck (readPorts s tile.toNat (o.imm.setWidth 64) (if src then [o.cport] else []) []) = none

/-- The value of countport, where it is a source (07 R146). -/
def ctlArg (s : State) (tile : BitVec 8) (o : COp) : Word :=
  ((readPorts s tile.toNat (o.imm.setWidth 64) [o.cport] []).getD 0 (rvOf 0)).v

/-- The vector operations with their opcodes (04 R86). -/
def vectorRows : List ((BitVec 8 → Bool → VOp → Instr) × Nat) :=
  [(.vadd, 0x100), (.vsub, 0x101), (.vmul, 0x102), (.vfma, 0x103), (.vmin, 0x104), (.vmax, 0x105), (.vabs, 0x106),
   (.vneg, 0x107), (.vrcp, 0x108), (.vrsqrt, 0x109), (.vsqrt, 0x10a), (.vexp2, 0x10b), (.vlog2, 0x10c), (.vtanh, 0x10d),
   (.vcvt, 0x10e), (.vscl, 0x10f), (.vamax, 0x110), (.vand, 0x111), (.vor, 0x112), (.vxor, 0x113), (.vnot, 0x114),
   (.vshl, 0x115), (.vshr, 0x116), (.vsar, 0x117), (.vcmp, 0x118), (.vsel, 0x119), (.vbcast, 0x11a), (.vcopy, 0x11b),
   (.vperm, 0x11c), (.viota, 0x11d), (.vredsum, 0x11e), (.vredmax, 0x11f), (.vredmin, 0x120), (.vscan, 0x121), (.vsqsum,
   0x122), (.vdot, 0x123), (.vrng, 0x124), (.vdrop, 0x125), (.vkat, 0x126), (.vclamp, 0x127), (.vpopc, 0x128),
   (.vcompress, 0x129), (.vexpand, 0x12a)]

/-- An integer result fitted to an element of format `f` (09 R212; 06 R134): clamped where `sat` holds, else modulo 2^w. -/
def fitted (f : Fmt) (sat : Bool) (x : Int) : Nat :=
  let w := fmtBits f
  let lo : Int := if fmtIsI f then -2 ^ (w - 1) else 0
  let hi : Int := if fmtIsI f then 2 ^ (w - 1) - 1 else 2 ^ w - 1
  wrapInt w (if sat then max lo (min x hi) else x)

/-- The integer arithmetic of the vector unit, from a, b and vd's old element (09 R213, R214). -/
def vectorIntRows : List (Nat × (Int → Int → Int → Int)) :=
  [(0x100, fun a b _ => a + b), (0x101, fun a b _ => a - b), (0x102, fun a b _ => a * b), (0x103, fun a b d => a * b + d),
   (0x104, fun a b _ => min a b), (0x105, fun a b _ => max a b), (0x106, fun a _ _ => max a (-a)), (0x107, fun a _ _ => -a)]

/-- The operations of the vector unit on patterns of width `w` (09 R217, R219). -/
def vectorBitRows : List (Nat × (Nat → Nat → Nat → Nat)) :=
  [(0x111, fun _ a b => a &&& b), (0x112, fun _ a b => a ||| b), (0x113, fun _ a b => a ^^^ b), (0x114, fun w a _ => 2 ^ w - 1 - a),
   (0x115, fun w a b => a * 2 ^ b % 2 ^ w), (0x116, fun _ a b => a / 2 ^ b), (0x117, fun w a b => wrapInt w (signedNat w a / 2 ^ b)),
   (0x11B, fun _ a _ => a)]

/-- A vector operation that issues with its guard true (05 R106; 07 R144). -/
structure ReadyV (i : Instr) (tile : BitVec 8) (hi : Bool) (o : VOp) (s : State) (b : Bundle) : Prop where
  ready : Ready i tile.toNat (vSlot hi) s b
  guard : guardTrue s tile.toNat o.guard = true

/-- An operation of slot ea that issues with its guard true and its source's residue good (07 R144, R172; 11 R249). -/
structure ReadyE (i : Instr) (tile : BitVec 8) (o : EOp) (src : Bool) (s : State) (b : Bundle) : Prop where
  ready : Ready i tile.toNat 5 s b
  guard : guardTrue s tile.toNat o.guard = true
  checked : resCheck (readPorts s tile.toNat (o.imm.setWidth 64) (if src then [o.source] else []) []) = none

/-- The value that an operation of slot ea reads at its issue (11 R249). -/
def engineArg (s : State) (tile : BitVec 8) (o : EOp) (src : Bool) : RV :=
  (readPorts s tile.toNat (o.imm.setWidth 64) (if src then [o.source] else []) []).getD 0 (rvOf 0)

/-- The engine of a tile that an operation of slot ea names. -/
def engineAt (s : State) (tile : BitVec 8) (o : EOp) : Engine := engGet (tileGet s tile.toNat) (engineNum o.engine).toNat

/-- Engine `e` of a tile as the acceptance of its next entry `y` finds it: the tile runs, the engine has not stopped, the entry's
bundle has committed, and no entry of the engine queue stands before it (05 R109; 12 R280; 13 R301). -/
structure Accepts (s : State) (tile e : Nat) (y : EEntry) : Prop where
  clock : engClock s tile = true
  engine : e < 10
  runs : (engGet (tileGet s tile) e).stopped = false
  head : (engGet (tileGet s tile) e).buf.head? = some y
  committed : y.committed = true
  alone : queueHead (engGet (tileGet s tile) e) = none

/-- A level at which the dispatcher finds no candidate and no host owes a deficit (02 R39, R40). -/
structure LevelIdle (s : State) (level : Nat) : Prop where
  held : heldAt s level = none
  preempted : preemptedAt s level = none
  pending : headPending s 0 level = false ∧ headPending s 1 level = false
  heads : headsAt s 0 level = [] ∧ headsAt s 1 level = []
  deficits : (lqGet s 0 level).deficit = 0 ∧ (lqGet s 1 level).deficit = 0

/-- Node `n` is the candidate that the dispatcher serves at a level, in the state `s1` that the round-robin leaves: the held
head, else the oldest pre-empted node, else the head whose turn it is (02 R39, R40). -/
inductive Serves (s : State) (level : Nat) : State → Nat → Node → Prop where
  | held (n : Nat) (nd : Node) : heldAt s level = some (n, nd) → Serves s level s n nd
  | preempted (n : Nat) (nd : Node) : heldAt s level = none → preemptedAt s level = some (n, nd) → Serves s level s n nd
  | turn (s1 : State) (n : Nat) (nd : Node) : heldAt s level = none → preemptedAt s level = none → headPending s 0 level = false →
      headPending s 1 level = false → drrServe level 64 (drrClear s level) = some (s1, n, nd) → Serves s level s1 n nd

/-- The byte memories of the package and of its hosts are in their canonical form: addresses rise strictly and no listed byte
is 0, which is what an unlisted address reads as (DESIGN CHOICE, log entry 5). -/
def MemInv (s : State) : Prop := memWf s.mem = true ∧ memWf s.hostMem0 = true ∧ memWf s.hostMem1 = true

end Sys2Proof.Machine
end

