-- ==== Sys2Proof/Certificates/Slice0/Obligations.lean ====
section
/-! DEFINITION. The statements for the provers: each formalises the rules of the spec that its entry in OBLIGATIONS.json cites. -/

open Sys2Proof Sys2Proof.Machine

/-- Slot words that the spec writes out bit by bit decode to the operations they stand for, one or more in every class; the
reserved word of the opcode map is refused as illegal-operation. (R70, R71, R74, R84, R85, R86, R87, R88) -/
def Obligations.WordsDecode : Prop :=
  decodeSlot 3 0 0x0060_0FFE_0064 = .ok (.add 0 false ⟨⟨false, 0⟩, .s 3, .s 1, .imm, 0x64⟩) ∧
  decodeSlot 3 0 0x15_0060_200B_2008 = .ok (.fadd 0 false ⟨⟨false, 0⟩, .s 3, .s 4, .s 5, 0x12008⟩) ∧
  decodeSlot 3 0 0xC_8320_BFFE_07A0 = .ok (.bext 0 false ⟨⟨false, 0⟩, .s 25, .s 23, .imm, 0x7A0⟩) ∧
  decodeSlot 1 0 0x0E00_1000_0402 = .ok (.ld 0 false ⟨⟨false, 0⟩, .lq 0, .s 2, .s 0, 4, .tile, .rlx, .w⟩) ∧
  decodeSlot 1 0 0x40_8321_D000_014B = .ok (.kwait 0 false ⟨⟨false, 0⟩, .s 25, .s 58, .s 0, 1, .pkg, .acq, .d⟩) ∧
  decodeSlot 3 0 0x080_0010_0400_C100 =
    .ok (.vadd 0 false ⟨⟨false, 0⟩, 1, 2, 3, false, false, 0, true, 0, false, false, false⟩) ∧
  decodeSlot 4 0 0xA81_00A0_0602_C394 =
    .ok (.vmul 0 true ⟨⟨true, 2⟩, 10, 3, 11, false, false, 1, true, 4, true, false, true⟩) ∧
  decodeSlot 5 0 0x1_2000_0000_0001 = .ok (.etrig 0 ⟨⟨false, 0⟩, .cq0, 0, .s 0, 1⟩) ∧
  decodeSlot 5 0 0x201F_FC00_1000 = .ok (.ewr 0 ⟨⟨false, 0⟩, .cq0, 1, .imm, 0x1000⟩) ∧
  decodeSlot 0 0 0x8_8000_0000_0003 = .ok (.slack 0 ⟨⟨false, 0⟩, 0, .s 0, 3⟩) ∧
  decodeSlot 0 0 0x9_0000_0000_0012 = .ok (.fence 0 ⟨⟨false, 0⟩, 0, .s 0, 0x12⟩) ∧
  decodeSlot 0 0 0x2_8000_0100_0005 = .ok (.loop 0 ⟨⟨false, 0⟩, 2, .s 0, 5⟩) ∧
  decodeSlot 4 0 0x3E0_0000_0000_0000 = .error .illegalOperation

/-- For every well-formed instruction, slot operation or event, the decoder reads from its encoded step word the same
instruction, with every operand at every value that the encoding admits. (The layout of the event words is the table of steps;
the layout of a step word in five lanes is the table's own.) (R70, R71, R72, R74, R84, R85, R86, R87, R88, R89) -/
def Obligations.DecodeOfEncode : Prop :=
  ∀ i : Instr, WellFormed i → decodeStep (encodeStep i) = .ok i

/-- Where the decoder answers an instruction, that instruction is well-formed and its encoding is the word that was decoded:
two words never stand for one instruction, and no bit of a word is ignored. (R70, R71, R74, R84, R85, R86, R87, R88) -/
def Obligations.EncodeOfDecode : Prop :=
  ∀ (w : StepWord) (i : Instr), decodeStep w = .ok i → WellFormed i ∧ encodeStep i = w

/-- A slot word with an unassigned opcode of its class, or with opcode 0x1C0 to 0x1FF in xa or xb, is refused as illegal-
operation whatever its guard and payload: ca from 0x01C on; aa and ab outside 0x000 to 0x009, 0x040 to 0x04D and 0x080 to
0x085; xa and xb from 0x032 to 0x0FF and from 0x12B on; ea from 0x005 on. (R72, R84, R85, R86, R87, R88, R92) -/
def Obligations.UnassignedOpcodesRefused : Prop :=
  ∀ (tile : BitVec 8) (w : SlotWord),
    (0x01C ≤ (opcodeOf w).toNat → decodeSlot 0 tile w = .error .illegalOperation) ∧
    ((0x00A ≤ (opcodeOf w).toNat ∧ (opcodeOf w).toNat ≤ 0x03F) ∨ (0x04E ≤ (opcodeOf w).toNat ∧ (opcodeOf w).toNat ≤ 0x07F) ∨ 0x086 ≤ (opcodeOf w).toNat →
      decodeSlot 1 tile w = .error .illegalOperation ∧ decodeSlot 2 tile w = .error .illegalOperation) ∧
    ((0x032 ≤ (opcodeOf w).toNat ∧ (opcodeOf w).toNat ≤ 0x0FF) ∨ 0x12B ≤ (opcodeOf w).toNat →
      decodeSlot 3 tile w = .error .illegalOperation ∧ decodeSlot 4 tile w = .error .illegalOperation) ∧
    (0x005 ≤ (opcodeOf w).toNat → decodeSlot 5 tile w = .error .illegalOperation)

/-- Where the head of the agenda is a step word that decodes to an instruction, the step is exec of that instruction on the
state whose agenda is the rest (the agenda is the model's own way to order what moves: DESIGN CHOICE, log entry 1); an
operation of a slot that the agenda names is the oldest unissued operation of that slot. (R70, R92) -/
def Obligations.StepRunsDecodedWord : Prop :=
  ∀ (s : State) (i : Instr),
    (∀ w turn rest, s.agenda = .word w turn :: rest → decodeStep w = .ok i → step s = exec i { s with agenda := rest, turn }) ∧
    (∀ tile slot rest b, slot < 6 → tile < 256 → s.agenda = .slot tile slot :: rest → slotNext? (coreGet s tile) slot = some b →
      decodeSlot slot (BitVec.ofNat 8 tile) (mapGet b.words slot 0) = .ok i → step s = exec i { s with agenda := rest })

/-- For an event of the step table placed in any state, the next step is exec of that event on the state as it was, with the
free selection at 0; for a slot operation it is exec on that state, whose tile has a running bobbin. (R70) -/
def Obligations.PlacedWordRuns : Prop :=
  ∀ (s : State) (i : Instr) (nbits w : Nat), decodeTableWord nbits w = some i →
    step (s.withFetchWord nbits w) = exec i { (s.withFetchWord nbits w) with agenda := s.agenda, turn := 0 } ∧
    (opView i = .event → step (s.withFetchWord nbits w) = exec i { s with turn := 0 })

/-- Every step answers a next state, but for one: a word at the head of the agenda that decodes to no instruction ends in the
fault named undecodable. No instruction is refused, and none ends in a fault of its own. (R92) -/
def Obligations.StepAlwaysAnswers : Prop :=
  ∀ s : State,
    (∃ t, step s = .next t) ∨
      (step s = .fault .undecodable ∧
        ∃ w turn rest, s.agenda = .word w turn :: rest ∧ ∀ i, decodeStep w ≠ .ok i)

/-- With an empty agenda the step lets one package cycle pass (the agenda is a DESIGN CHOICE, log entry 1): the clock advances
by the cycle period, memory, nodes and packs stay, and on every tile: with the clocks stopped, nothing changes; a freeze
counts the cycle and the ticks stand; a cycle that is stretched goes on for a second period, in which nothing else counts;
else the tile cycle ends, and the ticks advance by one exactly when all that belongs to the tick in progress has come about:
its results have landed, and no freeze, element, fault or trap of it is outstanding. A replay that is in progress then has one
cycle less before it. (R96, R113, R116, R118, R120, R121) -/
def Obligations.TickCounts : Prop :=
  ∀ s : State, s.agenda = [] → (s.tiles.map (·.1)).Nodup →
    ∃ t, step s = .next t ∧ t.clock = s.clock + cyclePeriod s ∧ t.mem = s.mem ∧ t.nodes = s.nodes ∧ t.packs = s.packs ∧
      ∀ n ∈ s.tiles.map (·.1),
        let c := coreGet s n
        (s.clockStop = true → tileGet t n = tileGet s n) ∧
        (s.clockStop = false → ∀ f, c.frozen = some f →
          (coreGet t n).frozen = some { f with cycles := f.cycles + 1 } ∧ (coreGet t n).ticks = c.ticks) ∧
        (s.clockStop = false → c.frozen = none → c.stretch = 1 →
          (coreGet t n).ticks = c.ticks ∧ (coreGet t n).stretch = 2 ∧ (coreGet t n).replay = c.replay) ∧
        (s.clockStop = false → c.frozen = none → c.stretch ≠ 1 →
          (coreGet t n).ticks = c.ticks + (if tickOver s n then 1 else 0) ∧ (coreGet t n).stretch = 0 ∧
          (tickOver s n = true → ∀ r, c.replay = some r → 1 < r.left →
            (coreGet t n).replay = some { r with left := r.left - 1 }))

/-- Every integer operation that issues with its guard true completes: its result, on 64-bit values modulo 2^64 as the table
of the rule gives it, lands in its latch and its destination, and no flag is set; clz and ctz count the zero bits above the
highest and below the lowest 1 bit (64 for 0), and popc the 1 bits. (R164) -/
def Obligations.IntegerOperations : Prop :=
  (∀ row ∈ integerRows, ∀ (tile : BitVec 8) (hi : Bool) (o : SOp) (s : State) (b : Bundle),
    Ready (row.op tile hi o) tile.toNat (xSlot hi) s b → guardTrue s tile.toNat o.guard = true →
    exec (row.op tile hi o) s =
      .next (scalarDone s tile hi o b row.latch row.lat
        (row.val o (scalarArg s tile hi o b 0) (scalarArg s tile hi o b 1)) 0)) ∧
  (leadingZeros 0 = 64 ∧ trailingZeros 0 = 64 ∧ ∀ a : Word, a ≠ 0 →
    ((leadingZeros a).toNat < 64 ∧ a.getLsbD (63 - (leadingZeros a).toNat) = true ∧
      ∀ j, 63 - (leadingZeros a).toNat < j → a.getLsbD j = false) ∧
    ((trailingZeros a).toNat < 64 ∧ a.getLsbD (trailingZeros a).toNat = true ∧
      ∀ j < (trailingZeros a).toNat, a.getLsbD j = false)) ∧
  ∀ a : Word, (popCount a).toNat = ((List.range 64).filter fun j => a.getLsbD j).length

/-- bext and bins that issue with their guard true complete: bext gives (a >> pos) AND (2^w − 1) for the control value b, and
bins puts the low w bits of b into a at pos, by the control word imm17. (R165) -/
def Obligations.FieldOperations : Prop :=
  ∀ row ∈ fieldRows, ∀ (tile : BitVec 8) (hi : Bool) (o : SOp) (s : State) (b : Bundle),
    Ready (row.op tile hi o) tile.toNat (xSlot hi) s b → guardTrue s tile.toNat o.guard = true →
    exec (row.op tile hi o) s =
      .next (scalarDone s tile hi o b row.latch row.lat
        (row.val o (scalarArg s tile hi o b 0) (scalarArg s tile hi o b 1)) 0)

/-- mov, li, lih and madr that issue with their guard true complete: mov gives a with the residue it carries, li the sign-
extended immediate, lih a shifted left by 16 with the immediate below, madr a + b times the sign-extended immediate, modulo
2^64. (R167) -/
def Obligations.MoveOperations : Prop :=
  ∀ row ∈ moveRows, ∀ (tile : BitVec 8) (hi : Bool) (o : SOp) (s : State) (b : Bundle),
    Ready (row.op tile hi o) tile.toNat (xSlot hi) s b → guardTrue s tile.toNat o.guard = true →
    exec (row.op tile hi o) s =
      .next (scalarDone s tile hi o b row.latch row.lat
        (row.val o (scalarArg s tile hi o b 0) (scalarArg s tile hi o b 1)) 0)

/-- The compares and the predicate operations that issue with their guard true complete and give 1 or 0 as the table of the
rule says; sel gives a when its predicate, read in its issue tick, is 1 and b otherwise. (R166) -/
def Obligations.CompareOperations : Prop :=
  (∀ row ∈ compareRows, ∀ (tile : BitVec 8) (hi : Bool) (o : SOp) (s : State) (b : Bundle),
    Ready (row.op tile hi o) tile.toNat (xSlot hi) s b → guardTrue s tile.toNat o.guard = true →
    exec (row.op tile hi o) s =
      .next (scalarDone s tile hi o b row.latch row.lat
        (row.val o (scalarArg s tile hi o b 0) (scalarArg s tile hi o b 1)) 0)) ∧
  ∀ (tile : BitVec 8) (hi : Bool) (o : SOp) (s : State) (b : Bundle),
    Ready (.sel tile hi o) tile.toNat (xSlot hi) s b → guardTrue s tile.toNat o.guard = true →
    let x := scalarArg s tile hi o b 0
    let y := scalarArg s tile hi o b 1
    let p := guardTrue s tile.toNat ⟨false, o.imm.setWidth 3⟩
    exec (.sel tile hi o) s = .next (scalarDone s tile hi o b 0 1 (remade [x, y] (if p then x.v else y.v)) 0)

/-- fadd, fsub, fmul, fmin, fmax, fcmp, ffma and fcvt that issue with their guard true complete after four ticks: the result
is the function of the operation on the operands and the control word, and the flags that the function raises are set; ffma
reads its destination in the issue tick. (R168, R169, R138) -/
def Obligations.FloatOperations : Prop :=
  ∀ (tile : BitVec 8) (hi : Bool) (o : SOp) (s : State) (b : Bundle),
    let ctx := scalarFpCtx s tile.toNat b o.imm
    let x := scalarArg s tile hi o b 0
    let y := scalarArg s tile hi o b 1
    guardTrue s tile.toNat o.guard = true →
    (∀ row ∈ floatRows, Ready (row.op tile hi o) tile.toNat (xSlot hi) s b →
      let r := row.f o ctx x.v.toNat y.v.toNat
      exec (row.op tile hi o) s = .next (scalarDone s tile hi o b 2 4 (remade [x, y] (BitVec.ofNat 64 r.1)) (flagBits r.2))) ∧
    (Ready (.ffma tile hi o) tile.toNat (xSlot hi) s b →
      let d := plainRd s tile.toNat o.dst 0
      let r := fpFma ctx x.v.toNat y.v.toNat d.v.toNat
      exec (.ffma tile hi o) s =
        .next (scalarDone s tile hi o b 2 4 (remade [x, y, d] (BitVec.ofNat 64 r.1)) (flagBits r.2))) ∧
    (Ready (.fcvt tile hi o) tile.toNat (xSlot hi) s b →
      let r := fpCvt ctx (fmtOf (ctlSfmt o.imm)) x.v.toNat
      exec (.fcvt tile hi o) s = .next (scalarDone s tile hi o b 2 4 (remade [x] (BitVec.ofNat 64 r.1)) (flagBits r.2)))

/-- In every floating format that fcmp takes, and for all operands, fcmp gives 1 or 0 and sets no flag; with a NaN operand eq,
lt, le and ord give 0 and un, ne, nlt and nle give 1; each of the conditions 4 to 7 after its base condition is its negation;
−0 equals +0. (R169) -/
def Obligations.FloatCompares : Prop :=
  ∀ (c : FpCtx) (x y : Nat),
    (∀ k, (fpCmp k c x y).1 ≤ 1 ∧ (fpCmp k c x y).2 = noFlags) ∧
    (numIn c.fmt c.fzi x = .nan ∨ numIn c.fmt c.fzi y = .nan →
      (fpCmp 0 c x y).1 = 0 ∧ (fpCmp 1 c x y).1 = 0 ∧ (fpCmp 2 c x y).1 = 0 ∧ (fpCmp 3 c x y).1 = 1 ∧
      (fpCmp 4 c x y).1 = 1 ∧ (fpCmp 5 c x y).1 = 1 ∧ (fpCmp 6 c x y).1 = 1 ∧ (fpCmp 7 c x y).1 = 0) ∧
    (∀ k < 4, (fpCmp (k + 4) c x y).1 = 1 - (fpCmp k c x y).1)

/-- Every scalar operation that issues with its guard false completes with no other effect than its pushes: each entry that it
pushes takes the value of its latch at the landing tick; no register is written, no fault raised, no flag set. (R144, R145) -/
def Obligations.PredicatedOffScalar : Prop :=
  ∀ row ∈ scalarRows, ∀ (tile : BitVec 8) (hi : Bool) (o : SOp) (s : State) (b : Bundle),
    Ready (row.1 tile hi o) tile.toNat (xSlot hi) s b → guardTrue s tile.toNat o.guard = false →
    exec (row.1 tile hi o) s =
      .next (issued s tile.toNat (xSlot hi) b row.2.2
        (latchEntries (slotQ b.pushes (xSlot hi)) (latchKey (xSlot hi) row.2.1)))

/-- add, sub, mul and madr form the residue of the result from those of its operands: where both operands carry their value
mod 15 the result carries its own value mod 15, and where one is poisoned the result is poisoned; a unit that forms the
residue anew poisons its result exactly when an operand is poisoned or fails its check. (R170, R171) -/
def Obligations.ResiduesPropagate : Prop :=
  ∀ (x y : RV) (l : List RV) (v : Word),
    (resBad x = false → resBad y = false →
      resAdd x y = rvOf (x.v + y.v) ∧ resSub x y = rvOf (x.v - y.v) ∧ resMul x y = rvOf (x.v * y.v)) ∧
    (x.r = poison ∨ y.r = poison → (resAdd x y).r = poison ∧ (resSub x y).r = poison ∧ (resMul x y).r = poison) ∧
    (resAdd x y).v = x.v + y.v ∧ (resSub x y).v = x.v - y.v ∧ (resMul x y).v = x.v * y.v ∧
    (remade l v).v = v ∧ ((remade l v).r = poison ↔ ∃ z ∈ l, resBad z = true) ∧ resBad (rvOf v) = false

/-- s0 reads 0 and p0 reads 1 whatever the tile holds, and a result for either leaves its latch alone; a predicate takes 1 for
a non-zero result, and a result that fails its check raises residue where it would write a predicate or a mask. (R74, R75,
R172) -/
def Obligations.HardwiredPorts : Prop :=
  ∀ (s : State) (tile : Nat) (immv : Word) (pushes : List (Nat × Nat)) (x : RV),
    plainRd s tile (.s 0) immv = rvOf 0 ∧ plainRd s tile (.p 0) immv = rvOf 1 ∧ plainRd s tile .imm immv = rvOf immv ∧
    dstEffs pushes (.s 0) x = .ok [] ∧
    (∀ n : BitVec 6, n ≠ 0 → dstEffs pushes (.s n) x = .ok [.reg n.toNat x]) ∧
    (∀ n : BitVec 3, n ≠ 0 → resBad x = false →
      dstEffs pushes (.p n) x = .ok [.reg (64 + n.toNat) (rvOf (if x.v = 0 then 0 else 1))]) ∧
    (resBad x = false → dstEffs pushes (.p 0) x = .ok []) ∧
    (∀ n : BitVec 3, resBad x = true →
      dstEffs pushes (.p n) x = .error (residueTrap x) ∧ dstEffs pushes (.m n) x = .error (residueTrap x)) ∧
    (∀ n : BitVec 3, resBad x = false → dstEffs pushes (.m n) x = .ok [.reg (72 + n.toNat) (rvOf (x.v &&& 0x7FF#64))])

/-- An ld of the tile's own pool, aligned and inside the scratchpad, that the pool serves in this tick completes: the little-
endian number of its bytes as the tile sees them, zero-extended, lands at the end of tick t + 4 in l0 and in its data port. An
ldq puts the elements of its 64 bytes, element 0 first, into its entries. (R71, R105, R174, R177, R178, R180, R181) -/
def Obligations.OwnPoolLoads : Prop :=
  ∀ (tile : BitVec 8) (hi : Bool) (o : MOp) (s : State) (b : Bundle) (s1 : State),
    relWaits (coreGet s tile.toNat) b.seq o.order = false →
    (ReadyM (.ld tile hi o) tile hi o false s b →
      let ea := accessAddr s tile hi o false b
      let n := sizeBytes o.size
      let x := rvOf (BitVec.ofNat 64 (poolNat (tileGet s tile.toNat) ea.toNat n))
      ∀ effs, OwnPoolAt s tile.toNat ea n n → PoolServes s s1 tile.toNat (mSlot hi) b ea.toNat n false (decide (o.order = .rlx)) →
      dstEffs (slotQ b.pushes (mSlot hi)) o.data x = .ok effs →
      exec (.ld tile hi o) s = .next (slotDone
        (addRead (ownSync (servePort s1 tile.toNat ea.toNat false) tile.toNat ea.toNat n o) tile.toNat b.seq (mSlot hi) 5
          (.reg (latchKey (mSlot hi) 0) x :: effs) (ordAcq o.order) false) tile.toNat (mSlot hi) b)) ∧
    (ReadyM (.ldq tile hi o) tile hi o false s b →
      let ea := accessAddr s tile hi o false b
      let z := sizeBytes o.size
      OwnPoolAt s tile.toNat ea 64 64 → PoolServes s s1 tile.toNat (mSlot hi) b ea.toNat 64 false (decide (o.order = .rlx)) →
      exec (.ldq tile hi o) s = .next (slotDone
        (addRead (ownSync (servePort s1 tile.toNat ea.toNat false) tile.toNat ea.toNat 64 o) tile.toNat b.seq (mSlot hi) 5
          (((slotQ b.pushes (mSlot hi)).zip ((List.range (64 / z)).map fun j => poolNat (tileGet s tile.toNat) (ea.toNat + z * j) z)).map
            fun p => .entry p.1.1 p.1.2 (rvOf (BitVec.ofNat 64 p.2))) (ordAcq o.order) false) tile.toNat (mSlot hi) b))

/-- An st to the tile's own pool, aligned and inside the scratchpad, that the pool serves in this tick completes: the low
bytes of its source, lowest first, land at its address at the end of the tick; an stq lands the low bytes of each popped
entry. Until then, and for every other agent until the commit, the pool stays, and so do all other bytes of memory. (R71,
R103, R105, R174, R178, R180, R181) -/
def Obligations.OwnPoolStores : Prop :=
  ∀ (tile : BitVec 8) (hi : Bool) (o : MOp) (s : State) (b : Bundle) (s1 : State),
    relWaits (coreGet s tile.toNat) b.seq o.order = false →
    (ReadyM (.st tile hi o) tile hi o true s b →
      let ea := accessAddr s tile hi o true b
      let n := sizeBytes o.size
      OwnPoolAt s tile.toNat ea n n → PoolServes s s1 tile.toNat (mSlot hi) b ea.toNat n true (decide (o.order = .rlx)) →
      ∃ t, exec (.st tile hi o) s = .next t ∧ IssueKeeps tile.toNat s t ∧
        lastFlight t tile.toNat = some ⟨b.seq, mSlot hi, (coreGet s tile.toNat).ticks,
          [.cells (cellsOf ea.toNat n (accessArgs s tile hi o true b).data.v.toNat)], none, false, false, false⟩) ∧
    (ReadyM (.stq tile hi o) tile hi o false s b →
      let ea := accessAddr s tile hi o false b
      let z := sizeBytes o.size
      let pops := (slotQ b.pops (mSlot hi)).drop (qOf o.base ++ qOf o.index).length
      let vals := pops.map fun q => mapGet (coreGet s tile.toNat).qent (qKey q.1 q.2) (rvOf 0)
      pops.length = 64 / z → resCheck vals = none →
      OwnPoolAt s tile.toNat ea 64 64 → PoolServes s s1 tile.toNat (mSlot hi) b ea.toNat 64 true (decide (o.order = .rlx)) →
      ∃ t, exec (.stq tile hi o) s = .next t ∧ IssueKeeps tile.toNat s t ∧
        lastFlight t tile.toNat = some ⟨b.seq, mSlot hi, (coreGet s tile.toNat).ticks,
          [.cells ((List.range 64).zip (vals.flatMap fun x => leBytes z x.v.toNat) |>.map fun p => (ea.toNat + p.1, p.2))],
          none, false, false, false⟩)

/-- ld, ldq, st and stq of another tile's pool of the node, and ldc and stc of an aligned global address, complete at issue: a
request with the address, the size, the bytes and the effective scope of the access is added, and a load's value takes the
declared latency. (R174, R175, R177, R178, R182, R183) -/
def Obligations.RemoteAccesses : Prop :=
  ∀ (tile : BitVec 8) (hi : Bool) (o : MOp) (s : State) (b : Bundle) (t : Nat),
    relWaits (coreGet s tile.toNat) b.seq o.order = false →
    let n := sizeBytes o.size
    let slot := mSlot hi
    let ld := accessAddr s tile hi o false b
    let sto := accessAddr s tile hi o true b
    let v := (accessArgs s tile hi o true b).data.v
    let far := effScope o (poolReach tile.toNat t)
    let wide := effScope o .pkg
    (ReadyM (.ld tile hi o) tile hi o false s b → RemotePoolAt s tile.toNat ld t n n →
      exec (.ld tile hi o) s = .next (slotDone (addReq s tile.toNat b slot (some 64)
        { reqOf .load 0x000 (ld ||| 0x8000000000000000) o far with dst := o.data, entries := slotQ b.pushes slot })
        tile.toNat slot b)) ∧
    (ReadyM (.ldq tile hi o) tile hi o false s b → RemotePoolAt s tile.toNat ld t 64 64 →
      exec (.ldq tile hi o) s = .next (slotDone (addReq s tile.toNat b slot (some 64)
        { reqOf .load 0x002 (ld ||| 0x8000000000000000) o far with n := 64 / n, entries := slotQ b.pushes slot })
        tile.toNat slot b)) ∧
    (ReadyM (.st tile hi o) tile hi o true s b → RemotePoolAt s tile.toNat sto t n n → 
      exec (.st tile hi o) s = .next (slotDone (addReq s tile.toNat b slot none
        { reqOf .store 0x001 (sto ||| 0x8000000000000000) o far with
          bytes := leBytes n v.toNat, size := n, data := BitVec.ofNat 64 (leNat ((leBytes n v.toNat).take 8)) })
        tile.toNat slot b)) ∧
    (ReadyM (.stq tile hi o) tile hi o false s b →
      let vals := ((slotQ b.pops slot).drop (qOf o.base ++ qOf o.index).length).map fun q =>
        mapGet (coreGet s tile.toNat).qent (qKey q.1 q.2) (rvOf 0)
      let bs := vals.flatMap fun x => leBytes n x.v.toNat
      bs.length = 64 → resCheck vals = none → RemotePoolAt s tile.toNat ld t 64 64 →
      exec (.stq tile hi o) s = .next (slotDone (addReq s tile.toNat b slot none
        { reqOf .store 0x003 (ld ||| 0x8000000000000000) o far with
          bytes := bs, size := 64, data := BitVec.ofNat 64 (leNat (bs.take 8)) }) tile.toNat slot b)) ∧
    (ReadyM (.ldc tile hi o) tile hi o false s b → ld.toNat < 2 ^ 52 → ld.toNat % n = 0 →
      exec (.ldc tile hi o) s = .next (slotDone (addReq s tile.toNat b slot (some 64)
        { reqOf .load 0x004 ld o wide with dst := o.data, entries := slotQ b.pushes slot }) tile.toNat slot b)) ∧
    (ReadyM (.stc tile hi o) tile hi o true s b → sto.toNat < 2 ^ 52 → sto.toNat % n = 0 →
      exec (.stc tile hi o) s = .next (slotDone (addReq s tile.toNat b slot none
        { reqOf .store 0x005 sto o wide with bytes := leBytes n v.toNat, data := v }) tile.toNat slot b))

/-- pref completes and returns nothing: where its address translates, is readable and is cacheable, its granule comes into the
cache of the issuing die; where it does not, or is no global address, pref has no effect. (R175, R183) -/
def Obligations.Prefetch : Prop :=
  ∀ (tile : BitVec 8) (hi : Bool) (o : MOp) (s : State) (b : Bundle), ReadyM (.pref tile hi o) tile hi o false s b →
    let ea := (accessAddr s tile hi o false b).toNat
    let asid := tileAsid s tile.toNat
    let walk := (walkTables s asid (ea / 65536)).1
    (2 ^ 52 ≤ ea → exec (.pref tile hi o) s = .next (slotDone s tile.toNat (mSlot hi) b)) ∧
    (ea < 2 ^ 52 → (∀ w bits, walk ≠ .leaf w bits) → exec (.pref tile hi o) s = .next (slotDone s tile.toNat (mSlot hi) b)) ∧
    (∀ w bits, ea < 2 ^ 52 → walk = .leaf w bits →
      let e : TlbEnt := ⟨asid, ea / 2 ^ bits, bits, w⟩
      let use := leafR w && leafCache w && !permBad e ea 1 true false
      (use = true → exec (.pref tile hi o) s = .next (slotDone
        (touchPa (cacheFill s (dieOf tile.toNat) (entPa e ea / 64)) asid (entPa e ea)) tile.toNat (mSlot hi) b)) ∧
      (use = false → exec (.pref tile hi o) s = .next (slotDone s tile.toNat (mSlot hi) b)))

/-- With n = base + disp of at most 2,047, rdset writes D[n] or O[n] at the end of its tick, rdget returns one after two
ticks, and rdadv moves the base by v elements and the origin by v, or the origin alone; a greater n raises bad-descriptor, and
a base that leaves the offset field or is no integer raises region-range. (R177, R184, R196) -/
def Obligations.RegionDescriptors : Prop :=
  ∀ (tile : BitVec 8) (hi : Bool) (o : MOp) (s : State) (b : Bundle) (d : Bool),
    let v := accessArgs s tile hi o d b
    let n := (v.base + o.disp.signExtend 64).toNat
    let slot := mSlot hi
    let D := regRd (coreGet s tile.toNat) (descKey n)
    let G := regRd (coreGet s tile.toNat) (orgKey n)
    (d = true → n ≤ 2047 →
      (ReadyM (.rdset tile hi o) tile hi o d s b →
        exec (.rdset tile hi o) s = .next (issued s tile.toNat slot b 1 [.reg (descKey n) (rvOf v.data.v)])) ∧
      (ReadyM (.rdsetOrg tile hi o) tile hi o d s b →
        exec (.rdsetOrg tile hi o) s = .next (issued s tile.toNat slot b 1 [.reg (orgKey n) (rvOf v.data.v)])) ∧
      (ReadyM (.rdadvOrg tile hi o) tile hi o d s b →
        exec (.rdadvOrg tile hi o) s = .next (issued s tile.toNat slot b 1 [.reg (orgKey n) (rvOf (G.v + v.data.v))])) ∧
      (ReadyM (.rdadv tile hi o) tile hi o d s b →
        let half := v.data.v.toInt * fmtBits (fmtOf (natBits D.v.toNat 4 4))
        let nb := (natBits D.v.toNat 41 23 : Int) + half / 8
        (half % 8 = 0 → 0 ≤ nb → nb < 2 ^ 23 →
          exec (.rdadv tile hi o) s = .next (issued s tile.toNat slot b 1
            [.reg (descKey n) (rvOf (BitVec.ofNat 64 (nb.toNat * 2 ^ 41 + D.v.toNat % 2 ^ 41))),
             .reg (orgKey n) (rvOf (G.v + v.data.v))])) ∧
        (half % 8 ≠ 0 ∨ nb < 0 ∨ 2 ^ 23 ≤ nb →
          exec (.rdadv tile hi o) s =
            .next (issuedBad s tile.toNat slot b (trapAt causeRegionRange (BitVec.ofNat 64 n) v.data.v))))) ∧
    (d = false → n ≤ 2047 → ∀ effs,
      (ReadyM (.rdget tile hi o) tile hi o d s b → dstEffs (slotQ b.pushes slot) o.data (rvOf D.v) = .ok effs →
        exec (.rdget tile hi o) s = .next (issued s tile.toNat slot b 2 (.reg (latchKey slot 3) (rvOf D.v) :: effs))) ∧
      (ReadyM (.rdgetOrg tile hi o) tile hi o d s b → dstEffs (slotQ b.pushes slot) o.data (rvOf G.v) = .ok effs →
        exec (.rdgetOrg tile hi o) s = .next (issued s tile.toNat slot b 2 (.reg (latchKey slot 3) (rvOf G.v) :: effs)))) ∧
    (2047 < n →
      (∀ op ∈ [Instr.rdset, Instr.rdsetOrg, Instr.rdadv, Instr.rdadvOrg], d = true → ReadyM (op tile hi o) tile hi o d s b →
        exec (op tile hi o) s =
          .next (issuedBad s tile.toNat slot b (trapAt causeBadDescriptor (BitVec.ofNat 64 n) v.data.v))) ∧
      (∀ op ∈ [Instr.rdget, Instr.rdgetOrg], d = false → ReadyM (op tile hi o) tile hi o d s b →
        exec (op tile hi o) s =
          .next (issuedBad s tile.toNat slot b (trapAt causeBadDescriptor (BitVec.ofNat 64 n) v.data.v))))

/-- Every atomic at an aligned word of the tile's own pool that the pool serves in this tick completes: at the end of tick t +
5 the old value lands in l2 (extended by zeros, by its sign for amin and amax), with afaddb's success in l3, and the word
takes the new value of the table; where the row writes nothing (a failed acas or afaddb), no byte changes. At issue the pool
stays, and so do all other bytes of memory. (R105, R176, R177, R185, R186, R187, R188) -/
def Obligations.OwnPoolAtomics : Prop :=
  ∀ row ∈ atomicRows, ∀ (tile : BitVec 8) (hi : Bool) (o : MOp) (s : State) (b : Bundle) (s1 : State),
    ReadyM (row.op tile hi o) tile hi o true s b → relWaits (coreGet s tile.toNat) b.seq o.order = false →
    atomWaits b (mSlot hi) row.opc = false →
    let n := sizeBytes o.size
    let ea := atomicAddr row s tile hi o b
    let off := ea.toNat % 2 ^ 23
    let v := (accessArgs s tile hi o true b).data.v.toNat % 2 ^ (8 * n)
    let x := if row.two then (accessArgs s tile hi o true b).index.toNat % 2 ^ (8 * n) else 0
    let old := leNat ((List.range n).map fun j => heldByte (tileGet s tile.toNat) (off + j))
    (o.size = .w ∨ (o.size = .d ∧ row.opc < 0x04C)) →
    ea.toNat = 2 ^ 63 + off → ea.toNat % n = 0 → off + n ≤ scratchSize (tileGet s tile.toNat) →
    portOpen s tile.toNat (mSlot hi) off false = true → poolReadTrap s tile.toNat off n = none →
    checkOwn s tile.toNat b.seq off n true false = .ok s1 →
    ∃ t, exec (row.op tile hi o) s = .next t ∧ IssueKeeps tile.toNat s t ∧
      lastFlight t tile.toNat = some ⟨b.seq, mSlot hi, (coreGet s tile.toNat).ticks + 5,
        [.reg (latchKey (mSlot hi) 2) (rvOf (oldReturned row n old))]
          ++ (if row.opc = 0x04B then [.reg (latchKey (mSlot hi) 3) (rvOf (flagWord (row.new n old v x).isSome))] else [])
          ++ (match row.new n old v x with | some y => [.cells (cellsOf off n y)] | none => []),
        none, true, ordAcq o.order, true⟩

/-- Every atomic at an aligned global address, or at an aligned word of another tile's pool of the node, completes at issue: a
request with its opcode, operands and effective scope is added, its old value at the declared latency; a reel register or an
undefined address raises bad-address, and a misaligned one alignment. (R176, R177, R182, R185, R187, R196) -/
def Obligations.RemoteAtomics : Prop :=
  ∀ row ∈ atomicRows, ∀ (tile : BitVec 8) (hi : Bool) (o : MOp) (s : State) (b : Bundle), ReadyM (row.op tile hi o) tile hi o true s b →
    let n := sizeBytes o.size
    let ea := atomicAddr row s tile hi o b
    let a := accessArgs s tile hi o true b
    let waits := relWaits (coreGet s tile.toNat) b.seq o.order || atomWaits b (mSlot hi) row.opc
    let req (reach : Scope) : State := slotDone (addReq s tile.toNat b (mSlot hi) (some 64)
      { reqOf .atomic row.opc ea o (effScope o reach) with
        data := BitVec.ofNat 64 (a.data.v.toNat % 2 ^ (8 * n)),
        data2 := BitVec.ofNat 64 (if row.two then a.index.toNat % 2 ^ (8 * n) else 0) }) tile.toNat (mSlot hi) b
    (ea.toNat < 2 ^ 52 → ea.toNat % n = 0 → waits = false →
      exec (row.op tile hi o) s = .next (req .pkg)) ∧
    (∀ t off, fullPlace ea = .pool t off → ea.toNat % n = 0 → waits = false →
      t ∈ nodeTiles s tile.toNat → off + n ≤ scratchSize (tileGet s t) →
      exec (row.op tile hi o) s = .next (req (poolReach tile.toNat t))) ∧
    ((fullPlace ea = .bad ∨ 3 * 2 ^ 62 ≤ ea.toNat) →
      exec (row.op tile hi o) s = .next (issuedBad s tile.toNat (mSlot hi) b (trapAt causeBadAddress ea a.data.v))) ∧
    (ea.toNat < 2 ^ 52 → ea.toNat % n ≠ 0 →
      exec (row.op tile hi o) s = .next (issuedBad s tile.toNat (mSlot hi) b (trapAt causeAlignment ea a.data.v)))

/-- On register k of the issuing tile: kadd stages its add, which the tile sees from the next tick; kread returns the value
and kpoll 1 or 0 for value ≥ T after two ticks; kwait tests value ≥ T after two ticks; kbind stages the binding to the ceiling
register; kinit stages the value (its commit checks the prologue). The value is the one the tile sees, with its older adds
that name the register as another tile would. On another tile's register or a memory reel, kadd, kwait, kread and kpoll become
requests; a kinit does on a memory reel, and on another tile's register it raises illegal-target; a kbind raises reel-bind
there, on a memory reel once its translation has raised no fault. An address of no reel raises bad-address. (R176, R177, R178,
R179, R182, R190, R191, R192, R193, R194, R195, R196) -/
def Obligations.OwnReelOperations : Prop :=
  ∀ (tile : BitVec 8) (hi : Bool) (o : MOp) (s : State) (b : Bundle) (k : Nat),
    k < 256 → relWaits (coreGet s tile.toNat) b.seq o.order = false →
    let slot := mSlot hi
    let ea := accessAddr s tile hi o true b
    let lda := accessAddr s tile hi o false b
    let a := accessArgs s tile hi o true b
    let ea2 := effAddr2 a.base o
    let v := a.data.v
    let vl := (accessArgs s tile hi o false b).data.v
    let x := reelSeen s tile.toNat b.seq slot k
    let met := decide (v.toNat ≤ x.toNat)
    let bad (c : Nat) (e d : Word) : Host.Outcome State Fault Refusal := .next (issuedBad s tile.toNat slot b (trapAt c e d))
    ((∀ r ∈ (coreGet s tile.toNat).reqs, r.kind = .kadd → fullPlace r.addr ≠ .reel tile.toNat k) →
      x = reelOwn (tileGet s tile.toNat) k) ∧
    (ReadyM (.kadd tile hi o) tile hi o true s b → ea.toNat = 3 * 2 ^ 62 + k →
      exec (.kadd tile hi o) s = .next (slotDone (addFlight
        (addAct s tile.toNat b.seq slot (.sync (locReel tile.toNat k) o.order (effScope o .tile) true)) tile.toNat b.seq slot 1
          [.reelAdd k v]) tile.toNat slot b)) ∧
    (ReadyM (.kwait tile hi o) tile hi o true s b → ea.toNat = 3 * 2 ^ 62 + k →
      exec (.kwait tile hi o) s = .next (slotDone (addReq s tile.toNat b slot (some 2)
        { reqOf .kwait 0x081 ea o (effScope o .tile) with data := v, order := .acq, result := boolNat met })
        tile.toNat slot b)) ∧
    (ReadyM (.kpoll tile hi o) tile hi o true s b → ea.toNat = 3 * 2 ^ 62 + k →
      let s1 := if ordAcq o.order && met then coreSync s tile.toNat .acq (effScope o .tile) (locReel tile.toNat k) true false else s
      exec (.kpoll tile hi o) s = .next (slotDone
        (addRead s1 tile.toNat b.seq slot 2 [.reg (latchKey slot 3) (rvOf (flagWord met))] (ordAcq o.order) false)
        tile.toNat slot b)) ∧
    (ReadyM (.kread tile hi o) tile hi o false s b → lda.toNat = 3 * 2 ^ 62 + k →
      let s1 := if ordAcq o.order then coreSync s tile.toNat .acq (effScope o .tile) (locReel tile.toNat k) true false else s
      ∀ effs, dstEffs (slotQ b.pushes slot) o.data (rvOf x) = .ok effs →
      exec (.kread tile hi o) s = .next (slotDone
        (addRead s1 tile.toNat b.seq slot 2 (.reg (latchKey slot 3) (rvOf x) :: effs) (ordAcq o.order) false) tile.toNat slot b)) ∧
    (ReadyM (.kbind tile hi o) tile hi o true s b → ea2.toNat = 3 * 2 ^ 62 + k →
      (a.index.toNat < 256 → a.index.toNat ≠ k → v.toNat < 2 ^ 32 ∨ v.toNat = 2 ^ 64 - 1 →
        exec (.kbind tile hi o) s = .next (issued s tile.toNat slot b 1 [.reelBind k a.index.toNat v])) ∧
      (256 ≤ a.index.toNat ∨ a.index.toNat = k ∨ (2 ^ 32 ≤ v.toNat ∧ v.toNat ≠ 2 ^ 64 - 1) →
        exec (.kbind tile hi o) s = bad causeReelBind ea2 v)) ∧
    (ReadyM (.kinit tile hi o) tile hi o true s b → ea.toNat = 3 * 2 ^ 62 + k →
      exec (.kinit tile hi o) s = .next (issued s tile.toNat slot b 1 [.reelSet k v])) ∧
    (∀ p, (p = Place.reel (ea.toNat / 2 ^ 8 % 2 ^ 8) (ea.toNat % 2 ^ 8) ∨ p = .mem ea.toNat) → reelCheck ea v = .ok p →
      let sc := effScope o (reelReach tile.toNat p)
      (ReadyM (.kadd tile hi o) tile hi o true s b →
        exec (.kadd tile hi o) s = .next (slotDone (addReq s tile.toNat b slot none
          { reqOf .kadd 0x080 ea o sc with data := v }) tile.toNat slot b)) ∧
      (ReadyM (.kwait tile hi o) tile hi o true s b →
        exec (.kwait tile hi o) s = .next (slotDone (addReq s tile.toNat b slot (some 64)
          { reqOf .kwait 0x081 ea o sc with data := v, order := .acq }) tile.toNat slot b)) ∧
      (ReadyM (.kpoll tile hi o) tile hi o true s b →
        exec (.kpoll tile hi o) s = .next (slotDone (addReq s tile.toNat b slot (some 64)
          { reqOf .kpoll 0x083 ea o sc with data := v }) tile.toNat slot b)) ∧
      (ReadyM (.kinit tile hi o) tile hi o true s b →
        exec (.kinit tile hi o) s = if p = .mem ea.toNat then .next (slotDone (addReq s tile.toNat b slot none
            { reqOf .kinit 0x085 ea o .pkg with data := v, order := .rlx }) tile.toNat slot b)
          else bad causeIllegalTarget ea v)) ∧
    (∀ p, (p = Place.reel (lda.toNat / 2 ^ 8 % 2 ^ 8) (lda.toNat % 2 ^ 8) ∨ p = .mem lda.toNat) → reelCheck lda vl = .ok p →
      ReadyM (.kread tile hi o) tile hi o false s b →
      exec (.kread tile hi o) s = .next (slotDone (addReq s tile.toNat b slot (some 64)
        { reqOf .kread 0x082 lda o (effScope o (reelReach tile.toNat p)) with
          data := vl, dst := o.data, entries := slotQ b.pushes slot }) tile.toNat slot b)) ∧
    (ReadyM (.kbind tile hi o) tile hi o true s b →
      (∀ j n, reelCheck ea2 v = .ok (.reel j n) → exec (.kbind tile hi o) s = bad causeReelBind ea2 v) ∧
      (∀ va, reelCheck ea2 v = .ok (.mem va) → exec (.kbind tile hi o) s = .next (slotDone (addReq s tile.toNat b slot none
        { reqOf .kbind 0x084 ea2 o .pkg with data := v, order := .rlx }) tile.toNat slot b))) ∧
    (fullPlace ea = .bad → ∀ op ∈ [Instr.kadd, Instr.kwait, Instr.kpoll, Instr.kinit], ReadyM (op tile hi o) tile hi o true s b →
      exec (op tile hi o) s = bad causeBadAddress ea v)

/-- The add of v to a reel of value old: with old + v above 2^64 − 1 it faults with reel-overflow; else with the reel bound
and old + v above its ceiling's value plus its depth it faults with ring-ceiling; else the reel takes old + v. A faulting add
leaves the reel unchanged, and v = 0 changes nothing. An own kadd is staged at issue, and the tile's own reads see it from the
next tick. (R191, R358) -/
def Obligations.ReelAddIsChecked : Prop :=
  ∀ (s : State) (tile k : Nat) (v : Word),
    let x := reelGet (tileGet s tile) k
    let new := x.value.toNat + v.toNat
    let top := (reelGet (tileGet s tile) x.ceiling).value.toNat + x.depth
    (2 ^ 64 ≤ new → reelAdd s (.reg tile k) v = .error causeReelOverflow) ∧
    (new < 2 ^ 64 → x.bound = true → top < new → reelAdd s (.reg tile k) v = .error causeRingCeiling) ∧
    (new < 2 ^ 64 → (x.bound = false ∨ new ≤ top) →
      ∃ t, reelAdd s (.reg tile k) v = .ok t ∧ (reelGet (tileGet t tile) k).value.toNat = new) ∧
    (∀ (seq slot : Nat), reelOwn { tileGet s tile with core := { coreGet s tile with
        log := (coreGet s tile).log ++ [⟨seq, slot, .reelAdd k v⟩] } } k = reelOwn (tileGet s tile) k + v)

/-- Every operation of slots aa, ab, xa and xb, and every operation of slot ca but csend, lease and leasew, whatever its
fields, guard and operands: where exec answers a next state, every byte of device and host memory, every other tile, the
tile's own pool, reels, creel, running bobbin, node and engines, the ticks, and every committed register, predicate, mask,
latch, descriptor, special and control register are unchanged (results are staged, and land later). An operation that its slot
does not take in this tick (the core does not run, or the word is not that of the slot's oldest unissued operation) leaves the
whole state. (R99, R102, R103, R105) -/
def Obligations.IssueFrame : Prop :=
  ∀ (i : Instr) (tile slot : Nat) (s : State), placeOf (opView i) = some (tile, slot) →
    (reachesOut (opView i) = false → ∀ t, exec i s = .next t → IssueKeeps tile s t) ∧
    (coreRuns s tile = false → exec i s = .next s) ∧
    (∀ b, slotNext? (coreGet s tile) slot = some b → mapGet b.words slot 0 ≠ slotWordOf i → exec i s = .next s) ∧
    (∀ b, slotNext? (coreGet s tile) slot = some b → canIssue s tile slot b (opView i) = false → exec i s = .next s)

/-- An operation of bundle b issues only in a tick in which its slot has issued none yet, every slot has issued the operations
older than any sync bundle up to b in an earlier tick, no older fence or vfence stands unissued, each queue entry it pops has
landed and no unaccepted engine operation forbids it by its slack; with its guard true, no M, E, csend or fork while an older
acquire is outstanding, and no E operation behind an unissued slack or into a full elastic buffer. (R99, R100, R107, R110,
R144, R159, R178) -/
def Obligations.IssueOrder : Prop :=
  ∀ (s : State) (tile slot : Nat) (b : Bundle) (v : OpView), canIssue s tile slot b v = true →
    slot ∈ b.todo ∧ mapGet (coreGet s tile).busy slot 0 ≤ (coreGet s tile).ticks ∧
    (∀ y ∈ (coreGet s tile).window, y.sync = true → y.seq ≤ b.seq →
      ∀ x ∈ (coreGet s tile).window, x.seq < y.seq → x.todo = [] ∧ x.past ≤ (coreGet s tile).ticks) ∧
    fenceHolds (coreGet s tile) b.seq = false ∧ popsLanded (coreGet s tile) b slot = true ∧
    (∀ e < 10, ∀ x ∈ (engGet (tileGet s tile) e).buf, b.seq < x.seq + x.slack + 1) ∧
    (guardTrue s tile (viewGuard v) = true → acqHeld v = true → acqHolds (coreGet s tile) b.seq = false) ∧
    (guardTrue s tile (viewGuard v) = true → slot = 5 →
      slackHolds (coreGet s tile) b.seq = false ∧ bufFull (tileGet s tile) (mapGet b.words 5 0) = false)

/-- A guarded transfer resolves at its issue: jmp goes to B + target and jmpi to the value read, popping the loop entries that
it leaves; call goes to B + target with N in ca.l1; ret goes to the value read; loop and loopr push an entry for their body,
skip it for a count of 0, and fault for an exit that is not ahead of N (illegal-operation) or a full loop stack (loop-state),
but in an end-bit bundle they have no effect. An unguarded jmp, call or loop has resolved at dispatch. A transfer whose guard
is false goes on at N. nop changes nothing. (R146, R147, R148, R149, R150) -/
def Obligations.ControlTransfers : Prop :=
  ∀ (tile : BitVec 8) (o : COp) (s : State) (b : Bundle),
    let c := coreGet s tile.toNat
    let goes (l : List LoopEnt × Nat) : State := setFlow s tile.toNat b l
    let done (u : State) : Out := .next (slotDone u tile.toNat 0 b)
    let at' := pcAdd b.pc o.target
    let exit : Int := (b.pc : Int) + o.target.toInt
    (ReadyC (.nop tile o) tile o false s b → exec (.nop tile o) s = done s) ∧
    (ReadyC (.jmp tile o) tile o false s b →
      exec (.jmp tile o) s = done (if o.guard = ⟨false, 0⟩ then s else goes (jumpTo c.loops at'))) ∧
    (ReadyC (.jmpi tile o) tile o true s b → exec (.jmpi tile o) s = done (goes (jumpTo c.loops (ctlArg s tile o).toNat))) ∧
    (ReadyC (.call tile o) tile o false s b →
      exec (.call tile o) s = done (addFlight (if o.guard = ⟨false, 0⟩ then s else goes (c.loops, at')) tile.toNat b.seq 0 1
        [.reg 0x61 (rvOf (BitVec.ofNat 64 b.next))])) ∧
    (ReadyC (.ret tile o) tile o true s b → exec (.ret tile o) s = done (goes (c.loops, (ctlArg s tile o).toNat))) ∧
    (∀ (op : BitVec 8 → COp → Instr) (src : Bool) (n : Nat),
      (op = .loop ∧ src = false ∧ n = o.imm.toNat ∧ o.guard ≠ ⟨false, 0⟩) ∨
        (op = .loopr ∧ src = true ∧ n = (ctlArg s tile o).toNat) →
      ReadyC (op tile o) tile o src s b →
      (b.fin = true → exec (op tile o) s = done s) ∧
      (b.fin = false →
        (exit ≤ b.next → exec (op tile o) s = .next (issuedBad s tile.toNat 0 b (trapOf causeIllegalOperation))) ∧
        (b.next < exit → n = 0 → exec (op tile o) s = done (goes (exitTest c.loops exit.toNat))) ∧
        (b.next < exit → 0 < n → 4 ≤ c.loops.length →
          exec (op tile o) s = .next (issuedBad s tile.toNat 0 b (trapOf causeLoopState))) ∧
        (b.next < exit → 0 < n → c.loops.length < 4 →
          exec (op tile o) s = done (goes (⟨b.next, exit.toNat, n⟩ :: c.loops, b.next))))) ∧
    (ReadyC (.loop tile o) tile o false s b → o.guard = ⟨false, 0⟩ → exec (.loop tile o) s = done s) ∧
    (∀ op ∈ [Instr.jmp, Instr.jmpi, Instr.call, Instr.ret, Instr.loop, Instr.loopr],
      Ready (op tile o) tile.toNat 0 s b → guardTrue s tile.toNat o.guard = false →
      exec (op tile o) s = done (goes (exitTest c.loops b.next)))

/-- When control reaches the exit of the innermost entry, the entry with more than one run left goes back to its start with
one less, and the entry on its last run is popped, the exit of the next entry being tested in turn; elsewhere the stack stands
and control goes on. loop and loopr with n runs: an exit that is not ahead of N is illegal-operation, none of n = 0 runs skips
the body, a fifth entry is loop-state, and else the entry is pushed and control goes to N. An unguarded loop enters so at
dispatch. (R149, R150) -/
def Obligations.LoopExit : Prop :=
  (∀ (e : LoopEnt) (es : List LoopEnt) (pc : Nat),
    exitTest [] pc = ([], pc) ∧
    (pc ≠ e.exit → exitTest (e :: es) pc = (e :: es, pc)) ∧
    (1 < e.left → exitTest (e :: es) e.exit = ({ e with left := e.left - 1 } :: es, e.start)) ∧
    (e.left ≤ 1 → exitTest (e :: es) e.exit = exitTest es e.exit) ∧
    (∀ n, (Nat.repeat (fun (x : List LoopEnt × Nat) => exitTest x.1 e.exit) n ({ e with left := n + 1 } :: es, e.start)) =
      ({ e with left := 1 } :: es, e.start))) ∧
  ∀ (l : List LoopEnt) (pc next : Nat) (o : COp),
    let exit : Int := (pc : Int) + o.target.toInt
    (∀ n, (exit ≤ next → loopEnter l next exit n = .error causeIllegalOperation) ∧
      (next < exit → n = 0 → loopEnter l next exit n = .ok (exitTest l exit.toNat)) ∧
      (next < exit → 0 < n → 4 ≤ l.length → loopEnter l next exit n = .error causeLoopState) ∧
      (next < exit → 0 < n → l.length < 4 → loopEnter l next exit n = .ok (⟨next, exit.toNat, n⟩ :: l, next))) ∧
    (o.guard = ⟨false, 0⟩ → earlyFlow l pc next (some (0x005, o)) = loopEnter l next exit o.imm.toNat) ∧
    (o.guard ≠ ⟨false, 0⟩ → earlyFlow l pc next (some (0x005, o)) = .ok (exitTest l next))

/-- end, yield, suspend, join, wake, trap, parrive and pwait complete at issue and leave their effect to the commit of their
bundle; end lets nothing younger dispatch. (R102, R151, R152, R153, R157, R158, R161) -/
def Obligations.CommitTimeOperations : Prop :=
  ∀ (tile : BitVec 8) (o : COp) (s : State) (b : Bundle),
    let act (a : CommitAct) : Out := .next (slotDone (addAct s tile.toNat b.seq 0 a) tile.toNat 0 b)
    let reel := 0xC000000000000000#64 ||| BitVec.ofNat 64 (o.imm.toNat % 256)
    let scope := scopeOfCode (o.imm.toNat / 256 % 8)
    (ReadyC (.endOp tile o) tile o false s b → ∃ t, exec (.endOp tile o) s = .next t ∧
      ∀ x, bundleGet? (coreGet s tile.toNat) b.seq = some x → ∃ y, bundleGet? (coreGet t tile.toNat) b.seq = some y ∧
        y.acts = x.acts ++ [(0, .endBobbin)] ∧ y.unresolved = true) ∧
    (ReadyC (.yield tile o) tile o false s b → exec (.yield tile o) s = act .yield) ∧
    (ReadyC (.suspend tile o) tile o true s b → exec (.suspend tile o) s = act (.park reel (ctlArg s tile o) scope true)) ∧
    (ReadyC (.join tile o) tile o true s b → exec (.join tile o) s = act (.park reel (ctlArg s tile o) scope false)) ∧
    (ReadyC (.wake tile o) tile o false s b → exec (.wake tile o) s = act (.wake (o.imm.toNat % 16))) ∧
    (ReadyC (.trap tile o) tile o false s b → exec (.trap tile o) s = act (.trapCode o.imm.toNat)) ∧
    (ReadyC (.parrive tile o) tile o false s b → exec (.parrive tile o) s = act (.parrive (!o.imm.getLsbD 0))) ∧
    (ReadyC (.pwait tile o) tile o false s b → exec (.pwait tile o) s = act .pwait)

/-- A fork with a legal join spec and room for its bobbin completes: the outstanding count rises, lands in ca.l0 after two
ticks, and the bobbin enters the creel at the commit with the carry registers; an illegal join spec raises bad-join or
illegal-target, and a full creel or count creel-full. The operations check in this order (DESIGN CHOICE, log entry 72). A
csend waits in its slot while a store may still change its block or the queue is full. A csend with a legal target, an aligned
block that stands and a free entry completes: the entry is reserved with the block's 64 bytes, and the number of entries left
free lands in ca.l0. (R53, R55, R59, R154, R155) -/
def Obligations.ForkAndSend : Prop :=
  ∀ (tile : BitVec 8) (o : COp) (s : State) (b : Bundle),
    let v := ctlArg s tile o
    let n := v.toNat
    let link := natBit n 32
    let bad (c : Nat) : Out := .next (issuedBad s tile.toNat 0 b (trapAt c 0 v))
    let okJoin := natBits n 33 31 = 0 ∧ (link = false → natBits n 16 16 = 0)
    let okTile := link = false → natBits n 8 8 ∈ nodeTiles s tile.toNat
    let k := outstanding s tile.toNat + 1
    let room := creelCount (tileGet s tile.toNat) < 4160 ∧ k < 2 ^ 32
    (ReadyC (.fork tile o) tile o true s b →
      (okJoin → okTile → room → exec (.fork tile o) s = .next (slotDone (addFlight (setOutstanding
        (addAct s tile.toNat b.seq 0 (.fork (pcAdd b.pc o.target) link (n % 2 ^ 32) (carryNow s tile.toNat))) tile.toNat k)
          tile.toNat b.seq 0 2 [.reg 0x60 (rvOf (BitVec.ofNat 64 k))]) tile.toNat 0 b)) ∧
      (¬ okJoin → exec (.fork tile o) s = bad causeBadJoin) ∧
      (okJoin → ¬ okTile → exec (.fork tile o) s = bad causeIllegalTarget) ∧
      (okJoin → okTile → ¬ room → exec (.fork tile o) s = bad causeCreelFull)) ∧
    (ReadyC (.csend tile o) tile o true s b →
      let t := tileGet s tile.toNat
      let eng := natBits n 40 4
      let target := natBits n 32 8
      let off := natBits n 0 23
      let okTarget := natBits n 44 20 = 0 ∧ natBits n 23 9 = 0 ∧ eng < 10 ∧ target ∈ nodeTiles s tile.toNat
      (off % 64 ≠ 0 → exec (.csend tile o) s = bad causeAlignment) ∧
      (off % 64 = 0 → ¬ okTarget → exec (.csend tile o) s = bad causeIllegalTarget) ∧
      (off % 64 = 0 → okTarget → scratchSize t < off + 64 → exec (.csend tile o) s = bad causeScratchBound) ∧
      (off % 64 = 0 → okTarget → off + 64 ≤ scratchSize t →
        blockPending t tile.toNat b.seq off = true ∨ 16 ≤ (engGet (tileGet s target) eng).queue.length →
        exec (.csend tile o) s = .next s) ∧
      (off % 64 = 0 → okTarget → off + 64 ≤ scratchSize t → blockPending t tile.toNat b.seq off = false →
        (engGet (tileGet s target) eng).queue.length < 16 → poolReadTrap s tile.toNat off 64 = none →
        ∀ s1, checkOwn s tile.toNat b.seq off 64 false true = .ok s1 →
        ∃ u, exec (.csend tile o) s = .next u ∧
          ∃ q, (engGet (tileGet u target) eng).queue = (engGet (tileGet s target) eng).queue ++ [q] ∧
            q.ready = false ∧ q.cmd.src = .block ∧ q.cmd.block = (List.range 8).map (fun j => BitVec.ofNat 64 (poolNat t (off + 8 * j) 8)) ∧
            lastFlight u tile.toNat = some ⟨b.seq, 0, (coreGet s tile.toNat).ticks + 1,
              [.reg 0x60 (rvOf (BitVec.ofNat 64 (16 - ((engGet (tileGet s target) eng).queue.length + 1))))], none, false, false, false⟩))

/-- lease completes with its handle in ca.l0 and its predicate set to whether the lease was granted, two ticks later, and with
its decision kept for the commit; a leasew that must queue keeps the decision alone. unleash with a handle that names a held
record of the tile with its generation releases it at the commit; any other handle raises bad-handle. (R156, R157, R272, R274,
R275, R278) -/
def Obligations.LeaseOperations : Prop :=
  ∀ (tile : BitVec 8) (o : COp) (s : State) (b : Bundle),
    let t := leaseView s tile.toNat b.seq
    let d := leaseDecide s tile.toNat t (o.imm.getLsbD 4) (o.imm.toNat % 16) (o.imm.getLsbD 6)
    let s1 := d.evicted.foldl (fun u e => evict u tile.toNat e 0) s
    let pk := match o.cport with | .p n => if n = 0 then 0 else 64 + n.toNat | _ => 0
    let granted := decide (d.status ≤ 1 ∨ d.status = 3)
    let kept (wait : Bool) : State := addAct s1 tile.toNat b.seq 0
      (.lease (o.imm.getLsbD 4) (o.imm.toNat % 16) (o.imm.getLsbD 6) (o.imm.getLsbD 5) wait pk d.status d.eng)
    let given (u : State) : State := addFlight u tile.toNat b.seq 0 2
      (.reg 0x60 (rvOf (decHandle t d)) :: if pk = 0 then [] else [.reg pk (rvOf (flagWord granted))])
    let v := ctlArg s tile o
    let e := v.toNat % 16
    let held := e < 8 ∧ engState t e ∈ [2, 3, 4, 6] ∧ (engGet t e).gen = natBits v.toNat 16 32
    (ReadyC (.lease tile o) tile o false s b → exec (.lease tile o) s = .next (slotDone (given (kept false)) tile.toNat 0 b)) ∧
    (ReadyC (.leasew tile o) tile o false s b → exec (.leasew tile o) s =
      .next (slotDone (if d.status = 2 then kept true else given (kept true)) tile.toNat 0 b)) ∧
    (ReadyC (.unleash tile o) tile o true s b →
      (held → exec (.unleash tile o) s = .next (slotDone (addAct s tile.toNat b.seq 0 (.unleash e)) tile.toNat 0 b)) ∧
      (¬ held → exec (.unleash tile o) s = .next (issuedBad s tile.toNat 0 b (trapAt causeBadHandle 0 v))))

/-- slack stages the declared slack; a fence waits in its slot for older writes, older reads or both, and then completes;
vfence waits for the older vector operations; brk raises breakpoint with its code, but acts as nop once after a resume-over;
ovl begins the fill of a dictionary page that stands in no frame, and raises illegal-index past the dictionary; sleepk holds
dispatch for its interval, which doubles up to the ceiling, or for its source's ticks, or sets floor, ceiling and interval.
(R65, R111, R159, R160, R161, R162, R407) -/
def Obligations.FencesAndHolds : Prop :=
  ∀ (tile : BitVec 8) (o : COp) (s : State) (b : Bundle),
    let c := coreGet s tile.toNat
    let done (u : State) : Out := .next (slotDone u tile.toNat 0 b)
    let ord := memOrderOf (o.imm.extractLsb' 3 2)
    let set (k : Nat) (x : Word) (u : State) : State := stageNow u tile.toNat b.seq (.reg k (rvOf x))
    let back := (regRd c keyBack).v.toNat
    let page := if o.cport = .s 0 then o.imm.toNat else (ctlArg s tile o).toNat
    (ReadyC (.slack tile o) tile o false s b → exec (.slack tile o) s = done (set keySlack (o.imm.setWidth 64) s)) ∧
    (ReadyC (.fence tile o) tile o false s b →
      let open' := (ordRel ord = true → writesDone c b.seq = true) ∧ (ordAcq ord = true → readsDone c b.seq = true)
      (open' → exec (.fence tile o) s = done (addAct s tile.toNat b.seq 0 (.fence ord (scopeOfCode (o.imm.toNat % 8))))) ∧
      (¬ open' → exec (.fence tile o) s = .next s)) ∧
    (ReadyC (.vfence tile o) tile o false s b →
      exec (.vfence tile o) s = if vecDone c b.seq then done s else .next s) ∧
    (ReadyC (.brk tile o) tile o false s b →
      (c.skipBrk = false →
        exec (.brk tile o) s = .next (issuedBad s tile.toNat 0 b (trapAt causeBreakpoint (o.imm.setWidth 64) 0))) ∧
      (c.skipBrk = true → exec (.brk tile o) s = done (corePut s tile.toNat { c with skipBrk := false }))) ∧
    (ReadyC (.ovl tile o) tile o (decide (o.cport ≠ .s 0)) s b →
      (dictPages s tile.toNat ≤ page → exec (.ovl tile o) s =
        .next (issuedBad s tile.toNat 0 b (trapAt causeIllegalIndex (BitVec.ofNat 64 page) 0))) ∧
      (page < dictPages s tile.toNat → exec (.ovl tile o) s =
        done (if (frameOf s tile.toNat page).isSome then s else fillBegin s tile.toNat page))) ∧
    (ReadyC (.sleepk tile o) tile o false s b → exec (.sleepk tile o) s =
      done (holdFor (set keyBack (BitVec.ofNat 64 (min (2 * back) (regRd c keyCeil).v.toNat)) s) tile.toNat b back)) ∧
    (ReadyC (.sleepkSource tile o) tile o true s b →
      let w := ctlArg s tile o
      (1 ≤ w.toNat → w.toNat ≤ 65536 → exec (.sleepkSource tile o) s = done (holdFor s tile.toNat b w.toNat)) ∧
      (w.toNat = 0 ∨ 65536 < w.toNat → exec (.sleepkSource tile o) s =
        .next (issuedBad s tile.toNat 0 b (trapAt causeSleepkRange 0 w)))) ∧
    (ReadyC (.sleepkSet tile o) tile o false s b →
      let f := BitVec.ofNat 64 (2 ^ (o.imm.toNat % 32))
      let top := BitVec.ofNat 64 (2 ^ (o.imm.toNat / 32 % 32))
      exec (.sleepkSet tile o) s = done (holdFor (set keyBack f (set keyCeil top (set keyFloor f s))) tile.toNat b 0))

/-- psplit past depth 3 or into more parts than tiles, and pmerge at level 0, raise pack-depth; either raises pack-phase while
the tile's phase is incomplete, and waits in its slot while a tile of the pack has not reached the operation. The tile that
sees them all reach psplit with one value j, with fewer than 8,192 packs live, lays out the 2^j sub-packs, equal runs of the
pack's tiles in order, and tells every tile its own; that tile, and each tile that has been told, completes with its sub-
pack's ID in ca.l0 after two ticks and the split kept for the commit. With different values of j every tile of the pack raises
pack-mismatch, that tile now and each other one when it is told. pmerge completes alike, with the merge kept for the commit.
(R51, R158, R370, R373) -/
def Obligations.PackOperations : Prop :=
  ∀ (tile : BitVec 8) (o : COp) (s : State) (b : Bundle) (p : Pack),
    let t := tileGet s tile.toNat
    let j := o.imm.toNat % 16
    let fault (c : Nat) : Out := .next (issuedBad s tile.toNat 0 b (trapOf c))
    let told (f : Nat × Nat) : Bool := decide (f.1 = tile.toNat)
    let left (l : List (Nat × Nat)) : List (Nat × Nat) := l.filter fun f => decide (f.1 ≠ tile.toNat)
    let split (u : State) (id : Nat) : Out := .next (slotDone (addAct (addFlight u tile.toNat b.seq 0 2
      [.reg 0x60 (rvOf (BitVec.ofNat 64 id))]) tile.toNat b.seq 0 (.psplit j)) tile.toNat 0 b)
    let places : List (Nat × Nat) := (splitPacks s p j).flatMap fun q => q.tiles.map fun x => (x, q.id)
    let mismatch (l : List (Nat × Nat)) : Out := .next (slotDone (raiseAt (packPut s { p with arrived := left l })
      tile.toNat b.seq 0 (trapOf causePackMismatch)) tile.toNat 0 b)
    (ReadyC (.psplit tile o) tile o false s b →
      (3 ≤ t.packLevel ∨ t.packSize < 2 ^ j → exec (.psplit tile o) s = fault causePackDepth) ∧
      (t.packLevel < 3 → 2 ^ j ≤ t.packSize → packGet? s t.packId = some p → p.id = t.packId →
        (phaseDone t p = false → exec (.psplit tile o) s = fault causePackPhase) ∧
        (phaseDone t p = true → ∀ x, p.arrived.find? told = some x →
          (x.2 ≠ splitMark → exec (.psplit tile o) s = split s x.2) ∧
          (x.2 = splitMark → exec (.psplit tile o) s = mismatch p.arrived)) ∧
        (phaseDone t p = true → p.arrived.find? told = none →
          (collAll s 0x16 tile.toNat j p = none → exec (.psplit tile o) s = .next s) ∧
          (∀ js, collAll s 0x16 tile.toNat j p = some js →
            ((∃ i ∈ js, i ≠ j) → exec (.psplit tile o) s = mismatch (p.tiles.map fun x => (x, splitMark))) ∧
            ((∀ i ∈ js, i = j) → s.packs.length < 8192 → tile.toNat ∈ p.tiles → p.tiles.length % 2 ^ j = 0 →
              ∃ k < 2 ^ j, ∃ id ∈ freePacks s (2 ^ j), ∃ u,
                let size := p.tiles.length / 2 ^ j
                tile.toNat ∈ (p.tiles.drop (k * size)).take size ∧ (freePacks s (2 ^ j))[k]? = some id ∧
                exec (.psplit tile o) s = split u id ∧
                u = packPut ((splitPacks s p j).foldl packPut s) { p with arrived := places }))))) ∧
    (ReadyC (.pmerge tile o) tile o false s b →
      (t.packLevel = 0 → exec (.pmerge tile o) s = fault causePackDepth) ∧
      (0 < t.packLevel → packGet? s t.packId = some p →
        (phaseDone t p = false → exec (.pmerge tile o) s = fault causePackPhase) ∧
        (phaseDone t p = true → p.arrived.any told = true →
          exec (.pmerge tile o) s = .next (slotDone (addAct s tile.toNat b.seq 0 .pmerge) tile.toNat 0 b)) ∧
        (phaseDone t p = true → p.arrived.any told = false → collAll s 0x17 tile.toNat 0 p = none →
          exec (.pmerge tile o) s = .next s) ∧
        (phaseDone t p = true → p.arrived.any told = false → ∀ js, collAll s 0x17 tile.toNat 0 p = some js →
          exec (.pmerge tile o) s = .next (slotDone (addAct
            (packPut s { p with arrived := p.tiles.map fun x => (x, 0) }) tile.toNat b.seq 0 .pmerge) tile.toNat 0 b))))

/-- Every vector operation that is ready: with its guard true and room in the unit's queue of four, it enters the queue with
its opcode, its descriptors as they stand at issue and nothing run yet, and nothing else changes; with the queue full it stays
in its slot; a failed check raises its fault. Predicated off, it enters no unit, and its token lands five ticks after the
issue tick. (R105, R106, R144, R203, R204, R205, R208) -/
def Obligations.VectorIssue : Prop :=
  ∀ (tile : BitVec 8) (hi : Bool) (o : VOp) (s : State) (b : Bundle), ∀ r ∈ vectorRows,
    let i := r.1 tile hi o
    let c := coreGet s tile.toNat
    let plan := vecPlan s tile.toNat b (vSlot hi) r.2 o
    (ReadyV i tile hi o s b →
      (c.vec.length < 4 → ∀ v, plan = .ok v →
        exec i s = .next (slotDone (corePut s tile.toNat { c with vec := c.vec ++ [v] }) tile.toNat (vSlot hi) b) ∧
        v.seq = b.seq ∧ v.slot = vSlot hi ∧ v.opc = r.2 ∧ v.op = o ∧ v.vd = readRegion c o.vd.toNat ∧
        (o.qa = false → v.va = readRegion c o.va.toNat) ∧ (o.qb = false → v.vb = readRegion c o.vb.toNat) ∧
        v.n = (if (vecRow r.2).fromVa then v.va.count else v.vd.count) ∧ v.elem = 0 ∧ v.t0 = none ∧ v.w ≤ 256) ∧
      (c.vec.length < 4 → ∀ x, plan = .error x → exec i s = .next (issuedBad s tile.toNat (vSlot hi) b x)) ∧
      (4 ≤ c.vec.length → exec i s = .next s)) ∧
    (Ready i tile.toNat (vSlot hi) s b → guardTrue s tile.toNat o.guard = false →
      exec i s = .next (issued s tile.toNat (vSlot hi) b 6
        ((slotQ b.pushes (vSlot hi)).map fun q => .entry q.1 q.2 (rvOf (o.vd.setWidth 64)))))

/-- The unit starts the next operation of its queue in tick t0 with the operands that it reads once. The group that is due
reads its elements from the pool as it stands, and its effects land five ticks later: for integer formats every active element
of vadd, vsub, vmul, vfma, vmin, vmax, vabs and vneg gets the exact value, clamped or wrapped; vand, vor, vxor, vnot, vshl,
vshr, vsar and vcopy give their patterns (formats of one width, as R206 asks). The last group of an instruction with a scalar
result writes latch l2 of its slot, and the last group of one with qd pushes vd's token; a vkat whose fold differs from its
word raises silent-error. (R106, R203, R212, R213, R214, R217, R219, R225, R228) -/
def Obligations.VectorUnit : Prop :=
  ∀ (tile : BitVec 8) (s s1 : State) (v : VecOp), coreRuns s tile.toNat = true →
    let t := tileGet s tile.toNat
    (∀ r, vecToStart t.core = some v → vecOpen t { v with t0 := some t.core.ticks } = r →
      vecUses s tile.toNat v.seq r.2 = .ok s1 →
      exec (.vectorOperationStart tile) s = .next (corePut s1 tile.toNat (vecPut (coreGet s1 tile.toNat) r.1)) ∧
      r.1.t0 = some t.core.ticks) ∧
    let fold := BitVec.ofNat 64 ((vecAccOf t v).acc.headD 0)
    let differs := v.opc = 0x126 ∧ vecStop v = v.n ∧ fold ≠ v.sb.getD 0
    (vecDue t.core = some v → vecUses s tile.toNat v.seq (vecAccOf t v).uses = .ok s1 → differs → t.core.fault = none →
      ∃ u, exec (.vectorElementGroup tile) s = .next u ∧
        (coreGet u tile.toNat).fault = some (v.pc, v.slot, ⟨causeSilentError, fold, 0, v.sb.getD 0, BitVec.ofNat 64 v.n⟩)) ∧
    (vecDue t.core = some v → vecUses s tile.toNat v.seq (vecAccOf t v).uses = .ok s1 → ¬ differs →
      ∃ u f, exec (.vectorElementGroup tile) s = .next u ∧ lastFlight u tile.toNat = some f ∧
        f.seq = v.seq ∧ f.slot = v.slot ∧ f.land = (coreGet s1 tile.toNat).ticks + 5 ∧
        (∀ i, v.elem ≤ i → i < vecStop v → vecActive t v i = true →
          (∀ r ∈ vectorIntRows, v.opc = r.1 → fmtIsInt (fmtOf v.va.fmt) = true →
            elemWrite v.vd i (fitted (fmtOf v.vd.fmt) v.op.sat (r.2 (intOf (fmtOf v.va.fmt) (srcRead t v.va i))
              (intOf (fmtOf v.vb.fmt) (srcRead t v.vb i)) (intOf (fmtOf v.vd.fmt) (elemRead t v.vd i)))) ∈ f.effs) ∧
          (∀ r ∈ vectorBitRows, v.opc = r.1 → fmtBits (fmtOf v.vd.fmt) = fmtBits (fmtOf v.va.fmt) →
            elemWrite v.vd i (r.2 (fmtBits (fmtOf v.vd.fmt)) (srcRead t v.va i) (srcRead t v.vb i)) ∈ f.effs)) ∧
        (vecStop v = v.n → (vecRow v.opc).scalarRes = true → ∃ x, Eff.reg (latchKey v.slot 2) (rvOf x) ∈ f.effs) ∧
        (vecStop v = v.n → ∀ q, v.push = some q → Eff.entry q.1 q.2 (rvOf (v.op.vd.setWidth 64)) ∈ f.effs))

/-- Each of the five operations that is ready, with its guard true: its entry goes to the end of the buffer of the engine it
names, with the value read at issue, its immediate, and not yet committed; every other engine of the tile is unchanged. erd
lands the register as it stands in the issue tick, after two ticks. Predicated off, an operation enters no buffer and writes
nothing. (R74, R105, R109, R144, R172, R249) -/
def Obligations.EngineOperations : Prop :=
  ∀ (tile : BitVec 8) (o : EOp) (s : State) (b : Bundle),
    ∀ r ∈ [(Instr.ewr, true, EOpKind.ewr), (.etrig, false, .etrig), (.eabort, false, .eabort), (.ewaitq, false, .ewaitq),
      (.erd, false, .erd)],
    let i := r.1 tile o
    let n := tile.toNat
    let e := (engineNum o.engine).toNat
    (ReadyE i tile o r.2.1 s b → ∃ u, exec i s = .next u ∧
      (∃ y, (engGet (tileGet u n) e).buf = (engineAt s tile o).buf ++ [y] ∧ y.seq = b.seq ∧ y.kind = r.2.2 ∧
        y.shadow = o.shadow.toNat ∧ y.committed = false ∧ y.slack = slackFor (coreGet s n) b.seq ∧
        (r.2.2 = .ewr → y.x = engineArg s tile o true) ∧ (r.2.2 = .etrig → y.imm = o.imm.toNat)) ∧
      (∀ k, k ≠ e → engGet (tileGet u n) k = engGet (tileGet s n) k) ∧
      (∀ k, k ≠ n → tileGet u k = tileGet s k) ∧ u.mem = s.mem ∧ (coreGet u n).regs = (coreGet s n).regs ∧
      (coreGet u n).flights = (coreGet s n).flights ++ (if r.2.2 = .erd then
        [⟨b.seq, 5, (coreGet s n).ticks + 1, [.reg (portKey o.source) (rvOf (engRegRd (tileGet s n) e o.shadow.toNat))],
          none, false, false, false⟩] else [])) ∧
    (Ready i n 5 s b → guardTrue s n o.guard = false → exec i s = .next (slotDone s n 5 b))

/-- A committed entry at the head of the buffer of an engine that is leased and awake is accepted: ewr writes the shadow
register it names (EVREEL is register 50; the read-only fields of an array's WSEL, DPT and DSR stay 0); erd has no effect;
ewaitq is accepted only while the engine is idle but for it; etrig to an engine with room is taken as a command on the shadow
registers as they stand, and one that finds no room waits; eabort aborts. At an engine that is still powering up it waits, and
an etrig to a gated array starts its power-up. An entry for an engine that the tile does not hold is dropped, with
STATUS.cause not-leased unless it says evicted. (R6, R109, R249, R253, R279, R280, R297, R317) -/
def Obligations.EngineAcceptance : Prop :=
  ∀ (tile : BitVec 8) (eng : BitVec 4) (s : State) (y : EEntry), Accepts s tile.toNat eng.toNat y →
    let n := tile.toNat
    let e := eng.toNat
    let t := tileGet s n
    let g := engGet t e
    let out := exec (.elasticBufferAccept tile eng) s
    let popped := bufPop s n e
    let cmd : Cmd := ⟨.etrig, y.imm, [], g.regs, 0, y.ord, some (n, y.seq)⟩
    let kept (v : Word) : Word := if y.shadow = 5 then v &&& 0xFF#64 else if y.shadow = 23 then v &&& 0xFFFFFFFFFFFF#64
      else if y.shadow = 28 then v &&& 0xFFFFFFFFFFFFFF07#64 else v
    (engWakes t e = true → engHeld t e y.seq = true → out = .next s) ∧
    (engWakes t e = false → engHeld t e y.seq = true →
      (y.kind = .ewr → ∃ u, out = .next u ∧ (engGet (tileGet u n) e).buf = g.buf.tail ∧
        (y.shadow = 50 → (engGet (tileGet u n) e).evreel = y.x ∧ (engGet (tileGet u n) e).regs = g.regs) ∧
        (y.shadow ≠ 50 → (engGet (tileGet u n) e).evreel = g.evreel ∧ ∀ k, mapGet (engGet (tileGet u n) e).regs k (rvOf 0) =
          if k = y.shadow then (if e < 2 ∧ kept y.x.v ≠ y.x.v then rvOf (kept y.x.v) else y.x) else mapGet g.regs k (rvOf 0))) ∧
      (y.kind = .erd → out = .next popped) ∧
      (y.kind = .ewaitq → queuedCount g = 0 → g.runs = [] → out = .next popped) ∧
      (y.kind = .ewaitq → (0 < queuedCount g ∨ g.runs ≠ []) → out = .next s) ∧
      (y.kind = .eabort → out = .next (engAbort popped n e)) ∧
      (y.kind = .etrig → engState t e = 4 → e < 8 → out = .next (engWake s n e)) ∧
      (y.kind = .etrig → (engState t e ≠ 4 ∨ 8 ≤ e) → out = .next
        (if engRoom g e cmd && engSees s e cmd then engTake popped n e cmd y.vc y.seq else s))) ∧
    (engHeld t e y.seq = false → ∃ u, out = .next u ∧ (engGet (tileGet u n) e).buf = g.buf.tail ∧
      (engGet (tileGet u n) e).cause = if y.kind = .erd ∨ g.cause = 6 then g.cause else 3)

/-- A tile that wants a bundle reads the halfword at its pc: an index below the dictionary's size gives that entry of its page
and the next pc is one further, 0xFFFF gives the literal of the 24 halfwords that follow, any other halfword is illegal-index,
and a pc past the stream is fetch-bound. A halfword that the buffer lacks is waited for, and its line fills it, with the line
before it where the halfword at the pc stands there; a page that no frame holds is waited for and filled, and stays where no
other fill then takes a frame from 32. Dispatch puts a legal bundle at the end of the window with its pc and the next number;
a bundle with a decode fault is held with its cause instead. (R61, R62, R64, R67, R92, R93, R98) -/
def Obligations.FetchAndDispatch : Prop :=
  ∀ (tile : BitVec 8) (s : State),
    let n := tile.toNat
    let c := coreGet s n
    let len := hdrField s n 0x24
    let stop (u : State) (x : Nat) : Prop := (coreGet u n).decodeStop = some (c.pc, 0, trapAt x (BitVec.ofNat 64 c.pc) 0)
    (fetchOpen s n = true → ∃ u, exec (.indexFetch tile) s = .next u ∧ (coreGet u n).pc = c.pc ∧ (coreGet u n).regs = c.regs ∧
      u.mem = s.mem ∧
      (len ≤ c.pc → stop u causeFetchBound) ∧
      (c.pc < len → ∀ l, halfAt s n c.pc = .inr l → (coreGet u n).lineWait = some l) ∧
      (c.pc < len → ∀ i, halfAt s n c.pc = .inl i →
        (i < 0x8000 → hdrField s n 0x1C ≤ i → stop u causeIllegalIndex) ∧
        (0x8000 ≤ i → i ≠ 0xFFFF → stop u causeIllegalIndex) ∧
        (i < 0x8000 → i < hdrField s n 0x1C → ∀ f, frameOf s n (i / 256) = some f →
          (coreGet u n).cur = some (leNat ((f.bytes.drop (i % 256 * 48)).take 48), c.pc + 1)) ∧
        (i < 0x8000 → i < hdrField s n 0x1C → frameOf s n (i / 256) = none →
          (coreGet u n).pageWait = some (i / 256) ∧ i / 256 ∈ (coreGet u n).fill) ∧
        (i = 0xFFFF → len ≤ c.pc + 24 → stop u causeFetchBound) ∧
        (i = 0xFFFF → c.pc + 24 < len → ∀ bits, literalAt s n c.pc = .inl bits →
          (coreGet u n).cur = some (bits, c.pc + 25)))) ∧
    (∀ l s1 bs, pickTurn s (lineWaiters s) = some (n, l) →
      let l0 := if idxAddr s n c.pc / 64 + 1 = l then l - 1 else l
      codeRead s n 2 (l0 * 64) (64 * (l + 1 - l0)) = (s1, .ok (some bs)) →
      ∃ u, exec .fetchBufferFillComplete s = .next u ∧ (coreGet u n).lineWait = none ∧
        ∀ k, l0 ≤ k → k ≤ l → ∃ f, lineFind (coreGet u n) k = some f ∧ f.bytes = (bs.drop (64 * (k - l0))).take 64) ∧
    (∀ p s1 bs, pickTurn s (fillTiles s) = some (n, p) →
      codeRead s n 3 (imageBase s n + hdrField s n 0x18 + p * 12288) (48 * min 256 (hdrField s n 0x1C - 256 * p)) =
        (s1, .ok (some bs)) →
      ∃ u, exec .dictionaryFillComplete s = .next u ∧ (coreGet u n).pageWait ≠ some p ∧
        (coreGet u n).fill = (coreGet s1 n).fill.tail ∧
        ((coreGet s1 n).fill.tail = [] ∨ (coreGet s1 n).frames.length < 31 →
          ∃ f ∈ (coreGet u n).frames, f.page = p ∧ f.bytes = bs ∧ f.image = hdrField s1 n 0x06 ∧ f.gen = hdrField s1 n 0x10)) ∧
    (∀ bits next, coreRuns s n = true → dispatchOpen (tileGet s n) = true → c.cur = some (bits, next) →
      ∃ u, exec (.bundleDispatch tile) s = .next u ∧ (coreGet u n).regs = c.regs ∧ (coreGet u n).cur = none ∧
        (∀ mask x, bundleTrap c.pc next bits = some (mask, x) →
          (coreGet u n).decodeStop = some (c.pc, mask, x) ∧ (coreGet u n).window = c.window) ∧
        (bundleTrap c.pc next bits = none → ∃ b, (coreGet u n).window = c.window ++ [b] ∧ b.seq = c.nextSeq ∧ b.pc = c.pc ∧ b.next = next ∧
          (coreGet u n).nextSeq = c.nextSeq + 1 ∧
          b.words = ((List.range 6).filter fun k => natBit bits (372 + k)).map fun k => (k, bundleWord bits k)))

/-- An idle tile that picks up the newest ready entry of its creel, probes another tile, or is served by the die steward runs
the bobbin it gets (a spilled one is read from its record): its pc and its bobbin record, an empty pipeline, its carries in
s58 to s63, and every register that a pick-up does not keep reads zero. A failed probe counts, and the next goes to the next
tile. A spuriously woken waiter on a reel becomes ready at the head of the creel (where its freed entry is not offered to
another waiter of its tile), and a spurious wake of a phase waiter tests the phase again. A parked polling waiter whose reel
has reached its threshold becomes ready; one whose reel has not, or whose read bounces, waits on with the time of the test;
one whose read would fault is woken to find the fault itself (DESIGN CHOICE, log entry 68). (R54, R55, R56, R57, R58, R75,
R368) -/
def Obligations.BobbinsStart : Prop :=
  ∀ (tile : BitVec 8) (s : State) (e : CreelEntry) (t : Tile),
    let n := tile.toNat
    let runs (u : State) (bb : Bobbin) : Prop := (tileGet u n).running = some { bb with spilled := false } ∧
      (coreGet u n).pc = bb.pc ∧ (coreGet u n).window = [] ∧ (coreGet u n).log = [] ∧ (coreGet u n).loops = [] ∧
      (∀ i < 6, e.handle = none → mapGet (coreGet u n).regs (58 + i) (rvOf 0) = rvOf (bb.carry.getD i 0)) ∧
      (∀ k, (k < 58 ∨ 64 ≤ k) → keptAtPickup k = false → e.handle = none → mapGet (coreGet u n).regs k (rvOf 0) = rvOf 0)
    let ready (u : State) (i : Nat) : Prop := e.area = none → creelHard (tileGet s n).creel ≤ 64 → ∃ vc,
      (tileGet u n).creel = { e with wait := none, vc } :: dropAt (tileGet s n).creel i
    (pickOpen s n = true → ownerPick (tileGet s n) = some (e, t) → ∃ u, exec (.bobbinPickup tile) s = .next u ∧ runs u (entryBobbin s n e)) ∧
    (tileIdle s n = true → ∀ v, (stealOrder s n)[(tileGet s n).stealNext % (stealOrder s n).length]? = some v →
      (stealFrom s (tilePacks (tileGet s n)) v = some (e, t) → ∃ u, exec (.stealAttempt tile) s = .next u ∧ runs u (entryBobbin s v e)) ∧
      (stealFrom s (tilePacks (tileGet s n)) v = none → ∃ u, exec (.stealAttempt tile) s = .next u ∧
        (tileGet u n).stealFails = (tileGet s n).stealFails + 1 ∧ (tileGet u n).stealNext = (tileGet s n).stealNext + 1 ∧
        (tileGet u n).running = (tileGet s n).running ∧ u.mem = s.mem)) ∧
    (tileIdle s n = true → (tileGet s n).stewardAsked = true → ∀ v,
      (((List.range 7).map fun i => (dieOf n + 1 + i) % 8).filter fun d => !(dieGet s d).lost).findSome?
        (fun d => fullest s (tilePacks (tileGet s n)) ((nodeTiles s n).filter fun x => decide (dieOf x = d))) = some v →
      stealFrom s (tilePacks (tileGet s n)) v = some (e, t) → ∃ u, exec (.stewardSteal tile) s = .next u ∧ runs u (entryBobbin s v e)) ∧
    (∀ (idx : BitVec 12), (tileGet s n).creel[idx.toNat]? = some e →
      (∀ addr loc th sc listed since tested, e.wait = some (.reel addr loc th sc listed since tested) →
        (listed = true → ∀ x ∈ pollers s (reelLoc (locReelAt loc)), x.1 ≠ n) →
        ∃ u, exec (.spuriousWake tile idx) s = .next u ∧ ready u idx.toNat) ∧
      (e.wait = some .phase → exec (.spuriousWake tile idx) s = .next (wakePhase s n))) ∧
    (∀ i addr loc th sc listed since tested, pickTurn s (pollDue s) = some (n, i) → (tileGet s n).creel[i]? = some e →
      e.wait = some (.reel addr loc th sc listed since tested) →
      let waits (u : State) (l : Nat) : Prop := (tileGet u n).creel =
        (tileGet s n).creel.set i { e with wait := some (.reel addr l th sc listed since (timeOf s)) }
      ∃ u, exec .parkedPollTest s = .next u ∧
        (∀ r, parkedAt s n addr loc = .here r → th.toNat ≤ (reelVal s r).toNat → ready u i) ∧
        (∀ r, parkedAt s n addr loc = .here r → (reelVal s r).toNat < th.toNat → waits u (reelLoc r)) ∧
        (parkedAt s n addr loc = .bounced → waits u loc) ∧
        (parkedAt s n addr loc = .faulty → ready u i))

/-- A result that is due is no longer under way after the tick's landing, a register that it writes reads as its value
afterwards, whether its bundle has committed (then the committed register holds it) or not (then it is staged), and no other
register changes. A result with a later landing tick stays under way. (R102, R103, R105) -/
def Obligations.LandingIsVisible : Prop :=
  ∀ (tile : BitVec 8) (s : State), landOpen s tile.toNat = true →
    let n := tile.toNat
    let c := coreGet s n
    ∃ u, exec (.resultLanding tile) s = .next u ∧ (coreGet u n).stage = .landed ∧
      (∀ f ∈ c.flights, c.ticks < f.land → f ∈ (coreGet u n).flights) ∧
      (∀ f ∈ c.flights, f.req = none → f.slot < 6 → f.land ≤ c.ticks → f ∉ (coreGet u n).flights) ∧
      (∀ seq slot land k x, slot < 6 → land ≤ c.ticks → c.flights = [⟨seq, slot, land, [.reg k x], none, false, false, false⟩] →
        regRd (coreGet u n) k = x ∧
        (isCommitted c seq = true → mapGet (coreGet u n).regs k (rvOf 0) = x) ∧
        (isCommitted c seq = false → (coreGet u n).regs = c.regs ∧ (coreGet u n).log = c.log ++ [⟨seq, slot, .reg k x⟩]) ∧
        (∀ j, j ≠ k → regRd (coreGet u n) j = regRd c j) ∧ (tileGet u n).pool = (tileGet s n).pool ∧ u.mem = s.mem)

/-- The oldest bundle commits once all its slots have issued, nothing of it is at fault, and it waits for nothing: it leaves
the window, its staged results become committed, and every register reads as before. fork puts its bobbin at the head of the
creel, yield ends the run with an entry at the creel's tail that resumes at N, a reel wait that parks ends it with an entry
that resumes at N, trap raises software-trap with its code at the bundle's pc, parrive counts the tile's and the pack's phase,
and an ending bobbin leaves the core and lowers the outstanding count. (R102, R103, R151, R152, R153, R154, R158, R371) -/
def Obligations.CommitMakesArchitectural : Prop :=
  ∀ (tile : BitVec 8) (s : State) (b : Bundle),
    let n := tile.toNat
    let c := coreGet s n
    let t := tileGet s n
    headIssued s n = some b → commitsOpen s n = true → commitPlan s n false b = .go → commitHeld s n false b = false →
    ∃ u, exec (.bundleCommit tile) s = .next u ∧
      (bundleEnds b = false → ∀ k w, suspends s n false b = some (k, some w) →
        (tileGet u n).running = none ∧ ∃ e ∈ (tileGet u n).creel, e.bobbin.pc = b.next) ∧
      (ownReelEffs c b.seq = [] → bundleWaits c n b = [] →
        (b.fin = false → b.acts = [] → (coreGet u n).window = c.window.filter (fun x => decide (x.seq ≠ b.seq)) ∧
          (∀ x ∈ (coreGet u n).log, x.seq ≠ b.seq) ∧ (∀ k, regRd (coreGet u n) k = regRd c k) ∧ u.mem = s.mem) ∧
        (b.fin = false → ∀ pc link join carry, b.acts = [(0, .fork pc link join carry)] → creelHard t.creel < 64 → ∃ vc,
          (tileGet u n).creel = ⟨forkBobbin t pc link join carry, none, none, vc, none⟩ :: t.creel) ∧
        (b.fin = false → b.acts = [(0, .yield)] → creelHard t.creel < 64 → ∃ e, (tileGet u n).creel = t.creel ++ [e] ∧
          e.bobbin.pc = b.next ∧ e.wait = none ∧ (tileGet u n).running = none) ∧
        (b.fin = false → ∀ code, b.acts = [(0, .trapCode code)] →
          (coreGet u n).fault = some (b.pc, 0, trapAt causeSoftwareTrap (BitVec.ofNat 64 code) 0)) ∧
        (b.fin = false → ∀ rel p, b.acts = [(0, .parrive rel)] → packGet? s t.packId = some p → p.id = t.packId →
          (coreGet u n).phase = c.phase + 1 ∧ ∃ q, packGet? u t.packId = some q ∧ q.phase = p.phase + 1) ∧
        (b.fin = true → b.acts = [] → c.window = [b] → ∀ s2, joinAdd (commitEffects s n b []) n = .ok s2 →
          (∀ nd p, tileNode? s2 n = some nd → packGet? s2 nd.pack = some p → p.id = nd.pack) →
          (tileGet u n).running = none ∧ (coreGet u n).window = [] ∧ outstanding u n = outstanding s2 n - 1))

/-- A tile freezes at the address of the access that holds its tick, with the time; a late transition starts a replay of its
added tile cycles, is counted as a replay when it is the first of it, and is an alarm at the fourth flag of one replay; a
stretch takes the next package cycle. None of them changes a register, the window or memory. When the hold of dispatch of a
sleepk is over, dispatch goes on; when the back-off of a wait that polls in place has run out, its reels are looked up again
and its bundle's commit is tried again with them read anew, or the walk that a reel of it needs is asked for. (R116, R117,
R118, R119, R162, R366, R424) -/
def Obligations.PipelineEvents : Prop :=
  ∀ (tile : BitVec 8) (s : State),
    let n := tile.toNat
    let t := tileGet s n
    let flags := (match t.core.replay with | some r => r.flags | none => 0) + 1
    let same (u : State) : Prop := (coreGet u n).regs = t.core.regs ∧ (coreGet u n).window = t.core.window ∧
      (coreGet u n).ticks = t.core.ticks ∧ (tileGet u n).pool = t.pool ∧ u.mem = s.mem
    (∀ a, trapOpen s n = true → t.core.replay = none → freezeCause t.core = some a →
      ∃ u, exec (.freezeBegin tile) s = .next u ∧ (coreGet u n).frozen = some ⟨a, timeOf s, 0⟩ ∧ same u) ∧
    (flagOpen s n = true → ∃ u, exec (.lateTransitionFlag tile) s = .next u ∧ (coreGet u n).replay = some ⟨9, flags⟩ ∧
      (tileGet u n).gov.wReplays = (if flags = 1 then t.gov.wReplays + 1 else t.gov.wReplays) ∧
      (tileGet u n).gov.replays = (if flags = 1 then min (2 ^ 32 - 1) (t.gov.replays + 1) else t.gov.replays) ∧
      (tileGet u n).gov.alarms = (if flags = 4 then min 65535 (t.gov.alarms + 1) else t.gov.alarms) ∧ same u) ∧
    (t.core.frozen = none → s.clockStop = false → t.core.stretch = 0 →
      ∃ u, exec (.clockStretch tile) s = .next u ∧ (coreGet u n).stretch = 1 ∧ same u) ∧
    (pickTurn s (holdTiles s) = some n → ∃ u, exec .sleepkWaitEnd s = .next u ∧ (coreGet u n).hold = 0 ∧ same u) ∧
    (∀ b l, pickTurn s (pollTiles s) = some n → t.core.window = b :: l →
      let reels := t.core.reqs.filter fun r => decide (r.seq = b.seq) && decide (r.kind = .kwait)
      (∀ s1, pollLooks n s reels = .ok s1 → exec .pollBackoffExpiry s =
        .next (commitBundle true n (corePut s1 n (bundleMap (coreGet s1 n) b.seq fun x => { x with poll := none })))) ∧
      (∀ a, pollLooks n s reels = .wait a → exec .pollBackoffExpiry s = .next (engAsk s a)))

/-- Where a core meets the trap of its oldest bundle, a fault found after commit, a run fault of an engine or the end of a
freeze's watchdog, and the node is not one that restarts, every tile of the node stops and the node is stopped with a cause. A
tile that stops, with no command in its arrays, keeps its committed registers, has an empty window, and its pc is that of its
oldest bundle; other cores are as they were, and so is memory where no bundle has reserved a granule of it. (R121, R266, R397,
R398, R399) -/
def Obligations.TrapsStopTheNode : Prop :=
  ∀ (tile : BitVec 8) (s : State) (nid : Nat) (nd : Node),
    let n := tile.toNat
    let t := tileGet s n
    let stopped (u : State) : Prop := (∃ x, nodeGet? u nid = some x ∧ x.st = .stopped) ∧ ∀ k ∈ nd.tiles, (tileGet u k).halted = true
    (t.node = some nid → nodeGet? s nid = some nd → nd.restart = false →
      (trapOpen s n = true → (headTrap t.core).isSome = true →
        exec (.preciseTrap tile) s = .next (stopAt s n []) ∧ stopped (stopAt s n [])) ∧
      (t.halted = false → t.core.fault.isSome = true →
        exec (.inFlightFault tile) s = .next (stopAt s n []) ∧ stopped (stopAt s n [])) ∧
      (pickTurn s (runFaults s) = some n → exec .engineRunFault s = .next (stopAt s n []) ∧ stopped (stopAt s n [])) ∧
      (∀ f, pickTurn s (lateFreezes s) = some (n, f) → ∃ u, exec .freezeWatchdogExpiry s = .next u ∧ stopped u)) ∧
    (∀ cause mask, let u := stopTile cause mask s n
      (tileGet u n).halted = true ∧ (coreGet u n).stopCause = cause ∧
      ((engGet t 0).runs = [] → (engGet t 1).runs = [] → (coreGet u n).regs = t.core.regs ∧
        (∀ b l, t.core.window = b :: l → (∀ x ∈ l, b.seq ≤ x.seq) → (coreGet u n).window = [] ∧ (coreGet u n).pc = b.pc) ∧
        (∀ k, k ≠ n → (coreGet u k) = coreGet s k) ∧ ((∀ r ∈ s.records, r.pend = none) → u.mem = s.mem)))

/-- A command that R406 refuses leaves every node and tile and reports why. An accepted kill ends the node and frees its
tiles; a save marks it; a yield posts requests to its tiles; a resume lets every tile of a stopped node go on, and makes a
saved node a candidate. A command that has taken effect and can complete is no longer busy. A yield deadline that passes
begins the node's save, with a note when it is late, and a node with nothing left to do retires after its completion add, or
with a note when that fails. (R406, R407, R408, R409, R410, R420, R422) -/
def Obligations.NodeCommands : Prop :=
  ∀ (host : BitVec 1) (val : BitVec 64) (s : State) (nid : Nat) (nd : Node),
    let h := host.toNat
    let v (op : Nat) : Word := BitVec.ofNat 64 (val.toNat % 2 ^ 61 + op * 2 ^ 61)
    let now (u : State) (st : NodeState) : Prop := ∃ x, nodeGet? u nid = some x ∧ x.st = st
    (hostCan s h = true →
      (∀ r ∈ [(Instr.nodeResume, 1), (.nodeResumeOver, 2), (.nodeSave, 3), (.nodeKill, 4), (.nodeYield, 5)],
        ∀ w, cmdWhy s h (v r.2) = some w → ∃ u, exec (r.1 host val) s = .next u ∧ (hostGet u h).nodeErr = true ∧
          (hostGet u h).nodeWhy = w ∧ u.nodes = s.nodes ∧ u.tiles = s.tiles ∧ u.mem = s.mem) ∧
      (val.toNat % 2 ^ 12 = nid → nodeGet? s nid = some nd →
        (cmdWhy s h (v 4) = none → ∃ u, exec (.nodeKill host val) s = .next u ∧ now u .killed ∧
          ∀ k ∈ nd.tiles, (tileGet u k).node = none ∧ (tileGet u k).running = none) ∧
        (cmdWhy s h (v 3) = none → ∃ u x, exec (.nodeSave host val) s = .next u ∧ nodeGet? u nid = some x ∧
          x.saving = some .saved) ∧
        (cmdWhy s h (v 5) = none → ∃ u, exec (.nodeYield host val) s = .next u ∧ now u .yielding ∧
          ∀ k ∈ nd.tiles, (tileGet u k).yreqPosted = true) ∧
        (∀ r ∈ [(Instr.nodeResume, 1), (.nodeResumeOver, 2)], nd.st = .stopped → recHeld s nid = false → nd.conflictBy = none →
          cmdWhy s h (v r.2) = none → ∃ u, exec (r.1 host val) s = .next u ∧ (∀ k ∈ nd.tiles, (tileGet u k).halted = false) ∧
            (nd.restoring = true ∨ nd.requeue = true → now u .placed) ∧
            (nd.restoring = false → nd.requeue = false → now u .running ∨ now u .yielding ∨ now u .retiring)) ∧
        (nd.st = .saved → cmdWhy s h (v 1) = none →
          impossible s { nd with st := .preempted, since := timeOf s, order := s.nextOrder } = false →
          ∃ u, exec (.nodeResume host val) s = .next u ∧ now u .preempted))) ∧
    (∀ c, pickTurn s (cmdReady s) = some (h, c) → c.b = 1 → ∃ u, exec .nodeCommandComplete s = .next u ∧
      (hostGet u h).nodeCmd = none ∧ u.nodes = s.nodes) ∧
    (pickTurn s (deadlines s) = some (nid, nd) →
      let late := nd.tiles.foldl (fun m tile => max m (timeOf s - (tileGet s tile).yreqUntil)) 0
      exec .yieldDeadlineExpiry s = .next (if late = 0 then beginSave s nid 1 .preempted
        else nodeNote (beginSave s nid 1 .preempted) nid (trapAt causeYieldOverrun (BitVec.ofNat 64 late) 0))) ∧
    (pickTurn s (retirable s) = some (nid, nd) → nodeGet? s nid = some nd →
      (∀ s1, completionAdd s nid nd = .ok s1 → ∃ u, exec .retirementComplete s = .next u ∧ now u .done ∧
        ∀ k ∈ nd.tiles, (tileGet u k).node = none) ∧
      (∀ x, completionAdd s nid nd = .bad x → ∃ u, exec .retirementComplete s = .next u ∧ now u .done))

/-- A request for a tile's pool or reel, or an operation of a near-memory unit, is performed or returns its fault, after the
older stores of its bundle to the location; where its bundle would then meet another fault, it is not performed and that fault
is raised. An atomic on a word that an own atomic holds has its check and waits. A load reads the bytes at its location, a
store writes its bytes there and nowhere else, and an atomic writes what R185 gives. A frozen frame bounces an operation to
translation. A conflict check answers its request, and a reply makes its request done. (R119, R180, R182, R183, R185, R187,
R188, R189, R245, R390) -/
def Obligations.RequestsAreServed : Prop :=
  ∀ (s : State) (tile : BitVec 8) (r : Req),
    let n := tile.toNat
    let len := r.size * r.n
    let mine := (coreGet s n).reqs.filter fun x => storeWith x r
    let moves (i : Instr) (f : State → State) : Prop := ∀ s0, serveStores n s mine = .ok s0 →
      (∀ s1 v ok, serve s0 n r = .ok (s1, v, ok) →
        let s2 := reqServed (reqDemote s1 n r) n r v ok false
        let bad := if atReady r && !r.go then matesFaults s2 n r else []
        exec i s = .next (f (if bad.isEmpty then s2 else bad.foldl (fun u y => raiseAt u n r.seq y.1 y.2) s))) ∧
      (∀ x, serve s0 n r = .error x → exec i s = .next (f (reqFault s n r x)))
    (pickTurn s (remoteReqs s) = some (n, r) →
      ((∀ t off, fullPlace r.addr = .pool t off → r.kind = .atomic → wordHeld (tileGet s t) off r.size = false) →
        moves .remotePoolRequest id) ∧
      (∀ t off, fullPlace r.addr = .pool t off → r.kind = .atomic → wordHeld (tileGet s t) off r.size = true → r.go = false →
        (∀ s1, checkSync s n r (granPool t off) = .ok s1 → exec .remotePoolRequest s =
          .next (corePut s1 n (reqMap (coreGet s1 n) r.id fun y => { y with go := true }))) ∧
        (∀ x, checkSync s n r (granPool t off) = .error x → exec .remotePoolRequest s = .next (reqFault s n r x)))) ∧
    (pickTurn s (nearReqs s false) = some (n, r) → moves .nearMemoryAtomic owedRun) ∧
    (pickTurn s (nearReqs s true) = some (n, r) →
      (∀ e, xlate s n (tileAsid s n) r.addr.toNat = some e → exec .atomicBounce s =
        .next (corePut s n (reqMap (coreGet s n) r.id fun y => reqXlated y e))) ∧
      (xlate s n (tileAsid s n) r.addr.toNat = none → ∃ u, exec .atomicBounce s = .next u ∧ u.mem = s.mem ∧
        ∀ y ∈ (coreGet u n).reqs, y.id = r.id → y.st = .walk)) ∧
    (pickTurn s (checkReqs s) = some (n, r) →
      let me := { coreAgent s n with vc := r.vc }
      let pend := if isCommitted (coreGet s n) r.seq then none else some (n, r.seq)
      let wr := decide (r.kind = .store)
      let plain := decide (r.order = .rlx)
      let out := match fullPlace r.addr with
        | .pool t off => checkGran s (tileAgentId s n) me (granPool t off) wr plain pend
        | _ => checkMem s (tileAgentId s n) me r.leaf r.pa wr plain pend
      (∀ s1, out = .ok s1 → ∃ u, exec .conflictCheckAnswer s = .next u ∧
        ∀ y ∈ (coreGet u n).reqs, y.id = r.id → y.check = false) ∧
      (∀ x, out = .error x → exec .conflictCheckAnswer s = .next (reqFault s n r x))) ∧
    (∀ id : BitVec 16, ((coreGet s n).reqs.find? fun r => decide (r.id % 2 ^ 16 = id.toNat)) = some r → r.st = .sent →
      ∃ u, exec (.remoteReplyArrival tile id) s = .next u ∧ u.mem = s.mem ∧
        ∀ y ∈ (coreGet u n).reqs, y.id = r.id → y.st = .done) ∧
    (∀ t off, fullPlace r.addr = .pool t off →
      (r.kind = .load → poolReadTrap (touch s (tileAsid s n) (dieOf t)) t off len = none → ∃ s1,
        serve s n r = .ok (s1, leNat (poolBytes s t off len), true) ∧ s1.tiles = s.tiles ∧ s1.mem = s.mem) ∧
      (r.kind = .store → poolWriteTrap (touch s (tileAsid s n) (dieOf t)) t off len = none → ∃ s1, serve s n r = .ok (s1, 0, true) ∧
        (tileGet s1 t).pool = memPutList (tileGet s t).pool off r.bytes ∧ s1.mem = s.mem ∧
        ∀ k, k ≠ t → tileGet s1 k = tileGet s k)) ∧
    (∀ va st, fullPlace r.addr = .mem va → homeOf r.pa = .stack st →
      (r.kind = .load → memReadTrap (touchPa s (tileAsid s n) r.pa) r.pa len = none → ∃ s1,
        serve s n r = .ok (s1, devNat s r.pa len, true) ∧ s1.mem = s.mem ∧ s1.tiles = s.tiles) ∧
      (r.kind = .store → memWriteTrap (touchPa s (tileAsid s n) r.pa) r.pa len = none → ∃ s1, serve s n r = .ok (s1, 0, true) ∧
        s1.mem = memPutList s.mem r.pa r.bytes ∧ s1.tiles = s.tiles) ∧
      (r.kind = .atomic → memReadTrap (touchPa s (tileAsid s n) r.pa) r.pa len = none → leafChk r.leaf = false → ∃ s1,
        let x := atomicNew r.opc r.size (devNat s r.pa len) r.data.toNat r.data2.toNat
        serve s n r = .ok (s1, devNat s r.pa len, x.2) ∧ s1.tiles = s.tiles ∧
          s1.mem = match x.1 with | some y => memPutList s.mem r.pa (leBytes len y) | none => s.mem))

/-- A miss starts a walk, or joins the one of its page; a walk that ends gives its leaf to the die and to every tile that
waits for it, and one that met a migrating page repeats. A legal write of TLBI_CMD is taken and any other reports an error;
its completion leaves no entry that it names. A legal write of FRZ_CTL freezes or thaws a frame, and the recall's end leaves
no line of a frozen frame in a die's cache. (R238, R240, R241, R242, R243, R244, R245, R247) -/
def Obligations.TranslationEvents : Prop :=
  ∀ (s : State) (host : BitVec 1) (val : BitVec 64) (d : Nat) (w : Walk),
    let h := host.toNat
    let x := hostGet s h
    (∀ m, pickTurn s (missesReady s) = some (d, m) →
      let joined (y : Walk) : Bool := decide (y.asid = m.2.1) && decide (y.vpn = m.2.2)
      ∃ u, exec .translationWalk s = .next u ∧ m ∉ (dieGet u d).missQ ∧ u.mem = s.mem ∧ u.tiles = s.tiles ∧
        (((dieGet s d).walks.any joined) = false → ∃ y, (dieGet u d).walks = (dieGet s d).walks ++ [y] ∧ y.asid = m.2.1 ∧
          y.vpn = m.2.2 ∧ y.tiles = [m.1] ∧
          (∀ leaf bits, (walkTables s m.2.1 m.2.2).1 = .leaf leaf bits → y.out = some (leaf, bits)) ∧
          (∀ c, (walkTables s m.2.1 m.2.2).1 = .bad c → y.out = none ∧ y.bad = c)) ∧
        (((dieGet s d).walks.any joined) = true → ∀ y ∈ (dieGet s d).walks, joined y = true →
          { y with tiles := y.tiles ++ [m.1] } ∈ (dieGet u d).walks)) ∧
    (∀ leaf bits, pickTurn s (walksDone s) = some (d, w) → w.out = some (leaf, bits) →
      ∃ u, exec .walkComplete s = .next u ∧ u.mem = s.mem ∧ (∀ y ∈ (dieGet u d).walks, y.asid = w.asid → y.vpn ≠ w.vpn) ∧
        ⟨w.asid, w.vpn * 65536 / 2 ^ bits, bits, leaf⟩ ∈ (dieGet u d).tlb2 ∧
        ∀ k ∈ w.tiles, ⟨w.asid, w.vpn * 65536 / 2 ^ bits, bits, leaf⟩ ∈ (coreGet u k).tlb) ∧
    (pickTurn s (walksRetry s) = some (d, w) → ∃ u, exec .migrationWalkRetry s = .next u ∧ u.mem = s.mem ∧
      ∃ y ∈ (dieGet u d).walks, y.asid = w.asid ∧ y.vpn = w.vpn ∧ (y.retry = 0 ∨ y.retry = s.clock + 72000)) ∧
    (hostCan s h = true → ∀ r ∈ [(Instr.tlbiPage, 0), (.tlbiAsid, 1), (.tlbiHost, 2)],
      let v : Word := BitVec.ofNat 64 (val.toNat % 2 ^ 62 + r.2 * 2 ^ 62)
      let legal := x.tlbi = none ∧ natBits val.toNat 36 15 = 0 ∧ hostOwns s h (natBits val.toNat 51 11) = true
      (legal → exec (r.1 host val) s = .next (hostPut s h { x with tlbi := some v })) ∧
      (¬ legal → exec (r.1 host val) s = .next (noteBits (hostPut s h { x with tlbiErr := true }) (hostReg h 0x1018) 2))) ∧
    (∀ v, pickTurn s (tlbiAsked s) = some (h, v) → tlbiStores s h v = false → ∃ u, exec .tlbiComplete s = .next u ∧
      (hostGet u h).tlbi = none ∧ u.mem = s.mem ∧
      (∀ k, ∀ e ∈ (coreGet u k).tlb, tlbiHits s h v e.asid e.vpn e.bits = false) ∧
      (∀ k, ∀ e ∈ (dieGet u k).tlb2, tlbiHits s h v e.asid e.vpn e.bits = false)) ∧
    (hostCan s h = true → x.frzBusy = false →
      (val.getLsbD 1 = false → (frzFrame x).2 ≠ 3 → (frzFrame x).1 % [2 ^ 16, 2 ^ 21, 2 ^ 30].getD (frzFrame x).2 1 = 0 →
        inHbm (frzFrame x).1 ([2 ^ 16, 2 ^ 21, 2 ^ 30].getD (frzFrame x).2 1) = true →
        frzFrame x ∈ x.frozen ∨ x.frozen.length < 16 →
        ∃ u, exec (.frzFreeze host val) s = .next u ∧ frzFrame x ∈ (hostGet u h).frozen ∧ (hostGet u h).frzBusy = true) ∧
      (val.getLsbD 0 = false → (frzFrame x).2 ≠ 3 → (frzFrame x).1 % [2 ^ 16, 2 ^ 21, 2 ^ 30].getD (frzFrame x).2 1 = 0 →
        inHbm (frzFrame x).1 ([2 ^ 16, 2 ^ 21, 2 ^ 30].getD (frzFrame x).2 1) = true → frzFrame x ∈ x.frozen →
        ∃ u, exec (.frzThaw host val) s = .next u ∧ frzFrame x ∉ (hostGet u h).frozen ∧ (hostGet u h).frzBusy = false)) ∧
    (pickTurn s ((List.range 2).filter fun k => (hostGet s k).frzBusy) = some h → ∃ u, exec .freezeRecallComplete s = .next u ∧
      (hostGet u h).frzBusy = false ∧ u.mem = s.mem ∧
      ∀ k, ∀ g, (g ∈ (dieGet u k).cached ∨ g ∈ (dieGet u k).dirty) → frameFrozen s (g * 64) = false)

/-- An idle sequencer takes the next command of its queue from its FIRST burst. A command that waits on its binding or gate is
marked waiting, and goes on when the test is met; else, with no signal due, its next burst is performed and PROG.next rises by
one, or its fault stops the sequencer, or it waits for a walk. A signal that is due adds its addend to the reel and is
counted; an addend that no reel can hold is reel-overflow. A command that has done everything leaves, and PROG.seq rises.
(R254, R258, R259, R261, R262, R263, R264) -/
def Obligations.CopySequencer : Prop :=
  ∀ (tile : BitVec 8) (cq : BitVec 1) (s : State),
    let n := tile.toNat
    let e := 8 + cq.toNat
    let t := tileGet s n
    let g := engGet t e
    let after (u : State) : Engine := engGet (tileGet u n) e
    cpOpen s n e = true →
    (∀ q rest, g.runs = [] → cpNext g = some (q, rest) → ∃ u, exec (.copyBurst tile cq) s = .next u ∧ (after u).queue = rest ∧
      (after u).progNext = cpFirst q.cmd ∧ (after u).runs.map (fun x => (x.cmd, x.unit)) = [(q.cmd, cpFirst q.cmd)]) ∧
    (∀ r rs, g.runs = r :: rs →
      (r.unit < cpTotal r.cmd → forkReady s r.cmd.fork = true → cpSigDue t e r = false →
        (cpBindWait s n r = true ∨ cpGateWait r = true → ∃ u, exec (.copyBurst tile cq) s = .next u ∧ (after u).waiting = true ∧
          (after u).runs = g.runs ∧ u.mem = s.mem) ∧
        (cpBindWait s n r = false → cpGateWait r = false →
          (∀ s1, cpBurstRun s n e r.cmd r.unit = .ok (s1, none) → exec (.copyBurst tile cq) s = .next (engMap s1 n e fun x =>
            { runMap x (fun y => { y with unit := y.unit + 1 }) with progNext := r.unit + 1 })) ∧
          (∀ s1 x, cpBurstRun s n e r.cmd r.unit = .ok (s1, some x) → exec (.copyBurst tile cq) s = .next (engStopAt s1 n e (cpCode r.cmd) x)) ∧
          (∀ x, cpBurstRun s n e r.cmd r.unit = .bad x → exec (.copyBurst tile cq) s = .next (engStopAt s n e (cpCode r.cmd) x)) ∧
          (∀ a, cpBurstRun s n e r.cmd r.unit = .wait a → exec (.copyBurst tile cq) s = .next (engAsk s a)))) ∧
      (∀ b, cpBindWait s n r = true → cpBindMet s n r = true → cpBinding s n r.cmd = some b →
        ∃ u, exec (.copyBindingWaitEnd tile cq) s = .next u ∧ (after u).waiting = false ∧ u.mem = s.mem ∧
          (after u).runs.map (fun x => mapGet x.aux cpKeyBind 0) = ((cpNextGroup r).1 + 1) :: rs.map fun x => mapGet x.aux cpKeyBind 0) ∧
      (∀ p, cpBindWait s n r = false → cpGateWait r = true → engReel s n (BitVec.ofNat 64 (cmdReg r.cmd 26)) false = .ok p →
        (cpGateNeed r ≤ (reelVal s p).toNat → ∃ u, exec (.copyGateWaitEnd tile cq) s = .next u ∧ (after u).waiting = false ∧
          u.mem = s.mem ∧ ∃ y ys, (after u).runs = y :: ys ∧ mapGet y.aux cpKeyGate 0 = (cpNextGroup r).1 + 1) ∧
        ((reelVal s p).toNat < cpGateNeed r → exec (.copyGateWaitEnd tile cq) s = .next s)) ∧
      (∀ s1, cpSigDue t e r = true → cpRl r.cmd = false ∨ cpAddend r.cmd < 2 ^ 64 →
        (if cpRl r.cmd then engAdd s n r.cmd.agent (BitVec.ofNat 64 (cmdReg r.cmd 6))
          (BitVec.ofNat 64 (cpAddend r.cmd)) (scopeOfCode (cpScope r.cmd)) else .ok s) = .ok s1 →
        exec (.copySignal tile cq) s = .next (cpFollow (engMap s1 n e fun x => { runMap x (fun y =>
          { y with aux := mapPut y.aux cpKeySig (mapGet y.aux cpKeySig 0 + 1) }) with waiting := false }) n e r)) ∧
      (∀ p, cpSigDue t e r = true → cpRl r.cmd = true → 2 ^ 64 ≤ cpAddend r.cmd → engReel s n (BitVec.ofNat 64 (cmdReg r.cmd 6)) true = .ok p →
        exec (.copySignal tile cq) s = .next (engStopAt s n e (cpCode r.cmd) (engTrap causeReelOverflow (cmdReg r.cmd 6 % 2 ^ 64)))) ∧
      (cpDone t e r = true → ∃ u, exec (.engineCommandComplete tile (BitVec.ofNat 4 e)) s = .next u ∧ (after u).runs = rs ∧
        (after u).progSeq = g.progSeq + 1 ∧ (after u).progNext = r.unit ∧ (after u).waiting = false ∧ u.mem = s.mem))

/-- When a command's rings and its accumulator tile are free, its compute phase begins and the tile's watermarks restart (ws
for a multiply alone), while PROG.next reports the older command. azero clears four rows at a time; a multiply lands four rows
of a group it has read, or stops at a fault of its accumulator rows, or reads its next group. The end of the compute phase
releases ring A and then ring B. A drain reads a row and runs its program over it, or stops at its fault once the rows below
are stored; it waits for its ring, and stores the oldest row read. A command that has done its work, and whose known-answer
compare matches, adds to its DONE reel, and PROG.seq rises; a mismatch stops it. (R297, R302, R303, R306, R315, R327, R329,
R332) -/
def Obligations.MatrixArray : Prop :=
  ∀ (tile : BitVec 8) (mx : BitVec 1) (s : State) (r : Run),
    let n := tile.toNat
    let e := mx.toNat
    let t := tileGet s n
    let g := engGet t e
    let after (u : State) : Engine := engGet (tileGet u n) e
    (mxCanBegin s n e = some r → ∃ u, exec (.arrayRingWaitEnd tile mx) s = .next u ∧ u.mem = s.mem ∧
      (tileGet u n).pool = t.pool ∧ (after u).progNext = ((after u).runs.head?.map axUnit).getD g.progNext ∧
      (∀ y ∈ (after u).runs, y.cmd.agent = r.cmd.agent → y.phase = 1) ∧
      (mapGet (tileGet u n).wmarks (axAcc r.cmd) wmarkReset).wf = 0 ∧
      (mapGet (tileGet u n).wmarks (axAcc r.cmd) wmarkReset).ws =
        (if axMul r.cmd then 0 else (mapGet t.wmarks (axAcc r.cmd) wmarkReset).ws) ∧
      (mapGet (tileGet u n).wmarks (axAcc r.cmd) wmarkReset).wr = true) ∧
    (mxOpen s n e = true → g.runs.find? (mxLands g) = some r →
      (cmdCode r.cmd = 4 → memWf t.pool = true → ∃ u, exec (.arrayGroupLanding tile mx) s = .next u ∧ u.mem = s.mem ∧
        (∀ y ∈ (after u).runs, y.cmd.agent = r.cmd.agent → ∃ q ∈ g.runs, q.cmd.agent = r.cmd.agent ∧ y.cmd = q.cmd ∧ y.unit = r.unit + 4) ∧
        ∀ k < 1024, memGet (tileGet u n).pool (accOff t (axAcc r.cmd) r.unit + k) = 0) ∧
      (cmdCode r.cmd ≠ 4 → landBad s n r = none → exec (.arrayGroupLanding tile mx) s = .next (landStep s n e r)) ∧
      (cmdCode r.cmd ≠ 4 → ∀ x, landBad s n r = some x →
        exec (.arrayGroupLanding tile mx) s = .next (mxFault s n e r (engTrapOf x.2)))) ∧
    (mxOpen s n e = true → g.runs.find? (mxLands g) = none → g.runs.find? mxReads = some r →
      exec (.arrayGroupLanding tile mx) s = .next (mxRead s n e r)) ∧
    (∀ s1 s2, mxOpen s n e = true → mxEnds g = some r → (if ra r akRel = 0 then mxRelease s n r.cmd false else .ok s) = .ok s1 →
      mxRelease s1 n r.cmd true = .ok s2 → ∃ u, exec (.arrayComputeEnd tile mx) s = .next u ∧ u.mem = s2.mem ∧
        (∀ y ∈ (after u).runs, y.cmd.agent = r.cmd.agent → y.phase = 2)) ∧
    (mxOpen s n e = true → mxFinished g = some r →
      let x := if axKat r.cmd && decide (ra r akCmp = 0) then mxCompare s n e r else (s, none)
      (∀ y, x.2 = some y → exec (.arrayDoneAdd tile mx) s = .next (dnStop x.1 n e r 64 y)) ∧
      (∀ s2, x.2 = none → (if cmdReg r.cmd 3 = 0 then .ok x.1
          else engAdd x.1 n r.cmd.agent (BitVec.ofNat 64 (cmdReg r.cmd 3)) 1 (scopeOfCode (axScope r.cmd))) = .ok s2 →
        ∃ u, exec (.arrayDoneAdd tile mx) s = .next u ∧ (after u).runs = (engGet (tileGet s2 n) e).runs.drop 1 ∧
          (after u).progSeq = (engGet (tileGet s2 n) e).progSeq + 1)) ∧
    (dnCanRead s n e = some r →
      let s1 := if ra r akFirst = 0 then dnBegin s n e r else s
      let q := (runOfAgent s1 n e r.cmd.agent).getD r
      let prog := axProg (tileGet s1 n) q.cmd
      (∀ s2, dnChecks s1 n q prog (decide (ra q akBuf = 0)) = .ok s2 → ∃ u, exec (.drainRow tile mx) s = .next u ∧ u.mem = s2.mem ∧
        ∀ y ∈ (after u).runs, y.cmd.agent = r.cmd.agent → y.unit = q.unit + 1 ∧ y.rows.length = q.rows.length + 1) ∧
      (∀ b, dnChecks s1 n q prog (decide (ra q akBuf = 0)) = .error b → q.rows = [] →
        exec (.drainRow tile mx) s = .next (dnFault s1 n e q q.unit b))) ∧
    (∀ i, dqWaiting s n e = some (r, i) →
      (dqRoom t r.cmd = true → ∃ u, exec (.dstqWaitEnd tile mx) s = .next u ∧ u.mem = s.mem ∧
        ∀ y ∈ (after u).runs, y.cmd.agent = r.cmd.agent → mapGet y.aux akDqOk 0 = i + 1) ∧
      (dqRoom t r.cmd = false → exec (.dstqWaitEnd tile mx) s = .next s)) ∧
    (dnCanStore s n e = some r →
      (ra r akPdq = 0 → ra r akPdsig = 0 → ∀ y ys, r.rows = y :: ys →
        exec (.drainRowStore tile mx) s = .next (dnEndRow s n e r y)) ∧
      (ra r akPdq ≠ 0 ∨ ra r akPdsig ≠ 0 → exec (.drainRowStore tile mx) s = .next (dnAdds n e r.cmd.agent 20 s)))

/-- A special engine performs one unit of its command, or stops at its fault, or waits for a walk; a damaged register stops it
before its first unit; after its last unit its count stands in RES and PROG.seq has risen. fx0 takes the first flit of each
neighbour and aborts with cause 6 at a difference; a chunk-step ends with PROG.next one further; the receiver-side add
completes a command; a marker aborts with cause 4, and a timeout or a lost link with its own. A strand port comes up with its
peer, aligned within 50 ns, and goes down; an add that comes over it is performed or refused to its sender, and one to a
migrating page or a frozen frame is owed. (R172, R339, R341, R451, R452, R455, R456, R457, R458) -/
def Obligations.SpecialEngines : Prop :=
  ∀ (tile : BitVec 8) (eng : BitVec 4) (s : State) (r : Run),
    let n := tile.toNat
    let after (u : State) (e : Nat) : Engine := engGet (tileGet u n) e
    let damaged := ra r akBegun = 0 ∧ ∃ k < 11, resBad (mapGet r.cmd.regs k (rvOf 0)) = true
    (spNext s n eng.toNat = some r →
      (damaged → exec (.engineUnit tile eng) s = .next (engStopAt s n eng.toNat (cmdCode r.cmd) (trapOf causeResidue))) ∧
      (¬ damaged → ∀ x, spUnit s n eng.toNat r = .bad x →
        exec (.engineUnit tile eng) s = .next (engStopAt s n eng.toNat (cmdCode r.cmd) x)) ∧
      (¬ damaged → ∀ a, spUnit s n eng.toNat r = .wait a → exec (.engineUnit tile eng) s = .next (engAsk s a)) ∧
      (¬ damaged → ∀ y, spUnit s n eng.toNat r = .ok y → ∃ u, exec (.engineUnit tile eng) s = .next u ∧ u.mem = y.s.mem ∧
        (after u eng.toNat).progNext = y.r.unit ∧ (after u eng.toNat).runs.map (fun x => (x.cmd, x.unit)) = [(y.r.cmd, y.r.unit)])) ∧
    (∀ s1, 2 ≤ eng.toNat → eng.toNat ≤ 6 → spFinished s n eng.toNat = some r → (if cmdReg r.cmd 6 = 0 then .ok s
        else engAdd s n r.cmd.agent (BitVec.ofNat 64 (cmdReg r.cmd 6)) 1 (scopeOfCode (spScope r.cmd))) = .ok s1 →
      ∃ u, exec (.engineCommandComplete tile eng) s = .next u ∧ (after u eng.toNat).runs = [] ∧
        (after u eng.toNat).progSeq = (after s1 eng.toNat).progSeq + 1 ∧
        mapGet (after u eng.toNat).regs 11 (rvOf 0) = rvOf (BitVec.ofNat 64 (ra r akCount))) ∧
    (fxOpen s n = some r → ∀ next port ps, fxToCheck s r = some (next, port, some (.first ps)) →
      (ps ≠ fxExpected r.cmd → exec (.fxFirstFlitCheck tile) s = .next (fxAbort (strandTake s port) n 6 port)) ∧
      (ps = fxExpected r.cmd → ∃ u, exec (.fxFirstFlitCheck tile) s = .next u ∧ u.mem = s.mem ∧
        (strandGet u port).rx = (strandGet s port).rx.drop 1 ∧
        ∀ y ys, (after s 7).runs = y :: ys → ∃ z, (after u 7).runs = z :: ys ∧ z.cmd = y.cmd ∧ ra z (if next then akNext else akPrev) = 1)) ∧
    (fxNextStep s n = some r →
      (r.phase = 1 → exec (.fxChunkStep tile) s = .next (fxChunkIn s n r)) ∧
      (r.phase ≠ 1 → ∀ s1, fxSendHalf s n r.cmd (fxPlan r.cmd r.unit) = .ok s1 →
        ((fxPlan r.cmd r.unit).send.isSome && fxReceives (fxPlan r.cmd r.unit) && (strandGet s1 (fxPrev r.cmd)).rx.isEmpty) = false →
        exec (.fxChunkStep tile) s = .next (fxChunkIn s1 n r)) ∧
      (∀ s1 s2 fl bs, (fxPlan r.cmd r.unit).recv.isSome = true → fxReceives (fxPlan r.cmd r.unit) = true →
        fxArrived s r.cmd (((fxPlan r.cmd r.unit).recv.map (·.2)).getD 0) = some (s1, bs) →
        fxRecvHalf s1 n r.cmd (fxPlan r.cmd r.unit) bs = .ok (s2, fl) → ∃ u, fxChunkIn s n r = u ∧
          u.mem = s2.mem ∧ (after u 7).progNext = r.unit + 1)) ∧
    (∀ s1, fxFinished s n false = some r → fxAdd s n r .fab = .ok s1 → ∃ u, exec (.fxReceiveAdd tile) s = .next u ∧
      (after u 7).runs = [] ∧ (after u 7).progSeq = (after s1 7).progSeq + 1) ∧
    (∀ p, fxOpen s n = some r → fxHasMarker s r.cmd = some p →
      (∀ c l, (strandGet s (fxNext r.cmd)).rx ≠ .refused c :: l) →
      exec (.fxAbortMarkerArrival tile) s = .next (fxAbort (strandTake s p) n 4 p)) ∧
    (∀ cause port, pickTurn s (fxDelays s) = some (n, cause, port) → exec .fxTimeout s = .next (fxAbort s n cause port)) ∧
    (∀ cause port y ys, (after s 7).runs = y :: ys → (after (fxAbort s n cause port) 7).runs = [] ∧
      (after (fxAbort s n cause port) 7).cause = 4) ∧
    (∀ (port : BitVec 4) (peer : BitVec 12) (pport : BitVec 4) (peerTime : BitVec 64),
      (port.toNat < 12 → port.toNat / 3 ∉ s.portsLost → ∃ u, exec (.strandLinkUp port peer pport peerTime) s = .next u ∧
        (strandGet u port.toNat).up = true ∧ (strandGet u port.toNat).peer = peer.toNat ∧ (strandGet u port.toNat).pport = pport.toNat ∧
        ((strandGet u port.toNat).align = true ↔ ((peerTime.toNat : Int) - timeOf s).natAbs ≤ 50)) ∧
      (fxOver s port.toNat = [] → ∃ u, exec (.strandLinkDown port) s = .next u ∧ (strandGet u port.toNat).up = false ∧
        (strandGet u port.toNat).align = false ∧ u.tiles = s.tiles) ∧
      ((strandGet s port.toNat).up = true → ∃ u, exec (.timeAlignExchange port peerTime) s = .next u ∧ u.tiles = s.tiles ∧
        ((strandGet s port.toNat).peer < s.mgmt.fabId.toNat % 4096 →
          u.slew = if ((peerTime.toNat : Int) - timeOf s).natAbs ≤ 50 then 0 else ((peerTime.toNat : Int) - timeOf s) * 360000) ∧
        (((peerTime.toNat : Int) - timeOf s).natAbs ≤ 50 → (strandGet u port.toNat).align = true)) ∧
      (∀ (asid : BitVec 11) (addr v : BitVec 64), (strandGet s port.toNat).up = true →
        addWaits s asid.toNat addr = false → (∀ o ∈ s.owed, o.agent ≠ remoteAgentId port.toNat) →
        (∀ s1, extAdd s asid.toNat (remoteAgentId port.toNat) (remoteAgent s port.toNat) addr v .fab = .ok s1 →
          exec (.strandReelAdd port asid addr v) s = .next s1) ∧
        (∀ c, extAdd s asid.toNat (remoteAgentId port.toNat) (remoteAgent s port.toNat) addr v .fab = .error c →
          exec (.strandReelAdd port asid addr v) s = .next (strandSend s port.toNat (.refused c)))) ∧
      (∀ (asid : BitVec 11) (addr v : BitVec 64), (strandGet s port.toNat).up = true → addWaits s asid.toNat addr = true →
        ∃ u, exec (.strandReelAdd port asid addr v) s = .next u ∧ u.mem = s.mem ∧ u.tiles = s.tiles ∧
          ∃ o, u.owed = s.owed ++ [o] ∧ o.addr = addr ∧ o.v = v ∧ o.asid = asid.toNat ∧ o.port = port.toNat))

/-- A power-up that is complete makes a powering engine leased and awake. The head of a tile's lease queue is granted, with
the next generation. An idle array is gated, a woken engine that nothing claims and a releasing engine that is idle go back to
the kennel (the latter passes to a queue head that it covers), and standby leases that block a queue beyond the grace are
released until its head is granted. A host's write evicts the engines that it names, and a host without the right to is
recorded. (R273, R275, R278, R279, R282, R283, R285, R288, R290) -/
def Obligations.LeaseEvents : Prop :=
  ∀ (tile : BitVec 8) (eng : BitVec 4) (s : State) (k : Nat),
    let n := tile.toNat
    let e := eng.toNat
    let t := tileGet s n
    let after (u : State) (j : Nat) : Engine := engGet (tileGet u n) j
    (leaseRuns s n = true → e < 8 → (after s e).pwDone = false →
      ((after s e).st = 2 → ∃ u, exec (.enginePowerUpComplete tile eng) s = .next u ∧ (after u e).pwDone = true ∧ (after u e).st = 3) ∧
      ((after s e).st = 1 ∨ (after s e).st = 7 → ∃ u, exec (.enginePowerUpComplete tile eng) s = .next u ∧
        (after u e).pwDone = true ∧ (after u e).st = (after s e).st)) ∧
    (∀ q l, pickTurn s (grantable s) = some n → t.leaseQ = q :: l → leasePick t q.dis (leaseInsts q.inst q.k) = some k →
      leaseFits t k = true → ∃ u, exec .leaseQueueGrant s = .next u ∧ (tileGet u n).leaseQ.map (·.inst) = l.map (·.inst) ∧
        (after u k).gen = (t.leaseGen + 1) % 2 ^ 32 ∧ (after u k).noevict = q.noevict ∧
        ((after u k).st = 2 ∨ (after u k).st = 3) ∧ (tileGet u n).leaseGen = (t.leaseGen + 1) % 2 ^ 32) ∧
    (pickTurn s (gateable s) = some (n, k) → ∃ u, exec .idleGating s = .next u ∧ (after u k).st = 4 ∧ (after u k).idle = 0 ∧
      (after u k).regs = (after s k).regs) ∧
    (pickTurn s (returnable s) = some (n, k) → ∃ u, exec .wokenIdleReturn s = .next u ∧ (after u k).st = 0 ∧ (after u k).runs = []) ∧
    (pickTurn s (released s) = some (n, k) → let s1 := engMap s n k (engKennel k)
      (leasePass s1 n k = false → ∃ u, exec .releaseComplete s = .next u ∧ (after u k).st = 0 ∧ (after u k).runs = [] ∧
        (after u k).buf = []) ∧
      (leasePass s1 n k = true → exec .releaseComplete s = .next (leaseHeadGrant s1 n true))) ∧
    (pickTurn s (graceOver s) = some n → ∃ u, exec .standbyGraceExpiry s = .next u ∧
      (tileGet u n).leaseQ.length + 1 = t.leaseQ.length ∧ ∀ x ∈ (tileGet u n).standby, x ∈ t.standby) ∧
    (∀ (host : BitVec 1) (val : BitVec 64), hostCan s host.toNat = true →
      (host.toNat = s.mgmt.mgmtHost ∨ (tileNode? s n).map (·.host) = some host.toNat → exec (.leaseCmdEvict host tile val) s =
        .next (((List.range 8).filter fun j => val.getLsbD j).foldl (fun x j => evict x n j 2) s)) ∧
      (host.toNat ≠ s.mgmt.mgmtHost → (tileNode? s n).map (·.host) ≠ some host.toNat → exec (.leaseCmdEvict host tile val) s =
        .next (hostNote s host.toNat (trapOf causeManagementAccess)))) ∧
    (t.standby = [] → (after s k).st = 1 → ∀ trigger, (after (evict s n k trigger) k).st = 0 ∧ (after (evict s n k trigger) k).runs = [])

/-- Queue registers take what a host writes, or set ctlerr or overflow. The check of a head record makes a node that waits or
is ready, rejects it with a fault record, or disables a queue that cannot be read. A node whose dependences are met is
eligible; aging lifts a head by one level. At the highest level that has a candidate the held head goes first, then the pre-
empted node, then deficit round-robin; a candidate with tiles and slots is placed on them. Loading makes the node run, with
its root bobbin ready on every tile. (R26, R32, R34, R36, R37, R38, R39, R40, R42, R48, R53, R60) -/
def Obligations.LaunchLifecycle : Prop :=
  ∀ (s : State) (host : BitVec 1) (lv : BitVec 5) (val : BitVec 64) (n : Nat),
    let h := host.toNat
    let l := lv.toNat
    let q := lqGet s h l
    let size := natBits val.toNat 0 5
    (hostCan s h = true → l < 24 →
      (∃ u, exec (.lqTailWrite host lv val) s = .next u ∧ (lqGet u h l).tail = val.toNat % 2 ^ 32 ∧ (lqGet u h l).head = q.head ∧
        ((val.toNat % 2 ^ 32 + 2 ^ 32 - q.head) % 2 ^ 32 ≤ lqSize q → (lqGet u h l).ctl = q.ctl ∧ (lqGet u h l).overflow = q.overflow) ∧
        (lqSize q < (val.toNat % 2 ^ 32 + 2 ^ 32 - q.head) % 2 ^ 32 →
          (lqGet u h l).ctl.getLsbD 8 = false ∧ (lqGet u h l).overflow = true)) ∧
      (let bad := size < 4 ∨ 16 < size ∨ natBits val.toNat 32 2 = 3 ∨ (natBit val.toNat 9 = true ∧ natBits val.toNat 16 16 = 0) ∨
          (q.ctl.getLsbD 8 = true ∧ q.head ≠ q.tail ∧ size ≠ natBits q.ctl.toNat 0 5)
       (bad → ∃ u, exec (.lqCtlWrite host lv val) s = .next u ∧ (lqGet u h l).ctlerr = true ∧ (lqGet u h l).ctl = q.ctl) ∧
       (¬ bad → ∃ u, exec (.lqCtlWrite host lv val) s = .next u ∧ (lqGet u h l).ctl = val &&& 0x3FFFF031F#64)) ∧
      (let w := val &&& 0xFFFFFFFFFFFFFF01#64
       let busy := q.ctl.getLsbD 8 = true ∧ q.head ≠ q.tail
       (busy ∧ w ≠ q.base → ∃ u, exec (.lqBaseWrite host lv val) s = .next u ∧ (lqGet u h l).ctlerr = true ∧
         (lqGet u h l).base = q.base) ∧
       (¬ (busy ∧ w ≠ q.base) → ∃ u, exec (.lqBaseWrite host lv val) s = .next u ∧ (lqGet u h l).base = w))) ∧
    (∀ h l, pickTurn s (checkable s) = some (h, l, n) →
      let q := lqGet s h l
      let pa := lqAddr h q
      let w := recWords (devBytes s pa 256)
      let nd := { recNode h l (q.base.toNat / 256 * 256 + q.head % lqSize q * 256) q.head w with order := s.nextOrder }
      (partReads s pa 256 = false → ∃ u, exec .launchRecordCheck s = .next u ∧ (lqGet u h l).fetch = true ∧
        (lqGet u h l).ctl.getLsbD 8 = false ∧ (lqGet u h l).head = q.head ∧ u.nodes = s.nodes) ∧
      (partReads s pa 256 = true → ∀ nd', recCheck s nd w = .ok nd' → ∃ u y, exec .launchRecordCheck s = .next u ∧
        nodeGet? u n = some y ∧ (y.st = .queued ∨ y.st = .blocked) ∧ y.hdr = nd'.hdr ∧ y.ctl = nd'.ctl ∧
        (y.st = .queued ↔ nd'.deps.all (fun d => (depMet s (nodeAsid nd') d).isSome) = true) ∧
        (lqGet u h l).headNode = some n ∧ (lqGet u h l).head = q.head ∧ u.recQ = s.recQ) ∧
      (partReads s pa 256 = true → ∀ x, recCheck s nd w = .bad x → ∃ u y r, exec .launchRecordCheck s = .next u ∧
        nodeGet? u n = some y ∧ y.st = .rejected ∧ u.recQ = s.recQ ++ [r] ∧ r.node = n ∧ r.host = h ∧ (lqGet u h l).head = q.head) ∧
      (partReads s pa 256 = true → ∀ a, recCheck s nd w = .wait a → exec .launchRecordCheck s = .next s)) ∧
    (∀ l nd, pickTurn s (depReady s) = some (n, l) → nodeGet? s n = some nd → ∃ u, exec .dependenceMet s = .next u ∧
      nodeGet? u n = some { nd with st := .eligible, since := timeOf s, acq := l.flatMap fun r => mapGet s.releases (reelLoc r) [] } ∧
      ∀ m, m ≠ n → nodeGet? u m = nodeGet? s m) ∧
    (∀ nd, pickTurn s (liftable s) = some n → nodeGet? s n = some nd → ∃ u, exec .agingLift s = .next u ∧
      nodeGet? u n = some { nd with lift := nd.lift + 1 } ∧ ∀ m, m ≠ n → nodeGet? u m = nodeGet? s m) ∧
    (s.mgmt.halted = true → exec .placementDecision s = .next s) ∧
    (∀ level nd tiles slots, s.mgmt.halted = false → level < 24 → (∀ k, level < k → k < 24 → LevelIdle s k) →
      (∀ s1, Serves s level s1 n nd → nodeTilesFor s1 nd = some tiles → nodeSlotsFor s1 nd = some slots →
        nd.st = .preempted ∨ nd.restart = false ∨ (∀ a, restartOk s1 nd ≠ .wait a) → ∃ u y, exec .placementDecision s = .next u ∧ nodeGet? u n = some y ∧
          y.st = .placed ∧ y.tiles = tiles ∧ y.slots = slots ∧ y.restoring = nd.restoring ∧
          ∀ t ∈ tiles, (tileGet u t).node = some n) ∧
      (∀ s1, Serves s level s1 n nd → nodeTilesFor s1 nd = some tiles → nodeSlotsFor s1 nd = none → nd.st = .eligible →
        ∃ u y, exec .placementDecision s = .next u ∧ nodeGet? u n = some y ∧ y.st = .held)) ∧
    (∀ nd, pickTurn s (loadable s) = some n → nodeGet? s n = some nd → nd.diesLost = false → nd.tiles.Nodup →
      ∃ u, exec .launchLoadComplete s = .next u ∧ (nodeGet? u n).map (·.st) = some .running ∧
        ∀ r (hr : r < nd.tiles.length), let t := tileGet u nd.tiles[r]
          t.creel = [⟨rootBobbin nd, none, none, [], none⟩] ∧ t.running = none ∧ t.packRank = r ∧ t.packSize = nd.tiles.length ∧
          t.packId = nd.pack ∧ t.packLevel = 0 ∧ t.engines = [] ∧ t.halted = false ∧
          t.partAcc = natBits (mapGet nd.hdr 0x08 0) 4 4 ∧ t.partQueue = natBits (mapGet nd.hdr 0x08 0) 0 4)

/-- When a node's tiles have stopped to be saved, its tiles are freed, and the node enters its state; the pool of a tile that
waits for no reel, and on whose registers nothing waits, stands in its slot. A restored node runs again, with the pool that
its slot holds; a slot that cannot be restored stops the node. (R407, R409, R411, R413, R414, R415, R416) -/
def Obligations.ContextEvents : Prop :=
  ∀ (s : State) (n : Nat) (nd : Node),
    nodeGet? s n = some nd →
    (∀ target, pickTurn s (saveReady s) = some n → nd.saving = some target →
      (∃ u, exec .contextSaveComplete s = .next u ∧ (∀ t ∈ nd.tiles, (tileGet u t).node = none ∧ (tileGet u t).creel = [] ∧
        (tileGet u t).running = none ∧ (tileGet u t).engines = []) ∧
        (target ≠ .preempted → ∃ y, nodeGet? u n = some y ∧ y.st = target ∧ y.tiles = [] ∧ y.saving = none ∧ y.restoring = true ∧
          y.slots = nd.slots)) ∧
      (∀ tile slot, nd.restoring = false → nd.tiles = [tile] → nd.slots[rank0 (tileGet s tile)]? = some slot →
        (∀ w ∈ s.waits, w.tile ≠ tile ∧ (w.loc < 2 ^ 61 + tile * 256 ∨ 2 ^ 61 + tile * 256 + 256 ≤ w.loc)) →
        ∃ u, exec .contextSaveComplete s = .next u ∧
          ∀ off < 0x600000, memGet u.mem (csaSlot s slot + off) = memGet (tileGet s tile).pool off)) ∧
    (pickTurn s (saveReady s) = some n → nd.saving = none →
      exec .contextSaveComplete s = .next (saveNode (beginSave s n 0 .preempted) n)) ∧
    (pickTurn s (restoring s) = some n →
      (∀ bad, bad = ((nd.tiles.zip nd.slots).filterMap fun x => (slotBad s nd x.2).map fun y =>
          (⟨x.1, identOf 0 0 x.1, 0, ((mapGet? s.saved x.2).map (·.core.pc)).getD 0, marginDetail s x.1 y⟩ : Due)) → bad ≠ [] →
        exec .contextRestore s = .next (stopNode s n bad)) ∧
      (∀ tile slot x, nd.tiles = [tile] → nd.slots = [slot] → mapGet? s.saved slot = some x → slotBad s nd slot = none →
        nd.diesLost = false → x.engines = [] → x.core.reqs = [] → x.creel = [] →
        ∃ u, exec .contextRestore s = .next u ∧ (nodeGet? u n).map (·.st) = some .running ∧
          (∀ off < 0x600000, memGet (tileGet u tile).pool off = memGet s.mem (csaSlot s slot + off)) ∧
          ((tileGet u tile).running = if x.running then some (coreBobbin s (csaSlot s slot)) else none) ∧
          (tileGet u tile).reels = slotReels s (csaSlot s slot) ∧ (coreGet u tile).regs = slotRegs s (csaSlot s slot) ∧
          (coreGet u tile).loops = slotLoops s (csaSlot s slot) ∧ (tileGet u tile).halted = false))

/-- A fault record that can be written, and that a host takes where it goes to one, stands in its ring's slot, with the ring's
tail one further; a failed write disables the ring; a dropped notice is counted. A host's writes of FR_CTL, FR_BASE and
FR_HEAD take effect or set ctlerr; one of FR_STAT clears the bits that it writes with 1 but those that hardware has set in
this cycle, and ipend is set again, with a message, while records wait. A reel add by HKADD starts, or is refused with its
cause, and is performed as a release at .sys. SUM_CMD and ATT_CMD start their commands or set their error bits, and the
records are written when they complete. (R361, R403, R404, R405, R449, R465, R468) -/
def Obligations.HostCommands : Prop :=
  ∀ (s : State) (host : BitVec 1) (ring : BitVec 4) (val : BitVec 64),
    let h := host.toNat
    let n := ring.toNat
    let x := ringGet (hostGet s h) n
    let hb (u : State) : HostBlk := hostGet u h
    let rg (u : State) : FaultRing := ringGet (hostGet u h) n
    (∀ r m rest, pickTurn s (recReady s s.recQ [] []) = some (r, .write m, rest) →
      let y := ringGet (hostGet s r.host) m
      let pa := ringSlot r.host y
      let words := (List.range 16).map fun i => (r.words.getD i 0).toNat + if i = 1 then y.tail * 2 ^ 32 else 0
      (partWrites s pa 128 = true → hostRefuses s pa = false → MemInv s → ∃ u, exec .faultRecordWrite s = .next u ∧ u.recQ = rest ∧
        devBytes u pa 128 = words.flatMap (leBytes 8) ∧ (ringGet (hostGet u r.host) m).tail = (y.tail + 1) % 2 ^ 32) ∧
      ((partWrites s pa 128 = false ∨ hostRefuses s pa = true) → ∃ u, exec .faultRecordWrite s = .next u ∧ (ringGet (hostGet u r.host) m).failed = true ∧
        (ringGet (hostGet u r.host) m).wrerr = true ∧ (ringGet (hostGet u r.host) m).ctl.getLsbD 8 = false ∧
        (r.cls ≠ 1 → u.recQ = s.recQ) ∧ (r.cls = 1 → u.recQ = rest))) ∧
    (∀ r m rest, pickTurn s (recReady s s.recQ [] []) = some (r, .drop (some m), rest) → ∃ u, exec .faultRecordWrite s = .next u ∧
      u.recQ = rest ∧ (ringGet (hostGet u r.host) m).lost = (let k := (ringGet (hostGet s r.host) m).lost; if k < 65535 then k + 1 else k)) ∧
    (hostCan s h = true →
      (let size := natBits val.toNat 0 5
       let bad := size < 4 ∨ 16 < size ∨ (x.ctl.getLsbD 8 = true ∧ x.head ≠ x.tail ∧ size ≠ natBits x.ctl.toNat 0 5)
       (bad → ∃ u, exec (.frCtlWrite host ring val) s = .next u ∧ (rg u).ctlerr = true ∧ (rg u).ctl = x.ctl) ∧
       (¬ bad → ∃ u, exec (.frCtlWrite host ring val) s = .next u ∧ (rg u).ctl = val &&& 0x31F#64 ∧ (rg u).head = x.head ∧
         (rg u).tail = x.tail)) ∧
      (let w := val &&& 0xFFFFFFFFFFFFFF81#64
       let bad := x.ctl.getLsbD 8 = true ∧ x.head ≠ x.tail ∧ w ≠ x.base
       (bad → ∃ u, exec (.frBaseWrite host ring val) s = .next u ∧ (rg u).ctlerr = true ∧ (rg u).base = x.base) ∧
       (¬ bad → ∃ u, exec (.frBaseWrite host ring val) s = .next u ∧ (rg u).base = w)) ∧
      (let head := val.toNat % 2 ^ 32
       (ringSize x < (x.tail + 2 ^ 32 - head) % 2 ^ 32 → ∃ u, exec (.frHeadWrite host ring val) s = .next u ∧
         (rg u).ctlerr = true ∧ (rg u).head = x.head) ∧
       ((x.tail + 2 ^ 32 - head) % 2 ^ 32 ≤ ringSize x → ∃ u, exec (.frHeadWrite host ring val) s = .next u ∧ (rg u).head = head ∧
         (rg u).tail = x.tail)) ∧
      (let v := (val ||| 1#64) &&& ~~~(BitVec.ofNat 64 (mapGet s.sets (ringReg h n) 0))
       let again := v.getLsbD 0 = true ∧ x.ipend = true ∧ x.head ≠ x.tail ∧ x.ctl.getLsbD 9 = true
       ∃ u, exec (.frStatIpendClear host ring val) s = .next u ∧ (rg u).wrerr = (x.wrerr && !v.getLsbD 3) ∧
        (rg u).ctlerr = (x.ctlerr && !v.getLsbD 2) ∧ (again → (rg u).ipend = true ∧ u.msix = s.msix ++ [(h, n)]) ∧
        (¬ again → (rg u).ipend = (x.ipend && !v.getLsbD 0) ∧ u.msix = s.msix)) ∧
      (∃ u, exec (.hkadd host val) s = .next u ∧
        ((hb s).hkCmd.isSome = true → (hb u).hkErr = true ∧ (hb u).hkCause = 7 ∧ (hb u).hkCmd = (hb s).hkCmd) ∧
        ((hb s).hkCmd = none → hostOwns s h (hb s).hkAsid = false → (hb u).hkErr = true ∧ (hb u).hkCause = 8 ∧ (hb u).hkCmd = none) ∧
        ((hb s).hkCmd = none → hostOwns s h (hb s).hkAsid = true → (hb u).hkCmd = some ⟨(hb s).hkAsid, (hb s).hkAddr, val⟩ ∧
          (hb u).hkErr = (hb s).hkErr)) ∧
      (let bad := (hb s).attCmd.isSome = true ∨ val.toNat % 4096 ≠ 0 ∨ areaThere s val.toNat 2048 = false ∨ s.mgmt.bootPhase < 4 ∨
          s.mgmt.zeroised = true
       ∃ u, exec (.attCmd host val) s = .next u ∧ (bad → (hb u).attErr = true ∧ (hb u).attCmd = (hb s).attCmd) ∧
         (¬ bad → (hb u).attCmd = some [val] ∧ (hb u).attErr = (hb s).attErr))) ∧
    (mmioOpen s h 0x1100 = true →
      let bad := (hb s).sumCmd.isSome = true ∨ val.toNat % 4096 ≠ 0 ∨ areaThere s val.toNat 4096 = false
      ∃ u, exec (.sumCmd host val) s = .next u ∧ (bad → (hb u).sumErr = true ∧ (hb u).sumCmd = (hb s).sumCmd) ∧
        (¬ bad → (hb u).sumCmd = some val ∧ (hb u).sumErr = (hb s).sumErr)) ∧
    (∀ c, (hb s).hkCmd = some c → (hostGet s (1 - h)).hkCmd = none → addWaits s c.kind c.a = false →
      let s1 := hostPut s h { hb s with hkCmd := none }
      (∀ s2, extAdd s1 c.kind (hostAgentId h) (hostAgent s1 h) c.a c.b .sys = .ok s2 → exec .hkaddPerform s = .next s2) ∧
      (∀ e, extAdd s1 c.kind (hostAgentId h) (hostAgent s1 h) c.a c.b .sys = .error e → ∃ u, exec .hkaddPerform s = .next u ∧
        (hb u).hkCmd = none ∧ (hb u).hkErr = true ∧ (hb u).hkCause = hkCauseOf e ∧ u.mem = s.mem)) ∧
    (∀ v, (hb s).sumCmd = some v → (hostGet s (1 - h)).sumCmd = none →
      (areaThere s v.toNat 4096 = true → MemInv s → ∃ u, exec .summaryComplete s = .next u ∧ (hb u).sumCmd = none ∧
        devNat u v.toNat 4 = 0x4D533946 ∧ devNat u (v.toNat + 8) 8 = h) ∧
      (areaThere s v.toNat 4096 = false → ∃ u, exec .summaryComplete s = .next u ∧ (hb u).sumCmd = none ∧ (hb u).sumErr = true)) ∧
    (∀ v l, (hb s).attCmd = some (v :: l) → (hostGet s (1 - h)).attCmd = none →
      let ok := areaThere s v.toNat 2048 && (memReadTrap s v.toNat 64).isNone && !s.mgmt.zeroised
      (ok = true → ∃ u, exec .attQuoteComplete s = .next u ∧ (hb u).attCmd = none ∧ (hb u).attErr = (hb s).attErr ∧
        (MemInv s → devBytes u v.toNat 64 = devBytes s v.toNat 64)) ∧
      (ok = false → ∃ u, exec .attQuoteComplete s = .next u ∧ (hb u).attCmd = none ∧ (hb u).attErr = true ∧ u.mem = s.mem))

/-- A BAR access of the right size at an aligned offset completes: a read with the register's value, a write with its effect;
another is an Unsupported Request. The management host alone writes the management block; what the other writes is dropped
with a management-access record. A window access reads or writes the bytes at its DPA. An AtomicOp returns the old value and
leaves the new one. Values that a register's rule forbids are refused. (R58, R108, R412, R432, R439, R443, R446, R447, R448,
R449, R450, R466) -/
def Obligations.HostAccesses : Prop :=
  ∀ (s : State) (host : BitVec 1) (tile : BitVec 8) (off : BitVec 26) (size : BitVec 4) (val data2 : BitVec 64) (ctl : BitVec 8),
    let h := host.toNat
    let n := tile.toNat
    let t := tileGet s n
    let mine := h = s.mgmt.mgmtHost
    let cpl (u : State) : Option Cpl := (hostGet u h).cpl
    let reg := if off.toNat < 0x100000 then hostReg h off.toNat else off.toNat
    let dropped (i : Instr) : Prop := ∃ u r, exec i s = .next u ∧ u.recQ = s.recQ ++ [r] ∧ r.cls = recClass causeManagementAccess ∧
      u.mgmt = s.mgmt ∧ u.tiles = s.tiles ∧ u.dies = s.dies
    (mmioOpen s h off.toNat = true → size ≠ 8 ∨ off.toNat % 8 ≠ 0 →
      (∃ u, exec (.rcRegisterRead host off size) s = .next u ∧ cpl u = some .unsupported ∧ u.tiles = s.tiles ∧ u.mgmt = s.mgmt) ∧
      (∃ u, exec (.mmioRegisterWrite host off size val) s = .next u ∧ cpl u = some .unsupported ∧ u.tiles = s.tiles ∧
        u.mgmt = s.mgmt)) ∧
    (mmioOpen s h off.toNat = true → size = 8 → off.toNat % 8 = 0 →
      (∃ u, exec (.rcRegisterRead host off size) s = .next u ∧ cpl u = some (.ok (leBytes 8 ((mmioRead s h off.toNat).toNat - countIn s reg))) ∧
        u.mem = s.mem ∧ u.nodes = s.nodes) ∧
      (let v := val &&& ~~~(BitVec.ofNat 64 (mapGet s.sets reg 0))
       ∃ u, exec (.mmioRegisterWrite host off size val) s = .next u ∧ cpl u = some (.ok []) ∧
        (off.toNat = 0x1040 → (hostGet u h).hkAddr = v) ∧ (off.toNat = 0x1060 → (hostGet u h).tdmAsid = v.toNat % 2 ^ 11) ∧
        (off.toNat = 0x1058 → (hostGet u h).hkErr = ((hostGet s h).hkErr && !v.getLsbD 1)) ∧
        (off.toNat = 0x100140 → mine → u.mgmt.asidTbl = v &&& 0x3FFFFFFFC001#64) ∧
        (off.toNat = 0x100190 → mine → u.mgmt.fabId = v &&& 0xFFF#64) ∧
        (0x100000 ≤ off.toNat → off.toNat < 0x200000 → ¬ mine → u.mgmt = s.mgmt ∧ u.recQ.length = s.recQ.length + 1) ∧
        (0x2000000 ≤ off.toNat → u.tiles = s.tiles ∧ u.mgmt = s.mgmt ∧ u.nodes = s.nodes ∧ u.mem = s.mem))) ∧
    (hostCan s h = true →
      (tileThere s n = true → ∃ u, exec (.tileDbgWrite host tile val) s = .next u ∧
        tileGet u n = { t with dbg := val.getLsbD 0 } ∧ ∀ m, m ≠ n → tileGet u m = tileGet s m) ∧
      (¬ mine → dropped (.csaWrite host 0 val) ∧ dropped (.csaWrite host 1 val) ∧ dropped (.hostCfgWrite host val) ∧
        (∀ die, dropped (.dieStealCtlWrite host die val)) ∧ dropped (.freqCmd host val) ∧ dropped (.alarmCtlWrite host val) ∧
        dropped (.scrubCtlWrite host val) ∧ dropped (.shepFcmdClear host val) ∧
        (tileThere s n = true → dropped (.shepCtlWrite host tile val))) ∧
      (mine →
        (nodesHeld s = false → (∃ u, exec (.csaWrite host 0 val) s = .next u ∧ u.mgmt.csaBase = val &&& 0x3FFFFF800000#64) ∧
          ∃ u, exec (.csaWrite host 1 val) s = .next u ∧ u.mgmt.csaCnt = val.toNat % 2 ^ 14) ∧
        (nodesHeld s = true → (val &&& 0x3FFFFF800000#64 ≠ s.mgmt.csaBase → dropped (.csaWrite host 0 val)) ∧
          (val.toNat % 2 ^ 14 ≠ s.mgmt.csaCnt → dropped (.csaWrite host 1 val))) ∧
        (nodesLive s = false → ∃ u, exec (.hostCfgWrite host val) s = .next u ∧
          u.mgmt = { s.mgmt with hostSplit := natBits val.toNat 1 11 }) ∧
        (nodesLive s = true → dropped (.hostCfgWrite host val)) ∧
        (∀ die : BitVec 3, (val.toNat % 256 = 0 → dropped (.dieStealCtlWrite host die val)) ∧
          (val.toNat % 256 ≠ 0 → ∃ u, exec (.dieStealCtlWrite host die val) s = .next u ∧
            dieGet u die.toNat = { dieGet s die.toNat with xdie := val.getLsbD 8, tries := val.toNat % 256 })) ∧
        (s.freqBusy = true → exec (.freqCmd host val) s = .next s) ∧
        (s.freqBusy = false → ∃ u, exec (.freqCmd host val) s = .next u ∧ u.freqBusy = true ∧ u.freqTarget = val.toNat % 4 ∧
          u.freqFrom = s.point ∧ u.point = s.point ∧ (val.toNat % 4 ≤ s.point → u.tiles = s.tiles) ∧ (s.point < val.toNat % 4 →
            ∀ k y, (k, y) ∈ s.tiles → (tileGet u k).gov.v = tableVolt s k (val.toNat % 4) ∧ (tileGet u k).gov.boost = 0)) ∧
        (let now := s.mgmt.alarmCtl.toNat
         let bad := val.toNat % 4 = 3 ∨ (natBit now 2 = true ∧ (val.toNat % 4 < now % 4 ∨ val.getLsbD 2 = false))
         (bad → exec (.alarmCtlWrite host val) s = .next s) ∧
         (¬ bad → exec (.alarmCtlWrite host val) s = .next { s with mgmt := { s.mgmt with alarmCtl := val &&& 7#64 } })) ∧
        (let w := val.toNat
         let bad := natBits w 34 30 ≠ 0 ∨ natBits w 0 32 < 3600 ∨ 31536000 < natBits w 0 32
         ∃ u, exec (.scrubCtlWrite host val) s = .next u ∧
           (bad → u.mgmt.scrubCtl.getLsbD 33 = true ∧ u.mgmt.scrubCtl.toNat % 2 ^ 33 = s.mgmt.scrubCtl.toNat % 2 ^ 33) ∧
           (¬ bad → u.mgmt.scrubCtl.toNat % 2 ^ 33 = w % 2 ^ 33 ∧
             u.mgmt.scrubCtl.getLsbD 33 = (s.mgmt.scrubCtl.getLsbD 33 && !(keepSet s (mgmtReg 0x158) val).getLsbD 33))) ∧
        (tileThere s n = true → (∃ u, exec (.shepCtlWrite host tile val) s = .next u ∧
            ((tileGet u n).gov.ctlerr = true ∨ (tileGet u n).gov.ctl = val)) ∧
          (natBits val.toNat 20 3 < 4 ∨ natBits val.toNat 23 9 < 15 → exec (.shepCtlWrite host tile val) s =
            .next (noteBits (govMap s n fun g => { g with ctlerr := true }) (tileReg n 0x48) 1))) ∧
        (natBit val.toNat 9 = true → ∃ u, exec (.shepFcmdClear host val) s = .next u ∧
          (s.mgmt.shepCmd.isSome = true ∨ 287 < natBits val.toNat 0 9 → u.mgmt.shepErr = true ∧ u.mgmt.shepCmd = s.mgmt.shepCmd) ∧
          (s.mgmt.shepCmd = none → natBits val.toNat 0 9 ≤ 287 → natBits val.toNat 12 52 = 0 →
            physTaken s (natBits val.toNat 0 9) = false → u.mgmt.shepCmd = some (natBits val.toNat 0 9)))) ∧
      (let bytes := 2 ^ (natBits ctl.toNat 1 3 % 4)
       let a := data2.toNat
       (2 ^ 39 ≤ a ∨ inHbm a bytes = false → ∃ u, exec (.windowBarAccess host data2 ctl val) s = .next u ∧
         cpl u = some .unsupported ∧ u.mem = s.mem) ∧
       (a < 2 ^ 39 → inHbm a bytes = true →
         (natBit ctl.toNat 0 = true → memWriteTrap s a bytes ≠ none → ∃ u,
           exec (.windowBarAccess host data2 ctl val) s = .next u ∧ cpl u = some .abort ∧ u.mem = s.mem) ∧
         (natBit ctl.toNat 0 = false → memReadTrap s a bytes ≠ none → ∃ u,
           exec (.windowBarAccess host data2 ctl val) s = .next u ∧ cpl u = some .abort ∧ u.mem = s.mem) ∧
         (natBit ctl.toNat 0 = true → memWriteTrap s a bytes = none → ∃ u,
           exec (.windowBarAccess host data2 ctl val) s = .next u ∧ cpl u = some (.ok []) ∧
           (s.records = [] → MemInv s → (∀ w ∈ s.waits, w.loc * 8 + 8 ≤ a ∨ a + bytes ≤ w.loc * 8) →
             devBytes u a bytes = leBytes bytes val.toNat ∧ ∀ b, b < a ∨ a + bytes ≤ b → memGet u.mem b = memGet s.mem b)) ∧
         (natBit ctl.toNat 0 = false → memReadTrap s a bytes = none → ∃ u bs,
           exec (.windowBarAccess host data2 ctl val) s = .next u ∧ cpl u = some (.ok bs) ∧
           (s.records = [] → bs = devBytes s a bytes ∧ u.mem = s.mem))))) ∧
    (hostCan s (natBits ctl.toNat 0 1) = true →
      let hh := natBits ctl.toNat 0 1
      let bytes := if natBit ctl.toNat 3 then 8 else 4
      let op := natBits ctl.toNat 1 2
      ∀ addr : BitVec 64, let a := addr.toNat
        let old := devNat s a bytes
        let bad := op = 3 ∨ 2 ^ 39 ≤ a ∨ a % bytes ≠ 0 ∨ inHbm a bytes = false
        (bad → ∃ u, exec (.completerAtomicop ctl addr val data2) s = .next u ∧ (hostGet u hh).cpl = some .unsupported ∧
          u.mem = s.mem) ∧
        (¬ bad → memReadTrap s a bytes ≠ none → ∃ u, exec (.completerAtomicop ctl addr val data2) s = .next u ∧
          (hostGet u hh).cpl = some .abort ∧ u.mem = s.mem) ∧
        (¬ bad → memReadTrap s a bytes = none → ∃ u,
          exec (.completerAtomicop ctl addr val data2) s = .next u ∧ (hostGet u hh).cpl = some (.ok (leBytes bytes old)) ∧
          (s.records = [] → MemInv s → (∀ w ∈ s.waits, w.loc * 8 + 8 ≤ a ∨ a + bytes ≤ w.loc * 8) →
          devNat u a bytes = (if op = 0 then (old + val.toNat) % 2 ^ (8 * bytes) else if op = 1 then val.toNat % 2 ^ (8 * bytes)
            else if old = val.toNat % 2 ^ (8 * bytes) then data2.toNat % 2 ^ (8 * bytes) else old))))

/-- A package reset clears all but flash, fuses, memory contents and zeroised keys, and the links train again; after the last
link the remap stands and dies that failed are lost; the tables are loaded and the ports present their functions. A frequency
change stops all tile clocks, changes the point and restarts them; on a fall the voltages follow. An alarm is recorded, sends
entry 16 to the management host, halts the part at levels 1 and 2, and zeroises at level 2. A lost die's dirty granules are
lost, its translations and cached lines are gone, and nodes that touched it stop, or stop once they are restored; placed,
stopped and saved nodes that did not touch it are as they were. A failed port has no link. (R12, R14, R18, R19, R421, R447,
R448, R461, R463, R466, R467, R470) -/
def Obligations.BoardEvents : Prop :=
  ∀ (s : State) (link : BitVec 6) (reva revb : BitVec 16) (src : BitVec 2) (die : BitVec 3),
    (∀ (cfail : BitVec 9) (pfail : BitVec 4) (ports : BitVec 2), ∃ u, exec (.packageReset cfail pfail ports) s = .next u ∧
      u.mem = s.mem ∧ u.flash = s.flash ∧ u.bankMarks = s.bankMarks ∧ u.mgmt.zeroised = s.mgmt.zeroised ∧ u.mgmt.bootPhase = 1 ∧
      u.nodes = [] ∧ u.packs = [] ∧ u.tiles = tilesAtReset s ∧ u.mgmt.mgmtHost = s.flashMgmt % 2 ∧
      (∀ n < 256, flashOf s n 0 ≠ ⟨false, false, 0, 0, 0, 0, 0, 0, 0⟩ → (tileGet u n).gov.v = trimUp (flashOf s n 0).safe) ∧
      (∀ d < 8, (dieGet u d).phys = (dieGet s d).phys ∧ (dieGet u d).lost = false) ∧ u.records = [] ∧ u.recQ = [] ∧ u.links = [] ∧ u.point = State.reset.point ∧
      u.mgmt.csaCnt = 0 ∧ (∀ p < 4, p ∈ u.portsLost ↔ pfail.getLsbD p = true) ∧
      (∀ h < 2, (hostGet u h).linkUp = false ∧ (hostGet u h).lq = [] ∧ (hostGet u h).fr = [] ∧
        ((hostGet u h).gone = true ↔ ports.getLsbD h = false ∨ 3 * h ∈ u.portsLost)) ∧
      (∀ p < 9, u.mgmt.bootBits.getLsbD (15 + p) = !cfail.getLsbD p) ∧ (∀ p < 4, u.mgmt.bootBits.getLsbD (11 + p) = !pfail.getLsbD p)) ∧
    (let s1 := { s with links := mapPut s.links link.toNat (commonRev reva.toNat revb.toNat) }
     (36 ≤ link.toNat → exec (.toldodyLinkTrained link reva revb) s = .next s) ∧
     (link.toNat < 36 → s.mgmt.bootPhase < 3 → s.mgmt.bootPhase ≠ 1 ∨ s1.links.length ≠ 36 → exec (.toldodyLinkTrained link reva revb) s = .next s1) ∧
     (link.toNat < 36 → s.mgmt.bootPhase = 1 → s1.links.length = 36 → ∃ u, exec (.toldodyLinkTrained link reva revb) s = .next u ∧
       u.mgmt.bootPhase = 3 ∧ u.links = s1.links ∧ ∀ d < 8,
         (dieGet u d).lost = (bootLost s1 d || (dieGet s d).lost) ∧ (dieGet u d).phys = (dieGet s d).phys) ∧
     (link.toNat < 36 → 3 ≤ s.mgmt.bootPhase → (∀ d < 8, (dieGet s d).phys ≠ link.toNat / 4) ∨ dieLinked s1 (link.toNat / 4) = true →
       exec (.toldodyLinkTrained link reva revb) s = .next s1)) ∧
    (s.mgmt.bootPhase ≠ 3 → exec .marginTableLoad s = .next s) ∧
    (s.mgmt.bootPhase = 3 → ∃ u, exec .marginTableLoad s = .next u ∧ u.mgmt.bootPhase = 5 ∧ u.freqTarget = s.flashPoint ∧
      u.freqBusy = true ∧ (∀ h < 2, (hostGet u h).linkUp = !(hostGet s h).gone) ∧
      u.mgmt.mgmtHost = (if (hostGet s (s.flashMgmt % 2)).gone = true ∧ (hostGet s (1 - s.flashMgmt % 2)).gone = false
        then 1 - s.flashMgmt % 2 else s.flashMgmt % 2)) ∧
    (s.freqBusy = true → s.clockStop = false →
      (s.tiles.all (fun t => t.2.core.replay.isNone) = true →
        exec .freqChangeClockStop s = .next { s with point := s.freqTarget, clockStop := true }) ∧
      (s.tiles.all (fun t => t.2.core.replay.isNone) = false → exec .freqChangeClockStop s = .next s)) ∧
    (s.freqBusy = false → exec .freqChangeClockStop s = .next s ∧ exec .freqChangeClockRestart s = .next s) ∧
    (s.freqBusy = true → s.clockStop = true → s.mgmt.halted = false → ∃ u, exec .freqChangeClockRestart s = .next u ∧
      u.clockStop = false ∧ u.freqBusy = false ∧ u.point = s.point ∧ u.mem = s.mem ∧ ∀ t x, (t, x) ∈ s.tiles →
        (tileGet u t).core = (tileGet s t).core ∧ (tileGet u t).gov.floor = entFloor (flashOf s t s.point) ∧
        (pinned (tileGet s t).gov = false → (tileGet u t).gov.p ≤ pMax s ∧
          (s.point < s.freqFrom → (tileGet u t).gov.v = tableVolt s t s.point ∧ (tileGet u t).gov.boost = 0) ∧
          (s.freqFrom ≤ s.point → (tileGet u t).gov.v = (tileGet s t).gov.v))) ∧
    (∃ u, exec (.securityAlarm src) s = .next u ∧ u.mgmt.alarmCount = min 65535 (s.mgmt.alarmCount + 1) ∧
      u.mgmt.alarmSrc = s.mgmt.alarmSrc ||| 2 ^ src.toNat ∧ u.msix = s.msix ++ [(s.mgmt.mgmtHost, 16)] ∧ u.nodes = s.nodes ∧
      u.mem = s.mem ∧ u.clockStop = (s.clockStop || decide (s.mgmt.alarmCtl.toNat % 4 ≠ 0)) ∧
      u.mgmt.halted = (s.mgmt.halted || decide (s.mgmt.alarmCtl.toNat % 4 ≠ 0)) ∧
      u.mgmt.zeroised = (s.mgmt.zeroised || decide (2 ≤ s.mgmt.alarmCtl.toNat % 4))) ∧
    (∃ u, exec .managementPortFailure s = .next u ∧ (hostGet u s.mgmt.mgmtHost).linkUp = false ∧ u.mgmt = s.mgmt ∧
      u.tiles = s.tiles ∧ u.nodes = s.nodes ∧ u.mem = s.mem) ∧
    ((dieGet s die.toNat).lost = true → exec (.dieLost die) s = .next s) ∧
    ((dieGet s die.toNat).lost = false →
      (∀ x ∈ s.nodes, natBit (mapGet s.touched (nodeAsid x.2) 0) die.toNat = false ∧ x.2.st ≠ .queued ∧ x.2.st ≠ .blocked ∧
        x.2.st ≠ .eligible ∧ x.2.st ≠ .held ∧ x.2.st ≠ .preempted) →
      ∃ u, exec (.dieLost die) s = .next u ∧ (dieGet u die.toNat).lost = true ∧ (dieGet u die.toNat).tlb2 = [] ∧
        (dieGet u die.toNat).cached = [] ∧ (∀ g ∈ (dieGet s die.toNat).dirty, g ∈ u.lostGran) ∧ u.nodes = s.nodes ∧ u.mem = s.mem) ∧
    (∀ n nd, (dieGet s die.toNat).lost = false → s.nodes = [(n, nd)] →
      natBit (mapGet s.touched (nodeAsid nd) 0) die.toNat = true →
      (nd.st = .placed ∨ nd.st = .running ∨ nd.st = .yielding ∨ nd.st = .stopped ∨ nd.st = .retiring → ∃ u, exec (.dieLost die) s = .next u ∧ (nodeGet? u n).map (·.st) = some .stopped) ∧
      (nd.st = .saved → ∃ u, exec (.dieLost die) s = .next u ∧ nodeGet? u n = some { nd with diesLost := true }))

/-- A corrected codeword is written back and counted. A bank that is due is marked; the fourth retires the tile. A rebuild
goes line by line. The patrol corrects or counts the next granule of a channel. A window that ends on its count, with no burst
under way, raises the voltage by 2 mV up to the safe value, lowers it by 2 mV above the effective floor, or leaves it; one
that ends on time changes neither voltage nor floor. A safe restore puts the safe voltage and a floor 10 mV higher in force.
Readings move the profile and note the temperature; the grant follows the temperature; an emergency takes the grant to 4 and
ends after 100 us. The daily write puts the floor, the rate and the hours of the day at the point in force into the tile's
entry; the clear command of SHEP_FCMD clears a physical tile's marks. (R427, R428, R431, R433, R438, R439, R440, R441, R442,
R443, R445) -/
def Obligations.ReliabilityEvents : Prop :=
  ∀ (s : State) (tile : BitVec 8) (x : BitVec 16) (channel : BitVec 8) (n : Nat),
    let t := tileGet s tile.toNat
    let g := t.gov
    let safe := safeOf s tile.toNat
    let eff := trimUp (effFloor s tile.toNat)
    let full := 2 ^ (natBits g.ctl.toNat 8 5 + 2) ≤ g.wBundles
    let gv (u : State) : Governor := (tileGet u tile.toNat).gov
    (∀ line cw, pickTurn s (correctable s) = some (n, line, cw) → ∃ u, exec .poolCorrectionWriteback s = .next u ∧
      u.symErr = mapDel s.symErr (cwKey n line cw) ∧ (tileGet u n).pool = (tileGet s n).pool ∧
      (tileGet u n).gov.ce = min 65535 ((tileGet s n).gov.ce + 1) ∧ (tileGet u n).gov.wCe = (tileGet s n).gov.wCe + 1 ∧
      (segGet (tileGet u n) (line % 8)).ce = min 65535 ((segGet (tileGet s n) (line % 8)).ce + 1)) ∧
    (∀ seg b, pickTurn s (bankDue s) = some (n, seg, b) → ∃ u, exec .bankMarkFailed s = .next u ∧
      (segGet (tileGet u n) seg).failed = (segGet (tileGet s n) seg).failed + 1 ∧
      (3 ≤ (segGet (tileGet s n) seg).failed → (tileGet u n).retired = true) ∧ (tileGet u n).pool = (tileGet s n).pool) ∧
    (∀ seg, pickTurn s (rebuilding s) = some (n, seg) → ∃ u, exec .bankRebuildLine s = .next u ∧
      segGet (tileGet u n) seg = { segGet (tileGet s n) seg with rl := (segGet (tileGet s n) seg).rl + 1 } ∧
      (tileGet u n).pool = (tileGet s n).pool) ∧
    (let p := mapGet s.patrol channel.toNat 0
     let gr := channelPa channel.toNat p / 64
     (s.mgmt.scrubCtl.getLsbD 32 = false → exec (.patrolScrubRead channel) s = .next s) ∧
     (s.mgmt.scrubCtl.getLsbD 32 = true → ∃ u, exec (.patrolScrubRead channel) s = .next u ∧
       mapGet u.patrol channel.toNat 0 = (p + 1) % 25165824 ∧ u.mem = s.mem ∧ u.lostGran = s.lostGran ∧
       (frameFrozen s (channelPa channel.toNat p) = false → gr ∉ s.lostGran → granBad s gr = false → u.symErr =
         if (mapGet s.symErr gr []).isEmpty then s.symErr else mapDel s.symErr gr) ∧
       (granBad s gr = true → u.symErr = s.symErr))) ∧
    (full → pinned g = true ∨ g.restore ≠ 0 → g.boost = 0 → ∃ u, exec (.governorWindowEnd tile) s = .next u ∧ (gv u).v = g.v ∧
      (gv u).floor = g.floor ∧ (gv u).wBundles = 0 ∧ (gv u).wStart = timeOf s) ∧
    (full → pinned g = false → g.restore = 0 → g.boost = 0 →
      let many := 8 ≤ g.wReplays ∨ 4 ≤ g.wCe
      let few := (g.wReplays ≤ 1 ∨ g.hint = 2) ∧ g.wCe = 0
      ∃ u, exec (.governorWindowEnd tile) s = .next u ∧ (gv u).wBundles = 0 ∧ (gv u).wReplays = 0 ∧ (gv u).wCe = 0 ∧
        (many → (gv u).v = min safe (g.v + 2) ∧ (gv u).floor = if g.v ≤ eff then g.floor + 2 else g.floor) ∧
        (¬ many → few → (gv u).v = (if eff < g.v then g.v - 2 else g.v) ∧ (gv u).floor = g.floor) ∧
        (¬ many → ¬ few → (gv u).v = g.v ∧ (gv u).floor = g.floor)) ∧
    (¬ full → exec (.governorWindowEnd tile) s = .next s) ∧
    (pickTurn s (lateWindows s) = some tile.toNat → g.boost = 0 → ∃ u, exec .governorWindowTimeout s = .next u ∧ (gv u).v = g.v ∧
      (gv u).floor = g.floor ∧ (gv u).wBundles = 0 ∧ (gv u).wStart = timeOf s) ∧
    (g.restore = 0 ∨ s.clockStop = true → exec (.safeRestore tile) s = .next s) ∧
    (g.restore ≠ 0 → s.clockStop = false → ∃ u, exec (.safeRestore tile) s = .next u ∧ (gv u).v = safe ∧
      (gv u).floor = min (g.floor + 10) (flashOf s tile.toNat s.point).safe ∧ (gv u).restore = 0 ∧ (gv u).wBundles = 0) ∧
    (∃ u, exec (.currentReading tile x) s = .next u ∧ (gv u).cur = x.toNat ∧ (gv u).floor = g.floor ∧
      ((gv u).overTwice = true ↔ 125 < g.cur ∧ 125 < x.toNat) ∧ (pinned g = false → 100 < x.toNat → (gv u).p = max 15 (g.p - 32)) ∧
      (pinned g = true → g.emerg = false → (gv u).p = g.p ∧ (gv u).v = g.v)) ∧
    (∃ u, exec (.temperatureReading tile x) s = .next u ∧ (gv u).temp = x.toNat ∧ (gv u).v = g.v ∧ (gv u).p = g.p) ∧
    (∃ u, exec .grantAdjust s = .next u ∧ (pinned g = true ∨ g.emerg = true → (tileGet u tile.toNat).grant = t.grant) ∧
      (pinned g = false → g.emerg = false → mapGet? s.tiles tile.toNat = some t → (tileGet u tile.toNat).grant =
        if 95 ≤ g.temp then max 4 (t.grant - 1) else if g.temp ≤ 85 then min 7 (t.grant + 1) else t.grant)) ∧
    (pickTurn s (emergDue s) = some n → ∃ u, exec .governorEmergency s = .next u ∧ (tileGet u n).grant = 4 ∧
      (tileGet u n).gov.emerg = true ∧ (tileGet u n).gov.emergSince = timeOf s) ∧
    (pickTurn s (emergOver s) = some n → ∃ u, exec .emergencyEnd s = .next u ∧ (tileGet u n).gov.emerg = false ∧
      (pinned (tileGet s n).gov = false → (tileGet u n).grant = (tileGet s n).grant) ∧
      (pinned (tileGet s n).gov = true → (tileGet u n).grant = pinG (tileGet s n).gov ∧ (tileGet u n).gov.p = pinP (tileGet s n).gov)) ∧
    (∀ d, s.tiles = [(tile.toNat, t)] → (dieGet s (dieOf tile.toNat)).lost = false → g.days = [(s.point, d)] →
      let e := flashOf s tile.toNat s.point
      let ns := d.ns + (timeOf s - g.daySince)
      ∃ u, exec .marginDailyWrite s = .next u ∧ (gv u).daySince = timeOf s ∧ (gv u).v = g.v ∧ (gv u).floor = g.floor ∧
        pointDay (gv u) s.point = ⟨0, 0, g.floor, 0, (d.left + ns) % 3600000000000⟩ ∧
        (Config.freeBool s.free = false → let w := flashOf u tile.toNat s.point
          w.floor = g.floor ∧ w.valid = true ∧ w.safe = e.safe ∧ w.alarms = e.alarms ∧
          w.rate = (if d.bundles = 0 then 0 else min (2 ^ 32 - 1) (d.replays * 2 ^ 32 / d.bundles)) ∧
          w.hours = min (2 ^ 32 - 1) (e.hours + (d.left + ns) / 3600000000000) ∧ (pinned g = true → w.slope = e.slope)) ∧
        (Config.freeBool s.free = true → u.flash = s.flash ∧ (gv u).flerr = true)) ∧
    (s.mgmt.shepCmd = none → exec .shepFcmdComplete s = .next s) ∧
    (s.mgmt.shepCmd = some n → ∃ u, exec .shepFcmdComplete s = .next u ∧ u.mgmt.shepCmd = none ∧
      (Config.freeBool s.free = true → u.mgmt.shepErr = true ∧ u.flash = s.flash) ∧
      (Config.freeBool s.free = false → u.mgmt.shepErr = s.mgmt.shepErr ∧ (∀ e ∈ u.bankMarks, e.1 / 64 ≠ n) ∧
        ∀ e ∈ u.flash, e.1 / 4 = n → e.2.retired = false) ∧
      ∀ k, tileOfPhys s n = some k → (tileGet u k).pool = [])

/-- After package reset the launch queues, the fault rings, the management registers and the tiles' registers read the values
of their Reset columns, the tick counts are 0, no node exists, and the memories are canonical (that they list nothing is the
model's choice, log entry 5). (R36, R97, R403, R412, R432, R435, R439, R443, R447, R464, R466, R58) -/
def Obligations.ResetState : Prop :=
  (∀ h < 2, (∀ l < 24, mmioRead State.reset h (64 * l) = 0 ∧ mmioRead State.reset h (64 * l + 0x08) = 4 ∧
      mmioRead State.reset h (64 * l + 0x10) = 0 ∧ mmioRead State.reset h (64 * l + 0x18) = 0) ∧
    (∀ n < 16, mmioRead State.reset h (0x800 + 64 * n) = 0 ∧ mmioRead State.reset h (0x800 + 64 * n + 8) = 6 ∧
      mmioRead State.reset h (0x800 + 64 * n + 0x10) = 0 ∧ mmioRead State.reset h (0x800 + 64 * n + 0x18) = 0) ∧
    (∀ l < 24, mmioRead State.reset h (0x100000 + 8 * l) = 0x0101) ∧ (∀ d < 8, mmioRead State.reset h (0x100100 + 8 * d) = 0x120) ∧
    mmioRead State.reset h 0x100148 = 0 ∧ mmioRead State.reset h 0x100150 = 0 ∧
    mmioRead State.reset h 0x100158 = 0x0000000100015180 ∧ mmioRead State.reset h 0x100160 = 2 ∧
    mmioRead State.reset h 0x100180 = 2048 ∧ mmioRead State.reset h 0x1001A0 = 1 ∧ mmioRead State.reset h 0x1001A8 = 0 ∧
    (∀ t < 256, mmioRead State.reset h (0x1000000 + 0x10000 * t) = 0 ∧
      mmioRead State.reset h (0x1000000 + 0x10000 * t + 0x10) = 0x0000001400001000)) ∧
  (∀ t < 256, (coreGet State.reset t).ticks = 0 ∧ (tileGet State.reset t).node = none ∧ (tileGet State.reset t).packSize = 1) ∧
  State.reset.nodes = [] ∧ State.reset.packs = [] ∧ MemInv State.reset

/-- If the bytes of device memory, of both hosts' memories and of every pool stand in canonical form (addresses rise strictly,
no listed byte is 0: the model's own form, log entry 5), then they do after every step that answers a next state. (R3, R233,
R413) -/
def Obligations.MemoryStaysCanonical : Prop :=
  ∀ (s t : State), MemInv s → (∀ x ∈ s.tiles, memWf x.2.pool = true) → step s = .next t →
    MemInv t ∧ ∀ x ∈ t.tiles, memWf x.2.pool = true
end

