-- ==== Sys2Proof/Laws/Codec.lean ====
section
/-! SUPPORT. The fields of a slot word come back from it: one lemma per field and per payload format (03 R70, R71, R74). -/

namespace Sys2Proof

/-- A reserved port number is no other port's (03 R74). -/
theorem portOf_reserved (w : BitVec 10) (h : (Port.reserved w).canonical = true) : portOf w = .reserved w := by
  simp only [Port.canonical, Bool.or_eq_true, Bool.and_eq_true, decide_eq_true_eq] at h
  simp only [portOf, BitVec.lt_def, ← BitVec.toNat_inj, BitVec.toNat_ofNat]
  norm_num
  rw [if_neg (show ¬ w.toNat < 64 by omega), if_neg (show ¬ w.toNat < 72 by omega), if_neg (show ¬ w.toNat < 80 by omega), if_neg (show ¬ w.toNat < 84 by omega), if_neg (show ¬ w.toNat < 88 by omega), if_neg (show ¬ w.toNat < 92 by omega), if_neg (show ¬ w.toNat < 96 by omega), if_neg (show ¬ w.toNat < 98 by omega)]
  rcases h with (h | h) | h
  · rw [if_pos (by omega)]
  · rw [if_neg (show ¬ w.toNat < 112 by omega), if_neg (show ¬ w.toNat < 120 by omega), if_neg (show ¬ w.toNat < 124 by omega), if_pos (by omega)]
  · rw [if_neg (show ¬ w.toNat < 112 by omega), if_neg (show ¬ w.toNat < 120 by omega), if_neg (show ¬ w.toNat < 124 by omega), if_neg (show ¬ w.toNat < 128 by omega), if_neg (show ¬ w.toNat < 192 by omega), if_neg (by omega)]

/-- A port that stands for itself comes back from its number (03 R74). -/
theorem portOf_portNum (p : Port) (h : p.canonical = true) : portOf (portNum p) = p := by
  cases p with
  | s n => revert n; decide
  | p n => revert n; decide
  | m n => revert n; decide
  | aaL n => revert n; decide
  | abL n => revert n; decide
  | xaL n => revert n; decide
  | xbL n => revert n; decide
  | caL n => revert n; decide
  | lq n => revert n; decide
  | sq n => revert n; decide
  | special n => revert n; decide
  | imm => decide
  | reserved w => exact portOf_reserved w h

theorem guardOf_guardNum (g : Guard) : guardOf (guardNum g) = g := by
  obtain ⟨b, p⟩ := g; revert b p; decide

theorem scopeOf_scopeNum (x : Scope) : scopeOf (scopeNum x) = some x := by cases x <;> rfl
theorem orderOf_orderNum (x : Order) : memOrderOf (orderNum x) = x := by cases x <;> rfl
theorem sizeOf3_sizeNum (x : Size) : sizeOf3 (sizeNum x) = some x := by cases x <;> rfl
theorem engineOf_engineNum (x : EngineId) : engineOf (engineNum x) = some x := by cases x <;> rfl

/-- The opcode of a packed word (03 R70). -/
theorem opcodeOf_packC (k : BitVec 9) (o : COp) : opcodeOf (packC k o) = k := by
  simp (disch := omega) only [opcodeOf, packC, BitVec.extractLsb'_append_eq_of_le, BitVec.extractLsb'_append_eq_of_add_le]
  simp

theorem opcodeOf_packM (k : BitVec 9) (o : MOp) : opcodeOf (packM k o) = k := by
  simp (disch := omega) only [opcodeOf, packM, BitVec.extractLsb'_append_eq_of_le, BitVec.extractLsb'_append_eq_of_add_le]
  simp

theorem opcodeOf_packS (k : BitVec 9) (o : SOp) : opcodeOf (packS k o) = k := by
  simp (disch := omega) only [opcodeOf, packS, BitVec.extractLsb'_append_eq_of_le, BitVec.extractLsb'_append_eq_of_add_le]
  simp

theorem opcodeOf_packV (k : BitVec 9) (o : VOp) : opcodeOf (packV k o) = k := by
  simp (disch := omega) only [opcodeOf, packV, BitVec.extractLsb'_append_eq_of_le, BitVec.extractLsb'_append_eq_of_add_le]
  simp

theorem opcodeOf_packE (k : BitVec 9) (o : EOp) : opcodeOf (packE k o) = k := by
  simp (disch := omega) only [opcodeOf, packE, BitVec.extractLsb'_append_eq_of_le, BitVec.extractLsb'_append_eq_of_add_le]
  simp

/-- A C payload comes back (03 R71). -/
theorem unpackC_packC (k : BitVec 9) (o : COp) (h : o.cport.canonical = true) : unpackC (packC k o) = o := by
  simp (disch := omega) only [unpackC, packC, BitVec.extractLsb'_append_eq_of_le, BitVec.extractLsb'_append_eq_of_add_le]
  simp [guardOf_guardNum, portOf_portNum _ h]

/-- An M payload comes back (03 R71). -/
theorem unpackM_packM (k : BitVec 9) (o : MOp) (h : o.data.canonical = true) (h1 : o.base.canonical = true)
    (h2 : o.index.canonical = true) : unpackM (packM k o) = some o := by
  simp (disch := omega) only [unpackM, packM, BitVec.extractLsb'_append_eq_of_le, BitVec.extractLsb'_append_eq_of_add_le]
  simp [guardOf_guardNum, portOf_portNum _ h, portOf_portNum _ h1, portOf_portNum _ h2, scopeOf_scopeNum, orderOf_orderNum,
    sizeOf3_sizeNum]

/-- An S payload comes back (03 R71). -/
theorem unpackS_packS (k : BitVec 9) (o : SOp) (h : o.dst.canonical = true) (h1 : o.srcA.canonical = true)
    (h2 : o.srcB.canonical = true) : unpackS (packS k o) = o := by
  simp (disch := omega) only [unpackS, packS, BitVec.extractLsb'_append_eq_of_le, BitVec.extractLsb'_append_eq_of_add_le]
  simp [guardOf_guardNum, portOf_portNum _ h, portOf_portNum _ h1, portOf_portNum _ h2]

/-- A bit as a field of one bit. -/
theorem getLsbD_extract {w : Nat} (x : BitVec w) (i : Nat) : x.getLsbD i = (x.extractLsb' i 1).getLsbD 0 := by simp

/-- A V payload comes back (03 R71). -/
theorem unpackV_packV (k : BitVec 9) (o : VOp) : unpackV (packV k o) = some o := by
  unfold unpackV packV
  rw [getLsbD_extract _ 13, getLsbD_extract _ 12, getLsbD_extract _ 8, getLsbD_extract _ 4, getLsbD_extract _ 3,
    getLsbD_extract _ 2]
  simp (disch := omega) only [BitVec.extractLsb'_append_eq_of_le, BitVec.extractLsb'_append_eq_of_add_le]
  simp [guardOf_guardNum]

/-- An E payload comes back (03 R71). -/
theorem unpackE_packE (k : BitVec 9) (o : EOp) (h : o.source.canonical = true) : unpackE (packE k o) = some o := by
  simp (disch := omega) only [unpackE, packE, BitVec.extractLsb'_append_eq_of_le, BitVec.extractLsb'_append_eq_of_add_le]
  simp [guardOf_guardNum, portOf_portNum _ h, engineOf_engineNum]

/-- A check that raises nothing has met no condition. -/
theorem faultOf_none {a b : Bool} (h : Machine.faultOf a b = none) : a = false ∧ b = false := by
  revert h; cases a <;> cases b <;> simp [Machine.faultOf]

theorem canonical_plainReadable {p : Port} (h : Machine.plainReadable p = true) : p.canonical = true := by
  cases p <;> simp_all [Machine.plainReadable, Port.canonical]

theorem canonical_plainWritable {p : Port} (h : Machine.plainWritable p = true) : p.canonical = true := by
  cases p <;> simp_all [Machine.plainWritable, Port.canonical]

theorem canonical_readableC {p : Port} (h : Machine.readableC p = true) : p.canonical = true := by
  cases p <;> simp_all [Machine.readableC, Machine.plainReadable, Port.canonical]

theorem canonical_readableM {p : Port} (h : Machine.readableM p = true) : p.canonical = true := by
  cases p <;> simp_all [Machine.readableM, Machine.plainReadable, Port.canonical]

theorem canonical_readableS {p : Port} (h : Machine.readableS p = true) : p.canonical = true := by
  cases p <;> simp_all [Machine.readableS, Machine.plainReadable, Port.canonical]

theorem canonical_writableM {p : Port} (h : Machine.writableM p = true) : p.canonical = true := by
  cases p <;> simp_all [Machine.writableM, Machine.plainWritable, Port.canonical]

theorem canonical_writableS {p : Port} (h : Machine.writableS p = true) : p.canonical = true := by
  cases p <;> simp_all [Machine.writableS, Machine.plainWritable, Port.canonical]

theorem canonical_isZeroPort {p : Port} (h : Machine.isZeroPort p = true) : p.canonical = true := by
  cases p <;> simp_all [Machine.isZeroPort, Port.canonical]

theorem canonical_isLq {p : Port} (h : Machine.isLq p = true) : p.canonical = true := by
  cases p <;> simp_all [Machine.isLq, Port.canonical]

theorem canonical_isSq {p : Port} (h : Machine.isSq p = true) : p.canonical = true := by
  cases p <;> simp_all [Machine.isSq, Port.canonical]

theorem canonical_isS1to63 {p : Port} (h : Machine.isS1to63 p = true) : p.canonical = true := by
  cases p <;> simp_all [Machine.isS1to63, Port.canonical]

/-- The countport of a C operation that decodes stands for itself. -/
theorem formC0_port {o : COp} {a b : Bool} (h : Machine.formC0 o a b = none) : o.cport.canonical = true := by
  have := (faultOf_none h).1; simp at this; exact canonical_isZeroPort (by simp_all)

theorem formCSrc_port {o : COp} {a : Bool} (h : Machine.formCSrc o a = none) : o.cport.canonical = true := by
  have := (faultOf_none h).2; exact canonical_readableC (by simp_all)

theorem formCWait_port {o : COp} (h : Machine.formCWait o = none) : o.cport.canonical = true := by
  have := (faultOf_none h).2; exact canonical_readableC (by simp_all)

theorem formCLease_port {o : COp} (h : Machine.formCLease o = none) : o.cport.canonical = true := by
  have := (faultOf_none h).1
  revert this; cases o.cport <;> simp [Port.canonical]

theorem formCOvl_port {o : COp} (h : Machine.formCOvl o = none) : o.cport.canonical = true := by
  have := (faultOf_none h).2; exact canonical_readableC (by simp_all)

theorem formCSleepSet_port {o : COp} (h : Machine.formCSleepSet o = none) : o.cport.canonical = true := by
  have := (faultOf_none h).1; simp at this; exact canonical_isZeroPort (by simp_all)

theorem formCSleepSrc_port {o : COp} (h : Machine.formCSleepSrc o = none) :
    o.cport.canonical = true ∧ o.cport ≠ .s 0 := by
  unfold Machine.formCSleepSrc at h
  split at h
  · simp at h
  · rename_i h0
    exact ⟨formCSrc_port h, by simpa [Machine.isZeroPort] using h0⟩

/-- What an M operation that decodes says of its ports. -/
theorem formM_ports {o : MOp} {a b c d e f : Bool} (h : Machine.formM o a b c d e f = none) :
    a = true ∧ b = true ∧ d = true ∧ e = true ∧ f = true ∧ o.base.canonical = true ∧ o.index.canonical = true := by
  have h1 := (faultOf_none h).1
  have h2 := (faultOf_none h).2
  simp at h1 h2
  exact ⟨by simp_all, by simp_all, by simp_all, by simp_all, by simp_all, canonical_readableM (by simp_all),
    canonical_readableM (by simp_all)⟩

/-- The ports of an S operation that decodes stand for themselves. -/
def SOp.plain (o : SOp) : Prop := o.dst.canonical = true ∧ o.srcA.canonical = true ∧ o.srcB.canonical = true

theorem formS2_ports {o : SOp} (h : Machine.formS2 o = none) : o.plain := by
  have h2 := (faultOf_none h).2; simp at h2
  exact ⟨canonical_writableS (by simp_all), canonical_readableS (by simp_all), canonical_readableS (by simp_all)⟩

theorem formS1_ports {o : SOp} (h : Machine.formS1 o = none) : o.plain := by
  have h1 := (faultOf_none h).1; have h2 := (faultOf_none h).2; simp at h1 h2
  exact ⟨canonical_writableS (by simp_all), canonical_readableS (by simp_all), canonical_isZeroPort (by simp_all)⟩

theorem formSLi_ports {o : SOp} (h : Machine.formSLi o = none) : o.plain := by
  have h1 := (faultOf_none h).1; have h2 := (faultOf_none h).2; simp at h1 h2
  exact ⟨canonical_writableS (by simp_all), canonical_isZeroPort (by simp_all), canonical_isZeroPort (by simp_all)⟩

theorem formSLih_ports {o : SOp} (h : Machine.formSLih o = none) : o.plain := by
  have h1 := (faultOf_none h).1; have h2 := (faultOf_none h).2; simp at h1 h2
  exact ⟨canonical_writableS (by simp_all), canonical_readableS (by simp_all), canonical_isZeroPort (by simp_all)⟩

theorem formSCtl_ports {o : SOp} {c : Bool} (h : Machine.formSCtl o c = none) : o.plain := by
  have h2 := (faultOf_none h).2; simp at h2
  exact ⟨canonical_writableS (by simp_all), canonical_readableS (by simp_all), canonical_readableS (by simp_all)⟩

theorem formSCvt_ports {o : SOp} (h : Machine.formSCvt o = none) : o.plain := by
  have h1 := (faultOf_none h).1; have h2 := (faultOf_none h).2; simp at h1 h2
  exact ⟨canonical_writableS (by simp_all), canonical_readableS (by simp_all), canonical_isZeroPort (by simp_all)⟩

/-- The source port of an E operation that decodes stands for itself. -/
theorem formEwr_port {o : EOp} (h : Machine.formEwr o = none) : o.source.canonical = true := by
  have := (faultOf_none h).2; exact canonical_readableC (by simp_all)

theorem formErd_port {o : EOp} (h : Machine.formErd o = none) : o.source.canonical = true := by
  have := (faultOf_none h).1; simp at this; exact canonical_isS1to63 (by simp_all)

theorem formEtrig_port {o : EOp} (h : Machine.formEtrig o = none) : o.source.canonical = true := by
  have := (faultOf_none h).1; simp at this; exact canonical_isZeroPort (by simp_all)

theorem formE0_port {o : EOp} (h : Machine.formE0 o = none) : o.source.canonical = true := by
  have := (faultOf_none h).1; simp at this; exact canonical_isZeroPort (by simp_all)

/-- A slot word that spells a well-formed instruction decodes to it. -/
theorem decodeStep_slotStep (k : BitVec 4) (tile : BitVec 8) (w : SlotWord) (i : Instr) (hk : k.toNat < 6)
    (h : slotInstr k.toNat tile w = some i) (hf : i.formFault = none) : decodeStep (slotStep k tile w) = .ok i := by
  have e1 : (k ++ w).extractLsb' 60 4 = k := BitVec.extractLsb'_append_eq_left
  have e2 : (k ++ w).extractLsb' 0 60 = w := BitVec.extractLsb'_append_eq_right
  have h7 : k.toNat ≠ 7 := by omega
  have l0 (n : Nat) : laneFits 0#64 n = true := by simp [laneFits]
  have l1 : laneFits (tile.setWidth 64) 8 = true := by
    simp only [laneFits, BitVec.toNat_setWidth, decide_eq_true_eq]; omega
  have e3 : (tile.setWidth 64).setWidth 8 = tile := by
    apply BitVec.eq_of_toNat_eq; simp only [BitVec.toNat_setWidth]; omega
  simp [decodeStep, slotStep, e1, e2, h7, hk, l0, l1, e3, decodeSlot, h, hf]

theorem decode_C (k : BitVec 9) (tile : BitVec 8) (o : COp) (i : Instr) (hp : o.cport.canonical = true)
    (h : instrC tile k.toNat o = some i) (hf : i.formFault = none) : decodeStep (slotStep 0 tile (packC k o)) = .ok i :=
  decodeStep_slotStep 0#4 tile _ i (by decide) (by simpa [slotInstr, opcodeOf_packC, unpackC_packC k o hp] using h) hf

theorem decode_M (k : BitVec 9) (tile : BitVec 8) (hi : Bool) (o : MOp) (i : Instr) (hd : o.data.canonical = true)
    (hb : o.base.canonical = true) (hx : o.index.canonical = true) (h : instrM tile hi k.toNat o = some i)
    (hf : i.formFault = none) : decodeStep (slotStep (if hi then 2 else 1) tile (packM k o)) = .ok i := by
  cases hi
  · exact decodeStep_slotStep 1#4 tile _ i (by decide)
      (by simpa [slotInstr, opcodeOf_packM, unpackM_packM k o hd hb hx] using h) hf
  · exact decodeStep_slotStep 2#4 tile _ i (by decide)
      (by simpa [slotInstr, opcodeOf_packM, unpackM_packM k o hd hb hx] using h) hf

theorem decode_S (k : BitVec 9) (tile : BitVec 8) (hi : Bool) (o : SOp) (i : Instr) (hp : o.plain) (hk : k.toNat < 0x100)
    (h : instrS tile hi k.toNat o = some i) (hf : i.formFault = none) :
    decodeStep (slotStep (if hi then 4 else 3) tile (packS k o)) = .ok i := by
  obtain ⟨h1, h2, h3⟩ := hp
  cases hi
  · exact decodeStep_slotStep 3#4 tile _ i (by decide)
      (by simpa [slotInstr, opcodeOf_packS, unpackS_packS k o h1 h2 h3, hk] using h) hf
  · exact decodeStep_slotStep 4#4 tile _ i (by decide)
      (by simpa [slotInstr, opcodeOf_packS, unpackS_packS k o h1 h2 h3, hk] using h) hf

theorem decode_V (k : BitVec 9) (tile : BitVec 8) (hi : Bool) (o : VOp) (i : Instr) (hk : ¬ k.toNat < 0x100)
    (h : instrV tile hi k.toNat o = some i) (hf : i.formFault = none) :
    decodeStep (slotStep (if hi then 4 else 3) tile (packV k o)) = .ok i := by
  cases hi
  · exact decodeStep_slotStep 3#4 tile _ i (by decide)
      (by simpa [slotInstr, opcodeOf_packV, unpackV_packV k o, hk] using h) hf
  · exact decodeStep_slotStep 4#4 tile _ i (by decide)
      (by simpa [slotInstr, opcodeOf_packV, unpackV_packV k o, hk] using h) hf

theorem decode_E (k : BitVec 9) (tile : BitVec 8) (o : EOp) (i : Instr) (hp : o.source.canonical = true)
    (h : instrE tile k.toNat o = some i) (hf : i.formFault = none) : decodeStep (slotStep 5 tile (packE k o)) = .ok i :=
  decodeStep_slotStep 5#4 tile _ i (by decide) (by simpa [slotInstr, opcodeOf_packE, unpackE_packE k o hp] using h) hf

/-- A lane that holds an operand of `n` bits fits it, and the operand comes back. -/
theorem laneFits_setWidth (n : Nat) (x : BitVec n) (h : n ≤ 64) : laneFits (x.setWidth 64) n = true := by
  simp only [laneFits, BitVec.toNat_setWidth, decide_eq_true_eq]
  have := x.isLt
  have : 2 ^ n ≤ 2 ^ 64 := Nat.pow_le_pow_right (by decide) h
  rw [Nat.mod_eq_of_lt (by omega)]; omega

theorem setWidth_back (n : Nat) (x : BitVec n) (h : n ≤ 64) : (x.setWidth 64).setWidth n = x := by
  apply BitVec.eq_of_toNat_eq
  simp only [BitVec.toNat_setWidth]
  have h1 := x.isLt
  have : 2 ^ n ≤ 2 ^ 64 := Nat.pow_le_pow_right (by decide) h
  rw [Nat.mod_eq_of_lt (a := x.toNat) (b := 2 ^ 64) (by omega), Nat.mod_eq_of_lt h1]

theorem laneFits_zero (n : Nat) : laneFits 0#64 n = true := by simp [laneFits]

/-- An event's step word decodes as its row of the table says. -/
theorem decode_event (code : BitVec 9) (l1 l2 l3 l4 : BitVec 64) (i : Instr)
    (h : instrEvent code.toNat (eventStep code l1 l2 l3 l4) = some i) : decodeStep (eventStep code l1 l2 l3 l4) = .ok i := by
  have e1 : (7#4 ++ 0#51 ++ code).extractLsb' 60 4 = 7#4 := by
    simp (disch := omega) only [BitVec.extractLsb'_append_eq_of_le]; simp
  have e2 : (7#4 ++ 0#51 ++ code).extractLsb' 0 9 = code := by
    rw [BitVec.extractLsb'_append_eq_of_add_le (by omega)]; simp
  have e3 : ∀ c : BitVec 9, laneFits (((7#4 ++ 0#51 ++ c).setWidth 60).setWidth 64) 9 = true := by decide
  unfold decodeStep
  simp only [show (eventStep code l1 l2 l3 l4).l0 = 7#4 ++ 0#51 ++ code from rfl, e1, e2, e3 code, h]
  rfl

end Sys2Proof
end

