-- ==== Sys2Proof/Laws/Issue.lean ====
section
/-! SUPPORT. What the shared operations of issue do, once for all slot operations: an operation that is ready issues with its
body's effects, and one that is not leaves the state. -/

namespace Sys2Proof.Machine

open Sys2Proof

/-- A ready operation is the one its slot takes. -/
theorem takeOp_of_ready {i : Instr} {tile slot : Nat} {s : State} {b : Bundle} (h : Ready i tile slot s b) :
    takeOp s tile slot (slotWordOf i) = some (s, b) := by
  simp only [takeOp, h.oldest, h.word, if_true]

/-- The issue of a ready operation: its body's effects, or a wait in its slot. -/
theorem issueOp_of_ready {i : Instr} {tile slot : Nat} {s : State} {b : Bundle} (h : Ready i tile slot s b)
    (body : State → Bundle → Option State) :
    issueOp i tile slot s body = match body s b with
      | none => .next s
      | some s2 => .next (markIssued s2 tile b.seq slot) := by
  simp only [issueOp, h.runs, takeOp_of_ready h, h.issues, if_true] <;> cases body s b <;> rfl

/-- A slot operation always answers a next state. -/
theorem issueOp_next (i : Instr) (tile slot : Nat) (s : State) (body : State → Bundle → Option State) :
    ∃ t, issueOp i tile slot s body = .next t := by
  unfold issueOp
  repeat' split
  all_goals exact ⟨_, rfl⟩

/-- Outside pending mode no read raises pending-read (05 R108). -/
theorem pendingTrap_normal {s : State} {tile : Nat} {ps : List Port} (h : (tileGet s tile).dbg = false) :
    pendingTrap s tile ps = none := by
  simp [pendingTrap, h]

/-- The issue of a ready scalar operation whose guard is true (07 R163). -/
theorem scalarOp_done {i : Instr} {tile : BitVec 8} {hi : Bool} {o : SOp} {s : State} {b : Bundle} {latch l : Nat}
    {extra : List Port} {f : State → Bundle → RV → RV → RV × Nat} (h : Ready i tile.toNat (xSlot hi) s b)
    (g : guardTrue s tile.toNat o.guard = true) :
    scalarOp i tile hi o latch l extra f s =
      .next (scalarDone s tile hi o b latch l (f s b (scalarArg s tile hi o b 0) (scalarArg s tile hi o b 1)).1
        (f s b (scalarArg s tile hi o b 0) (scalarArg s tile hi o b 1)).2) := by
  rw [scalarOp, issueOp_of_ready h]
  simp only [scalarRun, pendingTrap_normal h.normal, g, if_true, scalarDone, scalarArg]
  cases dstEffs (slotQ b.pushes (xSlot hi)) o.dst _ <;> rfl

/-- The issue of a ready scalar operation that is predicated off (07 R144, R145). -/
theorem scalarOp_off {i : Instr} {tile : BitVec 8} {hi : Bool} {o : SOp} {s : State} {b : Bundle} {latch l : Nat}
    {extra : List Port} {f : State → Bundle → RV → RV → RV × Nat} (h : Ready i tile.toNat (xSlot hi) s b)
    (g : guardTrue s tile.toNat o.guard = false) :
    scalarOp i tile hi o latch l extra f s =
      .next (issued s tile.toNat (xSlot hi) b l
        (latchEntries (slotQ b.pushes (xSlot hi)) (latchKey (xSlot hi) latch))) := by
  rw [scalarOp, issueOp_of_ready h]
  simp only [scalarRun, pendingTrap_normal h.normal, g, issued]
  rfl

/-- The issue of a ready access operation whose body goes through (08 R177). -/
theorem accessOp_ok {i : Instr} {tile : BitVec 8} {hi : Bool} {o : MOp} {src : Bool} {off : Option (Nat × Nat)}
    {body : Nat → Nat → State → Bundle → MVals → Except Trap (Option State)} {s s2 : State} {b : Bundle}
    (h : ReadyM i tile hi o src s b) (hb : body tile.toNat (mSlot hi) s b (accessArgs s tile hi o src b) = .ok (some s2)) :
    accessOp i tile hi o src off body s = .next (slotDone s2 tile.toNat (mSlot hi) b) := by
  rw [accessOp, issueOp_of_ready h.ready]
  have hc := h.checked
  simp only [accessArgs, accessVals] at hb hc
  simp only [accessRun, pendingTrap_normal h.ready.normal, h.guard, if_true, hc, hb, slotDone]

/-- The issue of a ready access operation whose body raises a fault (18 R397). -/
theorem accessOp_bad {i : Instr} {tile : BitVec 8} {hi : Bool} {o : MOp} {src : Bool} {off : Option (Nat × Nat)}
    {body : Nat → Nat → State → Bundle → MVals → Except Trap (Option State)} {s : State} {b : Bundle} {x : Trap}
    (h : ReadyM i tile hi o src s b) (hb : body tile.toNat (mSlot hi) s b (accessArgs s tile hi o src b) = .error x) :
    accessOp i tile hi o src off body s = .next (issuedBad s tile.toNat (mSlot hi) b x) := by
  rw [accessOp, issueOp_of_ready h.ready]
  have hc := h.checked
  simp only [accessArgs, accessVals] at hb hc
  simp only [accessRun, pendingTrap_normal h.ready.normal, h.guard, if_true, hc, hb, issuedBad]

/-- The issue of a ready operation of slot ca whose body goes through (07 R146). -/
theorem ctlOp_ok {i : Instr} {tile : BitVec 8} {o : COp} {src : Bool} {off : Nat → State → Bundle → State}
    {body : Nat → State → Bundle → Word → CtlRes} {s s2 : State} {b : Bundle} (h : ReadyC i tile o src s b)
    (hb : body tile.toNat s b (if src then ctlArg s tile o else 0) = .ok (some s2)) :
    ctlOp i tile o src off body s = .next (slotDone s2 tile.toNat 0 b) := by
  rw [ctlOp, issueOp_of_ready h.ready]
  have hc := h.checked
  cases src
  · simp only [Bool.false_eq_true, if_false, readPorts] at hb hc
    simp only [ctlRun, pendingTrap_normal h.ready.normal, h.guard, if_true, Bool.false_eq_true, if_false, readPorts, hc,
      List.getD_nil, rvOf, hb, slotDone]
  · simp only [if_true, ctlArg] at hb hc
    simp only [ctlRun, pendingTrap_normal h.ready.normal, h.guard, if_true, hc, hb, slotDone]

/-- The issue of a ready operation of slot ca whose body raises a fault (18 R397). -/
theorem ctlOp_bad {i : Instr} {tile : BitVec 8} {o : COp} {src : Bool} {off : Nat → State → Bundle → State}
    {body : Nat → State → Bundle → Word → CtlRes} {s : State} {b : Bundle} {x : Trap} (h : ReadyC i tile o src s b)
    (hb : body tile.toNat s b (if src then ctlArg s tile o else 0) = .error x) :
    ctlOp i tile o src off body s = .next (issuedBad s tile.toNat 0 b x) := by
  rw [ctlOp, issueOp_of_ready h.ready]
  have hc := h.checked
  cases src
  · simp only [Bool.false_eq_true, if_false, readPorts] at hb hc
    simp only [ctlRun, pendingTrap_normal h.ready.normal, h.guard, if_true, Bool.false_eq_true, if_false, readPorts, hc,
      List.getD_nil, rvOf, hb, issuedBad]
  · simp only [if_true, ctlArg] at hb hc
    simp only [ctlRun, pendingTrap_normal h.ready.normal, h.guard, if_true, hc, hb, issuedBad]

/-- A ready operation of slot ca whose body waits stays in its slot (05 R100). -/
theorem ctlOp_wait {i : Instr} {tile : BitVec 8} {o : COp} {src : Bool} {off : Nat → State → Bundle → State}
    {body : Nat → State → Bundle → Word → CtlRes} {s : State} {b : Bundle} (h : ReadyC i tile o src s b)
    (hb : body tile.toNat s b (if src then ctlArg s tile o else 0) = .ok none) :
    ctlOp i tile o src off body s = .next s := by
  rw [ctlOp, issueOp_of_ready h.ready]
  have hc := h.checked
  cases src
  · simp only [Bool.false_eq_true, if_false, readPorts] at hb hc
    simp only [ctlRun, pendingTrap_normal h.ready.normal, h.guard, if_true, Bool.false_eq_true, if_false, readPorts, hc,
      List.getD_nil, rvOf, hb]
  · simp only [if_true, ctlArg] at hb hc
    simp only [ctlRun, pendingTrap_normal h.ready.normal, h.guard, if_true, hc, hb]

/-- The issue of a ready operation of slot ca that is predicated off (07 R144). -/
theorem ctlOp_off {i : Instr} {tile : BitVec 8} {o : COp} {src : Bool} {off : Nat → State → Bundle → State}
    {body : Nat → State → Bundle → Word → CtlRes} {s : State} {b : Bundle} (h : Ready i tile.toNat 0 s b)
    (g : guardTrue s tile.toNat o.guard = false) :
    ctlOp i tile o src off body s = .next (slotDone (off tile.toNat s b) tile.toNat 0 b) := by
  rw [ctlOp, issueOp_of_ready h]
  simp [ctlRun, pendingTrap_normal h.normal, g, slotDone]

/-- A ready access operation whose body waits stays in its slot (05 R100). -/
theorem accessOp_wait {i : Instr} {tile : BitVec 8} {hi : Bool} {o : MOp} {src : Bool} {off : Option (Nat × Nat)}
    {body : Nat → Nat → State → Bundle → MVals → Except Trap (Option State)} {s : State} {b : Bundle}
    (h : ReadyM i tile hi o src s b) (hb : body tile.toNat (mSlot hi) s b (accessArgs s tile hi o src b) = .ok none) :
    accessOp i tile hi o src off body s = .next s := by
  rw [accessOp, issueOp_of_ready h.ready]
  have hc := h.checked
  simp only [accessArgs, accessVals] at hb hc
  simp only [accessRun, pendingTrap_normal h.ready.normal, h.guard, if_true, hc, hb]

end Sys2Proof.Machine
end

