-- ==== Sys2Proof/Laws/Maps.lean ====
section
/-! SUPPORT. Sparse tables and byte memories: a read after a write, and the canonical form that every memory operation keeps. -/

namespace Sys2Proof.Machine

open Sys2Proof

variable {α : Type}

@[simp] theorem mapGet?_mapPut_same (m : NMap α) (i : Nat) (x : α) : mapGet? (mapPut m i x) i = some x := by
  induction m with
  | nil => simp [mapPut, mapGet?]
  | cons h m ih =>
    obtain ⟨k, v⟩ := h
    simp only [mapPut]
    split
    · simp [mapGet?]
    · split
      · simp [mapGet?]
      · rw [mapGet?, if_neg (fun e => by omega), ih]

@[simp] theorem mapGet?_mapPut_other (m : NMap α) {i j : Nat} (x : α) (h : i ≠ j) : mapGet? (mapPut m i x) j = mapGet? m j := by
  induction m with
  | nil => simp [mapPut, mapGet?, h]
  | cons e m ih =>
    obtain ⟨k, v⟩ := e
    simp only [mapPut]
    split
    · simp [mapGet?, h]
    · split
      · rename_i hk; subst hk; simp [mapGet?, h]
      · simp only [mapGet?, ih]

@[simp] theorem mapGet_mapPut_same (m : NMap α) (i : Nat) (x d : α) : mapGet (mapPut m i x) i d = x := by simp [mapGet]

@[simp] theorem mapGet_mapPut_other (m : NMap α) {i j : Nat} (x d : α) (h : i ≠ j) : mapGet (mapPut m i x) j d = mapGet m j d := by
  simp [mapGet, h]

/-- The canonical form from a bound holds from any lower bound. -/
theorem memWfFrom_mono {lo lo' : Nat} {m : Mem} (h : memWfFrom lo m = true) (hl : lo' ≤ lo) : memWfFrom lo' m = true := by
  cases m with
  | nil => rfl
  | cons c m =>
    simp only [memWfFrom, Bool.and_eq_true, decide_eq_true_eq] at *
    exact ⟨⟨by omega, h.1.2⟩, h.2⟩

theorem mapPut_memWfFrom {lo : Nat} {m : Mem} (h : memWfFrom lo m = true) {a : Nat} {b : Byte} (ha : lo ≤ a) (hb : b ≠ 0) :
    memWfFrom lo (mapPut m a b) = true := by
  induction m generalizing lo with
  | nil => simp only [mapPut, memWfFrom, Bool.and_eq_true, decide_eq_true_eq, and_true]; exact ⟨ha, hb⟩
  | cons c m ih =>
    obtain ⟨k, v⟩ := c
    simp only [memWfFrom, Bool.and_eq_true, decide_eq_true_eq] at h
    simp only [mapPut]
    split
    · simp only [memWfFrom, Bool.and_eq_true, decide_eq_true_eq]
      exact ⟨⟨ha, hb⟩, ⟨by omega, h.1.2⟩, h.2⟩
    · split
      · rename_i hk; subst hk
        simp only [memWfFrom, Bool.and_eq_true, decide_eq_true_eq]
        exact ⟨⟨ha, hb⟩, h.2⟩
      · simp only [memWfFrom, Bool.and_eq_true, decide_eq_true_eq]
        exact ⟨h.1, ih h.2 (by omega)⟩

theorem mapDel_memWfFrom {lo : Nat} {m : Mem} (h : memWfFrom lo m = true) (a : Nat) : memWfFrom lo (mapDel m a) = true := by
  induction m generalizing lo with
  | nil => rfl
  | cons c m ih =>
    obtain ⟨k, v⟩ := c
    simp only [memWfFrom, Bool.and_eq_true, decide_eq_true_eq] at h
    simp only [mapDel]
    split
    · exact memWfFrom_mono h.2 (by omega)
    · simp only [memWfFrom, Bool.and_eq_true, decide_eq_true_eq]
      exact ⟨h.1, ih h.2⟩

theorem filter_memWfFrom {lo : Nat} {m : Mem} (h : memWfFrom lo m = true) (p : Host.Cell → Bool) : memWfFrom lo (m.filter p) = true := by
  induction m generalizing lo with
  | nil => rfl
  | cons c m ih =>
    obtain ⟨k, v⟩ := c
    simp only [memWfFrom, Bool.and_eq_true, decide_eq_true_eq] at h
    simp only [List.filter]
    split
    · simp only [memWfFrom, Bool.and_eq_true, decide_eq_true_eq]
      exact ⟨h.1, ih h.2⟩
    · exact memWfFrom_mono (ih h.2) (by omega)

/-- Writing a byte keeps the canonical form. -/
theorem memPut_wf {m : Mem} (h : memWf m = true) (a : Nat) (b : Byte) : memWf (memPut m a b) = true := by
  unfold memPut memWf at *
  split
  · exact mapDel_memWfFrom h a
  · rename_i hb; exact mapPut_memWfFrom h (Nat.zero_le a) hb

theorem memPutList_wf {m : Mem} (h : memWf m = true) (a : Nat) (bs : List Byte) : memWf (memPutList m a bs) = true := by
  induction bs generalizing m a with
  | nil => exact h
  | cons b bs ih => exact ih (memPut_wf h a b) (a + 1)

theorem memPutNat_wf {m : Mem} (h : memWf m = true) (a n x : Nat) : memWf (memPutNat m a n x) = true := memPutList_wf h a _

theorem memPutCells_wf {m : Mem} (h : memWf m = true) (cs : List Host.Cell) : memWf (memPutCells m cs) = true := by
  induction cs generalizing m with
  | nil => exact h
  | cons c cs ih => exact ih (memPut_wf h c.1 c.2)

theorem memZero_wf {m : Mem} (h : memWf m = true) (a n : Nat) : memWf (memZero m a n) = true := filter_memWfFrom h _

/-- Two stretches of cells join into a canonical memory when the second starts above the first. -/
theorem append_memWfFrom {lo mid : Nat} {x y : Mem} (hx : memWfFrom lo x = true) (hm : ∀ c ∈ x, c.1 < mid) (hl : lo ≤ mid)
    (hy : memWfFrom mid y = true) : memWfFrom lo (x ++ y) = true := by
  induction x generalizing lo with
  | nil => exact memWfFrom_mono hy hl
  | cons c x ih =>
    obtain ⟨k, v⟩ := c
    simp only [memWfFrom, Bool.and_eq_true, decide_eq_true_eq, List.cons_append] at *
    exact ⟨hx.1, ih hx.2 (fun c hc => hm c (List.mem_cons_of_mem _ hc)) (hm (k, v) List.mem_cons_self)⟩

/-- Cells that all lie from `lo` on are canonical from `lo` on. -/
theorem memWfFrom_of_ge {lo : Nat} {m : Mem} (h : memWf m = true) (hl : ∀ c ∈ m, lo ≤ c.1) : memWfFrom lo m = true := by
  cases m with
  | nil => rfl
  | cons c m =>
    simp only [memWf, memWfFrom, Bool.and_eq_true, decide_eq_true_eq] at *
    exact ⟨⟨hl c List.mem_cons_self, h.1.2⟩, h.2⟩

/-- Replacing a stretch of memory keeps the canonical form. -/
theorem memSplice_wf {m cs : Mem} (h : memWf m = true) (hc : memWf cs = true) (a n : Nat) : memWf (memSplice m a n cs) = true := by
  unfold memSplice memWf
  rw [List.append_assoc]
  refine append_memWfFrom (mid := a) (filter_memWfFrom h _) ?_ (Nat.zero_le a) (append_memWfFrom (mid := a + n) ?_ ?_ (by omega) ?_)
  · intro c hx; simpa using (List.mem_filter.mp hx).2
  · refine memWfFrom_of_ge (filter_memWfFrom hc _) fun c hx => ?_
    have := (List.mem_filter.mp hx).2
    simp only [Bool.and_eq_true, decide_eq_true_eq] at this; exact this.1
  · intro c hx
    have := (List.mem_filter.mp hx).2
    simp only [Bool.and_eq_true, decide_eq_true_eq] at this; exact this.2
  · exact memWfFrom_of_ge (filter_memWfFrom h _) fun c hx => by simpa using (List.mem_filter.mp hx).2

theorem mapGet?_ne_of_wf {lo a : Nat} {m : Mem} (h : memWfFrom lo m = true) (ha : a < lo) : mapGet? m a = none := by
  induction m generalizing lo with
  | nil => rfl
  | cons c m ih =>
    obtain ⟨k, v⟩ := c
    simp only [memWfFrom, Bool.and_eq_true, decide_eq_true_eq] at h
    simp only [mapGet?]
    rw [if_neg (by omega)]
    exact ih h.2 (by omega)

theorem mapGet?_mapDel_same {lo : Nat} {m : Mem} (h : memWfFrom lo m = true) (a : Nat) : mapGet? (mapDel m a) a = none := by
  induction m generalizing lo with
  | nil => rfl
  | cons c m ih =>
    obtain ⟨k, v⟩ := c
    simp only [memWfFrom, Bool.and_eq_true, decide_eq_true_eq] at h
    simp only [mapDel]
    split
    · rename_i hk; subst hk; exact mapGet?_ne_of_wf h.2 (by omega)
    · rename_i hk; simp only [mapGet?, if_neg hk]; exact ih h.2

theorem mapGet?_mapDel_other (m : Mem) {a c : Nat} (h : a ≠ c) : mapGet? (mapDel m a) c = mapGet? m c := by
  induction m with
  | nil => rfl
  | cons e m ih =>
    obtain ⟨k, v⟩ := e
    simp only [mapDel]
    split
    · rename_i hk; subst hk; simp [mapGet?, h]
    · simp only [mapGet?, ih]

/-- A byte read after a write to its address is the byte written. -/
theorem memGet_memPut_same {m : Mem} (h : memWf m = true) (a : Nat) (b : Byte) : memGet (memPut m a b) a = b := by
  unfold memPut memGet
  split
  · rename_i hb; subst hb; simp [mapGet, mapGet?_mapDel_same h a]
  · simp

/-- A write leaves every other address alone. -/
theorem memGet_memPut_other (m : Mem) {a c : Nat} (b : Byte) (h : a ≠ c) : memGet (memPut m a b) c = memGet m c := by
  unfold memPut memGet
  split
  · simp [mapGet, mapGet?_mapDel_other m h]
  · simp [h]

end Sys2Proof.Machine
end

