-- ==== Sys2Proof/Laws/State.lean ====
section
/-! SUPPORT. One lemma per field of State and update: what putting a tile, a core, a die, a host, a node or a pack back leaves. -/

namespace Sys2Proof.Machine

open Sys2Proof

@[simp] theorem tilePut_agenda (s : State) (n : Nat) (t : Tile) : (tilePut s n t).agenda = s.agenda := rfl
@[simp] theorem tilePut_turn (s : State) (n : Nat) (t : Tile) : (tilePut s n t).turn = s.turn := rfl
@[simp] theorem tilePut_free (s : State) (n : Nat) (t : Tile) : (tilePut s n t).free = s.free := rfl
@[simp] theorem tilePut_sets (s : State) (n : Nat) (t : Tile) : (tilePut s n t).sets = s.sets := rfl
@[simp] theorem tilePut_clock (s : State) (n : Nat) (t : Tile) : (tilePut s n t).clock = s.clock := rfl
@[simp] theorem tilePut_timeAdj (s : State) (n : Nat) (t : Tile) : (tilePut s n t).timeAdj = s.timeAdj := rfl
@[simp] theorem tilePut_slew (s : State) (n : Nat) (t : Tile) : (tilePut s n t).slew = s.slew := rfl
@[simp] theorem tilePut_point (s : State) (n : Nat) (t : Tile) : (tilePut s n t).point = s.point := rfl
@[simp] theorem tilePut_freqTarget (s : State) (n : Nat) (t : Tile) : (tilePut s n t).freqTarget = s.freqTarget := rfl
@[simp] theorem tilePut_freqFrom (s : State) (n : Nat) (t : Tile) : (tilePut s n t).freqFrom = s.freqFrom := rfl
@[simp] theorem tilePut_freqBusy (s : State) (n : Nat) (t : Tile) : (tilePut s n t).freqBusy = s.freqBusy := rfl
@[simp] theorem tilePut_clockStop (s : State) (n : Nat) (t : Tile) : (tilePut s n t).clockStop = s.clockStop := rfl
@[simp] theorem tilePut_flashPoint (s : State) (n : Nat) (t : Tile) : (tilePut s n t).flashPoint = s.flashPoint := rfl
@[simp] theorem tilePut_flashMgmt (s : State) (n : Nat) (t : Tile) : (tilePut s n t).flashMgmt = s.flashMgmt := rfl
@[simp] theorem tilePut_mem (s : State) (n : Nat) (t : Tile) : (tilePut s n t).mem = s.mem := rfl
@[simp] theorem tilePut_hostMem0 (s : State) (n : Nat) (t : Tile) : (tilePut s n t).hostMem0 = s.hostMem0 := rfl
@[simp] theorem tilePut_hostMem1 (s : State) (n : Nat) (t : Tile) : (tilePut s n t).hostMem1 = s.hostMem1 := rfl
@[simp] theorem tilePut_lostGran (s : State) (n : Nat) (t : Tile) : (tilePut s n t).lostGran = s.lostGran := rfl
@[simp] theorem tilePut_symErr (s : State) (n : Nat) (t : Tile) : (tilePut s n t).symErr = s.symErr := rfl
@[simp] theorem tilePut_dies (s : State) (n : Nat) (t : Tile) : (tilePut s n t).dies = s.dies := rfl
@[simp] theorem tilePut_portsLost (s : State) (n : Nat) (t : Tile) : (tilePut s n t).portsLost = s.portsLost := rfl
@[simp] theorem tilePut_links (s : State) (n : Nat) (t : Tile) : (tilePut s n t).links = s.links := rfl
@[simp] theorem tilePut_hosts (s : State) (n : Nat) (t : Tile) : (tilePut s n t).hosts = s.hosts := rfl
@[simp] theorem tilePut_mgmt (s : State) (n : Nat) (t : Tile) : (tilePut s n t).mgmt = s.mgmt := rfl
@[simp] theorem tilePut_flash (s : State) (n : Nat) (t : Tile) : (tilePut s n t).flash = s.flash := rfl
@[simp] theorem tilePut_bankMarks (s : State) (n : Nat) (t : Tile) : (tilePut s n t).bankMarks = s.bankMarks := rfl
@[simp] theorem tilePut_strands (s : State) (n : Nat) (t : Tile) : (tilePut s n t).strands = s.strands := rfl
@[simp] theorem tilePut_nodes (s : State) (n : Nat) (t : Tile) : (tilePut s n t).nodes = s.nodes := rfl
@[simp] theorem tilePut_packs (s : State) (n : Nat) (t : Tile) : (tilePut s n t).packs = s.packs := rfl
@[simp] theorem tilePut_nextOrder (s : State) (n : Nat) (t : Tile) : (tilePut s n t).nextOrder = s.nextOrder := rfl
@[simp] theorem tilePut_drrTurn (s : State) (n : Nat) (t : Tile) : (tilePut s n t).drrTurn = s.drrTurn := rfl
@[simp] theorem tilePut_touched (s : State) (n : Nat) (t : Tile) : (tilePut s n t).touched = s.touched := rfl
@[simp] theorem tilePut_saved (s : State) (n : Nat) (t : Tile) : (tilePut s n t).saved = s.saved := rfl
@[simp] theorem tilePut_agents (s : State) (n : Nat) (t : Tile) : (tilePut s n t).agents = s.agents := rfl
@[simp] theorem tilePut_nextAgent (s : State) (n : Nat) (t : Tile) : (tilePut s n t).nextAgent = s.nextAgent := rfl
@[simp] theorem tilePut_releases (s : State) (n : Nat) (t : Tile) : (tilePut s n t).releases = s.releases := rfl
@[simp] theorem tilePut_records (s : State) (n : Nat) (t : Tile) : (tilePut s n t).records = s.records := rfl
@[simp] theorem tilePut_lastTag (s : State) (n : Nat) (t : Tile) : (tilePut s n t).lastTag = s.lastTag := rfl
@[simp] theorem tilePut_waits (s : State) (n : Nat) (t : Tile) : (tilePut s n t).waits = s.waits := rfl
@[simp] theorem tilePut_owed (s : State) (n : Nat) (t : Tile) : (tilePut s n t).owed = s.owed := rfl
@[simp] theorem tilePut_recQ (s : State) (n : Nat) (t : Tile) : (tilePut s n t).recQ = s.recQ := rfl
@[simp] theorem tilePut_msix (s : State) (n : Nat) (t : Tile) : (tilePut s n t).msix = s.msix := rfl
@[simp] theorem tilePut_patrol (s : State) (n : Nat) (t : Tile) : (tilePut s n t).patrol = s.patrol := rfl

@[simp] theorem corePut_agenda (s : State) (n : Nat) (c : Core) : (corePut s n c).agenda = s.agenda := rfl
@[simp] theorem corePut_turn (s : State) (n : Nat) (c : Core) : (corePut s n c).turn = s.turn := rfl
@[simp] theorem corePut_free (s : State) (n : Nat) (c : Core) : (corePut s n c).free = s.free := rfl
@[simp] theorem corePut_sets (s : State) (n : Nat) (c : Core) : (corePut s n c).sets = s.sets := rfl
@[simp] theorem corePut_clock (s : State) (n : Nat) (c : Core) : (corePut s n c).clock = s.clock := rfl
@[simp] theorem corePut_timeAdj (s : State) (n : Nat) (c : Core) : (corePut s n c).timeAdj = s.timeAdj := rfl
@[simp] theorem corePut_slew (s : State) (n : Nat) (c : Core) : (corePut s n c).slew = s.slew := rfl
@[simp] theorem corePut_point (s : State) (n : Nat) (c : Core) : (corePut s n c).point = s.point := rfl
@[simp] theorem corePut_freqTarget (s : State) (n : Nat) (c : Core) : (corePut s n c).freqTarget = s.freqTarget := rfl
@[simp] theorem corePut_freqFrom (s : State) (n : Nat) (c : Core) : (corePut s n c).freqFrom = s.freqFrom := rfl
@[simp] theorem corePut_freqBusy (s : State) (n : Nat) (c : Core) : (corePut s n c).freqBusy = s.freqBusy := rfl
@[simp] theorem corePut_clockStop (s : State) (n : Nat) (c : Core) : (corePut s n c).clockStop = s.clockStop := rfl
@[simp] theorem corePut_flashPoint (s : State) (n : Nat) (c : Core) : (corePut s n c).flashPoint = s.flashPoint := rfl
@[simp] theorem corePut_flashMgmt (s : State) (n : Nat) (c : Core) : (corePut s n c).flashMgmt = s.flashMgmt := rfl
@[simp] theorem corePut_mem (s : State) (n : Nat) (c : Core) : (corePut s n c).mem = s.mem := rfl
@[simp] theorem corePut_hostMem0 (s : State) (n : Nat) (c : Core) : (corePut s n c).hostMem0 = s.hostMem0 := rfl
@[simp] theorem corePut_hostMem1 (s : State) (n : Nat) (c : Core) : (corePut s n c).hostMem1 = s.hostMem1 := rfl
@[simp] theorem corePut_lostGran (s : State) (n : Nat) (c : Core) : (corePut s n c).lostGran = s.lostGran := rfl
@[simp] theorem corePut_symErr (s : State) (n : Nat) (c : Core) : (corePut s n c).symErr = s.symErr := rfl
@[simp] theorem corePut_dies (s : State) (n : Nat) (c : Core) : (corePut s n c).dies = s.dies := rfl
@[simp] theorem corePut_portsLost (s : State) (n : Nat) (c : Core) : (corePut s n c).portsLost = s.portsLost := rfl
@[simp] theorem corePut_links (s : State) (n : Nat) (c : Core) : (corePut s n c).links = s.links := rfl
@[simp] theorem corePut_hosts (s : State) (n : Nat) (c : Core) : (corePut s n c).hosts = s.hosts := rfl
@[simp] theorem corePut_mgmt (s : State) (n : Nat) (c : Core) : (corePut s n c).mgmt = s.mgmt := rfl
@[simp] theorem corePut_flash (s : State) (n : Nat) (c : Core) : (corePut s n c).flash = s.flash := rfl
@[simp] theorem corePut_bankMarks (s : State) (n : Nat) (c : Core) : (corePut s n c).bankMarks = s.bankMarks := rfl
@[simp] theorem corePut_strands (s : State) (n : Nat) (c : Core) : (corePut s n c).strands = s.strands := rfl
@[simp] theorem corePut_nodes (s : State) (n : Nat) (c : Core) : (corePut s n c).nodes = s.nodes := rfl
@[simp] theorem corePut_packs (s : State) (n : Nat) (c : Core) : (corePut s n c).packs = s.packs := rfl
@[simp] theorem corePut_nextOrder (s : State) (n : Nat) (c : Core) : (corePut s n c).nextOrder = s.nextOrder := rfl
@[simp] theorem corePut_drrTurn (s : State) (n : Nat) (c : Core) : (corePut s n c).drrTurn = s.drrTurn := rfl
@[simp] theorem corePut_touched (s : State) (n : Nat) (c : Core) : (corePut s n c).touched = s.touched := rfl
@[simp] theorem corePut_saved (s : State) (n : Nat) (c : Core) : (corePut s n c).saved = s.saved := rfl
@[simp] theorem corePut_agents (s : State) (n : Nat) (c : Core) : (corePut s n c).agents = s.agents := rfl
@[simp] theorem corePut_nextAgent (s : State) (n : Nat) (c : Core) : (corePut s n c).nextAgent = s.nextAgent := rfl
@[simp] theorem corePut_releases (s : State) (n : Nat) (c : Core) : (corePut s n c).releases = s.releases := rfl
@[simp] theorem corePut_records (s : State) (n : Nat) (c : Core) : (corePut s n c).records = s.records := rfl
@[simp] theorem corePut_lastTag (s : State) (n : Nat) (c : Core) : (corePut s n c).lastTag = s.lastTag := rfl
@[simp] theorem corePut_waits (s : State) (n : Nat) (c : Core) : (corePut s n c).waits = s.waits := rfl
@[simp] theorem corePut_owed (s : State) (n : Nat) (c : Core) : (corePut s n c).owed = s.owed := rfl
@[simp] theorem corePut_recQ (s : State) (n : Nat) (c : Core) : (corePut s n c).recQ = s.recQ := rfl
@[simp] theorem corePut_msix (s : State) (n : Nat) (c : Core) : (corePut s n c).msix = s.msix := rfl
@[simp] theorem corePut_patrol (s : State) (n : Nat) (c : Core) : (corePut s n c).patrol = s.patrol := rfl

@[simp] theorem diePut_agenda (s : State) (n : Nat) (d : Die) : (diePut s n d).agenda = s.agenda := rfl
@[simp] theorem diePut_turn (s : State) (n : Nat) (d : Die) : (diePut s n d).turn = s.turn := rfl
@[simp] theorem diePut_free (s : State) (n : Nat) (d : Die) : (diePut s n d).free = s.free := rfl
@[simp] theorem diePut_sets (s : State) (n : Nat) (d : Die) : (diePut s n d).sets = s.sets := rfl
@[simp] theorem diePut_clock (s : State) (n : Nat) (d : Die) : (diePut s n d).clock = s.clock := rfl
@[simp] theorem diePut_timeAdj (s : State) (n : Nat) (d : Die) : (diePut s n d).timeAdj = s.timeAdj := rfl
@[simp] theorem diePut_slew (s : State) (n : Nat) (d : Die) : (diePut s n d).slew = s.slew := rfl
@[simp] theorem diePut_point (s : State) (n : Nat) (d : Die) : (diePut s n d).point = s.point := rfl
@[simp] theorem diePut_freqTarget (s : State) (n : Nat) (d : Die) : (diePut s n d).freqTarget = s.freqTarget := rfl
@[simp] theorem diePut_freqFrom (s : State) (n : Nat) (d : Die) : (diePut s n d).freqFrom = s.freqFrom := rfl
@[simp] theorem diePut_freqBusy (s : State) (n : Nat) (d : Die) : (diePut s n d).freqBusy = s.freqBusy := rfl
@[simp] theorem diePut_clockStop (s : State) (n : Nat) (d : Die) : (diePut s n d).clockStop = s.clockStop := rfl
@[simp] theorem diePut_flashPoint (s : State) (n : Nat) (d : Die) : (diePut s n d).flashPoint = s.flashPoint := rfl
@[simp] theorem diePut_flashMgmt (s : State) (n : Nat) (d : Die) : (diePut s n d).flashMgmt = s.flashMgmt := rfl
@[simp] theorem diePut_mem (s : State) (n : Nat) (d : Die) : (diePut s n d).mem = s.mem := rfl
@[simp] theorem diePut_hostMem0 (s : State) (n : Nat) (d : Die) : (diePut s n d).hostMem0 = s.hostMem0 := rfl
@[simp] theorem diePut_hostMem1 (s : State) (n : Nat) (d : Die) : (diePut s n d).hostMem1 = s.hostMem1 := rfl
@[simp] theorem diePut_lostGran (s : State) (n : Nat) (d : Die) : (diePut s n d).lostGran = s.lostGran := rfl
@[simp] theorem diePut_symErr (s : State) (n : Nat) (d : Die) : (diePut s n d).symErr = s.symErr := rfl
@[simp] theorem diePut_tiles (s : State) (n : Nat) (d : Die) : (diePut s n d).tiles = s.tiles := rfl
@[simp] theorem diePut_portsLost (s : State) (n : Nat) (d : Die) : (diePut s n d).portsLost = s.portsLost := rfl
@[simp] theorem diePut_links (s : State) (n : Nat) (d : Die) : (diePut s n d).links = s.links := rfl
@[simp] theorem diePut_hosts (s : State) (n : Nat) (d : Die) : (diePut s n d).hosts = s.hosts := rfl
@[simp] theorem diePut_mgmt (s : State) (n : Nat) (d : Die) : (diePut s n d).mgmt = s.mgmt := rfl
@[simp] theorem diePut_flash (s : State) (n : Nat) (d : Die) : (diePut s n d).flash = s.flash := rfl
@[simp] theorem diePut_bankMarks (s : State) (n : Nat) (d : Die) : (diePut s n d).bankMarks = s.bankMarks := rfl
@[simp] theorem diePut_strands (s : State) (n : Nat) (d : Die) : (diePut s n d).strands = s.strands := rfl
@[simp] theorem diePut_nodes (s : State) (n : Nat) (d : Die) : (diePut s n d).nodes = s.nodes := rfl
@[simp] theorem diePut_packs (s : State) (n : Nat) (d : Die) : (diePut s n d).packs = s.packs := rfl
@[simp] theorem diePut_nextOrder (s : State) (n : Nat) (d : Die) : (diePut s n d).nextOrder = s.nextOrder := rfl
@[simp] theorem diePut_drrTurn (s : State) (n : Nat) (d : Die) : (diePut s n d).drrTurn = s.drrTurn := rfl
@[simp] theorem diePut_touched (s : State) (n : Nat) (d : Die) : (diePut s n d).touched = s.touched := rfl
@[simp] theorem diePut_saved (s : State) (n : Nat) (d : Die) : (diePut s n d).saved = s.saved := rfl
@[simp] theorem diePut_agents (s : State) (n : Nat) (d : Die) : (diePut s n d).agents = s.agents := rfl
@[simp] theorem diePut_nextAgent (s : State) (n : Nat) (d : Die) : (diePut s n d).nextAgent = s.nextAgent := rfl
@[simp] theorem diePut_releases (s : State) (n : Nat) (d : Die) : (diePut s n d).releases = s.releases := rfl
@[simp] theorem diePut_records (s : State) (n : Nat) (d : Die) : (diePut s n d).records = s.records := rfl
@[simp] theorem diePut_lastTag (s : State) (n : Nat) (d : Die) : (diePut s n d).lastTag = s.lastTag := rfl
@[simp] theorem diePut_waits (s : State) (n : Nat) (d : Die) : (diePut s n d).waits = s.waits := rfl
@[simp] theorem diePut_owed (s : State) (n : Nat) (d : Die) : (diePut s n d).owed = s.owed := rfl
@[simp] theorem diePut_recQ (s : State) (n : Nat) (d : Die) : (diePut s n d).recQ = s.recQ := rfl
@[simp] theorem diePut_msix (s : State) (n : Nat) (d : Die) : (diePut s n d).msix = s.msix := rfl
@[simp] theorem diePut_patrol (s : State) (n : Nat) (d : Die) : (diePut s n d).patrol = s.patrol := rfl

@[simp] theorem hostPut_agenda (s : State) (n : Nat) (h : HostBlk) : (hostPut s n h).agenda = s.agenda := rfl
@[simp] theorem hostPut_turn (s : State) (n : Nat) (h : HostBlk) : (hostPut s n h).turn = s.turn := rfl
@[simp] theorem hostPut_free (s : State) (n : Nat) (h : HostBlk) : (hostPut s n h).free = s.free := rfl
@[simp] theorem hostPut_sets (s : State) (n : Nat) (h : HostBlk) : (hostPut s n h).sets = s.sets := rfl
@[simp] theorem hostPut_clock (s : State) (n : Nat) (h : HostBlk) : (hostPut s n h).clock = s.clock := rfl
@[simp] theorem hostPut_timeAdj (s : State) (n : Nat) (h : HostBlk) : (hostPut s n h).timeAdj = s.timeAdj := rfl
@[simp] theorem hostPut_slew (s : State) (n : Nat) (h : HostBlk) : (hostPut s n h).slew = s.slew := rfl
@[simp] theorem hostPut_point (s : State) (n : Nat) (h : HostBlk) : (hostPut s n h).point = s.point := rfl
@[simp] theorem hostPut_freqTarget (s : State) (n : Nat) (h : HostBlk) : (hostPut s n h).freqTarget = s.freqTarget := rfl
@[simp] theorem hostPut_freqFrom (s : State) (n : Nat) (h : HostBlk) : (hostPut s n h).freqFrom = s.freqFrom := rfl
@[simp] theorem hostPut_freqBusy (s : State) (n : Nat) (h : HostBlk) : (hostPut s n h).freqBusy = s.freqBusy := rfl
@[simp] theorem hostPut_clockStop (s : State) (n : Nat) (h : HostBlk) : (hostPut s n h).clockStop = s.clockStop := rfl
@[simp] theorem hostPut_flashPoint (s : State) (n : Nat) (h : HostBlk) : (hostPut s n h).flashPoint = s.flashPoint := rfl
@[simp] theorem hostPut_flashMgmt (s : State) (n : Nat) (h : HostBlk) : (hostPut s n h).flashMgmt = s.flashMgmt := rfl
@[simp] theorem hostPut_mem (s : State) (n : Nat) (h : HostBlk) : (hostPut s n h).mem = s.mem := rfl
@[simp] theorem hostPut_hostMem0 (s : State) (n : Nat) (h : HostBlk) : (hostPut s n h).hostMem0 = s.hostMem0 := rfl
@[simp] theorem hostPut_hostMem1 (s : State) (n : Nat) (h : HostBlk) : (hostPut s n h).hostMem1 = s.hostMem1 := rfl
@[simp] theorem hostPut_lostGran (s : State) (n : Nat) (h : HostBlk) : (hostPut s n h).lostGran = s.lostGran := rfl
@[simp] theorem hostPut_symErr (s : State) (n : Nat) (h : HostBlk) : (hostPut s n h).symErr = s.symErr := rfl
@[simp] theorem hostPut_tiles (s : State) (n : Nat) (h : HostBlk) : (hostPut s n h).tiles = s.tiles := rfl
@[simp] theorem hostPut_dies (s : State) (n : Nat) (h : HostBlk) : (hostPut s n h).dies = s.dies := rfl
@[simp] theorem hostPut_portsLost (s : State) (n : Nat) (h : HostBlk) : (hostPut s n h).portsLost = s.portsLost := rfl
@[simp] theorem hostPut_links (s : State) (n : Nat) (h : HostBlk) : (hostPut s n h).links = s.links := rfl
@[simp] theorem hostPut_mgmt (s : State) (n : Nat) (h : HostBlk) : (hostPut s n h).mgmt = s.mgmt := rfl
@[simp] theorem hostPut_flash (s : State) (n : Nat) (h : HostBlk) : (hostPut s n h).flash = s.flash := rfl
@[simp] theorem hostPut_bankMarks (s : State) (n : Nat) (h : HostBlk) : (hostPut s n h).bankMarks = s.bankMarks := rfl
@[simp] theorem hostPut_strands (s : State) (n : Nat) (h : HostBlk) : (hostPut s n h).strands = s.strands := rfl
@[simp] theorem hostPut_nodes (s : State) (n : Nat) (h : HostBlk) : (hostPut s n h).nodes = s.nodes := rfl
@[simp] theorem hostPut_packs (s : State) (n : Nat) (h : HostBlk) : (hostPut s n h).packs = s.packs := rfl
@[simp] theorem hostPut_nextOrder (s : State) (n : Nat) (h : HostBlk) : (hostPut s n h).nextOrder = s.nextOrder := rfl
@[simp] theorem hostPut_drrTurn (s : State) (n : Nat) (h : HostBlk) : (hostPut s n h).drrTurn = s.drrTurn := rfl
@[simp] theorem hostPut_touched (s : State) (n : Nat) (h : HostBlk) : (hostPut s n h).touched = s.touched := rfl
@[simp] theorem hostPut_saved (s : State) (n : Nat) (h : HostBlk) : (hostPut s n h).saved = s.saved := rfl
@[simp] theorem hostPut_agents (s : State) (n : Nat) (h : HostBlk) : (hostPut s n h).agents = s.agents := rfl
@[simp] theorem hostPut_nextAgent (s : State) (n : Nat) (h : HostBlk) : (hostPut s n h).nextAgent = s.nextAgent := rfl
@[simp] theorem hostPut_releases (s : State) (n : Nat) (h : HostBlk) : (hostPut s n h).releases = s.releases := rfl
@[simp] theorem hostPut_records (s : State) (n : Nat) (h : HostBlk) : (hostPut s n h).records = s.records := rfl
@[simp] theorem hostPut_lastTag (s : State) (n : Nat) (h : HostBlk) : (hostPut s n h).lastTag = s.lastTag := rfl
@[simp] theorem hostPut_waits (s : State) (n : Nat) (h : HostBlk) : (hostPut s n h).waits = s.waits := rfl
@[simp] theorem hostPut_owed (s : State) (n : Nat) (h : HostBlk) : (hostPut s n h).owed = s.owed := rfl
@[simp] theorem hostPut_recQ (s : State) (n : Nat) (h : HostBlk) : (hostPut s n h).recQ = s.recQ := rfl
@[simp] theorem hostPut_msix (s : State) (n : Nat) (h : HostBlk) : (hostPut s n h).msix = s.msix := rfl
@[simp] theorem hostPut_patrol (s : State) (n : Nat) (h : HostBlk) : (hostPut s n h).patrol = s.patrol := rfl

@[simp] theorem nodePut_agenda (s : State) (n : Nat) (x : Node) : (nodePut s n x).agenda = s.agenda := rfl
@[simp] theorem nodePut_turn (s : State) (n : Nat) (x : Node) : (nodePut s n x).turn = s.turn := rfl
@[simp] theorem nodePut_free (s : State) (n : Nat) (x : Node) : (nodePut s n x).free = s.free := rfl
@[simp] theorem nodePut_sets (s : State) (n : Nat) (x : Node) : (nodePut s n x).sets = s.sets := rfl
@[simp] theorem nodePut_clock (s : State) (n : Nat) (x : Node) : (nodePut s n x).clock = s.clock := rfl
@[simp] theorem nodePut_timeAdj (s : State) (n : Nat) (x : Node) : (nodePut s n x).timeAdj = s.timeAdj := rfl
@[simp] theorem nodePut_slew (s : State) (n : Nat) (x : Node) : (nodePut s n x).slew = s.slew := rfl
@[simp] theorem nodePut_point (s : State) (n : Nat) (x : Node) : (nodePut s n x).point = s.point := rfl
@[simp] theorem nodePut_freqTarget (s : State) (n : Nat) (x : Node) : (nodePut s n x).freqTarget = s.freqTarget := rfl
@[simp] theorem nodePut_freqFrom (s : State) (n : Nat) (x : Node) : (nodePut s n x).freqFrom = s.freqFrom := rfl
@[simp] theorem nodePut_freqBusy (s : State) (n : Nat) (x : Node) : (nodePut s n x).freqBusy = s.freqBusy := rfl
@[simp] theorem nodePut_clockStop (s : State) (n : Nat) (x : Node) : (nodePut s n x).clockStop = s.clockStop := rfl
@[simp] theorem nodePut_flashPoint (s : State) (n : Nat) (x : Node) : (nodePut s n x).flashPoint = s.flashPoint := rfl
@[simp] theorem nodePut_flashMgmt (s : State) (n : Nat) (x : Node) : (nodePut s n x).flashMgmt = s.flashMgmt := rfl
@[simp] theorem nodePut_mem (s : State) (n : Nat) (x : Node) : (nodePut s n x).mem = s.mem := rfl
@[simp] theorem nodePut_hostMem0 (s : State) (n : Nat) (x : Node) : (nodePut s n x).hostMem0 = s.hostMem0 := rfl
@[simp] theorem nodePut_hostMem1 (s : State) (n : Nat) (x : Node) : (nodePut s n x).hostMem1 = s.hostMem1 := rfl
@[simp] theorem nodePut_lostGran (s : State) (n : Nat) (x : Node) : (nodePut s n x).lostGran = s.lostGran := rfl
@[simp] theorem nodePut_symErr (s : State) (n : Nat) (x : Node) : (nodePut s n x).symErr = s.symErr := rfl
@[simp] theorem nodePut_tiles (s : State) (n : Nat) (x : Node) : (nodePut s n x).tiles = s.tiles := rfl
@[simp] theorem nodePut_dies (s : State) (n : Nat) (x : Node) : (nodePut s n x).dies = s.dies := rfl
@[simp] theorem nodePut_portsLost (s : State) (n : Nat) (x : Node) : (nodePut s n x).portsLost = s.portsLost := rfl
@[simp] theorem nodePut_links (s : State) (n : Nat) (x : Node) : (nodePut s n x).links = s.links := rfl
@[simp] theorem nodePut_hosts (s : State) (n : Nat) (x : Node) : (nodePut s n x).hosts = s.hosts := rfl
@[simp] theorem nodePut_mgmt (s : State) (n : Nat) (x : Node) : (nodePut s n x).mgmt = s.mgmt := rfl
@[simp] theorem nodePut_flash (s : State) (n : Nat) (x : Node) : (nodePut s n x).flash = s.flash := rfl
@[simp] theorem nodePut_bankMarks (s : State) (n : Nat) (x : Node) : (nodePut s n x).bankMarks = s.bankMarks := rfl
@[simp] theorem nodePut_strands (s : State) (n : Nat) (x : Node) : (nodePut s n x).strands = s.strands := rfl
@[simp] theorem nodePut_packs (s : State) (n : Nat) (x : Node) : (nodePut s n x).packs = s.packs := rfl
@[simp] theorem nodePut_nextOrder (s : State) (n : Nat) (x : Node) : (nodePut s n x).nextOrder = s.nextOrder := rfl
@[simp] theorem nodePut_drrTurn (s : State) (n : Nat) (x : Node) : (nodePut s n x).drrTurn = s.drrTurn := rfl
@[simp] theorem nodePut_touched (s : State) (n : Nat) (x : Node) : (nodePut s n x).touched = s.touched := rfl
@[simp] theorem nodePut_saved (s : State) (n : Nat) (x : Node) : (nodePut s n x).saved = s.saved := rfl
@[simp] theorem nodePut_agents (s : State) (n : Nat) (x : Node) : (nodePut s n x).agents = s.agents := rfl
@[simp] theorem nodePut_nextAgent (s : State) (n : Nat) (x : Node) : (nodePut s n x).nextAgent = s.nextAgent := rfl
@[simp] theorem nodePut_releases (s : State) (n : Nat) (x : Node) : (nodePut s n x).releases = s.releases := rfl
@[simp] theorem nodePut_records (s : State) (n : Nat) (x : Node) : (nodePut s n x).records = s.records := rfl
@[simp] theorem nodePut_lastTag (s : State) (n : Nat) (x : Node) : (nodePut s n x).lastTag = s.lastTag := rfl
@[simp] theorem nodePut_waits (s : State) (n : Nat) (x : Node) : (nodePut s n x).waits = s.waits := rfl
@[simp] theorem nodePut_owed (s : State) (n : Nat) (x : Node) : (nodePut s n x).owed = s.owed := rfl
@[simp] theorem nodePut_recQ (s : State) (n : Nat) (x : Node) : (nodePut s n x).recQ = s.recQ := rfl
@[simp] theorem nodePut_msix (s : State) (n : Nat) (x : Node) : (nodePut s n x).msix = s.msix := rfl
@[simp] theorem nodePut_patrol (s : State) (n : Nat) (x : Node) : (nodePut s n x).patrol = s.patrol := rfl

@[simp] theorem packPut_agenda (s : State) (p : Pack) : (packPut s p).agenda = s.agenda := rfl
@[simp] theorem packPut_turn (s : State) (p : Pack) : (packPut s p).turn = s.turn := rfl
@[simp] theorem packPut_free (s : State) (p : Pack) : (packPut s p).free = s.free := rfl
@[simp] theorem packPut_sets (s : State) (p : Pack) : (packPut s p).sets = s.sets := rfl
@[simp] theorem packPut_clock (s : State) (p : Pack) : (packPut s p).clock = s.clock := rfl
@[simp] theorem packPut_timeAdj (s : State) (p : Pack) : (packPut s p).timeAdj = s.timeAdj := rfl
@[simp] theorem packPut_slew (s : State) (p : Pack) : (packPut s p).slew = s.slew := rfl
@[simp] theorem packPut_point (s : State) (p : Pack) : (packPut s p).point = s.point := rfl
@[simp] theorem packPut_freqTarget (s : State) (p : Pack) : (packPut s p).freqTarget = s.freqTarget := rfl
@[simp] theorem packPut_freqFrom (s : State) (p : Pack) : (packPut s p).freqFrom = s.freqFrom := rfl
@[simp] theorem packPut_freqBusy (s : State) (p : Pack) : (packPut s p).freqBusy = s.freqBusy := rfl
@[simp] theorem packPut_clockStop (s : State) (p : Pack) : (packPut s p).clockStop = s.clockStop := rfl
@[simp] theorem packPut_flashPoint (s : State) (p : Pack) : (packPut s p).flashPoint = s.flashPoint := rfl
@[simp] theorem packPut_flashMgmt (s : State) (p : Pack) : (packPut s p).flashMgmt = s.flashMgmt := rfl
@[simp] theorem packPut_mem (s : State) (p : Pack) : (packPut s p).mem = s.mem := rfl
@[simp] theorem packPut_hostMem0 (s : State) (p : Pack) : (packPut s p).hostMem0 = s.hostMem0 := rfl
@[simp] theorem packPut_hostMem1 (s : State) (p : Pack) : (packPut s p).hostMem1 = s.hostMem1 := rfl
@[simp] theorem packPut_lostGran (s : State) (p : Pack) : (packPut s p).lostGran = s.lostGran := rfl
@[simp] theorem packPut_symErr (s : State) (p : Pack) : (packPut s p).symErr = s.symErr := rfl
@[simp] theorem packPut_tiles (s : State) (p : Pack) : (packPut s p).tiles = s.tiles := rfl
@[simp] theorem packPut_dies (s : State) (p : Pack) : (packPut s p).dies = s.dies := rfl
@[simp] theorem packPut_portsLost (s : State) (p : Pack) : (packPut s p).portsLost = s.portsLost := rfl
@[simp] theorem packPut_links (s : State) (p : Pack) : (packPut s p).links = s.links := rfl
@[simp] theorem packPut_hosts (s : State) (p : Pack) : (packPut s p).hosts = s.hosts := rfl
@[simp] theorem packPut_mgmt (s : State) (p : Pack) : (packPut s p).mgmt = s.mgmt := rfl
@[simp] theorem packPut_flash (s : State) (p : Pack) : (packPut s p).flash = s.flash := rfl
@[simp] theorem packPut_bankMarks (s : State) (p : Pack) : (packPut s p).bankMarks = s.bankMarks := rfl
@[simp] theorem packPut_strands (s : State) (p : Pack) : (packPut s p).strands = s.strands := rfl
@[simp] theorem packPut_nodes (s : State) (p : Pack) : (packPut s p).nodes = s.nodes := rfl
@[simp] theorem packPut_nextOrder (s : State) (p : Pack) : (packPut s p).nextOrder = s.nextOrder := rfl
@[simp] theorem packPut_drrTurn (s : State) (p : Pack) : (packPut s p).drrTurn = s.drrTurn := rfl
@[simp] theorem packPut_touched (s : State) (p : Pack) : (packPut s p).touched = s.touched := rfl
@[simp] theorem packPut_saved (s : State) (p : Pack) : (packPut s p).saved = s.saved := rfl
@[simp] theorem packPut_agents (s : State) (p : Pack) : (packPut s p).agents = s.agents := rfl
@[simp] theorem packPut_nextAgent (s : State) (p : Pack) : (packPut s p).nextAgent = s.nextAgent := rfl
@[simp] theorem packPut_releases (s : State) (p : Pack) : (packPut s p).releases = s.releases := rfl
@[simp] theorem packPut_records (s : State) (p : Pack) : (packPut s p).records = s.records := rfl
@[simp] theorem packPut_lastTag (s : State) (p : Pack) : (packPut s p).lastTag = s.lastTag := rfl
@[simp] theorem packPut_waits (s : State) (p : Pack) : (packPut s p).waits = s.waits := rfl
@[simp] theorem packPut_owed (s : State) (p : Pack) : (packPut s p).owed = s.owed := rfl
@[simp] theorem packPut_recQ (s : State) (p : Pack) : (packPut s p).recQ = s.recQ := rfl
@[simp] theorem packPut_msix (s : State) (p : Pack) : (packPut s p).msix = s.msix := rfl
@[simp] theorem packPut_patrol (s : State) (p : Pack) : (packPut s p).patrol = s.patrol := rfl

@[simp] theorem tileGet_tilePut_same (s : State) (n : Nat) (t : Tile) : tileGet (tilePut s n t) n = t := by
  simp [tileGet, tilePut]

@[simp] theorem tileGet_tilePut_other (s : State) {n k : Nat} (t : Tile) (h : k ≠ n) : tileGet (tilePut s n t) k = tileGet s k := by
  simp [tileGet, tilePut, Ne.symm h]

@[simp] theorem tileGet_corePut_same (s : State) (n : Nat) (c : Core) : tileGet (corePut s n c) n = { tileGet s n with core := c } := by
  simp [corePut]

@[simp] theorem tileGet_corePut_other (s : State) {n k : Nat} (c : Core) (h : k ≠ n) : tileGet (corePut s n c) k = tileGet s k := by
  simp [corePut, h]

@[simp] theorem coreGet_corePut_same (s : State) (n : Nat) (c : Core) : coreGet (corePut s n c) n = c := by simp [coreGet]

@[simp] theorem coreGet_corePut_other (s : State) {n k : Nat} (c : Core) (h : k ≠ n) : coreGet (corePut s n c) k = coreGet s k := by
  simp [coreGet, h]

@[simp] theorem tileGet_diePut (s : State) (n k : Nat) (d : Die) : tileGet (diePut s n d) k = tileGet s k := rfl
@[simp] theorem tileGet_hostPut (s : State) (n k : Nat) (h : HostBlk) : tileGet (hostPut s n h) k = tileGet s k := rfl
@[simp] theorem tileGet_nodePut (s : State) (n k : Nat) (x : Node) : tileGet (nodePut s n x) k = tileGet s k := rfl
@[simp] theorem tileGet_packPut (s : State) (p : Pack) (k : Nat) : tileGet (packPut s p) k = tileGet s k := rfl

@[simp] theorem dieGet_diePut_same (s : State) (n : Nat) (d : Die) : dieGet (diePut s n d) n = d := by simp [dieGet, diePut]
@[simp] theorem dieGet_diePut_other (s : State) {n k : Nat} (d : Die) (h : k ≠ n) : dieGet (diePut s n d) k = dieGet s k := by
  simp [dieGet, diePut, Ne.symm h]

@[simp] theorem hostGet_hostPut_same (s : State) (n : Nat) (h : HostBlk) : hostGet (hostPut s n h) n = h := by simp [hostGet, hostPut]
@[simp] theorem hostGet_hostPut_other (s : State) {n k : Nat} (x : HostBlk) (h : k ≠ n) : hostGet (hostPut s n x) k = hostGet s k := by
  simp [hostGet, hostPut, Ne.symm h]

@[simp] theorem nodeGet_nodePut_same (s : State) (n : Nat) (x : Node) : nodeGet? (nodePut s n x) n = some x := by
  simp [nodeGet?, nodePut]
@[simp] theorem nodeGet_nodePut_other (s : State) {n k : Nat} (x : Node) (h : k ≠ n) : nodeGet? (nodePut s n x) k = nodeGet? s k := by
  simp [nodeGet?, nodePut, Ne.symm h]

@[simp] theorem packGet_packPut_same (s : State) (p : Pack) : packGet? (packPut s p) p.id = some p := by simp [packGet?, packPut]
@[simp] theorem packGet_packPut_other (s : State) (p : Pack) {k : Nat} (h : k ≠ p.id) : packGet? (packPut s p) k = packGet? s k := by
  simp [packGet?, packPut, Ne.symm h]

@[simp] theorem engGet_engPut_same (t : Tile) (e : Nat) (x : Engine) : engGet (engPut t e x) e = x := by simp [engGet, engPut]
@[simp] theorem engGet_engPut_other (t : Tile) {e k : Nat} (x : Engine) (h : k ≠ e) : engGet (engPut t e x) k = engGet t k := by
  simp [engGet, engPut, Ne.symm h]
@[simp] theorem engPut_core (t : Tile) (e : Nat) (x : Engine) : (engPut t e x).core = t.core := rfl
@[simp] theorem engPut_running (t : Tile) (e : Nat) (x : Engine) : (engPut t e x).running = t.running := rfl
@[simp] theorem engPut_creel (t : Tile) (e : Nat) (x : Engine) : (engPut t e x).creel = t.creel := rfl
@[simp] theorem engPut_node (t : Tile) (e : Nat) (x : Engine) : (engPut t e x).node = t.node := rfl
@[simp] theorem engPut_packId (t : Tile) (e : Nat) (x : Engine) : (engPut t e x).packId = t.packId := rfl
@[simp] theorem engPut_packParent (t : Tile) (e : Nat) (x : Engine) : (engPut t e x).packParent = t.packParent := rfl
@[simp] theorem engPut_packLevel (t : Tile) (e : Nat) (x : Engine) : (engPut t e x).packLevel = t.packLevel := rfl
@[simp] theorem engPut_packRank (t : Tile) (e : Nat) (x : Engine) : (engPut t e x).packRank = t.packRank := rfl
@[simp] theorem engPut_packSize (t : Tile) (e : Nat) (x : Engine) : (engPut t e x).packSize = t.packSize := rfl
@[simp] theorem engPut_packStack (t : Tile) (e : Nat) (x : Engine) : (engPut t e x).packStack = t.packStack := rfl
@[simp] theorem engPut_partAcc (t : Tile) (e : Nat) (x : Engine) : (engPut t e x).partAcc = t.partAcc := rfl
@[simp] theorem engPut_partQueue (t : Tile) (e : Nat) (x : Engine) : (engPut t e x).partQueue = t.partQueue := rfl
@[simp] theorem engPut_pool (t : Tile) (e : Nat) (x : Engine) : (engPut t e x).pool = t.pool := rfl
@[simp] theorem engPut_wmarks (t : Tile) (e : Nat) (x : Engine) : (engPut t e x).wmarks = t.wmarks := rfl
@[simp] theorem engPut_segs (t : Tile) (e : Nat) (x : Engine) : (engPut t e x).segs = t.segs := rfl
@[simp] theorem engPut_retired (t : Tile) (e : Nat) (x : Engine) : (engPut t e x).retired = t.retired := rfl
@[simp] theorem engPut_reels (t : Tile) (e : Nat) (x : Engine) : (engPut t e x).reels = t.reels := rfl
@[simp] theorem engPut_grant (t : Tile) (e : Nat) (x : Engine) : (engPut t e x).grant = t.grant := rfl
@[simp] theorem engPut_standby (t : Tile) (e : Nat) (x : Engine) : (engPut t e x).standby = t.standby := rfl
@[simp] theorem engPut_leaseQ (t : Tile) (e : Nat) (x : Engine) : (engPut t e x).leaseQ = t.leaseQ := rfl
@[simp] theorem engPut_leaseCtl (t : Tile) (e : Nat) (x : Engine) : (engPut t e x).leaseCtl = t.leaseCtl := rfl
@[simp] theorem engPut_leaseGen (t : Tile) (e : Nat) (x : Engine) : (engPut t e x).leaseGen = t.leaseGen := rfl
@[simp] theorem engPut_leaseOrd (t : Tile) (e : Nat) (x : Engine) : (engPut t e x).leaseOrd = t.leaseOrd := rfl
@[simp] theorem engPut_drains (t : Tile) (e : Nat) (x : Engine) : (engPut t e x).drains = t.drains := rfl
@[simp] theorem engPut_gov (t : Tile) (e : Nat) (x : Engine) : (engPut t e x).gov = t.gov := rfl
@[simp] theorem engPut_dbg (t : Tile) (e : Nat) (x : Engine) : (engPut t e x).dbg = t.dbg := rfl
@[simp] theorem engPut_yreqPosted (t : Tile) (e : Nat) (x : Engine) : (engPut t e x).yreqPosted = t.yreqPosted := rfl
@[simp] theorem engPut_yreqSeq (t : Tile) (e : Nat) (x : Engine) : (engPut t e x).yreqSeq = t.yreqSeq := rfl
@[simp] theorem engPut_yreqUntil (t : Tile) (e : Nat) (x : Engine) : (engPut t e x).yreqUntil = t.yreqUntil := rfl
@[simp] theorem engPut_stealNext (t : Tile) (e : Nat) (x : Engine) : (engPut t e x).stealNext = t.stealNext := rfl
@[simp] theorem engPut_stealFails (t : Tile) (e : Nat) (x : Engine) : (engPut t e x).stealFails = t.stealFails := rfl
@[simp] theorem engPut_stewardAsked (t : Tile) (e : Nat) (x : Engine) : (engPut t e x).stewardAsked = t.stewardAsked := rfl
@[simp] theorem engPut_halted (t : Tile) (e : Nat) (x : Engine) : (engPut t e x).halted = t.halted := rfl
@[simp] theorem engPut_frzNs (t : Tile) (e : Nat) (x : Engine) : (engPut t e x).frzNs = t.frzNs := rfl
@[simp] theorem engPut_walkBad (t : Tile) (e : Nat) (x : Engine) : (engPut t e x).walkBad = t.walkBad := rfl
@[simp] theorem engPut_found (t : Tile) (e : Nat) (x : Engine) : (engPut t e x).found = t.found := rfl

end Sys2Proof.Machine
end

