-- ==== Sys2Proof/Laws/Frame.lean ====
section
/-! SUPPORT. What an issue leaves alone, for each shared operation of the slot classes (05 R102, R103). -/

namespace Sys2Proof.Machine

open Sys2Proof

theorem keeps_refl (tile : Nat) (s : State) : IssueKeeps tile s s :=
  ⟨rfl, rfl, rfl, rfl, fun _ _ => rfl, rfl, rfl, rfl, rfl, rfl, rfl, rfl, rfl⟩

theorem keeps_trans {tile : Nat} {s t u : State} (h : IssueKeeps tile s t) (k : IssueKeeps tile t u) : IssueKeeps tile s u :=
  ⟨k.mem.trans h.mem, k.host0.trans h.host0, k.host1.trans h.host1, k.nodes.trans h.nodes,
   fun n hn => (k.others n hn).trans (h.others n hn), k.pool.trans h.pool, k.reels.trans h.reels, k.creel.trans h.creel,
   k.running.trans h.running, k.node.trans h.node, k.engines.trans h.engines, k.regs.trans h.regs, k.ticks.trans h.ticks⟩

/-- A state that differs only outside the tiles, the nodes and memory keeps what an issue keeps. -/
theorem keeps_tiles {s t : State} (tile : Nat) (h : t.tiles = s.tiles) (hm : t.mem = s.mem) (h0 : t.hostMem0 = s.hostMem0)
    (h1 : t.hostMem1 = s.hostMem1) (hn : t.nodes = s.nodes) : IssueKeeps tile s t := by
  have e : ∀ n, tileGet t n = tileGet s n := fun n => by simp [tileGet, h]
  exact ⟨hm, h0, h1, hn, fun n _ => e n, by rw [e], by rw [e], by rw [e], by rw [e], by rw [e], by rw [e], by simp [coreGet, e],
    by simp [coreGet, e]⟩

/-- A core put back with its committed registers and its ticks. -/
theorem keeps_corePut {tile : Nat} {s : State} {c : Core} (hr : c.regs = (coreGet s tile).regs)
    (ht : c.ticks = (coreGet s tile).ticks) : IssueKeeps tile s (corePut s tile c) where
  mem := rfl
  host0 := rfl
  host1 := rfl
  nodes := rfl
  others n hn := tileGet_corePut_other s c hn
  pool := by simp
  reels := by simp
  creel := by simp
  running := by simp
  node := by simp
  engines := by simp
  regs := by simp [hr]
  ticks := by simp [ht]

theorem keeps_corePut_after {tile : Nat} {s t : State} {c : Core} (h : IssueKeeps tile s t) (hr : c.regs = (coreGet t tile).regs)
    (ht : c.ticks = (coreGet t tile).ticks) : IssueKeeps tile s (corePut t tile c) := keeps_trans h (keeps_corePut hr ht)

theorem keeps_addFlight (s : State) (tile seq slot l : Nat) (effs : List Eff) : IssueKeeps tile s (addFlight s tile seq slot l effs) :=
  keeps_corePut rfl rfl

theorem keeps_raiseAt (s : State) (tile seq slot : Nat) (x : Trap) : IssueKeeps tile s (raiseAt s tile seq slot x) :=
  keeps_corePut rfl rfl

theorem keeps_addAct (s : State) (tile seq slot : Nat) (a : CommitAct) : IssueKeeps tile s (addAct s tile seq slot a) :=
  keeps_corePut rfl rfl

theorem keeps_stageNow (s : State) (tile seq : Nat) (e : Eff) : IssueKeeps tile s (stageNow s tile seq e) := keeps_corePut rfl rfl

theorem keeps_markIssued (s : State) (tile seq slot : Nat) : IssueKeeps tile s (markIssued s tile seq slot) := keeps_corePut rfl rfl

theorem keeps_enterBundle (s : State) (tile pc next hdr : Nat) (ops : List (Nat × SlotWord)) :
    IssueKeeps tile s (enterBundle s tile pc next hdr ops).1 := keeps_corePut rfl rfl

theorem keeps_servePort (s : State) (tile off : Nat) (wr : Bool) : IssueKeeps tile s (servePort s tile off wr) := keeps_corePut rfl rfl

theorem keeps_addRead (s : State) (tile seq slot l : Nat) (effs : List Eff) (acq atom : Bool) :
    IssueKeeps tile s (addRead s tile seq slot l effs acq atom) := keeps_corePut rfl rfl

theorem keeps_setFlow (s : State) (tile : Nat) (b : Bundle) (go : List LoopEnt × Nat) : IssueKeeps tile s (setFlow s tile b go) :=
  keeps_corePut rfl rfl

theorem keeps_holdFor (s : State) (tile : Nat) (b : Bundle) (w : Nat) : IssueKeeps tile s (holdFor s tile b w) :=
  keeps_corePut rfl rfl

theorem keeps_agentPut (tile : Nat) (s : State) (a : Nat) (x : Agent) : IssueKeeps tile s (agentPut s a x) :=
  keeps_tiles tile rfl rfl rfl rfl rfl

theorem keeps_packPut (tile : Nat) (s : State) (p : Pack) : IssueKeeps tile s (packPut s p) := keeps_tiles tile rfl rfl rfl rfl rfl

theorem keeps_diePut (tile : Nat) (s : State) (n : Nat) (d : Die) : IssueKeeps tile s (diePut s n d) :=
  keeps_tiles tile rfl rfl rfl rfl rfl

theorem keeps_foldl {α : Type} {tile : Nat} {f : State → α → State} (h : ∀ s x, IssueKeeps tile s (f s x)) (l : List α) (s : State) :
    IssueKeeps tile s (l.foldl f s) := by
  induction l generalizing s with
  | nil => exact keeps_refl tile s
  | cons x l ih => exact keeps_trans (h s x) (ih (f s x))

theorem keeps_relsJoin (tile : Nat) (s : State) (loc : Nat) (r : Option Rel) : IssueKeeps tile s (relsJoin s loc r) := by
  unfold relsJoin
  split
  · exact keeps_refl tile s
  · exact keeps_tiles tile rfl rfl rfl rfl rfl

theorem keeps_release (tile : Nat) (s : State) (a : Nat) (x : Agent) (loc : Nat) (sc : Scope) :
    IssueKeeps tile s (release s a x loc sc) := keeps_trans (keeps_relsJoin ..) (keeps_agentPut ..)

theorem keeps_acquire (tile : Nat) (s : State) (a : Nat) (x : Agent) (loc : Nat) (sc : Scope) :
    IssueKeeps tile s (acquire s a x loc sc) := keeps_agentPut tile s a _

theorem keeps_relaxedWrite (tile : Nat) (s : State) (x : Agent) (loc : Nat) : IssueKeeps tile s (relaxedWrite s x loc) :=
  keeps_relsJoin tile s loc x.frel

theorem keeps_relaxedRead (tile : Nat) (s : State) (a : Nat) (x : Agent) (loc : Nat) : IssueKeeps tile s (relaxedRead s a x loc) := by
  unfold relaxedRead
  split
  · exact keeps_refl tile s
  · exact keeps_agentPut tile s a _

theorem keeps_syncAccess (tile : Nat) (s : State) (a ident node place : Nat) (o : Order) (sc : Scope) (loc : Nat) (rd wr : Bool) :
    IssueKeeps tile s (syncAccess s a ident node place o sc loc rd wr) := by
  cases o <;> cases rd <;> cases wr
  all_goals first
    | exact keeps_refl ..
    | exact keeps_release ..
    | exact keeps_acquire ..
    | exact keeps_relaxedRead ..
    | exact keeps_relaxedWrite ..
    | exact keeps_trans (keeps_acquire ..) (keeps_release ..)
    | exact keeps_trans (keeps_acquire ..) (keeps_relaxedWrite ..)
    | exact keeps_trans (keeps_relaxedRead ..) (keeps_release ..)
    | exact keeps_trans (keeps_relaxedRead ..) (keeps_relaxedWrite ..)

theorem keeps_ownSync (s : State) (tile off n : Nat) (o : MOp) : IssueKeeps tile s (ownSync s tile off n o) := by
  unfold ownSync
  split
  · exact keeps_foldl (fun s loc => keeps_syncAccess ..) _ s
  · exact keeps_refl tile s

theorem keeps_checkGran {tile : Nat} {s s1 : State} {a : Nat} {x : Agent} {g : Nat} {w p : Bool} {pd : Option (Nat × Nat)}
    (h : checkGran s a x g w p pd = .ok s1) : IssueKeeps tile s s1 := by
  unfold checkGran at h
  split at h
  · cases h
  · simp only at h
    split at h
    · injection h with h; subst h; exact keeps_refl tile s
    · split at h
      · cases h
      · injection h with h; subst h; exact keeps_tiles tile rfl rfl rfl rfl rfl

theorem keeps_checkGrans {tile : Nat} {a : Nat} {x : Agent} {w p : Bool} {pd : Option (Nat × Nat)} {l : List Nat} {s s1 : State}
    (h : checkGrans s a x w p pd l = .ok s1) : IssueKeeps tile s s1 := by
  induction l generalizing s with
  | nil => simp only [checkGrans, Except.ok.injEq] at h; subst h; exact keeps_refl tile s
  | cons g l ih =>
    simp only [checkGrans] at h
    split at h
    · cases h
    · rename_i s2 hg; exact keeps_trans (keeps_checkGran hg) (ih h)

theorem keeps_checkOwn {s s1 : State} {tile seq off n : Nat} {w p : Bool} (h : checkOwn s tile seq off n w p = .ok s1) :
    IssueKeeps tile s s1 := keeps_checkGrans h

theorem keeps_askWalk (tile : Nat) (s : State) (n asid vpn : Nat) : IssueKeeps tile s (askWalk s n asid vpn) := by
  simp only [askWalk]
  split
  · exact keeps_refl tile s
  · exact keeps_diePut ..

theorem recallReads_regs (c : Core) (r : Req) : (recallReads c r).regs = c.regs := by unfold recallReads; split <;> rfl
theorem recallReads_ticks (c : Core) (r : Req) : (recallReads c r).ticks = c.ticks := by unfold recallReads; split <;> rfl

theorem keeps_addReq (s : State) (tile : Nat) (b : Bundle) (slot : Nat) (l : Option Nat) (r : Req) :
    IssueKeeps tile s (addReq s tile b slot l r) := by
  simp only [addReq]
  refine keeps_corePut_after ?_ (recallReads_regs ..) (recallReads_ticks ..)
  have h1 : IssueKeeps tile s (if ordRel r.order then agentPut s (tileAgentId s tile) (agentBump (tileAgentId s tile) (coreAgent s tile))
      else s) := by split; exact keeps_agentPut ..; exact keeps_refl ..
  refine keeps_trans h1 ?_
  generalize (if ordRel r.order then agentPut s (tileAgentId s tile) (agentBump (tileAgentId s tile) (coreAgent s tile)) else s) = s'
  repeat' split
  all_goals first
    | exact keeps_refl ..
    | exact keeps_askWalk ..

/-- An issue keeps what its body keeps. -/
theorem keeps_issueOp {i : Instr} {tile slot : Nat} {s t : State} {body : State → Bundle → Option State}
    (hb : ∀ s b u, body s b = some u → IssueKeeps tile s u) (h : issueOp i tile slot s body = .next t) : IssueKeeps tile s t := by
  unfold issueOp at h
  split at h
  · split at h
    · injection h with h; subst h; exact keeps_refl ..
    · rename_i s1 b hk
      have h1 : IssueKeeps tile s s1 := by
        unfold takeOp at hk
        simp only at hk
        split at hk
        · split at hk
          · simp only [Option.some.injEq, Prod.mk.injEq] at hk; rw [← hk.1]; exact keeps_refl ..
          · cases hk
        · split at hk
          · injection hk with hk
            have e : (enterBundle _ _ _ _ _ _).1 = s1 := congrArg Prod.fst hk
            rw [← e]; exact keeps_enterBundle ..
          · cases hk
      split at h
      · split at h
        · injection h with h; subst h; exact keeps_refl ..
        · rename_i s2 hs
          injection h with h; subst h
          exact keeps_trans h1 (keeps_trans (hb _ _ _ hs) (keeps_markIssued ..))
      · injection h with h; subst h; exact keeps_refl ..
  · injection h with h; subst h; exact keeps_refl ..

theorem keeps_scalarOp {i : Instr} {tile : BitVec 8} {hi : Bool} {o : SOp} {s t : State} {latch l : Nat} {extra : List Port}
    {f : State → Bundle → RV → RV → RV × Nat} (h : scalarOp i tile hi o latch l extra f s = .next t) : IssueKeeps tile.toNat s t := by
  refine keeps_issueOp (fun s b u hu => ?_) h
  simp only [scalarRun] at hu
  split at hu
  · injection hu with hu; subst hu; exact keeps_raiseAt ..
  · split at hu
    · split at hu
      · injection hu with hu; subst hu; exact keeps_raiseAt ..
      · injection hu with hu; subst hu; exact keeps_addFlight ..
    · injection hu with hu; subst hu; exact keeps_addFlight ..

theorem keeps_vecOp {i : Instr} {tile : BitVec 8} {hi : Bool} {opc : Nat} {o : VOp} {s t : State}
    (h : vecOp i tile hi opc o s = .next t) : IssueKeeps tile.toNat s t := by
  refine keeps_issueOp (fun s b u hu => ?_) h
  simp only [vecRun] at hu
  split at hu
  · injection hu with hu; subst hu; exact keeps_raiseAt ..
  · split at hu
    · split at hu
      · cases hu
      · split at hu
        · injection hu with hu; subst hu; exact keeps_raiseAt ..
        · injection hu with hu; subst hu; exact keeps_corePut rfl rfl
    · injection hu with hu; subst hu; exact keeps_addFlight ..

/-- What a function to an optional state or a fault keeps when it answers a state. -/
structure KeepsRes (tile : Nat) (s : State) (r : Except Trap (Option State)) : Prop where
  get : ∀ u, r = .ok (some u) → IssueKeeps tile s u

theorem keepsRes_error (tile : Nat) (s : State) (x : Trap) : KeepsRes tile s (.error x) := ⟨fun _ h => by cases h⟩
theorem keepsRes_none (tile : Nat) (s : State) : KeepsRes tile s (.ok none) := ⟨fun _ h => by cases h⟩
theorem keepsRes_some {tile : Nat} {s u : State} (h : IssueKeeps tile s u) : KeepsRes tile s (.ok (some u)) := ⟨fun _ e => by
  cases e; exact h⟩

/-- A body of the access class keeps what an issue keeps. -/
abbrev KeepsM (body : Nat → Nat → State → Bundle → MVals → Except Trap (Option State)) : Prop :=
  ∀ tile slot s b v, KeepsRes tile s (body tile slot s b v)

theorem keeps_accessOp {i : Instr} {tile : BitVec 8} {hi : Bool} {o : MOp} {src : Bool} {off : Option (Nat × Nat)}
    {body : Nat → Nat → State → Bundle → MVals → Except Trap (Option State)} {s t : State} (hb : KeepsM body)
    (h : accessOp i tile hi o src off body s = .next t) : IssueKeeps tile.toNat s t := by
  refine keeps_issueOp (fun s b u hu => ?_) h
  simp only [accessRun] at hu
  split at hu
  · injection hu with hu; subst hu; exact keeps_raiseAt ..
  · split at hu
    · split at hu
      · injection hu with hu; subst hu; exact keeps_raiseAt ..
      · split at hu
        · injection hu with hu; subst hu; exact keeps_raiseAt ..
        · rename_i r hr; subst hu; exact (hb _ _ _ _ _).get _ hr
    · split at hu
      · injection hu with hu; subst hu; exact keeps_addFlight ..
      · injection hu with hu; subst hu; exact keeps_refl ..

/-- A body of slot ca keeps what an issue keeps. -/
abbrev KeepsC (body : Nat → State → Bundle → Word → CtlRes) : Prop :=
  ∀ tile s b v, KeepsRes tile s (body tile s b v)

theorem keeps_ctlOp {i : Instr} {tile : BitVec 8} {o : COp} {src : Bool} {off : Nat → State → Bundle → State}
    {body : Nat → State → Bundle → Word → CtlRes} {s t : State} (ho : ∀ tile s b, IssueKeeps tile s (off tile s b)) (hb : KeepsC body)
    (h : ctlOp i tile o src off body s = .next t) : IssueKeeps tile.toNat s t := by
  refine keeps_issueOp (fun s b u hu => ?_) h
  simp only [ctlRun] at hu
  split at hu
  · injection hu with hu; subst hu; exact keeps_raiseAt ..
  · split at hu
    · split at hu
      · injection hu with hu; subst hu; exact keeps_raiseAt ..
      · split at hu
        · injection hu with hu; subst hu; exact keeps_raiseAt ..
        · rename_i r hr; subst hu; exact (hb _ _ _ _).get _ hr
    · injection hu with hu; subst hu; exact ho ..

theorem keeps_ownRead (s : State) (tile slot : Nat) (b : Bundle) (off n : Nat) (o : MOp) :
    KeepsRes tile s (ownRead s tile slot b off n o) := by
  unfold ownRead
  try simp only
  split
  · exact keepsRes_none ..
  · split
    · exact keepsRes_error ..
    · split
      · exact keepsRes_error ..
      · rename_i s1 h1
        exact keepsRes_some (keeps_trans (keeps_checkOwn h1) (keeps_trans (keeps_servePort ..) (keeps_ownSync ..)))

theorem keeps_ownWrite (s : State) (tile slot : Nat) (b : Bundle) (off : Nat) (bs : List Byte) (o : MOp) :
    KeepsRes tile s (ownWrite s tile slot b off bs o) := by
  unfold ownWrite
  try simp only
  split
  · exact keepsRes_none ..
  · split
    · exact keepsRes_error ..
    · split
      · exact keepsRes_error ..
      · rename_i s1 h1
        refine keepsRes_some (keeps_trans (keeps_checkOwn h1) (keeps_trans ?_
          (keeps_trans (keeps_servePort ..) (keeps_addFlight ..))))
        refine keeps_corePut_after ?_ rfl rfl
        split
        · exact keeps_addAct ..
        · exact keeps_trans (keeps_foldl (fun s loc => keeps_addAct ..) _ s1) (keeps_addAct ..)

theorem keeps_storeAt (o : MOp) (opc tile slot : Nat) (s : State) (b : Bundle) (ea : Word) (al : Nat) (bs : List Byte) :
    KeepsRes tile s (storeAt o opc tile slot s b ea al bs) := by
  unfold storeAt
  try simp only
  split
  · exact keepsRes_none ..
  · split
    · exact keepsRes_error ..
    · exact keeps_ownWrite ..
    · exact keepsRes_some (keeps_addReq ..)
    · exact keepsRes_error ..

theorem keeps_loadBody (o : MOp) : KeepsM (loadBody o) := by
  intro tile slot s b v
  unfold loadBody
  try simp only
  split
  · exact keepsRes_none ..
  · split
    · exact keepsRes_error ..
    · split
      · exact keepsRes_error ..
      · exact keepsRes_none ..
      · rename_i s1 h1
        split
        · exact keepsRes_error ..
        · exact keepsRes_some (keeps_trans ((keeps_ownRead ..).get _ h1) (keeps_addRead ..))
    · exact keepsRes_some (keeps_addReq ..)
    · exact keepsRes_error ..

theorem keeps_ldqBody (o : MOp) : KeepsM (ldqBody o) := by
  intro tile slot s b v
  unfold ldqBody
  try simp only
  split
  · exact keepsRes_none ..
  · split
    · exact keepsRes_error ..
    · split
      · exact keepsRes_error ..
      · exact keepsRes_none ..
      · rename_i s1 h1
        exact keepsRes_some (keeps_trans ((keeps_ownRead ..).get _ h1) (keeps_addRead ..))
    · exact keepsRes_some (keeps_addReq ..)
    · exact keepsRes_error ..

theorem keeps_storeBody (o : MOp) : KeepsM (storeBody o) := fun tile slot s b _ => keeps_storeAt o _ tile slot s b _ _ _

theorem keeps_stqBody (o : MOp) : KeepsM (stqBody o) := by
  intro tile slot s b v
  unfold stqBody
  try simp only
  split
  · exact keepsRes_error ..
  · exact keeps_storeAt ..

theorem keeps_ldcBody (o : MOp) : KeepsM (ldcBody o) := by
  intro tile slot s b v
  unfold ldcBody
  try simp only
  split
  · exact keepsRes_none ..
  · split
    · exact keepsRes_error ..
    · exact keepsRes_some (keeps_addReq ..)

theorem keeps_stcBody (o : MOp) : KeepsM (stcBody o) := by
  intro tile slot s b v
  unfold stcBody
  try simp only
  split
  · exact keepsRes_none ..
  · split
    · exact keepsRes_error ..
    · exact keepsRes_some (keeps_addReq ..)

theorem keeps_wroteBack (tile : Nat) (s : State) (gs : List Nat) : IssueKeeps tile s (wroteBack s gs) := by
  simp only [wroteBack]
  split
  · exact keeps_refl ..
  · exact keeps_tiles tile rfl rfl rfl rfl rfl

theorem keeps_cacheFill (tile : Nat) (s : State) (die g : Nat) : IssueKeeps tile s (cacheFill s die g) := by
  simp only [cacheFill]
  split
  · exact keeps_refl ..
  · exact keeps_trans (keeps_diePut tile s die _) (keeps_wroteBack ..)

theorem keeps_touchPa (tile : Nat) (s : State) (asid pa : Nat) : IssueKeeps tile s (touchPa s asid pa) := by
  simp only [touchPa, touch]
  repeat' split
  all_goals first
    | exact keeps_refl ..
    | exact keeps_tiles tile rfl rfl rfl rfl rfl

theorem keeps_prefBody (o : MOp) : KeepsM (prefBody o) := by
  intro tile slot s b v
  unfold prefBody
  try simp only
  split
  · exact keepsRes_some (keeps_refl ..)
  · split
    · split
      · exact keepsRes_some (keeps_trans (keeps_cacheFill ..) (keeps_touchPa ..))
      · exact keepsRes_some (keeps_refl ..)
    · exact keepsRes_some (keeps_refl ..)

theorem keeps_rdsetBody (org : Bool) (o : MOp) : KeepsM (rdsetBody org o) := by
  intro tile slot s b v
  unfold rdsetBody
  try simp only
  split
  · exact keepsRes_error ..
  · exact keepsRes_some (keeps_addFlight ..)

theorem keeps_rdgetBody (org : Bool) (o : MOp) : KeepsM (rdgetBody org o) := by
  intro tile slot s b v
  unfold rdgetBody
  simp only
  repeat' split
  all_goals first
    | exact keepsRes_error ..
    | exact keepsRes_some (keeps_addFlight ..)

theorem keeps_rdadvBody (org : Bool) (o : MOp) : KeepsM (rdadvBody org o) := by
  intro tile slot s b v
  unfold rdadvBody
  simp only
  repeat' split
  all_goals first
    | exact keepsRes_error ..
    | exact keepsRes_some (keeps_addFlight ..)

theorem keeps_atomicBody (opc : Nat) (two : Bool) (o : MOp) : KeepsM (atomicBody opc two o) := by
  intro tile slot s b v
  cases two <;> unfold atomicBody <;> simp only [Bool.false_eq_true, if_false, if_true] <;> repeat' split
  all_goals first
    | exact keepsRes_error ..
    | exact keepsRes_none ..
    | exact keepsRes_some (keeps_addReq ..)
    | exact keepsRes_some (keeps_trans (keeps_checkOwn (by assumption)) (keeps_trans (keeps_servePort ..) (keeps_trans
        (keeps_ownSync ..) (keeps_trans (keeps_addAct ..) (keeps_trans (keeps_addAct ..) (keeps_addRead ..))))))

theorem keeps_kaddBody (o : MOp) : KeepsM (kaddBody o) := by
  intro tile slot s b v
  unfold kaddBody
  try simp only
  split
  · exact keepsRes_none ..
  · split
    · exact keepsRes_error ..
    · exact keepsRes_some (keeps_trans (keeps_addAct ..) (keeps_addFlight ..))
    · exact keepsRes_some (keeps_addReq ..)

theorem keeps_kwaitBody (o : MOp) : KeepsM (kwaitBody o) := by
  intro tile slot s b v
  unfold kwaitBody
  try simp only
  split
  · exact keepsRes_error ..
  · split
    · exact keepsRes_some (keeps_addReq ..)
    · exact keepsRes_some (keeps_addReq ..)

theorem keeps_coreSync (s : State) (tile : Nat) (o : Order) (sc : Scope) (loc : Nat) (rd wr : Bool) :
    IssueKeeps tile s (coreSync s tile o sc loc rd wr) := keeps_syncAccess ..

theorem keeps_kreadBody (poll : Bool) (o : MOp) : KeepsM (kreadBody poll o) := by
  intro tile slot s b v
  unfold kreadBody
  try simp only
  split
  · exact keepsRes_error ..
  · split
    · exact keepsRes_error ..
    · refine keepsRes_some (keeps_trans (t := if _ then _ else _) ?_ (keeps_addRead ..))
      split
      · exact keeps_coreSync ..
      · exact keeps_refl ..
  · exact keepsRes_some (keeps_addReq ..)

theorem keeps_kbindBody (o : MOp) : KeepsM (kbindBody o) := by
  intro tile slot s b v
  unfold kbindBody
  try simp only
  split
  · exact keepsRes_error ..
  · split
    · exact keepsRes_error ..
    · exact keepsRes_some (keeps_addFlight ..)
  · exact keepsRes_some (keeps_addReq ..)
  · exact keepsRes_error ..

theorem keeps_kinitBody (o : MOp) : KeepsM (kinitBody o) := by
  intro tile slot s b v
  unfold kinitBody
  try simp only
  split
  · exact keepsRes_error ..
  · exact keepsRes_error ..
  · split
    · exact keepsRes_some (keeps_addFlight ..)
    · exact keepsRes_some (keeps_addReq ..)

theorem keeps_actBody (a : CommitAct) : KeepsC (actBody a) := fun tile s b _ => keepsRes_some (keeps_addAct s tile b.seq 0 a)

theorem keeps_offNone (tile : Nat) (s : State) (b : Bundle) : IssueKeeps tile s (offNone tile s b) := keeps_refl tile s
theorem keeps_offFlow (tile : Nat) (s : State) (b : Bundle) : IssueKeeps tile s (offFlow tile s b) := keeps_setFlow ..
theorem keeps_offSleep (tile : Nat) (s : State) (b : Bundle) : IssueKeeps tile s (offSleep tile s b) := keeps_holdFor ..

theorem keeps_jmpBody (o : COp) : KeepsC (jmpBody o) := by
  intro tile s b v
  unfold jmpBody
  split
  · exact keepsRes_some (keeps_refl ..)
  · exact keepsRes_some (keeps_setFlow ..)

theorem keeps_callBody (o : COp) : KeepsC (callBody o) := by
  intro tile s b v
  unfold callBody
  simp only
  split
  · exact keepsRes_some (keeps_addFlight ..)
  · exact keepsRes_some (keeps_trans (keeps_setFlow ..) (keeps_addFlight ..))

theorem keeps_loopRun (tile : Nat) (exit : Int) (n : Nat) (s : State) (b : Bundle) : KeepsRes tile s (loopRun tile exit n s b) := by
  unfold loopRun
  split
  · exact keepsRes_some (keeps_refl ..)
  · split
    · exact keepsRes_error ..
    · exact keepsRes_some (keeps_setFlow ..)

theorem keeps_loopBody (o : COp) : KeepsC (loopBody o) := by
  intro tile s b v
  unfold loopBody
  split
  · exact keepsRes_some (keeps_refl ..)
  · exact keeps_loopRun ..

theorem keeps_endBody : KeepsC endBody := fun tile s b _ =>
  keepsRes_some (keeps_trans (keeps_addAct s tile b.seq 0 .endBobbin) (keeps_corePut rfl rfl))

theorem keeps_setOutstanding (s : State) (tile n : Nat) : IssueKeeps tile s (setOutstanding s tile n) := by
  unfold setOutstanding
  split
  · exact keeps_packPut ..
  · exact keeps_refl ..

theorem keeps_forkBody (o : COp) : KeepsC (forkBody o) := by
  intro tile s b v
  unfold forkBody
  simp only
  repeat' split
  all_goals first
    | exact keepsRes_error ..
    | exact keepsRes_some (keeps_trans (keeps_addAct ..) (keeps_trans (keeps_setOutstanding ..) (keeps_addFlight ..)))

theorem keeps_unleashBody : KeepsC unleashBody := by
  intro tile s b v
  unfold unleashBody
  try simp only
  split
  · exact keepsRes_some (keeps_addAct ..)
  · exact keepsRes_error ..

theorem keeps_slackBody (o : COp) : KeepsC (slackBody o) := fun _ s _ _ => keepsRes_some (keeps_stageNow s ..)

theorem keeps_fenceBody (o : COp) : KeepsC (fenceBody o) := by
  intro tile s b v
  unfold fenceBody
  split
  · exact keepsRes_none ..
  · exact keepsRes_some (keeps_addAct ..)

theorem keeps_vfenceBody : KeepsC vfenceBody := by
  intro tile s b v
  unfold vfenceBody
  split
  · exact keepsRes_some (keeps_refl ..)
  · exact keepsRes_none ..

theorem keeps_brkBody (o : COp) : KeepsC (brkBody o) := by
  intro tile s b v
  unfold brkBody
  simp only
  split
  · exact keepsRes_some (keeps_corePut rfl rfl)
  · exact keepsRes_error ..

/-- The end of a psplit in the tile that reaches it. -/
theorem keeps_psplitPass (s : State) (tile j id : Nat) (b : Bundle) (p : Option Pack) :
    KeepsRes tile s (if id = splitMark then
      let s1 := match p with
        | some p => packPut s { p with arrived := p.arrived.filter fun x => decide (x.1 ≠ tile) }
        | none => s
      .ok (some (raiseAt s1 tile b.seq 0 (trapOf causePackMismatch)))
    else .ok (some (addAct (caResult s tile b 0 2 (BitVec.ofNat 64 id)) tile b.seq 0 (.psplit j)))) := by
  split
  · cases p
    · exact keepsRes_some (keeps_raiseAt ..)
    · exact keepsRes_some (keeps_trans (keeps_packPut ..) (keeps_raiseAt ..))
  · exact keepsRes_some (keeps_trans (keeps_addFlight ..) (keeps_addAct ..))

theorem keepsRes_trans {tile : Nat} {s t : State} {r : Except Trap (Option State)} (h : IssueKeeps tile s t) (k : KeepsRes tile t r) :
    KeepsRes tile s r := ⟨fun u hu => keeps_trans h (k.get u hu)⟩

theorem keeps_psplitBody (o : COp) : KeepsC (psplitBody o) := by
  intro tile s b v
  unfold psplitBody
  extract_lets t j pass
  have hp : ∀ s id, KeepsRes tile s (pass s id) := fun s id => keeps_psplitPass s tile j id b _
  repeat' split
  all_goals first
    | exact keepsRes_error ..
    | exact keepsRes_none ..
    | exact hp ..
    | exact keepsRes_trans (keeps_packPut ..) (hp ..)
    | exact keepsRes_trans (keeps_trans (keeps_foldl (fun s p => keeps_packPut ..) _ s) (keeps_packPut ..)) (hp ..)

theorem keeps_pmergeBody : KeepsC pmergeBody := by
  intro tile s b v
  unfold pmergeBody
  simp only
  repeat' split
  all_goals first
    | exact keepsRes_error ..
    | exact keepsRes_none ..
    | exact keepsRes_some (keeps_addAct ..)
    | exact keepsRes_some (keeps_trans (keeps_packPut ..) (keeps_addAct ..))

theorem keeps_evictFrame (s : State) (tile : Nat) : IssueKeeps tile s (evictFrame s tile) := by
  unfold evictFrame
  try simp only
  split
  · exact keeps_refl ..
  · exact keeps_corePut rfl rfl

theorem keeps_fillBegin (s : State) (tile page : Nat) : IssueKeeps tile s (fillBegin s tile page) := by
  unfold fillBegin
  try simp only
  split
  · exact keeps_refl ..
  · split
    · exact keeps_corePut_after (keeps_evictFrame ..) rfl rfl
    · exact keeps_corePut rfl rfl

theorem keeps_ovlBody (o : COp) : KeepsC (ovlBody o) := by
  intro tile s b v
  unfold ovlBody
  simp only
  repeat' split
  all_goals first
    | exact keepsRes_error ..
    | exact keepsRes_some (keeps_refl ..)
    | exact keepsRes_some (keeps_fillBegin ..)

theorem keeps_sleepkBody : KeepsC sleepkBody := fun tile s b _ =>
  keepsRes_some (keeps_trans (keeps_stageNow s tile b.seq _) (keeps_holdFor ..))

theorem keeps_sleepkSourceBody : KeepsC sleepkSourceBody := by
  intro tile s b v
  unfold sleepkSourceBody
  split
  · exact keepsRes_error ..
  · exact keepsRes_some (keeps_holdFor ..)

theorem keeps_sleepkSetBody (o : COp) : KeepsC (sleepkSetBody o) := fun tile s b _ =>
  keepsRes_some (keeps_trans (keeps_stageNow s tile b.seq _) (keeps_trans (keeps_stageNow ..) (keeps_trans (keeps_stageNow ..)
    (keeps_holdFor ..))))

end Sys2Proof.Machine
end

