-- ==== Sys2Proof/Laws/PerInstr.lean ====
section
/-! SUPPORT. Statements made for each instruction: RoundTrip says that the decoder reads back what the encoder writes. -/

namespace Sys2Proof.Laws.RoundTrip

open Sys2Proof Sys2Proof.Machine

/-- A well-formed instruction comes back from its step word with every operand (03 R70, R71; 04 R84 to R88, R92). -/
def Statement (i : Instr) : Prop := WellFormed i → decodeStep (encodeStep i) = .ok i

/-- Four operands fit their lanes. -/
theorem fits4 {a b c d : Bool} (ha : a = true) (hb : b = true) (hc : c = true) (hd : d = true) : (a && b && c && d) = true := by
  rw [ha, hb, hc, hd]; rfl

theorem noFault {i : Instr} (h : WellFormed i) : i.formFault = none := Option.isNone_iff_eq_none.mp h

theorem nop (tile : BitVec 8) (o : COp) : Statement (.nop tile o) := fun h =>
  decode_C 0x0#9 tile o _ (formC0_port (noFault h)) rfl (noFault h)

theorem jmp (tile : BitVec 8) (o : COp) : Statement (.jmp tile o) := fun h =>
  decode_C 0x1#9 tile o _ (formC0_port (noFault h)) rfl (noFault h)

theorem jmpi (tile : BitVec 8) (o : COp) : Statement (.jmpi tile o) := fun h =>
  decode_C 0x2#9 tile o _ (formCSrc_port (noFault h)) rfl (noFault h)

theorem call (tile : BitVec 8) (o : COp) : Statement (.call tile o) := fun h =>
  decode_C 0x3#9 tile o _ (formC0_port (noFault h)) rfl (noFault h)

theorem ret (tile : BitVec 8) (o : COp) : Statement (.ret tile o) := fun h =>
  decode_C 0x4#9 tile o _ (formCSrc_port (noFault h)) rfl (noFault h)

theorem loop (tile : BitVec 8) (o : COp) : Statement (.loop tile o) := fun h =>
  decode_C 0x5#9 tile o _ (formC0_port (noFault h)) rfl (noFault h)

theorem loopr (tile : BitVec 8) (o : COp) : Statement (.loopr tile o) := fun h =>
  decode_C 0x6#9 tile o _ (formCSrc_port (noFault h)) rfl (noFault h)

theorem endOp (tile : BitVec 8) (o : COp) : Statement (.endOp tile o) := fun h =>
  decode_C 0x7#9 tile o _ (formC0_port (noFault h)) rfl (noFault h)

theorem yield (tile : BitVec 8) (o : COp) : Statement (.yield tile o) := fun h =>
  decode_C 0x8#9 tile o _ (formC0_port (noFault h)) rfl (noFault h)

theorem suspend (tile : BitVec 8) (o : COp) : Statement (.suspend tile o) := fun h =>
  decode_C 0x9#9 tile o _ (formCWait_port (noFault h)) rfl (noFault h)

theorem fork (tile : BitVec 8) (o : COp) : Statement (.fork tile o) := fun h =>
  decode_C 0xa#9 tile o _ (formCSrc_port (noFault h)) rfl (noFault h)

theorem join (tile : BitVec 8) (o : COp) : Statement (.join tile o) := fun h =>
  decode_C 0xb#9 tile o _ (formCWait_port (noFault h)) rfl (noFault h)

theorem csend (tile : BitVec 8) (o : COp) : Statement (.csend tile o) := fun h =>
  decode_C 0xc#9 tile o _ (formCSrc_port (noFault h)) rfl (noFault h)

theorem lease (tile : BitVec 8) (o : COp) : Statement (.lease tile o) := fun h =>
  decode_C 0xd#9 tile o _ (formCLease_port (noFault h)) rfl (noFault h)

theorem leasew (tile : BitVec 8) (o : COp) : Statement (.leasew tile o) := fun h =>
  decode_C 0xe#9 tile o _ (formCLease_port (noFault h)) rfl (noFault h)

theorem wake (tile : BitVec 8) (o : COp) : Statement (.wake tile o) := fun h =>
  decode_C 0xf#9 tile o _ (formC0_port (noFault h)) rfl (noFault h)

theorem unleash (tile : BitVec 8) (o : COp) : Statement (.unleash tile o) := fun h =>
  decode_C 0x10#9 tile o _ (formCSrc_port (noFault h)) rfl (noFault h)

theorem slack (tile : BitVec 8) (o : COp) : Statement (.slack tile o) := fun h =>
  decode_C 0x11#9 tile o _ (formC0_port (noFault h)) rfl (noFault h)

theorem fence (tile : BitVec 8) (o : COp) : Statement (.fence tile o) := fun h =>
  decode_C 0x12#9 tile o _ (formC0_port (noFault h)) rfl (noFault h)

theorem vfence (tile : BitVec 8) (o : COp) : Statement (.vfence tile o) := fun h =>
  decode_C 0x13#9 tile o _ (formC0_port (noFault h)) rfl (noFault h)

theorem trap (tile : BitVec 8) (o : COp) : Statement (.trap tile o) := fun h =>
  decode_C 0x14#9 tile o _ (formC0_port (noFault h)) rfl (noFault h)

theorem brk (tile : BitVec 8) (o : COp) : Statement (.brk tile o) := fun h =>
  decode_C 0x15#9 tile o _ (formC0_port (noFault h)) rfl (noFault h)

theorem psplit (tile : BitVec 8) (o : COp) : Statement (.psplit tile o) := fun h =>
  decode_C 0x16#9 tile o _ (formC0_port (noFault h)) rfl (noFault h)

theorem pmerge (tile : BitVec 8) (o : COp) : Statement (.pmerge tile o) := fun h =>
  decode_C 0x17#9 tile o _ (formC0_port (noFault h)) rfl (noFault h)

theorem parrive (tile : BitVec 8) (o : COp) : Statement (.parrive tile o) := fun h =>
  decode_C 0x18#9 tile o _ (formC0_port (noFault h)) rfl (noFault h)

theorem pwait (tile : BitVec 8) (o : COp) : Statement (.pwait tile o) := fun h =>
  decode_C 0x19#9 tile o _ (formC0_port (noFault h)) rfl (noFault h)

theorem ovl (tile : BitVec 8) (o : COp) : Statement (.ovl tile o) := fun h =>
  decode_C 0x1a#9 tile o _ (formCOvl_port (noFault h)) rfl (noFault h)

theorem sleepk (tile : BitVec 8) (o : COp) : Statement (.sleepk tile o) := fun h =>
  have h0 : formCSleep o = none := noFault h
  have h1 := (faultOf_none h0).1
  decode_C 0x1b#9 tile o _ (formC0_port h0) (by simp [isZeroPort] at h1; simp [instrC]; simp_all) (noFault h)

theorem sleepkSource (tile : BitVec 8) (o : COp) : Statement (.sleepkSource tile o) := fun h =>
  have p := formCSleepSrc_port (noFault h)
  decode_C 0x1b#9 tile o _ p.1 (if_pos p.2) (noFault h)

theorem sleepkSet (tile : BitVec 8) (o : COp) : Statement (.sleepkSet tile o) := fun h =>
  have h0 : formCSleepSet o = none := noFault h
  have h1 := (faultOf_none h0).1
  decode_C 0x1b#9 tile o _ (formCSleepSet_port h0) (by simp [isZeroPort] at h1; simp [instrC]; simp_all) (noFault h)

theorem ld (tile : BitVec 8) (hi : Bool) (o : MOp) : Statement (.ld tile hi o) := fun h =>
  have p := formM_ports (noFault h)
  decode_M 0x0#9 tile hi o _ (canonical_writableM p.2.2.2.1) p.2.2.2.2.2.1 p.2.2.2.2.2.2 rfl (noFault h)

theorem st (tile : BitVec 8) (hi : Bool) (o : MOp) : Statement (.st tile hi o) := fun h =>
  have p := formM_ports (noFault h)
  decode_M 0x1#9 tile hi o _ (canonical_readableM p.2.2.2.1) p.2.2.2.2.2.1 p.2.2.2.2.2.2 rfl (noFault h)

theorem ldq (tile : BitVec 8) (hi : Bool) (o : MOp) : Statement (.ldq tile hi o) := fun h =>
  have p := formM_ports (noFault h)
  decode_M 0x2#9 tile hi o _ (canonical_isLq p.2.2.1) p.2.2.2.2.2.1 p.2.2.2.2.2.2 rfl (noFault h)

theorem stq (tile : BitVec 8) (hi : Bool) (o : MOp) : Statement (.stq tile hi o) := fun h =>
  have p := formM_ports (noFault h)
  decode_M 0x3#9 tile hi o _ (canonical_isSq p.2.2.1) p.2.2.2.2.2.1 p.2.2.2.2.2.2 rfl (noFault h)

theorem ldc (tile : BitVec 8) (hi : Bool) (o : MOp) : Statement (.ldc tile hi o) := fun h =>
  have p := formM_ports (noFault h)
  decode_M 0x4#9 tile hi o _ (canonical_writableM p.2.2.2.1) p.2.2.2.2.2.1 p.2.2.2.2.2.2 rfl (noFault h)

theorem stc (tile : BitVec 8) (hi : Bool) (o : MOp) : Statement (.stc tile hi o) := fun h =>
  have p := formM_ports (noFault h)
  decode_M 0x5#9 tile hi o _ (canonical_readableM p.2.2.2.1) p.2.2.2.2.2.1 p.2.2.2.2.2.2 rfl (noFault h)

theorem pref (tile : BitVec 8) (hi : Bool) (o : MOp) : Statement (.pref tile hi o) := fun h =>
  have p := formM_ports (noFault h)
  decode_M 0x6#9 tile hi o _ (canonical_isZeroPort p.2.2.1) p.2.2.2.2.2.1 p.2.2.2.2.2.2 rfl (noFault h)

theorem rdset (tile : BitVec 8) (hi : Bool) (o : MOp) : Statement (.rdset tile hi o) := fun h =>
  have p := formM_ports (noFault h)
  decode_M 0x7#9 tile hi o _ (canonical_readableM p.2.2.2.1) p.2.2.2.2.2.1 p.2.2.2.2.2.2 (by have q := p.2.1; simp at q; simp [instrM, q]) (noFault h)

theorem rdsetOrg (tile : BitVec 8) (hi : Bool) (o : MOp) : Statement (.rdsetOrg tile hi o) := fun h =>
  have p := formM_ports (noFault h)
  decode_M 0x7#9 tile hi o _ (canonical_readableM p.2.2.2.1) p.2.2.2.2.2.1 p.2.2.2.2.2.2 (by have q := p.2.1; simp at q; simp [instrM, q]) (noFault h)

theorem rdget (tile : BitVec 8) (hi : Bool) (o : MOp) : Statement (.rdget tile hi o) := fun h =>
  have p := formM_ports (noFault h)
  decode_M 0x8#9 tile hi o _ (canonical_writableM p.2.2.2.1) p.2.2.2.2.2.1 p.2.2.2.2.2.2 (by have q := p.2.1; simp at q; simp [instrM, q]) (noFault h)

theorem rdgetOrg (tile : BitVec 8) (hi : Bool) (o : MOp) : Statement (.rdgetOrg tile hi o) := fun h =>
  have p := formM_ports (noFault h)
  decode_M 0x8#9 tile hi o _ (canonical_writableM p.2.2.2.1) p.2.2.2.2.2.1 p.2.2.2.2.2.2 (by have q := p.2.1; simp at q; simp [instrM, q]) (noFault h)

theorem rdadv (tile : BitVec 8) (hi : Bool) (o : MOp) : Statement (.rdadv tile hi o) := fun h =>
  have p := formM_ports (noFault h)
  decode_M 0x9#9 tile hi o _ (canonical_readableM p.2.2.2.1) p.2.2.2.2.2.1 p.2.2.2.2.2.2 (by have q := p.2.1; simp at q; simp [instrM, q]) (noFault h)

theorem rdadvOrg (tile : BitVec 8) (hi : Bool) (o : MOp) : Statement (.rdadvOrg tile hi o) := fun h =>
  have p := formM_ports (noFault h)
  decode_M 0x9#9 tile hi o _ (canonical_readableM p.2.2.2.1) p.2.2.2.2.2.1 p.2.2.2.2.2.2 (by have q := p.2.1; simp at q; simp [instrM, q]) (noFault h)

theorem aadd (tile : BitVec 8) (hi : Bool) (o : MOp) : Statement (.aadd tile hi o) := fun h =>
  have p := formM_ports (noFault h)
  decode_M 0x40#9 tile hi o _ (canonical_readableM p.2.2.2.1) p.2.2.2.2.2.1 p.2.2.2.2.2.2 rfl (noFault h)

theorem aand (tile : BitVec 8) (hi : Bool) (o : MOp) : Statement (.aand tile hi o) := fun h =>
  have p := formM_ports (noFault h)
  decode_M 0x41#9 tile hi o _ (canonical_readableM p.2.2.2.1) p.2.2.2.2.2.1 p.2.2.2.2.2.2 rfl (noFault h)

theorem aor (tile : BitVec 8) (hi : Bool) (o : MOp) : Statement (.aor tile hi o) := fun h =>
  have p := formM_ports (noFault h)
  decode_M 0x42#9 tile hi o _ (canonical_readableM p.2.2.2.1) p.2.2.2.2.2.1 p.2.2.2.2.2.2 rfl (noFault h)

theorem axor (tile : BitVec 8) (hi : Bool) (o : MOp) : Statement (.axor tile hi o) := fun h =>
  have p := formM_ports (noFault h)
  decode_M 0x43#9 tile hi o _ (canonical_readableM p.2.2.2.1) p.2.2.2.2.2.1 p.2.2.2.2.2.2 rfl (noFault h)

theorem amin (tile : BitVec 8) (hi : Bool) (o : MOp) : Statement (.amin tile hi o) := fun h =>
  have p := formM_ports (noFault h)
  decode_M 0x44#9 tile hi o _ (canonical_readableM p.2.2.2.1) p.2.2.2.2.2.1 p.2.2.2.2.2.2 rfl (noFault h)

theorem amax (tile : BitVec 8) (hi : Bool) (o : MOp) : Statement (.amax tile hi o) := fun h =>
  have p := formM_ports (noFault h)
  decode_M 0x45#9 tile hi o _ (canonical_readableM p.2.2.2.1) p.2.2.2.2.2.1 p.2.2.2.2.2.2 rfl (noFault h)

theorem aminn (tile : BitVec 8) (hi : Bool) (o : MOp) : Statement (.aminn tile hi o) := fun h =>
  have p := formM_ports (noFault h)
  decode_M 0x46#9 tile hi o _ (canonical_readableM p.2.2.2.1) p.2.2.2.2.2.1 p.2.2.2.2.2.2 rfl (noFault h)

theorem amaxn (tile : BitVec 8) (hi : Bool) (o : MOp) : Statement (.amaxn tile hi o) := fun h =>
  have p := formM_ports (noFault h)
  decode_M 0x47#9 tile hi o _ (canonical_readableM p.2.2.2.1) p.2.2.2.2.2.1 p.2.2.2.2.2.2 rfl (noFault h)

theorem aswap (tile : BitVec 8) (hi : Bool) (o : MOp) : Statement (.aswap tile hi o) := fun h =>
  have p := formM_ports (noFault h)
  decode_M 0x48#9 tile hi o _ (canonical_readableM p.2.2.2.1) p.2.2.2.2.2.1 p.2.2.2.2.2.2 rfl (noFault h)

theorem acas (tile : BitVec 8) (hi : Bool) (o : MOp) : Statement (.acas tile hi o) := fun h =>
  have p := formM_ports (noFault h)
  decode_M 0x49#9 tile hi o _ (canonical_readableM p.2.2.2.1) p.2.2.2.2.2.1 p.2.2.2.2.2.2 rfl (noFault h)

theorem aincw (tile : BitVec 8) (hi : Bool) (o : MOp) : Statement (.aincw tile hi o) := fun h =>
  have p := formM_ports (noFault h)
  decode_M 0x4a#9 tile hi o _ (canonical_readableM p.2.2.2.1) p.2.2.2.2.2.1 p.2.2.2.2.2.2 rfl (noFault h)

theorem afaddb (tile : BitVec 8) (hi : Bool) (o : MOp) : Statement (.afaddb tile hi o) := fun h =>
  have p := formM_ports (noFault h)
  decode_M 0x4b#9 tile hi o _ (canonical_readableM p.2.2.2.1) p.2.2.2.2.2.1 p.2.2.2.2.2.2 rfl (noFault h)

theorem afaddF32 (tile : BitVec 8) (hi : Bool) (o : MOp) : Statement (.afaddF32 tile hi o) := fun h =>
  have p := formM_ports (noFault h)
  decode_M 0x4c#9 tile hi o _ (canonical_readableM p.2.2.2.1) p.2.2.2.2.2.1 p.2.2.2.2.2.2 rfl (noFault h)

theorem afaddBf16x2 (tile : BitVec 8) (hi : Bool) (o : MOp) : Statement (.afaddBf16x2 tile hi o) := fun h =>
  have p := formM_ports (noFault h)
  decode_M 0x4d#9 tile hi o _ (canonical_readableM p.2.2.2.1) p.2.2.2.2.2.1 p.2.2.2.2.2.2 rfl (noFault h)

theorem kadd (tile : BitVec 8) (hi : Bool) (o : MOp) : Statement (.kadd tile hi o) := fun h =>
  have p := formM_ports (noFault h)
  decode_M 0x80#9 tile hi o _ (canonical_readableM p.2.2.2.1) p.2.2.2.2.2.1 p.2.2.2.2.2.2 rfl (noFault h)

theorem kwait (tile : BitVec 8) (hi : Bool) (o : MOp) : Statement (.kwait tile hi o) := fun h =>
  have p := formM_ports (noFault h)
  decode_M 0x81#9 tile hi o _ (canonical_readableM p.2.2.2.1) p.2.2.2.2.2.1 p.2.2.2.2.2.2 rfl (noFault h)

theorem kread (tile : BitVec 8) (hi : Bool) (o : MOp) : Statement (.kread tile hi o) := fun h =>
  have p := formM_ports (noFault h)
  decode_M 0x82#9 tile hi o _ (canonical_writableM p.2.2.2.1) p.2.2.2.2.2.1 p.2.2.2.2.2.2 rfl (noFault h)

theorem kpoll (tile : BitVec 8) (hi : Bool) (o : MOp) : Statement (.kpoll tile hi o) := fun h =>
  have p := formM_ports (noFault h)
  decode_M 0x83#9 tile hi o _ (canonical_readableM p.2.2.2.1) p.2.2.2.2.2.1 p.2.2.2.2.2.2 rfl (noFault h)

theorem kbind (tile : BitVec 8) (hi : Bool) (o : MOp) : Statement (.kbind tile hi o) := fun h =>
  have p := formM_ports (noFault h)
  decode_M 0x84#9 tile hi o _ (canonical_readableM p.2.2.2.1) p.2.2.2.2.2.1 p.2.2.2.2.2.2 rfl (noFault h)

theorem kinit (tile : BitVec 8) (hi : Bool) (o : MOp) : Statement (.kinit tile hi o) := fun h =>
  have p := formM_ports (noFault h)
  decode_M 0x85#9 tile hi o _ (canonical_readableM p.2.2.2.1) p.2.2.2.2.2.1 p.2.2.2.2.2.2 rfl (noFault h)

theorem add (tile : BitVec 8) (hi : Bool) (o : SOp) : Statement (.add tile hi o) := fun h =>
  decode_S 0x0#9 tile hi o _ (formS2_ports (noFault h)) (by decide) rfl (noFault h)

theorem sub (tile : BitVec 8) (hi : Bool) (o : SOp) : Statement (.sub tile hi o) := fun h =>
  decode_S 0x1#9 tile hi o _ (formS2_ports (noFault h)) (by decide) rfl (noFault h)

theorem mul (tile : BitVec 8) (hi : Bool) (o : SOp) : Statement (.mul tile hi o) := fun h =>
  decode_S 0x2#9 tile hi o _ (formS2_ports (noFault h)) (by decide) rfl (noFault h)

theorem mulh (tile : BitVec 8) (hi : Bool) (o : SOp) : Statement (.mulh tile hi o) := fun h =>
  decode_S 0x3#9 tile hi o _ (formS2_ports (noFault h)) (by decide) rfl (noFault h)

theorem mulhn (tile : BitVec 8) (hi : Bool) (o : SOp) : Statement (.mulhn tile hi o) := fun h =>
  decode_S 0x4#9 tile hi o _ (formS2_ports (noFault h)) (by decide) rfl (noFault h)

theorem div (tile : BitVec 8) (hi : Bool) (o : SOp) : Statement (.div tile hi o) := fun h =>
  decode_S 0x5#9 tile hi o _ (formS2_ports (noFault h)) (by decide) rfl (noFault h)

theorem divn (tile : BitVec 8) (hi : Bool) (o : SOp) : Statement (.divn tile hi o) := fun h =>
  decode_S 0x6#9 tile hi o _ (formS2_ports (noFault h)) (by decide) rfl (noFault h)

theorem rem (tile : BitVec 8) (hi : Bool) (o : SOp) : Statement (.rem tile hi o) := fun h =>
  decode_S 0x7#9 tile hi o _ (formS2_ports (noFault h)) (by decide) rfl (noFault h)

theorem remn (tile : BitVec 8) (hi : Bool) (o : SOp) : Statement (.remn tile hi o) := fun h =>
  decode_S 0x8#9 tile hi o _ (formS2_ports (noFault h)) (by decide) rfl (noFault h)

theorem andOp (tile : BitVec 8) (hi : Bool) (o : SOp) : Statement (.andOp tile hi o) := fun h =>
  decode_S 0x9#9 tile hi o _ (formS2_ports (noFault h)) (by decide) rfl (noFault h)

theorem orOp (tile : BitVec 8) (hi : Bool) (o : SOp) : Statement (.orOp tile hi o) := fun h =>
  decode_S 0xa#9 tile hi o _ (formS2_ports (noFault h)) (by decide) rfl (noFault h)

theorem xorOp (tile : BitVec 8) (hi : Bool) (o : SOp) : Statement (.xorOp tile hi o) := fun h =>
  decode_S 0xb#9 tile hi o _ (formS2_ports (noFault h)) (by decide) rfl (noFault h)

theorem andn (tile : BitVec 8) (hi : Bool) (o : SOp) : Statement (.andn tile hi o) := fun h =>
  decode_S 0xc#9 tile hi o _ (formS2_ports (noFault h)) (by decide) rfl (noFault h)

theorem shl (tile : BitVec 8) (hi : Bool) (o : SOp) : Statement (.shl tile hi o) := fun h =>
  decode_S 0xd#9 tile hi o _ (formS2_ports (noFault h)) (by decide) rfl (noFault h)

theorem shr (tile : BitVec 8) (hi : Bool) (o : SOp) : Statement (.shr tile hi o) := fun h =>
  decode_S 0xe#9 tile hi o _ (formS2_ports (noFault h)) (by decide) rfl (noFault h)

theorem sar (tile : BitVec 8) (hi : Bool) (o : SOp) : Statement (.sar tile hi o) := fun h =>
  decode_S 0xf#9 tile hi o _ (formS2_ports (noFault h)) (by decide) rfl (noFault h)

theorem rol (tile : BitVec 8) (hi : Bool) (o : SOp) : Statement (.rol tile hi o) := fun h =>
  decode_S 0x10#9 tile hi o _ (formS2_ports (noFault h)) (by decide) rfl (noFault h)

theorem minOp (tile : BitVec 8) (hi : Bool) (o : SOp) : Statement (.minOp tile hi o) := fun h =>
  decode_S 0x11#9 tile hi o _ (formS2_ports (noFault h)) (by decide) rfl (noFault h)

theorem maxOp (tile : BitVec 8) (hi : Bool) (o : SOp) : Statement (.maxOp tile hi o) := fun h =>
  decode_S 0x12#9 tile hi o _ (formS2_ports (noFault h)) (by decide) rfl (noFault h)

theorem minn (tile : BitVec 8) (hi : Bool) (o : SOp) : Statement (.minn tile hi o) := fun h =>
  decode_S 0x13#9 tile hi o _ (formS2_ports (noFault h)) (by decide) rfl (noFault h)

theorem maxn (tile : BitVec 8) (hi : Bool) (o : SOp) : Statement (.maxn tile hi o) := fun h =>
  decode_S 0x14#9 tile hi o _ (formS2_ports (noFault h)) (by decide) rfl (noFault h)

theorem clz (tile : BitVec 8) (hi : Bool) (o : SOp) : Statement (.clz tile hi o) := fun h =>
  decode_S 0x15#9 tile hi o _ (formS1_ports (noFault h)) (by decide) rfl (noFault h)

theorem ctz (tile : BitVec 8) (hi : Bool) (o : SOp) : Statement (.ctz tile hi o) := fun h =>
  decode_S 0x16#9 tile hi o _ (formS1_ports (noFault h)) (by decide) rfl (noFault h)

theorem popc (tile : BitVec 8) (hi : Bool) (o : SOp) : Statement (.popc tile hi o) := fun h =>
  decode_S 0x17#9 tile hi o _ (formS1_ports (noFault h)) (by decide) rfl (noFault h)

theorem brev (tile : BitVec 8) (hi : Bool) (o : SOp) : Statement (.brev tile hi o) := fun h =>
  decode_S 0x18#9 tile hi o _ (formS1_ports (noFault h)) (by decide) rfl (noFault h)

theorem bext (tile : BitVec 8) (hi : Bool) (o : SOp) : Statement (.bext tile hi o) := fun h =>
  decode_S 0x19#9 tile hi o _ (formS2_ports (noFault h)) (by decide) rfl (noFault h)

theorem bins (tile : BitVec 8) (hi : Bool) (o : SOp) : Statement (.bins tile hi o) := fun h =>
  decode_S 0x1a#9 tile hi o _ (formSCtl_ports (noFault h)) (by decide) rfl (noFault h)

theorem sel (tile : BitVec 8) (hi : Bool) (o : SOp) : Statement (.sel tile hi o) := fun h =>
  decode_S 0x1b#9 tile hi o _ (formSCtl_ports (noFault h)) (by decide) rfl (noFault h)

theorem mov (tile : BitVec 8) (hi : Bool) (o : SOp) : Statement (.mov tile hi o) := fun h =>
  decode_S 0x1c#9 tile hi o _ (formS1_ports (noFault h)) (by decide) rfl (noFault h)

theorem li (tile : BitVec 8) (hi : Bool) (o : SOp) : Statement (.li tile hi o) := fun h =>
  decode_S 0x1d#9 tile hi o _ (formSLi_ports (noFault h)) (by decide) rfl (noFault h)

theorem lih (tile : BitVec 8) (hi : Bool) (o : SOp) : Statement (.lih tile hi o) := fun h =>
  decode_S 0x1e#9 tile hi o _ (formSLih_ports (noFault h)) (by decide) rfl (noFault h)

theorem madr (tile : BitVec 8) (hi : Bool) (o : SOp) : Statement (.madr tile hi o) := fun h =>
  decode_S 0x1f#9 tile hi o _ (formSCtl_ports (noFault h)) (by decide) rfl (noFault h)

theorem ceq (tile : BitVec 8) (hi : Bool) (o : SOp) : Statement (.ceq tile hi o) := fun h =>
  decode_S 0x20#9 tile hi o _ (formS2_ports (noFault h)) (by decide) rfl (noFault h)

theorem cne (tile : BitVec 8) (hi : Bool) (o : SOp) : Statement (.cne tile hi o) := fun h =>
  decode_S 0x21#9 tile hi o _ (formS2_ports (noFault h)) (by decide) rfl (noFault h)

theorem clt (tile : BitVec 8) (hi : Bool) (o : SOp) : Statement (.clt tile hi o) := fun h =>
  decode_S 0x22#9 tile hi o _ (formS2_ports (noFault h)) (by decide) rfl (noFault h)

theorem cltn (tile : BitVec 8) (hi : Bool) (o : SOp) : Statement (.cltn tile hi o) := fun h =>
  decode_S 0x23#9 tile hi o _ (formS2_ports (noFault h)) (by decide) rfl (noFault h)

theorem cle (tile : BitVec 8) (hi : Bool) (o : SOp) : Statement (.cle tile hi o) := fun h =>
  decode_S 0x24#9 tile hi o _ (formS2_ports (noFault h)) (by decide) rfl (noFault h)

theorem clen (tile : BitVec 8) (hi : Bool) (o : SOp) : Statement (.clen tile hi o) := fun h =>
  decode_S 0x25#9 tile hi o _ (formS2_ports (noFault h)) (by decide) rfl (noFault h)

theorem ctst (tile : BitVec 8) (hi : Bool) (o : SOp) : Statement (.ctst tile hi o) := fun h =>
  decode_S 0x26#9 tile hi o _ (formS2_ports (noFault h)) (by decide) rfl (noFault h)

theorem pand (tile : BitVec 8) (hi : Bool) (o : SOp) : Statement (.pand tile hi o) := fun h =>
  decode_S 0x27#9 tile hi o _ (formS2_ports (noFault h)) (by decide) rfl (noFault h)

theorem por (tile : BitVec 8) (hi : Bool) (o : SOp) : Statement (.por tile hi o) := fun h =>
  decode_S 0x28#9 tile hi o _ (formS2_ports (noFault h)) (by decide) rfl (noFault h)

theorem pnot (tile : BitVec 8) (hi : Bool) (o : SOp) : Statement (.pnot tile hi o) := fun h =>
  decode_S 0x29#9 tile hi o _ (formS1_ports (noFault h)) (by decide) rfl (noFault h)

theorem fadd (tile : BitVec 8) (hi : Bool) (o : SOp) : Statement (.fadd tile hi o) := fun h =>
  decode_S 0x2a#9 tile hi o _ (formSCtl_ports (noFault h)) (by decide) rfl (noFault h)

theorem fsub (tile : BitVec 8) (hi : Bool) (o : SOp) : Statement (.fsub tile hi o) := fun h =>
  decode_S 0x2b#9 tile hi o _ (formSCtl_ports (noFault h)) (by decide) rfl (noFault h)

theorem fmul (tile : BitVec 8) (hi : Bool) (o : SOp) : Statement (.fmul tile hi o) := fun h =>
  decode_S 0x2c#9 tile hi o _ (formSCtl_ports (noFault h)) (by decide) rfl (noFault h)

theorem ffma (tile : BitVec 8) (hi : Bool) (o : SOp) : Statement (.ffma tile hi o) := fun h =>
  decode_S 0x2d#9 tile hi o _ (formSCtl_ports (noFault h)) (by decide) rfl (noFault h)

theorem fmin (tile : BitVec 8) (hi : Bool) (o : SOp) : Statement (.fmin tile hi o) := fun h =>
  decode_S 0x2e#9 tile hi o _ (formSCtl_ports (noFault h)) (by decide) rfl (noFault h)

theorem fmax (tile : BitVec 8) (hi : Bool) (o : SOp) : Statement (.fmax tile hi o) := fun h =>
  decode_S 0x2f#9 tile hi o _ (formSCtl_ports (noFault h)) (by decide) rfl (noFault h)

theorem fcmp (tile : BitVec 8) (hi : Bool) (o : SOp) : Statement (.fcmp tile hi o) := fun h =>
  decode_S 0x30#9 tile hi o _ (formSCtl_ports (noFault h)) (by decide) rfl (noFault h)

theorem fcvt (tile : BitVec 8) (hi : Bool) (o : SOp) : Statement (.fcvt tile hi o) := fun h =>
  decode_S 0x31#9 tile hi o _ (formSCvt_ports (noFault h)) (by decide) rfl (noFault h)

theorem vadd (tile : BitVec 8) (hi : Bool) (o : VOp) : Statement (.vadd tile hi o) := fun h =>
  decode_V 0x100#9 tile hi o _ (by decide) rfl (noFault h)

theorem vsub (tile : BitVec 8) (hi : Bool) (o : VOp) : Statement (.vsub tile hi o) := fun h =>
  decode_V 0x101#9 tile hi o _ (by decide) rfl (noFault h)

theorem vmul (tile : BitVec 8) (hi : Bool) (o : VOp) : Statement (.vmul tile hi o) := fun h =>
  decode_V 0x102#9 tile hi o _ (by decide) rfl (noFault h)

theorem vfma (tile : BitVec 8) (hi : Bool) (o : VOp) : Statement (.vfma tile hi o) := fun h =>
  decode_V 0x103#9 tile hi o _ (by decide) rfl (noFault h)

theorem vmin (tile : BitVec 8) (hi : Bool) (o : VOp) : Statement (.vmin tile hi o) := fun h =>
  decode_V 0x104#9 tile hi o _ (by decide) rfl (noFault h)

theorem vmax (tile : BitVec 8) (hi : Bool) (o : VOp) : Statement (.vmax tile hi o) := fun h =>
  decode_V 0x105#9 tile hi o _ (by decide) rfl (noFault h)

theorem vabs (tile : BitVec 8) (hi : Bool) (o : VOp) : Statement (.vabs tile hi o) := fun h =>
  decode_V 0x106#9 tile hi o _ (by decide) rfl (noFault h)

theorem vneg (tile : BitVec 8) (hi : Bool) (o : VOp) : Statement (.vneg tile hi o) := fun h =>
  decode_V 0x107#9 tile hi o _ (by decide) rfl (noFault h)

theorem vrcp (tile : BitVec 8) (hi : Bool) (o : VOp) : Statement (.vrcp tile hi o) := fun h =>
  decode_V 0x108#9 tile hi o _ (by decide) rfl (noFault h)

theorem vrsqrt (tile : BitVec 8) (hi : Bool) (o : VOp) : Statement (.vrsqrt tile hi o) := fun h =>
  decode_V 0x109#9 tile hi o _ (by decide) rfl (noFault h)

theorem vsqrt (tile : BitVec 8) (hi : Bool) (o : VOp) : Statement (.vsqrt tile hi o) := fun h =>
  decode_V 0x10a#9 tile hi o _ (by decide) rfl (noFault h)

theorem vexp2 (tile : BitVec 8) (hi : Bool) (o : VOp) : Statement (.vexp2 tile hi o) := fun h =>
  decode_V 0x10b#9 tile hi o _ (by decide) rfl (noFault h)

theorem vlog2 (tile : BitVec 8) (hi : Bool) (o : VOp) : Statement (.vlog2 tile hi o) := fun h =>
  decode_V 0x10c#9 tile hi o _ (by decide) rfl (noFault h)

theorem vtanh (tile : BitVec 8) (hi : Bool) (o : VOp) : Statement (.vtanh tile hi o) := fun h =>
  decode_V 0x10d#9 tile hi o _ (by decide) rfl (noFault h)

theorem vcvt (tile : BitVec 8) (hi : Bool) (o : VOp) : Statement (.vcvt tile hi o) := fun h =>
  decode_V 0x10e#9 tile hi o _ (by decide) rfl (noFault h)

theorem vscl (tile : BitVec 8) (hi : Bool) (o : VOp) : Statement (.vscl tile hi o) := fun h =>
  decode_V 0x10f#9 tile hi o _ (by decide) rfl (noFault h)

theorem vamax (tile : BitVec 8) (hi : Bool) (o : VOp) : Statement (.vamax tile hi o) := fun h =>
  decode_V 0x110#9 tile hi o _ (by decide) rfl (noFault h)

theorem vand (tile : BitVec 8) (hi : Bool) (o : VOp) : Statement (.vand tile hi o) := fun h =>
  decode_V 0x111#9 tile hi o _ (by decide) rfl (noFault h)

theorem vor (tile : BitVec 8) (hi : Bool) (o : VOp) : Statement (.vor tile hi o) := fun h =>
  decode_V 0x112#9 tile hi o _ (by decide) rfl (noFault h)

theorem vxor (tile : BitVec 8) (hi : Bool) (o : VOp) : Statement (.vxor tile hi o) := fun h =>
  decode_V 0x113#9 tile hi o _ (by decide) rfl (noFault h)

theorem vnot (tile : BitVec 8) (hi : Bool) (o : VOp) : Statement (.vnot tile hi o) := fun h =>
  decode_V 0x114#9 tile hi o _ (by decide) rfl (noFault h)

theorem vshl (tile : BitVec 8) (hi : Bool) (o : VOp) : Statement (.vshl tile hi o) := fun h =>
  decode_V 0x115#9 tile hi o _ (by decide) rfl (noFault h)

theorem vshr (tile : BitVec 8) (hi : Bool) (o : VOp) : Statement (.vshr tile hi o) := fun h =>
  decode_V 0x116#9 tile hi o _ (by decide) rfl (noFault h)

theorem vsar (tile : BitVec 8) (hi : Bool) (o : VOp) : Statement (.vsar tile hi o) := fun h =>
  decode_V 0x117#9 tile hi o _ (by decide) rfl (noFault h)

theorem vcmp (tile : BitVec 8) (hi : Bool) (o : VOp) : Statement (.vcmp tile hi o) := fun h =>
  decode_V 0x118#9 tile hi o _ (by decide) rfl (noFault h)

theorem vsel (tile : BitVec 8) (hi : Bool) (o : VOp) : Statement (.vsel tile hi o) := fun h =>
  decode_V 0x119#9 tile hi o _ (by decide) rfl (noFault h)

theorem vbcast (tile : BitVec 8) (hi : Bool) (o : VOp) : Statement (.vbcast tile hi o) := fun h =>
  decode_V 0x11a#9 tile hi o _ (by decide) rfl (noFault h)

theorem vcopy (tile : BitVec 8) (hi : Bool) (o : VOp) : Statement (.vcopy tile hi o) := fun h =>
  decode_V 0x11b#9 tile hi o _ (by decide) rfl (noFault h)

theorem vperm (tile : BitVec 8) (hi : Bool) (o : VOp) : Statement (.vperm tile hi o) := fun h =>
  decode_V 0x11c#9 tile hi o _ (by decide) rfl (noFault h)

theorem viota (tile : BitVec 8) (hi : Bool) (o : VOp) : Statement (.viota tile hi o) := fun h =>
  decode_V 0x11d#9 tile hi o _ (by decide) rfl (noFault h)

theorem vredsum (tile : BitVec 8) (hi : Bool) (o : VOp) : Statement (.vredsum tile hi o) := fun h =>
  decode_V 0x11e#9 tile hi o _ (by decide) rfl (noFault h)

theorem vredmax (tile : BitVec 8) (hi : Bool) (o : VOp) : Statement (.vredmax tile hi o) := fun h =>
  decode_V 0x11f#9 tile hi o _ (by decide) rfl (noFault h)

theorem vredmin (tile : BitVec 8) (hi : Bool) (o : VOp) : Statement (.vredmin tile hi o) := fun h =>
  decode_V 0x120#9 tile hi o _ (by decide) rfl (noFault h)

theorem vscan (tile : BitVec 8) (hi : Bool) (o : VOp) : Statement (.vscan tile hi o) := fun h =>
  decode_V 0x121#9 tile hi o _ (by decide) rfl (noFault h)

theorem vsqsum (tile : BitVec 8) (hi : Bool) (o : VOp) : Statement (.vsqsum tile hi o) := fun h =>
  decode_V 0x122#9 tile hi o _ (by decide) rfl (noFault h)

theorem vdot (tile : BitVec 8) (hi : Bool) (o : VOp) : Statement (.vdot tile hi o) := fun h =>
  decode_V 0x123#9 tile hi o _ (by decide) rfl (noFault h)

theorem vrng (tile : BitVec 8) (hi : Bool) (o : VOp) : Statement (.vrng tile hi o) := fun h =>
  decode_V 0x124#9 tile hi o _ (by decide) rfl (noFault h)

theorem vdrop (tile : BitVec 8) (hi : Bool) (o : VOp) : Statement (.vdrop tile hi o) := fun h =>
  decode_V 0x125#9 tile hi o _ (by decide) rfl (noFault h)

theorem vkat (tile : BitVec 8) (hi : Bool) (o : VOp) : Statement (.vkat tile hi o) := fun h =>
  decode_V 0x126#9 tile hi o _ (by decide) rfl (noFault h)

theorem vclamp (tile : BitVec 8) (hi : Bool) (o : VOp) : Statement (.vclamp tile hi o) := fun h =>
  decode_V 0x127#9 tile hi o _ (by decide) rfl (noFault h)

theorem vpopc (tile : BitVec 8) (hi : Bool) (o : VOp) : Statement (.vpopc tile hi o) := fun h =>
  decode_V 0x128#9 tile hi o _ (by decide) rfl (noFault h)

theorem vcompress (tile : BitVec 8) (hi : Bool) (o : VOp) : Statement (.vcompress tile hi o) := fun h =>
  decode_V 0x129#9 tile hi o _ (by decide) rfl (noFault h)

theorem vexpand (tile : BitVec 8) (hi : Bool) (o : VOp) : Statement (.vexpand tile hi o) := fun h =>
  decode_V 0x12a#9 tile hi o _ (by decide) rfl (noFault h)

theorem ewr (tile : BitVec 8) (o : EOp) : Statement (.ewr tile o) := fun h =>
  decode_E 0x0#9 tile o _ (formEwr_port (noFault h)) rfl (noFault h)

theorem erd (tile : BitVec 8) (o : EOp) : Statement (.erd tile o) := fun h =>
  decode_E 0x1#9 tile o _ (formErd_port (noFault h)) rfl (noFault h)

theorem etrig (tile : BitVec 8) (o : EOp) : Statement (.etrig tile o) := fun h =>
  decode_E 0x2#9 tile o _ (formEtrig_port (noFault h)) rfl (noFault h)

theorem eabort (tile : BitVec 8) (o : EOp) : Statement (.eabort tile o) := fun h =>
  decode_E 0x3#9 tile o _ (formE0_port (noFault h)) rfl (noFault h)

theorem ewaitq (tile : BitVec 8) (o : EOp) : Statement (.ewaitq tile o) := fun h =>
  decode_E 0x4#9 tile o _ (formE0_port (noFault h)) rfl (noFault h)

theorem packageReset (cfail : BitVec 9) (pfail : BitVec 4) (ports : BitVec 2) : Statement (.packageReset cfail pfail ports) := fun _ =>
  decode_event 0#9 (cfail.setWidth 64) (pfail.setWidth 64) (ports.setWidth 64) 0#64 _ ((if_pos (fits4 (laneFits_setWidth 9 cfail (by decide)) (laneFits_setWidth 4 pfail (by decide)) (laneFits_setWidth 2 ports (by decide)) (laneFits_zero 0))).trans (by simp only [eventStep, setWidth_back 9 cfail (by decide), setWidth_back 4 pfail (by decide), setWidth_back 2 ports (by decide)]))

theorem toldodyLinkTrained (link : BitVec 6) (reva : BitVec 16) (revb : BitVec 16) : Statement (.toldodyLinkTrained link reva revb) := fun _ =>
  decode_event 1#9 (link.setWidth 64) (reva.setWidth 64) (revb.setWidth 64) 0#64 _ ((if_pos (fits4 (laneFits_setWidth 6 link (by decide)) (laneFits_setWidth 16 reva (by decide)) (laneFits_setWidth 16 revb (by decide)) (laneFits_zero 0))).trans (by simp only [eventStep, setWidth_back 6 link (by decide), setWidth_back 16 reva (by decide), setWidth_back 16 revb (by decide)]))

theorem securityAlarm (src : BitVec 2) : Statement (.securityAlarm src) := fun _ =>
  decode_event 3#9 (src.setWidth 64) 0#64 0#64 0#64 _ ((if_pos (fits4 (laneFits_setWidth 2 src (by decide)) (laneFits_zero 0) (laneFits_zero 0) (laneFits_zero 0))).trans (by simp only [eventStep, setWidth_back 2 src (by decide)]))

theorem dieLost (die : BitVec 3) : Statement (.dieLost die) := fun _ =>
  decode_event 4#9 (die.setWidth 64) 0#64 0#64 0#64 _ ((if_pos (fits4 (laneFits_setWidth 3 die (by decide)) (laneFits_zero 0) (laneFits_zero 0) (laneFits_zero 0))).trans (by simp only [eventStep, setWidth_back 3 die (by decide)]))

theorem strandLinkUp (port : BitVec 4) (peer : BitVec 12) (pport : BitVec 4) (peerTime : BitVec 64) : Statement (.strandLinkUp port peer pport peerTime) := fun _ =>
  decode_event 5#9 (port.setWidth 64) (peer.setWidth 64) (pport.setWidth 64) (peerTime.setWidth 64) _ ((if_pos (fits4 (laneFits_setWidth 4 port (by decide)) (laneFits_setWidth 12 peer (by decide)) (laneFits_setWidth 4 pport (by decide)) (laneFits_setWidth 64 peerTime (by decide)))).trans (by simp only [eventStep, setWidth_back 4 port (by decide), setWidth_back 12 peer (by decide), setWidth_back 4 pport (by decide), setWidth_back 64 peerTime (by decide)]))

theorem strandLinkDown (port : BitVec 4) : Statement (.strandLinkDown port) := fun _ =>
  decode_event 6#9 (port.setWidth 64) 0#64 0#64 0#64 _ ((if_pos (fits4 (laneFits_setWidth 4 port (by decide)) (laneFits_zero 0) (laneFits_zero 0) (laneFits_zero 0))).trans (by simp only [eventStep, setWidth_back 4 port (by decide)]))

theorem timeAlignExchange (port : BitVec 4) (peerTime : BitVec 64) : Statement (.timeAlignExchange port peerTime) := fun _ =>
  decode_event 7#9 (port.setWidth 64) (peerTime.setWidth 64) 0#64 0#64 _ ((if_pos (fits4 (laneFits_setWidth 4 port (by decide)) (laneFits_setWidth 64 peerTime (by decide)) (laneFits_zero 0) (laneFits_zero 0))).trans (by simp only [eventStep, setWidth_back 4 port (by decide), setWidth_back 64 peerTime (by decide)]))

theorem strandReelAdd (port : BitVec 4) (asid : BitVec 11) (addr : BitVec 64) (v : BitVec 64) : Statement (.strandReelAdd port asid addr v) := fun _ =>
  decode_event 8#9 (port.setWidth 64) (asid.setWidth 64) (addr.setWidth 64) (v.setWidth 64) _ ((if_pos (fits4 (laneFits_setWidth 4 port (by decide)) (laneFits_setWidth 11 asid (by decide)) (laneFits_setWidth 64 addr (by decide)) (laneFits_setWidth 64 v (by decide)))).trans (by simp only [eventStep, setWidth_back 4 port (by decide), setWidth_back 11 asid (by decide), setWidth_back 64 addr (by decide), setWidth_back 64 v (by decide)]))

theorem freqCmd (host : BitVec 1) (val : BitVec 64) : Statement (.freqCmd host val) := fun _ =>
  decode_event 9#9 (host.setWidth 64) (val.setWidth 64) 0#64 0#64 _ ((if_pos (fits4 (laneFits_setWidth 1 host (by decide)) (laneFits_setWidth 64 val (by decide)) (laneFits_zero 0) (laneFits_zero 0))).trans (by simp only [eventStep, setWidth_back 1 host (by decide), setWidth_back 64 val (by decide)]))

theorem lqTailWrite (host : BitVec 1) (level : BitVec 5) (val : BitVec 64) : Statement (.lqTailWrite host level val) := fun _ =>
  decode_event 12#9 (host.setWidth 64) (level.setWidth 64) (val.setWidth 64) 0#64 _ ((if_pos (fits4 (laneFits_setWidth 1 host (by decide)) (laneFits_setWidth 5 level (by decide)) (laneFits_setWidth 64 val (by decide)) (laneFits_zero 0))).trans (by simp only [eventStep, setWidth_back 1 host (by decide), setWidth_back 5 level (by decide), setWidth_back 64 val (by decide)]))

theorem lqCtlWrite (host : BitVec 1) (level : BitVec 5) (val : BitVec 64) : Statement (.lqCtlWrite host level val) := fun _ =>
  decode_event 13#9 (host.setWidth 64) (level.setWidth 64) (val.setWidth 64) 0#64 _ ((if_pos (fits4 (laneFits_setWidth 1 host (by decide)) (laneFits_setWidth 5 level (by decide)) (laneFits_setWidth 64 val (by decide)) (laneFits_zero 0))).trans (by simp only [eventStep, setWidth_back 1 host (by decide), setWidth_back 5 level (by decide), setWidth_back 64 val (by decide)]))

theorem lqBaseWrite (host : BitVec 1) (level : BitVec 5) (val : BitVec 64) : Statement (.lqBaseWrite host level val) := fun _ =>
  decode_event 14#9 (host.setWidth 64) (level.setWidth 64) (val.setWidth 64) 0#64 _ ((if_pos (fits4 (laneFits_setWidth 1 host (by decide)) (laneFits_setWidth 5 level (by decide)) (laneFits_setWidth 64 val (by decide)) (laneFits_zero 0))).trans (by simp only [eventStep, setWidth_back 1 host (by decide), setWidth_back 5 level (by decide), setWidth_back 64 val (by decide)]))

theorem bobbinPickup (tile : BitVec 8) : Statement (.bobbinPickup tile) := fun _ =>
  decode_event 20#9 (tile.setWidth 64) 0#64 0#64 0#64 _ ((if_pos (fits4 (laneFits_setWidth 8 tile (by decide)) (laneFits_zero 0) (laneFits_zero 0) (laneFits_zero 0))).trans (by simp only [eventStep, setWidth_back 8 tile (by decide)]))

theorem stealAttempt (tile : BitVec 8) : Statement (.stealAttempt tile) := fun _ =>
  decode_event 21#9 (tile.setWidth 64) 0#64 0#64 0#64 _ ((if_pos (fits4 (laneFits_setWidth 8 tile (by decide)) (laneFits_zero 0) (laneFits_zero 0) (laneFits_zero 0))).trans (by simp only [eventStep, setWidth_back 8 tile (by decide)]))

theorem stewardSteal (tile : BitVec 8) : Statement (.stewardSteal tile) := fun _ =>
  decode_event 22#9 (tile.setWidth 64) 0#64 0#64 0#64 _ ((if_pos (fits4 (laneFits_setWidth 8 tile (by decide)) (laneFits_zero 0) (laneFits_zero 0) (laneFits_zero 0))).trans (by simp only [eventStep, setWidth_back 8 tile (by decide)]))

theorem indexFetch (tile : BitVec 8) : Statement (.indexFetch tile) := fun _ =>
  decode_event 23#9 (tile.setWidth 64) 0#64 0#64 0#64 _ ((if_pos (fits4 (laneFits_setWidth 8 tile (by decide)) (laneFits_zero 0) (laneFits_zero 0) (laneFits_zero 0))).trans (by simp only [eventStep, setWidth_back 8 tile (by decide)]))

theorem bundleDispatch (tile : BitVec 8) : Statement (.bundleDispatch tile) := fun _ =>
  decode_event 26#9 (tile.setWidth 64) 0#64 0#64 0#64 _ ((if_pos (fits4 (laneFits_setWidth 8 tile (by decide)) (laneFits_zero 0) (laneFits_zero 0) (laneFits_zero 0))).trans (by simp only [eventStep, setWidth_back 8 tile (by decide)]))

theorem bundleCommit (tile : BitVec 8) : Statement (.bundleCommit tile) := fun _ =>
  decode_event 27#9 (tile.setWidth 64) 0#64 0#64 0#64 _ ((if_pos (fits4 (laneFits_setWidth 8 tile (by decide)) (laneFits_zero 0) (laneFits_zero 0) (laneFits_zero 0))).trans (by simp only [eventStep, setWidth_back 8 tile (by decide)]))

theorem resultLanding (tile : BitVec 8) : Statement (.resultLanding tile) := fun _ =>
  decode_event 28#9 (tile.setWidth 64) 0#64 0#64 0#64 _ ((if_pos (fits4 (laneFits_setWidth 8 tile (by decide)) (laneFits_zero 0) (laneFits_zero 0) (laneFits_zero 0))).trans (by simp only [eventStep, setWidth_back 8 tile (by decide)]))

theorem remoteReplyArrival (tile : BitVec 8) (req : BitVec 16) : Statement (.remoteReplyArrival tile req) := fun _ =>
  decode_event 29#9 (tile.setWidth 64) (req.setWidth 64) 0#64 0#64 _ ((if_pos (fits4 (laneFits_setWidth 8 tile (by decide)) (laneFits_setWidth 16 req (by decide)) (laneFits_zero 0) (laneFits_zero 0))).trans (by simp only [eventStep, setWidth_back 8 tile (by decide), setWidth_back 16 req (by decide)]))

theorem freezeBegin (tile : BitVec 8) : Statement (.freezeBegin tile) := fun _ =>
  decode_event 30#9 (tile.setWidth 64) 0#64 0#64 0#64 _ ((if_pos (fits4 (laneFits_setWidth 8 tile (by decide)) (laneFits_zero 0) (laneFits_zero 0) (laneFits_zero 0))).trans (by simp only [eventStep, setWidth_back 8 tile (by decide)]))

theorem lateTransitionFlag (tile : BitVec 8) : Statement (.lateTransitionFlag tile) := fun _ =>
  decode_event 32#9 (tile.setWidth 64) 0#64 0#64 0#64 _ ((if_pos (fits4 (laneFits_setWidth 8 tile (by decide)) (laneFits_zero 0) (laneFits_zero 0) (laneFits_zero 0))).trans (by simp only [eventStep, setWidth_back 8 tile (by decide)]))

theorem clockStretch (tile : BitVec 8) : Statement (.clockStretch tile) := fun _ =>
  decode_event 33#9 (tile.setWidth 64) 0#64 0#64 0#64 _ ((if_pos (fits4 (laneFits_setWidth 8 tile (by decide)) (laneFits_zero 0) (laneFits_zero 0) (laneFits_zero 0))).trans (by simp only [eventStep, setWidth_back 8 tile (by decide)]))

theorem preciseTrap (tile : BitVec 8) : Statement (.preciseTrap tile) := fun _ =>
  decode_event 34#9 (tile.setWidth 64) 0#64 0#64 0#64 _ ((if_pos (fits4 (laneFits_setWidth 8 tile (by decide)) (laneFits_zero 0) (laneFits_zero 0) (laneFits_zero 0))).trans (by simp only [eventStep, setWidth_back 8 tile (by decide)]))

theorem inFlightFault (tile : BitVec 8) : Statement (.inFlightFault tile) := fun _ =>
  decode_event 35#9 (tile.setWidth 64) 0#64 0#64 0#64 _ ((if_pos (fits4 (laneFits_setWidth 8 tile (by decide)) (laneFits_zero 0) (laneFits_zero 0) (laneFits_zero 0))).trans (by simp only [eventStep, setWidth_back 8 tile (by decide)]))

theorem frCtlWrite (host : BitVec 1) (ring : BitVec 4) (val : BitVec 64) : Statement (.frCtlWrite host ring val) := fun _ =>
  decode_event 37#9 (host.setWidth 64) (ring.setWidth 64) (val.setWidth 64) 0#64 _ ((if_pos (fits4 (laneFits_setWidth 1 host (by decide)) (laneFits_setWidth 4 ring (by decide)) (laneFits_setWidth 64 val (by decide)) (laneFits_zero 0))).trans (by simp only [eventStep, setWidth_back 1 host (by decide), setWidth_back 4 ring (by decide), setWidth_back 64 val (by decide)]))

theorem frBaseWrite (host : BitVec 1) (ring : BitVec 4) (val : BitVec 64) : Statement (.frBaseWrite host ring val) := fun _ =>
  decode_event 38#9 (host.setWidth 64) (ring.setWidth 64) (val.setWidth 64) 0#64 _ ((if_pos (fits4 (laneFits_setWidth 1 host (by decide)) (laneFits_setWidth 4 ring (by decide)) (laneFits_setWidth 64 val (by decide)) (laneFits_zero 0))).trans (by simp only [eventStep, setWidth_back 1 host (by decide), setWidth_back 4 ring (by decide), setWidth_back 64 val (by decide)]))

theorem frHeadWrite (host : BitVec 1) (ring : BitVec 4) (val : BitVec 64) : Statement (.frHeadWrite host ring val) := fun _ =>
  decode_event 39#9 (host.setWidth 64) (ring.setWidth 64) (val.setWidth 64) 0#64 _ ((if_pos (fits4 (laneFits_setWidth 1 host (by decide)) (laneFits_setWidth 4 ring (by decide)) (laneFits_setWidth 64 val (by decide)) (laneFits_zero 0))).trans (by simp only [eventStep, setWidth_back 1 host (by decide), setWidth_back 4 ring (by decide), setWidth_back 64 val (by decide)]))

theorem frStatIpendClear (host : BitVec 1) (ring : BitVec 4) (val : BitVec 64) : Statement (.frStatIpendClear host ring val) := fun _ =>
  decode_event 40#9 (host.setWidth 64) (ring.setWidth 64) (val.setWidth 64) 0#64 _ ((if_pos (fits4 (laneFits_setWidth 1 host (by decide)) (laneFits_setWidth 4 ring (by decide)) (laneFits_setWidth 64 val (by decide)) (laneFits_zero 0))).trans (by simp only [eventStep, setWidth_back 1 host (by decide), setWidth_back 4 ring (by decide), setWidth_back 64 val (by decide)]))

theorem nodeResume (host : BitVec 1) (val : BitVec 64) : Statement (.nodeResume host val) := fun _ =>
  decode_event 41#9 (host.setWidth 64) (val.setWidth 64) 0#64 0#64 _ ((if_pos (fits4 (laneFits_setWidth 1 host (by decide)) (laneFits_setWidth 64 val (by decide)) (laneFits_zero 0) (laneFits_zero 0))).trans (by simp only [eventStep, setWidth_back 1 host (by decide), setWidth_back 64 val (by decide)]))

theorem nodeResumeOver (host : BitVec 1) (val : BitVec 64) : Statement (.nodeResumeOver host val) := fun _ =>
  decode_event 42#9 (host.setWidth 64) (val.setWidth 64) 0#64 0#64 _ ((if_pos (fits4 (laneFits_setWidth 1 host (by decide)) (laneFits_setWidth 64 val (by decide)) (laneFits_zero 0) (laneFits_zero 0))).trans (by simp only [eventStep, setWidth_back 1 host (by decide), setWidth_back 64 val (by decide)]))

theorem nodeSave (host : BitVec 1) (val : BitVec 64) : Statement (.nodeSave host val) := fun _ =>
  decode_event 43#9 (host.setWidth 64) (val.setWidth 64) 0#64 0#64 _ ((if_pos (fits4 (laneFits_setWidth 1 host (by decide)) (laneFits_setWidth 64 val (by decide)) (laneFits_zero 0) (laneFits_zero 0))).trans (by simp only [eventStep, setWidth_back 1 host (by decide), setWidth_back 64 val (by decide)]))

theorem nodeKill (host : BitVec 1) (val : BitVec 64) : Statement (.nodeKill host val) := fun _ =>
  decode_event 44#9 (host.setWidth 64) (val.setWidth 64) 0#64 0#64 _ ((if_pos (fits4 (laneFits_setWidth 1 host (by decide)) (laneFits_setWidth 64 val (by decide)) (laneFits_zero 0) (laneFits_zero 0))).trans (by simp only [eventStep, setWidth_back 1 host (by decide), setWidth_back 64 val (by decide)]))

theorem nodeYield (host : BitVec 1) (val : BitVec 64) : Statement (.nodeYield host val) := fun _ =>
  decode_event 45#9 (host.setWidth 64) (val.setWidth 64) 0#64 0#64 _ ((if_pos (fits4 (laneFits_setWidth 1 host (by decide)) (laneFits_setWidth 64 val (by decide)) (laneFits_zero 0) (laneFits_zero 0))).trans (by simp only [eventStep, setWidth_back 1 host (by decide), setWidth_back 64 val (by decide)]))

theorem tlbiPage (host : BitVec 1) (val : BitVec 64) : Statement (.tlbiPage host val) := fun _ =>
  decode_event 51#9 (host.setWidth 64) (val.setWidth 64) 0#64 0#64 _ ((if_pos (fits4 (laneFits_setWidth 1 host (by decide)) (laneFits_setWidth 64 val (by decide)) (laneFits_zero 0) (laneFits_zero 0))).trans (by simp only [eventStep, setWidth_back 1 host (by decide), setWidth_back 64 val (by decide)]))

theorem tlbiAsid (host : BitVec 1) (val : BitVec 64) : Statement (.tlbiAsid host val) := fun _ =>
  decode_event 52#9 (host.setWidth 64) (val.setWidth 64) 0#64 0#64 _ ((if_pos (fits4 (laneFits_setWidth 1 host (by decide)) (laneFits_setWidth 64 val (by decide)) (laneFits_zero 0) (laneFits_zero 0))).trans (by simp only [eventStep, setWidth_back 1 host (by decide), setWidth_back 64 val (by decide)]))

theorem tlbiHost (host : BitVec 1) (val : BitVec 64) : Statement (.tlbiHost host val) := fun _ =>
  decode_event 53#9 (host.setWidth 64) (val.setWidth 64) 0#64 0#64 _ ((if_pos (fits4 (laneFits_setWidth 1 host (by decide)) (laneFits_setWidth 64 val (by decide)) (laneFits_zero 0) (laneFits_zero 0))).trans (by simp only [eventStep, setWidth_back 1 host (by decide), setWidth_back 64 val (by decide)]))

theorem frzFreeze (host : BitVec 1) (val : BitVec 64) : Statement (.frzFreeze host val) := fun _ =>
  decode_event 55#9 (host.setWidth 64) (val.setWidth 64) 0#64 0#64 _ ((if_pos (fits4 (laneFits_setWidth 1 host (by decide)) (laneFits_setWidth 64 val (by decide)) (laneFits_zero 0) (laneFits_zero 0))).trans (by simp only [eventStep, setWidth_back 1 host (by decide), setWidth_back 64 val (by decide)]))

theorem frzThaw (host : BitVec 1) (val : BitVec 64) : Statement (.frzThaw host val) := fun _ =>
  decode_event 56#9 (host.setWidth 64) (val.setWidth 64) 0#64 0#64 _ ((if_pos (fits4 (laneFits_setWidth 1 host (by decide)) (laneFits_setWidth 64 val (by decide)) (laneFits_zero 0) (laneFits_zero 0))).trans (by simp only [eventStep, setWidth_back 1 host (by decide), setWidth_back 64 val (by decide)]))

theorem patrolScrubRead (channel : BitVec 8) : Statement (.patrolScrubRead channel) := fun _ =>
  decode_event 68#9 (channel.setWidth 64) 0#64 0#64 0#64 _ ((if_pos (fits4 (laneFits_setWidth 8 channel (by decide)) (laneFits_zero 0) (laneFits_zero 0) (laneFits_zero 0))).trans (by simp only [eventStep, setWidth_back 8 channel (by decide)]))

theorem windowBarAccess (host : BitVec 1) (addr : BitVec 64) (ctl : BitVec 8) (data : BitVec 64) : Statement (.windowBarAccess host addr ctl data) := fun _ =>
  decode_event 69#9 (host.setWidth 64) (addr.setWidth 64) (ctl.setWidth 64) (data.setWidth 64) _ ((if_pos (fits4 (laneFits_setWidth 1 host (by decide)) (laneFits_setWidth 64 addr (by decide)) (laneFits_setWidth 8 ctl (by decide)) (laneFits_setWidth 64 data (by decide)))).trans (by simp only [eventStep, setWidth_back 1 host (by decide), setWidth_back 64 addr (by decide), setWidth_back 8 ctl (by decide), setWidth_back 64 data (by decide)]))

theorem completerAtomicop (ctl : BitVec 8) (addr : BitVec 64) (data : BitVec 64) (data2 : BitVec 64) : Statement (.completerAtomicop ctl addr data data2) := fun _ =>
  decode_event 70#9 (ctl.setWidth 64) (addr.setWidth 64) (data.setWidth 64) (data2.setWidth 64) _ ((if_pos (fits4 (laneFits_setWidth 8 ctl (by decide)) (laneFits_setWidth 64 addr (by decide)) (laneFits_setWidth 64 data (by decide)) (laneFits_setWidth 64 data2 (by decide)))).trans (by simp only [eventStep, setWidth_back 8 ctl (by decide), setWidth_back 64 addr (by decide), setWidth_back 64 data (by decide), setWidth_back 64 data2 (by decide)]))

theorem hkadd (host : BitVec 1) (val : BitVec 64) : Statement (.hkadd host val) := fun _ =>
  decode_event 71#9 (host.setWidth 64) (val.setWidth 64) 0#64 0#64 _ ((if_pos (fits4 (laneFits_setWidth 1 host (by decide)) (laneFits_setWidth 64 val (by decide)) (laneFits_zero 0) (laneFits_zero 0))).trans (by simp only [eventStep, setWidth_back 1 host (by decide), setWidth_back 64 val (by decide)]))

theorem leaseCmdEvict (host : BitVec 1) (tile : BitVec 8) (val : BitVec 64) : Statement (.leaseCmdEvict host tile val) := fun _ =>
  decode_event 73#9 (host.setWidth 64) (tile.setWidth 64) (val.setWidth 64) 0#64 _ ((if_pos (fits4 (laneFits_setWidth 1 host (by decide)) (laneFits_setWidth 8 tile (by decide)) (laneFits_setWidth 64 val (by decide)) (laneFits_zero 0))).trans (by simp only [eventStep, setWidth_back 1 host (by decide), setWidth_back 8 tile (by decide), setWidth_back 64 val (by decide)]))

theorem shepFcmdClear (host : BitVec 1) (val : BitVec 64) : Statement (.shepFcmdClear host val) := fun _ =>
  decode_event 74#9 (host.setWidth 64) (val.setWidth 64) 0#64 0#64 _ ((if_pos (fits4 (laneFits_setWidth 1 host (by decide)) (laneFits_setWidth 64 val (by decide)) (laneFits_zero 0) (laneFits_zero 0))).trans (by simp only [eventStep, setWidth_back 1 host (by decide), setWidth_back 64 val (by decide)]))

theorem sumCmd (host : BitVec 1) (val : BitVec 64) : Statement (.sumCmd host val) := fun _ =>
  decode_event 76#9 (host.setWidth 64) (val.setWidth 64) 0#64 0#64 _ ((if_pos (fits4 (laneFits_setWidth 1 host (by decide)) (laneFits_setWidth 64 val (by decide)) (laneFits_zero 0) (laneFits_zero 0))).trans (by simp only [eventStep, setWidth_back 1 host (by decide), setWidth_back 64 val (by decide)]))

theorem attCmd (host : BitVec 1) (val : BitVec 64) : Statement (.attCmd host val) := fun _ =>
  decode_event 78#9 (host.setWidth 64) (val.setWidth 64) 0#64 0#64 _ ((if_pos (fits4 (laneFits_setWidth 1 host (by decide)) (laneFits_setWidth 64 val (by decide)) (laneFits_zero 0) (laneFits_zero 0))).trans (by simp only [eventStep, setWidth_back 1 host (by decide), setWidth_back 64 val (by decide)]))

theorem tileDbgWrite (host : BitVec 1) (tile : BitVec 8) (val : BitVec 64) : Statement (.tileDbgWrite host tile val) := fun _ =>
  decode_event 80#9 (host.setWidth 64) (tile.setWidth 64) (val.setWidth 64) 0#64 _ ((if_pos (fits4 (laneFits_setWidth 1 host (by decide)) (laneFits_setWidth 8 tile (by decide)) (laneFits_setWidth 64 val (by decide)) (laneFits_zero 0))).trans (by simp only [eventStep, setWidth_back 1 host (by decide), setWidth_back 8 tile (by decide), setWidth_back 64 val (by decide)]))

theorem csaWrite (host : BitVec 1) (reg : BitVec 1) (val : BitVec 64) : Statement (.csaWrite host reg val) := fun _ =>
  decode_event 81#9 (host.setWidth 64) (reg.setWidth 64) (val.setWidth 64) 0#64 _ ((if_pos (fits4 (laneFits_setWidth 1 host (by decide)) (laneFits_setWidth 1 reg (by decide)) (laneFits_setWidth 64 val (by decide)) (laneFits_zero 0))).trans (by simp only [eventStep, setWidth_back 1 host (by decide), setWidth_back 1 reg (by decide), setWidth_back 64 val (by decide)]))

theorem hostCfgWrite (host : BitVec 1) (val : BitVec 64) : Statement (.hostCfgWrite host val) := fun _ =>
  decode_event 82#9 (host.setWidth 64) (val.setWidth 64) 0#64 0#64 _ ((if_pos (fits4 (laneFits_setWidth 1 host (by decide)) (laneFits_setWidth 64 val (by decide)) (laneFits_zero 0) (laneFits_zero 0))).trans (by simp only [eventStep, setWidth_back 1 host (by decide), setWidth_back 64 val (by decide)]))

theorem alarmCtlWrite (host : BitVec 1) (val : BitVec 64) : Statement (.alarmCtlWrite host val) := fun _ =>
  decode_event 83#9 (host.setWidth 64) (val.setWidth 64) 0#64 0#64 _ ((if_pos (fits4 (laneFits_setWidth 1 host (by decide)) (laneFits_setWidth 64 val (by decide)) (laneFits_zero 0) (laneFits_zero 0))).trans (by simp only [eventStep, setWidth_back 1 host (by decide), setWidth_back 64 val (by decide)]))

theorem scrubCtlWrite (host : BitVec 1) (val : BitVec 64) : Statement (.scrubCtlWrite host val) := fun _ =>
  decode_event 84#9 (host.setWidth 64) (val.setWidth 64) 0#64 0#64 _ ((if_pos (fits4 (laneFits_setWidth 1 host (by decide)) (laneFits_setWidth 64 val (by decide)) (laneFits_zero 0) (laneFits_zero 0))).trans (by simp only [eventStep, setWidth_back 1 host (by decide), setWidth_back 64 val (by decide)]))

theorem shepCtlWrite (host : BitVec 1) (tile : BitVec 8) (val : BitVec 64) : Statement (.shepCtlWrite host tile val) := fun _ =>
  decode_event 85#9 (host.setWidth 64) (tile.setWidth 64) (val.setWidth 64) 0#64 _ ((if_pos (fits4 (laneFits_setWidth 1 host (by decide)) (laneFits_setWidth 8 tile (by decide)) (laneFits_setWidth 64 val (by decide)) (laneFits_zero 0))).trans (by simp only [eventStep, setWidth_back 1 host (by decide), setWidth_back 8 tile (by decide), setWidth_back 64 val (by decide)]))

theorem dieStealCtlWrite (host : BitVec 1) (die : BitVec 3) (val : BitVec 64) : Statement (.dieStealCtlWrite host die val) := fun _ =>
  decode_event 86#9 (host.setWidth 64) (die.setWidth 64) (val.setWidth 64) 0#64 _ ((if_pos (fits4 (laneFits_setWidth 1 host (by decide)) (laneFits_setWidth 3 die (by decide)) (laneFits_setWidth 64 val (by decide)) (laneFits_zero 0))).trans (by simp only [eventStep, setWidth_back 1 host (by decide), setWidth_back 3 die (by decide), setWidth_back 64 val (by decide)]))

theorem mmioRegisterWrite (host : BitVec 1) (off : BitVec 26) (size : BitVec 4) (val : BitVec 64) : Statement (.mmioRegisterWrite host off size val) := fun _ =>
  decode_event 87#9 (host.setWidth 64) (off.setWidth 64) (size.setWidth 64) (val.setWidth 64) _ ((if_pos (fits4 (laneFits_setWidth 1 host (by decide)) (laneFits_setWidth 26 off (by decide)) (laneFits_setWidth 4 size (by decide)) (laneFits_setWidth 64 val (by decide)))).trans (by simp only [eventStep, setWidth_back 1 host (by decide), setWidth_back 26 off (by decide), setWidth_back 4 size (by decide), setWidth_back 64 val (by decide)]))

theorem rcRegisterRead (host : BitVec 1) (off : BitVec 26) (size : BitVec 4) : Statement (.rcRegisterRead host off size) := fun _ =>
  decode_event 88#9 (host.setWidth 64) (off.setWidth 64) (size.setWidth 64) 0#64 _ ((if_pos (fits4 (laneFits_setWidth 1 host (by decide)) (laneFits_setWidth 26 off (by decide)) (laneFits_setWidth 4 size (by decide)) (laneFits_zero 0))).trans (by simp only [eventStep, setWidth_back 1 host (by decide), setWidth_back 26 off (by decide), setWidth_back 4 size (by decide)]))

theorem elasticBufferAccept (tile : BitVec 8) (eng : BitVec 4) : Statement (.elasticBufferAccept tile eng) := fun _ =>
  decode_event 89#9 (tile.setWidth 64) (eng.setWidth 64) 0#64 0#64 _ ((if_pos (fits4 (laneFits_setWidth 8 tile (by decide)) (laneFits_setWidth 4 eng (by decide)) (laneFits_zero 0) (laneFits_zero 0))).trans (by simp only [eventStep, setWidth_back 8 tile (by decide), setWidth_back 4 eng (by decide)]))

theorem enginePowerUpComplete (tile : BitVec 8) (eng : BitVec 4) : Statement (.enginePowerUpComplete tile eng) := fun _ =>
  decode_event 90#9 (tile.setWidth 64) (eng.setWidth 64) 0#64 0#64 _ ((if_pos (fits4 (laneFits_setWidth 8 tile (by decide)) (laneFits_setWidth 4 eng (by decide)) (laneFits_zero 0) (laneFits_zero 0))).trans (by simp only [eventStep, setWidth_back 8 tile (by decide), setWidth_back 4 eng (by decide)]))

theorem copyBurst (tile : BitVec 8) (cq : BitVec 1) : Statement (.copyBurst tile cq) := fun _ =>
  decode_event 96#9 (tile.setWidth 64) (cq.setWidth 64) 0#64 0#64 _ ((if_pos (fits4 (laneFits_setWidth 8 tile (by decide)) (laneFits_setWidth 1 cq (by decide)) (laneFits_zero 0) (laneFits_zero 0))).trans (by simp only [eventStep, setWidth_back 8 tile (by decide), setWidth_back 1 cq (by decide)]))

theorem copyGateWaitEnd (tile : BitVec 8) (cq : BitVec 1) : Statement (.copyGateWaitEnd tile cq) := fun _ =>
  decode_event 97#9 (tile.setWidth 64) (cq.setWidth 64) 0#64 0#64 _ ((if_pos (fits4 (laneFits_setWidth 8 tile (by decide)) (laneFits_setWidth 1 cq (by decide)) (laneFits_zero 0) (laneFits_zero 0))).trans (by simp only [eventStep, setWidth_back 8 tile (by decide), setWidth_back 1 cq (by decide)]))

theorem copyBindingWaitEnd (tile : BitVec 8) (cq : BitVec 1) : Statement (.copyBindingWaitEnd tile cq) := fun _ =>
  decode_event 98#9 (tile.setWidth 64) (cq.setWidth 64) 0#64 0#64 _ ((if_pos (fits4 (laneFits_setWidth 8 tile (by decide)) (laneFits_setWidth 1 cq (by decide)) (laneFits_zero 0) (laneFits_zero 0))).trans (by simp only [eventStep, setWidth_back 8 tile (by decide), setWidth_back 1 cq (by decide)]))

theorem copySignal (tile : BitVec 8) (cq : BitVec 1) : Statement (.copySignal tile cq) := fun _ =>
  decode_event 99#9 (tile.setWidth 64) (cq.setWidth 64) 0#64 0#64 _ ((if_pos (fits4 (laneFits_setWidth 8 tile (by decide)) (laneFits_setWidth 1 cq (by decide)) (laneFits_zero 0) (laneFits_zero 0))).trans (by simp only [eventStep, setWidth_back 8 tile (by decide), setWidth_back 1 cq (by decide)]))

theorem arrayRingWaitEnd (tile : BitVec 8) (mx : BitVec 1) : Statement (.arrayRingWaitEnd tile mx) := fun _ =>
  decode_event 101#9 (tile.setWidth 64) (mx.setWidth 64) 0#64 0#64 _ ((if_pos (fits4 (laneFits_setWidth 8 tile (by decide)) (laneFits_setWidth 1 mx (by decide)) (laneFits_zero 0) (laneFits_zero 0))).trans (by simp only [eventStep, setWidth_back 8 tile (by decide), setWidth_back 1 mx (by decide)]))

theorem arrayGroupLanding (tile : BitVec 8) (mx : BitVec 1) : Statement (.arrayGroupLanding tile mx) := fun _ =>
  decode_event 102#9 (tile.setWidth 64) (mx.setWidth 64) 0#64 0#64 _ ((if_pos (fits4 (laneFits_setWidth 8 tile (by decide)) (laneFits_setWidth 1 mx (by decide)) (laneFits_zero 0) (laneFits_zero 0))).trans (by simp only [eventStep, setWidth_back 8 tile (by decide), setWidth_back 1 mx (by decide)]))

theorem arrayComputeEnd (tile : BitVec 8) (mx : BitVec 1) : Statement (.arrayComputeEnd tile mx) := fun _ =>
  decode_event 103#9 (tile.setWidth 64) (mx.setWidth 64) 0#64 0#64 _ ((if_pos (fits4 (laneFits_setWidth 8 tile (by decide)) (laneFits_setWidth 1 mx (by decide)) (laneFits_zero 0) (laneFits_zero 0))).trans (by simp only [eventStep, setWidth_back 8 tile (by decide), setWidth_back 1 mx (by decide)]))

theorem drainRow (tile : BitVec 8) (mx : BitVec 1) : Statement (.drainRow tile mx) := fun _ =>
  decode_event 104#9 (tile.setWidth 64) (mx.setWidth 64) 0#64 0#64 _ ((if_pos (fits4 (laneFits_setWidth 8 tile (by decide)) (laneFits_setWidth 1 mx (by decide)) (laneFits_zero 0) (laneFits_zero 0))).trans (by simp only [eventStep, setWidth_back 8 tile (by decide), setWidth_back 1 mx (by decide)]))

theorem dstqWaitEnd (tile : BitVec 8) (mx : BitVec 1) : Statement (.dstqWaitEnd tile mx) := fun _ =>
  decode_event 105#9 (tile.setWidth 64) (mx.setWidth 64) 0#64 0#64 _ ((if_pos (fits4 (laneFits_setWidth 8 tile (by decide)) (laneFits_setWidth 1 mx (by decide)) (laneFits_zero 0) (laneFits_zero 0))).trans (by simp only [eventStep, setWidth_back 8 tile (by decide), setWidth_back 1 mx (by decide)]))

theorem drainRowStore (tile : BitVec 8) (mx : BitVec 1) : Statement (.drainRowStore tile mx) := fun _ =>
  decode_event 106#9 (tile.setWidth 64) (mx.setWidth 64) 0#64 0#64 _ ((if_pos (fits4 (laneFits_setWidth 8 tile (by decide)) (laneFits_setWidth 1 mx (by decide)) (laneFits_zero 0) (laneFits_zero 0))).trans (by simp only [eventStep, setWidth_back 8 tile (by decide), setWidth_back 1 mx (by decide)]))

theorem arrayDoneAdd (tile : BitVec 8) (mx : BitVec 1) : Statement (.arrayDoneAdd tile mx) := fun _ =>
  decode_event 107#9 (tile.setWidth 64) (mx.setWidth 64) 0#64 0#64 _ ((if_pos (fits4 (laneFits_setWidth 8 tile (by decide)) (laneFits_setWidth 1 mx (by decide)) (laneFits_zero 0) (laneFits_zero 0))).trans (by simp only [eventStep, setWidth_back 8 tile (by decide), setWidth_back 1 mx (by decide)]))

theorem engineUnit (tile : BitVec 8) (eng : BitVec 4) : Statement (.engineUnit tile eng) := fun _ =>
  decode_event 108#9 (tile.setWidth 64) (eng.setWidth 64) 0#64 0#64 _ ((if_pos (fits4 (laneFits_setWidth 8 tile (by decide)) (laneFits_setWidth 4 eng (by decide)) (laneFits_zero 0) (laneFits_zero 0))).trans (by simp only [eventStep, setWidth_back 8 tile (by decide), setWidth_back 4 eng (by decide)]))

theorem engineCommandComplete (tile : BitVec 8) (eng : BitVec 4) : Statement (.engineCommandComplete tile eng) := fun _ =>
  decode_event 109#9 (tile.setWidth 64) (eng.setWidth 64) 0#64 0#64 _ ((if_pos (fits4 (laneFits_setWidth 8 tile (by decide)) (laneFits_setWidth 4 eng (by decide)) (laneFits_zero 0) (laneFits_zero 0))).trans (by simp only [eventStep, setWidth_back 8 tile (by decide), setWidth_back 4 eng (by decide)]))

theorem fxFirstFlitCheck (tile : BitVec 8) : Statement (.fxFirstFlitCheck tile) := fun _ =>
  decode_event 110#9 (tile.setWidth 64) 0#64 0#64 0#64 _ ((if_pos (fits4 (laneFits_setWidth 8 tile (by decide)) (laneFits_zero 0) (laneFits_zero 0) (laneFits_zero 0))).trans (by simp only [eventStep, setWidth_back 8 tile (by decide)]))

theorem fxChunkStep (tile : BitVec 8) : Statement (.fxChunkStep tile) := fun _ =>
  decode_event 111#9 (tile.setWidth 64) 0#64 0#64 0#64 _ ((if_pos (fits4 (laneFits_setWidth 8 tile (by decide)) (laneFits_zero 0) (laneFits_zero 0) (laneFits_zero 0))).trans (by simp only [eventStep, setWidth_back 8 tile (by decide)]))

theorem fxReceiveAdd (tile : BitVec 8) : Statement (.fxReceiveAdd tile) := fun _ =>
  decode_event 112#9 (tile.setWidth 64) 0#64 0#64 0#64 _ ((if_pos (fits4 (laneFits_setWidth 8 tile (by decide)) (laneFits_zero 0) (laneFits_zero 0) (laneFits_zero 0))).trans (by simp only [eventStep, setWidth_back 8 tile (by decide)]))

theorem fxAbortMarkerArrival (tile : BitVec 8) : Statement (.fxAbortMarkerArrival tile) := fun _ =>
  decode_event 114#9 (tile.setWidth 64) 0#64 0#64 0#64 _ ((if_pos (fits4 (laneFits_setWidth 8 tile (by decide)) (laneFits_zero 0) (laneFits_zero 0) (laneFits_zero 0))).trans (by simp only [eventStep, setWidth_back 8 tile (by decide)]))

theorem vectorOperationStart (tile : BitVec 8) : Statement (.vectorOperationStart tile) := fun _ =>
  decode_event 115#9 (tile.setWidth 64) 0#64 0#64 0#64 _ ((if_pos (fits4 (laneFits_setWidth 8 tile (by decide)) (laneFits_zero 0) (laneFits_zero 0) (laneFits_zero 0))).trans (by simp only [eventStep, setWidth_back 8 tile (by decide)]))

theorem vectorElementGroup (tile : BitVec 8) : Statement (.vectorElementGroup tile) := fun _ =>
  decode_event 116#9 (tile.setWidth 64) 0#64 0#64 0#64 _ ((if_pos (fits4 (laneFits_setWidth 8 tile (by decide)) (laneFits_zero 0) (laneFits_zero 0) (laneFits_zero 0))).trans (by simp only [eventStep, setWidth_back 8 tile (by decide)]))

theorem spuriousWake (tile : BitVec 8) (idx : BitVec 12) : Statement (.spuriousWake tile idx) := fun _ =>
  decode_event 119#9 (tile.setWidth 64) (idx.setWidth 64) 0#64 0#64 _ ((if_pos (fits4 (laneFits_setWidth 8 tile (by decide)) (laneFits_setWidth 12 idx (by decide)) (laneFits_zero 0) (laneFits_zero 0))).trans (by simp only [eventStep, setWidth_back 8 tile (by decide), setWidth_back 12 idx (by decide)]))

theorem governorWindowEnd (tile : BitVec 8) : Statement (.governorWindowEnd tile) := fun _ =>
  decode_event 121#9 (tile.setWidth 64) 0#64 0#64 0#64 _ ((if_pos (fits4 (laneFits_setWidth 8 tile (by decide)) (laneFits_zero 0) (laneFits_zero 0) (laneFits_zero 0))).trans (by simp only [eventStep, setWidth_back 8 tile (by decide)]))

theorem safeRestore (tile : BitVec 8) : Statement (.safeRestore tile) := fun _ =>
  decode_event 123#9 (tile.setWidth 64) 0#64 0#64 0#64 _ ((if_pos (fits4 (laneFits_setWidth 8 tile (by decide)) (laneFits_zero 0) (laneFits_zero 0) (laneFits_zero 0))).trans (by simp only [eventStep, setWidth_back 8 tile (by decide)]))

theorem currentReading (tile : BitVec 8) (reading : BitVec 16) : Statement (.currentReading tile reading) := fun _ =>
  decode_event 124#9 (tile.setWidth 64) (reading.setWidth 64) 0#64 0#64 _ ((if_pos (fits4 (laneFits_setWidth 8 tile (by decide)) (laneFits_setWidth 16 reading (by decide)) (laneFits_zero 0) (laneFits_zero 0))).trans (by simp only [eventStep, setWidth_back 8 tile (by decide), setWidth_back 16 reading (by decide)]))

theorem temperatureReading (tile : BitVec 8) (reading : BitVec 16) : Statement (.temperatureReading tile reading) := fun _ =>
  decode_event 125#9 (tile.setWidth 64) (reading.setWidth 64) 0#64 0#64 _ ((if_pos (fits4 (laneFits_setWidth 8 tile (by decide)) (laneFits_setWidth 16 reading (by decide)) (laneFits_zero 0) (laneFits_zero 0))).trans (by simp only [eventStep, setWidth_back 8 tile (by decide), setWidth_back 16 reading (by decide)]))

theorem marginTableLoad : Statement .marginTableLoad := fun _ => decode_event 2#9 0#64 0#64 0#64 0#64 _ rfl

theorem freqChangeClockStop : Statement .freqChangeClockStop := fun _ => decode_event 10#9 0#64 0#64 0#64 0#64 _ rfl

theorem freqChangeClockRestart : Statement .freqChangeClockRestart := fun _ => decode_event 11#9 0#64 0#64 0#64 0#64 _ rfl

theorem launchRecordCheck : Statement .launchRecordCheck := fun _ => decode_event 15#9 0#64 0#64 0#64 0#64 _ rfl

theorem dependenceMet : Statement .dependenceMet := fun _ => decode_event 16#9 0#64 0#64 0#64 0#64 _ rfl

theorem agingLift : Statement .agingLift := fun _ => decode_event 17#9 0#64 0#64 0#64 0#64 _ rfl

theorem placementDecision : Statement .placementDecision := fun _ => decode_event 18#9 0#64 0#64 0#64 0#64 _ rfl

theorem launchLoadComplete : Statement .launchLoadComplete := fun _ => decode_event 19#9 0#64 0#64 0#64 0#64 _ rfl

theorem dictionaryFillComplete : Statement .dictionaryFillComplete := fun _ => decode_event 24#9 0#64 0#64 0#64 0#64 _ rfl

theorem fetchBufferFillComplete : Statement .fetchBufferFillComplete := fun _ => decode_event 25#9 0#64 0#64 0#64 0#64 _ rfl

theorem freezeWatchdogExpiry : Statement .freezeWatchdogExpiry := fun _ => decode_event 31#9 0#64 0#64 0#64 0#64 _ rfl

theorem faultRecordWrite : Statement .faultRecordWrite := fun _ => decode_event 36#9 0#64 0#64 0#64 0#64 _ rfl

theorem nodeCommandComplete : Statement .nodeCommandComplete := fun _ => decode_event 46#9 0#64 0#64 0#64 0#64 _ rfl

theorem yieldDeadlineExpiry : Statement .yieldDeadlineExpiry := fun _ => decode_event 47#9 0#64 0#64 0#64 0#64 _ rfl

theorem contextSaveComplete : Statement .contextSaveComplete := fun _ => decode_event 48#9 0#64 0#64 0#64 0#64 _ rfl

theorem contextRestore : Statement .contextRestore := fun _ => decode_event 49#9 0#64 0#64 0#64 0#64 _ rfl

theorem retirementComplete : Statement .retirementComplete := fun _ => decode_event 50#9 0#64 0#64 0#64 0#64 _ rfl

theorem tlbiComplete : Statement .tlbiComplete := fun _ => decode_event 54#9 0#64 0#64 0#64 0#64 _ rfl

theorem freezeRecallComplete : Statement .freezeRecallComplete := fun _ => decode_event 57#9 0#64 0#64 0#64 0#64 _ rfl

theorem translationWalk : Statement .translationWalk := fun _ => decode_event 58#9 0#64 0#64 0#64 0#64 _ rfl

theorem walkComplete : Statement .walkComplete := fun _ => decode_event 59#9 0#64 0#64 0#64 0#64 _ rfl

theorem migrationWalkRetry : Statement .migrationWalkRetry := fun _ => decode_event 60#9 0#64 0#64 0#64 0#64 _ rfl

theorem atomicBounce : Statement .atomicBounce := fun _ => decode_event 61#9 0#64 0#64 0#64 0#64 _ rfl

theorem remotePoolRequest : Statement .remotePoolRequest := fun _ => decode_event 62#9 0#64 0#64 0#64 0#64 _ rfl

theorem nearMemoryAtomic : Statement .nearMemoryAtomic := fun _ => decode_event 63#9 0#64 0#64 0#64 0#64 _ rfl

theorem conflictCheckAnswer : Statement .conflictCheckAnswer := fun _ => decode_event 64#9 0#64 0#64 0#64 0#64 _ rfl

theorem poolCorrectionWriteback : Statement .poolCorrectionWriteback := fun _ => decode_event 65#9 0#64 0#64 0#64 0#64 _ rfl

theorem bankMarkFailed : Statement .bankMarkFailed := fun _ => decode_event 66#9 0#64 0#64 0#64 0#64 _ rfl

theorem bankRebuildLine : Statement .bankRebuildLine := fun _ => decode_event 67#9 0#64 0#64 0#64 0#64 _ rfl

theorem hkaddPerform : Statement .hkaddPerform := fun _ => decode_event 72#9 0#64 0#64 0#64 0#64 _ rfl

theorem shepFcmdComplete : Statement .shepFcmdComplete := fun _ => decode_event 75#9 0#64 0#64 0#64 0#64 _ rfl

theorem summaryComplete : Statement .summaryComplete := fun _ => decode_event 77#9 0#64 0#64 0#64 0#64 _ rfl

theorem attQuoteComplete : Statement .attQuoteComplete := fun _ => decode_event 79#9 0#64 0#64 0#64 0#64 _ rfl

theorem leaseQueueGrant : Statement .leaseQueueGrant := fun _ => decode_event 91#9 0#64 0#64 0#64 0#64 _ rfl

theorem idleGating : Statement .idleGating := fun _ => decode_event 92#9 0#64 0#64 0#64 0#64 _ rfl

theorem wokenIdleReturn : Statement .wokenIdleReturn := fun _ => decode_event 93#9 0#64 0#64 0#64 0#64 _ rfl

theorem releaseComplete : Statement .releaseComplete := fun _ => decode_event 94#9 0#64 0#64 0#64 0#64 _ rfl

theorem standbyGraceExpiry : Statement .standbyGraceExpiry := fun _ => decode_event 95#9 0#64 0#64 0#64 0#64 _ rfl

theorem engineRunFault : Statement .engineRunFault := fun _ => decode_event 100#9 0#64 0#64 0#64 0#64 _ rfl

theorem fxTimeout : Statement .fxTimeout := fun _ => decode_event 113#9 0#64 0#64 0#64 0#64 _ rfl

theorem pollBackoffExpiry : Statement .pollBackoffExpiry := fun _ => decode_event 117#9 0#64 0#64 0#64 0#64 _ rfl

theorem parkedPollTest : Statement .parkedPollTest := fun _ => decode_event 118#9 0#64 0#64 0#64 0#64 _ rfl

theorem sleepkWaitEnd : Statement .sleepkWaitEnd := fun _ => decode_event 120#9 0#64 0#64 0#64 0#64 _ rfl

theorem governorWindowTimeout : Statement .governorWindowTimeout := fun _ => decode_event 122#9 0#64 0#64 0#64 0#64 _ rfl

theorem grantAdjust : Statement .grantAdjust := fun _ => decode_event 126#9 0#64 0#64 0#64 0#64 _ rfl

theorem governorEmergency : Statement .governorEmergency := fun _ => decode_event 127#9 0#64 0#64 0#64 0#64 _ rfl

theorem emergencyEnd : Statement .emergencyEnd := fun _ => decode_event 128#9 0#64 0#64 0#64 0#64 _ rfl

theorem marginDailyWrite : Statement .marginDailyWrite := fun _ => decode_event 129#9 0#64 0#64 0#64 0#64 _ rfl

theorem managementPortFailure : Statement .managementPortFailure := fun _ => decode_event 291#9 0#64 0#64 0#64 0#64 _ rfl

end Sys2Proof.Laws.RoundTrip
end

