-- ==== Sys2Proof/Tests/Slice0.lean ====
section
/-! SUPPORT. Tests: well-formedness, decoding of words written out from the spec, one step on a small state, and for every
statement with hypotheses a state and operands that meet them. -/

namespace Sys2Proof.Tests

open Sys2Proof Sys2Proof.Machine

set_option Elab.async false
/-! The words of these tests are written out from the encodings of 03 R70 to R74 and 04 R84 to R88; the values from the examples
of the chapter that each test names, or by hand from its rule. -/

/-- A node of host 0 on tile 0. -/
def nd0 : Node := { recNode 0 0 0 0 [] with st := .running, ctl := 0x1000000000000000, tiles := [0], slots := [0] }

/-- A tile with a running bobbin of that node. -/
def runTile : Tile := { tileReset with running := some bareBobbin, node := some 0 }

/-- A package that has come up, with one node on one tile. -/
def upWith (t : Tile) : State :=
  { State.reset with
    tiles := [(0, t)], nodes := [(0, nd0)], packs := [(0, ⟨0, 0, 0, 0, [0], 0, 0, []⟩)],
    hosts := [(0, { hostReset with linkUp := true }), (1, { hostReset with linkUp := true })],
    mgmt := { mgmtReset with bootPhase := 5, csaCnt := 4 } }

/-- The same with registers set. -/
def regTile (l : List (Nat × Word)) : Tile :=
  { runTile with core := { coreReset with regs := l.foldl (fun m x => mapPut m x.1 (rvOf x.2)) [] } }

/-- One operation in the window of tile 0 of a state, with its bundle. -/
def enter (s : State) (slot : Nat) (i : Instr) : State × Bundle :=
  enterBundle s 0 0 25 (2 ^ (12 + slot)) [(slot, slotWordOf i)]

/-- The conditions of `Ready`, computed. -/
def readyB (i : Instr) (tile slot : Nat) (s : State) (b : Bundle) : Bool :=
  coreRuns s tile && decide (slotNext? (coreGet s tile) slot = some b) && decide (mapGet b.words slot 0 = slotWordOf i)
    && canIssue s tile slot b (opView i) && !(tileGet s tile).dbg

theorem ready_of {i : Instr} {tile slot : Nat} {s : State} {b : Bundle} (h : readyB i tile slot s b = true) : Ready i tile slot s b := by
  simp only [readyB, Bool.and_eq_true, decide_eq_true_eq, Bool.not_eq_true'] at h
  exact ⟨h.1.1.1.1, h.1.1.1.2, h.1.1.2, h.1.2, h.2⟩

/-- The operation is ready in tile 0 of a state. -/
def readyIn (s : State) (slot : Nat) (i : Instr) : Bool := readyB i 0 slot (enter s slot i).1 (enter s slot i).2

/-- What exec leaves, or the state before. -/
def after (i : Instr) (s : State) : State :=
  match exec i s with
  | .next t => t
  | _ => s

/-- What an operation leaves in tile 0 of a state when it issues. -/
def run (s : State) (slot : Nat) (i : Instr) : State := after i (enter s slot i).1

/-- The effects of the latest result under way on tile 0, with the ticks until it lands. -/
def landing (s : State) : Option (Nat × List Eff) := (lastFlight s 0).map fun f => (f.land + 1 - (coreGet s 0).ticks, f.effs)

/-- The bundle of an operation raised a fault with this cause. -/
def faultOf0 (s : State) : Option Nat := (coreGet s 0).window.findSome? fun b => b.faults.head?.map (·.2.cause)

/-- Guards, and operations with the guard always true. -/
def always : Guard := ⟨false, 0⟩
def sop (dst a b : Port) (imm : BitVec 17) : SOp := ⟨always, dst, a, b, imm⟩
def cop (target : BitVec 24) (p : Port) (imm : BitVec 13) : COp := ⟨always, target, p, imm⟩
def mop (d b i : Port) (disp : BitVec 9) (z : Size) : MOp := ⟨always, d, b, i, disp, .tile, .rlx, z⟩
def eop (e : EngineId) (shadow : BitVec 6) (p : Port) (imm : BitVec 26) : EOp := ⟨always, e, shadow, p, imm⟩
def vop (d a b : BitVec 11) : VOp := ⟨always, d, a, b, false, false, 0, false, 0, false, false, false⟩

/-! Well-formedness: one ill-formed term for each check (04 R92; 07 R144, R146, R163; 08 R177; 09 R206; 11 R249). -/

theorem test_wf_accepts : (Instr.add 0 false (sop (.s 1) (.s 2) (.s 3) 0)).wf = true := by decide
theorem test_wf_guard : (Instr.add 0 false ⟨⟨true, 0⟩, .s 1, .s 2, .s 3, 0⟩).wf = false := by decide
theorem test_wf_unused_imm : (Instr.add 0 false (sop (.s 1) (.s 2) (.s 3) 1)).wf = false := by decide
theorem test_wf_port_read : (Instr.add 0 false (sop (.s 1) (.sq 0) (.s 3) 0)).wf = false := by decide
theorem test_wf_port_written : (Instr.add 0 false (sop (.lq 0) (.s 2) (.s 3) 0)).wf = false := by decide
theorem test_wf_special_written : (Instr.mov 0 false (sop (.special 0) (.s 2) (.s 0) 0)).wf = false := by decide
theorem test_wf_reserved_port : (Instr.mov 0 false (sop (.reserved 0x062) (.s 2) (.s 0) 0)).wf = false := by decide
theorem test_wf_one_source : (Instr.popc 0 false (sop (.s 1) (.s 2) (.s 3) 0)).wf = false := by decide
theorem test_wf_float_format : (Instr.fadd 0 false (sop (.s 1) (.s 2) (.s 3) 0x18000)).wf = false := by decide
theorem test_wf_float_rounding : (Instr.fadd 0 false (sop (.s 1) (.s 2) (.s 3) 0x12180)).wf = false := by decide
theorem test_wf_bins_width : (Instr.bins 0 false (sop (.s 1) (.s 2) (.s 3) 0x1040)).wf = false := by decide
theorem test_wf_load_size : (Instr.ld 0 false (mop (.s 1) (.s 2) (.s 0) 0 .line)).wf = false := by decide
theorem test_wf_load_order : (Instr.ld 0 false ⟨always, .s 1, .s 2, .s 0, 0, .tile, .rel, .d⟩).wf = false := by decide
theorem test_wf_scope_of_rlx : (Instr.ld 0 false ⟨always, .s 1, .s 2, .s 0, 0, .pkg, .rlx, .d⟩).wf = false := by decide
theorem test_wf_ldq_port : (Instr.ldq 0 false (mop (.s 1) (.s 2) (.s 0) 0 .d)).wf = false := by decide
theorem test_wf_atomic_size : (Instr.afaddF32 0 false (mop (.s 1) (.s 2) (.s 0) 0 .d)).wf = false := by decide
theorem test_wf_lease_kind : (Instr.lease 0 (cop 0 (.p 1) 1)).wf = false := by decide
theorem test_wf_fence_order : (Instr.fence 0 (cop 0 (.s 0) 0x02)).wf = false := by decide
theorem test_wf_sleepk_floor : (Instr.sleepkSet 0 (cop 0 (.s 0) 0x10A5)).wf = false := by decide
theorem test_wf_vector_mask : (Instr.vcompress 0 false { vop 1 2 3 with fzi := true }).wf = false := by decide
theorem test_wf_engine_source : (Instr.etrig 0 (eop .cq0 0 (.s 1) 1)).wf = false := by decide

/-- The instruction that a slot word decodes to, or its reject. -/
def decoded (k : Nat) (w : SlotWord) : Option Instr := match decodeSlot k 0 w with | .ok i => some i | .error _ => none
def rejected (k : Nat) (w : SlotWord) : Option Reject := match decodeSlot k 0 w with | .ok _ => none | .error r => some r

/-! Decoding: words written out bit by bit (03 R70, R71). Bits 59:56 guard, 55:47 opcode, then the payload. -/

theorem test_decode_add : decoded 3 (0b0000_000000000_0000000011_0000000001_1111111111_00000000001100100 : BitVec 60) =
    some (.add 0 false (sop (.s 3) (.s 1) .imm 0x64)) := by decide +kernel
theorem test_decode_aincw : decoded 1 (0b0000_001001010_0000000101_0000000010_0000000011_000000010_000_00_010 : BitVec 60) =
    some (.aincw 0 false (mop (.s 5) (.s 2) (.s 3) 2 .w)) := by decide +kernel
theorem test_decode_loop : decoded 0 (0b0000_000000101_000000000000000000000010_0000000000_0000000000101 : BitVec 60) =
    some (.loop 0 (cop 2 (.s 0) 5)) := by decide +kernel
theorem test_decode_etrig : decoded 5 (0b0000_000000010_01000_000000_0000000000_00000000000000000000000001 : BitVec 60) =
    some (.etrig 0 (eop .cq0 0 (.s 0) 1)) := by decide +kernel
theorem test_decode_vadd : decoded 3 0x080_0010_0400_C100 =
    some (.vadd 0 false { vop 1 2 3 with sat := true }) := by decide +kernel
theorem test_decode_kwait : decoded 1 0x40_8321_D000_014B =
    some (.kwait 0 false ⟨always, .s 25, .s 58, .s 0, 1, .pkg, .acq, .d⟩) := by decide +kernel
theorem test_decode_reserved : rejected 4 0x3E0_0000_0000_0000 =
    some .illegalOperation := by decide +kernel
theorem test_decode_bad_port : rejected 3 (0b0000_000000000_0001100010_0000000001_0000000001_00000000000000000 : BitVec 60) =
    some .illegalPort := by decide +kernel
theorem test_encode_add : slotWordOf (.add 0 false (sop (.s 3) (.s 1) .imm 0x64)) = 0x0060_0FFE_0064 := by decide +kernel
theorem test_step_word_of_event : (match decodeStep ⟨0x7000000000000000 + 23, 5, 0, 0, 0⟩ with | .ok i => some i | .error _ => none) =
    some (.indexFetch 5) := by decide +kernel

/-! Scalar operations: that they issue, in both slots, with their guard true and with it false. -/

/-- Scalar operations with operands that each of them allows. -/
def scalarOps (hi : Bool) (g : Guard) : List Instr :=
  let two : SOp := ⟨g, .s 1, .s 2, .s 3, 0⟩
  let one : SOp := ⟨g, .s 1, .s 2, .s 0, 0⟩
  let fl : SOp := ⟨g, .s 1, .s 2, .s 3, 0x12000⟩
  (integerRows.map (fun r => r.op 0 hi two)) ++ (fieldRows.map (fun r => r.op 0 hi two)) ++ (moveRows.map (fun r => r.op 0 hi one))
    ++ (compareRows.map (fun r => r.op 0 hi two)) ++ (floatRows.map (fun r => r.op 0 hi fl))
    ++ [.sel 0 hi two, .ffma 0 hi fl, .fcvt 0 hi one]

theorem wit_scalar_ready : (scalarOps false always ++ scalarOps false ⟨true, 1⟩).all (readyIn (upWith runTile) 3) = true := by decide +kernel
theorem wit_scalar_ready_xb : (scalarOps true always ++ scalarOps true ⟨false, 1⟩).all (readyIn (upWith runTile) 4) = true := by
  decide +kernel
theorem wit_scalar_guards : guardTrue (upWith runTile) 0 always = true ∧ guardTrue (upWith runTile) 0 ⟨true, 1⟩ = true ∧
    guardTrue (upWith runTile) 0 ⟨false, 1⟩ = false := by decide +kernel

/-- A witness in the words of the statements: a ready add with its guard true. -/
theorem wit_IntegerOperations : ∃ s b, Ready (.add 0 false (sop (.s 1) (.s 2) (.s 3) 0)) 0 3 s b ∧ guardTrue s 0 always = true :=
  ⟨_, _, ready_of (i := .add 0 false (sop (.s 1) (.s 2) (.s 3) 0)) (s := (enter (upWith runTile) 3 (.add 0 false (sop (.s 1) (.s 2) (.s 3) 0))).1)
    (b := (enter (upWith runTile) 3 (.add 0 false (sop (.s 1) (.s 2) (.s 3) 0))).2) (by decide +kernel), by decide +kernel⟩
theorem wit_PredicatedOffScalar : ∃ s b, Ready (.add 0 false ⟨⟨false, 1⟩, .s 1, .s 2, .s 3, 0⟩) 0 3 s b ∧
    guardTrue s 0 ⟨false, 1⟩ = false :=
  ⟨_, _, ready_of (i := .add 0 false ⟨⟨false, 1⟩, .s 1, .s 2, .s 3, 0⟩)
    (s := (enter (upWith runTile) 3 (.add 0 false ⟨⟨false, 1⟩, .s 1, .s 2, .s 3, 0⟩)).1)
    (b := (enter (upWith runTile) 3 (.add 0 false ⟨⟨false, 1⟩, .s 1, .s 2, .s 3, 0⟩)).2) (by decide +kernel), by decide +kernel⟩

/-- The effects of an integer or floating operation on two values in s2 and s3 into s1. -/
def scalarOn (a b : Word) (i : Instr) : Option (Nat × List Eff) := landing (run (upWith (regTile [(2, a), (3, b)])) 3 i)

/-- 07 R164: the sum wraps modulo 2^64, and both residues are right. -/
theorem test_add_wraps : scalarOn (BitVec.allOnes 64) 2 (.add 0 false (sop (.s 1) (.s 2) (.s 3) 0)) =
    some (1, [.reg (latchKey 3 0) (rvOf 1), .reg 1 (rvOf 1)]) := by decide +kernel
/-- 07 R164: division by 0 gives all ones, and the remainder the dividend. -/
theorem test_div_by_zero : scalarOn 7 0 (.div 0 false (sop (.s 1) (.s 2) (.s 3) 0)) =
    some (24, [.reg (latchKey 3 3) (rvOf (BitVec.allOnes 64)), .reg 1 (rvOf (BitVec.allOnes 64))]) := by decide +kernel
theorem test_rem_by_zero : scalarOn 7 0 (.rem 0 false (sop (.s 1) (.s 2) (.s 3) 0)) =
    some (24, [.reg (latchKey 3 3) (rvOf 7), .reg 1 (rvOf 7)]) := by decide +kernel
/-- 07 R164: the most negative number divided by -1 gives itself. -/
theorem test_div_overflow : scalarOn 0x8000000000000000 (BitVec.allOnes 64) (.div 0 false (sop (.s 1) (.s 2) (.s 3) 0)) =
    some (24, [.reg (latchKey 3 3) (rvOf 0x8000000000000000), .reg 1 (rvOf 0x8000000000000000)]) := by decide +kernel
/-- 07 R164: mulh of -1 by 1 is all ones, and mulhn of the same bits is 0. -/
theorem test_mulh_sign : scalarOn (BitVec.allOnes 64) 1 (.mulh 0 false (sop (.s 1) (.s 2) (.s 3) 0)) =
    some (3, [.reg (latchKey 3 1) (rvOf (BitVec.allOnes 64)), .reg 1 (rvOf (BitVec.allOnes 64))]) := by decide +kernel
theorem test_mulhn : scalarOn (BitVec.allOnes 64) 1 (.mulhn 0 false (sop (.s 1) (.s 2) (.s 3) 0)) =
    some (3, [.reg (latchKey 3 1) (rvOf 0), .reg 1 (rvOf 0)]) := by decide +kernel
/-- 07 R165: bext with pos = 4 and w = 8 takes bits 11:4. -/
theorem test_bext : scalarOn 0xABCDE 0x204 (.bext 0 false (sop (.s 1) (.s 2) (.s 3) 0)) =
    some (1, [.reg (latchKey 3 0) (rvOf 0xCD), .reg 1 (rvOf 0xCD)]) := by decide +kernel
/-- 07 R167, its example: lih of 0x0123 below li of 0, and the immediate of li is signed. -/
theorem test_lih : scalarOn 0x01234567 0 (.lih 0 false (sop (.s 8) (.s 2) (.s 0) 0x89AB)) =
    some (1, [.reg (latchKey 3 0) (rvOf 0x0123456789AB), .reg 8 (rvOf 0x0123456789AB)]) := by decide +kernel
theorem test_li_signed : scalarOn 0 0 (.li 0 false (sop (.s 8) (.s 0) (.s 0) 0x1FFFF)) =
    some (1, [.reg (latchKey 3 0) (rvOf (BitVec.allOnes 64)), .reg 8 (rvOf (BitVec.allOnes 64))]) := by decide +kernel
/-- 07 R166: clt compares two's complement values, cltn the bits; a predicate takes the result. -/
theorem test_clt_signed : scalarOn (BitVec.allOnes 64) 0 (.clt 0 false (sop (.p 1) (.s 2) (.s 3) 0)) =
    some (1, [.reg (latchKey 3 0) (rvOf 1), .reg 0x41 (rvOf 1)]) := by decide +kernel
theorem test_cltn : scalarOn (BitVec.allOnes 64) 0 (.cltn 0 false (sop (.p 1) (.s 2) (.s 3) 0)) =
    some (1, [.reg (latchKey 3 0) (rvOf 0), .reg 0x41 (rvOf 0)]) := by decide +kernel
/-- 07 R169, its example: the tie goes to the even significand under rne and up under rup, and nx is set. -/
theorem test_fadd_tie : scalarOn 0x3F800000 0x33800000 (.fadd 0 false (sop (.s 3) (.s 2) (.s 3) 0x12008)) =
    some (4, [.reg (latchKey 3 2) (rvOf 0x3F800000), .reg 3 (rvOf 0x3F800000), .fp 8]) := by decide +kernel
theorem test_fadd_up : scalarOn 0x3F800000 0x33800000 (.fadd 0 false (sop (.s 3) (.s 2) (.s 3) 0x12088)) =
    some (4, [.reg (latchKey 3 2) (rvOf 0x3F800001), .reg 3 (rvOf 0x3F800001), .fp 8]) := by decide +kernel
/-- 06 R128, its example: 300 lies between 288 and 320 and rounds to 0x79 under rne. -/
theorem test_fcvt_e4m3 : scalarOn 0x43960000 0 (.fcvt 0 false (sop (.s 1) (.s 2) (.s 0) 0x19200)) =
    some (4, [.reg (latchKey 3 2) (rvOf 0x79), .reg 1 (rvOf 0x79), .fp 8]) := by decide +kernel

/-- ResiduesPropagate (07 R170, R171): good operands, and a poisoned one. -/
theorem wit_ResiduesPropagate : resBad (rvOf 0x21) = false ∧ (⟨0x21, 15⟩ : RV).r = poison ∧ resBad ⟨0x31, 3⟩ = true := by decide +kernel
/-- HardwiredPorts (03 R75; 07 R172): a good value, and one that fails its check. -/
theorem wit_HardwiredPorts : (1 : BitVec 6) ≠ 0 ∧ (1 : BitVec 3) ≠ 0 ∧ resBad (rvOf 5) = false ∧ resBad ⟨5, 0⟩ = true := by decide +kernel
/-- 07 R172: a result that fails its check raises residue where it would write a predicate. -/
theorem test_residue_to_predicate : faultOf0 (run (upWith { runTile with core := { coreReset with regs := [(2, ⟨5, 0⟩)] } }) 3
    (.mov 0 false (sop (.p 1) (.s 2) (.s 0) 0))) = some causeResidue := by decide +kernel
/-- FloatCompares (06 R127; 07 R169): a NaN, and the conditions of both halves. -/
theorem wit_FloatCompares : ∃ c : FpCtx, numIn c.fmt c.fzi 0x7FC00000 = .nan ∧ (3 : Nat) < 4 :=
  ⟨scalarFpCtx (upWith runTile) 0 (enter (upWith runTile) 3 (.fcmp 0 false (sop (.s 1) (.s 2) (.s 3) 0x12000))).2 0x12000, by decide +kernel,
    by decide⟩

/-! Access operations. -/

/-- An access operation issues with its guard true and its operands good. -/
def readyMB (s : State) (hi : Bool) (src : Bool) (o : MOp) (i : Instr) : Bool :=
  let x := enter s (mSlot hi) i
  readyB i 0 (mSlot hi) x.1 x.2 && guardTrue x.1 0 o.guard && (resCheck (accessVals x.1 0 hi o src x.2)).isNone

theorem readyM_of {s : State} {hi src : Bool} {o : MOp} {i : Instr} (h : readyMB s hi src o i = true) :
    ReadyM i 0 hi o src (enter s (mSlot hi) i).1 (enter s (mSlot hi) i).2 := by
  simp only [readyMB, Bool.and_eq_true] at h
  exact ⟨ready_of h.1.1, h.1.2, Option.isNone_iff_eq_none.mp h.2⟩

/-- Access operations with data s5, base s2 and index s3. -/
def accessOps (hi : Bool) : List (Instr × MOp × Bool) :=
  let d := mop (.s 5) (.s 2) (.s 3) 0 .d
  let w := mop (.s 5) (.s 2) (.s 3) 0 .w
  let q := mop (.lq 0) (.s 2) (.s 3) 0 .d
  let r : MOp := mop (.s 5) (.s 2) (.s 0) 0 .d
  let org : MOp := { r with order := .acq }
  [(.ld 0 hi d, d, false), (.st 0 hi d, d, true), (.ldq 0 hi q, q, false), (.ldc 0 hi d, d, false), (.stc 0 hi d, d, true),
   (.pref 0 hi (mop (.s 0) (.s 2) (.s 3) 0 .line), mop (.s 0) (.s 2) (.s 3) 0 .line, false), (.rdset 0 hi r, r, true),
   (.rdsetOrg 0 hi org, org, true), (.rdadv 0 hi r, r, true), (.rdadvOrg 0 hi org, org, true), (.rdget 0 hi r, r, false),
   (.rdgetOrg 0 hi org, org, false), (.kadd 0 hi d, d, true), (.kwait 0 hi { d with order := .acq }, { d with order := .acq }, true),
   (.kpoll 0 hi d, d, true), (.kread 0 hi d, d, false), (.kbind 0 hi d, d, true), (.kinit 0 hi d, d, true)]
  ++ atomicRows.map fun x => (x.op 0 hi w, w, true)

theorem wit_access_ready : (accessOps false).all (fun x => readyMB (upWith runTile) false x.2.2 x.2.1 x.1) = true := by decide +kernel
theorem wit_access_ready_ab : (accessOps true).all (fun x => readyMB (upWith runTile) true x.2.2 x.2.1 x.1) = true := by decide +kernel

/-- A tile with registers s2, s3 and s5 and a pool. -/
def accTile (base index data : Word) (pool : Mem) : Tile := { regTile [(2, base), (3, index), (5, data)] with pool }

/-- The state and bundle in which an access operation issues there. -/
def acc (base index data : Word) (pool : Mem) (i : Instr) : State × Bundle := enter (upWith (accTile base index data pool)) 1 i

/-- The own pool serves an access: the conditions of `PoolServes`, computed. -/
def servesB (x : State × Bundle) (off n : Nat) (wr plain : Bool) : Bool :=
  portOpen x.1 0 1 off wr && (if wr then poolWriteTrap x.1 0 off n else poolReadTrap x.1 0 off n).isNone
    && (match checkOwn x.1 0 x.2.seq off n wr plain with | .ok _ => true | .error _ => false)

theorem serves_of {x : State × Bundle} {off n : Nat} {wr plain : Bool} (h : servesB x off n wr plain = true) :
    ∃ s1, PoolServes x.1 s1 0 1 x.2 off n wr plain := by
  simp only [servesB, Bool.and_eq_true] at h
  cases hc : checkOwn x.1 0 x.2.seq off n wr plain with
  | error e => rw [hc] at h; exact absurd h.2 (by simp)
  | ok s1 => exact ⟨s1, h.1.1, Option.isNone_iff_eq_none.mp h.1.2, hc⟩

def ldD : MOp := mop (.s 5) (.s 2) (.s 0) 0 .d
def ldqD : MOp := mop (.lq 0) (.s 2) (.s 0) 0 .d

/-- OwnPoolLoads and OwnPoolStores: an access at the last address of the scratchpad of the reset partition (02 R27). -/
theorem wit_OwnPoolLoads : ∃ s b s1, ReadyM (.ld 0 false ldD) 0 false ldD false s b ∧ relWaits (coreGet s 0) b.seq ldD.order = false ∧
    OwnPoolAt s 0 (accessAddr s 0 false ldD false b) 8 8 ∧ PoolServes s s1 0 1 b 0x4EFFF8 8 false true :=
  let x := acc 0x4EFFF8 0 0 [] (.ld 0 false ldD)
  let ⟨s1, h⟩ := serves_of (x := x) (off := 0x4EFFF8) (n := 8) (wr := false) (plain := true) (by decide +kernel)
  ⟨x.1, x.2, s1, readyM_of (by decide +kernel), by decide +kernel, ⟨by decide +kernel, by decide +kernel, by decide +kernel⟩, h⟩
theorem wit_OwnPoolLoads_ldq : ∃ s b s1, ReadyM (.ldq 0 false ldqD) 0 false ldqD false s b ∧
    OwnPoolAt s 0 (accessAddr s 0 false ldqD false b) 64 64 ∧ PoolServes s s1 0 1 b 0x40 64 false true :=
  let x := acc 0x40 0 0 [] (.ldq 0 false ldqD)
  let ⟨s1, h⟩ := serves_of (x := x) (off := 0x40) (n := 64) (wr := false) (plain := true) (by decide +kernel)
  ⟨x.1, x.2, s1, readyM_of (by decide +kernel), ⟨by decide +kernel, by decide +kernel, by decide +kernel⟩, h⟩
theorem wit_OwnPoolStores : ∃ s b s1, ReadyM (.st 0 false ldD) 0 false ldD true s b ∧
    OwnPoolAt s 0 (accessAddr s 0 false ldD true b) 8 8 ∧ PoolServes s s1 0 1 b 0x4EFFF8 8 true true :=
  let x := acc 0x4EFFF8 0 1 [] (.st 0 false ldD)
  let ⟨s1, h⟩ := serves_of (x := x) (off := 0x4EFFF8) (n := 8) (wr := true) (plain := true) (by decide +kernel)
  ⟨x.1, x.2, s1, readyM_of (by decide +kernel), ⟨by decide +kernel, by decide +kernel, by decide +kernel⟩, h⟩

/-- stq of eight landed entries of a store queue. -/
def stqTile : Tile :=
  let t := accTile 0x40 0 0 []
  { t with core := { t.core with
      qpush := [(8, 8)], qent := (List.range 8).map fun i => (qKey 8 i, rvOf (BitVec.ofNat 64 (i + 1))) } }
def stqOp : MOp := mop (.sq 0) (.s 2) (.s 0) 0 .d
theorem wit_OwnPoolStores_stq : readyMB (upWith stqTile) false false stqOp (.stq 0 false stqOp) = true ∧
    (let x := enter (upWith stqTile) 1 (.stq 0 false stqOp)
     ((slotQ x.2.pops 1).drop (qOf stqOp.base ++ qOf stqOp.index).length).length = 8 ∧ servesB x 0x40 64 true true = true) := by
  decide +kernel

/-- Two nodes' worth of tiles: tile 1 belongs to the node, for remote accesses (02 R49; 08 R174). -/
def pairWith (t : Tile) : State :=
  { upWith t with tiles := [(0, t), (1, runTile)], nodes := [(0, { nd0 with tiles := [0, 1], slots := [0, 1] })] }
theorem wit_RemoteAccesses : (let x := enter (pairWith (accTile 0x80800000 0 1 [])) 1 (.ld 0 false ldD)
    (accessAddr x.1 0 false ldD false x.2).toNat = 0x80800000 ∧ 1 ∈ nodeTiles x.1 0 ∧ 8 ≤ scratchSize (tileGet x.1 1) ∧
      (0x80800000 - 2 ^ 31) / 2 ^ 23 = 1 ∧ relWaits (coreGet x.1 0) x.2.seq .rlx = false) ∧
    readyMB (pairWith (accTile 0x80800000 0 1 [])) false false ldD (.ld 0 false ldD) = true ∧
    readyMB (pairWith (accTile 0x80800000 0 1 [])) false false ldqD (.ldq 0 false ldqD) = true ∧
    readyMB (pairWith (accTile 0x80800000 0 1 [])) false true ldD (.st 0 false ldD) = true ∧
    readyMB (upWith (accTile 0xFFFFFFFFFFFF8 0 1 [])) false false ldD (.ldc 0 false ldD) = true ∧
    readyMB (upWith (accTile 0xFFFFFFFFFFFF8 0 1 [])) false true ldD (.stc 0 false ldD) = true ∧
    0xFFFFFFFFFFFF8 < 2 ^ 52 := by decide +kernel

/-- 08 R174, R196: an address past the scratchpad raises scratch-bound, a misaligned one alignment. -/
theorem test_ld_bound : faultOf0 (after (.ld 0 false ldD) (acc 0x4F0000 0 0 [] (.ld 0 false ldD)).1) = some causeScratchBound := by
  decide +kernel
theorem test_ld_alignment : faultOf0 (after (.ld 0 false ldD) (acc 0x44 0 0 [] (.ld 0 false ldD)).1) = some causeAlignment := by
  decide +kernel
/-- 00 R3, 05 R105: the bytes are little-endian, and the value lands at the end of tick t + 4. -/
theorem test_ld : landing (after (.ld 0 false ldD) (acc 0x40 0 0 [(0x40, 0x34), (0x41, 0x12)] (.ld 0 false ldD)).1) =
    some (5, [.reg (latchKey 1 0) (rvOf 0x1234), .reg 5 (rvOf 0x1234)]) := by decide +kernel
/-- 08 R185, its example: aincw at own offset 0x10C; with limit 3 an old 3 wraps to 0, and an old 2 becomes 3. -/
def aincOp : MOp := mop (.s 5) (.s 2) (.s 3) 2 .w
theorem test_aincw_wraps : landing (after (.aincw 0 false aincOp)
    (acc 0x8000000000000100 1 3 [(0x10C, 3)] (.aincw 0 false aincOp)).1) =
    some (6, [.reg (latchKey 1 2) (rvOf 3), .cells [(0x10C, 0), (0x10D, 0), (0x10E, 0), (0x10F, 0)]]) := by decide +kernel
theorem test_aincw_counts : landing (after (.aincw 0 false aincOp)
    (acc 0x8000000000000100 1 3 [(0x10C, 2)] (.aincw 0 false aincOp)).1) =
    some (6, [.reg (latchKey 1 2) (rvOf 2), .cells [(0x10C, 3), (0x10D, 0), (0x10E, 0), (0x10F, 0)]]) := by decide +kernel
/-- 08 R185: a failed acas writes nothing, and returns the old value. -/
theorem test_acas_fails : landing (after (.acas 0 false (mop (.s 5) (.s 2) (.s 3) 0 .w))
    (acc 0x8000000000000100 7 3 [(0x100, 9)] (.acas 0 false (mop (.s 5) (.s 2) (.s 3) 0 .w))).1) =
    some (6, [.reg (latchKey 1 2) (rvOf 9)]) := by decide +kernel

/-- OwnPoolAtomics, for every row: an aligned word of the own pool that is served; the last word of the scratchpad. -/
def atomAcc (r : AtomicRow) : State × Bundle := acc (0x80000000004EFFFC - 4 * (if r.two then 0 else 1)) 1 3 [] (r.op 0 false (mop (.s 5) (.s 2) (.s 3) 0 .w))
theorem wit_OwnPoolAtomics : (atomicRows.all fun r =>
    let x := atomAcc r
    let o := mop (.s 5) (.s 2) (.s 3) 0 .w
    readyMB (upWith (accTile (0x80000000004EFFFC - 4 * (if r.two then 0 else 1)) 1 3 [])) false true o (r.op 0 false o)
      && decide ((atomicAddr r x.1 0 false o x.2).toNat = 2 ^ 63 + 0x4EFFFC) && decide (0x4EFFFC + 4 ≤ scratchSize (tileGet x.1 0))
      && portOpen x.1 0 1 0x4EFFFC false && !atomWaits x.2 1 r.opc && (poolReadTrap x.1 0 0x4EFFFC 4).isNone
      && (match checkOwn x.1 0 x.2.seq 0x4EFFFC 4 true false with | .ok _ => true | .error _ => false)
      && !relWaits (coreGet x.1 0) x.2.seq .rlx) = true := by decide +kernel
theorem wit_OwnPoolAtomics_d : (atomicRows.filter fun r => decide (r.opc < 0x04C)).all (fun r =>
    readyMB (upWith (accTile 0x8000000000000100 0 3 [])) false true (mop (.s 5) (.s 2) (.s 3) 0 .d) (r.op 0 false (mop (.s 5) (.s 2) (.s 3) 0 .d)))
      = true := by decide +kernel

/-- RemoteAtomics: a global address at the top, tile 1's pool, a reel register, an undefined address, and a misaligned one. -/
theorem wit_RemoteAtomics : (0xFFFFFFFFFFFFC < 2 ^ 52 ∧ 0xFFFFFFFFFFFFC % 4 = 0) ∧
    fullPlace 0x8000000080800000 = .pool 1 0 ∧ 1 ∈ nodeTiles (pairWith runTile) 0 ∧ 4 ≤ scratchSize (tileGet (pairWith runTile) 1) ∧
    3 * 2 ^ 62 ≤ (0xC000000000000005 : Word).toNat ∧ fullPlace 0x4000000000000000 = .bad ∧ (0x102 % 4 ≠ 0 ∧ 0x102 < 2 ^ 52) := by
  decide +kernel

/-- Tables at DPA 0x10000 for ASID 0 (10 R236 to R239): three leaves of 1 GiB. Address 0 is readable, writable and cacheable,
2^30 is not readable, and 2^31 is a reel-page. -/
def wordCells (a : Nat) (v : Nat) : Mem := cellsFrom a (leBytes 8 v)
def tables : Mem :=
  wordCells 0x10000 0x20001 ++ wordCells 0x20000 0x30001 ++ wordCells 0x30000 0x4000004F ++ wordCells 0x30008 0x40000043
    ++ wordCells 0x30010 0x4000001F
def paged (t : Tile) : State :=
  let s := upWith t
  { s with mem := tables, mgmt := { s.mgmt with asidTbl := 0x10001 } }
def leafOf (s : State) (va : Nat) : Option Nat := match (walkTables s 0 (va / 65536)).1 with | .leaf w _ => some w | _ => none
def prefOp : MOp := mop (.s 0) (.s 2) (.s 3) 0 .line
theorem wit_Prefetch : readyMB (upWith (accTile 0x10000000000000 0 0 [])) false false prefOp (.pref 0 false prefOp) = true ∧
    (leafOf (upWith runTile) 0 = none ∧ readyMB (upWith (accTile 0xFFFFFFFFFFFFF 0 0 [])) false false prefOp (.pref 0 false prefOp) = true) ∧
    (leafOf (paged runTile) 0x40 = some 0x4000004F ∧ leafR 0x4000004F = true ∧ leafCache 0x4000004F = true ∧
      permBad ⟨0, 0, 30, 0x4000004F⟩ 0x40 1 true false = false) ∧
    (leafOf (paged runTile) 0x40000000 = some 0x40000043 ∧ leafR 0x40000043 = false) ∧
    readyMB (paged (accTile 0x40 0 0 [])) false false prefOp (.pref 0 false prefOp) = true ∧
    readyMB (paged (accTile 0x40000000 0 0 [])) false false prefOp (.pref 0 false prefOp) = true := by decide +kernel
/-- 08 R183: the granule comes into the cache of the tile's die. -/
theorem test_pref : (dieGet (run (paged (accTile 0x40 0 0 [])) 1 (.pref 0 false prefOp)) 0).cached = [0x40000040 / 64] := by
  decide +kernel

/-- RegionDescriptors (08 R184): the last descriptor, the first that does not exist, and bases that leave the offset field. -/
def rdOp : MOp := mop (.s 5) (.s 2) (.s 0) 0 .d
theorem wit_RegionDescriptors :
    (let v := accessArgs (acc 2047 0 1 [] (.rdset 0 false rdOp)).1 0 false rdOp true (acc 2047 0 1 [] (.rdset 0 false rdOp)).2
     (v.base + rdOp.disp.signExtend 64).toNat = 2047 ∧ (v.data.v.toInt * fmtBits (fmtOf 9)) % 8 = 0) ∧
    readyMB (upWith (accTile 2047 0 1 [])) false true rdOp (.rdset 0 false rdOp) = true ∧
    readyMB (upWith (accTile 2047 0 1 [])) false false rdOp (.rdget 0 false rdOp) = true ∧
    readyMB (upWith (accTile 2048 0 1 [])) false true rdOp (.rdset 0 false rdOp) = true ∧
    readyMB (upWith (accTile 2048 0 1 [])) false false rdOp (.rdget 0 false rdOp) = true ∧
    ((1 : Int) * fmtBits (fmtOf 0) % 8 ≠ 0 ∨ (-1 : Int) * 4 < 0) := by decide +kernel
theorem test_rdset : landing (after (.rdset 0 false rdOp) (acc 2047 0 0x77 [] (.rdset 0 false rdOp)).1) =
    some (1, [.reg (descKey 2047) (rvOf 0x77)]) := by decide +kernel
theorem test_rdset_bad : faultOf0 (after (.rdset 0 false rdOp) (acc 2048 0 0x77 [] (.rdset 0 false rdOp)).1) = some causeBadDescriptor := by
  decide +kernel
/-- rdadv of an FP32 region (format 9) at offset 0x1000 by 3 elements moves its base to 0x100C and its origin to 3 (08 R184). -/
def advTile : Tile := { regTile [(2, 1), (5, 3), (descKey 1, BitVec.ofNat 64 (0x1000 * 2 ^ 41 + 9 * 2 ^ 4))] with pool := [] }
theorem test_rdadv : landing (run (upWith advTile) 1 (.rdadv 0 false rdOp)) = some (1, [.reg (descKey 1)
    (rvOf (BitVec.ofNat 64 (0x100C * 2 ^ 41 + 9 * 2 ^ 4))), .reg (orgKey 1) (rvOf 3)]) := by decide +kernel
def negTile : Tile := { regTile [(2, 1), (5, BitVec.allOnes 64), (descKey 1, 0x90)] with pool := [] }
theorem test_rdadv_range : faultOf0 (run (upWith negTile) 1 (.rdadv 0 false rdOp)) = some causeRegionRange := by decide +kernel

/-! Reels. -/

/-- OwnReelOperations (08 R174, R191 to R195): the first and the last register; bindings that are taken and refused; the prologue. -/
def kAcq : MOp := { ldD with order := .acq }
def own (k : Nat) : Word := BitVec.ofNat 64 (3 * 2 ^ 62 + k)
theorem wit_OwnReelOperations : (own 0).toNat = 3 * 2 ^ 62 + 0 ∧ (own 255).toNat = 3 * 2 ^ 62 + 255 ∧
    (let x := acc (own 255) 0 1 [] (.kadd 0 false ldD)
     (accessAddr x.1 0 false ldD true x.2).toNat = 3 * 2 ^ 62 + 255 ∧ relWaits (coreGet x.1 0) x.2.seq .rlx = false) ∧
    readyMB (upWith (accTile (own 255) 0 1 [])) false true ldD (.kadd 0 false ldD) = true ∧
    readyMB (upWith (accTile (own 0) 0 1 [])) false true kAcq (.kwait 0 false kAcq) = true ∧
    readyMB (upWith (accTile (own 0) 0 1 [])) false true ldD (.kpoll 0 false ldD) = true ∧
    readyMB (upWith (accTile (own 0) 0 1 [])) false false ldD (.kread 0 false ldD) = true ∧
    readyMB (upWith (accTile (own 0) 1 0xFFFFFFFF [])) false true (mop (.s 5) (.s 2) (.s 3) 0 .d)
      (.kbind 0 false (mop (.s 5) (.s 2) (.s 3) 0 .d)) = true ∧
    readyMB (upWith (accTile (own 0) 256 0x100000000 [])) false true (mop (.s 5) (.s 2) (.s 3) 0 .d)
      (.kbind 0 false (mop (.s 5) (.s 2) (.s 3) 0 .d)) = true ∧
    readyMB (upWith (accTile (own 0) 0 1 [])) false true ldD (.kinit 0 false ldD) = true ∧
    phase0 runTile = 0 ∧ phase0 { runTile with core := { coreReset with phase := 1 } } ≠ 0 := by decide +kernel
theorem test_kpoll_met : landing (run (upWith { accTile (own 3) 0 5 [] with reels := [(3, ⟨5, false, 0, 0⟩)] }) 1 (.kpoll 0 false ldD)) =
    some (2, [.reg (latchKey 1 3) (rvOf 1)]) := by decide +kernel
theorem test_kpoll_unmet : landing (run (upWith { accTile (own 3) 0 6 [] with reels := [(3, ⟨5, false, 0, 0⟩)] }) 1 (.kpoll 0 false ldD)) =
    some (2, [.reg (latchKey 1 3) (rvOf 0)]) := by decide +kernel
/-- ReelAddIsChecked (16 R358): at the top of the range, one above it, at the ceiling plus the depth, and one above that. -/
def boundTile : Tile := { runTile with reels := [(1, ⟨10, true, 2, 4⟩), (2, ⟨7, false, 0, 0⟩), (3, ⟨BitVec.allOnes 64, false, 0, 0⟩)] }
def addTo (k : Nat) (v : Word) : Option Nat := match reelAdd (upWith boundTile) (.reg 0 k) v with
  | .ok t => some (reelGet (tileGet t 0) k).value.toNat
  | .error c => some (2 ^ 64 + c)
theorem test_reel_at_ceiling : addTo 1 1 = some 11 := by decide +kernel
theorem test_reel_above_ceiling : addTo 1 2 = some (2 ^ 64 + causeRingCeiling) := by decide +kernel
theorem test_reel_overflow : addTo 3 1 = some (2 ^ 64 + causeReelOverflow) := by decide +kernel
theorem wit_ReelAddIsChecked : (2 ^ 64 ≤ (2 ^ 64 - 1) + 1) ∧ (reelGet boundTile 1).bound = true ∧ 7 + 4 < 10 + 2 ∧ 10 + 1 ≤ 7 + 4 ∧
    (reelGet boundTile 2).bound = false := by decide +kernel
/-- OwnReelOperations, elsewhere: another tile's register, a memory reel, and an address of no reel. -/
def far : Word := 0xC000000000010105
def checkOf (a : Word) : Option Place := match reelCheck a 1 with | .ok p => some p | .error _ => none
theorem wit_OwnReelOperations_far : checkOf far = some (.reel 1 5) ∧ checkOf 0x40 = some (.mem 0x40) ∧ fullPlace 0x4000000000000000 = .bad ∧
    readyMB (upWith (accTile far 0 1 [])) false true ldD (.kadd 0 false ldD) = true ∧
    readyMB (upWith (accTile far 0 1 [])) false false ldD (.kread 0 false ldD) = true ∧
    readyMB (upWith (accTile 0x40 0 1 [])) false true ldD (.kinit 0 false ldD) = true ∧
    readyMB (upWith (accTile 0x40 0 1 [])) false true ldD (.kbind 0 false ldD) = true := by decide +kernel

/-! Issue, control, commit. -/

/-- IssueFrame and IssueOrder (05 R99, R100): a ready add; a core that does not run; another word in the slot; a slot used in
this tick. -/
def addI : Instr := .add 0 false (sop (.s 1) (.s 2) (.s 3) 0)
theorem wit_IssueFrame : placeOf (opView addI) = some (0, 3) ∧ reachesOut (opView addI) = false ∧
    coreRuns (upWith { runTile with halted := true }) 0 = false ∧
    (let x := enter (upWith runTile) 3 addI
     slotNext? (coreGet x.1 0) 3 = some x.2 ∧ mapGet x.2.words 3 0 ≠ slotWordOf (.sub 0 false (sop (.s 1) (.s 2) (.s 3) 0)) ∧
       canIssue x.1 0 3 x.2 (opView addI) = true) ∧
    (let x := enter (upWith { runTile with core := { coreReset with busy := [(3, 1)] } }) 3 addI
     slotNext? (coreGet x.1 0) 3 = some x.2 ∧ canIssue x.1 0 3 x.2 (opView addI) = false) := by decide +kernel
/-- IssueOrder: its clauses over a window, an engine's buffer, an acquire and slot 5. -/
theorem wit_IssueOrder :
    (let i := Instr.ld 0 false ldD
     let x := enter (upWith runTile) 1 i
     canIssue x.1 0 1 x.2 (opView i) = true ∧ guardTrue x.1 0 (viewGuard (opView i)) = true ∧ acqHeld (opView i) = true) ∧
    (let i := Instr.etrig 0 (eop .cq0 0 (.s 0) 1)
     let x := enter (upWith runTile) 5 i
     canIssue x.1 0 5 x.2 (opView i) = true ∧ guardTrue x.1 0 (viewGuard (opView i)) = true) := by decide +kernel
/-- 05 R99: with an older unissued operation of its bundle's sync, an operation waits. -/
theorem test_slot_once_a_tick : run (upWith { runTile with core := { coreReset with busy := [(3, 1)] } }) 3 addI =
    (enter (upWith { runTile with core := { coreReset with busy := [(3, 1)] } }) 3 addI).1 := by decide +kernel

/-- A control operation that issues with its guard true and its source good. -/
def readyCB (s : State) (src : Bool) (o : COp) (i : Instr) : Bool :=
  let x := enter s 0 i
  readyB i 0 0 x.1 x.2 && guardTrue x.1 0 o.guard
    && (resCheck (readPorts x.1 0 (o.imm.setWidth 64) (if src then [o.cport] else []) [])).isNone

theorem readyC_of {s : State} {src : Bool} {o : COp} {i : Instr} (h : readyCB s src o i = true) :
    ReadyC i 0 o src (enter s 0 i).1 (enter s 0 i).2 := by
  simp only [readyCB, Bool.and_eq_true] at h
  exact ⟨ready_of h.1.1, h.1.2, Option.isNone_iff_eq_none.mp h.2⟩

/-- Control operations, with whether their port is a source. -/
def ctlOps : List (Instr × COp × Bool) :=
  let z := cop 0 (.s 0) 0
  let far := cop 50 (.s 0) 0
  let src := cop 0 (.s 2) 0
  [(.nop 0 z, z, false), (.jmp 0 far, far, false), (.jmpi 0 src, src, true), (.call 0 far, far, false), (.ret 0 src, src, true),
   (.loop 0 (cop 50 (.s 0) 3), cop 50 (.s 0) 3, false), (.loopr 0 (cop 50 (.s 2) 0), cop 50 (.s 2) 0, true), (.endOp 0 z, z, false),
   (.yield 0 z, z, false), (.suspend 0 (cop 0 (.s 2) 5), cop 0 (.s 2) 5, true), (.join 0 (cop 0 (.s 2) 5), cop 0 (.s 2) 5, true),
   (.wake 0 (cop 0 (.s 0) 0), cop 0 (.s 0) 0, false), (.trap 0 (cop 0 (.s 0) 2), cop 0 (.s 0) 2, false), (.parrive 0 z, z, false),
   (.pwait 0 z, z, false), (.fork 0 (cop 50 (.s 2) 0), cop 50 (.s 2) 0, true), (.csend 0 src, src, true),
   (.lease 0 (cop 0 (.p 1) 0), cop 0 (.p 1) 0, false), (.leasew 0 (cop 0 (.p 1) 0), cop 0 (.p 1) 0, false), (.unleash 0 src, src, true),
   (.slack 0 (cop 0 (.s 0) 3), cop 0 (.s 0) 3, false), (.fence 0 (cop 0 (.s 0) 0x12), cop 0 (.s 0) 0x12, false), (.vfence 0 z, z, false),
   (.brk 0 (cop 0 (.s 0) 7), cop 0 (.s 0) 7, false), (.ovl 0 (cop 0 (.s 0) 1), cop 0 (.s 0) 1, false), (.sleepk 0 z, z, false),
   (.sleepkSource 0 src, src, true), (.sleepkSet 0 (cop 0 (.s 0) 0x1166), cop 0 (.s 0) 0x1166, false),
   (.psplit 0 (cop 0 (.s 0) 0), cop 0 (.s 0) 0, false), (.pmerge 0 z, z, false)]

theorem wit_control_ready : ctlOps.all (fun x => readyCB (upWith (regTile [(2, 100)])) x.2.2 x.2.1 x.1) = true := by decide +kernel
theorem wit_ovl_source : readyCB (upWith (regTile [(2, 1)])) true (cop 0 (.s 2) 0) (.ovl 0 (cop 0 (.s 2) 0)) = true := by decide +kernel
/-- A witness in the words of the statements. -/
theorem wit_ControlTransfers : ∃ s b, ReadyC (.jmp 0 (cop 50 (.s 0) 0)) 0 (cop 50 (.s 0) 0) false s b :=
  ⟨_, _, readyC_of (s := upWith runTile) (by decide +kernel)⟩

/-- ControlTransfers: guarded and unguarded transfers; an exit at N and past it, counts 0 and 1, a stack of three and of four. -/
def gco (target : BitVec 24) (p : Port) (imm : BitVec 13) : COp := ⟨⟨true, 1⟩, target, p, imm⟩
def loops4 : List LoopEnt := List.replicate 4 ⟨0, 500, 2⟩
theorem wit_ControlTransfers_guarded :
    readyCB (upWith runTile) false (gco 50 (.s 0) 0) (.jmp 0 (gco 50 (.s 0) 0)) = true ∧
    readyCB (upWith runTile) false (gco 50 (.s 0) 0) (.call 0 (gco 50 (.s 0) 0)) = true ∧
    readyCB (upWith runTile) false (gco 25 (.s 0) 3) (.loop 0 (gco 25 (.s 0) 3)) = true ∧
    readyCB (upWith runTile) false (gco 26 (.s 0) 0) (.loop 0 (gco 26 (.s 0) 0)) = true ∧
    readyCB (upWith { runTile with core := { coreReset with loops := loops4.tail } }) false (gco 26 (.s 0) 1) (.loop 0 (gco 26 (.s 0) 1)) = true ∧
    readyCB (upWith { runTile with core := { coreReset with loops := loops4 } }) false (gco 26 (.s 0) 1) (.loop 0 (gco 26 (.s 0) 1)) = true ∧
    pcAdd 0 25 ≤ 25 ∧ 25 < pcAdd 0 26 ∧ loops4.tail.length < 4 ∧ 4 ≤ loops4.length ∧
    readyB (.jmp 0 ⟨⟨false, 1⟩, 50, .s 0, 0⟩) 0 0 (enter (upWith runTile) 0 (.jmp 0 ⟨⟨false, 1⟩, 50, .s 0, 0⟩)).1
      (enter (upWith runTile) 0 (.jmp 0 ⟨⟨false, 1⟩, 50, .s 0, 0⟩)).2 = true := by decide +kernel
/-- 07 R147, R149: a guarded jmp goes to B + target; a guarded loop pushes its entry. -/
theorem test_jmp : (coreGet (run (upWith runTile) 0 (.jmp 0 (gco 50 (.s 0) 0))) 0).pc = 50 := by decide +kernel
theorem test_loop : (coreGet (run (upWith runTile) 0 (.loop 0 (gco 50 (.s 0) 3))) 0).loops = [⟨25, 50, 3⟩] := by decide +kernel
theorem test_call_link : landing (run (upWith runTile) 0 (.call 0 (cop 50 (.s 0) 0))) = some (1, [.reg 0x61 (rvOf 25)]) := by decide +kernel
theorem test_loop_exit_behind : faultOf0 (run (upWith runTile) 0 (.loop 0 (gco 25 (.s 0) 3))) = some causeIllegalOperation := by decide +kernel
theorem test_loop_state : faultOf0 (run (upWith { runTile with core := { coreReset with loops := loops4 } }) 0 (.loop 0 (gco 26 (.s 0) 1))) =
    some causeLoopState := by decide +kernel
/-- LoopExit (07 R149): two entries with one exit, the inner on its last run. -/
theorem wit_LoopExit : exitTest [⟨0, 9, 1⟩, ⟨3, 9, 2⟩] 9 = ([⟨3, 9, 1⟩], 3) ∧ (8 : Nat) ≠ 9 ∧ 1 < 2 ∧ 1 ≤ 1 := by decide
/-- CommitTimeOperations: the bundle of an end stands in the window. -/
theorem wit_CommitTimeOperations : (bundleGet? (coreGet (enter (upWith runTile) 0 (.endOp 0 (cop 0 (.s 0) 0))).1 0) 0).isSome = true := by
  decide +kernel

/-- ForkAndSend (07 R154, R155): a legal link to a register, a join spec with a reserved bit, a full creel, another tile's register. -/
def forkO : COp := cop 50 (.s 2) 0
def forkIn (v : Word) (n : Nat) : Bool := readyCB (upWith { regTile [(2, v)] with creel := List.replicate n ⟨bareBobbin, none, none, [], none⟩ }) true forkO (.fork 0 forkO)
theorem wit_ForkAndSend : forkIn 0x0005 0 = true ∧ natBits 0x0005 33 31 = 0 ∧ natBits 0x0005 16 16 = 0 ∧ natBits 0x0005 8 8 ∈ nodeTiles (upWith runTile) 0 ∧
    forkIn 0x200000000 0 = true ∧ natBits 0x200000000 33 31 ≠ 0 ∧ forkIn 0x0905 0 = true ∧ natBits 0x0905 8 8 ∉ nodeTiles (upWith runTile) 0 ∧
    creelCount { runTile with creel := List.replicate 3 ⟨bareBobbin, none, none, [], none⟩ } < 4160 ∧ outstanding (upWith runTile) 0 + 1 < 2 ^ 32 := by
  decide +kernel
theorem wit_ForkAndSend_full : ¬ outstanding { upWith runTile with packs := [(0, ⟨0, 0, 0, 0, [0], 0, 2 ^ 32 - 1, []⟩)] } 0 + 1 < 2 ^ 32 := by
  decide +kernel
theorem test_fork_counts : landing (run (upWith (regTile [(2, 5)])) 0 (.fork 0 forkO)) = some (2, [.reg 0x60 (rvOf 1)]) := by decide +kernel
theorem test_fork_bad_join : faultOf0 (run (upWith (regTile [(2, 0x200000000)])) 0 (.fork 0 forkO)) = some causeBadJoin := by decide +kernel
/-- csend: its five outcomes, from the word in s2. -/
def sendO : COp := cop 0 (.s 2) 0
def sendV (tile eng off : Nat) : Word := BitVec.ofNat 64 (eng * 2 ^ 40 + tile * 2 ^ 32 + off)
def sendIn (v : Word) : State × Bundle := enter (upWith (regTile [(2, v)])) 0 (.csend 0 sendO)
theorem wit_csend : [sendV 0 8 0x40, sendV 0 8 0x41, sendV 3 8 0x40, sendV 0 8 0x4F0000].all
    (fun v => readyCB (upWith (regTile [(2, v)])) true sendO (.csend 0 sendO)) = true := by decide +kernel
theorem wit_csend_room : scratchSize runTile = 0x4F0000 ∧
    (let x := sendIn (sendV 0 8 0x4EFFC0)
     blockPending (tileGet x.1 0) 0 x.2.seq 0x4EFFC0 = false ∧ (engGet (tileGet x.1 0) 8).queue.length < 16) := by decide +kernel
theorem wit_csend_block :
    (let x := sendIn (sendV 0 8 0x4EFFC0)
     poolReadTrap x.1 0 0x4EFFC0 64 = none ∧
       (match checkOwn x.1 0 x.2.seq 0x4EFFC0 64 false true with | .ok _ => true | .error _ => false) = true) := by
  decide +kernel
theorem test_csend_alignment : faultOf0 (after (.csend 0 sendO) (sendIn (sendV 0 8 0x41)).1) = some causeAlignment := by decide +kernel
theorem test_csend_room : landing (after (.csend 0 sendO) (sendIn (sendV 0 8 0x40)).1) = some (2, [.reg 0x60 (rvOf 15)]) := by decide +kernel

/-- LeaseOperations (07 R156; 12 R274, R278): grants, a request that queues, handles that name a held record and that do not. -/
def leasedTile : Tile := { regTile [(2, 0x10000)] with engines := [(0, { engineReset 0 with st := 3, gen := 1 })] }
theorem wit_LeaseOperations :
    (leaseDecide (upWith runTile) 0 runTile false 0 false).status ≠ 2 ∧
    (let t := { runTile with grant := 0 }
     (leaseDecide (upWith t) 0 t false 0 false).status = 2) ∧
    readyCB (upWith leasedTile) true (cop 0 (.s 2) 0) (.unleash 0 (cop 0 (.s 2) 0)) = true ∧
    engState leasedTile 0 ∈ [2, 3, 4, 6] ∧ (engGet leasedTile 0).gen = natBits 0x10000 16 32 ∧
    ¬ (engState runTile 0 ∈ [2, 3, 4, 6]) := by decide +kernel
theorem test_unleash_bad_handle : faultOf0 (run (upWith (regTile [(2, 0x10000)])) 0 (.unleash 0 (cop 0 (.s 2) 0))) = some causeBadHandle := by
  decide +kernel

/-- FencesAndHolds: a fence with nothing outstanding and one behind a store under way; brk with and without skipBrk; pages of a
dictionary; the range of sleepk's source. -/
def storeReq : Req := { reqOf .store 0x005 0x40 ldD .tile with id := 0, seq := 0 }
theorem wit_FencesAndHolds : writesDone coreReset 1 = true ∧ readsDone coreReset 1 = true ∧
    writesDone { coreReset with reqs := [storeReq] } 1 = false ∧ vecDone coreReset 1 = true ∧
    coreReset.skipBrk = false ∧ ({ coreReset with skipBrk := true } : Core).skipBrk = true ∧ dictPages (upWith runTile) 0 ≤ 1 ∧
    (let s := { upWith runTile with nodes := [(0, { nd0 with hdr := [(0x1C, 257)] })] }
     1 < dictPages s 0) ∧ (1 ≤ (1 : Word).toNat ∧ (65536 : Word).toNat ≤ 65536) ∧ ((0 : Word).toNat = 0 ∨ 65536 < (65537 : Word).toNat) := by
  decide +kernel
theorem test_brk : faultOf0 (run (upWith runTile) 0 (.brk 0 (cop 0 (.s 0) 7))) = some causeBreakpoint := by decide +kernel
theorem test_sleepk_range : faultOf0 (run (upWith (regTile [(2, 65537)])) 0 (.sleepkSource 0 (cop 0 (.s 2) 0))) = some causeSleepkRange := by
  decide +kernel
/-- 07 R162: sleepk holds dispatch for the back-off interval of 64 ticks after this one. -/
theorem test_sleepk : (coreGet (run (upWith (regTile [(keyBack, 64), (keyCeil, 65536)])) 0 (.sleepk 0 (cop 0 (.s 0) 0))) 0).hold = 65 := by
  decide +kernel

/-- PackOperations (02 R51; 07 R158; 16 R373): depth, phase, arrival, mismatch. -/
def split0 : COp := cop 0 (.s 0) 0
def packOf (arrived : List (Nat × Nat)) (phase : Nat) : Pack := ⟨0, 0, 0, 0, [0], phase, 0, arrived⟩
theorem wit_PackOperations :
    (3 ≤ ({ runTile with packLevel := 3 } : Tile).packLevel ∧ runTile.packSize < 2 ^ 1 ∧ 2 ^ 0 ≤ runTile.packSize ∧ runTile.packLevel < 3) ∧
    packGet? (upWith runTile) 0 = some (packOf [] 0) ∧ phaseDone runTile (packOf [] 0) = true ∧
    phaseDone { runTile with core := { coreReset with phase := 1 } } (packOf [] 0) = false ∧
    (packOf [(0, 7)] 0).arrived.find? (fun f => decide (f.1 = 0)) = some (0, 7) ∧ (7 : Nat) ≠ splitMark ∧
    (packOf [(0, splitMark)] 0).arrived.find? (fun f => decide (f.1 = 0)) = some (0, splitMark) ∧
    (upWith runTile).packs.length < 8192 ∧ 0 ∈ (packOf [] 0).tiles ∧ (packOf [] 0).tiles.length % 2 ^ 0 = 0 ∧
    (let x := enter (upWith runTile) 0 (.psplit 0 split0)
     collAll x.1 0x16 0 0 (packOf [] 0) = some [0]) ∧
    (let x := enter (pairWith runTile) 0 (.psplit 0 split0)
     collAll x.1 0x16 0 0 { packOf [] 0 with tiles := [0, 1] } = none) ∧
    0 < ({ runTile with packLevel := 1 } : Tile).packLevel := by decide +kernel
/-- A pack of two tiles whose tiles have reached psplit with j = 0 and j = 1. -/
def mismatch : State :=
  let s := (enterBundle (enter (pairWith { runTile with packSize := 2 }) 0 (.psplit 0 split0)).1 1 0 25 (2 ^ 12)
    [(0, slotWordOf (.psplit 1 (cop 0 (.s 0) 1)))]).1
  packPut s { packOf [] 0 with tiles := [0, 1] }
theorem wit_PackOperations_mismatch : collAll mismatch 0x16 0 0 { packOf [] 0 with tiles := [0, 1] } = some [0, 1] ∧ (∃ i ∈ [0, 1], i ≠ 0) := by
  decide +kernel
theorem test_psplit_depth : faultOf0 (run (upWith { runTile with packLevel := 3 }) 0 (.psplit 0 split0)) = some causePackDepth := by decide +kernel
theorem test_pmerge_depth : faultOf0 (run (upWith runTile) 0 (.pmerge 0 (cop 0 (.s 0) 0))) = some causePackDepth := by decide +kernel

/-! The vector unit. -/

/-- A region descriptor (09 R199). -/
def descOf (base stride count fmt : Nat) : Word := BitVec.ofNat 64 (base * 2 ^ 41 + stride * 2 ^ 24 + count * 2 ^ 8 + fmt * 16)

/-- Formats of vd, va and vb that a row allows. -/
def vecFmts (opc : Nat) : Nat × Nat × Nat :=
  if 0x108 ≤ opc ∧ opc ≤ 0x10D ∨ opc = 0x10F ∨ opc = 0x110 then (9, 9, 2)
  else if opc = 0x124 then (2, 7, 2) else if opc = 0x125 then (9, 9, 7) else if opc = 0x126 then (2, 2, 7) else (2, 2, 2)

/-- Four elements of each operand, at 0, 0x100, 0x200 and 0x300. -/
def vecTileOf (f : Nat × Nat × Nat) (cells : List Host.Cell) : Tile :=
  { regTile [(descKey 0, descOf 0 1 4 2), (descKey 1, descOf 0x100 1 4 f.1), (descKey 2, descOf 0x200 1 4 f.2.1),
      (descKey 3, descOf 0x300 1 4 f.2.2)] with pool := memPutCells [] cells }

/-- An operation of a row on them. -/
def vecArg (opc : Nat) (g : Guard) : VOp :=
  let r := vecRow opc
  { vop (if r.hasVd then 1 else 0) (if r.va = .none then 0 else 2) (if r.vb = .none then 0 else 3) with
      guard := g, mask := if opc = 0x119 then 1 else 0 }

/-- A vector operation that issues, and what it enters the queue with. -/
def readyVB (s : State) (r : (BitVec 8 → Bool → VOp → Instr) × Nat) (hi : Bool) (g : Guard) : Bool :=
  let i := r.1 0 hi (vecArg r.2 g)
  let x := enter s (vSlot hi) i
  readyB i 0 (vSlot hi) x.1 x.2
def planOk (s : State) (r : (BitVec 8 → Bool → VOp → Instr) × Nat) (hi : Bool) : Bool :=
  let i := r.1 0 hi (vecArg r.2 always)
  let x := enter s (vSlot hi) i
  match vecPlan x.1 0 x.2 (vSlot hi) r.2 (vecArg r.2 always) with | .ok v => decide (v.n = 4) | .error _ => false

theorem wit_vector_ready : vectorRows.all (fun r =>
    let s := upWith (vecTileOf (vecFmts r.2) [])
    readyVB s r false always && readyVB s r true ⟨false, 1⟩ && planOk s r false && planOk s r true) = true := by decide +kernel
/-- VectorIssue: a witness in its words, a full queue, and an operation that its checks stop. -/
def vaddI : Instr := .vadd 0 false (vop 1 2 3)
def vecS (f : Nat × Nat × Nat) (cells : List Host.Cell) : State × Bundle := enter (upWith (vecTileOf f cells)) 3 vaddI
theorem wit_VectorIssue : ReadyV vaddI 0 false (vop 1 2 3) (vecS (2, 2, 2) []).1 (vecS (2, 2, 2) []).2 ∧
    (coreGet (vecS (2, 2, 2) []).1 0).vec.length < 4 :=
  ⟨⟨ready_of (by decide +kernel), by decide +kernel⟩, by decide +kernel⟩
theorem wit_VectorIssue_error : (match vecPlan (vecS (2, 9, 2) []).1 0 (vecS (2, 9, 2) []).2 3 0x100 (vop 1 2 3) with
    | .ok _ => none | .error x => some x.cause) = some causeRegionFormat := by decide +kernel
theorem wit_VectorIssue_off : guardTrue (upWith runTile) 0 ⟨false, 1⟩ = false := by decide +kernel

/-- The operation that a row makes of its descriptors, as it stands in the unit's queue. -/
def vecOn (opc : Nat) (o : VOp) (f : Nat × Nat × Nat) (cells : List Host.Cell) : State :=
  let s := upWith (vecTileOf f cells)
  match vecPlan s 0 (enter s 3 vaddI).2 3 opc o with
  | .ok v => corePut s 0 { coreGet s 0 with vec := [v] }
  | .error _ => s

/-- It is started, and its first group runs. -/
def vecGo (s : State) : Option (List Eff) := (lastFlight (after (.vectorElementGroup 0) (after (.vectorOperationStart 0) s)) 0).map (·.effs)

/-- VectorUnit: an add that is to start, and one whose group is due. -/
def vaddS : State := vecOn 0x100 (vop 1 2 3) (2, 2, 2) [⟨0x200, 0xFF⟩, ⟨0x201, 0xFF⟩, ⟨0x202, 0xFF⟩, ⟨0x203, 0x7F⟩, ⟨0x300, 1⟩]
def vaddT : State := after (.vectorOperationStart 0) vaddS
theorem wit_VectorUnit_start : coreRuns vaddS 0 = true ∧ (match vecToStart (coreGet vaddS 0) with
    | some v => (match vecUses vaddS 0 v.seq (vecOpen (tileGet vaddS 0) { v with t0 := some 0 }).2 with | .ok _ => true | .error _ => false)
    | none => false) = true := by decide +kernel
theorem wit_VectorUnit_group : coreRuns vaddT 0 = true ∧ (match vecDue (coreGet vaddT 0) with
    | some v => decide (v.opc = 0x100) && decide (vecStop v = v.n) && vecActive (tileGet vaddT 0) v 0 && (vecRow 0x11E).scalarRes &&
      (match vecUses vaddT 0 v.seq (vecAccOf (tileGet vaddT 0) v).uses with | .ok _ => true | .error _ => false)
    | none => false) = true := by decide +kernel
/-- 09 R213, R212: 0x7FFFFFFF + 1 wraps in i32, and clamps under sat. -/
theorem test_vadd_wraps : ((vecGo vaddS).getD []).head? = some (.cells [⟨0x100, 0⟩, ⟨0x101, 0⟩, ⟨0x102, 0⟩, ⟨0x103, 0x80⟩]) := by decide +kernel
theorem test_vadd_sat : ((vecGo (vecOn 0x100 { vop 1 2 3 with sat := true } (2, 2, 2)
    [⟨0x200, 0xFF⟩, ⟨0x201, 0xFF⟩, ⟨0x202, 0xFF⟩, ⟨0x203, 0x7F⟩, ⟨0x300, 1⟩])).getD []).head? =
    some (.cells [⟨0x100, 0xFF⟩, ⟨0x101, 0xFF⟩, ⟨0x102, 0xFF⟩, ⟨0x103, 0x7F⟩]) := by decide +kernel
/-- 09 R217: vsar by more than the width gives the sign. -/
theorem test_vsar : ((vecGo (vecOn 0x117 (vop 1 2 3) (2, 2, 2) [⟨0x203, 0x80⟩, ⟨0x300, 40⟩])).getD []).head? =
    some (.cells [⟨0x100, 0xFF⟩, ⟨0x101, 0xFF⟩, ⟨0x102, 0xFF⟩, ⟨0x103, 0xFF⟩]) := by decide +kernel
/-- 09 R219: vnot. -/
theorem test_vnot : ((vecGo (vecOn 0x114 (vop 1 2 0) (2, 2, 2) [⟨0x200, 0x0F⟩])).getD []).head? =
    some (.cells [⟨0x100, 0xF0⟩, ⟨0x101, 0xFF⟩, ⟨0x102, 0xFF⟩, ⟨0x103, 0xFF⟩]) := by decide +kernel
/-- 09 R223: the sum of 1, 2, 3 and 4 stands in element 0 of vd and in latch l2 of the slot. -/
theorem test_vredsum : vecGo (vecOn 0x11E (vop 1 2 0) (2, 2, 2) [⟨0x200, 1⟩, ⟨0x204, 2⟩, ⟨0x208, 3⟩, ⟨0x20C, 4⟩]) =
    some [.cells [⟨0x100, 10⟩, ⟨0x101, 0⟩, ⟨0x102, 0⟩, ⟨0x103, 0⟩], .reg (latchKey 3 2) (rvOf 10)] := by decide +kernel
/-- 09 R214: 1 / 2 in f32. -/
theorem test_vrcp : ((vecGo (vecOn 0x108 (vop 1 2 0) (9, 9, 2) [⟨0x203, 0x40⟩])).getD []).head? =
    some (.cells [⟨0x100, 0⟩, ⟨0x101, 0⟩, ⟨0x102, 0⟩, ⟨0x103, 0x3F⟩]) := by decide +kernel

/-! Engine operations, fetch, bobbins, landing, commit, traps. -/

/-- EngineOperations: the five operations, with the guard true and false; erd's buffer entry and its landing. -/
def engOps (g : Guard) : List (Instr × EOp × Bool) :=
  let w : EOp := ⟨g, .cq0, 1, .s 2, 0⟩
  let r : EOp := ⟨g, .cq0, 1, .s 5, 0⟩
  let z : EOp := ⟨g, .cq0, 0, .s 0, 0⟩
  [(.ewr 0 w, w, true), (.etrig 0 { z with imm := 1 }, { z with imm := 1 }, false), (.eabort 0 z, z, false), (.ewaitq 0 z, z, false), (.erd 0 r, r, false)]
def readyEB (s : State) (src : Bool) (o : EOp) (i : Instr) : Bool :=
  let x := enter s 5 i
  readyB i 0 5 x.1 x.2 && guardTrue x.1 0 o.guard
    && (resCheck (readPorts x.1 0 (o.imm.setWidth 64) (if src then [o.source] else []) [])).isNone
theorem readyE_of {s : State} {src : Bool} {o : EOp} {i : Instr} (h : readyEB s src o i = true) :
    ReadyE i 0 o src (enter s 5 i).1 (enter s 5 i).2 := by
  simp only [readyEB, Bool.and_eq_true] at h
  exact ⟨ready_of h.1.1, h.1.2, Option.isNone_iff_eq_none.mp h.2⟩
theorem wit_engine_ready : (engOps always).all (fun x => readyEB (upWith (regTile [(2, 100)])) x.2.2 x.2.1 x.1) = true ∧
    (engOps ⟨false, 1⟩).all (fun x => readyIn (upWith runTile) 5 x.1) = true := by decide +kernel
theorem wit_EngineOperations : ∃ s b, ReadyE (.ewaitq 0 ⟨always, .cq0, 0, .s 0, 0⟩) 0 ⟨always, .cq0, 0, .s 0, 0⟩ false s b :=
  ⟨_, _, readyE_of (s := upWith runTile) (by decide +kernel)⟩
/-- 20 R453: CHUNK of fx0 reads 20 where nothing has written it. -/
theorem test_erd : landing (run (upWith { runTile with engines := [(7, { engineReset 7 with st := 3 })] }) 5 (.erd 0 ⟨always, .fx0, 9, .s 5, 0⟩)) = some (2, [.reg 5 (rvOf 20)]) := by decide +kernel

/-- EngineAcceptance: the head of the buffer of cq0, of an array that is held, of one that is not, and of a busy sequencer. -/
def headIn (st : Nat) (e : Nat) (y : EEntry) (runs : List Run) : State :=
  upWith { runTile with engines := [(e, { engineReset e with st, buf := [y], runs })] }
def entryOf (kind : EOpKind) (shadow imm : Nat) : EEntry := ⟨0, kind, shadow, rvOf 0x1FF, imm, true, 0, [], 0⟩
def acceptsB (s : State) (e : Nat) (y : EEntry) : Bool :=
  engClock s 0 && decide (e < 10) && !(engGet (tileGet s 0) e).stopped && decide ((engGet (tileGet s 0) e).buf.head? = some y)
    && y.committed && (queueHead (engGet (tileGet s 0) e)).isNone
theorem accepts_of {s : State} {e : Nat} {y : EEntry} (h : acceptsB s e y = true) : Accepts s 0 e y := by
  simp only [acceptsB, Bool.and_eq_true, decide_eq_true_eq, Bool.not_eq_true'] at h
  exact ⟨h.1.1.1.1.1, h.1.1.1.1.2, h.1.1.1.2, h.1.1.2, h.1.2, Option.isNone_iff_eq_none.mp h.2⟩
theorem wit_EngineAcceptance : Accepts (headIn 3 0 (entryOf .ewr 5 0) []) 0 0 (entryOf .ewr 5 0) ∧
    engWakes (tileGet (headIn 3 0 (entryOf .ewr 5 0) []) 0) 0 = false ∧ engHeld (tileGet (headIn 3 0 (entryOf .ewr 5 0) []) 0) 0 0 = true :=
  ⟨accepts_of (by decide +kernel), by decide +kernel, by decide +kernel⟩
def run0 : Run := ⟨⟨.etrig, 0, [], [], 0, 0, none⟩, 0, 0, [], [], 0, []⟩
theorem wit_EngineAcceptance_more : acceptsB (headIn 3 0 (entryOf .ewr 50 0) []) 0 (entryOf .ewr 50 0) = true ∧
    [EOpKind.erd, .ewaitq, .eabort].all (fun k => acceptsB (headIn 3 8 (entryOf k 0 0) []) 8 (entryOf k 0 0)) = true ∧
    acceptsB (headIn 3 8 (entryOf .ewaitq 0 0) [run0]) 8 (entryOf .ewaitq 0 0) = true ∧
    acceptsB (headIn 3 0 (entryOf .etrig 0 2) []) 0 (entryOf .etrig 0 2) = true ∧
    (engState (tileGet (headIn 3 0 (entryOf .etrig 0 2) []) 0) 0 ≠ 4 ∧
      engRoom (engGet (tileGet (headIn 3 0 (entryOf .etrig 0 2) []) 0) 0) 0 ⟨.etrig, 2, [], [(6, rvOf 0x40)], 0, 0, some (0, 0)⟩ = true) ∧
    acceptsB (headIn 0 0 (entryOf .ewr 5 0) []) 0 (entryOf .ewr 5 0) = true ∧
    engWakes (tileGet (headIn 0 0 (entryOf .ewr 5 0) []) 0) 0 = false ∧ engHeld (tileGet (headIn 0 0 (entryOf .ewr 5 0) []) 0) 0 0 = false := by
  decide +kernel
/-- 13 R297: bits 63:8 of WSEL stay 0. -/
theorem test_wsel : ((engGet (tileGet (after (.elasticBufferAccept 0 0) (headIn 3 0 (entryOf .ewr 5 0) [])) 0) 0).regs.find? (·.1 = 5)) =
    some (5, rvOf 0xFF) := by decide +kernel
theorem test_not_leased : (engGet (tileGet (after (.elasticBufferAccept 0 0) (headIn 0 0 (entryOf .ewr 5 0) [])) 0) 0).cause = 3 := by
  decide +kernel

/-- FetchAndDispatch: an image whose stream of `len` halfwords stands at 0x40 and whose dictionary of `d` bundles at 0x100. -/
def codeNode (len d : Nat) : Node :=
  { nd0 with image := 0, hdr := [(0x06, 0), (0x10, 1), (0x18, 0x100), (0x1C, d), (0x20, 0x40), (0x24, len)] }
def codeS (c : Core) (len d : Nat) : State := { paged { runTile with core := c } with nodes := [(0, codeNode len d)] }
def lineOf (h : List Nat) : List Byte := (h.flatMap fun x => leBytes 2 x) ++ List.replicate (64 - 2 * h.length) 0
def fetchC (pc : Nat) (h : List Nat) : Core := { coreReset with pc, lines := [⟨1, 0, lineOf h⟩, ⟨2, 0, lineOf []⟩] }
def frame0 : Frame := ⟨0, 1, 0, leBytes 48 (2 ^ 375 + (slotWordOf addI).toNat * 2 ^ 180), 1⟩
def fetched (s : State) : Core := coreGet (after (.indexFetch 0) s) 0
theorem wit_FetchAndDispatch_fetch :
    [codeS (fetchC 0 [0]) 0 1, codeS { coreReset with pc := 0 } 1 1, codeS (fetchC 0 [0]) 1 0, codeS (fetchC 0 [0x8000]) 1 1,
      codeS { fetchC 0 [0] with frames := [frame0] } 1 1, codeS (fetchC 0 [0]) 1 1, codeS (fetchC 0 [0xFFFF]) 24 1, codeS (fetchC 0 [0xFFFF]) 25 1].all
      (fun s => fetchOpen s 0) = true ∧
    halfAt (codeS { coreReset with pc := 0 } 1 1) 0 0 = .inr 1 ∧ halfAt (codeS (fetchC 0 [0x7FFF]) 1 1) 0 0 = .inl 0x7FFF ∧
    frameOf (codeS { fetchC 0 [0] with frames := [frame0] } 1 1) 0 0 = some frame0 ∧ frameOf (codeS (fetchC 0 [0]) 1 1) 0 0 = none ∧
    (literalAt (codeS (fetchC 0 [0xFFFF]) 25 1) 0 1).isLeft = true := by decide +kernel
theorem wit_FetchAndDispatch_fills :
    (let s := codeS { coreReset with lineWait := some 1, tlb := [⟨0, 0, 30, 0x4000004F⟩] } 1 1
     pickTurn s (lineWaiters s) = some (0, 1) ∧ idxAddr s 0 0 / 64 + 1 ≠ 1 ∧ (match (codeRead s 0 2 64 64).2 with | .ok (some _) => true | _ => false) = true) ∧
    (let s := codeS { coreReset with lineWait := some 2, tlb := [⟨0, 0, 30, 0x4000004F⟩] } 1 1
     pickTurn s (lineWaiters s) = some (0, 2) ∧ idxAddr s 0 0 / 64 + 1 = 2 ∧ (match (codeRead s 0 2 64 128).2 with | .ok (some _) => true | _ => false) = true) ∧
    (let s := codeS { coreReset with fill := [0], pageWait := some 0, tlb := [⟨0, 0, 30, 0x4000004F⟩] } 1 1
     pickTurn s (fillTiles s) = some (0, 0) ∧ (match (codeRead s 0 3 0x100 48).2 with | .ok (some _) => true | _ => false) = true) := by decide +kernel
theorem wit_FetchAndDispatch_dispatch :
    (let s := codeS { coreReset with cur := some (2 ^ 375 + (slotWordOf addI).toNat * 2 ^ 180, 1) } 1 1
     coreRuns s 0 = true ∧ dispatchOpen (tileGet s 0) = true ∧ bundleTrap 0 1 (2 ^ 375 + (slotWordOf addI).toNat * 2 ^ 180) = none) ∧
    (bundleTrap 0 1 (2 ^ 360)).isSome = true := by decide +kernel
/-- 03 R61: an index takes one halfword, a literal 25. -/
theorem test_fetch_index : (fetched (codeS { fetchC 0 [0] with frames := [frame0] } 1 1)).cur.map (·.2) = some 1 := by decide +kernel
theorem test_fetch_literal : (fetched (codeS (fetchC 0 [0xFFFF, 7]) 25 1)).cur = some (7, 25) := by decide +kernel
/-- 03 R69, 04 R94: a reserved header bit makes the bundle illegal. -/
theorem test_illegal_bundle : (bundleTrap 0 1 (2 ^ 360)).map (·.2.cause) = some causeIllegalBundle := by decide +kernel

/-- BobbinsStart: a ready entry in the own creel, in a neighbour's, in another die's, one that waits, and two ready ones. -/
def ready0 : CreelEntry := ⟨{ bareBobbin with pc := 5, carry := [9] }, none, none, [], none⟩
def waiting (since : Nat) : CreelEntry := { ready0 with wait := some (.reel 0xC000000000000000 (2 ^ 61) 1 .tile false since since) }
def idleTile : Tile := { tileReset with node := some 0 }
def twoTiles (t : Tile) (k : Nat) (v : Tile) : State :=
  { upWith t with tiles := [(0, t), (k, v)], nodes := [(0, { nd0 with tiles := [0, k], slots := [0, k] })], dies := [(1, dieReset 1)] }
theorem wit_BobbinsStart :
    (let s := upWith { idleTile with creel := [ready0] }
     pickOpen s 0 = true ∧ (ownerPick (tileGet s 0)).isSome = true) ∧
    (let s := twoTiles idleTile 1 { runTile with creel := [ready0] }
     tileIdle s 0 = true ∧ (stealOrder s 0)[(0 : Nat) % (stealOrder s 0).length]? = some 1 ∧ (stealFrom s (tilePacks idleTile) 1).isSome = true) ∧
    (let s := twoTiles idleTile 1 runTile
     tileIdle s 0 = true ∧ stealFrom s (tilePacks idleTile) 1 = none) ∧
    (let s := twoTiles { idleTile with stewardAsked := true } 32 { runTile with creel := [ready0] }
     tileIdle s 0 = true ∧ (stealFrom s (tilePacks (tileGet s 0)) 32).isSome = true ∧
       (((List.range 7).map fun i => (dieOf 0 + 1 + i) % 8).filter fun d => !(dieGet s d).lost).findSome?
         (fun d => fullest s (tilePacks (tileGet s 0)) ((nodeTiles s 0).filter fun x => decide (dieOf x = d))) = some 32) ∧
    (let s := { upWith { idleTile with creel := [waiting 0] } with clock := 36 * 32000 }
     (tileGet s 0).creel[0]? = some (waiting 0) ∧ pickTurn s (pollDue s) = some (0, 0) ∧
       parkedAt s 0 0xC000000000000000 (2 ^ 61) = .here (.reg 0 0) ∧ (reelVal s (.reg 0 0)).toNat < (1 : Word).toNat) ∧
    (let s := { upWith { idleTile with creel := [waiting 0], reels := [(0, { reelReset with value := 1 })] } with clock := 36 * 32000 }
     pickTurn s (pollDue s) = some (0, 0) ∧ (1 : Word).toNat ≤ (reelVal s (.reg 0 0)).toNat) ∧
    (let s := twoTiles { idleTile with creel := [{ ready0 with wait := some (.reel 0xC000000000000000 (2 ^ 61) 1 .tile true 0 0) }] } 1
        { runTile with creel := [waiting 0] }
     (pollers s (reelLoc (locReelAt (2 ^ 61)))).map (·.1) = [1]) ∧
    parkedAt (upWith runTile) 0 0x40 0x40 = .faulty ∧ ready0.area = none ∧ creelHard idleTile.creel ≤ 64 ∧ ready0.handle = none := by decide +kernel
theorem test_pickup : (fun c : Core => (c.pc, regRd c 58, regRd c 1)) (coreGet (after (.bobbinPickup 0) (upWith { regTile [(1, 7)] with running := none, creel := [ready0] })) 0) =
    (5, rvOf 9, rvOf 0) := by decide +kernel
theorem test_steal : (tileGet (after (.stealAttempt 0) (twoTiles idleTile 1 { runTile with creel := [ready0] })) 1).creel = [] := by decide +kernel

/-- LandingIsVisible: a result that is due and one that is not, with its bundle in the window and without. -/
def landS (inWindow : Bool) (land : Nat) : State :=
  let s := if inWindow then (enter (upWith runTile) 3 addI).1 else upWith { runTile with core := { coreReset with nextSeq := 1 } }
  corePut s 0 { coreGet s 0 with flights := [⟨0, 3, land, [.reg 1 (rvOf 7)], none, false, false, false⟩] }
theorem wit_LandingIsVisible : landOpen (landS true 0) 0 = true ∧ landOpen (landS false 0) 0 = true ∧ isCommitted (coreGet (landS true 0) 0) 0 = false ∧
    isCommitted (coreGet (landS false 0) 0) 0 = true ∧ (coreGet (landS true 5) 0).ticks < 5 := by decide +kernel
theorem test_landing : regRd (coreGet (after (.resultLanding 0) (landS true 0)) 0) 1 = rvOf 7 := by decide +kernel

/-- CommitMakesArchitectural: bundles whose operations have issued and landed. -/
def issuedS (i : Instr) (slot : Nat) : State := after (.resultLanding 0) (run (upWith runTile) slot i)
def headIs (s : State) (p : Bundle → Bool) : Bool :=
  match headIssued s 0 with
  | some b => p b && commitsOpen s 0 && decide (commitPlan s 0 false b = .go) && !commitHeld s 0 false b
      && (ownReelEffs (coreGet s 0) b.seq).isEmpty && (bundleWaits (coreGet s 0) 0 b).isEmpty
  | none => false
theorem wit_CommitMakesArchitectural :
    headIs (issuedS addI 3) (fun b => !b.fin && b.acts.isEmpty) = true ∧
    headIs (issuedS (.fork 0 forkO) 0) (fun b => !b.fin && (match b.acts with | [(0, .fork _ _ _ _)] => true | _ => false)) = true ∧
    headIs (issuedS (.yield 0 (cop 0 (.s 0) 0)) 0) (fun b => !b.fin && decide (b.acts = [(0, .yield)])) = true ∧
    headIs (issuedS (.trap 0 (cop 0 (.s 0) 2)) 0) (fun b => !b.fin && decide (b.acts = [(0, .trapCode 2)])) = true := by decide +kernel
theorem wit_CommitMakesArchitectural_more :
    headIs (issuedS (.parrive 0 (cop 0 (.s 0) 0)) 0) (fun b => !b.fin && (match b.acts with | [(0, .parrive _)] => true | _ => false)) = true ∧
    packGet? (issuedS (.parrive 0 (cop 0 (.s 0) 0)) 0) 0 = some (packOf [] 0) ∧
    (let s := (enterBundle (upWith { runTile with running := some { bareBobbin with root := true } }) 0 0 1 (2 ^ 15 + 2 ^ 22)
        [(3, slotWordOf addI)]).1
     let u := after (.resultLanding 0) (after addI s)
     headIs u (fun b => b.fin && b.acts.isEmpty && (match joinAdd (commitEffects u 0 b []) 0 with
         | .ok v => (tileNode? v 0).isSome && decide (packGet? v 0 = some (packOf [] 0))
         | _ => false)) = true ∧ (coreGet u 0).window.length = 1) := by decide +kernel
/-- A wait that parks: a suspend on a reel below its threshold. -/
theorem wit_CommitMakesArchitectural_parks :
    (let s := after (.resultLanding 0) (run (upWith (regTile [(2, 7)])) 0 (.suspend 0 (cop 0 (.s 2) 5)))
     match headIssued s 0 with
     | some b => commitsOpen s 0 && decide (commitPlan s 0 false b = .go) && !commitHeld s 0 false b && !bundleEnds b
         && (match suspends s 0 false b with | some (_, some _) => true | _ => false)
     | none => false) = true := by decide +kernel
theorem test_fork_creel : (tileGet (after (.bundleCommit 0) (issuedS (.fork 0 forkO) 0)) 0).creel.map (fun e => (e.bobbin.pc, e.wait)) = [(50, none)] := by
  decide +kernel
theorem test_trap_code : (coreGet (after (.bundleCommit 0) (issuedS (.trap 0 (cop 0 (.s 0) 2)) 0)) 0).fault = some (0, 0, trapAt causeSoftwareTrap 2 0) := by
  decide +kernel
theorem test_yield_resumes : (tileGet (after (.bundleCommit 0) (issuedS (.yield 0 (cop 0 (.s 0) 0)) 0)) 0).creel.map (fun e => e.bobbin.pc) = [25] := by
  decide +kernel

/-- PipelineEvents: a load whose reply has not come in its landing tick; holds and a back-off that are over. -/
def lateS : State := upWith { runTile with core := { coreReset with
  reqs := [{ reqOf .load 0x004 0x40 ldD .tile with id := 0, seq := 0 }], flights := [⟨0, 1, 0, [], some 0, true, false, false⟩] } }
def holdS : State := upWith { runTile with core := { coreReset with ticks := 65, hold := 65 } }
def pollS : State :=
  let x := enter (upWith runTile) 1 (.kwait 0 false { ldD with order := .acq })
  corePut x.1 0 { coreGet x.1 0 with window := [{ x.2 with todo := [], poll := some 0 }] }
def flagS : State := upWith { runTile with core := { coreReset with ticked := true } }
theorem wit_PipelineEvents : flagOpen flagS 0 = true ∧ (coreGet flagS 0).stretch = 0 ∧ trapOpen lateS 0 = true ∧ (coreGet lateS 0).replay = none ∧ (freezeCause (coreGet lateS 0)).isSome = true ∧
    (coreGet lateS 0).frozen = none ∧ lateS.clockStop = false ∧ pickTurn holdS (holdTiles holdS) = some 0 ∧
    pickTurn pollS (pollTiles pollS) = some 0 ∧ (match pollLooks 0 pollS ((coreGet pollS 0).reqs.filter fun r =>
      decide (r.seq = 0) && decide (r.kind = .kwait)) with | .ok _ => true | _ => false) = true ∧
    (match pollLooks 0 pollS [{ reqOf .kwait 0x040 0x40 ldD .tile with id := 0, seq := 0 }] with | .wait _ => true | _ => false) = true := by
  decide +kernel
/-- TrapsStopTheNode: a head with a fault, a fault in flight, an engine with one, a freeze of 2^22 cycles; a window of two. -/
def faultS : State := run (upWith runTile) 0 (.brk 0 (cop 0 (.s 0) 7))
theorem wit_TrapsStopTheNode : (tileGet faultS 0).node = some 0 ∧ nodeGet? faultS 0 = some nd0 ∧ nd0.restart = false ∧ trapOpen faultS 0 = true ∧
    (headTrap (coreGet faultS 0)).isSome = true ∧
    (let s := upWith { runTile with core := { coreReset with fault := some (0, 0, trapOf causeSoftwareTrap) } }
     (tileGet s 0).halted = false ∧ (coreGet s 0).fault.isSome = true) ∧
    (let s := upWith { runTile with engines := [(0, { engineReset 0 with fault := some (trapOf causeAlignment) })] }
     pickTurn s (runFaults s) = some 0) ∧
    (let s := upWith { runTile with core := { coreReset with frozen := some ⟨0, 0, 2 ^ 22⟩ } }
     pickTurn s (lateFreezes s) = some (0, ⟨0, 0, 2 ^ 22⟩)) ∧
    (coreGet faultS 0).window.length = 1 := by decide +kernel
theorem test_precise_trap : (fun s => ((nodeGet? s 0).map (·.st), (coreGet s 0).stopCause)) (after (.preciseTrap 0) faultS) =
    (some .stopped, causeBreakpoint) := by decide +kernel

/-! Node commands, requests, translation, copies. -/

/-- A package whose host 0 owns ASID 0, with its node in a state. -/
def hostedS (st : NodeState) (t : Tile) : State :=
  let s := upWith t
  { s with mgmt := { s.mgmt with hostSplit := 1 }, nodes := [(0, { nd0 with st })] }
def cmdV (op n : Nat) : Word := BitVec.ofNat 64 (n % 2 ^ 61 + op * 2 ^ 61)
def haltTile : Tile := { runTile with halted := true }
theorem wit_NodeCommands : hostCan (hostedS .running runTile) 0 = true ∧ cmdWhy (hostedS .running runTile) 0 (cmdV 1 0) = some 3 ∧
    (∀ r ∈ [4, 5], cmdWhy (hostedS .running runTile) 0 (cmdV r 0) = none) ∧
    (∀ r ∈ [1, 2, 3], cmdWhy (hostedS .stopped haltTile) 0 (cmdV r 0) = none) ∧ recHeld (hostedS .stopped haltTile) 0 = false ∧
    nd0.conflictBy = none ∧ nd0.restoring = false ∧ nd0.requeue = false ∧ cmdWhy (hostedS .saved tileReset) 0 (cmdV 1 0) = none ∧
    (let s := hostedS .saved tileReset
     impossible s { nd0 with st := .preempted, since := timeOf s, order := s.nextOrder } = false) ∧
    (let s := { hostedS .stopped haltTile with nodes := [(0, { nd0 with st := .stopped, restoring := true })] }
     cmdWhy s 0 (cmdV 1 0) = none ∧ recHeld s 0 = false) := by decide +kernel
theorem wit_NodeCommands_more :
    (let s := hostPut (upWith runTile) 0 { hostReset with nodeCmd := some ⟨4, 0, 1⟩ }
     pickTurn s (cmdReady s) = some (0, ⟨4, 0, 1⟩)) ∧
    (let s := hostedS .yielding { runTile with yreqPosted := true }
     pickTurn s (deadlines s) = some (0, { nd0 with st := .yielding })) ∧
    (let s := hostedS .retiring idleTile
     pickTurn s (retirable s) = some (0, { nd0 with st := .retiring }) ∧ nd0.completion = 0) ∧
    (match completionAdd (upWith runTile) 0 { nd0 with completion := 8 } with | .bad _ => true | _ => false) = true := by decide +kernel
/-- 18 R406: a kill of a node of the other host is refused with code 2; a kill frees its tile. -/
theorem test_kill_other : (hostGet (after (.nodeKill 1 (cmdV 4 0)) (hostedS .running runTile)) 1).nodeWhy = 2 := by decide +kernel
theorem test_kill : (fun s => ((nodeGet? s 0).map (·.st), (tileGet s 0).node)) (after (.nodeKill 0 (cmdV 4 0)) (hostedS .running runTile)) =
    (some .killed, none) := by decide +kernel

/-- RequestsAreServed: a load and a store of tile 1's pool, an atomic of a near-memory unit (in a frozen frame too), a check and
a reply. -/
def reqAt (kind : ReqKind) (addr : Word) (pa : Nat) (st : ReqState) (check : Bool) : Req :=
  { reqOf kind 0x040 addr ldD .pkg with st, pa, check, go := true, bytes := [1, 2, 3, 4, 5, 6, 7, 8], n := 1 }
def withReq (r : Req) : State := pairWith { runTile with core := { coreReset with reqs := [r], nextSeq := 1, tlb := [⟨0, 0, 30, 0x4000004F⟩] } }
def rLoad : Req := reqAt .load 0x8000000080800040 0 .ready false
def rStore : Req := reqAt .store 0x8000000080800040 0 .ready false
def rAtom : Req := reqAt .atomic 0x40 0x40000040 .ready false
def frozenS (s : State) : State := hostPut s 0 { hostGet s 0 with frozen := [(0x40000000, 2)] }
def storesB (s : State) (r : Req) : Bool :=
  match serveStores 0 s ((coreGet s 0).reqs.filter fun x => storeWith x r) with | .ok _ => true | .error _ => false
/-- A word at 0x40 of tile 1's pool that its own atomic holds. -/
def heldPool (r : Req) : State :=
  let b := { (enter (upWith runTile) 0 (.nop 0 (cop 0 (.s 0) 0))).2 with todo := [] }
  let s := corePut (withReq r) 0 { coreGet (withReq r) 0 with window := [b], ticks := 1 }
  tilePut s 1 { runTile with core := { coreReset with window := [{ b with acts := [(0, .atomic 0x40 8)] }] } }
def servedB (s : State) (r : Req) : Bool := match serve s 0 r with | .ok _ => true | .error _ => false
theorem wit_RequestsAreServed :
    (∀ r ∈ [rLoad, rStore], pickTurn (withReq r) (remoteReqs (withReq r)) = some (0, r) ∧ servedB (withReq r) r = true ∧ r.go = true ∧
      storesB (withReq r) r = true ∧ fullPlace r.addr = .pool 1 0x40) ∧ storesB (withReq rAtom) rAtom = true ∧
    pickTurn (withReq rAtom) (nearReqs (withReq rAtom) false) = some (0, rAtom) ∧ servedB (withReq rAtom) rAtom = true ∧
    pickTurn (frozenS (withReq rAtom)) (nearReqs (frozenS (withReq rAtom)) true) = some (0, rAtom) ∧
    (xlate (frozenS (withReq rAtom)) 0 0 0x40).isSome = true ∧
    fullPlace rAtom.addr = .mem 0x40 ∧ homeOf rAtom.pa = .stack 0 ∧
    memReadTrap (touchPa (withReq rAtom) (tileAsid (withReq rAtom) 0) rAtom.pa) 0x40000040 8 = none ∧ leafChk rAtom.leaf = false := by
  decide +kernel
theorem wit_RequestsAreServed_more :
    (let r := reqAt .load 0x40 0x40000040 .ready true
     pickTurn (withReq r) (checkReqs (withReq r)) = some (0, r) ∧
       (match checkMem (withReq r) (tileAgentId (withReq r) 0) (coreAgent (withReq r) 0) r.leaf r.pa false true none with
        | .ok _ => true | .error _ => false) = true) ∧
    (let r := reqAt .load 0x40 0x40000040 .sent false
     ((coreGet (withReq r) 0).reqs.find? fun r => decide (r.id % 2 ^ 16 = 0)) = some r) ∧
    (let r := { reqAt .atomic 0x8000000080800040 0 .ready false with go := false }
     let s := heldPool r
     pickTurn s (remoteReqs s) = some (0, r) ∧ wordHeld (tileGet s 1) 0x40 8 = true ∧
       (match checkSync s 0 r (granPool 1 0x40) with | .ok _ => true | .error _ => false) = true) ∧
    servedB (withReq rLoad) (reqAt .kadd 0xC000000000010200 0 .ready false) = false ∧
    (let t (s : State) : State := touch s (tileAsid s 0) (dieOf 1)
     poolReadTrap (t (withReq rLoad)) 1 0x40 8 = none ∧ poolWriteTrap (t (withReq rStore)) 1 0x40 8 = none) ∧
    (let r := reqAt .atomic 0x40 0x40000040 .ready false
     xlate { frozenS (pairWith { runTile with core := { coreReset with reqs := [r] } }) with tiles := [(0, runTile)] } 0 0 0x40 = none) := by
  decide +kernel
/-- 08 R180: the bytes of a remote store go to tile 1's pool in little-endian order. -/
theorem test_remote_store : poolBytes (after .remotePoolRequest (withReq rStore)) 1 0x40 8 = [1, 2, 3, 4, 5, 6, 7, 8] := by decide +kernel

/-- TranslationEvents. -/
def walk0 (out : Option (Nat × Nat)) (retry : Nat) : Walk := ⟨0, 0, [0], retry, out, 0⟩
def withDie (d : Die) : State := { paged runTile with dies := [(0, d)] }
theorem wit_TranslationEvents :
    (let s := withDie { dieReset 0 with missQ := [(0, 0, 0)] }
     pickTurn s (missesReady s) = some (0, (0, 0, 0)) ∧ (walkTables s 0 0).1 = .leaf 0x4000004F 30) ∧
    (let s := withDie { dieReset 0 with missQ := [(1, 0, 0)], walks := [walk0 none 0] }
     pickTurn s (missesReady s) = some (0, (1, 0, 0))) ∧
    (let s := withDie { dieReset 0 with walks := [walk0 (some (0x4000004F, 30)) 0] }
     pickTurn s (walksDone s) = some (0, walk0 (some (0x4000004F, 30)) 0)) ∧
    (let s := { withDie { dieReset 0 with walks := [walk0 none 5] } with clock := 5 }
     pickTurn s (walksRetry s) = some (0, walk0 none 5)) ∧
    (match (walkTables (upWith runTile) 0 0).1 with | .bad _ => true | _ => false) = true := by decide +kernel
theorem wit_TranslationEvents_host :
    (hostGet (hostedS .running runTile) 0).tlbi = none ∧ natBits 0x5 36 15 = 0 ∧ hostOwns (hostedS .running runTile) 0 0 = true ∧
    hostOwns (hostedS .running runTile) 0 1 = false ∧
    (let s := hostPut (upWith runTile) 0 { hostGet (upWith runTile) 0 with tlbi := some 0 }
     pickTurn s (tlbiAsked s) = some (0, 0) ∧ tlbiStores s 0 0 = false) ∧
    frzFrame { hostReset with frzAddr := 0x40000002 } = (0x40000000, 2) ∧ inHbm 0x40000000 (2 ^ 30) = true ∧
    (let s := frozenS (upWith runTile)
     (hostGet s 0).frozen.length < 16 ∧ (0x40000000, 2) ∈ (hostGet s 0).frozen) ∧
    (let s := hostPut (upWith runTile) 0 { hostGet (upWith runTile) 0 with frzBusy := true }
     pickTurn s ((List.range 2).filter fun k => (hostGet s k).frzBusy) = some 0) := by decide +kernel
/-- 10 R242: a page of the other host's ASID is refused. -/
theorem test_tlbi_other : (hostGet (after (.tlbiPage 0 (BitVec.ofNat 64 (2 ^ 51))) (hostedS .running runTile)) 0).tlbiErr = true := by decide +kernel

/-- CopySequencer: a fill of two bursts of 64 bytes at pool offset 0x100, bound and gated, queued, running, to be signalled, done. -/
def fillCmd (extra : NMap RV) (ctl : Nat) : Cmd :=
  ⟨.etrig, 5, [], extra ++ [(1, rvOf 0x8000000000000100), (2, rvOf (BitVec.ofNat 64 (64 + ctl))), (3, rvOf 0x0000000100000002), (5, rvOf 64), (7, rvOf 0xAB)], 1, 0, none⟩
def cpRun (c : Cmd) (unit : Nat) (aux : NMap Nat) : Run := ⟨c, unit, 0, aux, [], 0, []⟩
def cpS (queue : List QEntry) (runs : List Run) (reels : NMap Reel) : State :=
  upWith { runTile with engines := [(8, { engineReset 8 with queue, runs })], reels }
def bound0 (v : Word) : NMap Reel := [(3, ⟨v, true, 4, 0⟩)]
/-- A gated command: CTL.x and CTL.gate, counts 2 and 1, gate reel 5 with threshold 1. -/
def gateCmd : Cmd :=
  ⟨.etrig, 5, [], [(1, rvOf 0x8000000000000100), (2, rvOf (BitVec.ofNat 64 (64 + 2 ^ 26 + 2 ^ 35))), (8, rvOf 2), (9, rvOf 1), (10, rvOf 1),
    (11, rvOf 1), (12, rvOf 1), (13, rvOf 1), (20, rvOf 0x4000000000), (26, rvOf 0xC000000000000005), (27, rvOf 1)], 1, 0, none⟩
def reelCmd : Cmd := fillCmd [(6, rvOf 0xC000000000000003)] (2 ^ 25)
theorem wit_CopySequencer : (∀ s ∈ [cpS [⟨0, true, 0, 0, fillCmd [] 0, []⟩] [] [], cpS [] [cpRun (fillCmd [] 0) 0 []] []], cpOpen s 0 8 = true) ∧
    (cpNext (engGet (tileGet (cpS [⟨0, true, 0, 0, fillCmd [] 0, []⟩] [] []) 0) 8)).isSome = true ∧
    cpTotal (fillCmd [] 0) = 2 ∧ forkReady (cpS [] [] []) none = true ∧
    cpBindWait (cpS [] [cpRun (fillCmd [] 0) 0 []] []) 0 (cpRun (fillCmd [] 0) 0 []) = false ∧ cpGateWait (cpRun (fillCmd [] 0) 0 []) = false ∧
    (match cpBurstRun (cpS [] [cpRun (fillCmd [] 0) 0 []] []) 0 8 (fillCmd [] 0) 0 with | .ok (_, none) => true | _ => false) = true ∧
    (match cpBurstRun (cpS [] [] []) 0 8 { fillCmd [] 0 with regs := [(1, rvOf 0x8000000000F00000), (2, rvOf 64)] } 0 with | .bad _ => true | _ => false) = true := by
  decide +kernel
theorem wit_CopySequencer_waits : cpBindWait (cpS [] [] (bound0 0)) 0 (cpRun reelCmd 0 []) = true ∧
    cpBindMet (cpS [] [] (bound0 0)) 0 (cpRun reelCmd 0 []) = false ∧
    (let s := cpS [] [] ((4, ⟨1024, false, 0, 0⟩) :: bound0 0)
     cpBindMet s 0 (cpRun reelCmd 0 []) = true ∧ (cpBinding s 0 reelCmd).isSome = true) ∧
    cpTotal gateCmd = 2 ∧ cpGateWait (cpRun gateCmd 0 []) = true ∧ cpBindWait (cpS [] [] []) 0 (cpRun gateCmd 0 []) = false ∧ cpGateNeed (cpRun gateCmd 0 []) = 1 ∧
    (match engReel (cpS [] [] []) 0 0xC000000000000005 false with | .ok (.reg 0 5) => true | _ => false) = true := by decide +kernel
theorem wit_CopySequencer_ends : cpSigDue runTile 8 (cpRun reelCmd 2 []) = true ∧
    (match engAdd (cpS [] [cpRun reelCmd 2 []] []) 0 1 0xC000000000000003 (BitVec.ofNat 64 (cpAddend reelCmd)) .tile with | .ok _ => true | _ => false) = true ∧
    cpDone runTile 8 (cpRun (fillCmd [] 0) 2 [(0, 2)]) = true := by decide +kernel
/-- A burst whose page no TLB holds waits; an addend of 2^64 is no value of a reel. -/
def hugeCmd : Cmd :=
  fillCmd [(6, rvOf 0xC000000000000003), (8, rvOf 65536), (9, rvOf 65536), (10, rvOf 65536), (11, rvOf 1), (12, rvOf 1), (13, rvOf 1)]
    (65536 - 64 + 2 ^ 25 + 3 * 2 ^ 27 + 2 ^ 35)
theorem wit_CopySequencer_more :
    (∀ aux ∈ [[], [(0, 2)]], cpSigDue runTile 8 (cpRun (fillCmd [] 0) 0 aux) = false) ∧
    (match cpBurstRun (cpS [] [] []) 0 8 { fillCmd [] 0 with regs := [(1, rvOf 0x40), (2, rvOf 64)] } 0 with | .wait _ => true | _ => false) = true ∧
    cpAddend hugeCmd = 2 ^ 64 ∧ cpRl hugeCmd = true ∧ cpSigDue runTile 8 (cpRun hugeCmd (2 ^ 48) []) = true ∧ cpAddend reelCmd < 2 ^ 64 ∧
    (match engReel (cpS [] [] (bound0 0)) 0 (BitVec.ofNat 64 (cmdReg hugeCmd 6)) true with | .ok (.reg 0 3) => true | _ => false) = true := by
  decide +kernel
/-- 11 R258, R259: the first burst of the fill writes its pattern from DST on. -/
theorem test_fill : poolBytes (after (.copyBurst 0 0) (cpS [] [cpRun (fillCmd [] 0) 0 []] [])) 0 0xFF 3 = [0, 0xAB, 0] := by decide +kernel

/-! Arrays, special engines, the fabric engine, leases. -/

/-- A command of an array with its progress: K = 16, bf16 operands in constant rings at 0 and 0x1000. -/
def axCmd (code : Nat) : Cmd :=
  ⟨.etrig, code, [], [(0, rvOf (BitVec.ofNat 64 (2 ^ 32))), (1, rvOf (BitVec.ofNat 64 (2 ^ 32 + 0x1000 * 2 ^ 41))),
    (2, rvOf (BitVec.ofNat 64 (16 + 11 * 2 ^ 21 + 11 * 2 ^ 25)))], 1, 0, none⟩
def axRun (code phase unit : Nat) (aux : NMap Nat) (rows : List RowOut) : Run := ⟨axCmd code, unit, phase, aux ++ [(akClk, 1000)], [], 0, rows⟩
def axS (r : Run) (prog : List Nat) (reels : NMap Reel) : State :=
  upWith { runTile with engines := [(0, { engineReset 0 with st := 3, runs := [r] })], drains := [(0, prog)], reels, partAcc := 4,
                        wmarks := [(0, ⟨64, 0, false, 0⟩)] }
def dendW : Nat := 0x13 * 2 ^ 27
def dstW : Nat := 0x10 * 2 ^ 27
def dstqW : Nat := 0x11 * 2 ^ 27
def row0 : RowOut := ⟨0, [], [], 0, none, 0, 0⟩
theorem wit_MatrixArray : mxCanBegin (axS (axRun 2 0 0 [] []) [] []) 0 0 = some (axRun 2 0 0 [] []) ∧ axMul (axCmd 2) = true ∧
    mxOpen (axS (axRun 4 1 0 [] []) [] []) 0 0 = true ∧ [axRun 4 1 0 [] []].find? (mxLands (engineReset 0)) = some (axRun 4 1 0 [] []) ∧
    [axRun 2 1 0 [(akRead, 1)] []].find? (mxLands (engineReset 0)) = some (axRun 2 1 0 [(akRead, 1)] []) ∧
    landBad (axS (axRun 2 1 0 [(akRead, 1)] []) [] []) 0 (axRun 2 1 0 [(akRead, 1)] []) = none ∧
    [axRun 2 1 0 [] []].find? (mxLands (engineReset 0)) = none ∧ [axRun 2 1 0 [] []].find? mxReads = some (axRun 2 1 0 [] []) := by decide +kernel
theorem wit_MatrixArray_ends :
    (let r := axRun 2 1 0 [(akRead, 1)] []
     mxEnds (engGet (tileGet (axS r [] []) 0) 0) = some r ∧ ra r akRel = 0 ∧
       (match mxRelease (axS r [] []) 0 r.cmd false with | .ok s1 => (match mxRelease s1 0 r.cmd true with | .ok _ => true | _ => false) | _ => false) = true) ∧
    (let r := axRun 2 2 0 [(akRead, 1), (akLand, 1)] []
     mxFinished (engGet (tileGet (axS r [] []) 0) 0) = some r ∧ axKat r.cmd = false ∧ cmdReg r.cmd 3 = 0) := by decide +kernel
theorem wit_MatrixArray_drain :
    (let r := axRun 3 2 0 [(akDrain, 1), (akFirst, 1)] []
     dnCanRead (axS r [dendW] []) 0 0 = some r ∧ ra r akFirst ≠ 0 ∧
       (match dnChecks (axS r [dendW] []) 0 r [] true with | .ok _ => true | _ => false) = true ∧
       (match dnChecks (axS r [dstW, dendW] []) 0 { r with cmd := { r.cmd with regs := (19, rvOf 0xF0) :: r.cmd.regs } } [dstW] true with | .error _ => true | _ => false) = true ∧ r.rows = []) ∧
    (let r := axRun 3 2 1 [(akDrain, 1), (akFirst, 1)] [row0]
     (∃ i, dqWaiting (axS r [dstqW, dendW] []) 0 0 = some (r, i)) ∧ dqRoom (tileGet (axS r [dstqW, dendW] []) 0) r.cmd = true ∧
       dnCanStore (axS r [dendW] []) 0 0 = some r ∧ ra r akPdq = 0 ∧ ra r akPdsig = 0) ∧
    (let r := axRun 3 2 1 [(akDrain, 1), (akPdq, 1)] []
     dnCanStore (axS r [dendW] []) 0 0 = some r ∧ ra r akPdq ≠ 0) := by
  refine ⟨by decide +kernel, ⟨⟨0, by decide +kernel⟩, ?_⟩, by decide +kernel⟩
  decide +kernel
/-- A landing that meets an accumulator row with three wrong symbols; a known-answer command with and without a mismatch. -/
theorem wit_MatrixArray_faults :
    (let r := axRun 1 1 0 [(akRead, 1)] []
     let s := { axS r [] [] with symErr := [(cwKey 0 20224 0, [7, 8, 9])] }
     mxOpen s 0 0 = true ∧ (landBad s 0 r).isSome = true) ∧
    (let r := { axRun 2 2 0 [(akRead, 1), (akLand, 1)] [] with cmd := { axCmd 2 with imm := 0x102 } }
     axKat r.cmd = true ∧ ra r akCmp = 0 ∧ mxFinished (engGet (tileGet (axS r [] []) 0) 0) = some r ∧ (mxCompare (axS r [] []) 0 0 r).2 = none ∧
       (let q := { r with cmd := { r.cmd with regs := (4, rvOf 1) :: r.cmd.regs } }
        (mxCompare (axS q [] []) 0 0 q).2.isSome = true)) := by decide +kernel
theorem wit_MatrixArray_full : dqRoom { runTile with reels := [(0, ⟨1, false, 0, 0⟩)] } { axCmd 3 with regs := [(30, rvOf (BitVec.ofNat 64 (2 ^ 16)))] } = false := by
  decide +kernel
/-- 13 R307: azero clears four rows at a time. -/
theorem test_azero : (engGet (tileGet (after (.arrayGroupLanding 0 0) (axS (axRun 4 1 0 [] []) [] [])) 0) 0).progNext = 4 := by decide +kernel

/-- SpecialEngines: a gather of four elements by four indexes, at its first unit, with a damaged register, and finished. -/
def spCmd (src : RV) : Cmd :=
  ⟨.etrig, 1, [], [(0, src), (1, rvOf (descOf 0x100 1 4 6)), (2, rvOf (descOf 0x200 1 4 2)), (4, rvOf 0)], 1, 0, none⟩
def spS (c : Cmd) (unit : Nat) : State :=
  upWith { runTile with engines := [(3, { engineReset 3 with st := 3, runs := [⟨c, unit, 0, [], [], 0, []⟩] })] }
def spR (c : Cmd) (unit : Nat) : Run := ⟨c, unit, 0, [], [], 0, []⟩
theorem wit_SpecialEngines :
    (let c := spCmd (rvOf (descOf 0 1 4 2))
     spNext (spS c 0) 0 3 = some (spR c 0) ∧ (List.range 11).all (fun k => !resBad (mapGet c.regs k (rvOf 0))) = true ∧
       (match spUnit (spS c 0) 0 3 (spR c 0) with | .ok _ => true | _ => false) = true ∧ spFinished (spS c 4) 0 3 = some (spR c 4) ∧ cmdReg c 6 = 0) ∧
    (let c := spCmd ⟨descOf 0 1 4 2, 15⟩
     spNext (spS c 0) 0 3 = some (spR c 0) ∧ (∃ k < 11, resBad (mapGet c.regs k (rvOf 0)) = true)) := by
  refine ⟨by decide +kernel, by decide +kernel, 0, by decide, by decide +kernel⟩

/-- A send of 64 bytes from address 0 over port 1, with both ports up and what they have received. -/
def fxCmd (code : Nat) : Cmd :=
  ⟨.etrig, code, [], [(2, rvOf 64), (1, rvOf 0x1000), (3, rvOf (BitVec.ofNat 64 (9 * 2 ^ 14))), (4, rvOf 0x10), (7, rvOf 2000), (8, rvOf 0x2000), (9, rvOf 20)], 1, 0, none⟩
def fxRun (code unit : Nat) (aux : NMap Nat) : Run := ⟨fxCmd code, unit, 0, aux, [], 0, []⟩
def upPort (rx : List FxMsg) : Strand := { strandReset with up := true, rx }
def fxS (r : Run) (rx0 rx1 : List FxMsg) : State :=
  { upWith { runTile with engines := [(7, { engineReset 7 with st := 3, runs := [r] })], core := { coreReset with tlb := [⟨0, 0, 30, 0x4000004F⟩] } } with
      strands := [(0, upPort rx0), (1, upPort rx1)] }
theorem wit_SpecialEngines_fx :
    (let r := fxRun 4 0 [(akPrev, 1)]
     let ps := fxExpected r.cmd
     fxOpen (fxS r [] [.first ps]) 0 = some r ∧ fxToCheck (fxS r [] [.first ps]) r = some (true, 1, some (.first ps)) ∧
       fxToCheck (fxS r [] [.first [7]]) r = some (true, 1, some (.first [7])) ∧ [7] ≠ ps) ∧
    (let r := fxRun 4 0 [(akPrev, 1), (akNext, 1)]
     fxNextStep (fxS r [] []) 0 = some r ∧ r.phase ≠ 1 ∧ (match fxSendHalf (fxS r [] []) 0 r.cmd (fxPlan r.cmd r.unit) with | .ok _ => true | _ => false) = true ∧
       fxReceives (fxPlan r.cmd r.unit) = false) ∧
    (let r := fxRun 5 0 [(akPrev, 1), (akNext, 1)]
     fxNextStep (fxS { r with phase := 1 } [.chunk [1]] []) 0 = some { r with phase := 1 } ∧ (fxPlan r.cmd r.unit).recv.isSome = true ∧
       fxReceives (fxPlan r.cmd r.unit) = true ∧
       (match fxArrived (fxS r [.chunk [1]] []) r.cmd 64 with
        | some (s1, bs) => (match fxRecvHalf s1 0 r.cmd (fxPlan r.cmd r.unit) bs with | .ok _ => true | _ => false)
        | none => false) = true) ∧
    (let r := fxRun 5 1 [(akPrev, 1), (akNext, 1)]
     fxFinished (fxS r [] []) 0 false = some r ∧ (match fxAdd (fxS r [] []) 0 r .fab with | .ok _ => true | _ => false) = true) := by decide +kernel
theorem wit_SpecialEngines_ports :
    (let r := fxRun 4 0 []
     fxOpen (fxS r [.marker] []) 0 = some r ∧ (fxHasMarker (fxS r [.marker] []) r.cmd).isSome = true ∧
       (strandGet (fxS r [.marker] []) (fxNext r.cmd)).rx = []) ∧
    (let s := { fxS (fxRun 4 0 []) [] [] with clock := 36 * 3000000 }
     (fxDelays s).isEmpty = false) ∧
    (11 < 12 ∧ 11 / 3 ∉ (upWith runTile).portsLost) ∧ fxOver (upWith runTile) 0 = [] ∧ (strandGet (fxS (fxRun 4 0 []) [] []) 0).up = true ∧
    (match extAdd (fxS (fxRun 4 0 []) [] []) 0 (remoteAgentId 0) (remoteAgent (fxS (fxRun 4 0 []) [] []) 0) 1 1 .fab with | .error _ => true | .ok _ => false) = true := by
  decide +kernel
/-- A gather of row 0 of a table in global memory. -/
def glCmd (table : Word) : Cmd :=
  ⟨.etrig, 1, [], [(0, rvOf 0), (1, rvOf (descOf 0x100 1 4 6)), (2, rvOf (descOf 0x200 1 4 2)), (4, rvOf 0x0000000100010001), (5, rvOf 0x100000000), (7, rvOf table)],
    1, 0, none⟩
theorem wit_SpecialEngines_more :
    (let c := glCmd 0x40
     spNext (spS c 0) 0 3 = some (spR c 0) ∧ (match spUnit (spS c 0) 0 3 (spR c 0) with | .wait _ => true | _ => false) = true) ∧
    (let c := glCmd 0x10000000000000
     spNext (spS c 0) 0 3 = some (spR c 0) ∧ (match spUnit (spS c 0) 0 3 (spR c 0) with | .bad _ => true | _ => false) = true) ∧
    (let s := fxS (fxRun 4 0 []) [] []
     addWaits s 0 0xC000000000010003#64 = false ∧ s.owed = [] ∧
       (match extAdd s 0 (remoteAgentId 0) (remoteAgent s 0) 0xC000000000010003#64 1 .fab with | .error _ => false | .ok _ => true) = true) ∧
    addWaits (frozenS (paged runTile)) 0 0x40 = true ∧
    (let r := fxRun 4 0 [(akPrev, 1), (akNext, 1)]
     (match fxSendHalf (fxS r [] []) 0 r.cmd (fxPlan r.cmd r.unit) with
      | .ok s1 => (fxPlan r.cmd r.unit).send.isSome && fxReceives (fxPlan r.cmd r.unit) && (strandGet s1 (fxPrev r.cmd)).rx.isEmpty
      | _ => true) = false) := by decide +kernel
/-- 20 R458: a marker aborts the command with cause 4. -/
theorem test_fx_marker : (fun x : Engine => (x.runs, x.cause)) (engGet (tileGet (after (.fxAbortMarkerArrival 0) (fxS (fxRun 4 0 []) [.marker] [])) 0) 7) =
    ([], 4) := by decide +kernel

/-- LeaseEvents. -/
def engIn (e : Nat) (x : Engine) (q : List LeaseReq) (ctl : Word) : State := upWith { runTile with engines := [(e, x)], leaseQ := q, leaseCtl := ctl, grant := 8, core := { coreReset with ticked := true } }
theorem wit_LeaseEvents : leaseRuns (engIn 0 { engineReset 0 with st := 2, pwDone := false } [] 0) 0 = true ∧
    (engGet (tileGet (engIn 0 { engineReset 0 with st := 2, pwDone := false } [] 0) 0) 0).pwDone = false ∧
    (let s := engIn 1 { engineReset 1 with st := 3 } [⟨false, 0, 0, false, 0, 0⟩] 0
     pickTurn s (grantable s) = some 0 ∧ leasePick (tileGet s 0) 0 (leaseInsts false 0) = some 0 ∧ leaseFits (tileGet s 0) 0 = true) ∧
    (let s := engIn 0 { engineReset 0 with st := 3, idle := 5 } [] 5
     pickTurn s (gateable s) = some (0, 0)) ∧
    (let s := engIn 0 { engineReset 0 with st := 1, idle := 5 } [] 5
     pickTurn s (returnable s) = some (0, 0)) ∧
    (let s := engIn 0 { engineReset 0 with st := 7 } [] 5
     pickTurn s (released s) = some (0, 0) ∧ leasePass (engMap s 0 0 (engKennel 0)) 0 0 = false) ∧
    (let s := { upWith { runTile with standby := [(0, ⟨1, 9, false⟩)], grant := 3, leaseQ := [⟨false, 4, 0, false, 0, 0⟩] } with clock := 36 * 20000 }
     pickTurn s (graceOver s) = some 0) := by decide +kernel
theorem wit_LeaseEvents_more :
    (let s := engIn 0 { engineReset 0 with st := 7 } [⟨true, 0, 0, false, 0, 0⟩] 0
     pickTurn s (released s) = some (0, 0) ∧ leasePass (engMap s 0 0 (engKennel 0)) 0 0 = true) ∧
    (∀ st ∈ [1, 7], (engGet (tileGet (engIn 0 { engineReset 0 with st, pwDone := false } [] 0) 0) 0).st = st) ∧
    (tileGet (engIn 0 { engineReset 0 with st := 1 } [] 0) 0).standby = [] := by decide +kernel
theorem wit_LeaseEvents_host : hostCan (upWith runTile) 0 = true ∧ (0 = (upWith runTile).mgmt.mgmtHost) ∧ 1 ≠ (upWith runTile).mgmt.mgmtHost ∧
    (tileNode? (upWith runTile) 0).map (·.host) ≠ some 1 := by decide +kernel
/-- 12 R285, R291: an evicted engine's state is 6 and its STATUS.cause evicted. -/
theorem test_evict : (fun x : Engine => (x.st, x.cause)) (engGet (tileGet (after (.leaseCmdEvict 0 0 1) (engIn 0 { engineReset 0 with st := 3 } [] 0)) 0) 0) =
    (6, 6) := by decide +kernel

/-! Launch, context, hosts, board, reliability. -/

/-- An image of one bundle at address 0 of ASID 0, whose page lies at DPA 0x40000000 (02 R25). -/
def imageMem : Mem :=
  cellsFrom 0x40000000 ((leBytes 4 0x4D493946) ++ leBytes 2 1 ++ leBytes 2 1 ++ leBytes 8 0x41) ++ cellsFrom 0x40000018 (leBytes 4 0x80 ++ leBytes 2 1)
    ++ cellsFrom 0x40000020 (leBytes 4 0x100 ++ leBytes 4 1)
/-- A record of a pack of one tile at DPA 0x50000, word 1 being its control word (02 R30). -/
def recMem (ctl : Nat) : Mem := cellsFrom 0x50008 (leBytes 8 ctl)
def goodCtl : Nat := 0x1000000000000000
def lqOf (ctl : Word) (node : Option Nat) : LaunchQ := { lqReset with base := 0x50000, ctl, tail := 1, headNode := node }
/-- Host 0's queue of level 0, its nodes and the memory. -/
def launchS (q : LaunchQ) (nodes : NMap Node) (mem : Mem) : State :=
  let s := upWith tileReset
  { s with tiles := [], packs := [], nodes, mem, mgmt := { s.mgmt with hostSplit := 1, asidTbl := 0x10001, csaCnt := 4 },
           hosts := [(0, { hostReset with linkUp := true, lq := [(0, q)] }), (1, { hostReset with linkUp := true })] }
def recNd : Node := recNode 0 0 0x50000 0 (recWords (devBytes (launchS (lqOf 0x104 none) [] (recMem goodCtl)) 0x50000 256))
def eligS : State := launchS (lqOf 0x104 (some 1)) [(1, { recNd with st := .eligible })] []
theorem wit_LaunchLifecycle_queue : hostCan (launchS lqReset [] []) 0 = true ∧ (0 : Nat) < 24 ∧ lqSize (lqOf 0x104 none) = 16 ∧
    natBits (0x104 : Word).toNat 0 5 = 4 ∧ (lqOf 0x104 none).ctl.getLsbD 8 = true ∧ (lqOf 0x104 none).head ≠ (lqOf 0x104 none).tail := by
  decide +kernel
theorem wit_LaunchLifecycle_check :
    (let s := launchS (lqOf 0x104 none) [] (tables ++ recMem goodCtl ++ imageMem)
     pickTurn s (checkable s) = some (0, 0, 0) ∧ partReads s 0x50000 256 = true ∧ (match recCheck s recNd (recWords (devBytes s 0x50000 256)) with
       | .ok _ => true | _ => false) = true) ∧
    (let s := launchS (lqOf 0x104 none) [] (tables ++ recMem goodCtl)
     (match recCheck s recNd (recWords (devBytes s 0x50000 256)) with | .bad x => decide (x.cause = causeBadImage) | _ => false) = true) ∧
    (let s := { launchS (lqOf 0x104 none) [] [] with lostGran := [0x50000 / 64] }
     pickTurn s (checkable s) = some (0, 0, 0) ∧ partReads s 0x50000 256 = false) := by decide +kernel
theorem wit_LaunchLifecycle_wait :
    (let s := launchS (lqOf 0x104 (some 1)) [(1, recNd)] []
     pickTurn s (depReady s) = some (1, []) ∧ nodeGet? s 1 = some recNd) ∧
    (let s := { launchS (lqOf 0x100010304 (some 1)) [(1, { recNd with st := .eligible })] [] with clock := 36 * 1000 }
     pickTurn s (liftable s) = some 1) := by decide +kernel

/-- The conditions of `LevelIdle`, computed. -/
def idleB (s : State) (k : Nat) : Bool :=
  (heldAt s k).isNone && (preemptedAt s k).isNone && !headPending s 0 k && !headPending s 1 k && (headsAt s 0 k).isEmpty && (headsAt s 1 k).isEmpty
    && decide ((lqGet s 0 k).deficit = 0) && decide ((lqGet s 1 k).deficit = 0)
theorem idle_of {s : State} {k : Nat} (h : idleB s k = true) : LevelIdle s k := by
  simp only [idleB, Bool.and_eq_true, Bool.not_eq_true', Option.isNone_iff_eq_none, List.isEmpty_iff, decide_eq_true_eq] at h
  exact ⟨h.1.1.1.1.1.1.1, h.1.1.1.1.1.1.2, ⟨h.1.1.1.1.1.2, h.1.1.1.1.2⟩, ⟨h.1.1.1.2, h.1.1.2⟩, ⟨h.1.2, h.2⟩⟩
theorem idle_above (s : State) (h : ((List.range 24).all fun k => decide (k = 0) || idleB s k) = true) : ∀ k, 0 < k → k < 24 → LevelIdle s k := by
  intro k h0 h1
  have := List.all_eq_true.mp h k (List.mem_range.mpr h1)
  simp only [Bool.or_eq_true, decide_eq_true_eq] at this
  exact idle_of (this.resolve_left (by omega))
/-- LaunchLifecycle: a head that is to be placed, one with tiles and no slot, a pre-empted node, a held head; a placed node. -/
theorem wit_LaunchLifecycle_place : eligS.mgmt.halted = false ∧ (∀ k, 0 < k → k < 24 → LevelIdle eligS k) ∧
    (∃ s1, Serves eligS 0 s1 1 { recNd with st := .eligible } ∧ nodeTilesFor s1 { recNd with st := .eligible } = some [0] ∧
      nodeSlotsFor s1 { recNd with st := .eligible } = some [0] ∧ recNd.restart = false) :=
  ⟨by decide +kernel, idle_above _ (by decide +kernel),
    drrSet { eligS with drrTurn := [(0, 2)] } 0 0 16, .turn _ _ _ (by decide +kernel) (by decide +kernel) (by decide +kernel) (by decide +kernel) (by decide +kernel),
    by decide +kernel, by decide +kernel, by decide +kernel⟩
theorem wit_LaunchLifecycle_more :
    (let nd := { recNd with st := .preempted, slots := [0] }
     let s := launchS lqReset [(1, nd)] []
     preemptedAt s 0 = some (1, nd) ∧ nodeSlotsFor s nd = some [0]) ∧
    (let nd := { recNd with st := .held }
     let s := launchS (lqOf 0x104 (some 1)) [(1, nd)] []
     heldAt s 0 = some (1, nd)) ∧
    (let s := { eligS with nodes := (0, { recNd with st := .saved, slots := [0, 1, 2, 3] }) :: eligS.nodes }
     (nodeTilesFor s { recNd with st := .eligible }).isSome = true ∧ nodeSlotsFor s { recNd with st := .eligible } = none) ∧
    (let s := launchS lqReset [(1, { recNd with st := .placed, tiles := [0], slots := [0], pack := 1 })] imageMem
     pickTurn s (loadable s) = some 1 ∧ [0].Nodup) := by decide +kernel
/-- A record whose image page migrates is checked again; a restartable node with one input range and none written. -/
theorem wit_LaunchLifecycle_last :
    (let s := launchS (lqOf 0x104 none) [] (wordCells 0x10000 0x20001 ++ wordCells 0x20000 0x30001 ++ wordCells 0x30000 0x400000CF
       ++ recMem goodCtl)
     pickTurn s (checkable s) = some (0, 0, 0) ∧ partReads s 0x50000 256 = true ∧
       (match recCheck s recNd (recWords (devBytes s 0x50000 256)) with | .wait _ => true | _ => false) = true) ∧
    (match restartOk eligS recNd with | .wait _ => false | _ => true) = true := by decide +kernel
/-- 02 R37: a doorbell more than a ring ahead disables the queue. -/
theorem test_overflow : (fun q : LaunchQ => (q.overflow, q.ctl)) (lqGet (after (.lqTailWrite 0 0 17) (launchS (lqOf 0x104 none) [] [])) 0 0) =
    (true, 4) := by decide +kernel
/-- 02 R34: a record whose version is not 1 is rejected with bad-record. -/
theorem test_bad_record : (after .launchRecordCheck (launchS (lqOf 0x104 none) [] (recMem 0))).nodes.map (fun x => x.2.st) = [.rejected] := by
  decide +kernel

/-- ContextEvents: a node whose tile has stopped to be saved; one that has answered a yield; one to be restored, soundly and not. -/
def saveNd (target : Option NodeState) (st : NodeState) : Node := { nd0 with st, saving := target }
def saveS (nd : Node) (t : Tile) : State := { upWith { t with pool := [(5, 9)] } with nodes := [(0, nd)], mgmt := { mgmtReset with bootPhase := 5, csaCnt := 4 } }
def ctx0 : SavedCtx := ⟨coreReset, [], [], 0, [], [], ⟨0, 0, 0, 0, 1, 0⟩, [], false, false⟩
def restNd : Node := { nd0 with st := .placed, restoring := true }
def savedS : State := after .contextSaveComplete (saveS (saveNd (some .saved) .running) haltTile)
def restS (ok : Bool) : State :=
  let mem : Mem := [(0x6593A0, 64), (0x6593A8, 64), (0x6593B0, 64)]
  { upWith { tileReset with node := some 0 } with nodes := [(0, restNd)], saved := if ok then [(0, ctx0)] else [], mem }
theorem wit_ContextEvents : pickTurn (saveS (saveNd (some .saved) .running) haltTile) (saveReady (saveS (saveNd (some .saved) .running) haltTile)) = some 0 ∧
    (saveNd (some .saved) .running).slots[rank0 runTile]? = some 0 ∧
    pickTurn (saveS (saveNd none .yielding) { idleTile with yreqPosted := true }) (saveReady (saveS (saveNd none .yielding) { idleTile with yreqPosted := true })) = some 0 ∧
    nodeGet? (restS true) 0 = some restNd ∧ pickTurn (restS true) (restoring (restS true)) = some 0 ∧ restNd.diesLost = false := by decide +kernel
theorem wit_ContextEvents_slot : (match mapGet? (restS true).saved 0 with | some x => x.engines.isEmpty && x.core.reqs.isEmpty && x.creel.isEmpty | none => false) = true ∧
    slotBad (restS true) restNd 0 = none ∧ (slotBad (restS false) restNd 0).isSome = true := by decide +kernel
/-- 18 R413: byte 5 of the pool stands at byte 5 of the slot. -/
theorem test_save_pool : memGet savedS.mem 5 = 9 := by decide +kernel

/-- HostCommands: a record for ring 0, with room and a place that is lost; a ring without room and a notice. -/
def ringOf (head tail : Nat) : FaultRing := { frReset with base := 0x60000, ctl := 0x304, head, tail }
def recOf (cls : Nat) : FaultRec := ⟨0, 0, cls, [], 0⟩
def ringS (r : FaultRing) (q : List FaultRec) : State :=
  let s := hostedS .running runTile
  { hostPut s 0 { hostGet s 0 with fr := [(0, r)] } with recQ := q }
theorem wit_HostCommands :
    (let s := ringS (ringOf 0 0) [recOf 1]
     pickTurn s (recReady s s.recQ [] []) = some (recOf 1, .write 0, []) ∧ partWrites s (ringSlot 0 (ringOf 0 0)) 128 = true ∧ hostRefuses s (ringSlot 0 (ringOf 0 0)) = false ∧ MemInv s) ∧
    (let s := { ringS (ringOf 0 0) [recOf 1] with lostGran := [0x60000 / 64] }
     pickTurn s (recReady s s.recQ [] []) = some (recOf 1, .write 0, []) ∧ partWrites s (ringSlot 0 (ringOf 0 0)) 128 = false) ∧
    (let s := ringS (ringOf 0 16) [recOf 1]
     pickTurn s (recReady s s.recQ [] []) = some (recOf 1, .drop (some 0), [])) := by
  refine ⟨⟨by decide +kernel, by decide +kernel, by decide +kernel, ?_⟩, by decide +kernel, by decide +kernel⟩
  exact ⟨by decide +kernel, by decide +kernel, by decide +kernel⟩
def cmdS (f : HostBlk → HostBlk) : State :=
  let s := hostedS .running runTile
  hostPut s 0 (f (hostGet s 0))
theorem wit_HostCommands_regs : hostCan (cmdS id) 0 = true ∧ mmioOpen (cmdS id) 0 0x1100 = true ∧ hostOwns (cmdS id) 0 0 = true ∧
    areaThere (cmdS id) 0x70000 4096 = true ∧ areaThere (cmdS id) 0xC00000000 4096 = false ∧
    (hostGet (cmdS fun x => { x with hkCmd := some ⟨0, 8, 1⟩ }) 1).hkCmd = none ∧ addWaits (cmdS fun x => { x with hkCmd := some ⟨0, 8, 1⟩ }) 0 8 = false ∧
    (match extAdd (cmdS id) 0 (hostAgentId 0) (hostAgent (cmdS id) 0) 8 1 .sys with | .error _ => true | .ok _ => false) = true ∧
    (hostGet (cmdS fun x => { x with sumCmd := some 0x70000 }) 1).sumCmd = none ∧ (hostGet (cmdS fun x => { x with attCmd := some [0x70000] }) 1).attCmd = none ∧
    (areaThere (cmdS id) 0x70000 2048 && (memReadTrap (cmdS id) 0x70000 64).isNone && !(cmdS id).mgmt.zeroised) = true := by decide +kernel
/-- A memory reel at address 2^31, which host 0 adds to (16 R361). -/
def reelS : State := { paged runTile with mgmt := { (paged runTile).mgmt with hostSplit := 1 } }
theorem wit_HostCommands_add : (match extAdd reelS 0 (hostAgentId 0) (hostAgent reelS 0) 0x80000008 5 .sys with | .ok _ => true | .error _ => false) = true := by
  decide +kernel
theorem test_record : (fun s => (devNat s 0x60000 4, (ringGet (hostGet s 0) 0).tail)) (after .faultRecordWrite (ringS (ringOf 0 0) [⟨0, 0, 1, [0x1234], 0⟩])) =
    (0x1234, 1) := by decide +kernel
theorem test_sum_bad : (hostGet (after (.sumCmd 0 1) (cmdS id)) 0).sumErr = true := by decide +kernel

/-- HostAccesses. -/
theorem wit_HostAccesses : mmioOpen (cmdS id) 0 0x1040 = true ∧ (8 : BitVec 4) = 8 ∧ 0x1040 % 8 = 0 ∧ (4 : BitVec 4) ≠ 8 ∧
    0 = (cmdS id).mgmt.mgmtHost ∧ 1 ≠ (cmdS id).mgmt.mgmtHost ∧ mmioOpen (cmdS id) 1 0x100140 = true ∧ hostCan (cmdS id) 1 = true ∧
    tileThere (cmdS id) 0 = true ∧ nodesHeld (upWith { tileReset with node := none }) = nodesHeld (upWith runTile) ∧
    nodesHeld { upWith runTile with nodes := [] } = false ∧ nodesHeld (hostedS .saved runTile) = true ∧ nodesLive { upWith runTile with nodes := [] } = false ∧
    nodesLive (cmdS id) = true ∧ (cmdS id).freqBusy = false := by decide +kernel
theorem wit_HostAccesses_more : natBit (0x200 : Word).toNat 9 = true ∧ (cmdS id).mgmt.shepCmd = none ∧ tileOfPhys (cmdS id) 287 = none ∧
    inHbm 0xBFFFFFFF8 8 = true ∧ inHbm 0xC00000000 8 = false ∧ (cmdS id).records = [] ∧ memWriteTrap (cmdS id) 0xBFFFFFFF8 8 = none ∧
    memReadTrap (cmdS id) 0xBFFFFFFF8 8 = none ∧ (0xBFFFFFFF8 < 2 ^ 39 ∧ 0xBFFFFFFF8 % 8 = 0) := by decide +kernel
theorem wit_HostAccesses_traps :
    (let s := { cmdS id with lostGran := [0x1000 / 64] }
     memWriteTrap s 0x1000 8 ≠ none ∧ memReadTrap s 0x1000 8 ≠ none ∧ inHbm 0x1000 8 = true ∧ hostCan s 0 = true) ∧ (cmdS id).waits = [] ∧ MemInv (cmdS id) ∧
    (cmdS id).point < 3 ∧ (0, runTile) ∈ (cmdS id).tiles ∧ physTaken (cmdS id) 31 = false ∧ nodesHeld (cmdS id) = true ∧
    (countIn (cmdS id) 0x100190 = 0) := by
  exact ⟨by decide +kernel, by decide +kernel, ⟨by decide +kernel, by decide +kernel, by decide +kernel⟩, by decide +kernel⟩
/-- 20 R449: a read of 4 bytes is an Unsupported Request, one of 8 completes with the register. -/
theorem test_mmio_size : (hostGet (after (.rcRegisterRead 0 0x1001A0 4) (cmdS id)) 0).cpl = some .unsupported := by decide +kernel
theorem test_mmio_read : (hostGet (after (.rcRegisterRead 0 0x1001A0 8) (cmdS id)) 0).cpl = some (.ok (leBytes 8 1)) := by decide +kernel
/-- 20 R450: FetchAdd of 4 bytes returns the old value. -/
theorem test_fetch_add : (fun s => ((hostGet s 0).cpl, devNat s 0x100 4)) (after (.completerAtomicop 0 0x100 5 0) { cmdS id with mem := [(0x100, 7)] }) =
    (some (.ok [7, 0, 0, 0]), 12) := by decide +kernel

/-- BoardEvents. -/
def trained (k : Nat) : State :=
  let links := (List.range k).map fun i => (i, 1)
  { State.reset with mgmt := { mgmtReset with bootPhase := 1, bootBits := 0xFFF800 }, links }
theorem wit_BoardEvents : (35 < 36 ∧ (trained 34).mgmt.bootPhase = 1) ∧ (mapPut (trained 34).links 34 (commonRev 1 1)).length ≠ 36 ∧
    (mapPut (trained 35).links 35 (commonRev 1 1)).length = 36 ∧ 3 ≤ (upWith runTile).mgmt.bootPhase ∧
    (∀ d < 8, (dieGet (upWith runTile) d).phys ≠ 8) ∧ dieLinked (trained 36) 0 = true ∧ State.reset.mgmt.bootPhase ≠ 3 ∧
    (let s := { upWith runTile with freqBusy := true, clockStop := true }
     s.mgmt.halted = false ∧ (s.tiles.all fun t => t.2.core.replay.isNone) = true) ∧
    ([(0, { runTile with core := { coreReset with replay := some ⟨6, 1⟩ } })].all fun t : Nat × Tile => t.2.core.replay.isNone) = false ∧
    (dieGet (upWith runTile) 0).lost = false ∧ (dieGet { upWith runTile with dies := [(0, { dieReset 0 with lost := true })] } 0).lost = true ∧
    (let s := { upWith runTile with touched := [(0, 1)] }
     natBit (mapGet s.touched (nodeAsid nd0) 0) 0 = true ∧ s.nodes = [(0, nd0)] ∧ nd0.st = .running) := by decide +kernel
/-- A fall and a rise of the frequency; a node that the lost die did not touch; a waiting node that touched it; a margin table. -/
theorem wit_BoardEvents_more :
    (let s := { upWith runTile with freqBusy := true, clockStop := true, freqFrom := 2, point := 0 }
     s.point < s.freqFrom ∧ (0, runTile) ∈ s.tiles ∧ pinned runTile.gov = false ∧ s.mgmt.halted = false) ∧
    (let s := { upWith runTile with freqBusy := true, clockStop := true, freqFrom := 0, point := 2 }
     s.freqFrom ≤ s.point) ∧
    (∀ x ∈ (upWith runTile).nodes, natBit (mapGet (upWith runTile).touched (nodeAsid x.2) 0) 0 = false ∧ x.2.st ≠ .queued ∧ x.2.st ≠ .blocked ∧
      x.2.st ≠ .eligible ∧ x.2.st ≠ .held ∧ x.2.st ≠ .preempted) ∧
    (let nd := { nd0 with st := .saved }
     let s := { upWith tileReset with nodes := [(0, nd)], touched := [(0, 1)] }
     natBit (mapGet s.touched (nodeAsid nd) 0) 0 = true ∧ (dieGet s 0).lost = false ∧ s.nodes = [(0, nd)]) ∧
    flashOf { State.reset with flash := [(0, ⟨false, true, 600, 600, 700, 0, 0, 0, 0⟩)] } 0 0 ≠ ⟨false, false, 0, 0, 0, 0, 0, 0, 0⟩ := by decide +kernel
theorem test_die_lost : (nodeGet? (after (.dieLost 0) { upWith runTile with touched := [(0, 1)] }) 0).map (·.st) = some .stopped := by decide +kernel
theorem test_alarm : (after (.securityAlarm 1) { upWith runTile with mgmt := { mgmtReset with bootPhase := 5, alarmCtl := 2 } }).mgmt.zeroised = true := by
  decide +kernel

/-- ReliabilityEvents. -/
def govS (g : Governor) (clock : Nat) : State :=
  { upWith { runTile with gov := g } with clock, flash := [(0, ⟨false, true, 600, 600, 700, 0, 0, 0, 0⟩)] }
def g0 : Governor := { govReset with v := 700, floor := 600 }
theorem wit_ReliabilityEvents_pool :
    (let s := { upWith runTile with symErr := [(2 ^ 46, [3])] }
     pickTurn s (correctable s) = some (0, 0, 0)) ∧
    (let s := upWith { runTile with segs := [(0, { segReset with counts := [(5, 64)] })] }
     pickTurn s (bankDue s) = some (0, 0, 5)) ∧
    (let s := upWith { runTile with segs := [(0, { segReset with spared := 5, rl := 3 })] }
     pickTurn s (rebuilding s) = some (0, 0)) ∧
    (upWith runTile).mgmt.scrubCtl.getLsbD 32 = true ∧ { (upWith runTile).mgmt with scrubCtl := 0x15180 }.scrubCtl.getLsbD 32 = false ∧
    granBad { upWith runTile with symErr := [(0, [0, 1, 2])] } 0 = true ∧ granBad (upWith runTile) 0 = false := by decide +kernel
theorem wit_ReliabilityEvents_governor : pinned g0 = false ∧ g0.restore = 0 ∧ g0.boost = 0 ∧ g0.hint = 0 ∧
    2 ^ (natBits g0.ctl.toNat 8 5 + 2) ≤ 2 ^ 22 ∧ (flashOf (govS g0 0) 0 (govS g0 0).point).safe = 700 ∧
    g0.wBundles < 2 ^ (natBits g0.ctl.toNat 8 5 + 2) ∧ pickTurn (govS g0 (36 * 10000000)) (lateWindows (govS g0 (36 * 10000000))) = some 0 ∧
    pinned { g0 with ctl := 0x10000 } = true ∧ mapGet? (govS g0 0).tiles 0 = some (tileGet (govS g0 0) 0) ∧
    (let s := govS { g0 with overTwice := true } 0
     pickTurn s (emergDue s) = some 0) ∧
    (let s := govS { g0 with emerg := true } (36 * 100000)
     pickTurn s (emergOver s) = some 0) ∧
    (govS g0 0).tiles = [(0, tileGet (govS g0 0) 0)] ∧ (dieGet (govS g0 0) 0).lost = false := by decide +kernel
/-- Full windows with many, with few and with neither; a restore that is due, with the clocks on and stopped; a day at the point in
force; a command of SHEP_FCMD under way. -/
theorem wit_ReliabilityEvents_more :
    (∀ k ∈ [0, 3, 8], 2 ^ (natBits { g0 with wReplays := k, wBundles := 2 ^ 22 }.ctl.toNat 8 5 + 2) ≤ { g0 with wReplays := k, wBundles := 2 ^ 22 }.wBundles) ∧
    (8 ≤ { g0 with wReplays := 8 }.wReplays ∧ g0.wReplays ≤ 1 ∧ g0.wCe = 0) ∧ (¬ (8 ≤ { g0 with wReplays := 3 }.wReplays ∨ 4 ≤ g0.wCe) ∧
      ¬ (({ g0 with wReplays := 3 }.wReplays ≤ 1 ∨ g0.hint = 2) ∧ g0.wCe = 0)) ∧
    (∀ stop, { g0 with restore := 1 }.restore ≠ 0 ∧ { govS { g0 with restore := 1 } 0 with clockStop := stop }.clockStop = stop) ∧
    (let s := govS { g0 with days := [((govS g0 0).point, ⟨5, 1, 600, 0, 0⟩)] } 0
     (tileGet s 0).gov.days = [(s.point, ⟨5, 1, 600, 0, 0⟩)] ∧ s.tiles = [(0, tileGet s 0)]) ∧
    (let s := { upWith runTile with mgmt := { mgmtReset with shepCmd := some 0 } }
     s.mgmt.shepCmd = some 0 ∧ tileOfPhys s 0 = some 0) := by decide +kernel
/-- 19 R440: a clean window that ends on its count lowers v by 2 mV; one with 8 replays restores the safe value. -/
theorem test_window_lowers : (tileGet (after (.governorWindowEnd 0) (govS { g0 with wBundles := 2 ^ 22 } 0)) 0).gov.v = 698 := by decide +kernel
theorem test_window_replays : (tileGet (after (.governorWindowEnd 0) (govS { g0 with v := 698, wBundles := 2 ^ 22, wReplays := 8 } 0)) 0).gov.v = 700 := by
  decide +kernel

/-- MemoryStaysCanonical, StepAlwaysAnswers, TickCounts: the invariant and the agenda after reset. -/
theorem wit_MemoryStaysCanonical : MemInv State.reset ∧ (∀ x ∈ State.reset.tiles, memWf x.2.pool = true) ∧ (∃ t, step State.reset = .next t) := by
  refine ⟨⟨by decide +kernel, by decide +kernel, by decide +kernel⟩, by decide +kernel, ?_⟩
  exact ⟨_, rfl⟩
theorem wit_TickCounts : (upWith runTile).agenda = [] ∧ ((upWith runTile).tiles.map (·.1)).Nodup ∧ (upWith runTile).clockStop = false ∧
    (let s := upWith { runTile with core := { coreReset with stage := .landed } }
     (coreGet s 0).frozen = none ∧ (coreGet s 0).stretch ≠ 1 ∧ tickOver s 0 = true) ∧
    (let s := upWith { runTile with core := { coreReset with stage := .landed, replay := some ⟨3, 1⟩ } }
     tickOver s 0 = true ∧ (coreGet s 0).replay = some ⟨3, 1⟩) := by decide +kernel
theorem wit_StepRunsDecodedWord :
    (let x := enter (upWith runTile) 3 addI
     slotNext? (coreGet x.1 0) 3 = some x.2 ∧ (decodeSlot 3 0 (mapGet x.2.words 3 0)).toOption = some addI) ∧
    (decodeStep (encodeStep addI)).toOption = some addI := by decide +kernel
theorem wit_PlacedWordRuns : (decodeTableWord 320 (bytesNat (encode .grantAdjust))).isSome = true := by decide +kernel
theorem wit_UnassignedRefused : (match decodeSlot 0 0 (0x01C#9 ++ 0#51) with | .ok _ => false | .error _ => true) = true := by decide +kernel

end Sys2Proof.Tests
end

/-! # O39: an engine accepts the head of its elastic buffer -/

namespace Sys2Proof.Machine
open Sys2Proof

section EngineAcceptance
variable {s : State} {n e : Nat} {y : EEntry}

/-! ## What one act on an engine leaves in it -/

@[simp] theorem engGet_engMap_same (s : State) (n e : Nat) (f : Engine → Engine) :
    engGet (tileGet (engMap s n e f) n) e = f (engGet (tileGet s n) e) := by
  simp [engMap]

@[simp] theorem engGet_bufPop_same (s : State) (n e : Nat) :
    engGet (tileGet (bufPop s n e) n) e = { engGet (tileGet s n) e with buf := (engGet (tileGet s n) e).buf.tail } := by
  simp [bufPop]

theorem notLeased_buf (x : Engine) (code : Nat) : (notLeased x code).buf = x.buf := by
  unfold notLeased
  split <;> rfl

theorem notLeased_cause (x : Engine) (code : Nat) : (notLeased x code).cause = if x.cause = 6 then x.cause else 3 := by
  unfold notLeased
  split <;> rfl

theorem engWrite_buf (x : Engine) (e k : Nat) (v : RV) : (engWrite x e k v).buf = x.buf := by
  unfold engWrite
  split <;> rfl

theorem engWrite_evreel (x : Engine) (e : Nat) (v : RV) : engWrite x e 50 v = { x with evreel := v } := rfl

/-- The bits that an array's read-only fields leave of a value written to its register (13 R297; 14 R317). -/
theorem and_mxWritable (k : Nat) (v : Word) : v &&& mxWritable k =
    if k = 5 then v &&& 0xFF#64 else if k = 23 then v &&& 0xFFFFFFFFFFFF#64
      else if k = 28 then v &&& 0xFFFFFFFFFFFFFF07#64 else v := by
  unfold mxWritable
  split
  · rfl
  · rfl
  · rfl
  · next h5 h23 h28 =>
    rw [if_neg h5, if_neg h23, if_neg h28]
    exact BitVec.and_allOnes

/-- ewr to a shadow register other than EVREEL changes that register alone (14 R317). -/
theorem engWrite_regs {k : Nat} (x : Engine) (e : Nat) (v : RV) (hk : k ≠ 50) :
    (engWrite x e k v).evreel = x.evreel ∧ ∀ j, mapGet (engWrite x e k v).regs j (rvOf 0) =
      if j = k then (if e < 2 ∧ v.v &&& mxWritable k ≠ v.v then rvOf (v.v &&& mxWritable k) else v)
      else mapGet x.regs j (rvOf 0) := by
  rw [engWrite, if_neg hk]
  refine ⟨rfl, fun j => ?_⟩
  by_cases hj : j = k
  · rw [hj, if_pos rfl]
    exact mapGet_mapPut_same ..
  · rw [if_neg hj]
    exact mapGet_mapPut_other _ _ _ (Ne.symm hj)

/-! ## The acceptance of the head of a buffer -/

/-- What stands alone at the head of a running engine is what the engine accepts next (05 R109). -/
theorem Accepts.engAccept (h : Accepts s n e y) : engAccept n e s = (acceptBuf s n e y).getD s := by
  obtain ⟨hclock, he, hruns, hhead, hcom, halone⟩ := h
  have hb : bufHead (engGet (tileGet s n) e) = some y := by
    obtain ⟨l, hl⟩ := List.head?_eq_some_iff.mp hhead
    simp [bufHead, hl, hcom]
  simp [Machine.engAccept, engAccept?, hclock, he, hruns, hb, halone]

/-- An engine that is leased and still powering up accepts nothing (12 R280). -/
theorem acceptBuf_wakes (hw : engWakes (tileGet s n) e = true) (hh : engHeld (tileGet s n) e y.seq = true) :
    acceptBuf s n e y = none := by
  simp [acceptBuf, hw, hh]

/-- An entry for an engine that the tile does not hold is dropped (12 R280). -/
theorem acceptBuf_notHeld (hh : engHeld (tileGet s n) e y.seq = false) : ∃ u, acceptBuf s n e y = some u ∧
    (engGet (tileGet u n) e).buf = (engGet (tileGet s n) e).buf.tail ∧
    (engGet (tileGet u n) e).cause = if y.kind = .erd ∨ (engGet (tileGet s n) e).cause = 6
      then (engGet (tileGet s n) e).cause else 3 := by
  refine ⟨_, by simp only [acceptBuf, hh, Bool.and_false, Bool.not_false, Bool.false_eq_true, if_false, if_true]; rfl, ?_⟩
  cases y.kind <;> simp [notLeased_buf, notLeased_cause]

section Held
variable (hw : engWakes (tileGet s n) e = false) (hh : engHeld (tileGet s n) e y.seq = true)
include hw hh

theorem acceptBuf_ewr (hk : y.kind = .ewr) :
    acceptBuf s n e y = some (engMap (bufPop s n e) n e fun g => engWrite g e y.shadow y.x) := by
  simp [acceptBuf, hw, hh, hk]

theorem acceptBuf_erd (hk : y.kind = .erd) : acceptBuf s n e y = some (bufPop s n e) := by
  simp [acceptBuf, hw, hh, hk]

theorem acceptBuf_eabort (hk : y.kind = .eabort) : acceptBuf s n e y = some (engAbort (bufPop s n e) n e) := by
  simp [acceptBuf, hw, hh, hk]

theorem acceptBuf_ewaitq (hk : y.kind = .ewaitq) : acceptBuf s n e y =
    if queuedCount (engGet (tileGet s n) e) = 0 ∧ (engGet (tileGet s n) e).runs = [] then some (bufPop s n e) else none := by
  simp [acceptBuf, hw, hh, hk]

/-- A command for a gated array starts the array's power-up and stays where it is (12 R279). -/
theorem acceptBuf_etrig_gated (hk : y.kind = .etrig) (hst : engState (tileGet s n) e = 4) (he : e < 8) :
    acceptBuf s n e y = some (engWake s n e) := by
  simp [acceptBuf, hw, hh, hk, hst, he]

theorem acceptBuf_etrig (hk : y.kind = .etrig) (hst : engState (tileGet s n) e ≠ 4 ∨ 8 ≤ e) : acceptBuf s n e y =
    let c : Cmd := ⟨.etrig, y.imm, [], (engGet (tileGet s n) e).regs, 0, y.ord, some (n, y.seq)⟩
    if engRoom (engGet (tileGet s n) e) e c && engSees s e c then some (engTake (bufPop s n e) n e c y.vc y.seq) else none := by
  have hg : ¬ (engState (tileGet s n) e = 4 ∧ e < 8) := by omega
  simp [acceptBuf, hw, hh, hk, hg]

end Held

end EngineAcceptance

/-- Settles O39: with no entry of the engine queue before it, the head of the buffer alone decides what the engine accepts, and
the acceptance splits by the engine's lease and power and then by the entry's kind. -/
theorem engineAcceptance : Obligations.EngineAcceptance := by
  intro tile eng s y h
  have hout : exec (.elasticBufferAccept tile eng) s = .next ((acceptBuf s tile.toNat eng.toNat y).getD s) :=
    congrArg _ h.engAccept
  simp only [hout]
  refine ⟨fun hw hh => ?_, fun hw hh => ⟨fun hk => ?_, fun hk => ?_, fun hk hq hr => ?_, fun hk hbusy => ?_, fun hk => ?_,
    fun hk hst he => ?_, fun hk hst => ?_⟩, fun hh => ?_⟩
  · rw [acceptBuf_wakes hw hh, Option.getD_none]
  · rw [acceptBuf_ewr hw hh hk]
    refine ⟨_, rfl, ?_, fun h50 => ?_, fun h50 => ?_⟩
    · simp [engWrite_buf]
    · simp [h50, engWrite_evreel]
    · simpa [and_mxWritable] using engWrite_regs (engGet (tileGet (bufPop s tile.toNat eng.toNat) tile.toNat) eng.toNat) eng.toNat y.x h50
  · rw [acceptBuf_erd hw hh hk, Option.getD_some]
  · rw [acceptBuf_ewaitq hw hh hk, if_pos ⟨hq, hr⟩, Option.getD_some]
  · rw [acceptBuf_ewaitq hw hh hk, if_neg (by rintro ⟨hq, hr⟩; simp_all), Option.getD_none]
  · rw [acceptBuf_eabort hw hh hk, Option.getD_some]
  · rw [acceptBuf_etrig_gated hw hh hk hst he, Option.getD_some]
  · rw [acceptBuf_etrig hw hh hk hst]
    dsimp only
    split <;> rfl
  · obtain ⟨u, hu, hbuf, hcause⟩ := acceptBuf_notHeld hh
    exact ⟨u, by rw [hu, Option.getD_some], hbuf, hcause⟩

end Sys2Proof.Machine

/-! # O60: every step keeps the byte memories canonical

`Canon` is the invariant of O60 as one predicate of the state. Each function of the model that answers a state, a tile or a
result that holds one has a lemma that says it keeps the invariant, in the order of the model's own files: `Canon.f` where `f`
answers a state or a result with one, `f_wf` where it answers a tile. `Canon.exec` and `Canon.step` are assembled from them. -/

namespace Sys2Proof.Machine
open Sys2Proof

section MemoryStaysCanonical

/-! ## The invariant and the rules for it -/

/-- Every byte memory of the package stands in canonical form: device memory, both hosts' memories and every pool. -/
def Canon (s : State) : Prop := MemInv s ∧ ∀ x ∈ s.tiles, memWf x.2.pool = true

variable {α : Type} {s u : State} {t : Tile}

theorem Canon.mem (h : Canon s) : memWf s.mem = true := h.1.1
theorem Canon.host0 (h : Canon s) : memWf s.hostMem0 = true := h.1.2.1
theorem Canon.host1 (h : Canon s) : memWf s.hostMem1 = true := h.1.2.2
theorem Canon.tiles (h : Canon s) : ∀ x ∈ s.tiles, memWf x.2.pool = true := h.2

/-- A state with the same memories and tiles, whatever else it holds: every other field is a variable here, so that the lemma
applies to any update of the others. -/
theorem Canon.frame {agenda turn free sets clock timeAdj slew point freqTarget freqFrom freqBusy clockStop flashPoint
    flashMgmt lostGran symErr dies portsLost links hosts mgmt flash bankMarks strands nodes packs nextOrder drrTurn touched saved
    agents nextAgent releases records lastTag waits owed recQ msix patrol}
    (h : Canon s) :
    Canon { s with
      agenda, turn, free, sets, clock, timeAdj, slew, point, freqTarget, freqFrom, freqBusy, clockStop, flashPoint,
      flashMgmt, lostGran, symErr, dies, portsLost, links, hosts, mgmt, flash, bankMarks, strands, nodes, packs,
      nextOrder, drrTurn, touched, saved, agents, nextAgent, releases, records, lastTag, waits, owed, recQ, msix,
      patrol } :=
  h

/-- A state whose tiles keep their pools, whatever else it holds. -/
theorem Canon.mapTiles {agenda turn free sets clock timeAdj slew point freqTarget freqFrom freqBusy clockStop flashPoint
    flashMgmt lostGran symErr dies portsLost links hosts mgmt flash bankMarks strands nodes packs nextOrder drrTurn touched saved
    agents nextAgent releases records lastTag waits owed recQ msix patrol}
    {f : Nat × Tile → Nat × Tile} (h : Canon s) (hf : ∀ x, (f x).2.pool = x.2.pool) :
    Canon { s with
      agenda, turn, free, sets, clock, timeAdj, slew, point, freqTarget, freqFrom, freqBusy, clockStop, flashPoint,
      flashMgmt, lostGran, symErr, dies, portsLost, links, hosts, mgmt, flash, bankMarks, strands, nodes, packs,
      nextOrder, drrTurn, touched, saved, agents, nextAgent, releases, records, lastTag, waits, owed, recQ, msix,
      patrol, tiles := s.tiles.map f } := by
  refine ⟨h.1, fun x hx => ?_⟩
  obtain ⟨y, hy, rfl⟩ := List.mem_map.mp hx
  rw [hf]
  exact h.tiles y hy

theorem mem_of_mapGet? {m : NMap α} {i : Nat} {x : α} (h : mapGet? m i = some x) : (i, x) ∈ m := by
  induction m with
  | nil => simp [mapGet?] at h
  | cons e m ih =>
    obtain ⟨k, v⟩ := e
    simp only [mapGet?] at h
    split at h
    · simp_all
    · simp [ih h]

theorem mem_mapPut {m : NMap α} {i : Nat} {x : α} {y : Nat × α} (h : y ∈ mapPut m i x) : y = (i, x) ∨ y ∈ m := by
  induction m with
  | nil => simpa [mapPut] using h
  | cons e m ih =>
    obtain ⟨k, v⟩ := e
    simp only [mapPut] at h
    split at h
    · simpa using h
    · split at h
      · simp only [List.mem_cons] at h ⊢; tauto
      · simp only [List.mem_cons] at h ⊢
        rcases h with h | h
        · tauto
        · have := ih h; tauto

theorem Canon.pool (h : Canon s) (n : Nat) : memWf (tileGet s n).pool = true := by
  unfold tileGet mapGet
  cases e : mapGet? s.tiles n with
  | none => rfl
  | some t => exact h.tiles _ (mem_of_mapGet? e)

theorem Canon.tilePut {n : Nat} (h : Canon s) (ht : memWf t.pool = true) : Canon (tilePut s n t) := by
  refine ⟨h.1, fun x hx => ?_⟩
  rcases mem_mapPut hx with rfl | hx
  · exact ht
  · exact h.2 _ hx

/-- A tile put back with the pool that it has. -/
theorem Canon.tileSet {n : Nat} (h : Canon s) (ht : t.pool = (tileGet s n).pool) : Canon (Machine.tilePut s n t) :=
  h.tilePut (ht ▸ h.pool n)

theorem Canon.ite {c : Prop} [Decidable c] (h : Canon s) (h' : Canon u) : Canon (if c then s else u) := by
  split <;> assumption

/-- A step taken where the condition holds, and the state as it is otherwise. -/
theorem Canon.branch {c : Prop} [Decidable c] (h : Canon s) (hu : Canon s → Canon u) : Canon (if c then u else s) :=
  .ite (hu h) h

/-- A step taken where the condition fails, and the state as it is otherwise. -/
theorem Canon.skip {c : Prop} [Decidable c] (h : Canon s) (hu : Canon s → Canon u) : Canon (if c then s else u) :=
  .ite h (hu h)

/-- A fold keeps what each of its steps keeps. -/
theorem foldl_keeps {β : Type} {p : β → Prop} {f : β → α → β} {l : List α} {x : β} (h : p x)
    (hf : ∀ x y, p x → p (f x y)) : p (l.foldl f x) := by
  induction l generalizing x with
  | nil => exact h
  | cons y l ih => exact ih (hf x y h)

theorem Canon.foldl {f : State → α → State} {l : List α} (h : Canon s) (hf : ∀ s x, Canon s → Canon (f s x)) :
    Canon (l.foldl f s) :=
  foldl_keeps h hf

theorem ite_wf {t' : Tile} {c : Prop} [Decidable c] (ht : memWf t.pool = true) (ht' : memWf t'.pool = true) :
    memWf (if c then t else t').pool = true := by
  split <;> assumption

/-- A fold over the tile keeps its pool canonical when each of its steps does. -/
theorem foldl_wf {f : Tile → α → Tile} {l : List α} (ht : memWf t.pool = true)
    (hf : ∀ t x, memWf t.pool = true → memWf (f t x).pool = true) : memWf (l.foldl f t).pool = true :=
  foldl_keeps (p := fun t : Tile => memWf t.pool = true) ht hf

/-- What holds when both of two acts are done holds when the second, which follows the first, is done. -/
theorem engThen_elim {β γ : Type} {x : EngOut β} {f : β → EngOut γ} {z : γ} {p : Prop}
    (hf : ∀ y, x = .ok y → f y = .ok z → p) : engThen x f = .ok z → p := by
  cases x with
  | ok y => exact hf y rfl
  | bad _ => exact nofun
  | wait _ => exact nofun

variable {tile e n slot agent seq asid cause loc level off pa va port rank : Nat}
  {v : Word} {b : Bundle} {nd : Node} {sc : Scope} {bs : List Byte} {vc : NMap Nat}

/-! ## Machine/Ops -/

theorem Canon.corePut {c : Core} (h : Canon s) : Canon (corePut s n c) :=
  .tileSet h rfl

theorem engPut_wf {x : Engine} (ht : memWf t.pool = true) : memWf (engPut t e x).pool = true := by
  fun_cases Machine.engPut
  exact ht

theorem Canon.diePut {d : Nat} {x : Die} (h : Canon s) : Canon (diePut s d x) :=
  .frame h

theorem Canon.hostPut {h : Nat} {x : HostBlk} (hs : Canon s) : Canon (hostPut s h x) :=
  .frame hs

theorem Canon.noteBits {reg bits : Nat} (h : Canon s) : Canon (noteBits s reg bits) :=
  .frame h

theorem Canon.noteCount {reg : Nat} (h : Canon s) : Canon (noteCount s reg n) :=
  .frame h

theorem Canon.nodePut {x : Node} (h : Canon s) : Canon (nodePut s n x) :=
  .frame h

theorem Canon.packPut {x : Pack} (h : Canon s) : Canon (packPut s x) :=
  .frame h

theorem Canon.addFlight {l : Nat} {effs : List Eff} (h : Canon s) : Canon (addFlight s tile seq slot l effs) :=
  .corePut h

theorem Canon.raiseAt {t : Trap} (h : Canon s) : Canon (raiseAt s tile seq slot t) :=
  .corePut h

theorem Canon.addAct {a : CommitAct} (h : Canon s) : Canon (addAct s tile seq slot a) :=
  .corePut h

theorem Canon.stageNow {e : Eff} (h : Canon s) : Canon (stageNow s tile seq e) :=
  .corePut h

/-! ## Machine/Conflict -/

theorem Canon.agentPut {a : Nat} {x : Agent} (h : Canon s) : Canon (agentPut s a x) :=
  .frame h

theorem Canon.relsJoin {r : Option Rel} (h : Canon s) : Canon (relsJoin s loc r) := by
  fun_cases Machine.relsJoin
  · exact h
  · exact .frame h

theorem Canon.release {a : Nat} {x : Agent} (h : Canon s) : Canon (release s a x loc sc) :=
  .agentPut (.relsJoin h)

theorem Canon.relaxedWrite {x : Agent} (h : Canon s) : Canon (relaxedWrite s x loc) :=
  .relsJoin h

theorem Canon.storeOver {locs : List Nat} {rel : Bool} (h : Canon s) : Canon (storeOver s locs rel) :=
  .frame h

theorem Canon.endReleases (h : Canon s) : Canon (endReleases s loc) :=
  .frame h

theorem Canon.acquire {a : Nat} {x : Agent} (h : Canon s) : Canon (acquire s a x loc sc) :=
  .agentPut h

theorem Canon.relaxedRead {a : Nat} {x : Agent} (h : Canon s) : Canon (relaxedRead s a x loc) := by
  fun_cases Machine.relaxedRead
  · exact h
  · exact .agentPut h

theorem Canon.syncAccess {a ident node place : Nat} {o : Order} {rd wr : Bool} (h : Canon s) :
    Canon (syncAccess s a ident node place o sc loc rd wr) := by
  unfold Machine.syncAccess
  extract_lets x s1 y
  have h1 : Canon s1 := by
    unfold s1
    split
    · split
      · exact .acquire h
      · exact .acquire h
      · exact .relaxedRead h
    · exact h
  split
  · split
    · exact .release h1
    · exact .release h1
    · exact .relaxedWrite h1
  · exact h1

theorem Canon.coreSync {o : Order} {rd wr : Bool} (h : Canon s) : Canon (coreSync s tile o sc loc rd wr) :=
  .syncAccess h

theorem Canon.checkGran {a : Nat} {x : Agent} {gran : Nat} {write plain : Bool} {pend : Option (Nat × Nat)} (h : Canon s) :
    checkGran s a x gran write plain pend = .ok u → Canon u := by
  fun_cases Machine.checkGran
  · exact nofun
  · exact fun | rfl => h
  · exact nofun
  · exact fun | rfl => .frame h

theorem Canon.checkGrans {a : Nat} {x : Agent} {write plain : Bool} {pend : Option (Nat × Nat)} {l : List Nat} (h : Canon s) :
    checkGrans s a x write plain pend l = .ok u → Canon u := by
  fun_induction Machine.checkGrans
  · exact fun | rfl => h
  · exact nofun
  · rename_i ih
    exact ih (.checkGran h ‹_›)

theorem Canon.checkOwn {write plain : Bool} (h : Canon s) : checkOwn s tile seq off n write plain = .ok u → Canon u :=
  Canon.checkGrans h

theorem Canon.tagZero {r : OpenRec} (h : Canon s) : Canon (tagZero s r) := by
  fun_cases Machine.tagZero
  · exact h
  · exact ⟨⟨memPutList_wf h.mem _ _, h.host0, h.host1⟩, h.tiles⟩

theorem Canon.keepRecords {p : OpenRec → Bool} (h : Canon s) : Canon (keepRecords s p) :=
  .foldl (.frame h) fun _ _ h => .tagZero h

theorem Canon.dropRecords {node : Nat} (h : Canon s) : Canon (dropRecords s node) :=
  .keepRecords h

/-! ## Machine/Memory -/

theorem Canon.touch {bit : Nat} (h : Canon s) : Canon (touch s asid bit) := by
  fun_cases Machine.touch
  · exact h
  · exact .frame h

theorem Canon.touchPa (h : Canon s) : Canon (touchPa s asid pa) := by
  fun_cases Machine.touchPa
  · exact .touch h
  · exact h

theorem Canon.csaTouch (h : Canon s) : Canon (csaTouch s pa n) := by
  fun_cases Machine.csaTouch
  · exact h
  · exact .frame h

theorem Canon.devWrite (h : Canon s) : Canon (devWrite s pa bs) := by
  unfold Machine.devWrite
  split
  · extract_lets n w s1 s2 s3
    have h1 : Canon s1 := .ite h (.frame h)
    have h2 : Canon s2 := .ite h1 (.frame h1)
    have h3 : Canon s3 := .csaTouch h2
    exact ⟨⟨memPutList_wf h3.mem _ _, h3.host0, h3.host1⟩, h3.tiles⟩
  · exact ⟨⟨h.mem, memPutList_wf h.host0 _ _, h.host1⟩, h.tiles⟩
  · exact ⟨⟨h.mem, h.host0, memPutList_wf h.host1 _ _⟩, h.tiles⟩
  · exact h

theorem Canon.wroteBack {gs : List Nat} (h : Canon s) : Canon (wroteBack s gs) := by
  fun_cases Machine.wroteBack
  · exact h
  · exact .frame h

theorem Canon.cachePut {die g : Nat} (h : Canon s) : Canon (cachePut s die g) :=
  .wroteBack (.diePut h)

theorem Canon.cacheFill {die g : Nat} (h : Canon s) : Canon (cacheFill s die g) := by
  fun_cases Machine.cacheFill
  · exact h
  · exact .cachePut h

theorem Canon.cacheDrop {g : Nat} (h : Canon s) : Canon (cacheDrop s g) :=
  .frame h

theorem Canon.cacheDirty {die g : Nat} (h : Canon s) : Canon (cacheDirty s die g) := by
  fun_cases Machine.cacheDirty
  · exact .cacheDrop h
  · exact .diePut (.cachePut (.cacheDrop h))

theorem Canon.poolClean (h : Canon s) : Canon (poolClean s tile off n) := by
  fun_cases Machine.poolClean
  · exact h
  · exact .frame h

theorem Canon.noteFound (h : Canon s) : Canon (noteFound s tile off) :=
  .tileSet h rfl

theorem Canon.poolWrite (h : Canon s) : Canon (poolWrite s tile off bs) :=
  .tilePut (.poolClean h) (memPutList_wf (Canon.pool (.poolClean h) _) _ _)

theorem Canon.tagSync {leaf : Nat} (h : Canon s) : Canon (tagSync s leaf pa) := by
  fun_cases Machine.tagSync
  · exact h
  · exact .frame h
  · exact .frame h

theorem Canon.recTag {g p t : Nat} (h : Canon s) : Canon (recTag s g p t) :=
  .frame h

theorem Canon.tagStore {leaf : Nat} (h : Canon s) : Canon (tagStore s leaf pa) := by
  fun_cases Machine.tagStore
  · exact h
  · exact .recTag h
  · exact ⟨⟨memPutList_wf h.mem _ _, h.host0, h.host1⟩, h.tiles⟩

theorem Canon.checkMem {a : Nat} {x : Agent} {leaf : Nat} {write plain : Bool} {pend : Option (Nat × Nat)} (h : Canon s) :
    checkMem s a x leaf pa write plain pend = .ok u → Canon u := by
  fun_cases Machine.checkMem
  · exact nofun
  · exact fun | rfl => .tagStore (.checkGran (.tagSync h) ‹_›)

theorem Canon.askWalk {vpn : Nat} (h : Canon s) : Canon (askWalk s tile asid vpn) := by
  fun_cases Machine.askWalk
  · exact h
  · exact .diePut h

theorem Canon.askFor {vpn : Nat} (h : Canon s) : Canon (askFor s tile asid vpn) :=
  .askWalk (.tileSet h rfl)

theorem Canon.xlateWait {c : Xl} (h : Canon s) : xlateWait s tile asid va = (c, u) → Canon u := by
  fun_cases Machine.xlateWait
  · exact fun | rfl => h
  · exact fun | rfl => .askFor h
  · exact fun | rfl => .tileSet h rfl

/-! ## Machine/Creel -/

theorem Canon.spillWrite {idx : Nat} {e : CreelEntry} (h : Canon s) : Canon (spillWrite s tile idx e) := by
  fun_cases Machine.spillWrite
  · exact .devWrite (.devWrite h)
  · exact h

theorem Canon.creelSpill (h : Canon s) : Canon (creelSpill s tile) := by
  unfold Machine.creelSpill
  extract_lets l
  split
  · exact h
  · split
    · split
      · exact .tileSet (.spillWrite h) rfl
      · exact h
    · exact h

theorem Canon.creelAdd {head : Bool} {e : CreelEntry} (h : Canon s) : Canon (creelAdd s tile head e) :=
  .creelSpill (.tileSet h rfl)

/-! ## Machine/Reels -/

theorem Canon.reelStore {r : ReelAt} (h : Canon s) : Canon (reelStore s r v) := by
  fun_cases Machine.reelStore
  · exact .tileSet h rfl
  · exact .devWrite (.cacheDrop h)

theorem Canon.releaseVc {place : Nat} (h : Canon s) : Canon (releaseVc s vc loc sc place) :=
  .relsJoin h

theorem Canon.readyHead {e : CreelEntry} {acq : Option (Nat × Scope)} (h : Canon s) : Canon (readyHead s tile e acq) :=
  .creelAdd h

theorem Canon.wakeEnt {w : WaitEnt} {acq : Bool} (h : Canon s) : Canon (wakeEnt s w acq) := by
  fun_cases Machine.wakeEnt
  · exact h
  · exact .readyHead (.tileSet h rfl)

theorem Canon.offerEntry {r : ReelAt} (h : Canon s) : Canon (offerEntry s r) := by
  fun_cases Machine.offerEntry
  · exact h
  · exact h
  · exact .readyHead (.tileSet h rfl)
  · exact .frame (.tileSet h rfl)
  · exact h

theorem Canon.wakeReel {r : ReelAt} (h : Canon s) : Canon (wakeReel s r) := by
  fun_cases Machine.wakeReel
  · exact h
  · exact .foldl (.foldl (.frame h) fun _ _ h => .wakeEnt h) fun _ _ h => .ite (.offerEntry h) h

theorem Canon.hostWakes (h : Canon s) : Canon (hostWakes s pa n) :=
  .foldl h fun _ _ h => .wakeReel h

theorem Canon.reelAdd {r : ReelAt} (h : Canon s) : reelAdd s r v = .ok u → Canon u := by
  fun_cases Machine.reelAdd
  · exact nofun
  · exact fun | rfl => .wakeReel (.reelStore h)

theorem Canon.reelInit {r : ReelAt} (h : Canon s) : Canon (reelInit s r v) :=
  .wakeReel (.reelStore (.endReleases h))

theorem Canon.reelBindTo {k ceiling : Nat} {depth : Word} (h : Canon s) :
    reelBindTo s tile k ceiling depth = .ok u → Canon u := by
  fun_cases Machine.reelBindTo
  · exact fun | rfl => .tileSet h rfl
  · exact nofun
  · exact fun | rfl => .tileSet h rfl

theorem Canon.parkOn {e : CreelEntry} {r : ReelAt} {addr t : Word} (h : Canon s) : Canon (parkOn s tile e r addr t sc) := by
  fun_cases Machine.parkOn
  · exact .readyHead h
  · exact .frame (.creelAdd h)
  · exact .creelAdd h

theorem Canon.withdrawWaits (h : Canon s) : Canon (withdrawWaits s tile) :=
  .foldl (.frame h) fun _ _ h => .wakeEnt h

theorem Canon.reqSync {r : Req} {rd wr : Bool} (h : Canon s) : Canon (reqSync s tile r loc rd wr) := by
  unfold Machine.reqSync
  extract_lets a s1
  have h1 : Canon s1 := by
    unfold s1
    split
    · split
      · exact .acquire h
      · exact .acquire h
      · exact .relaxedRead h
    · exact h
  split
  · split
    · exact .releaseVc h1
    · exact .releaseVc h1
    · exact .relaxedWrite h1
  · exact h1

theorem Canon.plainWrite {l : List Nat} (h : Canon s) : Canon (plainWrite s l) := by
  fun_cases Machine.plainWrite
  · exact h
  · exact .frame h

theorem Canon.storeSync {r : Req} {locs : List Nat} (h : Canon s) : Canon (storeSync s tile r locs) := by
  fun_cases Machine.storeSync
  · exact .plainWrite h
  · exact .storeOver (.foldl h fun _ _ h => .reqSync h)

/-! ## Machine/Records -/

theorem Canon.ringPut {h : Nat} {r : FaultRing} (hs : Canon s) : Canon (ringPut s h n r) :=
  .hostPut hs

theorem Canon.ringNote {h bits : Nat} (hs : Canon s) : Canon (ringNote h n bits s) :=
  .noteBits hs

theorem Canon.postRec {host ring node w0 w1 image pc ticks frz : Nat} {x : Trap} (h : Canon s) :
    Canon (postRec s host ring node w0 w1 image pc ticks frz x) :=
  .frame h

theorem Canon.nodeRecAs {mask pc image pack ticks frz : Nat} {x : Trap} (h : Canon s) :
    Canon (nodeRecAs s n nd tile agent mask pc image pack ticks frz x) :=
  .postRec h

theorem Canon.nodeRec {mask pc : Nat} {x : Trap} (h : Canon s) : Canon (nodeRec s n tile agent mask pc x) := by
  fun_cases Machine.nodeRec
  · exact h
  · exact .nodeRecAs h

theorem Canon.demoteNode (h : Canon s) : Canon (demoteNode s n tile agent) := by
  fun_cases Machine.demoteNode
  · exact h
  · exact .nodeRec (.nodePut h)
  · exact h

theorem Canon.demote (h : Canon s) : Canon (demote s tile agent) := by
  fun_cases Machine.demote
  · exact h
  · exact .demoteNode h

theorem Canon.demoteAddFor {node : Option Nat} {r : ReelAt} (h : Canon s) : Canon (demoteAddFor s node tile agent r) := by
  fun_cases Machine.demoteAddFor
  · exact h
  · exact .demoteNode h
  · exact h
  · exact .demoteNode h

theorem Canon.demoteAdd {r : ReelAt} (h : Canon s) : Canon (demoteAdd s tile agent r) :=
  .demoteAddFor h

theorem Canon.nodeNoteIn {ring : Node → Nat} {x : Trap} (h : Canon s) : Canon (nodeNoteIn s n ring x) := by
  fun_cases Machine.nodeNoteIn
  · exact h
  · exact .postRec h

theorem Canon.nodeNote {x : Trap} (h : Canon s) : Canon (nodeNote s n x) :=
  .nodeNoteIn h

theorem Canon.protocolNote (h : Canon s) : Canon (protocolNote s n) :=
  .nodeNoteIn h

theorem Canon.hostNote {h : Nat} {x : Trap} (hs : Canon s) : Canon (hostNote s h x) :=
  .postRec hs

theorem Canon.rejectRec (h : Canon s) : Canon (rejectRec s n nd cause) :=
  .postRec h

theorem Canon.msixSend {h entry : Nat} (hs : Canon s) : Canon (msixSend s h entry) :=
  .frame hs

theorem Canon.partWrite (h : Canon s) : Canon (partWrite s pa bs) :=
  .devWrite (.plainWrite (.foldl h fun _ _ h => .cacheDrop h))

theorem Canon.ringLost {h : Nat} (hs : Canon s) : Canon (ringLost s h n) := by
  fun_cases Machine.ringLost
  · exact .noteCount (.ringPut hs)
  · exact hs

theorem Canon.ringSignal {h : Nat} (hs : Canon s) : Canon (ringSignal s h n) := by
  fun_cases Machine.ringSignal
  · exact .ringNote (.ringPut (.msixSend hs))
  · exact hs

theorem Canon.rejectWritten {r : FaultRec} (h : Canon s) : Canon (rejectWritten s r) := by
  fun_cases Machine.rejectWritten
  · exact .hostPut h
  · exact h

theorem Canon.recWrite {r : FaultRec} {rest : List FaultRec} (h : Canon s) : Canon (recWrite s r n rest) := by
  fun_cases Machine.recWrite
  · exact .ringSignal (.branch (.branch (.ringPut (.partWrite (.frame (.frame h)))) .rejectWritten) .releaseVc)
  · exact .ringLost (.frame (.ringNote (.ringPut (.frame h))))
  · exact .ringNote (.ringPut (.frame h))

theorem Canon.recordWrite (h : Canon s) : Canon (recordWrite s) := by
  fun_cases Machine.recordWrite
  · exact h
  · exact .recWrite h
  · exact .frame h
  · exact .ringLost (.frame h)
  · exact h

theorem Canon.ofNext (h : Canon s) : (.next s : Out) = .next u → Canon u :=
  fun | rfl => h

theorem Canon.hostDoes {host : BitVec 1} {f : State → State} (h : Canon s) (hf : ∀ {s}, Canon s → Canon (f s)) :
    hostDoes host s f = .next u → Canon u :=
  .ofNext (.ite (hf h) h)

theorem Canon.ringCtlWrite {h : Nat} (hs : Canon s) : Canon (ringCtlWrite h n v s) := by
  fun_cases Machine.ringCtlWrite
  · exact .ringNote (.ringPut hs)
  · exact .ringSignal (.ringPut hs)
  · exact .ringPut hs

theorem Canon.ringBaseWrite {h : Nat} (hs : Canon s) : Canon (ringBaseWrite h n v s) := by
  fun_cases Machine.ringBaseWrite
  · exact .ringNote (.ringPut hs)
  · exact .ringPut hs

theorem Canon.recordRead {h m : Nat} (hs : Canon s) : Canon (recordRead s h n m) := by
  fun_cases Machine.recordRead
  · exact hs
  · exact .frame (.acquire hs)

theorem Canon.ringHeadWrite {h : Nat} (hs : Canon s) : Canon (ringHeadWrite h n v s) := by
  fun_cases Machine.ringHeadWrite
  · exact .ringNote (.ringPut hs)
  · exact .ringPut (.foldl hs fun _ _ h => .recordRead h)

theorem Canon.ringStatWrite {h : Nat} (hs : Canon s) : Canon (ringStatWrite h n v s) := by
  fun_cases Machine.ringStatWrite
  · exact .ringSignal (.ringPut hs)
  · exact .ringPut hs

/-! ## Machine/EngineBase -/

theorem Canon.engAsk {ask : Option (Nat × Nat × Nat)} (h : Canon s) : Canon (engAsk s ask) := by
  fun_cases Machine.engAsk
  · exact .askFor h
  · exact h

theorem Canon.newAgentFor {node : Option Nat} {c : Nat} (h : Canon s) : newAgentFor s node tile e vc = (u, c) → Canon u :=
  fun | rfl => .frame (.agentPut h)

theorem Canon.newAgent {c : Nat} (h : Canon s) : newAgent s tile e vc = (u, c) → Canon u :=
  Canon.newAgentFor h

theorem Canon.pieceTouch {y : Piece} (h : Canon s) : Canon (pieceTouch s asid y) := by
  fun_cases Machine.pieceTouch
  · exact .touch h
  · exact .touchPa h

theorem Canon.checkMems {a : Nat} {x : Agent} {leaf : Nat} {write plain : Bool} {l : List Nat} (h : Canon s) :
    checkMems s a x leaf write plain l = .ok u → Canon u := by
  fun_induction Machine.checkMems
  · exact fun | rfl => h
  · exact nofun
  · rename_i ih
    exact ih (.checkMem h ‹_›)

theorem Canon.checkPiece {a : Nat} {x : Agent} {write plain : Bool} {y : Piece} (h : Canon s) :
    checkPiece s a x write plain y = .ok u → Canon u := by
  fun_cases Machine.checkPiece
  · exact Canon.checkGrans h
  · exact Canon.checkMems h
  · exact fun | rfl => h

theorem Canon.engCheckAs {wr plain : Bool} {l : List Piece} (h : Canon s) :
    engCheckAs s agent wr plain l = .ok u → Canon u := by
  fun_induction Machine.engCheckAs
  · exact fun | rfl => h
  · rename_i ih
    exact ih (.checkPiece h ‹_›)
  · exact nofun

theorem Canon.engCheck {wr : Bool} {l : List Piece} (h : Canon s) : engCheck s agent wr l = .ok u → Canon u :=
  Canon.engCheckAs h

theorem Canon.pieceWrite {fill : Bool} {p : Piece} (h : Canon s) : pieceWrite s tile fill p bs = .ok u → Canon u := by
  fun_cases Machine.pieceWrite
  · exact nofun
  · exact fun | rfl => .poolWrite (.plainWrite h)
  · exact nofun
  · exact nofun
  · exact fun | rfl => .devWrite (.plainWrite (.foldl h fun _ _ h => .ite (.cacheDirty h) (.cacheDrop h)))

theorem Canon.piecesWrite {fill : Bool} {l : List Piece} (h : Canon s) : piecesWrite s tile fill l bs = .ok u → Canon u := by
  induction l generalizing s bs with
  | nil => exact fun | rfl => h
  | cons p ps ih => exact engThen_elim fun _ e => ih (.pieceWrite h e)

theorem Canon.reelTouch {y : ReelAt} (h : Canon s) : Canon (reelTouch s asid y) := by
  fun_cases Machine.reelTouch
  · exact .touch h
  · exact .touchPa h

theorem Canon.addFor {node : Option Nat} {r : ReelAt} (h : Canon s) :
    addFor s node asid tile agent r v sc = .ok u → Canon u := by
  fun_cases Machine.addFor
  · exact nofun
  · exact Canon.reelAdd (.release (.demoteAddFor (.reelTouch h)))

theorem Canon.addBy {r : ReelAt} (h : Canon s) : addBy s tile agent r v sc = .ok u → Canon u :=
  Canon.addFor h

theorem Canon.engAdd {addr : Word} (h : Canon s) : engAdd s tile agent addr v sc = .ok u → Canon u :=
  engThen_elim fun r _ => by
    split
    · rintro ⟨⟩
      exact .addBy h ‹_›
    · exact nofun

theorem Canon.orFpstat {bits : Nat} (h : Canon s) : Canon (orFpstat s tile bits) :=
  .corePut h

theorem Canon.engNotice {d0 d1 d2 : Word} (h : Canon s) : Canon (engNotice s tile e cause d0 d1 d2) := by
  fun_cases Machine.engNotice
  · exact .nodeRec h
  · exact h

theorem Canon.engRefuse {stat imm : Nat} (h : Canon s) : Canon (engRefuse s tile e stat cause imm) :=
  .engNotice (.tileSet h rfl)

theorem Canon.engStopAt {code : Nat} {x : Trap} (h : Canon s) : Canon (engStopAt s tile e code x) :=
  .tileSet h rfl

theorem Canon.engMap {f : Engine → Engine} (h : Canon s) : Canon (engMap s tile e f) :=
  .tileSet h rfl

/-! ## Machine/FxBase -/

theorem Canon.strandPut {p : Nat} {x : Strand} (h : Canon s) : Canon (strandPut s p x) :=
  .frame h

theorem Canon.strandSend {p : Nat} {m : FxMsg} (h : Canon s) : Canon (strandSend s p m) :=
  .strandPut h

theorem Canon.extAdd {a : Nat} {x : Agent} {addr : Word} (h : Canon s) : extAdd s asid a x addr v sc = .ok u → Canon u := by
  fun_cases Machine.extAdd
  · exact nofun
  · exact nofun
  · exact Canon.reelAdd (.release (.reelTouch h))

theorem Canon.owe {o : Owed} (h : Canon s) : Canon (owe s o) :=
  .frame h

theorem Canon.addOrOwe {node : Option Nat} {addr : Word} {c : Nat} (h : Canon s) :
    addOrOwe s node asid tile agent addr v sc = (u, c) → Canon u := by
  fun_cases Machine.addOrOwe
  · exact fun | rfl => h
  · exact fun | rfl => .owe h
  · exact fun | rfl => .addFor h ‹_›
  · exact fun | rfl => h

theorem Canon.writeOrOwe {node : Option Nat} (h : Canon s) : Canon (writeOrOwe s node asid tile agent va bs) := by
  unfold Machine.writeOrOwe
  split
  · split
    · split
      · exact .piecesWrite (.engCheck h ‹_›) ‹_›
      · exact h
    · exact h
  · exact .owe h
  · exact h

theorem Canon.owedDo {o : Owed} (h : Canon s) : Canon (owedDo s o) := by
  fun_cases Machine.owedDo
  · exact .writeOrOwe (.frame h)
  · exact .addOrOwe (.frame h) rfl
  · exact .extAdd (.frame h) ‹_›
  · exact .strandSend (.frame h)

theorem Canon.owedRun (h : Canon s) : Canon (owedRun s) := by
  fun_cases Machine.owedRun
  · exact .owedDo h
  · exact h

theorem Canon.fxReport {node : Option Nat} {x : Engine} {r : Run} (h : Canon s) :
    Canon (fxReport s node asid tile x r cause port) :=
  .writeOrOwe h

theorem Canon.fxAbortAdd {node : Option Nat} {r : Run} (h : Canon s) : Canon (fxAbortAdd s node asid tile r) := by
  fun_cases Machine.fxAbortAdd
  · exact h
  · exact .owe h
  · exact .addOrOwe h rfl

theorem Canon.fxMarkers {c : Cmd} (h : Canon s) : Canon (fxMarkers s c) :=
  .strandSend (.strandSend h)

theorem Canon.fxAbortEnd (h : Canon s) : Canon (fxAbortEnd s tile cause port) := by
  fun_cases Machine.fxAbortEnd
  · exact h
  · exact .engMap (.fxAbortAdd (.fxReport h))

theorem Canon.fxAbort (h : Canon s) : Canon (fxAbort s tile cause port) := by
  fun_cases Machine.fxAbort
  · exact h
  · exact .fxAbortEnd (.fxMarkers h)

/-! ## Machine/ArrayBase -/

theorem arrayStep_wf (ht : memWf t.pool = true) : memWf (arrayStep t e).pool = true := by
  fun_cases Machine.arrayStep <;> exact ht

theorem Canon.arraysStep (h : Canon s) : Canon (arraysStep s tile) := by
  fun_cases Machine.arraysStep
  · exact .tilePut h (arrayStep_wf (arrayStep_wf (h.pool _)))
  · exact h

theorem wmarkMap_wf {a : Nat} {f : Wmark → Wmark} (ht : memWf t.pool = true) : memWf (wmarkMap t a f).pool = true := by
  fun_cases Machine.wmarkMap
  exact ht

theorem Canon.mxRun {f : Run → Run} (h : Canon s) : Canon (mxRun s tile e agent f) :=
  .engMap h

theorem wmarkLand_wf {c : Cmd} {row : Nat} (ht : memWf t.pool = true) : memWf (wmarkLand t c row).pool = true := by
  fun_cases Machine.wmarkLand
  · exact wmarkMap_wf ht
  · exact ht

theorem Canon.landStep {r : Run} (h : Canon s) : Canon (landStep s tile e r) := by
  unfold Machine.landStep
  extract_lets c g row s1 t s2
  have h1 : Canon s1.1 := foldl_keeps (p := fun x : State × Nat => Canon x.1) h fun _ _ h => h.poolWrite
  exact .mxRun (.tilePut h1 (ite_wf (wmarkLand_wf (h1.pool _)) (h1.pool _)))

theorem Canon.zeroStep {r : Run} (h : Canon s) : Canon (zeroStep s tile e r) := by
  unfold Machine.zeroStep
  extract_lets c row s1
  have h1 : Canon s1 := .foldl h fun _ _ h => .poolWrite h
  exact .mxRun (.tilePut h1 (wmarkLand_wf (h1.pool tile)))

theorem Canon.landRest {k : Nat} (h : Canon s) : Canon (landRest tile e n s k) := by
  fun_induction Machine.landRest
  · exact h
  · exact h
  · rename_i ih
    exact ih (.landStep h)
  · exact h

theorem mxLetGo_wf (ht : memWf t.pool = true) : memWf (mxLetGo t e).pool = true := by
  unfold mxLetGo
  exact foldl_wf ht fun _ _ h => ite_wf h h

/-! ## Machine/DrainBase -/

theorem Canon.dnCheck {wr : Bool} {l : List DnUse} (h : Canon s) : dnCheck s tile agent wr l = .ok u → Canon u := by
  fun_induction Machine.dnCheck
  · exact fun | rfl => h
  · rename_i ih
    exact ih (.engCheck h ‹_›)
  · exact nofun
  · exact fun | rfl => h

theorem Canon.dnStop {r : Run} {row : Nat} {x : Trap} (h : Canon s) : Canon (dnStop s tile e r row x) :=
  .engStopAt (.engMap h)

theorem Canon.dnFault {r : Run} {i : Nat} {b : DnBad} (h : Canon s) : Canon (dnFault s tile e r i b) :=
  .dnStop (.engMap h)

theorem Canon.dnPut {x : DnUse × DrainOut} (h : Canon s) : dnPut tile s x = .ok u → Canon u := by
  unfold Machine.dnPut
  extract_lets put
  have hput {off : Nat} {bs : List Byte} : put off bs = .ok u → Canon u := by
    unfold put
    split
    · rintro ⟨⟩
      exact .pieceWrite h ‹_›
    · exact nofun
    · rintro ⟨⟩
      exact h
  split
  · exact hput
  · exact hput
  · rintro ⟨⟩
    exact h

theorem Canon.dnPutAll {l : List (DnUse × DrainOut)} (h : Canon s) : dnPutAll tile s l = .ok u → Canon u := by
  fun_induction Machine.dnPutAll
  · exact fun | rfl => h
  · rename_i ih
    exact ih (.dnPut h ‹_›)
  · exact nofun

theorem Canon.dqGo {r : Run} {i : Nat} (h : Canon s) : Canon (dqGo s tile e r i) :=
  .mxRun (.acquire h)

theorem Canon.dnRowEnd {r : Run} {y : RowOut} (h : Canon s) : dnRowEnd s tile e r y = .ok u → Canon u := by
  fun_cases Machine.dnRowEnd
  · exact nofun
  · exact nofun
  · exact nofun
  · next s1 e1 s2 e2 _ _ _ _ =>
    have h2 : Canon s2 := .dnPutAll (.dnCheck h e1) e2
    rintro ⟨⟩
    exact .engMap (.tilePut h2 (wmarkMap_wf (h2.pool tile)))

theorem Canon.dnDrop (h : Canon s) : Canon (dnDrop s tile e agent) :=
  .mxRun h

theorem Canon.dnAdd {halt : Bool} {r : Run} (h : Canon s) : dnAdd halt s tile e r = .ok u → Canon u := by
  unfold Machine.dnAdd
  extract_lets a addr sc done
  split
  · split
    · rintro ⟨⟩
      exact .mxRun (.addBy h ‹_›)
    · exact nofun
  · refine engThen_elim fun s1 hs1 => ?_
    rintro ⟨⟩
    refine .mxRun ?_
    unfold done at hs1
    split at hs1
    · split at hs1
      · cases hs1
        exact .addOrOwe h ‹_›
      · cases hs1
    · exact .engAdd h hs1

theorem Canon.dnOver (h : Canon s) : Canon (dnOver s tile e agent) :=
  .engMap h

theorem Canon.dnAdds (h : Canon s) : Canon (dnAdds tile e agent n s) := by
  fun_induction Machine.dnAdds
  · exact h
  · exact h
  · rename_i ih
    exact ih (.dnAdd h ‹_›)
  · exact .dnStop (.dnDrop h)
  · exact .engAsk h
  · exact .dnOver h
  · exact h

theorem Canon.dnEndRow {r : Run} {y : RowOut} (h : Canon s) : Canon (dnEndRow s tile e r y) := by
  fun_cases Machine.dnEndRow
  · exact .dnFault h
  · exact .dnAdds (.dnRowEnd h ‹_›)

theorem Canon.drainRest (h : Canon s) : Canon (drainRest tile e agent n s) := by
  fun_induction Machine.drainRest
  · exact h
  · exact h
  · rename_i ih
    exact ih (.dnAdd h ‹_›)
  · exact .dnDrop h
  · exact .dnOver h
  · exact h
  · exact .dnDrop h
  · rename_i ih
    exact ih (.dnRowEnd (.ite (.dqGo h) h) ‹_›)
  · exact .dnDrop h

theorem Canon.mxStop (h : Canon s) : Canon (mxStop s tile e) :=
  .engMap (.foldl (.foldl h fun _ _ h => .landRest h) fun _ _ h => .ite (.drainRest h) h)

/-! ## Machine/Lease -/

theorem leaseGrant_wf {noevict awake : Bool} (ht : memWf t.pool = true) : memWf (leaseGrant t e noevict awake).pool = true := by
  fun_cases Machine.leaseGrant
  exact ht

theorem leaseEnqueue_wf {inst : Bool} {k prio now dis : Nat} {noevict : Bool} (ht : memWf t.pool = true) :
    memWf (leaseEnqueue t inst k prio now dis noevict).pool = true := by
  fun_cases Machine.leaseEnqueue <;> exact ht

theorem wakeApply_wf {k : Nat} (ht : memWf t.pool = true) : memWf (wakeApply t k).pool = true := by
  fun_cases Machine.wakeApply <;> exact ht

theorem unleashApply_wf (ht : memWf t.pool = true) : memWf (unleashApply t e seq).pool = true := by
  fun_cases Machine.unleashApply <;> exact ht

theorem leaseAct_wf {prio now : Nat} {y : CommitAct} (ht : memWf t.pool = true) :
    memWf (leaseAct t prio now seq y).pool = true := by
  fun_cases Machine.leaseAct
  · exact leaseGrant_wf ht
  · exact leaseEnqueue_wf ht
  · exact ht
  · exact wakeApply_wf ht
  · exact unleashApply_wf ht
  · exact ht

theorem leaseView_wf (h : Canon s) : memWf (leaseView s tile seq).pool = true := by
  unfold leaseView
  exact foldl_wf (h.pool _) fun _ _ ht => foldl_wf ht fun _ _ ht => leaseAct_wf ht

theorem dropStandby_wf {l : List Nat} (ht : memWf t.pool = true) : memWf (dropStandby t l).pool = true := by
  fun_cases Machine.dropStandby
  exact ht

theorem Canon.evictAdd {node : Option Nat} {addr : Word} {c : Nat} (h : Canon s) :
    evictAdd s node tile asid vc e addr = (u, c) → Canon u := by
  fun_cases Machine.evictAdd
  · exact fun | rfl => h
  · exact Canon.addOrOwe (.newAgentFor h ‹_›)
  · exact fun | rfl => h

theorem Canon.evictNote {p trigger : Nat} (h : Canon s) : Canon (evictNote s n tile e p trigger cause) :=
  .nodeRec h

theorem Canon.standbyNote {b : Standby} {p trigger : Nat} (h : Canon s) : Canon (standbyNote s b tile e p trigger cause) := by
  fun_cases Machine.standbyNote
  · exact .nodeRecAs h
  · exact .nodeRec h

theorem Canon.leaseReady {inst : Bool} {k : Nat} {h : Word} (hs : Canon s) : Canon (leaseReady s tile inst k h) :=
  .foldl (.tileSet hs rfl) fun _ _ h => .creelSpill h

theorem Canon.leaseHeadGrant {awake : Bool} (h : Canon s) : Canon (leaseHeadGrant s tile awake) := by
  fun_cases Machine.leaseHeadGrant
  · exact .leaseReady (.tilePut h (leaseGrant_wf (h.pool _)))
  · exact h

theorem Canon.evictStandby {trigger : Nat} {b : Standby} (h : Canon s) : Canon (evictStandby s tile e trigger b) := by
  unfold Machine.evictStandby
  extract_lets t x asid s1 s2
  have h2 : Canon s2 := by
    unfold s2
    split
    · split
      · exact .frame (.fxAbortAdd (.fxReport (.fxMarkers (.tileSet h rfl))))
      · exact .tileSet h rfl
    · exact .tileSet h rfl
  split
  exact .standbyNote (.evictAdd h2 ‹_›)

theorem Canon.evictHeld {trigger : Nat} (h : Canon s) : Canon (evictHeld s tile e trigger) := by
  unfold Machine.evictHeld
  extract_lets t s0 s1 s2 x code fx s3
  have h1 : Canon s1 := .ite (.tilePut (.mxStop h) (mxLetGo_wf (Canon.pool (.mxStop h) _))) h
  have h3 : Canon s3 := .engMap (.branch h1 .fxAbort)
  split
  have h4 := Canon.evictAdd h3 ‹_›
  split
  · exact .evictNote h4
  · exact h4

theorem Canon.evict {trigger : Nat} (h : Canon s) : Canon (evict s tile e trigger) := by
  fun_cases Machine.evict
  · exact .engMap (.evictStandby h)
  · exact .engMap h
  · exact .engMap (.evictHeld h)
  · exact h

theorem Canon.emergencyEvict (h : Canon s) : Canon (emergencyEvict tile n s) := by
  fun_induction Machine.emergencyEvict
  · exact h
  · exact h
  · rename_i ih
    exact ih (.evict h)
  · exact h

theorem Canon.leaseEnd (h : Canon s) : Canon (leaseEnd s tile) :=
  .tileSet h rfl

theorem idleTick_wf (ht : memWf t.pool = true) : memWf (idleTick t).pool = true := by
  unfold idleTick
  exact foldl_wf ht fun _ _ ht => ite_wf ht (ite_wf ht ht)

theorem Canon.powerDone (h : Canon s) : Canon (powerDone tile e s) := by
  fun_cases Machine.powerDone
  · exact .engMap h
  · exact h

theorem Canon.releaseDone (h : Canon s) : Canon (releaseDone s tile e) := by
  fun_cases Machine.releaseDone
  · exact .leaseHeadGrant (.engMap h)
  · exact .engMap h

theorem Canon.graceRelease {l : List Nat} (h : Canon s) : Canon (graceRelease tile l s) := by
  fun_induction Machine.graceRelease
  · exact h
  · exact .leaseHeadGrant h
  · rename_i ih
    exact ih (.tilePut h (dropStandby_wf (h.pool _)))

theorem Canon.leaseCmd {h : Nat} (hs : Canon s) : Canon (leaseCmd h tile v s) := by
  fun_cases Machine.leaseCmd
  · exact .foldl hs fun _ _ h => .evict h
  · exact .hostNote hs

/-! ## Machine/Copy -/

theorem Canon.cpTake {c : Cmd} (h : Canon s) : Canon (cpTake s tile e c vc seq) := by
  fun_cases Machine.cpTake
  · exact .engRefuse h
  · exact .engRefuse h
  · exact .engMap (.newAgent h rfl)

theorem Canon.cpFill {l : List Piece} (h : Canon s) : Canon (cpFill s tile l) := by
  unfold Machine.cpFill
  refine .foldl h fun s p h => ?_
  split
  · split
    · exact .ite (.foldl h fun _ _ h => .cacheFill h) h
    · exact h
  · exact h

theorem Canon.cpHostErr {l : List Piece} {c : Option Trap} (h : Canon s) : cpHostErr s l = (c, u) → Canon u := by
  fun_cases Machine.cpHostErr
  · exact fun | rfl => .frame h
  · exact fun | rfl => h

theorem Canon.cpMove {cache : Bool} {pat : List Byte} {src : Option (List Piece)} {dst : List Piece} {l : List (Nat × Nat)}
    {c : Option Trap} (h : Canon s) :
    cpMove tile cache pat src dst s l = (u, c) → Canon u := by
  induction l generalizing s with
  | nil => exact fun | rfl => h
  | cons x l ih =>
    unfold Machine.cpMove
    extract_lets from'
    split
    rename_i err s1 e1
    have h1 : Canon s1 := .cpHostErr h e1
    extract_lets data
    split
    · rename_i s2 e2
      exact ih (engThen_elim (fun _ _ => .piecesWrite h1) e2)
    · exact fun | rfl => h1
    · exact fun | rfl => h1

theorem Canon.cpCheckWr {ident : Nat} {l : List Piece} (h : Canon s) : cpCheckWr s agent ident l = .ok u → Canon u := by
  fun_cases Machine.cpCheckWr
  · exact Canon.engCheck h
  · exact engThen_elim (fun _ => fun e2 => fun | rfl => .frame (.engCheck (.frame h) e2))

theorem Canon.cpBurstRun {c : Cmd} {k : Nat} {x : Option Trap} (h : Canon s) :
    cpBurstRun s tile e c k = .ok (u, x) → Canon u := by
  unfold Machine.cpBurstRun
  extract_lets a n fill d
  split
  · exact fun | rfl => h
  · refine engThen_elim fun src _ => engThen_elim fun dst _ => engThen_elim fun s1 e1 => engThen_elim fun s2 e2 => ?_
    extract_lets s3 s4
    have h3 : Canon s3 := .foldl (.cpCheckWr (.engCheck h e1) e2) fun _ _ h => .pieceTouch h
    have h4 : Canon s4 := .ite (.cpFill h3) h3
    intro e
    injection e with e
    exact .cpMove h4 e

theorem Canon.copyBurst (h : Canon s) : Canon (copyBurst tile e s) := by
  fun_cases Machine.copyBurst
  · exact h
  · exact h
  · exact .engMap h
  · exact h
  · exact .engMap h
  · exact .engAsk h
  · exact .engStopAt h
  · exact .engStopAt (.cpBurstRun h ‹_›)
  · exact .engMap (.cpBurstRun h ‹_›)

theorem Canon.copyBindEnd (h : Canon s) : Canon (copyBindEnd tile e s) := by
  fun_cases Machine.copyBindEnd
  · exact h
  · exact h
  · exact .engMap (.acquire h)
  · exact h

theorem Canon.copyGateEnd (h : Canon s) : Canon (copyGateEnd tile e s) := by
  fun_cases Machine.copyGateEnd
  · exact h
  · exact .engAsk h
  · exact .engStopAt h
  · exact .engMap (.acquire (.reelTouch h))
  · exact h
  · exact h

theorem Canon.cpFollow {r : Run} (h : Canon s) : Canon (cpFollow s tile e r) := by
  fun_cases Machine.cpFollow
  · exact h
  · exact .engMap (.agentPut h)

theorem Canon.copySignal (h : Canon s) : Canon (copySignal tile e s) := by
  unfold Machine.copySignal
  extract_lets t
  split
  · exact h
  · split
    · extract_lets addr add
      have hadd : ∀ s1, add = .ok s1 → Canon s1 := by
        unfold add
        split
        · rintro _ ⟨⟩
          exact h
        · split
          · exact fun _ => .engAdd h
          · exact fun _ => engThen_elim fun _ _ => nofun
      clear_value add
      split
      · exact .engAsk h
      · exact .engStopAt h
      · exact .cpFollow (.engMap (hadd _ rfl))
    · exact h

theorem Canon.copyDone (h : Canon s) : Canon (copyDone tile e s) := by
  fun_cases Machine.copyDone
  · exact h
  · exact .engMap h
  · exact h

theorem cpWithdraw_wf (ht : memWf t.pool = true) : memWf (cpWithdraw t e).pool = true := by
  unfold cpWithdraw
  exact foldl_wf ht fun _ _ ht => ht

theorem cpAbort_wf (ht : memWf t.pool = true) : memWf (cpAbort t e).pool = true := by
  fun_cases Machine.cpAbort
  · exact ht
  · exact ht
  · exact engPut_wf (cpWithdraw_wf ht)

/-! ## Machine/Array -/

theorem Canon.mxTake {c : Cmd} (h : Canon s) : Canon (mxTake s tile e c vc) := by
  fun_cases Machine.mxTake
  · exact .engRefuse h
  · exact .engRefuse h
  · exact .engMap (.newAgent h rfl)

theorem Canon.mxRingAcquire {c : Cmd} {b : Bool} (h : Canon s) : Canon (mxRingAcquire s tile c b) := by
  fun_cases Machine.mxRingAcquire
  · exact .acquire h
  · exact h

theorem Canon.mxBegin (h : Canon s) : Canon (mxBegin tile e s) := by
  fun_cases Machine.mxBegin
  · exact h
  · exact .mxRun (.tilePut (.mxRingAcquire (.mxRingAcquire h)) (wmarkMap_wf (Canon.pool (.mxRingAcquire (.mxRingAcquire h)) _)))

theorem Canon.mxFault {r : Run} {x : Trap} (h : Canon s) : Canon (mxFault s tile e r x) :=
  .engStopAt (.engMap (.landRest h))

theorem Canon.mxRead {r : Run} (h : Canon s) : Canon (mxRead s tile e r) := by
  fun_cases Machine.mxRead
  · exact .engAsk h
  · exact .mxFault h
  · exact .mxFault (.engCheck h ‹_›)
  · exact .mxRun (.engCheck h ‹_›)

theorem Canon.mxGroup (h : Canon s) : Canon (mxGroup tile e s) := by
  fun_cases Machine.mxGroup
  · exact h
  · exact .zeroStep h
  · exact .mxFault h
  · exact .landStep h
  · exact .mxRead h
  · exact h

theorem Canon.mxRelease {c : Cmd} {b : Bool} (h : Canon s) : mxRelease s tile c b = .ok u → Canon u := by
  fun_cases Machine.mxRelease
  · exact fun | rfl => h
  · exact fun | rfl => .addBy h ‹_›
  · exact nofun

theorem Canon.relLand (h : Canon s) : Canon (relLand tile e agent n s) := by
  fun_induction Machine.relLand
  · exact h
  · exact h
  · rename_i ih
    exact ih (.landStep h)
  · exact h

theorem Canon.mxComputeEnd (h : Canon s) : Canon (mxComputeEnd tile e s) := by
  unfold Machine.mxComputeEnd
  split
  · exact h
  · split
    · exact h
    · extract_lets c a
      have ha : ∀ s1, a = .ok s1 → Canon s1 := by
        unfold a
        split
        · exact fun _ => .mxRelease h
        · rintro _ ⟨⟩
          exact h
      clear_value a
      split
      · exact .mxFault (.relLand h)
      · split
        · exact .mxFault (.relLand (.mxRun (ha _ rfl)))
        · exact .mxRun (.mxRelease (ha _ rfl) ‹_›)

theorem Canon.mxCompare {r : Run} {c : Option Trap} (h : Canon s) : mxCompare s tile e r = (u, c) → Canon u :=
  fun | rfl => .mxRun (.engMap h)

theorem Canon.mxDone (h : Canon s) : Canon (mxDone tile e s) := by
  unfold Machine.mxDone
  split
  · exact h
  · split
    · exact h
    · extract_lets c y
      have hy : ∀ s1 x, y = (s1, x) → Canon s1 := by
        unfold y
        split
        · exact fun _ _ => .mxCompare h
        · rintro _ _ ⟨⟩
          exact h
      clear_value y
      split
      · exact .dnStop (hy _ _ rfl)
      · have h1 := hy _ _ rfl
        extract_lets done
        have hdone : ∀ s2, done = .ok s2 → Canon s2 := by
          unfold done
          split
          · rintro _ ⟨⟩
            exact h1
          · exact fun _ => .engAdd h1
        clear_value done
        split
        · exact .engAsk h
        · exact .ite (.dnStop h1) (.mxFault h1)
        · exact .engMap (.orFpstat (hdone _ rfl))

theorem Canon.mxAbort (h : Canon s) : Canon (mxAbort s tile e) := by
  unfold Machine.mxAbort
  extract_lets dn s1 t x code last
  have h1 : Canon s1 := .mxStop h
  exact h1.tilePut (engPut_wf (mxLetGo_wf (h1.pool _)))

/-! ## Machine/Drain -/

theorem Canon.dnBegin {r : Run} (h : Canon s) : Canon (dnBegin s tile e r) :=
  .engMap (.frame (.tilePut (.agentPut h) (wmarkMap_wf (Canon.pool (.agentPut h) _))))

theorem Canon.dnChecks {r : Run} {prog : List Nat} {first : Bool} (h : Canon s) :
    dnChecks s tile r prog first = .ok u → Canon u := by
  fun_cases Machine.dnChecks
  · exact nofun
  · exact nofun
  · exact nofun
  · exact nofun
  · exact nofun
  · exact fun | rfl => .dnCheck h ‹_›

theorem Canon.drainRow (h : Canon s) : Canon (drainRow tile e s) := by
  fun_cases Machine.drainRow
  · exact h
  · exact .dnFault (.ite (.dnBegin h) h)
  · exact .ite (.dnBegin h) h
  · exact .mxRun (.frame (.dnChecks (.ite (.dnBegin h) h) ‹_›))

theorem Canon.dstqWaitEnd (h : Canon s) : Canon (dstqWaitEnd tile e s) := by
  fun_cases Machine.dstqWaitEnd
  · exact h
  · exact .dqGo h
  · exact h

theorem Canon.drainStore (h : Canon s) : Canon (drainStore tile e s) := by
  fun_cases Machine.drainStore
  · exact h
  · exact .dnAdds h
  · exact .dnEndRow h
  · exact h

/-! ## Machine/Special -/

theorem Canon.spTake {c : Cmd} (h : Canon s) : Canon (spTake s tile e c vc) := by
  fun_cases Machine.spTake
  · exact .engRefuse h
  · exact .engRefuse h
  · exact .engMap (.newAgent h rfl)

theorem Canon.spRead {l : List Piece} (h : Canon s) : spRead s agent l = .ok u → Canon u :=
  engThen_elim fun s1 e1 => by
    split
    · exact nofun
    · rintro ⟨⟩
      exact .engCheck h e1

theorem Canon.spPut {l : List DrainOut} (h : Canon s) : spPut tile s l = .ok u → Canon u := by
  induction l generalizing s with
  | nil => exact fun | rfl => h
  | cons o os ih =>
    refine engThen_elim fun s1 e1 => ih ?_
    split at e1
    · exact .pieceWrite h e1
    · exact .pieceWrite h e1
    · cases e1
      exact h

theorem Canon.spWrite {l : List DrainOut} (h : Canon s) : spWrite s tile agent l = .ok u → Canon u :=
  engThen_elim fun _ e1 => .spPut (.engCheck h e1)

theorem Canon.sfUnit {r : Run} {y : SpStep} (h : Canon s) : sfUnit s tile r = .ok y → Canon y.s :=
  engThen_elim fun _ e1 => engThen_elim fun _ e2 => fun | rfl => .spWrite (.spRead h e1) e2

theorem Canon.gsAtomicCheck {l : List Piece} (h : Canon s) : gsAtomicCheck s agent l = .ok u → Canon u :=
  Canon.engCheckAs h

theorem Canon.gsAddGlobal {c : Cmd} {v k : Nat} {xs : List Nat} (h : Canon s) :
    gsAddGlobal s tile c v xs = .ok (u, k) → Canon u := by
  refine engThen_elim fun _ _ => engThen_elim fun l _ => ?_
  extract_lets va
  split
  · exact nofun
  · split
    · exact nofun
    · refine engThen_elim fun s1 e1 => engThen_elim fun bs _ => ?_
      extract_lets ys s2 s3
      have h2 : Canon s2 := .foldl (.gsAtomicCheck h e1) fun _ _ h => .pieceTouch h
      have h3 : Canon s3 := .ite h2 (.demote h2)
      refine engThen_elim fun s4 e4 => ?_
      rintro ⟨⟩
      exact .piecesWrite h3 e4

theorem Canon.gsUnit {r : Run} {y : SpStep} (h : Canon s) : gsUnit s tile r = .ok y → Canon y.s := by
  unfold Machine.gsUnit
  extract_lets c n fin ir rows ridx w
  have hfin {s1 : State} {a b : Nat} (h1 : Canon s1) : fin s1 a b = .ok y → Canon y.s := fun | rfl => h1
  refine engThen_elim fun s1 e1 => ?_
  have h1 : Canon s1 := .spRead h e1
  extract_lets
  split
  · split
    · exact engThen_elim fun s2 e2 => hfin (.spWrite h1 e2)
    · split
      · refine engThen_elim fun l _ => engThen_elim fun s2 e2 => engThen_elim fun bs _ => ?_
        exact engThen_elim fun s4 e4 => hfin (.spWrite (.cpFill (.foldl (.engCheck h1 e2) fun _ _ h => .pieceTouch h)) e4)
      · exact engThen_elim fun s2 e2 => engThen_elim fun s3 e3 => hfin (.spWrite (.spRead h1 e2) e3)
  · split
    · exact hfin h1
    · refine engThen_elim fun s2 e2 => ?_
      have h2 : Canon s2 := .spRead h1 e2
      extract_lets xs
      split
      · split
        · refine engThen_elim fun l _ => engThen_elim fun s3 e3 => engThen_elim fun s4 e4 => hfin ?_
          exact .piecesWrite (.foldl (.engCheck h2 e3) fun _ _ h => .pieceTouch h) e4
        · exact engThen_elim fun s3 e3 => hfin (.spWrite h2 e3)
      · split
        · exact engThen_elim fun z ez => hfin (.gsAddGlobal h2 ez)
        · refine engThen_elim fun s3 e3 => ?_
          split
          · exact nofun
          · exact engThen_elim fun s4 e4 => hfin (.spPut (.gsAtomicCheck h2 e3) e4)

theorem Canon.soUnit {r : Run} {y : SpStep} (h : Canon s) : soUnit s tile r = .ok y → Canon y.s := by
  unfold Machine.soUnit
  extract_lets c n n0 n1 pieces fin k old n2
  have hfin {s1 : State} {a : Nat} (h1 : Canon s1) : fin s1 a = .ok y → Canon y.s := fun | rfl => h1
  split
  · exact engThen_elim fun _ e1 => engThen_elim fun _ e2 => hfin (.spWrite (.spRead h e1) e2)
  · exact engThen_elim fun _ e1 => engThen_elim fun _ e2 => hfin (.spWrite (.spRead h e1) e2)
  · exact engThen_elim fun _ e1 => engThen_elim fun _ e2 => hfin (.spWrite (.spRead h e1) e2)

theorem Canon.alWord {r : Run} {y : SpStep} (h : Canon s) : alWord s tile r = .ok y → Canon y.s :=
  engThen_elim fun _ e1 => engThen_elim fun _ e2 => fun | rfl => .spWrite (.spRead h e1) e2

theorem Canon.alSplit {r : Run} {y : SpStep} (h : Canon s) : alSplit s tile r = .ok y → Canon y.s := by
  refine engThen_elim fun s1 e1 => ?_
  have h1 : Canon s1 := by
    split at e1
    · exact .spRead h e1
    · cases e1
      exact h
  extract_lets m r half
  split
  · refine engThen_elim fun s2 e2 => ?_
    have h2 : Canon s2 := .spRead h1 e2
    split
    · exact engThen_elim fun s3 e3 => fun | rfl => .spWrite h2 e3
    · exact fun | rfl => h2
  · split
    · exact fun | rfl => h1
    · exact engThen_elim fun s2 e2 => engThen_elim fun s3 e3 => fun | rfl => .spWrite (.spRead h1 e2) e3

theorem Canon.qzUnit {r : Run} {y : SpStep} (h : Canon s) : qzUnit s tile r = .ok y → Canon y.s :=
  engThen_elim fun _ e1 => engThen_elim fun _ e2 => fun | rfl => .spWrite (.spRead h e1) e2

theorem Canon.spUnit {r : Run} {y : SpStep} (h : Canon s) : spUnit s tile e r = .ok y → Canon y.s := by
  fun_cases Machine.spUnit
  · exact Canon.sfUnit h
  · exact Canon.gsUnit h
  · exact Canon.soUnit h
  · exact Canon.alSplit h
  · exact Canon.alWord h
  · exact Canon.qzUnit h

theorem Canon.engineUnit (h : Canon s) : Canon (engineUnit tile e s) := by
  fun_cases Machine.engineUnit
  · exact h
  · exact .engStopAt h
  · exact .engAsk h
  · exact .engStopAt h
  · exact .engMap (Canon.spUnit h ‹_›)

theorem Canon.spDone (h : Canon s) : Canon (spDone tile e s) := by
  unfold Machine.spDone
  split
  · exact h
  · extract_lets c done
    have hdone : ∀ s1, done = .ok s1 → Canon s1 := by
      unfold done
      split
      · rintro _ ⟨⟩
        exact h
      · exact fun _ => .engAdd h
    clear_value done
    split
    · exact .engAsk h
    · exact .engStopAt h
    · exact .engMap (.orFpstat (hdone _ rfl))

theorem Canon.spAbort (h : Canon s) : Canon (spAbort s tile e) :=
  .engMap h

/-! ## Machine/Fx -/

theorem Canon.strandFresh {p : Nat} (h : Canon s) : Canon (strandFresh s p) :=
  .strandPut h

theorem Canon.fxTake {c : Cmd} (h : Canon s) : Canon (fxTake s tile c vc) := by
  fun_cases Machine.fxTake
  · exact .engRefuse h
  · exact .engRefuse h
  · exact .engMap (.branch (.branch (.strandFresh (.strandFresh (.newAgent h rfl))) .strandSend) .strandSend)

theorem Canon.fxMap {f : Run → Run} (h : Canon s) : Canon (fxMap s tile f) :=
  .engMap h

theorem Canon.strandTake {p : Nat} (h : Canon s) : Canon (strandTake s p) :=
  .strandPut h

theorem Canon.fxFirstCheck (h : Canon s) : Canon (fxFirstCheck tile s) := by
  fun_cases Machine.fxFirstCheck
  · exact h
  · exact h
  · exact .fxMap (.strandTake h)
  · exact .fxAbort (.strandTake h)
  · exact .fxMap (.frame h)
  · exact .fxAbort (.frame h)
  · exact h

theorem Canon.fxRead {c : List Byte} (h : Canon s) : fxRead s tile agent va n = .ok (u, c) → Canon u := by
  unfold Machine.fxRead
  split
  · exact fun | rfl => h
  · refine engThen_elim fun l _ => engThen_elim fun s1 e1 => engThen_elim fun bs _ => ?_
    rintro ⟨⟩
    exact .foldl (.engCheck h e1) fun _ _ h => .pieceTouch h

theorem Canon.fxWrite (h : Canon s) : fxWrite s tile agent va bs = .ok u → Canon u := by
  unfold Machine.fxWrite
  split
  · exact fun | rfl => h
  · refine engThen_elim fun l _ => engThen_elim fun s1 e1 => .piecesWrite ?_
    exact .foldl (.engCheck h e1) fun _ _ h => .pieceTouch h

theorem Canon.fxArrived {c : Cmd} {x : List Byte} (h : Canon s) : fxArrived s c n = some (u, x) → Canon u := by
  fun_cases Machine.fxArrived
  · exact fun | rfl => .frame h
  · exact fun | rfl => .strandTake h
  · exact nofun

theorem Canon.fxSendHalf {c : Cmd} {p : FxPlan} (h : Canon s) : fxSendHalf s tile c p = .ok u → Canon u := by
  refine engThen_elim fun s1 e1 => ?_
  have h1 : Canon s1 := by
    split at e1
    · exact engThen_elim (fun x ex => fun | rfl => .strandSend (.fxRead h ex)) e1
    · cases e1
      exact h
  split
  · exact engThen_elim fun w ew => .fxWrite (.fxRead h1 ew)
  · exact fun | rfl => h1

theorem Canon.fxRecvHalf {c : Cmd} {p : FxPlan} {got : List Byte} {x : FpFlags} (h : Canon s) :
    fxRecvHalf s tile c p got = .ok (u, x) → Canon u := by
  refine engThen_elim fun y e1 => ?_
  have h1 : Canon y.1 := by
    split at e1
    · exact .fxRead h e1
    · cases e1
      exact h
  extract_lets z
  refine engThen_elim fun s1 e2 => ?_
  have h2 : Canon s1 := by
    split at e2
    · exact .fxWrite h1 e2
    · cases e2
      exact h1
  rintro ⟨⟩
  exact .ite (.strandSend h2) h2

theorem Canon.fxFault {r : Run} {x : Trap} (h : Canon s) : Canon (fxFault s tile r x) :=
  .engStopAt (.fxMarkers (.fxMap h))

theorem Canon.fxStepEnd {r : Run} {fl : FpFlags} (h : Canon s) : Canon (fxStepEnd s tile r fl) :=
  .engMap h

theorem Canon.fxChunkIn {r : Run} (h : Canon s) : Canon (fxChunkIn s tile r) := by
  unfold Machine.fxChunkIn
  extract_lets p
  split
  · exact h
  · rename_i s1 bs e1
    have h1 : Canon s1 := by
      split at e1
      · split at e1
        · cases e1
          exact h
        · exact .fxArrived h e1
      · cases e1
        exact h
    split
    · exact .engAsk h
    · exact .fxFault h
    · exact .fxStepEnd (.fxRecvHalf h1 ‹_›)

theorem Canon.fxChunkStep (h : Canon s) : Canon (fxChunkStep tile s) := by
  unfold Machine.fxChunkStep
  split
  · exact h
  · extract_lets p
    split
    · exact .fxChunkIn h
    · split
      · exact .engAsk h
      · exact .fxFault h
      · exact .ite (.fxMap (.fxSendHalf h ‹_›)) (.fxChunkIn (.fxSendHalf h ‹_›))

theorem Canon.fxComplete {r : Run} (h : Canon s) : Canon (fxComplete s tile r) :=
  .engMap (.orFpstat h)

theorem Canon.fxAdd {r : Run} (h : Canon s) : fxAdd s tile r sc = .ok u → Canon u := by
  fun_cases Machine.fxAdd
  · exact fun | rfl => h
  · exact .engAdd h

theorem Canon.fxDone (h : Canon s) : Canon (fxDone tile s) := by
  fun_cases Machine.fxDone
  · exact h
  · exact .engAsk h
  · exact .engStopAt h
  · exact .fxComplete (.fxAdd h ‹_›)

theorem Canon.fxReceiveAdd (h : Canon s) : Canon (fxReceiveAdd tile s) := by
  fun_cases Machine.fxReceiveAdd
  · exact h
  · exact .engAsk h
  · exact .engStopAt (.strandSend h)
  · exact .fxComplete (.fxAdd h ‹_›)

theorem Canon.fxRefused {r : Run} (h : Canon s) : Canon (fxRefused s tile r cause) := by
  fun_cases Machine.fxRefused
  · exact .engStopAt (.strandTake h)
  · exact .fxFault (.strandTake h)

theorem Canon.fxTimeout (h : Canon s) : Canon (fxTimeout s) := by
  fun_cases Machine.fxTimeout
  · exact .fxAbort h
  · exact h

theorem Canon.fxMarker (h : Canon s) : Canon (fxMarker tile s) := by
  fun_cases Machine.fxMarker
  · exact h
  · exact .fxRefused h
  · exact .fxAbort (.strandTake h)
  · exact .fxAbort (.frame h)

theorem Canon.fxResume (h : Canon s) : Canon (fxResume s tile) := by
  fun_cases Machine.fxResume
  · exact .fxAbortEnd h
  · exact h
  · exact h

theorem Canon.strandAdd {addr : Word} (h : Canon s) : Canon (strandAdd port asid addr v s) := by
  fun_cases Machine.strandAdd
  · exact h
  · exact .owe (.agentPut h)
  · exact .extAdd h ‹_›
  · exact .strandSend h

theorem Canon.timeAlign {peerTime : Word} (h : Canon s) : Canon (timeAlign port peerTime s) := by
  fun_cases Machine.timeAlign
  · exact h
  · exact .frame (.strandPut h)
  · exact .strandPut h

theorem Canon.strandUp {peer pport : Nat} {peerTime : Word} (h : Canon s) : Canon (strandUp port peer pport peerTime s) := by
  fun_cases Machine.strandUp
  · exact h
  · exact .timeAlign (.strandPut h)

theorem Canon.strandDown (h : Canon s) : Canon (strandDown port s) :=
  .foldl (.strandPut h) fun _ _ h => .fxAbort h

/-! ## Machine/Issue -/

theorem Canon.enterBundle {pc next hdr : Nat} {ops : List (Nat × SlotWord)} {c : Bundle} (h : Canon s) :
    enterBundle s tile pc next hdr ops = (u, c) → Canon u :=
  fun | rfl => .corePut h

theorem Canon.caFirst (h : Canon s) : Canon (caFirst s tile) := by
  fun_cases Machine.caFirst
  · exact .corePut h
  · exact h

theorem Canon.takeOp {w : SlotWord} (h : Canon s) : takeOp s tile slot w = some (u, b) → Canon u := by
  fun_cases Machine.takeOp
  · rintro ⟨⟩
    exact h
  · exact nofun
  · intro e
    injection e with e
    exact .enterBundle h e
  · exact nofun

theorem Canon.markIssued (h : Canon s) : Canon (markIssued s tile seq slot) :=
  .corePut h

theorem Canon.issueOp {i : Instr} {body : State → Bundle → Option State} (h : Canon s)
    (hbody : ∀ {s b u}, Canon s → body s b = some u → Canon u) :
    issueOp i tile slot s body = .next u → Canon u := by
  unfold Machine.issueOp
  split
  · split
    · exact fun | rfl => h
    · split
      · split
        · exact fun | rfl => h
        · exact fun | rfl => .markIssued (hbody (.takeOp h ‹_›) ‹_›)
      · exact fun | rfl => h
  · exact fun | rfl => h

/-! ## Machine/EngineOps -/

theorem Canon.engEnter {kind : EOpKind} {shadow : Nat} {x : RV} {imm : Nat} (h : Canon s) :
    Canon (engEnter s tile e seq kind shadow x imm) :=
  .engMap h

theorem Canon.engRun {o : EOp} {src : Bool} {body : State → Bundle → RV → State} (h : Canon s)
    (hbody : ∀ {v}, Canon (body s b v)) :
    engRun tile o src body s b = some u → Canon u := by
  unfold Machine.engRun
  extract_lets run ports
  split
  · exact fun | rfl => .raiseAt h
  · split
    · split
      · exact fun | rfl => .raiseAt h
      · exact fun | rfl => hbody
    · exact fun | rfl => h

theorem Canon.engOp {i : Instr} {tile : BitVec 8} {o : EOp} {src : Bool} {kind : EOpKind} (h : Canon s) :
    engOp i tile o src kind s = .next u → Canon u :=
  Canon.issueOp h fun h => Canon.engRun h (.engEnter h)

theorem Canon.execErd {tile : BitVec 8} {o : EOp} (h : Canon s) : execErd tile o s = .next u → Canon u :=
  Canon.issueOp h fun h => Canon.engRun h (.engEnter (.addFlight h))

theorem Canon.bufPop (h : Canon s) : Canon (bufPop s tile e) :=
  .engMap h

theorem Canon.engTake {c : Cmd} (h : Canon s) : Canon (engTake s tile e c vc seq) := by
  fun_cases Machine.engTake
  · exact .mxTake h
  · exact .spTake h
  · exact .fxTake h
  · exact .cpTake h

theorem Canon.engAbort (h : Canon s) : Canon (engAbort s tile e) := by
  fun_cases Machine.engAbort
  · exact .mxAbort h
  · exact .spAbort h
  · exact .fxAbort h
  · exact .engMap h
  · exact .tilePut h (cpAbort_wf (h.pool _))

theorem Canon.engWake (h : Canon s) : Canon (engWake s tile e) :=
  .tileSet h rfl

theorem Canon.acceptBuf {x : EEntry} (h : Canon s) : acceptBuf s tile e x = some u → Canon u := by
  unfold Machine.acceptBuf
  extract_lets t g s1
  have h1 : Canon s1 := .bufPop h
  split
  · exact nofun
  · split
    · split
      · exact fun | rfl => h1
      · exact fun | rfl => .engMap h1
      · exact fun | rfl => .engMap h1
    · split
      · exact fun | rfl => .engMap h1
      · exact fun | rfl => h1
      · exact fun | rfl => .engAbort h1
      · split
        · exact fun | rfl => h1
        · exact nofun
      · split
        · exact fun | rfl => .engWake h
        · split
          · exact fun | rfl => .engTake h1
          · exact nofun

theorem Canon.queuePop {q : QEntry} (h : Canon s) : Canon (queuePop s tile e q) :=
  .engMap h

theorem Canon.followRefused {q : QEntry} (h : Canon s) : Canon (followRefused s tile e q) :=
  .engNotice (.engMap h)

theorem Canon.acceptQueue {q : QEntry} (h : Canon s) : acceptQueue s tile e q = some u → Canon u := by
  fun_cases Machine.acceptQueue
  · exact fun | rfl => .followRefused (.queuePop h)
  · exact fun | rfl => .engWake h
  · exact nofun
  · exact fun | rfl => .mxTake (.queuePop h)
  · exact nofun
  · exact fun | rfl => .engNotice (.engMap (.queuePop h))
  · exact fun | rfl => .engWake h
  · exact nofun
  · exact fun | rfl => .engTake (.queuePop h)
  · exact nofun

theorem Canon.engAccept? (h : Canon s) : engAccept? s tile e = some u → Canon u := by
  fun_cases Machine.engAccept?
  · exact fun | rfl => .acceptBuf h ‹_›
  · exact Canon.acceptQueue h
  · exact nofun
  · exact fun | rfl => .acceptQueue h ‹_›
  · exact nofun
  · exact Canon.acceptBuf h
  · exact Canon.acceptBuf h
  · exact Canon.acceptQueue h
  · exact nofun
  · exact nofun

theorem Canon.engAccept (h : Canon s) : Canon (engAccept tile e s) := by
  unfold Machine.engAccept
  cases e1 : Machine.engAccept? s tile e with
  | none => exact h
  | some s1 => exact .engAccept? h e1

theorem Canon.engComplete (h : Canon s) : Canon (engComplete tile e s) := by
  fun_cases Machine.engComplete
  · exact h
  · exact .spDone h
  · exact .fxDone h
  · exact .copyDone h

/-! ## Machine/Vector -/

theorem Canon.vecRun {opc : Nat} {o : VOp} (h : Canon s) : vecRun tile slot opc o s b = some u → Canon u := by
  fun_cases Machine.vecRun
  · exact fun | rfl => .raiseAt h
  · exact nofun
  · exact fun | rfl => .raiseAt h
  · exact fun | rfl => .corePut h
  · exact fun | rfl => .addFlight h

theorem Canon.vecOp {i : Instr} {tile : BitVec 8} {hi : Bool} {opc : Nat} {o : VOp} (h : Canon s) :
    vecOp i tile hi opc o s = .next u → Canon u :=
  Canon.issueOp h Canon.vecRun

theorem Canon.checkUses {l : List (Nat × Nat × Bool)} (h : Canon s) : checkUses s tile seq l = .ok u → Canon u := by
  unfold Machine.checkUses
  extract_lets pend
  clear_value pend
  refine foldl_keeps (p := fun r : Except Trap State => ∀ u, r = .ok u → Canon u) (fun u e => ?_) (fun r g hr => ?_) u
  · cases e
    exact h
  · cases r with
    | error x => rintro _ ⟨⟩
    | ok s1 => exact fun _ => Canon.checkGran (hr s1 rfl)

theorem Canon.vecUses {l : List (Nat × Nat × Bool)} (h : Canon s) : vecUses s tile seq l = .ok u → Canon u := by
  fun_cases Machine.vecUses
  · exact nofun
  · exact nofun
  · exact Canon.checkUses h

theorem Canon.vecFault {v : VecOp} {p : Nat} {x : Trap} (h : Canon s) : Canon (vecFault s tile v p x) :=
  .corePut h

theorem Canon.vecStart (h : Canon s) : Canon (vecStart tile s) := by
  fun_cases Machine.vecStart
  · exact h
  · exact .vecFault h
  · exact .corePut (.vecUses h ‹_›)
  · exact h

theorem Canon.vecGroup (h : Canon s) : Canon (vecGroup tile s) := by
  fun_cases Machine.vecGroup
  · exact h
  · exact .vecFault h
  · exact .vecFault (.corePut (.addFlight (.vecUses h ‹_›)))
  · exact .corePut (.addFlight (.vecUses h ‹_›))
  · exact h

/-! ## Machine/Access -/

theorem Canon.servePort {wr : Bool} (h : Canon s) : Canon (servePort s tile off wr) :=
  .corePut h

theorem Canon.addRead {l : Nat} {effs : List Eff} {acq atom : Bool} (h : Canon s) :
    Canon (addRead s tile seq slot l effs acq atom) :=
  .corePut h

theorem Canon.accessRun {o : MOp} {src : Bool} {off : Option (Nat × Nat)}
    {body : State → Bundle → MVals → Except Trap (Option State)} (h : Canon s)
    (hbody : ∀ {v}, body s b v = .ok (some u) → Canon u) :
    accessRun tile slot o src off body s b = some u → Canon u := by
  unfold Machine.accessRun
  extract_lets run ports
  split
  · exact fun | rfl => .raiseAt h
  · split
    · split
      · exact fun | rfl => .raiseAt h
      · split
        · exact fun | rfl => .raiseAt h
        · rename_i r hr
          rintro rfl
          exact hbody hr
    · split
      · exact fun | rfl => .addFlight h
      · exact fun | rfl => h

theorem Canon.accessOp {i : Instr} {tile : BitVec 8} {hi : Bool} {o : MOp} {src : Bool} {off : Option (Nat × Nat)}
    {body : Nat → Nat → State → Bundle → MVals → Except Trap (Option State)} (h : Canon s)
    (hbody : ∀ {tile slot s b v u}, Canon s → body tile slot s b v = .ok (some u) → Canon u) :
    accessOp i tile hi o src off body s = .next u → Canon u :=
  Canon.issueOp h fun h => Canon.accessRun h (hbody h)

theorem Canon.addReq {l : Option Nat} {r : Req} (h : Canon s) : Canon (addReq s tile b slot l r) := by
  unfold Machine.addReq
  extract_lets c x r1 s1
  have h1 : Canon s1 := .ite (.agentPut h) h
  split
  rename_i s2 r2 e2
  have h2 : Canon s2 := by
    split at e2
    · split at e2
      · cases e2
        exact h1
      · cases e2
        exact .askWalk h1
    · cases e2
      exact h1
    · cases e2
      exact h1
    · cases e2
      exact h1
  exact .corePut h2

theorem Canon.ownSync {o : MOp} (h : Canon s) : Canon (ownSync s tile off n o) := by
  fun_cases Machine.ownSync
  · exact .foldl h fun _ _ h => .coreSync h
  · exact h

theorem Canon.ownRead {o : MOp} (h : Canon s) : ownRead s tile slot b off n o = .ok (some u) → Canon u := by
  fun_cases Machine.ownRead
  · exact nofun
  · exact nofun
  · exact nofun
  · exact fun | rfl => .ownSync (.servePort (.checkOwn h ‹_›))

theorem Canon.loadBody {o : MOp} {v : MVals} (h : Canon s) : loadBody o tile slot s b v = .ok (some u) → Canon u := by
  fun_cases Machine.loadBody
  · exact nofun
  · exact nofun
  · exact nofun
  · exact nofun
  · exact nofun
  · exact fun | rfl => .addRead (.ownRead h ‹_›)
  · exact fun | rfl => .addReq h
  · exact nofun

theorem Canon.ownWrite {o : MOp} (h : Canon s) : ownWrite s tile slot b off bs o = .ok (some u) → Canon u := by
  unfold Machine.ownWrite
  extract_lets n locs cells hits
  split
  · exact nofun
  · split
    · exact nofun
    · split
      · exact nofun
      · rename_i s1 e1
        have h1 : Canon s1 := .checkOwn h e1
        extract_lets s2 c c2
        have h2 : Canon s2 := .ite (.addAct h1) (.addAct (.foldl h1 fun _ _ h => .addAct h))
        rintro ⟨⟩
        exact .addFlight (.servePort (.corePut h2))

theorem Canon.storeAt {o : MOp} {opc : Nat} {ea : Word} {al : Nat} (h : Canon s) :
    storeAt o opc tile slot s b ea al bs = .ok (some u) → Canon u := by
  fun_cases Machine.storeAt
  · exact nofun
  · exact nofun
  · exact Canon.ownWrite h
  · exact fun | rfl => .addReq h
  · exact nofun

theorem Canon.storeBody {o : MOp} {v : MVals} (h : Canon s) : storeBody o tile slot s b v = .ok (some u) → Canon u :=
  Canon.storeAt h

theorem Canon.ldqBody {o : MOp} {v : MVals} (h : Canon s) : ldqBody o tile slot s b v = .ok (some u) → Canon u := by
  fun_cases Machine.ldqBody
  · exact nofun
  · exact nofun
  · exact nofun
  · exact nofun
  · exact fun | rfl => .addRead (.ownRead h ‹_›)
  · exact fun | rfl => .addReq h
  · exact nofun

theorem Canon.stqBody {o : MOp} {v : MVals} (h : Canon s) : stqBody o tile slot s b v = .ok (some u) → Canon u := by
  fun_cases Machine.stqBody
  · exact nofun
  · exact Canon.storeAt h

theorem Canon.ldcBody {o : MOp} {v : MVals} (h : Canon s) : ldcBody o tile slot s b v = .ok (some u) → Canon u := by
  fun_cases Machine.ldcBody
  · exact nofun
  · exact nofun
  · exact fun | rfl => .addReq h

theorem Canon.stcBody {o : MOp} {v : MVals} (h : Canon s) : stcBody o tile slot s b v = .ok (some u) → Canon u := by
  fun_cases Machine.stcBody
  · exact nofun
  · exact nofun
  · exact fun | rfl => .addReq h

theorem Canon.prefBody {o : MOp} {v : MVals} (h : Canon s) : prefBody o tile slot s b v = .ok (some u) → Canon u := by
  fun_cases Machine.prefBody
  · exact fun | rfl => h
  · exact fun | rfl => .touchPa (.cacheFill h)
  · exact fun | rfl => h
  · exact fun | rfl => h

theorem Canon.rdsetBody {org : Bool} {o : MOp} {v : MVals} (h : Canon s) :
    rdsetBody org o tile slot s b v = .ok (some u) → Canon u := by
  fun_cases Machine.rdsetBody
  · exact nofun
  · exact fun | rfl => .addFlight h

theorem Canon.rdgetBody {org : Bool} {o : MOp} {v : MVals} (h : Canon s) :
    rdgetBody org o tile slot s b v = .ok (some u) → Canon u := by
  fun_cases Machine.rdgetBody
  · exact nofun
  · exact nofun
  · exact fun | rfl => .addFlight h

theorem Canon.rdadvBody {org : Bool} {o : MOp} {v : MVals} (h : Canon s) :
    rdadvBody org o tile slot s b v = .ok (some u) → Canon u := by
  fun_cases Machine.rdadvBody
  · exact nofun
  · exact fun | rfl => .addFlight h
  · exact nofun
  · exact fun | rfl => .addFlight h

theorem Canon.noteLoss (h : Canon s) : Canon (noteLoss s tile slot) := by
  fun_cases Machine.noteLoss
  · exact h
  · exact h
  · exact .corePut h

theorem Canon.atomicBody {opc : Nat} {two : Bool} {o : MOp} {v : MVals} (h : Canon s) :
    atomicBody opc two o tile slot s b v = .ok (some u) → Canon u := by
  fun_cases Machine.atomicBody
  · exact nofun
  · exact nofun
  · exact nofun
  · exact nofun
  · exact nofun
  · exact nofun
  · exact nofun
  · exact fun | rfl => .addRead (.addAct (.addAct (.ownSync (.servePort (.checkOwn h ‹_›)))))
  · exact nofun
  · exact nofun
  · exact fun | rfl => .addReq h
  · exact fun | rfl => .addReq h

theorem Canon.kaddBody {o : MOp} {v : MVals} (h : Canon s) : kaddBody o tile slot s b v = .ok (some u) → Canon u := by
  fun_cases Machine.kaddBody
  · exact nofun
  · exact nofun
  · exact fun | rfl => .addFlight (.addAct h)
  · exact fun | rfl => .addReq h

theorem Canon.kwaitBody {o : MOp} {v : MVals} (h : Canon s) : kwaitBody o tile slot s b v = .ok (some u) → Canon u := by
  fun_cases Machine.kwaitBody
  · exact nofun
  · exact fun | rfl => .addReq h
  · exact fun | rfl => .addReq h

theorem Canon.kreadBody {poll : Bool} {o : MOp} {v : MVals} (h : Canon s) :
    kreadBody poll o tile slot s b v = .ok (some u) → Canon u := by
  fun_cases Machine.kreadBody
  · exact nofun
  · exact nofun
  · exact fun | rfl => .addRead (.ite (.coreSync h) h)
  · exact fun | rfl => .addReq h

theorem Canon.kbindBody {o : MOp} {v : MVals} (h : Canon s) : kbindBody o tile slot s b v = .ok (some u) → Canon u := by
  fun_cases Machine.kbindBody
  · exact nofun
  · exact nofun
  · exact fun | rfl => .addFlight h
  · exact fun | rfl => .addReq h
  · exact nofun

theorem Canon.kinitBody {o : MOp} {v : MVals} (h : Canon s) : kinitBody o tile slot s b v = .ok (some u) → Canon u := by
  fun_cases Machine.kinitBody
  · exact nofun
  · exact nofun
  · exact fun | rfl => .addFlight h
  · exact fun | rfl => .addReq h

/-! ## Machine/Fetch -/

theorem Canon.fetchStop {pc : Nat} (h : Canon s) : Canon (fetchStop s tile pc cause) :=
  .corePut h

theorem Canon.evictFrame (h : Canon s) : Canon (evictFrame s tile) := by
  fun_cases Machine.evictFrame
  · exact h
  · exact .corePut h

theorem Canon.fillBegin {page : Nat} (h : Canon s) : Canon (fillBegin s tile page) := by
  fun_cases Machine.fillBegin
  · exact h
  · exact .corePut (.evictFrame h)
  · exact .corePut h

theorem Canon.indexFetch (h : Canon s) : Canon (indexFetch tile s) := by
  fun_cases Machine.indexFetch
  · exact h
  · exact .fetchStop h
  · exact .corePut h
  · exact .fetchStop h
  · exact .corePut h
  · exact .fillBegin (.corePut h)
  · exact .fetchStop h
  · exact .corePut h
  · exact .corePut h
  · exact .fetchStop h

theorem Canon.codeRead {fuel : Nat} {c : Except Nat (Option (List Byte))} (h : Canon s) :
    codeRead s tile fuel va n = (u, c) → Canon u := by
  induction fuel generalizing s va n c with
  | zero => exact fun | rfl => h
  | succ fuel ih =>
    unfold Machine.codeRead
    split
    · exact fun | rfl => h
    · extract_lets k
      split
      · exact fun | rfl => .xlateWait h ‹_›
      · exact fun | rfl => .xlateWait h ‹_›
      · rename_i s1 e1
        have h1 : Canon s1 := .xlateWait h e1
        split
        · exact fun | rfl => h1
        · extract_lets pa
          split
          · exact fun | rfl => h1
          · split
            · exact fun | rfl => ih (.touchPa (.touch h1)) ‹_›
            · exact ih (.touchPa (.touch h1))

theorem Canon.lineFill (h : Canon s) : Canon (lineFill s) := by
  fun_cases Machine.lineFill
  · exact h
  · exact .codeRead h ‹_›
  · exact .fetchStop (.codeRead h ‹_›)
  · exact .corePut (.codeRead h ‹_›)

theorem Canon.dictFill (h : Canon s) : Canon (dictFill s) := by
  fun_cases Machine.dictFill
  · exact h
  · exact .codeRead h ‹_›
  · exact .fetchStop (.corePut (.codeRead h ‹_›))
  · exact .corePut (.codeRead h ‹_›)
  · exact .corePut (.codeRead h ‹_›)
  · exact .evictFrame (.corePut (.codeRead h ‹_›))

theorem Canon.dispatchNow {bits next : Nat} (h : Canon s) : Canon (dispatchNow tile s bits next) := by
  fun_cases Machine.dispatchNow
  · exact .corePut h
  · exact .tileSet (.enterBundle h rfl) rfl

theorem Canon.tickOpen (h : Canon s) : Canon (tickOpen tile s) := by
  fun_cases Machine.tickOpen
  · exact .corePut h
  · exact h

theorem Canon.dispatch (h : Canon s) : Canon (dispatch tile s) := by
  unfold Machine.dispatch
  extract_lets t
  refine .tickOpen ?_
  split
  · exact .ite (.dispatchNow h) h
  · exact h

/-! ## Machine/Control -/

theorem Canon.ctlRun {o : COp} {src : Bool} {off : State → Bundle → State} {body : State → Bundle → Word → CtlRes} (h : Canon s)
    (hoff : Canon (off s b)) (hbody : ∀ {v}, body s b v = .ok (some u) → Canon u) :
    ctlRun tile o src off body s b = some u → Canon u := by
  unfold Machine.ctlRun
  extract_lets run ports
  split
  · exact fun | rfl => .raiseAt h
  · split
    · split
      · exact fun | rfl => .raiseAt h
      · split
        · exact fun | rfl => .raiseAt h
        · rename_i r hr
          rintro rfl
          exact hbody hr
    · exact fun | rfl => hoff

theorem Canon.ctlOp {i : Instr} {tile : BitVec 8} {o : COp} {src : Bool} {off : Nat → State → Bundle → State}
    {body : Nat → State → Bundle → Word → CtlRes} (h : Canon s) (hoff : ∀ {tile s b}, Canon s → Canon (off tile s b))
    (hbody : ∀ {tile s b v u}, Canon s → body tile s b v = .ok (some u) → Canon u) :
    ctlOp i tile o src off body s = .next u → Canon u :=
  Canon.issueOp h fun h => Canon.ctlRun h (hoff h) (hbody h)

theorem Canon.offNone (h : Canon s) : Canon (offNone tile s b) :=
  h

theorem Canon.setFlow {go : List LoopEnt × Nat} (h : Canon s) : Canon (setFlow s tile b go) :=
  .corePut h

theorem Canon.offFlow (h : Canon s) : Canon (offFlow tile s b) :=
  .setFlow h

theorem Canon.jmpBody {o : COp} (h : Canon s) : jmpBody o tile s b v = .ok (some u) → Canon u :=
  fun | rfl => .ite h (.setFlow h)

theorem Canon.jmpiBody (h : Canon s) : jmpiBody tile s b v = .ok (some u) → Canon u :=
  fun | rfl => .setFlow h

theorem Canon.retBody (h : Canon s) : retBody tile s b v = .ok (some u) → Canon u :=
  fun | rfl => .setFlow h

theorem Canon.caResult {l : Nat} (h : Canon s) : Canon (caResult s tile b n l v) :=
  .addFlight h

theorem Canon.callBody {o : COp} (h : Canon s) : callBody o tile s b v = .ok (some u) → Canon u :=
  fun | rfl => .caResult (.ite h (.setFlow h))

theorem Canon.loopRun {exit : Int} (h : Canon s) : loopRun tile exit n s b = .ok (some u) → Canon u := by
  fun_cases Machine.loopRun
  · exact fun | rfl => h
  · exact nofun
  · exact fun | rfl => .setFlow h

theorem Canon.loopBody {o : COp} (h : Canon s) : loopBody o tile s b v = .ok (some u) → Canon u := by
  fun_cases Machine.loopBody
  · exact fun | rfl => h
  · exact Canon.loopRun h

theorem Canon.looprBody {o : COp} (h : Canon s) : looprBody o tile s b v = .ok (some u) → Canon u :=
  Canon.loopRun h

theorem Canon.actBody {a : CommitAct} (h : Canon s) : actBody a tile s b v = .ok (some u) → Canon u :=
  fun | rfl => .addAct h

theorem Canon.endBody (h : Canon s) : endBody tile s b v = .ok (some u) → Canon u :=
  fun | rfl => .corePut (.addAct h)

theorem Canon.parkBody {always : Bool} {o : COp} (h : Canon s) : parkBody always o tile s b v = .ok (some u) → Canon u :=
  fun | rfl => .addAct h

theorem Canon.setOutstanding (h : Canon s) : Canon (setOutstanding s tile n) := by
  fun_cases Machine.setOutstanding
  · exact .packPut h
  · exact h

theorem Canon.forkBody {o : COp} (h : Canon s) : forkBody o tile s b v = .ok (some u) → Canon u := by
  fun_cases Machine.forkBody
  · exact nofun
  · exact nofun
  · exact nofun
  · exact fun | rfl => .caResult (.setOutstanding (.addAct h))

theorem Canon.csendBody (h : Canon s) : csendBody tile s b v = .ok (some u) → Canon u := by
  fun_cases Machine.csendBody
  · exact nofun
  · exact nofun
  · exact nofun
  · exact nofun
  · exact nofun
  · exact nofun
  · exact fun | rfl => .caResult (.addAct (.engMap (.checkOwn h ‹_›)))

theorem Canon.leaseBody {wait : Bool} {o : COp} (h : Canon s) : leaseBody wait o tile s b v = .ok (some u) → Canon u := by
  fun_cases Machine.leaseBody
  · exact fun | rfl => .addAct (.foldl h fun _ _ h => .evict h)
  · exact fun | rfl => .addFlight (.addAct (.foldl h fun _ _ h => .evict h))

theorem Canon.unleashBody (h : Canon s) : unleashBody tile s b v = .ok (some u) → Canon u := by
  fun_cases Machine.unleashBody
  · exact fun | rfl => .addAct h
  · exact nofun

theorem Canon.slackBody {o : COp} (h : Canon s) : slackBody o tile s b v = .ok (some u) → Canon u :=
  fun | rfl => .stageNow h

theorem Canon.fenceBody {o : COp} (h : Canon s) : fenceBody o tile s b v = .ok (some u) → Canon u := by
  fun_cases Machine.fenceBody
  · exact nofun
  · exact fun | rfl => .addAct h

theorem Canon.vfenceBody (h : Canon s) : vfenceBody tile s b v = .ok (some u) → Canon u := by
  fun_cases Machine.vfenceBody
  · exact fun | rfl => h
  · exact nofun

theorem Canon.brkBody {o : COp} (h : Canon s) : brkBody o tile s b v = .ok (some u) → Canon u := by
  fun_cases Machine.brkBody
  · exact fun | rfl => .corePut h
  · exact nofun

theorem Canon.psplitBody {o : COp} (h : Canon s) : psplitBody o tile s b v = .ok (some u) → Canon u := by
  unfold Machine.psplitBody
  extract_lets t j pass
  have hpass : ∀ {s1 id}, Canon s1 → pass s1 id = .ok (some u) → Canon u := by
    intro s1 id h1
    unfold pass
    split
    · split
      · exact fun | rfl => .raiseAt (.packPut h1)
      · exact fun | rfl => .raiseAt h1
    · exact fun | rfl => .addAct (.caResult h1)
  split
  · exact nofun
  · split
    · exact nofun
    · split
      · exact nofun
      · split
        · exact hpass h
        · split
          · exact nofun
          · split
            · exact hpass (.packPut (.foldl h fun _ _ h => .packPut h))
            · exact hpass (.packPut h)

theorem Canon.pmergeBody (h : Canon s) : pmergeBody tile s b v = .ok (some u) → Canon u := by
  fun_cases Machine.pmergeBody
  · exact nofun
  · exact nofun
  · exact nofun
  · exact fun | rfl => .addAct h
  · exact nofun
  · exact fun | rfl => .addAct (.packPut h)

theorem Canon.ovlBody {o : COp} (h : Canon s) : ovlBody o tile s b v = .ok (some u) → Canon u := by
  fun_cases Machine.ovlBody
  · exact nofun
  · exact fun | rfl => .ite h (.fillBegin h)

theorem Canon.holdFor {w : Nat} (h : Canon s) : Canon (holdFor s tile b w) :=
  .corePut h

theorem Canon.offSleep (h : Canon s) : Canon (offSleep tile s b) :=
  .holdFor h

theorem Canon.sleepkBody (h : Canon s) : sleepkBody tile s b v = .ok (some u) → Canon u :=
  fun | rfl => .holdFor (.stageNow h)

theorem Canon.sleepkSourceBody (h : Canon s) : sleepkSourceBody tile s b v = .ok (some u) → Canon u := by
  fun_cases Machine.sleepkSourceBody
  · exact nofun
  · exact fun | rfl => .holdFor h

theorem Canon.sleepkSetBody {o : COp} (h : Canon s) : sleepkSetBody o tile s b v = .ok (some u) → Canon u :=
  fun | rfl => .holdFor (.stageNow (.stageNow (.stageNow h)))

/-! ## Machine/Bobbin -/

theorem ownerPick_wf {c : CreelEntry} {t' : Tile} (ht : memWf t.pool = true) :
    ownerPick t = some (c, t') → memWf t'.pool = true := by
  unfold ownerPick
  cases takeFirst (fun e : CreelEntry => e.wait.isNone) t.creel with
  | none => exact nofun
  | some x => exact fun | rfl => ht

theorem thiefPick_wf {ids : List Nat} {c : CreelEntry} {t' : Tile} (ht : memWf t.pool = true) :
    thiefPick ids t = some (c, t') → memWf t'.pool = true := by
  intro e
  obtain ⟨i, -, e⟩ := Option.bind_eq_some_iff.mp e
  obtain ⟨x, -, e⟩ := Option.map_eq_some_iff.mp e
  cases e
  exact ht

theorem Canon.startBobbin {e : CreelEntry} (h : Canon s) : Canon (startBobbin s tile e) :=
  .agentPut (.tileSet h rfl)

theorem Canon.pickup (h : Canon s) : Canon (pickup tile s) := by
  fun_cases Machine.pickup
  · exact .startBobbin (.tilePut h (ownerPick_wf (h.pool _) ‹_›))
  · exact h
  · exact h

theorem stealFrom_wf {ids : List Nat} {v : Nat} {c : CreelEntry} {t' : Tile} (h : Canon s) :
    stealFrom s ids v = some (c, t') → memWf t'.pool = true := by
  unfold stealFrom
  split
  · exact nofun
  · exact thiefPick_wf (h.pool v)

theorem Canon.stealAttempt (h : Canon s) : Canon (stealAttempt tile s) := by
  fun_cases Machine.stealAttempt
  · exact h
  · exact .startBobbin (.tilePut h (stealFrom_wf h ‹_›))
  · exact .tileSet h rfl
  · exact h

theorem Canon.stewardSteal (h : Canon s) : Canon (stewardSteal tile s) := by
  fun_cases Machine.stewardSteal
  · exact .startBobbin (.tilePut h (stealFrom_wf h ‹_›))
  · exact h
  · exact .tileSet h rfl
  · exact h

theorem Canon.wakeAt {i : Nat} {acq : Option (Nat × Scope)} (h : Canon s) : Canon (wakeAt s tile i acq) := by
  fun_cases Machine.wakeAt
  · exact h
  · exact .readyHead (.tileSet h rfl)

theorem Canon.wakePhase (h : Canon s) : Canon (wakePhase s tile) := by
  fun_cases Machine.wakePhase
  · exact h
  · exact .wakeAt h
  · exact h
  · exact h

theorem Canon.offerFreed {l : List WaitEnt} (h : Canon s) : Canon (offerFreed l s) :=
  .foldl h fun _ _ h => .ite (.offerEntry h) h

theorem Canon.spuriousWake {i : Nat} (h : Canon s) : Canon (spuriousWake tile i s) := by
  fun_cases Machine.spuriousWake
  · exact .offerFreed (.frame (.wakeAt h))
  · exact .wakeAt h
  · exact .wakeAt h
  · exact .wakePhase h
  · exact h

theorem Canon.pollRead {i : Nat} {addr : Word} {th : Word} {li : Bool} {since : Nat} {e : CreelEntry} (h : Canon s) :
    Canon (pollRead s tile i addr loc th sc li since e) := by
  fun_cases Machine.pollRead
  · exact .wakeAt h
  · exact .tileSet h rfl
  · exact .wakeAt h
  · exact .tileSet h rfl

theorem Canon.parkedPoll (h : Canon s) : Canon (parkedPoll s) := by
  fun_cases Machine.parkedPoll
  · exact h
  · exact .pollRead h
  · exact h
  · exact h

/-! ## Machine/Serve -/

theorem Canon.serveReel {r : Req} {p : ReelAt} {c : Nat × Bool} (h : Canon s) :
    serveReel s tile r p = .ok (u, c) → Canon u := by
  fun_cases Machine.serveReel
  · exact nofun
  · exact fun | rfl => .reelAdd (.reqSync h) ‹_›
  · exact nofun
  · exact fun | rfl => .reelInit h
  · exact fun | rfl => .reqSync h
  · exact fun | rfl => .ite (.reqSync h) h

theorem Canon.served {x : State × Nat × Bool} {c : Nat × Bool} (hx : Canon x.1) : (.ok x : Served) = .ok (u, c) → Canon u := by
  obtain ⟨s1, v⟩ := x
  rintro ⟨⟩
  exact hx

theorem Canon.serveAtomic {r : Req} {old : Nat} {put : State → Nat → State} (h : Canon s)
    (hput : ∀ {s y}, Canon s → Canon (put s y)) :
    Canon (serveAtomic s tile r loc old put).1 := by
  unfold Machine.serveAtomic
  extract_lets x s1
  have h1 : Canon s1 := .reqSync h
  show Canon (match x.1 with | some y => put s1 y | none => s1)
  split
  · exact hput h1
  · exact h1

theorem Canon.checkSync {r : Req} {gran : Nat} (h : Canon s) : checkSync s tile r gran = .ok u → Canon u :=
  Canon.checkGran h

theorem Canon.serveMem {r : Req} {c : Nat × Bool} (h : Canon s) : serveMem s tile r = .ok (u, c) → Canon u := by
  unfold Machine.serveMem
  extract_lets pa s1 n locs
  have h1 : Canon s1 := .touchPa h
  split
  · split
    · exact nofun
    · exact Canon.served (.ite (.foldl (.ite (.cacheFill h1) h1) fun _ _ h => .reqSync h) (.ite (.cacheFill h1) h1))
  · split
    · exact nofun
    · exact Canon.served (.devWrite (.ite (.cacheDirty (.storeSync h1)) (.cacheDrop (.storeSync h1))))
  · split
    · exact nofun
    · split
      · exact nofun
      · rename_i s2 e2
        have h2 : Canon s2 := by
          split at e2
          · exact .checkMem h1 e2
          · cases e2
            exact h1
        exact Canon.served (.serveAtomic (.cacheDrop h2) fun h => .devWrite h)
  · split
    · exact nofun
    · exact Canon.serveReel h1

theorem Canon.servePool {r : Req} {c : Nat × Bool} (h : Canon s) : servePool s tile r n off = .ok (u, c) → Canon u := by
  unfold Machine.servePool
  extract_lets s1 k locs
  have h1 : Canon s1 := .touch h
  split
  · split
    · exact nofun
    · exact Canon.served (.ite (.foldl h1 fun _ _ h => .reqSync h) h1)
  · split
    · exact nofun
    · exact Canon.served (.poolWrite (.storeSync h1))
  · split
    · exact nofun
    · split
      · exact nofun
      · rename_i s2 e2
        have h2 : Canon s2 := by
          split at e2
          · cases e2
            exact h1
          · exact .checkSync h1 e2
        exact Canon.served (.serveAtomic h2 fun h => .poolWrite h)

theorem Canon.serve {r : Req} {c : Nat × Bool} (h : Canon s) : serve s tile r = .ok (u, c) → Canon u := by
  unfold Machine.serve
  split
  · exact Canon.serveMem h
  · exact Canon.servePool h
  · split
    · exact Canon.serveReel (.touch h)
    · exact nofun
  · exact nofun

/-! ## Machine/Ready -/

theorem Canon.reelEff {late : Bool} {e : Eff} (h : Canon s) : reelEff late s tile e = .ok u → Canon u := by
  fun_cases Machine.reelEff
  · exact fun | rfl => .reelAdd h ‹_›
  · exact nofun
  · exact nofun
  · exact nofun
  · exact fun | rfl => .reelInit h
  · exact fun | rfl => .reelBindTo h ‹_›
  · exact nofun
  · exact fun | rfl => h

theorem Canon.reelEffsDo {late : Bool} {l : List (Nat × Eff)} (h : Canon s) : reelEffsDo tile late s l = .ok u → Canon u := by
  fun_induction Machine.reelEffsDo
  · exact fun | rfl => h
  · rename_i ih
    exact ih (.reelEff h ‹_›)
  · exact nofun

theorem Canon.joinAdd (h : Canon s) : joinAdd s tile = .ok u → Canon u := by
  unfold Machine.joinAdd
  split
  · exact fun | rfl => h
  · split
    · exact fun | rfl => h
    · extract_lets addr
      refine engThen_elim fun r _ => ?_
      split
      · exact nofun
      · extract_lets s1
        split
        · rintro ⟨⟩
          exact .reelAdd (.coreSync (.demoteAdd (.reelTouch h))) ‹_›
        · exact nofun

/-! ## Machine/Request -/

theorem Canon.thaw (h : Canon s) : Canon (thaw s tile) := by
  fun_cases Machine.thaw
  · exact h
  · exact h
  · exact .tileSet h rfl

theorem Canon.reqFault {r : Req} {x : Trap} (h : Canon s) : Canon (reqFault s tile r x) := by
  fun_cases Machine.reqFault <;> exact .thaw (.corePut h)

theorem Canon.reqServed {r : Req} {result : Nat} {ok arrived : Bool} (h : Canon s) :
    Canon (reqServed s tile r result ok arrived) := by
  fun_cases Machine.reqServed <;> exact .thaw (.corePut h)

theorem Canon.reqDemote {r : Req} (h : Canon s) : Canon (reqDemote s tile r) := by
  fun_cases Machine.reqDemote
  · exact .demote h
  · exact h

theorem Canon.serveStores {l : List Req} (h : Canon s) : serveStores tile s l = .ok u → Canon u := by
  induction l generalizing s with
  | nil => exact fun | rfl => h
  | cons x l ih =>
    unfold Machine.serveStores
    split
    · exact nofun
    · exact ih (.reqServed (Canon.serve h ‹_›))

theorem Canon.serveReq {r : Req} {arrived : Bool} (h : Canon s) : Canon (serveReq s tile r arrived) := by
  unfold Machine.serveReq
  split
  · exact .reqFault h
  · rename_i s1 e1
    have h1 : Canon s1 := .serveStores h e1
    split
    · exact .reqFault h
    · rename_i s2 _ _ e2
      have h2 : Canon s2 := Canon.serve h1 e2
      extract_lets s3
      have h3 : Canon s3 := .reqServed (.reqDemote h2)
      split
      · exact h3
      · exact .foldl h fun _ _ h => .raiseAt h

theorem Canon.remotePool (h : Canon s) : Canon (remotePool s) := by
  fun_cases Machine.remotePool
  · exact h
  · exact h
  · exact .reqFault h
  · exact .corePut (.checkSync h ‹_›)
  · exact .serveReq h
  · exact .serveReq h

theorem Canon.nearAtomic (h : Canon s) : Canon (nearAtomic s) := by
  unfold Machine.nearAtomic
  refine .owedRun ?_
  split
  · exact h
  · exact .serveReq h

theorem Canon.atomicBounce (h : Canon s) : Canon (atomicBounce s) := by
  fun_cases Machine.atomicBounce
  · exact h
  · exact .corePut h
  · exact .corePut (.askWalk h)

theorem Canon.conflictAnswer (h : Canon s) : Canon (conflictAnswer s) := by
  unfold Machine.conflictAnswer
  split
  · exact h
  · extract_lets pend wr plain
    split
    · exact .reqFault h
    · rename_i s1 e1
      refine .thaw (.corePut ?_)
      split at e1
      · exact .checkGran h e1
      · exact .checkMem h e1

theorem Canon.replyArrival {id : Nat} (h : Canon s) : Canon (replyArrival tile id s) := by
  fun_cases Machine.replyArrival
  · exact h
  · exact .thaw (.corePut h)
  · exact .serveReq h
  · exact h
  · exact h

theorem Canon.walkRead {w : Walk} {c : Walk} (h : Canon s) : walkRead s w = (c, u) → Canon u := by
  fun_cases Machine.walkRead <;> exact fun | rfl => .foldl h fun _ _ h => .touchPa h

theorem Canon.walkStart (h : Canon s) : Canon (walkStart s) := by
  fun_cases Machine.walkStart
  · exact h
  · exact .diePut h
  · exact .diePut (.walkRead h rfl)

theorem Canon.walkRetry (h : Canon s) : Canon (walkRetry s) := by
  fun_cases Machine.walkRetry
  · exact h
  · exact .diePut (.walkRead h rfl)

theorem Canon.walkDeliver {w : Walk} (h : Canon s) : Canon (walkDeliver w s tile) := by
  fun_cases Machine.walkDeliver <;> exact .thaw (.tileSet h rfl)

theorem Canon.walkEnd (h : Canon s) : Canon (walkEnd s) := by
  fun_cases Machine.walkEnd
  · exact h
  · exact .foldl (.diePut h) fun _ _ h => .walkDeliver h

theorem Canon.tlbiWrite {h : Nat} (hs : Canon s) : Canon (tlbiWrite h v s) := by
  fun_cases Machine.tlbiWrite
  · exact .noteBits (.hostPut hs)
  · exact .hostPut hs

theorem Canon.tlbiDone (h : Canon s) : Canon (tlbiDone s) := by
  unfold Machine.tlbiDone
  split
  · exact h
  · extract_lets asidOf named back keep s1 s2 s3
    have h1 : Canon s1 := .mapTiles h fun _ => rfl
    have h2 : Canon s2 := .foldl h1 fun _ _ h => .askWalk h
    have h3 : Canon s3 := .foldl h2 fun _ _ h => .foldl h fun _ _ h => .branch h fun h => .diePut (.walkRead h rfl)
    exact .ite h (.hostPut h3)

theorem Canon.frzWaits (h : Canon s) : Canon (frzWaits s) := by
  fun_cases Machine.frzWaits
  · exact h
  · exact .mapTiles h fun _ => rfl

theorem Canon.frzWrite {h : Nat} (hs : Canon s) : Canon (frzWrite h v s) := by
  fun_cases Machine.frzWrite
  · exact .hostPut hs
  · exact .noteBits (.hostPut hs)
  · exact .frzWaits (.hostPut hs)
  · exact .hostPut hs

theorem Canon.frzRecall (h : Canon s) : Canon (frzRecall s) := by
  fun_cases Machine.frzRecall
  · exact h
  · exact .hostPut (.wroteBack (.frame h))

/-! ## Machine/Commit -/

theorem baseApply_wf {e : Eff} (ht : memWf t.pool = true) : memWf (baseApply t e).pool = true := by
  unfold baseApply
  split
  · exact ht
  · exact ht
  · exact memPutCells_wf ht _
  · exact memPut_wf ht _ _
  · exact ht

theorem Canon.effClean {e : Eff} (h : Canon s) : Canon (effClean s tile e) := by
  fun_cases Machine.effClean
  · exact h
  · exact .foldl h fun _ _ h => .poolClean h
  · exact .poolClean h
  · exact h

theorem Canon.landEff {e : Eff} (h : Canon s) : Canon (landEff tile seq slot s e) := by
  fun_cases Machine.landEff
  · exact .corePut h
  · exact .corePut h
  · exact .effClean (.tilePut h (baseApply_wf (h.pool _)))
  · exact .corePut h

theorem Canon.landTrap {x : Trap} (h : Canon s) : Canon (landTrap s tile seq slot x) := by
  fun_cases Machine.landTrap
  · exact .corePut h
  · exact .raiseAt h

theorem Canon.landFlight {f : Flight} (h : Canon s) : Canon (landFlight tile s f) := by
  fun_cases Machine.landFlight
  · exact .foldl (.corePut h) fun _ _ h => .landEff h
  · exact .corePut h
  · exact .corePut (.corePut h)
  · exact .foldl (.corePut h) fun _ _ h => .landEff h
  · exact .landTrap (.corePut h)
  · exact h

theorem Canon.landing (h : Canon s) : Canon (landing tile s) := by
  fun_cases Machine.landing
  · exact .corePut (.foldl (.foldl (.ite h (.corePut h)) fun _ _ h => .landFlight h) fun _ _ h => .landEff h)
  · exact h

theorem Canon.undoTile (h : Canon s) : Canon (undoTile s tile seq) := by
  unfold Machine.undoTile
  extract_lets t acts forks s1 s2 s3 t3
  have h1 : Canon s1 := .ite h (.setOutstanding h)
  have h2 : Canon s2 := by
    refine .foldl h1 fun s a h => ?_
    split
    · exact .engMap h
    · exact h
  have h3 : Canon s3 := .ite (.keepRecords h2) h2
  exact h3.tilePut (h3.pool _)

theorem Canon.foldLog (h : Canon s) : Canon (foldLog s tile seq) := by
  unfold Machine.foldLog
  extract_lets t r _ _ s1
  have hr : memWf r.1.pool = true := by
    refine foldl_keeps (p := fun r : Tile × List Landed => memWf r.1.pool = true) (h.pool tile) fun r x hr => ?_
    split
    · exact baseApply_wf hr
    · exact hr
  have h1 : Canon s1 := h.tilePut hr
  exact .ite h1 (.foldl h1 fun _ _ h => .effClean h)

theorem Canon.forkClock {c : NMap Nat} (h : Canon s) : forkClock s tile = (u, c) → Canon u :=
  fun | rfl => .agentPut h

theorem Canon.splitTile {j : Nat} (h : Canon s) : Canon (splitTile s tile j) := by
  fun_cases Machine.splitTile
  · exact h
  · exact h
  · exact .tilePut (.packPut h) (h.pool _)

theorem Canon.mergeTile (h : Canon s) : Canon (mergeTile s tile) := by
  unfold Machine.mergeTile
  extract_lets t
  split
  · exact h
  · rename_i s1 _ _ _ _ _
    have h1 : Canon s1 := by
      unfold s1
      split
      · exact .ite (.frame h) (.packPut h)
      · exact h
    exact h1.tilePut (h.pool _)

theorem Canon.arrive {rel : Bool} (h : Canon s) : Canon (arrive s tile rel) := by
  fun_cases Machine.arrive
  · exact h
  · exact .foldl (.corePut (.packPut (.coreSync h))) fun _ _ h => .wakePhase h

theorem Canon.phasePass (h : Canon s) : Canon (phasePass s tile) := by
  fun_cases Machine.phasePass
  · exact .coreSync h
  · exact h
  · exact h

theorem Canon.commitAct {a : Nat × CommitAct} (h : Canon s) : Canon (commitAct tile seq s a) := by
  fun_cases Machine.commitAct
  · exact .coreSync h
  · exact .plainWrite h
  · exact .storeOver h
  · exact .demote h
  · exact .agentPut (.ite (.agentPut h) h)
  · exact .ite (.agentPut h) h
  · exact .creelAdd (.forkClock h rfl)
  · exact .engMap (.forkClock h rfl)
  · exact .tilePut (.leaseHeadGrant h) (leaseAct_wf (Canon.pool (.leaseHeadGrant h) _))
  · exact .tilePut h (leaseAct_wf (h.pool _))
  · exact .tilePut h (leaseAct_wf (h.pool _))
  · exact .splitTile h
  · exact .mergeTile h
  · exact .arrive h
  · exact .corePut h
  · exact .phasePass h
  · exact h
  · exact h
  · exact h

theorem Canon.waitDone {w : SuspWait} (h : Canon s) : Canon (waitDone tile s w) :=
  .corePut (.coreSync h)

theorem Canon.slotActs {met : List SuspWait} {effs : List (Nat × Eff)} {late : Bool} {k : Nat} (h : Canon s) :
    Canon (slotActs tile b met effs late s k) := by
  unfold Machine.slotActs
  extract_lets s1 s2
  have h1 : Canon s1 := .foldl h fun _ _ h => .waitDone h
  have h2 : Canon s2 := .foldl h1 fun _ _ h => .commitAct h
  refine .foldl h2 fun s x h => ?_
  split
  · exact .reelEff h ‹_›
  · exact h

theorem Canon.commitEffects {met : List SuspWait} (h : Canon s) : Canon (commitEffects s tile b met) := by
  unfold Machine.commitEffects
  extract_lets effs s0 s1 s2 t r t' s3 s4 c popped
  have h1 : Canon s1 := .foldLog (.corePut (.foldl h fun _ _ h => .slotActs h))
  have h2 : Canon s2 := .foldl h1 fun _ _ h => .commitAct h
  have h3 : Canon s3 := .branch h2 fun h => .tileSet (.forkClock h rfl) rfl
  exact .corePut (.branch h3 .frame)

theorem Canon.leaveCore (h : Canon s) : Canon (leaveCore s tile seq) :=
  .tileSet (.undoTile h) rfl

theorem Canon.endNow (h : Canon s) : Canon (endNow s tile seq) := by
  fun_cases Machine.endNow
  · exact .setOutstanding (.leaveCore h)
  · exact .nodePut (.setOutstanding (.leaveCore h))
  · exact .setOutstanding (.leaveCore h)
  · exact .setOutstanding (.leaveCore h)

theorem Canon.leasePark {inst : Bool} {k pred : Nat} (h : Canon s) : Canon (leasePark s tile seq b inst k pred vc) := by
  fun_cases Machine.leasePark <;> exact .creelAdd (.leaveCore h)

theorem Canon.suspendAct (h : Canon s) : suspendAct s tile b = some u → Canon u := by
  intro e
  have hr : Canon (Machine.forkClock s tile).1 := .forkClock h rfl
  obtain ⟨a, -, e⟩ := List.exists_of_findSome?_eq_some e
  split at e
  · obtain rfl := Option.some.inj e
    exact .creelAdd (.leaveCore hr)
  · split at e
    · exact nomatch e
    · split at e
      · exact nomatch e
      · obtain rfl := Option.some.inj e
        exact .creelAdd (.leaveCore hr)
  · obtain rfl := Option.some.inj e
    exact .leasePark hr
  · exact nomatch e

theorem Canon.pollInPlace {w : SuspWait} (h : Canon s) : Canon (pollInPlace s tile b w) :=
  .corePut h

theorem Canon.commitGo {again : Bool} (h : Canon s) : Canon (commitGo s tile again b) := by
  unfold Machine.commitGo
  extract_lets met s1
  have h1 : Canon s1 := .commitEffects h
  split
  · split
    · exact .endNow (Canon.joinAdd h1 ‹_›)
    · exact h
  · split
    · exact h1
    · cases e : Machine.suspendAct s1 tile b with
      | none => exact h1
      | some s2 => exact Canon.suspendAct h1 e
    · exact .parkOn (.leaveCore (.forkClock h1 rfl))

theorem Canon.keepMet (h : Canon s) : Canon (keepMet s tile b) :=
  .corePut h

theorem Canon.commitBundle {again : Bool} (h : Canon s) : Canon (commitBundle again tile s) := by
  fun_cases Machine.commitBundle
  · exact h
  · exact h
  · exact .engAsk h
  · exact .foldl h fun _ _ h => .raiseAt h
  · exact .pollInPlace h
  · exact .keepMet h
  · exact h
  · exact .commitGo h

theorem Canon.pollLook {r : Req} (h : Canon s) : pollLook s tile r = .ok u → Canon u := by
  fun_cases Machine.pollLook
  · exact nofun
  · exact nofun
  · exact nofun
  · exact nofun
  · exact nofun
  · exact fun | rfl => .corePut h
  · exact fun | rfl => h
  · exact nofun
  · exact fun | rfl => h

theorem Canon.pollLooks {l : List Req} (h : Canon s) : pollLooks tile s l = .ok u → Canon u := by
  fun_induction Machine.pollLooks
  · exact fun | rfl => h
  · rename_i ih
    exact ih (.pollLook h ‹_›)
  · exact fun | rfl => .raiseAt h
  · exact nofun

theorem Canon.pollAgain (h : Canon s) : Canon (pollAgain s) := by
  fun_cases Machine.pollAgain
  · exact h
  · exact .engAsk h
  · exact .commitBundle (.corePut (.pollLooks h ‹_›))
  · exact h
  · exact h

theorem Canon.holdEnd (h : Canon s) : Canon (holdEnd s) := by
  fun_cases Machine.holdEnd
  · exact h
  · exact .corePut h

/-! ## Machine/Stop -/

theorem Canon.govCount (h : Canon s) : Canon (govCount s tile) :=
  .tilePut (.ite (.noteCount h) h) (h.pool _)

theorem Canon.govAlarm (h : Canon s) : Canon (govAlarm s tile) :=
  .tileSet (.govCount h) rfl

theorem Canon.settle (h : Canon s) : Canon (settle s tile) := by
  unfold Machine.settle
  extract_lets mates
  have hmates {s} (h : Canon s) : Canon (mates s) := by
    unfold mates
    extract_lets c
    split
    · exact .ite (.corePut h) h
    · exact h
  exact .foldl h fun _ _ h => .commitBundle (hmates h)

theorem Canon.stopTile {mask : Nat} (h : Canon s) : Canon (stopTile cause mask s tile) := by
  unfold Machine.stopTile
  extract_lets c seq s1 s2 t
  have h2 : Canon s2 := .mxStop (.mxStop (.undoTile h))
  have ht : memWf t.pool = true := h2.pool tile
  clear_value t s2
  exact h2.tilePut ht

theorem Canon.rasReport {at' : Nat} {x : Trap} {stop : Bool} {retries : Nat} (h : Canon s) :
    Canon (rasReport s n nd at' x stop retries) :=
  .hostPut (.noteCount h)

theorem Canon.noteBad {d : Due} (h : Canon s) : Canon (noteBad s d) := by
  fun_cases Machine.noteBad
  · exact h
  · exact .govCount (.noteFound h)
  · exact .noteFound h
  · exact h

theorem Canon.dropTouched (h : Canon s) : Canon (dropTouched s asid) := by
  fun_cases Machine.dropTouched
  · exact h
  · exact .frame h

theorem Canon.zeroFound (h : Canon s) : Canon (zeroFound s tile) := by
  unfold Machine.zeroFound
  extract_lets t s1
  have h1 : Canon s1 := .foldl h fun _ _ h => .tilePut (.frame h) (filter_memWfFrom (h.pool _) _)
  exact .tileSet h1 rfl

theorem Canon.freeTile (h : Canon s) : Canon (freeTile s tile) := by
  unfold Machine.freeTile
  extract_lets s1 gone s2 t2 s3 s4 t4 d s5
  have h4 : Canon s4 := .leaseEnd (.withdrawWaits (.offerFreed (.tileSet (.frame (.zeroFound h)) rfl)))
  exact .tilePut (.diePut h4) (h4.pool tile)

theorem Canon.freeNode (h : Canon s) : Canon (freeNode s n) := by
  fun_cases Machine.freeNode
  · exact h
  · exact .mapTiles (.nodePut (.dropRecords (.foldl h fun _ _ h => .freeTile h))) fun _ => rfl

theorem Canon.dropOutputs (h : Canon s) : Canon (dropOutputs s nd) := by
  fun_cases Machine.dropOutputs
  · exact h
  · exact .frame h

theorem Canon.requeue {margin : Bool} (h : Canon s) : Canon (requeue s n nd margin tile) :=
  .nodePut (.freeNode (.dropOutputs h))

theorem Canon.stopNode {l : List Due} (h : Canon s) : Canon (stopNode s n l) := by
  unfold Machine.stopNode
  split
  · exact h
  · extract_lets s1 alarms bad again cause s2 s3 s4 s5 s6
    have h1 : Canon s1 := .foldl h fun _ _ h => .noteBad h
    have halarms {s} (h : Canon s) : Canon (alarms s) := .foldl h fun _ _ h => .ite (.govAlarm h) h
    have h3 : Canon s3 := .foldl (.foldl h1 fun _ _ h => .settle h) fun _ _ h => .nodeRec h
    clear_value again bad
    have h5 : Canon s5 := by
      unfold s5
      split
      · exact .rasReport (halarms h3)
      · exact halarms h3
    have h6 : Canon s6 := .foldl h5 fun _ _ h => .stopTile h
    clear_value s6
    split
    · exact .rasReport (.frame (.requeue (halarms h1)))
    · split
      · exact .nodePut h6
      · exact h6

theorem Canon.standSplit (h : Canon s) : Canon (standSplit s tile) := by
  fun_cases Machine.standSplit
  · exact .raiseAt (.packPut h)
  · exact h
  · exact h

theorem Canon.stopAt {more : List Due} (h : Canon s) : Canon (stopAt s tile more) := by
  fun_cases Machine.stopAt
  · exact .stopNode (.foldl h fun _ _ h => .standSplit h)
  · exact .stopTile h

theorem Canon.preciseTrap (h : Canon s) : Canon (preciseTrap tile s) := by
  fun_cases Machine.preciseTrap
  · exact .stopAt h
  · exact h

theorem Canon.inFlightFault (h : Canon s) : Canon (inFlightFault tile s) := by
  fun_cases Machine.inFlightFault
  · exact .stopAt h
  · exact h

theorem Canon.runFault (h : Canon s) : Canon (runFault s) := by
  fun_cases Machine.runFault
  · exact .stopAt h
  · exact h

theorem Canon.freezeTimeout (h : Canon s) : Canon (freezeTimeout s) := by
  fun_cases Machine.freezeTimeout
  · exact h
  · exact .stopAt (.tileSet h rfl)

/-! ## Machine/Launch -/

theorem Canon.lqPut {h : Nat} {q : LaunchQ} (hs : Canon s) : Canon (lqPut s h level q) :=
  .hostPut hs

theorem Canon.lqNote {h bits : Nat} (hs : Canon s) : Canon (lqNote h level bits s) :=
  .noteBits hs

theorem Canon.lqStatWrite {h : Nat} (hs : Canon s) : Canon (lqStatWrite h level v s) :=
  .lqPut hs

theorem Canon.reject (h : Canon s) : Canon (reject s n nd cause) :=
  .rejectRec (.nodePut h)

theorem Canon.dependenceMet (h : Canon s) : Canon (dependenceMet s) := by
  fun_cases Machine.dependenceMet
  · exact h
  · exact h
  · exact .nodePut h

theorem Canon.drrSet {h d : Nat} (hs : Canon s) : Canon (drrSet s h level d) :=
  .lqPut hs

theorem Canon.drrClear (h : Canon s) : Canon (drrClear s level) :=
  .foldl h fun _ _ h => .ite (.drrSet h) h

theorem Canon.drrRest (h : Canon s) : Canon (drrRest s) :=
  .foldl h fun _ _ h => .drrClear h

theorem Canon.lqTailWrite {h : Nat} (hs : Canon s) : Canon (lqTailWrite h level v s) := by
  fun_cases Machine.lqTailWrite
  · exact .drrRest (.lqNote (.lqPut hs))
  · exact .drrRest (.lqPut hs)

theorem Canon.lqCtlWrite {h : Nat} (hs : Canon s) : Canon (lqCtlWrite h level v s) := by
  fun_cases Machine.lqCtlWrite
  · exact .lqNote (.lqPut hs)
  · exact .drrRest (.lqPut hs)

theorem Canon.lqBaseWrite {h : Nat} (hs : Canon s) : Canon (lqBaseWrite h level v s) := by
  fun_cases Machine.lqBaseWrite
  · exact .lqNote (.lqPut hs)
  · exact .lqPut hs

theorem Canon.launchCheck (h : Canon s) : Canon (launchCheck s) := by
  unfold Machine.launchCheck
  split
  · exact h
  · extract_lets q pa addr
    split
    · exact .drrRest (.lqNote (.lqPut h))
    · split
      · exact h
      · exact .drrRest (.reject (.lqPut (.frame h)))
      · exact .drrRest (.nodePut (.lqPut (.frame h)))

theorem Canon.agingLift (h : Canon s) : Canon (agingLift s) := by
  fun_cases Machine.agingLift
  · exact h
  · exact .nodePut h
  · exact h

theorem Canon.packLost (h : Canon s) : Canon (packLost s n nd) :=
  .nodeNote (.nodePut h)

theorem Canon.retest (h : Canon s) : Canon (retest s) := by
  refine .drrRest (.foldl h fun s x h => ?_)
  extract_lets nd
  split
  · exact h
  · split
    · exact .reject h
    · exact .reject h
    · exact .reject h
    · exact .reject h
    · exact .packLost h
    · exact h

/-! ## Machine/Context -/

theorem Canon.saveStop {kind : Nat} (h : Canon s) : Canon (saveStop kind s tile) := by
  fun_cases Machine.saveStop
  · exact h
  · exact .mxStop (.mxStop (.tileSet (.undoTile (.frame h)) rfl))

theorem Canon.beginSave {kind : Nat} {target : NodeState} (h : Canon s) : Canon (beginSave s n kind target) := by
  fun_cases Machine.beginSave
  · exact h
  · exact .foldl h fun _ _ h => .ite h (.settle h)
  · exact .foldl h fun _ _ h => .ite h (.settle h)
  · exact .nodePut (.foldl (.foldl h fun _ _ h => .ite h (.settle h)) fun _ _ h => .saveStop h)

theorem Canon.nodeTilesMap {f : Nat → Nat} (h : Canon s) : Canon (nodeTilesMap s n f) :=
  .frame h

/-- A canonical memory moved as a whole stays canonical. -/
theorem map_memWfFrom {lo a b : Nat} {m : Mem} (h : memWfFrom lo m = true) (ha : a ≤ lo) :
    memWfFrom (lo - a + b) (m.map fun c => (c.1 - a + b, c.2)) = true := by
  induction m generalizing lo with
  | nil => rfl
  | cons c m ih =>
    obtain ⟨k, v⟩ := c
    simp only [memWfFrom, List.map_cons, Bool.and_eq_true, decide_eq_true_eq] at h ⊢
    obtain ⟨⟨hk, hv⟩, hm⟩ := h
    refine ⟨⟨by omega, hv⟩, ?_⟩
    rw [show k - a + b + 1 = k + 1 - a + b by omega]
    exact ih hm (by omega)

theorem memSlice_wf {m : Mem} (h : memWf m = true) (a n b : Nat) : memWf (memSlice m a n b) = true := by
  have ha : memWfFrom a (m.filter fun c => decide (a ≤ c.1) && decide (c.1 < a + n)) = true := by
    refine memWfFrom_of_ge (filter_memWfFrom h _) fun c hc => ?_
    have hc := (List.mem_filter.mp hc).2
    simp only [Bool.and_eq_true, decide_eq_true_eq] at hc
    exact hc.1
  exact memWfFrom_mono (map_memWfFrom ha le_rfl) (Nat.zero_le _)

theorem cellsFrom_wf (a : Nat) (bs : List Byte) : memWfFrom a (cellsFrom a bs) = true := by
  induction bs generalizing a with
  | nil => rfl
  | cons b bs ih =>
    unfold cellsFrom
    split
    · exact memWfFrom_mono (ih (a + 1)) (Nat.le_succ a)
    · next hb =>
      simp only [memWfFrom, Bool.and_eq_true, decide_eq_true_eq]
      exact ⟨⟨le_rfl, hb⟩, ih (a + 1)⟩

theorem cellsFrom_lt {a : Nat} : ∀ c ∈ cellsFrom a bs, c.1 < a + bs.length := by
  induction bs generalizing a with
  | nil => exact nofun
  | cons b bs ih =>
    intro c hc
    rw [List.length_cons]
    unfold cellsFrom at hc
    split at hc
    · have := ih c hc
      omega
    · rcases List.mem_cons.mp hc with rfl | hc
      · simp
      · have := ih c hc
        omega

/-- The cells that a function of an offset gives for `n` offsets from `k`. -/
theorem filterMap_memWfFrom (f : Nat → Byte) (a k n : Nat) :
    memWfFrom (a + k) ((List.range' k n).filterMap fun i => if f i = 0 then none else some (a + i, f i)) = true := by
  induction n generalizing k with
  | zero => rfl
  | succ n ih =>
    have h := ih (k + 1)
    rw [List.range'_succ]
    by_cases hk : f k = 0
    · simp only [List.filterMap_cons, hk, if_true]
      exact memWfFrom_mono h (by omega)
    · simp only [List.filterMap_cons, if_neg hk, memWfFrom, Bool.and_eq_true, decide_eq_true_eq]
      exact ⟨⟨le_rfl, hk⟩, h⟩

theorem leBytes_length (n x : Nat) : (leBytes n x).length = n := by
  induction n generalizing x with
  | zero => rfl
  | succ n ih => simp [leBytes, ih]

theorem length_flatMap_const {β : Type} {f : α → List β} {k : Nat} (hf : ∀ x, (f x).length = k) (l : List α) :
    (l.flatMap f).length = l.length * k := by
  simp [List.length_flatMap, hf, List.map_const']

theorem wordsBytes_length (l : List Nat) : (wordsBytes l).length = l.length * 8 :=
  length_flatMap_const (leBytes_length 8) l

theorem coreBlock_length (t : Tile) : (coreBlock t).length = 121 := by
  have hb (b : Bobbin) : (bobbinWords b).length = 8 := rfl
  unfold coreBlock
  simp only [List.length_append, List.length_map, List.length_range]
  rw [length_flatMap_const (k := 3) (fun i => by split <;> rfl)]
  cases t.running <;> simp [hb]

/-- What the saved slot's core block holds ends before the free bytes behind it (18 R413). -/
theorem saveCells_wf {ws : List Nat} {f : Nat → Byte} {a : Nat} (hw : ws.length ≤ 5120) :
    memWf
    (cellsFrom (a + 0x650000) (wordsBytes ws) ++ (List.range n).filterMap fun i => if f i = 0 then none else some (a + 0x65A000 + i, f i))
    = true := by
  have hwords := memWfFrom_mono (cellsFrom_wf (a + 0x650000) (wordsBytes ws)) (Nat.zero_le _)
  refine append_memWfFrom (mid := a + 0x65A000) hwords (fun c hc => ?_) (Nat.zero_le _) ?_
  · have := cellsFrom_lt c hc
    rw [wordsBytes_length] at this
    omega
  · rw [List.range_eq_range']
    exact filterMap_memWfFrom f (a + 0x65A000) 0 n

theorem Canon.slotWrite {a : Nat} {cells : Mem} (h : Canon s) (hc : memWf cells = true) : Canon (slotWrite s a n cells) :=
  ⟨⟨memSplice_wf h.mem hc a n, h.host0, h.host1⟩, h.tiles⟩

theorem Canon.saveTile {target : NodeState} (h : Canon s) : Canon (saveTile nd n target s tile) := by
  unfold Machine.saveTile
  extract_lets t c desc reels words ctx held
  split
  · exact h
  · rename_i slot _
    extract_lets a block bad s1 s2 s3 t3
    have h1 : Canon s1 := h.slotWrite (memSlice_wf (h.pool tile) _ _ _)
    have hlen : (desc ++ reels ++ coreBlock t).length ≤ 5120 := by
      have hr : reels.length = 512 := (length_flatMap_const (k := 2) (fun _ => rfl) _).trans (by rw [List.length_range])
      simp only [List.length_append, coreBlock_length, hr, desc, List.length_map, List.length_range]
      omega
    have h2 : Canon s2 := Canon.slotWrite (.frame h1) (saveCells_wf hlen)
    have h3 : Canon s3 := .frame h2
    exact .ite (.tileSet h3 rfl) h3

theorem Canon.saveNode (h : Canon s) : Canon (saveNode s n) := by
  unfold Machine.saveNode
  split
  · exact h
  · split
    · exact h
    · rename_i nd _ _ target _
      extract_lets s1 s2 s3 nd1 nd2 s4
      have h1 : Canon s1 := .skip h fun h => .foldl h fun _ _ h => .saveTile h
      have h3 : Canon s3 := .foldl (.nodeTilesMap h1) fun _ _ h => .freeTile h
      exact .ite (.branch (.nodePut (.frame h3)) .packLost) (.nodePut h3)

theorem Canon.contextSave (h : Canon s) : Canon (contextSave s) := by
  fun_cases Machine.contextSave
  · exact h
  · exact .saveNode (.ite h (.beginSave h))
  · exact h

theorem Canon.sectionBytes {c : List Byte} (h : Canon s) : sectionBytes s nd off n = (u, c) → Canon u := by
  fun_cases Machine.sectionBytes
  · exact fun | rfl => h
  · exact fun | rfl => .frame h

theorem Canon.parkAgain {e : CreelEntry} (h : Canon s) : Canon (parkAgain tile s e) := by
  fun_cases Machine.parkAgain
  · exact .parkOn h
  · exact .creelAdd h
  · exact .readyHead h
  · exact h

theorem Canon.restoreEvicted {x : Engine} (h : Canon s) : Canon (restoreEvicted s n tile e x) := by
  unfold Machine.restoreEvicted
  extract_lets s1 s2 s3 code fx s4
  have h2 : Canon s2 := .branch (.engMap h) fun h => .tilePut h (mxLetGo_wf (h.pool tile))
  have h4 : Canon s4 := .engMap (.branch h2 .fxAbort)
  split
  exact .evictNote (.evictAdd h4 ‹_›)

theorem Canon.restoreLease {y : Nat × Engine} (h : Canon s) : Canon (restoreLease n slot tile s y) := by
  fun_cases Machine.restoreLease
  · exact .tileSet h rfl
  · exact .restoreEvicted h
  · exact .tileSet h rfl
  · exact .restoreEvicted h

theorem Canon.fxRestored (h : Canon s) : Canon (fxRestored s tile) := by
  fun_cases Machine.fxRestored
  · exact h
  · exact .fxResume h
  · exact .fxAbort h
  · exact h

theorem Canon.restoreTile {drains : List (List Nat)} (h : Canon s) : Canon (restoreTile n nd drains s rank) := by
  unfold Machine.restoreTile
  split
  · split
    · exact h
    · extract_lets a t c own rest p lo s1 s2 s3 s4 s5
      have h1 : Canon s1 := .frame h
      have h2 : Canon s2 := h1.tilePut (memSlice_wf h1.mem _ _ _)
      have h3 : Canon s3 := .foldl h2 fun _ _ h => .restoreLease h
      have h5 : Canon s5 := .foldl (.fxRestored h3) fun _ _ h => .askWalk h
      exact .wakePhase (.foldl h5 fun _ _ h => .parkAgain h)
  · exact h

theorem Canon.dropElsewhere (h : Canon s) : Canon (dropElsewhere s n nd) :=
  .mapTiles h fun _ => rfl

theorem Canon.stopWide {x : Trap} (h : Canon s) : Canon (stopWide s n agent x) := by
  unfold Machine.stopWide
  split
  · exact h
  · extract_lets s1 other tile s2 s3
    have h1 : Canon s1 := .foldl h fun _ _ h => .skip h .settle
    have h2 : Canon s2 := .ite (.nodeNote h1) (.nodeRec h1)
    have h3 : Canon s3 := .foldl h2 fun _ _ h => .skip h .stopTile
    split
    · exact .nodePut h3
    · exact h3

theorem Canon.contextRestore (h : Canon s) : Canon (contextRestore s) := by
  unfold Machine.contextRestore
  split
  · exact h
  · split
    · exact h
    · extract_lets bad
      split
      · exact .stopNode h
      · split
        extract_lets s2 s3 s4
        have h3 : Canon s3 := .nodePut (.nodeTilesMap (.dropElsewhere (.sectionBytes h ‹_›)))
        have h4 : Canon s4 := .foldl h3 fun _ _ h => .restoreTile h
        exact .branch h4 .stopWide

/-! ## Machine/Place -/

theorem Canon.postYield (h : Canon s) : Canon (postYield s n) := by
  fun_cases Machine.postYield
  · exact h
  · exact .nodePut (.foldl h fun _ _ h => .ite h (.tileSet h rfl))

theorem Canon.askYields {l : List Nat} {l1 : List (Nat × Node)} (h : Canon s) : Canon (askYields nd s l l1) := by
  fun_induction Machine.askYields
  · exact h
  · exact h
  · rename_i ih
    exact ih (.postYield h)

theorem Canon.holdCandidate {lifted : Bool} (h : Canon s) : Canon (holdCandidate s n nd level lifted) := by
  fun_cases Machine.holdCandidate
  · exact .askYields (.branch (.ite (.nodePut h) h) fun h => .foldl h fun _ _ h => .beginSave h)
  · exact .branch (.ite (.nodePut h) h) fun h => .foldl h fun _ _ h => .beginSave h

theorem Canon.dropStale (h : Canon s) : Canon (dropStale s nd) :=
  .mapTiles h fun _ => rfl

theorem Canon.takeHead (h : Canon s) : Canon (takeHead s n nd) := by
  fun_cases Machine.takeHead
  · exact .lqPut h
  · exact h

theorem Canon.place {tiles slots : List Nat} (h : Canon s) : Canon (place s n nd tiles slots) := by
  unfold Machine.place
  extract_lets fresh s1 pack nd' s2 s3
  have h2 : Canon s2 := .nodePut (.frame (.branch h .dropStale))
  exact .foldl (.branch h2 .packPut) fun _ _ h => .touch (.tileSet h rfl)

theorem Canon.drrServe {c : Nat × Node} (h : Canon s) : drrServe level n s = some (u, c) → Canon u := by
  fun_induction Machine.drrServe
  · exact nofun
  · exact nofun
  · rename_i ih
    exact ih (.frame (.drrSet h))
  · exact fun | rfl => h
  · exact nofun
  · rename_i ih
    exact ih (.frame (.drrSet h))
  · exact fun | rfl => .drrSet (.frame h)
  · rename_i ih
    exact ih (.frame (.drrSet (.frame h)))

/-- A candidate is served from a canonical state to a canonical state. -/
def CanonServed : Served1 → Prop
  | .placed s | .held s => Canon s
  | .wait => True

theorem Canon.serveCandidate {lifted : Bool} (h : Canon s) : CanonServed (serveCandidate s n nd level lifted) := by
  fun_cases Machine.serveCandidate
  · exact Canon.place h
  · trivial
  · exact Canon.place (.takeHead h)
  · exact Canon.nodeNote (.place (.takeHead h))
  · exact Canon.place (.takeHead h)
  · exact Canon.holdCandidate h

theorem Canon.decide' (h : Canon s) : Canon (decide' n s) := by
  induction n generalizing s with
  | zero => exact h
  | succ level ih =>
    unfold Machine.decide'
    extract_lets serve
    have hserve {s0 s1 : State} {n nd lifted pay} (h0 : Canon s0) (h1 : Canon s1) : Canon (serve s0 s1 n nd lifted pay) := by
      have hs := Canon.serveCandidate h1 (n := n) (nd := nd) (level := level) (lifted := lifted)
      unfold serve
      split
      · rename_i e
        rw [e] at hs
        exact .ite (.drrRest (.lqPut hs)) hs
      · rename_i e
        rw [e] at hs
        exact hs
      · exact h0
    split
    · exact hserve h h
    · split
      · exact hserve h h
      · split
        · exact h
        · split
          · exact hserve h (.drrServe (.drrClear h) ‹_›)
          · exact .ite (ih (.drrClear h)) h

theorem Canon.placement (h : Canon s) : Canon (placement s) := by
  fun_cases Machine.placement
  · exact .decide' h
  · exact h

theorem Canon.rootAgent {acq : List Rel} (h : Canon s) : Canon (rootAgent s n rank tile acq) :=
  .agentPut h

theorem Canon.loadTile {x : Sections} (h : Canon s) : Canon (loadTile n nd x s rank) := by
  unfold Machine.loadTile
  extract_lets tile p t c regs acc s1 s2 s3
  have h1 : Canon s1 := .poolClean h
  have h2 : Canon s2 := h1.tilePut (memSplice_wf (h.pool tile) rfl _ _)
  exact .rootAgent (.ite h2 (.poolWrite (.plainWrite h2)))

theorem Canon.launchLoad (h : Canon s) : Canon (launchLoad s) := by
  unfold Machine.launchLoad
  split
  · exact h
  · split
    · exact h
    · extract_lets hdr
      split; rename_i s1 cs e1
      split; rename_i s2 ps e2
      split; rename_i s3 ds e3
      split; rename_i s4 rs e4
      have h4 : Canon s4 := (((h.sectionBytes e1).sectionBytes e2).sectionBytes e3).sectionBytes e4
      extract_lets x s5 s6
      have h6 : Canon s6 := .nodePut (.foldl h4 fun _ _ h => .loadTile h)
      exact .ite (.stopWide h6) h6

/-! ## Machine/Nodes -/

theorem Canon.hostOrders {h : Nat} (hs : Canon s) : Canon (hostOrders s h n rank) := by
  fun_cases Machine.hostOrders
  · exact .agentPut hs
  · exact hs

theorem Canon.resumeTile {past : Bool} (h : Canon s) : Canon (resumeTile past s tile) :=
  .fxResume (.tileSet h rfl)

theorem Canon.resumeNode {h : Nat} {past : Bool} (hs : Canon s) : Canon (resumeNode s h n past) := by
  unfold Machine.resumeNode
  split
  · exact hs
  · extract_lets s1 s2 s3 left st s4
    have h1 : Canon s1 := .foldl hs fun _ _ h => .hostOrders h
    have h4 : Canon s4 := .nodePut (.foldl (.agentPut h1) fun _ _ h => .resumeTile h)
    split
    · exact .stopWide h4
    · exact h4

theorem Canon.resumeSaved (h : Canon s) : Canon (resumeSaved s n nd) := by
  fun_cases Machine.resumeSaved
  · exact .packLost (.nodePut (.frame h))
  · exact .nodePut (.frame h)

theorem Canon.orphanRecs (h : Canon s) : Canon (orphanRecs s n) :=
  .frame h

theorem Canon.endNode {st : NodeState} (h : Canon s) : Canon (endNode s n st) := by
  fun_cases Machine.endNode
  · exact h
  · exact .dropTouched (.nodePut (.freeNode (.orphanRecs h)))
  · exact .freeNode (.orphanRecs h)

theorem Canon.nodePut' (h : Canon s) : Canon (nodeCmd.nodePut' s n) := by
  fun_cases Machine.nodeCmd.nodePut'
  · exact .nodePut h
  · exact h

theorem Canon.nodeCmd {host : Nat} (h : Canon s) : Canon (nodeCmd host v s) := by
  unfold Machine.nodeCmd
  extract_lets x op n busy
  have hbusy {s done} (h : Canon s) : Canon (busy s done) := .hostPut h
  clear_value busy op
  split
  · extract_lets s1
    have h1 : Canon s1 := .noteBits (.hostPut h)
    exact .ite (.protocolNote h1) h1
  · split
    · exact hbusy (.nodePut' h)
    · exact hbusy (.endNode h)
    · exact hbusy (.postYield h)
    · split
      · exact .ite (hbusy (.resumeSaved h)) (.ite (hbusy h) (hbusy (.resumeNode h)))
      · exact h

theorem Canon.cmdComplete (h : Canon s) : Canon (cmdComplete s) := by
  fun_cases Machine.cmdComplete
  · exact h
  · exact .hostPut h
  · exact .resumeNode (.hostPut h)
  · exact .hostPut h
  · exact .hostPut h

theorem Canon.yieldExpiry (h : Canon s) : Canon (yieldExpiry s) := by
  fun_cases Machine.yieldExpiry
  · exact h
  · exact .beginSave h
  · exact .nodeNote (.beginSave h)

theorem Canon.completionAdd (h : Canon s) : completionAdd s n nd = .ok u → Canon u := by
  unfold Machine.completionAdd
  split
  · exact fun | rfl => h
  · refine engThen_elim fun pa _ => ?_
    extract_lets sc s1
    split
    · exact nofun
    · split
      · exact nofun
      · split
        · rintro ⟨⟩
          exact .reelAdd (.releaseVc (.touchPa h)) ‹_›
        · exact nofun

theorem Canon.retire (h : Canon s) : Canon (retire s) := by
  unfold Machine.retire
  split
  · exact h
  · split
    · exact h
    · exact .endNode (Canon.completionAdd h ‹_›)
    · exact .endNode (.nodeNote h)

theorem Canon.dieStrikes {bit : Nat} (h : Canon s) : Canon (dieStrikes s n bit nd) := by
  fun_cases Machine.dieStrikes
  · exact h
  · exact .stopWide h
  · exact .stopWide h
  · exact .stopWide h
  · exact .stopWide h
  · exact .stopWide h
  · exact .nodePut h
  · exact .nodePut h
  · exact h

theorem Canon.loseDie {d : Nat} (h : Canon s) : Canon (loseDie d s) := by
  unfold Machine.loseDie
  extract_lets x s1 s2 s3 s4
  have h3 : Canon s3 := .foldl (.diePut (.frame h)) fun _ _ h => .dieStrikes h
  have h4 : Canon s4 := h3.mapTiles fun _ => rfl
  exact .ite h (.retest h4)

theorem Canon.nodeCmdOp {op : Nat} {host : BitVec 1} {val : BitVec 64} (h : Canon s) :
    nodeCmdOp op host val s = .next u → Canon u :=
  Canon.hostDoes h .nodeCmd

/-! ## Machine/Pipeline -/

theorem tickNext_wf (ht : memWf t.pool = true) : memWf (tickNext t).pool = true := by
  unfold tickNext
  extract_lets t1
  have h1 : memWf t1.pool = true := idleTick_wf ht
  clear_value t1
  exact h1

theorem cycleEnd_wf (h : Canon s) : memWf (cycleEnd s tile).pool = true := by
  fun_cases Machine.cycleEnd
  · exact tickNext_wf (h.pool _)
  · exact h.pool _

theorem Canon.cycleTile (h : Canon s) : Canon (cycleTile s tile) := by
  fun_cases Machine.cycleTile
  · exact h
  · exact .tileSet h rfl
  · exact .tilePut (.arraysStep h) (ite_wf (Canon.pool (.arraysStep h) _) (cycleEnd_wf (.arraysStep h)))

theorem Canon.slewStep {d : Nat} (h : Canon s) : Canon (slewStep s d) :=
  .frame h

theorem Canon.cyclePass (h : Canon s) : Canon (cyclePass s) :=
  .slewStep (.frame (.foldl h fun _ _ h => .cycleTile h))

theorem Canon.freezeBegin (h : Canon s) : Canon (freezeBegin tile s) := by
  fun_cases Machine.freezeBegin
  · exact .tileSet h rfl
  · exact h
  · exact h

theorem Canon.lateFlag (h : Canon s) : Canon (lateFlag tile s) := by
  fun_cases Machine.lateFlag
  · exact .govAlarm (.tilePut (.ite (.noteCount h) h) (h.pool _))
  · exact .tilePut (.ite (.noteCount h) h) (h.pool _)
  · exact h

theorem Canon.clockStretch (h : Canon s) : Canon (clockStretch tile s) := by
  fun_cases Machine.clockStretch
  · exact .tileSet h rfl
  · exact h

/-! ## Machine/Reliab -/

theorem Canon.flashTry {c : Bool} (h : Canon s) : flashTry s = (c, u) → Canon u :=
  fun | rfl => .frame h

theorem Canon.flashFailed (h : Canon s) : Canon (flashFailed s tile) :=
  .noteBits (.tileSet h rfl)

theorem Canon.flashWriteAt {point : Nat} {f : FlashEnt → FlashEnt} (h : Canon s) : Canon (flashWriteAt s tile point f) := by
  fun_cases Machine.flashWriteAt
  · exact .frame (.flashTry h ‹_›)
  · exact .flashFailed (.flashTry h ‹_›)

theorem Canon.flashWrite {f : FlashEnt → FlashEnt} (h : Canon s) : Canon (flashWrite s tile f) :=
  .flashWriteAt h

theorem Canon.govMap {f : Governor → Governor} (h : Canon s) : Canon (govMap s tile f) :=
  .tileSet h rfl

theorem Canon.setVolt {v : Nat} (h : Canon s) : Canon (setVolt s tile v) :=
  .govMap h

theorem Canon.windowNext (h : Canon s) : Canon (windowNext s tile) :=
  .govMap (.setVolt h)

theorem Canon.windowEnd (h : Canon s) : Canon (windowEnd tile s) := by
  fun_cases Machine.windowEnd
  · exact h
  · exact .windowNext h
  · exact .windowNext (.skip (.setVolt h) fun h => .flashWrite (.govMap h))

theorem Canon.windowTimeout (h : Canon s) : Canon (windowTimeout s) := by
  fun_cases Machine.windowTimeout
  · exact .windowNext h
  · exact h

theorem Canon.safeRestore (h : Canon s) : Canon (safeRestore tile s) := by
  fun_cases Machine.safeRestore
  · exact h
  · exact .windowNext (.flashWrite (.govMap (.setVolt h)))

theorem Canon.emergNote (h : Canon s) : Canon (emergNote s tile) :=
  .govMap h

theorem Canon.currentReading {reading : Nat} (h : Canon s) : Canon (currentReading tile reading s) :=
  .emergNote (.govMap (.setVolt h))

theorem Canon.temperatureReading {reading : Nat} (h : Canon s) : Canon (temperatureReading tile reading s) :=
  .emergNote (.govMap h)

theorem Canon.grantAdjust (h : Canon s) : Canon (grantAdjust s) :=
  h.mapTiles fun _ => by
    dsimp only
    split <;> rfl

theorem Canon.emergency (h : Canon s) : Canon (emergency s) := by
  fun_cases Machine.emergency
  · exact h
  · exact .emergencyEvict (.tileSet h rfl)

theorem Canon.pinApply (h : Canon s) : Canon (pinApply s tile) := by
  fun_cases Machine.pinApply
  · exact .tileSet (.ite h (.setVolt (.govMap h))) rfl
  · exact h

theorem Canon.emergencyEnd (h : Canon s) : Canon (emergencyEnd s) := by
  fun_cases Machine.emergencyEnd
  · exact h
  · exact .pinApply (.govMap h)

theorem Canon.dailyTile (h : Canon s) : Canon (dailyTile s tile) :=
  .foldl (.govMap h) fun _ _ h => .ite h (.flashWriteAt h)

theorem Canon.dailyWrite (h : Canon s) : Canon (dailyWrite s) :=
  .foldl h fun _ _ h => .ite h (.dailyTile h)

theorem Canon.correctionWriteback (h : Canon s) : Canon (correctionWriteback s) := by
  unfold Machine.correctionWriteback
  split
  · exact h
  · extract_lets banks s1 t g g1 s2 s3
    have h1 : Canon s1 := .frame h
    have h3 : Canon s3 := .branch (.branch h1 .noteCount) .noteCount
    exact h3.tilePut (h1.pool _)

theorem Canon.bankFlash {seg : Nat} {g : Seg} {retired : Bool} (h : Canon s) : Canon (bankFlash s tile seg g retired) := by
  fun_cases Machine.bankFlash
  · exact .foldl (.frame (.flashTry h ‹_›)) fun _ _ h => .frame h
  · exact .frame (.flashTry h ‹_›)
  · exact .flashFailed (.flashTry h ‹_›)

theorem Canon.bankFailed (h : Canon s) : Canon (bankFailed s) := by
  fun_cases Machine.bankFailed
  · exact h
  · exact .retest (.skip (.tileSet h rfl) .bankFlash)
  · exact .skip (.tileSet h rfl) .bankFlash

theorem Canon.rebuildLine (h : Canon s) : Canon (rebuildLine s) := by
  fun_cases Machine.rebuildLine
  · exact h
  · exact .tileSet h rfl

theorem Canon.scrubCount {stack k : Nat} (h : Canon s) : Canon (scrubCount s stack k) :=
  .foldl h fun _ _ h => .hostPut (.ite h (.noteCount h))

theorem Canon.patrolRead {channel : Nat} (h : Canon s) : Canon (patrolRead channel s) := by
  fun_cases Machine.patrolRead
  · exact h
  · exact .frame h
  · exact .scrubCount (.frame h)
  · exact .frame h
  · exact .scrubCount (.frame (.frame h))

theorem Canon.mgmtWrite {h : Nat} {f : State → State} (hs : Canon s) (hf : ∀ (a : State), Canon a → Canon (f a)) :
    Canon (mgmtWrite h s f) := by
  fun_cases Machine.mgmtWrite
  · exact hf _ hs
  · exact .hostNote hs

theorem Canon.shepCtlWrite {h : Nat} (hs : Canon s) : Canon (shepCtlWrite h tile v s) := by
  fun_cases Machine.shepCtlWrite
  · exact hs
  · exact .mgmtWrite hs fun _ h => .ite (.noteBits (.govMap h)) (.pinApply (.govMap h))

theorem Canon.scrubCtlWrite {h : Nat} (hs : Canon s) : Canon (scrubCtlWrite h v s) :=
  .mgmtWrite hs fun _ h => .frame (.ite (.noteBits h) h)

theorem Canon.shepFail (h : Canon s) : Canon (shepFail s) :=
  .noteBits (.frame h)

theorem Canon.shepFcmd {h : Nat} (hs : Canon s) : Canon (shepFcmd h v s) :=
  .mgmtWrite hs fun _ h => .skip (.frame h) fun h => .ite (.shepFail h) (.frame h)

theorem Canon.shepComplete (h : Canon s) : Canon (shepComplete s) := by
  unfold Machine.shepComplete
  split
  · exact h
  · extract_lets tile m s1 s2 seg
    clear_value tile
    have h2 : Canon s2 := by
      unfold s2
      split
      · exact .tilePut (.frame h) rfl
      · exact .frame h
    split
    rename_i ok s3 e3
    have h3 : Canon s3 := .flashTry h2 e3
    split
    · extract_lets s4 s5
      refine .retest ?_
      unfold s5
      split
      · exact .tileSet (.frame h3) rfl
      · exact .frame h3
    · exact .shepFail h3

/-! ## Machine/Board -/

theorem tilesAtReset_wf : ∀ x ∈ tilesAtReset s, memWf x.2.pool = true := by
  intro x hx
  obtain ⟨n, -, hn⟩ := List.mem_filterMap.mp hx
  dsimp only at hn
  split at hn
  · exact nomatch hn
  · obtain rfl := Option.some.inj hn
    rfl

theorem Canon.packageReset {cfail pfail ports : Nat} (h : Canon s) : Canon (packageReset cfail pfail ports s) :=
  ⟨h.1, tilesAtReset_wf⟩

theorem Canon.remapApply (h : Canon s) : Canon (remapApply s) :=
  .frame (.foldl h fun _ _ h => .ite (.diePut h) (.diePut h))

theorem Canon.linkTrained {link reva revb : Nat} (h : Canon s) : Canon (linkTrained link reva revb s) := by
  fun_cases Machine.linkTrained
  · exact h
  · exact .remapApply (.frame h)
  · exact .frame h
  · exact .foldl (.frame h) fun _ _ h => .ite (.loseDie h) h
  · exact .frame h

theorem Canon.tileLoaded (h : Canon s) : Canon (tileLoaded s tile) := by
  fun_cases Machine.tileLoaded
  · exact h
  · exact .tileSet h rfl

theorem Canon.moveVolts {point : Nat} (h : Canon s) : Canon (moveVolts s point) :=
  .foldl h fun _ _ h => .govMap (.setVolt h)

theorem Canon.freqBegin {point : Nat} (h : Canon s) : Canon (freqBegin s point) := by
  fun_cases Machine.freqBegin
  · exact .moveVolts (.frame h)
  · exact .frame h

theorem Canon.tableLoad (h : Canon s) : Canon (tableLoad s) := by
  fun_cases Machine.tableLoad
  · exact h
  · exact .frame (.freqBegin (.foldl h fun _ _ h => .tileLoaded h))

theorem Canon.freqCmd {h : Nat} (hs : Canon s) : Canon (freqCmd h v s) :=
  .mgmtWrite hs fun _ h => .ite h (.freqBegin h)

theorem Canon.freqStop (h : Canon s) : Canon (freqStop s) := by
  fun_cases Machine.freqStop
  · exact .frame h
  · exact h

theorem Canon.freqRestart (h : Canon s) : Canon (freqRestart s) := by
  fun_cases Machine.freqRestart
  · exact .foldl (.branch (.foldl (.frame h) fun _ _ h => .govMap h) .moveVolts) fun _ _ h => .pinApply h
  · exact h

theorem Canon.securityAlarm {src : Nat} (h : Canon s) : Canon (securityAlarm src s) :=
  .frame (.msixSend (.branch (.noteBits (.frame h)) .noteCount))

theorem Canon.alarmCtlWrite {h : Nat} (hs : Canon s) : Canon (alarmCtlWrite h v s) :=
  .mgmtWrite hs fun _ h => .ite h (.frame h)

theorem Canon.mgmtPortFail (h : Canon s) : Canon (mgmtPortFail s) :=
  .hostPut h

/-! ## Machine/Host -/

theorem Canon.mmioClear {h : Nat} (hs : Canon s) : Canon (mmioClear s h off) := by
  fun_cases Machine.mmioClear
  · exact .ringPut hs
  · exact hs
  · exact .hostPut hs
  · exact .hostPut hs
  · exact .frame hs
  · exact .govMap hs
  · exact hs
  · exact .tileSet hs rfl
  · exact hs
  · exact .strandPut hs
  · exact hs

theorem Canon.complete {h : Nat} {c : Cpl} (hs : Canon s) : Canon (complete s h c) :=
  .hostPut hs

theorem Canon.rcRead {h size : Nat} (hs : Canon s) : Canon (rcRead h off size s) := by
  fun_cases Machine.rcRead
  · exact hs
  · exact .complete hs
  · exact .complete (.mmioClear hs)

theorem Canon.hkRefuse {h : Nat} (hs : Canon s) : Canon (hkRefuse s h cause) :=
  .noteBits (.hostPut hs)

theorem Canon.hkAdd {h : Nat} (hs : Canon s) : Canon (hkAdd h v s) := by
  fun_cases Machine.hkAdd
  · exact .hkRefuse hs
  · exact .hkRefuse hs
  · exact .hostPut hs

theorem Canon.hkPerform (h : Canon s) : Canon (hkPerform s) := by
  fun_cases Machine.hkPerform
  · exact h
  · exact .extAdd (.hostPut h) ‹_›
  · exact .hkRefuse (.hostPut h)

theorem Canon.sumFail {h : Nat} (hs : Canon s) : Canon (sumFail s h) :=
  .noteBits (.hostPut hs)

theorem Canon.attFail {h : Nat} (hs : Canon s) : Canon (attFail s h) :=
  .noteBits (.hostPut hs)

theorem Canon.sumWrite {h : Nat} (hs : Canon s) : Canon (sumWrite h v s) := by
  fun_cases Machine.sumWrite
  · exact .sumFail hs
  · exact .hostPut hs

theorem Canon.attWrite {h : Nat} (hs : Canon s) : Canon (attWrite h v s) := by
  fun_cases Machine.attWrite
  · exact .attFail hs
  · exact .hostPut hs

theorem Canon.freeWords {c : List Nat} (h : Canon s) : freeWords s n = (c, u) → Canon u :=
  fun | rfl => .frame h

theorem Canon.sumBytes {h : Nat} {c : List Byte} (hs : Canon s) : sumBytes s h = (c, u) → Canon u := by
  intro e
  have e1 : (Machine.freeWords s 12).2 = u := congrArg Prod.snd e
  exact e1 ▸ .freeWords hs rfl

theorem Canon.sumComplete (h : Canon s) : Canon (sumComplete s) := by
  unfold Machine.sumComplete
  split
  · exact h
  · extract_lets x s1
    have h1 : Canon s1 := .hostPut h
    split
    · split
      exact .partWrite (.sumBytes h1 ‹_›)
    · exact .sumFail h1

theorem Canon.attComplete (h : Canon s) : Canon (attComplete s) := by
  fun_cases Machine.attComplete
  · exact h
  · exact .partWrite (.hostPut h)
  · exact .attFail (.hostPut h)

theorem Canon.hostCfgWrite {h : Nat} (hs : Canon s) : Canon (hostCfgWrite h v s) :=
  .mgmtWrite hs fun _ h => .ite (.hostNote h) (.frame h)

theorem Canon.csaWrite {h reg : Nat} (hs : Canon s) : Canon (csaWrite h reg v s) :=
  .mgmtWrite hs fun _ h => .ite (.hostNote h) (.ite (.frame h) (.retest (.frame h)))

theorem Canon.dieStealWrite {h d : Nat} (hs : Canon s) : Canon (dieStealWrite h d v s) :=
  .mgmtWrite hs fun _ h => .ite (.hostNote h) (.diePut h)

theorem Canon.dbgWrite (h : Canon s) : Canon (dbgWrite tile v s) := by
  fun_cases Machine.dbgWrite
  · exact .tileSet h rfl
  · exact h

theorem Canon.hostBlockWrite {h : Nat} (hs : Canon s) : Canon (hostBlockWrite h off v s) := by
  fun_cases Machine.hostBlockWrite
  · exact .lqBaseWrite hs
  · exact .lqCtlWrite hs
  · exact .lqTailWrite hs
  · exact .lqStatWrite hs
  · exact hs
  · exact .ringBaseWrite hs
  · exact .ringCtlWrite hs
  · exact .ringHeadWrite hs
  · exact .ringStatWrite hs
  · exact hs
  · exact .nodeCmd hs
  · exact .hostPut hs
  · exact .tlbiWrite hs
  · exact .hostPut hs
  · exact .hostPut hs
  · exact .frzWrite hs
  · exact .hostPut hs
  · exact .hostPut hs
  · exact .hkAdd hs
  · exact .hostPut hs
  · exact .hostPut hs
  · exact .sumWrite hs
  · exact .hostPut hs
  · exact .attWrite hs
  · exact .hostPut hs
  · exact hs

theorem Canon.mgmtBlockWrite {host : Nat} (h : Canon s) : Canon (mgmtBlockWrite host off v s) := by
  unfold Machine.mgmtBlockWrite
  extract_lets put
  have hput (f : Mgmt → Mgmt) : Canon (put f) := .mgmtWrite h fun _ h => .frame h
  clear_value put
  split
  · exact hput _
  · split
    · exact .dieStealWrite h
    · split
      · exact hput _
      · exact .csaWrite h
      · exact .csaWrite h
      · exact .scrubCtlWrite h
      · exact hput _
      · exact .hostCfgWrite h
      · exact .freqCmd h
      · exact hput _
      · exact .alarmCtlWrite h
      · exact hput _
      · exact .shepFcmd h
      · exact .mgmtWrite h fun _ h => h

theorem Canon.tileBlockWrite {h : Nat} (hs : Canon s) : Canon (tileBlockWrite h tile off v s) := by
  fun_cases Machine.tileBlockWrite
  · exact hs
  · exact .dbgWrite hs
  · exact .mgmtWrite hs fun _ h => .tileSet h rfl
  · exact .leaseCmd hs
  · exact .shepCtlWrite hs
  · exact .govMap hs
  · exact hs

theorem Canon.mmioWrite {h size : Nat} (hs : Canon s) : Canon (mmioWrite h off size v s) := by
  fun_cases Machine.mmioWrite
  · exact hs
  · exact .complete hs
  · exact .complete (.ite (.hostBlockWrite hs) (.ite (.mgmtBlockWrite hs) (.ite (.tileBlockWrite hs) hs)))

theorem Canon.hostStops {h : Nat} {x : Trap} (hs : Canon s) : Canon (hostStops s h n x) := by
  fun_cases Machine.hostStops
  · exact hs
  · exact .stopWide hs
  · exact .stopWide hs
  · exact .stopWide hs
  · exact .stopWide hs
  · exact .nodePut hs
  · exact .nodePut hs
  · exact .nodePut hs
  · exact hs

theorem Canon.hostCheck {h : Nat} {write plain : Bool} {g : Nat} (hs : Canon s) : Canon (hostCheck h write plain s g) := by
  fun_cases Machine.hostCheck
  · exact .hostStops hs
  · exact hs
  · exact .agentPut (.recTag (.checkGran hs ‹_›))
  · exact hs

theorem Canon.windowAccess {h addr ctl : Nat} {data : Word} (hs : Canon s) : Canon (windowAccess h addr ctl data s) := by
  fun_cases Machine.windowAccess
  · exact .complete hs
  · exact .complete hs
  · exact .complete (.hostWakes (.partWrite (.foldl hs fun _ _ h => .hostCheck h)))
  · exact .complete hs
  · exact .complete (.foldl (.foldl hs fun _ _ h => .recordRead h) fun _ _ h => .hostCheck h)

theorem Canon.completerAtomic {ctl addr : Nat} {data data2 : Word} (h : Canon s) :
    Canon (completerAtomic ctl addr data data2 s) := by
  fun_cases Machine.completerAtomic
  · exact h
  · exact .complete h
  · exact .complete h
  · exact .complete (.hostWakes (.devWrite (.cacheDrop (.syncAccess (.hostCheck h)))))

/-! ## Machine/Agenda -/

theorem Canon.coin {c : Bool} (h : Canon s) : coin s = (c, u) → Canon u :=
  fun | rfl => .frame h

theorem Canon.dice {c : Nat} (h : Canon s) : dice s = (c, u) → Canon u :=
  fun | rfl => .frame h

theorem Canon.eventOffer {code a b : Nat} {c : Option Instr} (h : Canon s) : eventOffer s code a b = (c, u) → Canon u := by
  unfold Machine.eventOffer
  split
  rename_i turn s1 e1
  extract_lets s2
  have h2 : Canon s2 := .frame (.dice h e1)
  clear_value s2
  have hawaits {go : Bool} {i : Option Instr} {s3 : State} {code : Nat} (e3 : Machine.coin s2 = (go, s3)) :
      (if fxAwaits s2 a code then (i, s3) else (eventOf code a b, s2)) = (c, u) → Canon u := by
    split
    · exact fun | rfl => .coin h2 e3
    · exact fun | rfl => h2
  split
  · split
    exact fun | rfl => .coin h2 ‹_›
  · split
    exact fun | rfl => .coin h2 ‹_›
  · split
    exact fun | rfl => .coin h2 ‹_›
  · exact hawaits rfl
  · exact hawaits rfl
  · exact hawaits rfl
  · exact fun | rfl => h2
  · exact fun | rfl => h2
  · exact fun | rfl => h2

theorem Canon.refill (h : Canon s) : Canon (refill s) :=
  .frame (.cyclePass h)

theorem Canon.takeNext {c : Option Instr} (h : Canon s) : takeNext s = .ok (c, u) → Canon u := by
  fun_cases Machine.takeNext
  · rintro ⟨⟩
    exact .refill h
  · rintro ⟨⟩
    exact .frame h
  · exact nofun
  · rintro ⟨⟩
    exact .noteLoss (.frame h)
  · intro e
    injection e with e
    exact .eventOffer (.frame h) e

/-! ## Machine/Scalar -/

theorem Canon.scalarRun {o : SOp} {latch l : Nat} {extra : List Port} {f : State → Bundle → RV → RV → RV × Nat} (h : Canon s) :
    scalarRun tile slot o latch l extra f s b = some u → Canon u := by
  fun_cases Machine.scalarRun
  · exact fun | rfl => .raiseAt h
  · exact fun | rfl => .raiseAt h
  · exact fun | rfl => .addFlight h
  · exact fun | rfl => .addFlight h

theorem Canon.scalarOp {i : Instr} {tile : BitVec 8} {hi : Bool} {o : SOp} {latch l : Nat} {extra : List Port}
    {f : State → Bundle → RV → RV → RV × Nat} (h : Canon s) :
    scalarOp i tile hi o latch l extra f s = .next u → Canon u :=
  Canon.issueOp h Canon.scalarRun

/-! ## Machine/Dispatch -/

theorem Canon.exec {i : Instr} (h : Canon s) : exec i s = .next u → Canon u := by
  cases i with
  | nop =>
    refine Canon.ctlOp (body := fun _ s _ _ => .ok (some s)) h .offNone ?_
    rintro _ _ _ _ _ h ⟨⟩
    exact h
  | jmp => exact Canon.ctlOp h .offFlow .jmpBody
  | jmpi => exact Canon.ctlOp h .offFlow .jmpiBody
  | call => exact Canon.ctlOp h .offFlow .callBody
  | ret => exact Canon.ctlOp h .offFlow .retBody
  | loop => exact Canon.ctlOp h .offFlow .loopBody
  | loopr => exact Canon.ctlOp h .offFlow .looprBody
  | endOp => exact Canon.ctlOp h .offNone .endBody
  | yield | wake | trap | parrive | pwait => exact Canon.ctlOp h .offNone .actBody
  | suspend | join => exact Canon.ctlOp h .offNone .parkBody
  | fork => exact Canon.ctlOp h .offNone .forkBody
  | csend => exact Canon.ctlOp h .offNone .csendBody
  | lease | leasew => exact Canon.ctlOp h .offNone .leaseBody
  | unleash => exact Canon.ctlOp h .offNone .unleashBody
  | slack => exact Canon.ctlOp h .offNone .slackBody
  | fence => exact Canon.ctlOp h .offNone .fenceBody
  | vfence => exact Canon.ctlOp h .offNone .vfenceBody
  | brk => exact Canon.ctlOp h .offNone .brkBody
  | psplit => exact Canon.ctlOp h .offNone .psplitBody
  | pmerge => exact Canon.ctlOp h .offNone .pmergeBody
  | ovl => exact Canon.ctlOp h .offNone .ovlBody
  | sleepk => exact Canon.ctlOp h .offSleep .sleepkBody
  | sleepkSource => exact Canon.ctlOp h .offSleep .sleepkSourceBody
  | sleepkSet => exact Canon.ctlOp h .offSleep .sleepkSetBody
  | ld => exact Canon.accessOp h .loadBody
  | st => exact Canon.accessOp h .storeBody
  | ldq => exact Canon.accessOp h .ldqBody
  | stq => exact Canon.accessOp h .stqBody
  | ldc => exact Canon.accessOp h .ldcBody
  | stc => exact Canon.accessOp h .stcBody
  | pref => exact Canon.accessOp h .prefBody
  | rdset | rdsetOrg => exact Canon.accessOp h .rdsetBody
  | rdget | rdgetOrg => exact Canon.accessOp h .rdgetBody
  | rdadv | rdadvOrg => exact Canon.accessOp h .rdadvBody
  | aadd | aand | aor | axor | amin | amax | aminn | amaxn | aswap | acas | aincw | afaddb | afaddF32 | afaddBf16x2 =>
    exact Canon.accessOp h .atomicBody
  | kadd => exact Canon.accessOp h .kaddBody
  | kwait => exact Canon.accessOp h .kwaitBody
  | kread | kpoll => exact Canon.accessOp h .kreadBody
  | kbind => exact Canon.accessOp h .kbindBody
  | kinit => exact Canon.accessOp h .kinitBody
  | add | sub | mul | mulh | mulhn | div | divn | rem | remn | andOp | orOp | xorOp | andn | shl | shr | sar | rol
  | minOp | maxOp | minn | maxn | clz | ctz | popc | brev | bext | bins | sel | mov | li | lih | madr | ceq | cne
  | clt | cltn | cle | clen | ctst | pand | por | pnot | fadd | fsub | fmul | ffma | fmin | fmax | fcmp | fcvt =>
    exact Canon.scalarOp h
  | vadd | vsub | vmul | vfma | vmin | vmax | vabs | vneg | vrcp | vrsqrt | vsqrt | vexp2 | vlog2 | vtanh | vcvt
  | vscl | vamax | vand | vor | vxor | vnot | vshl | vshr | vsar | vcmp | vsel | vbcast | vcopy | vperm | viota
  | vredsum | vredmax | vredmin | vscan | vsqsum | vdot | vrng | vdrop | vkat | vclamp | vpopc | vcompress | vexpand =>
    exact Canon.vecOp h
  | ewr | etrig | eabort | ewaitq => exact Canon.engOp h
  | erd => exact Canon.execErd h
  | packageReset => exact .ofNext (.packageReset h)
  | toldodyLinkTrained => exact .ofNext (.linkTrained h)
  | securityAlarm => exact .ofNext (.securityAlarm h)
  | dieLost => exact .ofNext (.loseDie h)
  | strandLinkUp => exact .ofNext (.strandUp h)
  | strandLinkDown => exact .ofNext (.strandDown h)
  | timeAlignExchange => exact .ofNext (.timeAlign h)
  | strandReelAdd => exact .ofNext (.strandAdd h)
  | freqCmd => exact Canon.hostDoes h .freqCmd
  | lqTailWrite => exact Canon.hostDoes h fun h => .ite h (.lqTailWrite h)
  | lqCtlWrite => exact Canon.hostDoes h fun h => .ite h (.lqCtlWrite h)
  | lqBaseWrite => exact Canon.hostDoes h fun h => .ite h (.lqBaseWrite h)
  | bobbinPickup => exact .ofNext (.pickup h)
  | stealAttempt => exact .ofNext (.stealAttempt h)
  | stewardSteal => exact .ofNext (.stewardSteal h)
  | indexFetch => exact .ofNext (.indexFetch h)
  | bundleDispatch => exact .ofNext (.dispatch h)
  | bundleCommit => exact .ofNext (.commitBundle h)
  | resultLanding => exact .ofNext (.landing h)
  | remoteReplyArrival => exact .ofNext (.replyArrival h)
  | freezeBegin => exact .ofNext (.freezeBegin h)
  | lateTransitionFlag => exact .ofNext (.lateFlag h)
  | clockStretch => exact .ofNext (.clockStretch h)
  | preciseTrap => exact .ofNext (.preciseTrap h)
  | inFlightFault => exact .ofNext (.inFlightFault h)
  | frCtlWrite => exact Canon.hostDoes h .ringCtlWrite
  | frBaseWrite => exact Canon.hostDoes h .ringBaseWrite
  | frHeadWrite => exact Canon.hostDoes h .ringHeadWrite
  | frStatIpendClear => exact Canon.hostDoes h .ringStatWrite
  | nodeResume | nodeResumeOver | nodeSave | nodeKill | nodeYield => exact Canon.nodeCmdOp h
  | tlbiPage | tlbiAsid | tlbiHost => exact Canon.hostDoes h .tlbiWrite
  | frzFreeze | frzThaw => exact Canon.hostDoes h .frzWrite
  | patrolScrubRead => exact .ofNext (.patrolRead h)
  | windowBarAccess => exact Canon.hostDoes h .windowAccess
  | completerAtomicop => exact .ofNext (.completerAtomic h)
  | hkadd => exact Canon.hostDoes h .hkAdd
  | leaseCmdEvict => exact Canon.hostDoes h .leaseCmd
  | shepFcmdClear => exact Canon.hostDoes h .shepFcmd
  | sumCmd => exact .ofNext (.ite (.sumWrite h) h)
  | attCmd => exact Canon.hostDoes h .attWrite
  | tileDbgWrite => exact Canon.hostDoes h .dbgWrite
  | csaWrite => exact Canon.hostDoes h .csaWrite
  | hostCfgWrite => exact Canon.hostDoes h .hostCfgWrite
  | alarmCtlWrite => exact Canon.hostDoes h .alarmCtlWrite
  | scrubCtlWrite => exact Canon.hostDoes h .scrubCtlWrite
  | shepCtlWrite => exact Canon.hostDoes h .shepCtlWrite
  | dieStealCtlWrite => exact Canon.hostDoes h .dieStealWrite
  | mmioRegisterWrite => exact .ofNext (.mmioWrite h)
  | rcRegisterRead => exact .ofNext (.rcRead h)
  | elasticBufferAccept => exact .ofNext (.engAccept h)
  | enginePowerUpComplete => exact .ofNext (.powerDone h)
  | copyBurst => exact .ofNext (.copyBurst h)
  | copyGateWaitEnd => exact .ofNext (.copyGateEnd h)
  | copyBindingWaitEnd => exact .ofNext (.copyBindEnd h)
  | copySignal => exact .ofNext (.copySignal h)
  | arrayRingWaitEnd => exact .ofNext (.mxBegin h)
  | arrayGroupLanding => exact .ofNext (.mxGroup h)
  | arrayComputeEnd => exact .ofNext (.mxComputeEnd h)
  | drainRow => exact .ofNext (.drainRow h)
  | dstqWaitEnd => exact .ofNext (.dstqWaitEnd h)
  | drainRowStore => exact .ofNext (.drainStore h)
  | arrayDoneAdd => exact .ofNext (.mxDone h)
  | engineUnit => exact .ofNext (.engineUnit h)
  | engineCommandComplete => exact .ofNext (.engComplete h)
  | fxFirstFlitCheck => exact .ofNext (.fxFirstCheck h)
  | fxChunkStep => exact .ofNext (.fxChunkStep h)
  | fxReceiveAdd => exact .ofNext (.fxReceiveAdd h)
  | fxAbortMarkerArrival => exact .ofNext (.fxMarker h)
  | vectorOperationStart => exact .ofNext (.vecStart h)
  | vectorElementGroup => exact .ofNext (.vecGroup h)
  | spuriousWake => exact .ofNext (.spuriousWake h)
  | governorWindowEnd => exact .ofNext (.windowEnd h)
  | safeRestore => exact .ofNext (.safeRestore h)
  | currentReading => exact .ofNext (.currentReading h)
  | temperatureReading => exact .ofNext (.temperatureReading h)
  | marginTableLoad => exact .ofNext (.tableLoad h)
  | freqChangeClockStop => exact .ofNext (.freqStop h)
  | freqChangeClockRestart => exact .ofNext (.freqRestart h)
  | launchRecordCheck => exact .ofNext (.launchCheck h)
  | dependenceMet => exact .ofNext (.dependenceMet h)
  | agingLift => exact .ofNext (.agingLift h)
  | placementDecision => exact .ofNext (.placement h)
  | launchLoadComplete => exact .ofNext (.launchLoad h)
  | dictionaryFillComplete => exact .ofNext (.dictFill h)
  | fetchBufferFillComplete => exact .ofNext (.lineFill h)
  | freezeWatchdogExpiry => exact .ofNext (.freezeTimeout h)
  | faultRecordWrite => exact .ofNext (.recordWrite h)
  | nodeCommandComplete => exact .ofNext (.cmdComplete h)
  | yieldDeadlineExpiry => exact .ofNext (.yieldExpiry h)
  | contextSaveComplete => exact .ofNext (.contextSave h)
  | contextRestore => exact .ofNext (.contextRestore h)
  | retirementComplete => exact .ofNext (.retire h)
  | tlbiComplete => exact .ofNext (.tlbiDone h)
  | freezeRecallComplete => exact .ofNext (.frzRecall h)
  | translationWalk => exact .ofNext (.walkStart h)
  | walkComplete => exact .ofNext (.walkEnd h)
  | migrationWalkRetry => exact .ofNext (.walkRetry h)
  | atomicBounce => exact .ofNext (.atomicBounce h)
  | remotePoolRequest => exact .ofNext (.remotePool h)
  | nearMemoryAtomic => exact .ofNext (.nearAtomic h)
  | conflictCheckAnswer => exact .ofNext (.conflictAnswer h)
  | poolCorrectionWriteback => exact .ofNext (.correctionWriteback h)
  | bankMarkFailed => exact .ofNext (.bankFailed h)
  | bankRebuildLine => exact .ofNext (.rebuildLine h)
  | hkaddPerform => exact .ofNext (.hkPerform h)
  | shepFcmdComplete => exact .ofNext (.shepComplete h)
  | summaryComplete => exact .ofNext (.sumComplete h)
  | attQuoteComplete => exact .ofNext (.attComplete h)
  | leaseQueueGrant =>
    refine .ofNext ?_
    split
    · exact .leaseHeadGrant h
    · exact h
  | idleGating =>
    refine .ofNext ?_
    split
    · exact .engMap h
    · exact h
  | wokenIdleReturn =>
    refine .ofNext ?_
    split
    · exact .engMap h
    · exact h
  | releaseComplete =>
    refine .ofNext ?_
    split
    · exact .releaseDone h
    · exact h
  | standbyGraceExpiry =>
    refine .ofNext ?_
    split
    · exact .graceRelease h
    · exact h
  | engineRunFault => exact .ofNext (.runFault h)
  | fxTimeout => exact .ofNext (.fxTimeout h)
  | pollBackoffExpiry => exact .ofNext (.pollAgain h)
  | parkedPollTest => exact .ofNext (.parkedPoll h)
  | sleepkWaitEnd => exact .ofNext (.holdEnd h)
  | governorWindowTimeout => exact .ofNext (.windowTimeout h)
  | grantAdjust => exact .ofNext (.grantAdjust h)
  | governorEmergency => exact .ofNext (.emergency h)
  | emergencyEnd => exact .ofNext (.emergencyEnd h)
  | marginDailyWrite => exact .ofNext (.dailyWrite h)
  | managementPortFailure => exact .ofNext (.mgmtPortFail h)

/-! ## Machine/Step -/

theorem Canon.step (h : Canon s) : step s = .next u → Canon u := by
  unfold Machine.step
  split
  · exact nofun
  · exact fun | rfl => Canon.takeNext h ‹_›
  · exact Canon.exec (Canon.takeNext h ‹_›)

end MemoryStaysCanonical

/-- Settles O60: a step takes the next word of the agenda and runs it, and both keep every byte memory canonical. -/
theorem memoryStaysCanonical : Obligations.MemoryStaysCanonical :=
  fun _ _ hm hp => Canon.step ⟨hm, hp⟩

end Sys2Proof.Machine

/-! # O57: package reset and bring-up, frequency changes, alarms, a lost die, a failed management port

The last clause of the statement follows one node through the stop of all its tiles (18 R421). What the commit of a bundle and
the stop of a tile can do to the nodes is shown first, in the order of the model's own files: `f_nodes` where `f` leaves them as
they are, `OnlyNode.f` where it may rewrite the entry of a node that it has found. The board's own events come after it. -/

namespace Sys2Proof.Machine
open Sys2Proof

section BoardEvents

variable {α : Type} {s u : State} {t : Tile}
variable {tile e n slot agent seq asid cause loc level off pa va place : Nat}
  {v : Word} {b : Bundle} {nd : Node} {sc : Scope} {bs : List Byte} {vc : NMap Nat}

/-- A fold leaves the nodes alone when each of its steps does. -/
theorem foldl_nodes {f : State → α → State} {l : List α} (hf : ∀ s x, (f s x).nodes = s.nodes) :
    (l.foldl f s).nodes = s.nodes :=
  foldl_keeps (p := fun u : State => u.nodes = s.nodes) rfl fun u x h => (hf u x).trans h

/-- A branch leaves the nodes alone when both of its ways do. -/
theorem ite_nodes {c : Prop} [Decidable c] {x y : State} (hx : x.nodes = s.nodes) (hy : y.nodes = s.nodes) :
    (if c then x else y).nodes = s.nodes := by
  split <;> assumption

/-! ## Acts that leave the nodes alone: conflicts and memory -/

@[simp] theorem agentPut_nodes {a : Nat} {x : Agent} : (agentPut s a x).nodes = s.nodes := rfl

@[simp] theorem relsJoin_nodes {r : Option Rel} : (relsJoin s loc r).nodes = s.nodes := by
  fun_cases relsJoin <;> rfl

@[simp] theorem release_nodes {a : Nat} {x : Agent} : (release s a x loc sc).nodes = s.nodes :=
  relsJoin_nodes

@[simp] theorem relaxedRead_nodes {a : Nat} {x : Agent} : (relaxedRead s a x loc).nodes = s.nodes := by
  fun_cases relaxedRead <;> rfl

theorem syncAccess_nodes {a ident node : Nat} {o : Order} {rd wr : Bool} :
    (syncAccess s a ident node place o sc loc rd wr).nodes = s.nodes := by
  unfold syncAccess
  extract_lets x s1 y
  have h1 : s1.nodes = s.nodes := by
    unfold s1
    split
    · split
      · rfl
      · rfl
      · exact relaxedRead_nodes
    · rfl
  split
  · split
    · exact release_nodes.trans h1
    · exact release_nodes.trans h1
    · exact relsJoin_nodes.trans h1
  · exact h1

@[simp] theorem coreSync_nodes {o : Order} {rd wr : Bool} : (coreSync s tile o sc loc rd wr).nodes = s.nodes :=
  syncAccess_nodes

theorem checkGran_nodes {a : Nat} {x : Agent} {gran : Nat} {write plain : Bool} {pend : Option (Nat × Nat)} :
    checkGran s a x gran write plain pend = .ok u → u.nodes = s.nodes := by
  fun_cases checkGran
  · exact nofun
  · exact fun | rfl => rfl
  · exact nofun
  · exact fun | rfl => rfl

theorem checkGrans_nodes {a : Nat} {x : Agent} {write plain : Bool} {pend : Option (Nat × Nat)} {l : List Nat} :
    checkGrans s a x write plain pend l = .ok u → u.nodes = s.nodes := by
  fun_induction checkGrans
  · exact fun | rfl => rfl
  · exact nofun
  · rename_i ih
    exact fun h => (ih h).trans (checkGran_nodes ‹_›)

@[simp] theorem tagZero_nodes {r : OpenRec} : (tagZero s r).nodes = s.nodes := by
  fun_cases tagZero <;> rfl

@[simp] theorem keepRecords_nodes {p : OpenRec → Bool} : (keepRecords s p).nodes = s.nodes :=
  foldl_nodes fun _ _ => tagZero_nodes

@[simp] theorem touch_nodes {bit : Nat} : (touch s asid bit).nodes = s.nodes := by
  fun_cases touch <;> rfl

@[simp] theorem touchPa_nodes : (touchPa s asid pa).nodes = s.nodes := by
  fun_cases touchPa
  · exact touch_nodes
  · rfl

@[simp] theorem csaTouch_nodes : (csaTouch s pa n).nodes = s.nodes := by
  fun_cases csaTouch <;> rfl

@[simp] theorem devWrite_nodes : (devWrite s pa bs).nodes = s.nodes := by
  unfold devWrite
  split
  · extract_lets n w s1 s2 s3
    have h1 : s1.nodes = s.nodes := ite_nodes rfl rfl
    have h2 : s2.nodes = s.nodes := ite_nodes h1 h1
    exact csaTouch_nodes.trans h2
  · rfl
  · rfl
  · rfl

@[simp] theorem wroteBack_nodes {gs : List Nat} : (wroteBack s gs).nodes = s.nodes := by
  fun_cases wroteBack <;> rfl

@[simp] theorem cachePut_nodes {die g : Nat} : (cachePut s die g).nodes = s.nodes :=
  wroteBack_nodes

@[simp] theorem cacheDrop_nodes {g : Nat} : (cacheDrop s g).nodes = s.nodes := rfl

@[simp] theorem cacheDirty_nodes {die g : Nat} : (cacheDirty s die g).nodes = s.nodes := by
  fun_cases cacheDirty
  · rfl
  · exact cachePut_nodes

@[simp] theorem poolClean_nodes : (poolClean s tile off n).nodes = s.nodes := by
  fun_cases poolClean <;> rfl

@[simp] theorem poolWrite_nodes : (poolWrite s tile off bs).nodes = s.nodes :=
  poolClean_nodes

@[simp] theorem tagSync_nodes {leaf : Nat} : (tagSync s leaf pa).nodes = s.nodes := by
  fun_cases tagSync <;> rfl

@[simp] theorem tagStore_nodes {leaf : Nat} : (tagStore s leaf pa).nodes = s.nodes := by
  fun_cases tagStore <;> rfl

theorem checkMem_nodes {a : Nat} {x : Agent} {leaf : Nat} {write plain : Bool} {pend : Option (Nat × Nat)} :
    checkMem s a x leaf pa write plain pend = .ok u → u.nodes = s.nodes := by
  fun_cases checkMem
  · exact nofun
  · exact fun | rfl => tagStore_nodes.trans ((checkGran_nodes ‹_›).trans tagSync_nodes)

@[simp] theorem askWalk_nodes {vpn : Nat} : (askWalk s tile asid vpn).nodes = s.nodes := by
  fun_cases askWalk <;> rfl

/-! ## Acts that leave the nodes alone: bobbins and reels -/

@[simp] theorem spillWrite_nodes {idx : Nat} {e : CreelEntry} : (spillWrite s tile idx e).nodes = s.nodes := by
  unfold spillWrite
  split
  · exact (devWrite_nodes (s := devWrite s _ _)).trans (devWrite_nodes (s := s))
  · rfl

@[simp] theorem creelSpill_nodes : (creelSpill s tile).nodes = s.nodes := by
  unfold creelSpill
  extract_lets l
  split
  · rfl
  · split
    · split
      · exact spillWrite_nodes
      · rfl
    · rfl

@[simp] theorem creelAdd_nodes {head : Bool} {e : CreelEntry} : (creelAdd s tile head e).nodes = s.nodes :=
  creelSpill_nodes

@[simp] theorem reelStore_nodes {r : ReelAt} : (reelStore s r v).nodes = s.nodes := by
  fun_cases reelStore
  · rfl
  · exact devWrite_nodes

@[simp] theorem readyHead_nodes {e : CreelEntry} {acq : Option (Nat × Scope)} : (readyHead s tile e acq).nodes = s.nodes :=
  creelAdd_nodes

@[simp] theorem wakeEnt_nodes {w : WaitEnt} {acq : Bool} : (wakeEnt s w acq).nodes = s.nodes := by
  fun_cases wakeEnt
  · rfl
  · exact readyHead_nodes

@[simp] theorem offerEntry_nodes {r : ReelAt} : (offerEntry s r).nodes = s.nodes := by
  fun_cases offerEntry
  · rfl
  · rfl
  · exact readyHead_nodes
  · rfl
  · rfl

@[simp] theorem wakeReel_nodes {r : ReelAt} : (wakeReel s r).nodes = s.nodes := by
  fun_cases wakeReel
  · rfl
  · refine (foldl_nodes fun _ _ => ite_nodes offerEntry_nodes rfl).trans ?_
    exact foldl_nodes fun _ _ => wakeEnt_nodes

theorem reelAdd_nodes {r : ReelAt} : reelAdd s r v = .ok u → u.nodes = s.nodes := by
  fun_cases reelAdd
  · exact nofun
  · exact fun | rfl => wakeReel_nodes.trans reelStore_nodes

@[simp] theorem reelInit_nodes {r : ReelAt} : (reelInit s r v).nodes = s.nodes :=
  wakeReel_nodes.trans reelStore_nodes

theorem reelBindTo_nodes {k ceiling : Nat} {depth : Word} :
    reelBindTo s tile k ceiling depth = .ok u → u.nodes = s.nodes := by
  fun_cases reelBindTo
  · exact fun | rfl => rfl
  · exact nofun
  · exact fun | rfl => rfl

@[simp] theorem parkOn_nodes {e : CreelEntry} {r : ReelAt} {addr t : Word} : (parkOn s tile e r addr t sc).nodes = s.nodes := by
  fun_cases parkOn
  · exact readyHead_nodes
  · exact creelAdd_nodes
  · exact creelAdd_nodes

@[simp] theorem plainWrite_nodes {l : List Nat} : (plainWrite s l).nodes = s.nodes := by
  fun_cases plainWrite <;> rfl

theorem reelEff_nodes {late : Bool} {e : Eff} : reelEff late s tile e = .ok u → u.nodes = s.nodes := by
  fun_cases reelEff
  · exact fun | rfl => reelAdd_nodes ‹_›
  · exact nofun
  · exact nofun
  · exact nofun
  · exact fun | rfl => reelInit_nodes
  · exact fun | rfl => reelBindTo_nodes ‹_›
  · exact nofun
  · exact fun | rfl => rfl

/-! ## Acts that leave the nodes alone: records -/

@[simp] theorem postRec_nodes {host ring node w0 w1 image pc ticks frz : Nat} {x : Trap} :
    (postRec s host ring node w0 w1 image pc ticks frz x).nodes = s.nodes := rfl

@[simp] theorem nodeRec_nodes {mask pc : Nat} {x : Trap} : (nodeRec s n tile agent mask pc x).nodes = s.nodes := by
  fun_cases nodeRec <;> rfl

@[simp] theorem nodeNote_nodes {x : Trap} : (nodeNote s n x).nodes = s.nodes := by
  unfold nodeNote
  fun_cases nodeNoteIn <;> rfl

/-! ## Acts that leave the nodes alone: engines -/

@[simp] theorem engAsk_nodes {ask : Option (Nat × Nat × Nat)} : (engAsk s ask).nodes = s.nodes := by
  fun_cases engAsk
  · exact askWalk_nodes
  · rfl

theorem checkMems_nodes {a : Nat} {x : Agent} {leaf : Nat} {write plain : Bool} {l : List Nat} :
    checkMems s a x leaf write plain l = .ok u → u.nodes = s.nodes := by
  fun_induction checkMems
  · exact fun | rfl => rfl
  · exact nofun
  · rename_i ih
    exact fun h => (ih h).trans (checkMem_nodes ‹_›)

theorem checkPiece_nodes {a : Nat} {x : Agent} {write plain : Bool} {y : Piece} :
    checkPiece s a x write plain y = .ok u → u.nodes = s.nodes := by
  fun_cases checkPiece
  · exact checkGrans_nodes
  · exact checkMems_nodes
  · exact fun | rfl => rfl

theorem engCheck_nodes {wr : Bool} {l : List Piece} : engCheck s agent wr l = .ok u → u.nodes = s.nodes := by
  unfold engCheck
  fun_induction engCheckAs
  · exact fun | rfl => rfl
  · rename_i ih
    exact fun h => (ih h).trans (checkPiece_nodes ‹_›)
  · exact nofun

theorem pieceWrite_nodes {fill : Bool} {p : Piece} : pieceWrite s tile fill p bs = .ok u → u.nodes = s.nodes := by
  fun_cases pieceWrite
  · exact nofun
  · exact fun | rfl => poolWrite_nodes.trans plainWrite_nodes
  · exact nofun
  · exact nofun
  · rintro ⟨⟩
    refine (devWrite_nodes.trans plainWrite_nodes).trans ?_
    exact foldl_nodes fun _ _ => ite_nodes cacheDirty_nodes rfl

@[simp] theorem reelTouch_nodes {y : ReelAt} : (reelTouch s asid y).nodes = s.nodes := by
  fun_cases reelTouch
  · exact touch_nodes
  · exact touchPa_nodes

@[simp] theorem engMap_nodes {f : Engine → Engine} : (engMap s tile e f).nodes = s.nodes := rfl

@[simp] theorem mxRun_nodes {f : Run → Run} : (mxRun s tile e agent f).nodes = s.nodes := rfl

@[simp] theorem landStep_nodes {r : Run} : (landStep s tile e r).nodes = s.nodes := by
  unfold landStep
  extract_lets c g row s1 t s2
  exact foldl_keeps (p := fun x : State × Nat => x.1.nodes = s.nodes) rfl fun _ _ h => poolWrite_nodes.trans h

@[simp] theorem landRest_nodes {k : Nat} : (landRest tile e n s k).nodes = s.nodes := by
  fun_induction landRest
  · rfl
  · rfl
  · rename_i ih
    exact ih.trans landStep_nodes
  · rfl

theorem dnCheck_nodes {wr : Bool} {l : List DnUse} : dnCheck s tile agent wr l = .ok u → u.nodes = s.nodes := by
  fun_induction dnCheck
  · exact fun | rfl => rfl
  · rename_i ih
    exact fun h => (ih h).trans (engCheck_nodes ‹_›)
  · exact nofun
  · exact fun | rfl => rfl

theorem dnPut_nodes {x : DnUse × DrainOut} : dnPut tile s x = .ok u → u.nodes = s.nodes := by
  unfold dnPut
  extract_lets put
  have hput {off : Nat} {bs : List Byte} : put off bs = .ok u → u.nodes = s.nodes := by
    unfold put
    split
    · exact fun | rfl => pieceWrite_nodes ‹_›
    · exact nofun
    · exact fun | rfl => rfl
  split
  · exact hput
  · exact hput
  · exact fun | rfl => rfl

theorem dnPutAll_nodes {l : List (DnUse × DrainOut)} : dnPutAll tile s l = .ok u → u.nodes = s.nodes := by
  fun_induction dnPutAll
  · exact fun | rfl => rfl
  · rename_i ih
    exact fun h => (ih h).trans (dnPut_nodes ‹_›)
  · exact nofun

theorem dnRowEnd_nodes {r : Run} {y : RowOut} : dnRowEnd s tile e r y = .ok u → u.nodes = s.nodes := by
  fun_cases dnRowEnd
  · exact nofun
  · exact nofun
  · exact nofun
  · next e1 _ e2 _ _ _ _ =>
    exact fun | rfl => (dnPutAll_nodes e2).trans (dnCheck_nodes e1)

@[simp] theorem leaseHeadGrant_nodes {awake : Bool} : (leaseHeadGrant s tile awake).nodes = s.nodes := by
  fun_cases leaseHeadGrant
  · exact foldl_nodes fun _ _ => creelSpill_nodes
  · rfl

/-! ## Acts that leave the nodes alone: the commit -/

@[simp] theorem setOutstanding_nodes : (setOutstanding s tile n).nodes = s.nodes := by
  fun_cases setOutstanding <;> rfl

@[simp] theorem wakePhase_nodes : (wakePhase s tile).nodes = s.nodes := by
  fun_cases wakePhase
  · rfl
  · fun_cases wakeAt
    · rfl
    · exact readyHead_nodes
  · rfl
  · rfl

@[simp] theorem effClean_nodes {e : Eff} : (effClean s tile e).nodes = s.nodes := by
  fun_cases effClean
  · rfl
  · exact foldl_nodes fun _ _ => poolClean_nodes
  · exact poolClean_nodes
  · rfl

@[simp] theorem undoTile_nodes : (undoTile s tile seq).nodes = s.nodes := by
  unfold undoTile
  extract_lets t acts forks s1 s2 s3 t3
  have h1 : s1.nodes = s.nodes := ite_nodes rfl setOutstanding_nodes
  have h2 : s2.nodes = s.nodes := by
    refine (foldl_nodes fun s a => ?_).trans h1
    split <;> rfl
  exact ite_nodes (keepRecords_nodes.trans h2) h2

@[simp] theorem foldLog_nodes : (foldLog s tile seq).nodes = s.nodes :=
  ite_nodes rfl (foldl_nodes fun _ _ => effClean_nodes)

@[simp] theorem forkClock_nodes : (forkClock s tile).1.nodes = s.nodes := rfl

@[simp] theorem splitTile_nodes {j : Nat} : (splitTile s tile j).nodes = s.nodes := by
  fun_cases splitTile <;> rfl

@[simp] theorem mergeTile_nodes : (mergeTile s tile).nodes = s.nodes := by
  unfold mergeTile
  extract_lets t
  split
  · rfl
  · rename_i s1 _ _ _ _ _
    show s1.nodes = s.nodes
    unfold s1
    split
    · exact ite_nodes rfl rfl
    · rfl

@[simp] theorem arrive_nodes {rel : Bool} : (arrive s tile rel).nodes = s.nodes := by
  fun_cases arrive
  · rfl
  · exact (foldl_nodes fun _ _ => wakePhase_nodes).trans coreSync_nodes

@[simp] theorem phasePass_nodes : (phasePass s tile).nodes = s.nodes := by
  fun_cases phasePass
  · exact coreSync_nodes
  · rfl
  · rfl

@[simp] theorem waitDone_nodes {w : SuspWait} : (waitDone tile s w).nodes = s.nodes :=
  coreSync_nodes

@[simp] theorem leaveCore_nodes : (leaveCore s tile seq).nodes = s.nodes :=
  undoTile_nodes

@[simp] theorem leasePark_nodes {inst : Bool} {k pred : Nat} : (leasePark s tile seq b inst k pred vc).nodes = s.nodes := by
  fun_cases leasePark <;> exact creelAdd_nodes.trans leaveCore_nodes

theorem suspendAct_nodes (h : suspendAct s tile b = some u) : u.nodes = s.nodes := by
  obtain ⟨a, -, e⟩ := List.exists_of_findSome?_eq_some h
  split at e
  · obtain rfl := Option.some.inj e
    exact creelAdd_nodes.trans leaveCore_nodes
  · split at e
    · exact nomatch e
    · split at e
      · exact nomatch e
      · obtain rfl := Option.some.inj e
        exact creelAdd_nodes.trans leaveCore_nodes
  · obtain rfl := Option.some.inj e
    exact leasePark_nodes
  · exact nomatch e

@[simp] theorem drrRest_nodes : (drrRest s).nodes = s.nodes :=
  foldl_nodes fun _ _ => foldl_nodes fun _ _ => ite_nodes rfl rfl

/-! ## A package with one node: what the commit and the stop of a tile make of it -/

/-- The package has one node, under a given number. -/
def OnlyNode (n : Nat) (s : State) : Prop := ∃ nd, s.nodes = [(n, nd)]

@[simp] theorem nodePut_nodes {x : Node} : (nodePut s n x).nodes = mapPut s.nodes n x := rfl

theorem OnlyNode.of_nodes (h : OnlyNode n s) (e : u.nodes = s.nodes) : OnlyNode n u :=
  h.imp fun _ => e.trans

/-- Rewriting the entry of a node that is there adds none. -/
theorem OnlyNode.nodePut {i : Nat} {x : Node} (h : OnlyNode n s) (hi : nodeGet? s i = some nd) : OnlyNode n (nodePut s i x) := by
  obtain ⟨y, hy⟩ := h
  obtain rfl : n = i := by
    by_contra hne
    simp [nodeGet?, hy, mapGet?, hne] at hi
  exact ⟨x, by simp [hy, mapPut]⟩

theorem OnlyNode.found (h : OnlyNode n s) : ∃ nd, nodeGet? s n = some nd :=
  h.imp fun nd hn => by simp [nodeGet?, hn, mapGet?]

theorem OnlyNode.foldl {f : State → α → State} {l : List α} (h : OnlyNode n s) (hf : ∀ s x, OnlyNode n s → OnlyNode n (f s x)) :
    OnlyNode n (l.foldl f s) :=
  foldl_keeps h hf

theorem OnlyNode.ite {c : Prop} [Decidable c] (h : OnlyNode n s) (h' : OnlyNode n u) : OnlyNode n (if c then s else u) := by
  split <;> assumption

theorem OnlyNode.demoteNode {i : Nat} (h : OnlyNode n s) : OnlyNode n (demoteNode s i tile agent) := by
  fun_cases Machine.demoteNode
  · exact h
  · exact .of_nodes (h.nodePut ‹_›) nodeRec_nodes
  · exact h

theorem OnlyNode.demote (h : OnlyNode n s) : OnlyNode n (demote s tile agent) := by
  fun_cases Machine.demote
  · exact h
  · exact .demoteNode h

theorem OnlyNode.demoteAddFor {node : Option Nat} {r : ReelAt} (h : OnlyNode n s) :
    OnlyNode n (demoteAddFor s node tile agent r) := by
  fun_cases Machine.demoteAddFor
  · exact h
  · exact .demoteNode h
  · exact h
  · exact .demoteNode h

theorem OnlyNode.addFor {node : Option Nat} {r : ReelAt} (h : OnlyNode n s) :
    addFor s node asid tile agent r v sc = .ok u → OnlyNode n u := by
  fun_cases Machine.addFor
  · exact nofun
  · intro e
    have h1 : OnlyNode n (Machine.reelTouch s asid r) := h.of_nodes reelTouch_nodes
    exact .of_nodes (.demoteAddFor h1) ((reelAdd_nodes e).trans release_nodes)

theorem OnlyNode.addBy {r : ReelAt} (h : OnlyNode n s) : addBy s tile agent r v sc = .ok u → OnlyNode n u :=
  OnlyNode.addFor h

theorem OnlyNode.engAdd {addr : Word} (h : OnlyNode n s) : engAdd s tile agent addr v sc = .ok u → OnlyNode n u :=
  engThen_elim fun r _ => by
    split
    · rintro ⟨⟩
      exact .addBy h ‹_›
    · exact nofun

theorem OnlyNode.addOrOwe {node : Option Nat} {addr : Word} {c : Nat} (h : OnlyNode n s) :
    addOrOwe s node asid tile agent addr v sc = (u, c) → OnlyNode n u := by
  fun_cases Machine.addOrOwe
  · exact fun | rfl => h
  · exact fun | rfl => h
  · exact fun | rfl => .addFor h ‹_›
  · exact fun | rfl => h

theorem OnlyNode.dnAdd {halt : Bool} {r : Run} (h : OnlyNode n s) : dnAdd halt s tile e r = .ok u → OnlyNode n u := by
  unfold Machine.dnAdd
  extract_lets a addr sc done
  split
  · split
    · rintro ⟨⟩
      exact .of_nodes (.addBy h ‹_›) mxRun_nodes
    · exact nofun
  · refine engThen_elim fun s1 hs1 => ?_
    rintro ⟨⟩
    refine .of_nodes (s := s1) ?_ mxRun_nodes
    unfold done at hs1
    split at hs1
    · split at hs1
      · cases hs1
        exact .addOrOwe h ‹_›
      · cases hs1
    · exact .engAdd h hs1

theorem OnlyNode.drainRest {k : Nat} (h : OnlyNode n s) : OnlyNode n (drainRest tile e agent k s) := by
  fun_induction Machine.drainRest
  · exact h
  · exact h
  · rename_i ih
    exact ih (.dnAdd h ‹_›)
  · exact h
  · exact h
  · exact h
  · exact h
  · next s1 _ e2 ih =>
    have h1 : OnlyNode n s1 := .ite (.of_nodes h mxRun_nodes) h
    exact ih (h1.of_nodes (dnRowEnd_nodes e2))
  · exact h

theorem OnlyNode.mxStop (h : OnlyNode n s) : OnlyNode n (mxStop s tile e) :=
  .of_nodes (s := _)
    (.foldl (.foldl h fun _ _ h => .of_nodes h landRest_nodes) fun _ _ h => .ite (.drainRest h) h) engMap_nodes

theorem OnlyNode.stopTile {mask : Nat} (h : OnlyNode n s) : OnlyNode n (stopTile cause mask s tile) := by
  unfold Machine.stopTile
  extract_lets c seq s1 s2 t
  have h2 : OnlyNode n s2 := .mxStop (.mxStop (.of_nodes h undoTile_nodes))
  exact h2.of_nodes (tilePut_nodes ..)

theorem OnlyNode.joinAdd (h : OnlyNode n s) : joinAdd s tile = .ok u → OnlyNode n u := by
  unfold Machine.joinAdd
  split
  · exact fun | rfl => h
  · split
    · exact fun | rfl => h
    · extract_lets addr
      refine engThen_elim fun r _ => ?_
      split
      · exact nofun
      · extract_lets s1
        have h1 : OnlyNode n s1 := .of_nodes (.demoteAddFor (.of_nodes h reelTouch_nodes)) coreSync_nodes
        split
        · rintro ⟨⟩
          exact h1.of_nodes (reelAdd_nodes ‹_›)
        · exact nofun

theorem OnlyNode.commitAct {a : Nat × CommitAct} (h : OnlyNode n s) : OnlyNode n (commitAct tile seq s a) := by
  fun_cases Machine.commitAct
  · exact h.of_nodes coreSync_nodes
  · exact h.of_nodes plainWrite_nodes
  · exact h
  · exact h.demote
  · exact .of_nodes (.ite (.of_nodes h agentPut_nodes) h) agentPut_nodes
  · exact .ite (.of_nodes h agentPut_nodes) h
  · exact h.of_nodes creelAdd_nodes
  · exact h
  · exact h.of_nodes leaseHeadGrant_nodes
  · exact h
  · exact h
  · exact h.of_nodes splitTile_nodes
  · exact h.of_nodes mergeTile_nodes
  · exact h.of_nodes arrive_nodes
  · exact h
  · exact h.of_nodes phasePass_nodes
  · exact h
  · exact h
  · exact h

theorem OnlyNode.slotActs {met : List SuspWait} {effs : List (Nat × Eff)} {late : Bool} {k : Nat} (h : OnlyNode n s) :
    OnlyNode n (slotActs tile b met effs late s k) := by
  unfold Machine.slotActs
  extract_lets s1 s2
  have h1 : OnlyNode n s1 := h.of_nodes (foldl_nodes fun _ _ => waitDone_nodes)
  have h2 : OnlyNode n s2 := .foldl h1 fun _ _ h => .commitAct h
  refine .foldl h2 fun s x h => ?_
  split
  · exact h.of_nodes (reelEff_nodes ‹_›)
  · exact h

theorem OnlyNode.commitEffects {met : List SuspWait} (h : OnlyNode n s) : OnlyNode n (commitEffects s tile b met) := by
  unfold Machine.commitEffects
  extract_lets effs s0 s1 s2 t r t' s3 s4 c popped
  have h0 : OnlyNode n s0 := .foldl h fun _ _ h => .slotActs h
  have h1 : OnlyNode n s1 := h0.of_nodes foldLog_nodes
  have h2 : OnlyNode n s2 := .foldl h1 fun _ _ h => .commitAct h
  have h3 : s3.nodes = s2.nodes := ite_nodes rfl rfl
  have h4 : s4.nodes = s3.nodes := ite_nodes rfl rfl
  exact h2.of_nodes (h4.trans h3)

theorem OnlyNode.endNow (h : OnlyNode n s) : OnlyNode n (endNow s tile seq) := by
  have h2 {k : Nat} : OnlyNode n (Machine.setOutstanding (Machine.leaveCore s tile seq) tile k) :=
    h.of_nodes (setOutstanding_nodes.trans leaveCore_nodes)
  fun_cases Machine.endNow
  · exact h2
  · exact h2.nodePut ‹_›
  · exact h2
  · exact h2

theorem OnlyNode.commitGo {again : Bool} (h : OnlyNode n s) : OnlyNode n (commitGo s tile again b) := by
  unfold Machine.commitGo
  extract_lets met s1
  have h1 : OnlyNode n s1 := .commitEffects h
  split
  · split
    · exact .endNow (h1.joinAdd ‹_›)
    · exact h
  · split
    · exact h1
    · cases e : Machine.suspendAct s1 tile b with
      | none => exact h1
      | some s2 => exact h1.of_nodes (suspendAct_nodes e)
    · exact h1.of_nodes (parkOn_nodes.trans leaveCore_nodes)

theorem OnlyNode.commitBundle {again : Bool} (h : OnlyNode n s) : OnlyNode n (commitBundle again tile s) := by
  fun_cases Machine.commitBundle
  · exact h
  · exact h
  · exact h.of_nodes engAsk_nodes
  · exact h.of_nodes (foldl_nodes fun _ _ => rfl)
  · exact h
  · exact h
  · exact h
  · exact h.commitGo

theorem OnlyNode.settle (h : OnlyNode n s) : OnlyNode n (settle s tile) := by
  unfold Machine.settle
  extract_lets mates
  have hmates {s} : (mates s).nodes = s.nodes := by
    unfold mates
    extract_lets c
    split
    · exact ite_nodes rfl rfl
    · rfl
  exact .foldl h fun _ _ h => .commitBundle (h.of_nodes hmates)

/-- A stop that no agent of the node asks for leaves the one node stopped, with its cause (18 R421). -/
theorem OnlyNode.stopWide_noAgent {x : Trap} (h : OnlyNode n s) :
    ∃ nd, (stopWide s n noAgent x).nodes = [(n, nd)] ∧ nd.st = .stopped := by
  obtain ⟨nd, hnd⟩ := h.found
  simp only [stopWide, hnd, if_true]
  generalize e : nd.tiles.foldl _ (nodeNote _ n x) = s3
  have h3 : OnlyNode n s3 := by
    subst e
    refine .foldl (.of_nodes (.foldl h fun _ _ h => ?_) nodeNote_nodes) fun _ _ h => ?_
    · exact .ite h h.settle
    · exact .ite h h.stopTile
  obtain ⟨y, hy⟩ := h3
  exact ⟨{ y with st := .stopped, lastCause := x.cause, saving := none }, by simp [nodeGet?, hy, mapGet?, mapPut]⟩

/-! ## Rules for tables and for folds over them -/

/-- Replacing every entry by one under its own key. -/
theorem mapGet?_map_entries {β : Type} (m : NMap α) (f : Nat × α → β) (i : Nat) :
    mapGet? (m.map fun e => (e.1, f e)) i = (mapGet? m i).map fun x => f (i, x) := by
  induction m with
  | nil => rfl
  | cons e m ih =>
    obtain ⟨k, x⟩ := e
    by_cases hk : k = i
    · simp [mapGet?, hk]
    · simp [mapGet?, hk, ih]

/-- A table made from keys, each with the entry that a function gives it. -/
theorem mapGet?_filterMap_keys (f : Nat → Option α) (l : List Nat) (i : Nat) :
    mapGet? (l.filterMap fun k => (f k).map fun x => (k, x)) i = if i ∈ l then f i else none := by
  induction l with
  | nil => rfl
  | cons k l ih =>
    by_cases hk : k = i
    · subst hk
      cases hf : f k <;> simp [hf, mapGet?, ih]
    · cases hf : f k <;> simp [hf, mapGet?, hk, Ne.symm hk, ih]

theorem mem_keys_mapPut (m : NMap α) (i k : Nat) (x : α) : k ∈ (mapPut m i x).map (·.1) ↔ k = i ∨ k ∈ m.map (·.1) := by
  induction m with
  | nil => simp [mapPut]
  | cons e m ih =>
    obtain ⟨j, y⟩ := e
    simp only [mapPut]
    split
    · simp
    · split
      · rename_i hij
        simp [hij]
      · simp only [List.map_cons, List.mem_cons, ih]
        tauto

/-- A fold whose steps all leave the state does nothing. -/
theorem foldl_eq_self {f : State → α → State} {l : List α} (h : ∀ x ∈ l, f s x = s) : l.foldl f s = s := by
  induction l with
  | nil => rfl
  | cons x l ih =>
    rw [List.foldl_cons, h x List.mem_cons_self]
    exact ih fun y hy => h y (List.mem_cons_of_mem x hy)

/-- A fold reaches what its step at a listed key brings about and its steps at other keys leave alone; before it, `p` holds. -/
theorem foldl_reaches {p q : State → Prop} {f : State → Nat → State} {i : Nat} {l : List Nat} (hi : i ∈ l)
    (hqp : ∀ s, q s → p s) (hat : ∀ s, p s → q (f s i)) (hp : ∀ s k, k ≠ i → p s → p (f s k))
    (hq : ∀ s k, k ≠ i → q s → q (f s k)) (h : p s) : q (l.foldl f s) := by
  have keeps {s : State} {l : List Nat} (h : q s) : q (l.foldl f s) := by
    refine foldl_keeps h fun s k h => ?_
    by_cases hk : k = i
    · subst hk
      exact hat s (hqp s h)
    · exact hq s k hk h
  induction l generalizing s with
  | nil => exact absurd hi List.not_mem_nil
  | cons k l ih =>
    by_cases hk : k = i
    · subst hk
      exact keeps (l := l) (hat s h)
    · have hl : i ∈ l := by simpa [Ne.symm hk] using hi
      exact ih hl (hp s k hk h)

/-! ## Package reset (20 R461, R462) -/

theorem natBit_eq_testBit (n i : Nat) : natBit n i = n.testBit i := by
  rw [natBit, Nat.testBit_eq_decide_div_mod_eq]
  rfl

theorem natBit_toNat {w : Nat} (x : BitVec w) (i : Nat) : natBit x.toNat i = x.getLsbD i := by
  rw [natBit_eq_testBit, BitVec.testBit_toNat]

/-- A die after package reset has its place from the fuses and nothing else from before (01 R12). -/
theorem dieGet_packageReset (cfail pfail ports d : Nat) :
    dieGet (packageReset cfail pfail ports s) d = { dieReset d with phys := (dieGet s d).phys } := by
  simp only [dieGet, packageReset, mapGet, mapGet?_map_entries]
  cases mapGet? s.dies d <;> rfl

/-- The tile that flash gives a voltage at 1.2 GHz, if it does (01 R19). -/
def tileAtReset? (s : State) (n : Nat) : Option Tile :=
  if flashOf s n 0 = ⟨false, false, 0, 0, 0, 0, 0, 0, 0⟩ then none else some { tileReset with gov := govAtReset (flashOf s n 0) }

theorem tilesAtReset_eq (s : State) :
    tilesAtReset s = (List.range 256).filterMap fun n => (tileAtReset? s n).map fun t => (n, t) := by
  unfold tilesAtReset tileAtReset?
  congr 1
  funext n
  dsimp only
  split <;> rfl

/-- A tile that flash gives a voltage stands at the full guard band after package reset (01 R19). -/
theorem tilesAtReset_v {n : Nat} (hn : n < 256) (he : flashOf s n 0 ≠ ⟨false, false, 0, 0, 0, 0, 0, 0, 0⟩) :
    (mapGet (tilesAtReset s) n tileReset).gov.v = trimUp (flashOf s n 0).safe := by
  rw [mapGet, tilesAtReset_eq, mapGet?_filterMap_keys, if_pos (List.mem_range.mpr hn), tileAtReset?, if_neg he]
  rfl

/-- The boot word after package reset has a bit for each compute die's firmware that verified and one for each port die's
(20 R462, R464). -/
theorem bootBits_packageReset (cfail : BitVec 9) (pfail : BitVec 4) :
    let bits := (packageReset cfail.toNat pfail.toNat e s).mgmt.bootBits
    (∀ p < 9, bits.getLsbD (15 + p) = !cfail.getLsbD p) ∧ (∀ p < 4, bits.getLsbD (11 + p) = !pfail.getLsbD p) := by
  have hc := cfail.isLt
  have hq := pfail.isLt
  have hlow : 2 ^ 4 - (pfail.toNat + 1) < 2 ^ 4 := by omega
  have hbits : (packageReset cfail.toNat pfail.toNat e s).mgmt.bootBits =
      BitVec.ofNat 64 (2 ^ 11 * (2 ^ 4 * (2 ^ 9 - (cfail.toNat + 1)) + (2 ^ 4 - (pfail.toNat + 1)))) := by
    show BitVec.ofNat 64 _ = _
    congr 1
    omega
  intro bits
  constructor
  · intro p hp
    show BitVec.getLsbD (packageReset cfail.toNat pfail.toNat e s).mgmt.bootBits _ = _
    rw [hbits, BitVec.getLsbD_ofNat, Nat.testBit_two_pow_mul, Nat.testBit_two_pow_mul_add _ hlow]
    rw [if_neg (by omega), show 15 + p - 11 - 4 = p by omega, Nat.testBit_two_pow_sub_succ hc]
    simp [hp, show 15 + p < 64 by omega, show 11 ≤ 15 + p by omega, BitVec.testBit_toNat]
  · intro p hp
    show BitVec.getLsbD (packageReset cfail.toNat pfail.toNat e s).mgmt.bootBits _ = _
    rw [hbits, BitVec.getLsbD_ofNat, Nat.testBit_two_pow_mul, Nat.testBit_two_pow_mul_add _ hlow]
    rw [if_pos (by omega), show 11 + p - 11 = p by omega, Nat.testBit_two_pow_sub_succ hq]
    simp [hp, show 11 + p < 64 by omega, BitVec.testBit_toNat]

theorem mem_portsLost_packageReset (cfail ports : Nat) (pfail : BitVec 4) {p : Nat} (hp : p < 4) :
    p ∈ (packageReset cfail pfail.toNat ports s).portsLost ↔ pfail.getLsbD p = true := by
  simp [packageReset, hp, natBit_toNat]

/-- A host's block after package reset is as after reset, but for a port without a link (20 R447, R462). -/
theorem hostGet_packageReset (cfail pfail : Nat) (ports : BitVec 2) {h : Nat} (hh : h < 2) :
    let u := packageReset cfail pfail ports.toNat s
    ∃ gone, hostGet u h = { hostReset with gone } ∧ (gone = true ↔ ports.getLsbD h = false ∨ 3 * h ∈ u.portsLost) := by
  intro u
  refine ⟨portOut u.portsLost ports.toNat h, ?_, by simp [portOut, natBit_toNat]⟩
  obtain rfl | rfl : h = 0 ∨ h = 1 := by omega
  · rfl
  · rfl

/-! ## Links, tables and ports at bring-up (20 R461 to R463) -/

/-- A state that differs from another in its dies alone. -/
def DiesOnly (s u : State) : Prop := ∃ dies, u = { s with dies }

theorem DiesOnly.links (h : DiesOnly s u) : u.links = s.links := by
  obtain ⟨dies, rfl⟩ := h
  rfl

theorem DiesOnly.diePut {d : Nat} {x : Die} (h : DiesOnly s u) : DiesOnly s (diePut u d x) := by
  obtain ⟨dies, rfl⟩ := h
  exact ⟨_, rfl⟩

/-- The place that the fused remap gives a die, and its loss where bring-up failed (01 R12; 20 R461). -/
def remapDie (s : State) (d : Nat) : State := diePut s d { dieGet s d with lost := bootLost s d || (dieGet s d).lost }

theorem remapApply_eq (s : State) : remapApply s =
    let s1 := (List.range 8).foldl remapDie s
    { s1 with mgmt := { s1.mgmt with bootPhase := 3 } } := by
  have hf : (fun s d => if bootLost s d then diePut s d { dieGet s d with lost := true } else diePut s d (dieGet s d)) =
      remapDie := by
    funext s d
    unfold remapDie
    cases bootLost s d <;> rfl
  unfold remapApply
  rw [hf]

theorem DiesOnly.remapDie {d : Nat} (h : DiesOnly s u) : DiesOnly s (remapDie u d) :=
  h.diePut

theorem foldl_remapDie_diesOnly (s : State) : DiesOnly s ((List.range 8).foldl remapDie s) :=
  foldl_keeps (p := DiesOnly s) ⟨s.dies, rfl⟩ fun _ _ h => h.remapDie

/-- What bring-up asks of a die rests on its place and on nothing else of the dies (20 R463). -/
theorem bootLost_of_diesOnly {d : Nat} (h : DiesOnly s u) (hp : (dieGet u d).phys = (dieGet s d).phys) :
    bootLost u d = bootLost s d := by
  obtain ⟨dies, rfl⟩ := h
  simp only [bootLost, hp]
  rfl

/-- Every die keeps its place under the remap, and is lost if it failed or was lost before (20 R461). -/
theorem dieGet_foldl_remapDie {d : Nat} (hd : d < 8) :
    let x := dieGet ((List.range 8).foldl remapDie s) d
    x.lost = (bootLost s d || (dieGet s d).lost) ∧ x.phys = (dieGet s d).phys := by
  let p (u : State) : Prop := DiesOnly s u ∧ (dieGet u d).phys = (dieGet s d).phys ∧
    (bootLost s d || (dieGet u d).lost) = (bootLost s d || (dieGet s d).lost)
  let q (u : State) : Prop := p u ∧ (dieGet u d).lost = (bootLost s d || (dieGet s d).lost)
  have hother {u : State} {k : Nat} (hk : k ≠ d) : dieGet (remapDie u k) d = dieGet u d :=
    dieGet_diePut_other u _ (Ne.symm hk)
  have hq : q ((List.range 8).foldl remapDie s) := by
    refine foldl_reaches (p := p) (q := q) (List.mem_range.mpr hd) (fun u h => h.1) ?_ ?_ ?_ ⟨⟨s.dies, rfl⟩, rfl, rfl⟩
    · rintro u ⟨hs, hphys, hlost⟩
      have hat : dieGet (remapDie u d) d = { dieGet u d with lost := bootLost s d || (dieGet u d).lost } := by
        simp [remapDie, bootLost_of_diesOnly hs hphys]
      simp only [q, p, hat, ← Bool.or_assoc, Bool.or_self, hlost]
      exact ⟨⟨hs.remapDie, hphys, trivial⟩, trivial⟩
    · rintro u k hk ⟨hs, h⟩
      exact ⟨hs.remapDie, by rwa [hother hk]⟩
    · rintro u k hk ⟨⟨hs, h⟩, hl⟩
      exact ⟨⟨hs.remapDie, by rwa [hother hk]⟩, by rwa [hother hk]⟩
  exact ⟨hq.2, hq.1.2.1⟩

/-- A state that differs from another in its tiles alone. -/
def TilesOnly (s u : State) : Prop := ∃ tiles, u = { s with tiles }

theorem TilesOnly.refl (s : State) : TilesOnly s s := ⟨s.tiles, rfl⟩

theorem TilesOnly.hosts (h : TilesOnly s u) : u.hosts = s.hosts := by
  obtain ⟨tiles, rfl⟩ := h
  rfl

theorem TilesOnly.freqTarget (h : TilesOnly s u) : u.freqTarget = s.freqTarget := by
  obtain ⟨tiles, rfl⟩ := h
  rfl

theorem TilesOnly.freqBusy (h : TilesOnly s u) : u.freqBusy = s.freqBusy := by
  obtain ⟨tiles, rfl⟩ := h
  rfl

theorem TilesOnly.tilePut {k : Nat} (h : TilesOnly s u) : TilesOnly s (tilePut u k t) := by
  obtain ⟨tiles, rfl⟩ := h
  exact ⟨_, rfl⟩

theorem TilesOnly.govMap {k : Nat} {f : Governor → Governor} (h : TilesOnly s u) : TilesOnly s (govMap u k f) :=
  h.tilePut

theorem TilesOnly.setVolt {k x : Nat} (h : TilesOnly s u) : TilesOnly s (setVolt u k x) :=
  h.tilePut

theorem TilesOnly.moveVolts {point : Nat} (h : TilesOnly s u) : TilesOnly s (moveVolts u point) :=
  foldl_keeps (p := TilesOnly s) h fun _ _ h => h.setVolt.govMap

theorem TilesOnly.tileLoaded {k : Nat} (h : TilesOnly s u) : TilesOnly s (tileLoaded u k) := by
  fun_cases Machine.tileLoaded
  · exact h
  · exact h.tilePut

theorem TilesOnly.pinApply {k : Nat} (h : TilesOnly s u) : TilesOnly s (pinApply u k) := by
  unfold Machine.pinApply
  extract_lets g s1 t
  split
  · refine TilesOnly.tilePut ?_
    unfold s1
    split
    · exact h
    · exact h.govMap.setVolt
  · exact h

/-- A frequency change that begins has its target and is busy; beyond that it moves voltages (01 R18). -/
theorem freqBegin_tilesOnly (s : State) (point : Nat) :
    TilesOnly { s with freqTarget := point, freqFrom := s.point, freqBusy := true } (freqBegin s point) := by
  fun_cases freqBegin
  · exact (TilesOnly.refl _).moveVolts
  · exact .refl _

theorem freqBegin_hosts (s : State) (point : Nat) : (freqBegin s point).hosts = s.hosts :=
  (freqBegin_tilesOnly s point).hosts

theorem foldl_tileLoaded_hosts (l : List Nat) : (l.foldl tileLoaded s).hosts = s.hosts :=
  (foldl_keeps (p := TilesOnly s) (.refl s) fun _ _ h => h.tileLoaded).hosts

/-- The load of the tables ends bring-up: the change to flash's point has begun, the ports present their functions, and the
management host is settled (01 R19; 20 R447, R448, R461). -/
theorem tableLoad_ready (h3 : s.mgmt.bootPhase = 3) :
    let u := tableLoad s
    u.mgmt.bootPhase = 5 ∧ u.freqTarget = s.flashPoint ∧ u.freqBusy = true ∧
      (∀ h < 2, (hostGet u h).linkUp = !(hostGet s h).gone) ∧
      u.mgmt.mgmtHost = (if (hostGet s (s.flashMgmt % 2)).gone = true ∧ (hostGet s (1 - s.flashMgmt % 2)).gone = false
        then 1 - s.flashMgmt % 2 else s.flashMgmt % 2) := by
  intro u
  have h2 := freqBegin_tilesOnly ((List.range 256).foldl tileLoaded s) s.flashPoint
  have hget (k : Nat) : hostGet (freqBegin ((List.range 256).foldl tileLoaded s) s.flashPoint) k = hostGet s k := by
    rw [hostGet, freqBegin_hosts, foldl_tileLoaded_hosts, hostGet]
  have hu : u = _ := if_neg (not_not.mpr h3)
  simp only [hget] at hu
  rw [hu]
  refine ⟨rfl, h2.freqTarget, h2.freqBusy, fun h hh => ?_, by simp⟩
  obtain rfl | rfl : h = 0 ∨ h = 1 := by omega
  · rfl
  · rfl

/-! ## The restart of the clocks after a frequency change (01 R18) -/

@[simp] theorem tileGet_govMap_same (s : State) (k : Nat) (f : Governor → Governor) :
    tileGet (govMap s k f) k = { tileGet s k with gov := f (tileGet s k).gov } := by
  simp [govMap]

@[simp] theorem tileGet_govMap_other (s : State) {k j : Nat} (f : Governor → Governor) (h : j ≠ k) :
    tileGet (govMap s k f) j = tileGet s j := by
  simp [govMap, h]

@[simp] theorem tileGet_setVolt_other (s : State) {k j : Nat} (x : Nat) (h : j ≠ k) :
    tileGet (setVolt s k x) j = tileGet s j := by
  simp [setVolt, h]

theorem mem_keys_govMap {j k : Nat} {f : Governor → Governor} (h : k ∈ s.tiles.map (·.1)) :
    k ∈ (govMap s j f).tiles.map (·.1) :=
  (mem_keys_mapPut _ _ _ _).mpr (.inr h)

/-- The voltage of a tile moves to the one that the table gives it at a point, and a burst's raise ends with that (01 R18). -/
theorem gov_moved (s : State) (k x : Nat) :
    let y := tileGet (govMap (setVolt s k x) k fun g => { g with boost := 0 }) k
    let g := (tileGet s k).gov
    y.core = (tileGet s k).core ∧ y.gov.ctl = g.ctl ∧ y.gov.floor = g.floor ∧ y.gov.p = g.p ∧ y.gov.v = x ∧ y.gov.boost = 0 := by
  simp [setVolt]

/-- A tile whose pinned values are put in force keeps its core, its control word and its floor (19 R443). -/
theorem tileGet_pinApply_same (s : State) (k : Nat) :
    (tileGet (pinApply s k) k).core = (tileGet s k).core ∧ (tileGet (pinApply s k) k).gov.ctl = (tileGet s k).gov.ctl ∧
      (tileGet (pinApply s k) k).gov.floor = (tileGet s k).gov.floor := by
  unfold pinApply
  extract_lets g s1 t
  have h1 : (tileGet s1 k).core = (tileGet s k).core ∧ (tileGet s1 k).gov.ctl = g.ctl ∧ (tileGet s1 k).gov.floor = g.floor := by
    unfold s1
    split
    · exact ⟨rfl, rfl, rfl⟩
    · simp [setVolt, g]
  split
  · simpa using h1
  · exact ⟨rfl, rfl, rfl⟩

theorem tileGet_pinApply_other (s : State) {j k : Nat} (h : k ≠ j) : tileGet (pinApply s j) k = tileGet s k := by
  unfold pinApply
  extract_lets g s1 t
  have h1 : tileGet s1 k = tileGet s k := by
    unfold s1
    split
    · rfl
    · simp [h]
  split
  · simpa [h] using h1
  · rfl

theorem pinApply_of_not_pinned {k : Nat} (h : pinned (tileGet s k).gov = false) : pinApply s k = s := by
  simp [pinApply, h]

/-- The table voltage rests on flash, the dies and the time (19 R438, R440). -/
theorem tableVolt_of_tilesOnly (h : TilesOnly s u) (k point : Nat) : tableVolt u k point = tableVolt s k point := by
  obtain ⟨tiles, rfl⟩ := h
  rfl

/-- A tile at the point in force: its core and its control word are as they were, its floor is that of the point, and if it is
not pinned its profile is within that of the point (01 R18; 19 R440, R442). -/
structure AtPoint (s : State) (k : Nat) (x : Tile) : Prop where
  core : x.core = (tileGet s k).core
  ctl : x.gov.ctl = (tileGet s k).gov.ctl
  floor : x.gov.floor = entFloor (flashOf s k s.point)
  p : pinned (tileGet s k).gov = false → x.gov.p ≤ pMax s

theorem pinned_of_ctl {g g' : Governor} (h : g.ctl = g'.ctl) : pinned g = pinned g' := by
  simp only [pinned, h]

/-- Every listed tile comes to the point in force, and keeps its voltage. -/
theorem foldl_govAtPoint {l : List Nat} {k : Nat} (hk : k ∈ l) :
    let u := l.foldl (fun s k => govMap s k (govAtPoint s k)) s
    TilesOnly s u ∧ AtPoint s k (tileGet u k) ∧ (tileGet u k).gov.v = (tileGet s k).gov.v := by
  let p (u : State) : Prop := TilesOnly s u ∧ (tileGet u k).core = (tileGet s k).core ∧
    (tileGet u k).gov.ctl = (tileGet s k).gov.ctl ∧ (tileGet u k).gov.v = (tileGet s k).gov.v
  refine foldl_reaches (p := p)
    (q := fun u => TilesOnly s u ∧ AtPoint s k (tileGet u k) ∧ (tileGet u k).gov.v = (tileGet s k).gov.v) hk ?_ ?_ ?_ ?_
    ⟨.refl s, rfl, rfl, rfl⟩
  · exact fun u ⟨hs, hx, hv⟩ => ⟨hs, hx.core, hx.ctl, hv⟩
  · rintro u ⟨hs, hcore, hctl, hv⟩
    refine ⟨hs.govMap, ?_, by rw [tileGet_govMap_same]; exact hv⟩
    rw [tileGet_govMap_same]
    refine ⟨hcore, hctl, ?_, fun hpin => ?_⟩
    · obtain ⟨tiles, rfl⟩ := hs
      rfl
    · have hu : pinned (tileGet u k).gov = false := (pinned_of_ctl hctl).trans hpin
      obtain ⟨tiles, rfl⟩ := hs
      simp only [govAtPoint, hu]
      exact min_le_right _ _
  · rintro u j hj ⟨hs, hx⟩
    exact ⟨hs.govMap, by rwa [tileGet_govMap_other _ _ (Ne.symm hj)]⟩
  · rintro u j hj ⟨hs, hx⟩
    exact ⟨hs.govMap, by rwa [tileGet_govMap_other _ _ (Ne.symm hj)]⟩

/-- Every tile in use moves to the table voltage, and stays otherwise at the point in force. -/
theorem moveVolts_atPoint {k point : Nat} (hs : TilesOnly s u) (hk : k ∈ u.tiles.map (·.1)) (hx : AtPoint s k (tileGet u k)) :
    let w := moveVolts u point
    AtPoint s k (tileGet w k) ∧ (tileGet w k).gov.v = tableVolt s k point ∧ (tileGet w k).gov.boost = 0 := by
  let q (w : State) : Prop := TilesOnly s w ∧ AtPoint s k (tileGet w k) ∧ (tileGet w k).gov.v = tableVolt s k point ∧
    (tileGet w k).gov.boost = 0
  have hother {w : State} {j x : Nat} (hj : j ≠ k) :
      tileGet (govMap (setVolt w j x) j fun g => { g with boost := 0 }) k = tileGet w k := by
    rw [tileGet_govMap_other _ _ (Ne.symm hj), tileGet_setVolt_other _ _ (Ne.symm hj)]
  have hq : q (moveVolts u point) := by
    refine foldl_reaches (p := fun w => TilesOnly s w ∧ AtPoint s k (tileGet w k)) (q := q) hk ?_ ?_ ?_ ?_ ⟨hs, hx⟩
    · exact fun w h => ⟨h.1, h.2.1⟩
    · rintro w ⟨hs, hx⟩
      obtain ⟨hcore, hctl, hfloor, hp, hv, hboost⟩ := gov_moved w k (tableVolt w k point)
      exact ⟨hs.setVolt.govMap, ⟨hcore.trans hx.core, hctl.trans hx.ctl, hfloor.trans hx.floor, fun h => hp ▸ hx.p h⟩,
        hv.trans (tableVolt_of_tilesOnly hs k point), hboost⟩
    · rintro w j hj ⟨hs, hx⟩
      exact ⟨hs.setVolt.govMap, by rwa [hother hj]⟩
    · rintro w j hj ⟨hs, hx⟩
      exact ⟨hs.setVolt.govMap, by rwa [hother hj]⟩
  exact hq.2

/-- The pinned values that are put in force last leave every tile at the point, and an unpinned one alone (19 R443). -/
theorem foldl_pinApply_atPoint {l : List Nat} {k : Nat} (hx : AtPoint s k (tileGet u k)) :
    let w := l.foldl pinApply u
    AtPoint s k (tileGet w k) ∧ (pinned (tileGet s k).gov = false → tileGet w k = tileGet u k) := by
  refine foldl_keeps (p := fun w => AtPoint s k (tileGet w k) ∧ (pinned (tileGet s k).gov = false → tileGet w k = tileGet u k))
    ⟨hx, fun _ => rfl⟩ ?_
  rintro w j ⟨hx, hsame⟩
  by_cases hj : k = j
  · subst hj
    cases hpin : pinned (tileGet s k).gov
    · rw [pinApply_of_not_pinned ((pinned_of_ctl hx.ctl).trans hpin)]
      exact ⟨hx, fun _ => hsame hpin⟩
    · obtain ⟨hcore, hctl, hfloor⟩ := tileGet_pinApply_same w k
      exact ⟨⟨hcore.trans hx.core, hctl.trans hx.ctl, hfloor.trans hx.floor, fun h => by simp [hpin] at h⟩, nofun⟩
  · rw [tileGet_pinApply_other w hj]
    exact ⟨hx, hsame⟩

/-- The clocks restart: every tile is at the point in force; on a fall of the frequency the unpinned ones have the voltage of the
table, and otherwise the one that they had (01 R18; 20 R448). -/
theorem freqRestart_done (hbusy : s.freqBusy = true) (hstop : s.clockStop = true) (hhalt : s.mgmt.halted = false) :
    let u := freqRestart s
    TilesOnly { s with clockStop := false, freqBusy := false } u ∧ ∀ k x, (k, x) ∈ s.tiles →
      AtPoint s k (tileGet u k) ∧ (pinned (tileGet s k).gov = false →
        (s.point < s.freqFrom → (tileGet u k).gov.v = tableVolt s k s.point ∧ (tileGet u k).gov.boost = 0) ∧
        (s.freqFrom ≤ s.point → (tileGet u k).gov.v = (tileGet s k).gov.v)) := by
  let s1 : State := { s with clockStop := false, freqBusy := false }
  let s2 := (s1.tiles.map (·.1)).foldl (fun s k => govMap s k (govAtPoint s k)) s1
  let s3 := if s.point < s.freqFrom then moveVolts s2 s.point else s2
  have hu : freqRestart s = (s3.tiles.map (·.1)).foldl pinApply s3 := by
    simp only [freqRestart, hbusy, hstop, hhalt]
    rfl
  rw [hu]
  have hs2 : TilesOnly s1 s2 := foldl_keeps (p := TilesOnly s1) (.refl s1) fun _ _ h => h.govMap
  have hs3 : TilesOnly s1 s3 := by
    unfold s3
    split
    · exact hs2.moveVolts
    · exact hs2
  refine ⟨foldl_keeps (p := TilesOnly s1) hs3 fun _ _ h => h.pinApply, fun k x hk => ?_⟩
  have hkey : k ∈ s1.tiles.map (·.1) := List.mem_map_of_mem hk
  have hkey2 : k ∈ s2.tiles.map (·.1) :=
    foldl_keeps (p := fun u : State => k ∈ u.tiles.map (·.1)) hkey fun _ _ h => mem_keys_govMap h
  obtain ⟨-, hat2, hv2⟩ := foldl_govAtPoint (s := s1) hkey
  obtain ⟨hat3, hv3⟩ : AtPoint s1 k (tileGet s3 k) ∧
      ((s.point < s.freqFrom → (tileGet s3 k).gov.v = tableVolt s1 k s.point ∧ (tileGet s3 k).gov.boost = 0) ∧
        (s.freqFrom ≤ s.point → (tileGet s3 k).gov.v = (tileGet s1 k).gov.v)) := by
    unfold s3
    by_cases hfall : s.point < s.freqFrom
    · simp only [if_pos hfall]
      obtain ⟨hat, hv⟩ := moveVolts_atPoint (point := s.point) hs2 hkey2 hat2
      exact ⟨hat, fun _ => hv, fun h => absurd hfall (by omega)⟩
    · simp only [if_neg hfall]
      exact ⟨hat2, fun h => absurd h hfall, fun _ => hv2⟩
  obtain ⟨hat, hsame⟩ := foldl_pinApply_atPoint (l := s3.tiles.map (·.1)) hat3
  refine ⟨⟨hat.core, hat.ctl, hat.floor, hat.p⟩, fun hpin => ?_⟩
  rw [hsame hpin]
  exact hv3

/-! ## A security alarm (20 R466, R467) -/

theorem securityAlarm_eq (src : BitVec 2) : ∃ sets, securityAlarm src.toNat s = { s with
    sets, msix := s.msix ++ [(s.mgmt.mgmtHost, 16)], clockStop := s.clockStop || decide (s.mgmt.alarmCtl.toNat % 4 ≠ 0),
    mgmt := { s.mgmt with
      alarmSrc := s.mgmt.alarmSrc ||| 2 ^ src.toNat, alarmCount := min 65535 (s.mgmt.alarmCount + 1),
      halted := s.mgmt.halted || decide (s.mgmt.alarmCtl.toNat % 4 ≠ 0),
      zeroised := s.mgmt.zeroised || decide (2 ≤ s.mgmt.alarmCtl.toNat % 4) } } := by
  unfold securityAlarm
  rw [Nat.mod_eq_of_lt src.isLt]
  dsimp only
  split
  · exact ⟨_, rfl⟩
  · exact ⟨_, rfl⟩

/-! ## A lost compute die (18 R421) -/

/-- A node that a retest of the candidates leaves alone: it neither waits for its placement nor is pre-empted (02 R45). -/
def Seated (nd : Node) : Prop :=
  nd.st ≠ .queued ∧ nd.st ≠ .blocked ∧ nd.st ≠ .eligible ∧ nd.st ≠ .held ∧ nd.st ≠ .preempted

theorem drrRest_hosts (s : State) : ∃ hosts, drrRest s = { s with hosts } := by
  have hclear (u : State) (level : Nat) (hu : ∃ hosts, u = { s with hosts }) : ∃ hosts, drrClear u level = { s with hosts } := by
    refine foldl_keeps (p := fun u => ∃ hosts, u = { s with hosts }) hu ?_
    rintro u h ⟨hosts, rfl⟩
    split
    · exact ⟨_, rfl⟩
    · exact ⟨_, rfl⟩
  exact foldl_keeps (p := fun u => ∃ hosts, u = { s with hosts }) ⟨s.hosts, rfl⟩ hclear

/-- A retest with no candidate but nodes that are seated only counts the deficits anew (02 R40, R45). -/
theorem retest_of_seated (h : ∀ x ∈ s.nodes, Seated x.2) : retest s = drrRest s := by
  unfold retest
  rw [foldl_eq_self]
  intro x hx
  obtain ⟨hq, hb, he, hh, hp⟩ := h x hx
  dsimp only
  split
  · rfl
  · split
    · exact absurd ‹_› hq
    · exact absurd ‹_› hb
    · exact absurd ‹_› he
    · exact absurd ‹_› hh
    · exact absurd ‹_› hp
    · rfl

/-- A die's part in the package ends: its dirty granules are lost at home, and its caches and walks are gone (18 R421). -/
def dieTaken (s : State) (d : Nat) : State :=
  let x := dieGet s d
  diePut { s with lostGran := s.lostGran ++ x.dirty.filter fun g => !s.lostGran.contains g } d
    { x with lost := true, tlb2 := [], walks := [], missQ := [], cached := [], dirty := [] }

/-- Every node is struck by a lost die, in the order of the list. -/
def nodesStruck (s : State) (d : Nat) : State := s.nodes.foldl (fun s y => dieStrikes s y.1 d y.2) s

/-- What the tiles have under way towards a lost die is dropped. -/
def requestsDropped (s : State) (d : Nat) : State :=
  { s with tiles := s.tiles.map fun t => (t.1, { t.2 with core := reqsLost d t.1 t.2.core }) }

/-- What the loss of a die comes to where the nodes are seated once they are struck: beside the retest's deficits, three acts. -/
theorem loseDie_of_seated {d : Nat} (hlost : (dieGet s d).lost = false)
    (h : ∀ x ∈ (nodesStruck (dieTaken s d) d).nodes, Seated x.2) :
    ∃ hosts, loseDie d s = { requestsDropped (nodesStruck (dieTaken s d) d) d with hosts } := by
  have heq : loseDie d s = retest (requestsDropped (nodesStruck (dieTaken s d) d) d) := by
    unfold loseDie
    rw [if_neg (by simp [hlost])]
    rfl
  rw [heq, retest_of_seated (s := requestsDropped _ d) h]
  exact drrRest_hosts _

theorem dieStrikes_untouched {d : Nat} (h : natBit (mapGet s.touched (nodeAsid nd) 0) d = false) : dieStrikes s n d nd = s := by
  simp [dieStrikes, h]

theorem nodesStruck_untouched {d : Nat} (h : ∀ x ∈ s.nodes, natBit (mapGet s.touched (nodeAsid x.2) 0) d = false) :
    nodesStruck s d = s :=
  foldl_eq_self fun x hx => dieStrikes_untouched (h x hx)

/-- Where it touched no node, and none waits, the loss of a die is the die's own (18 R421). -/
theorem loseDie_untouched {d : Nat} (hlost : (dieGet s d).lost = false)
    (h : ∀ x ∈ s.nodes, natBit (mapGet s.touched (nodeAsid x.2) 0) d = false ∧ Seated x.2) :
    let u := loseDie d s
    (dieGet u d).lost = true ∧ (dieGet u d).tlb2 = [] ∧ (dieGet u d).cached = [] ∧
      (∀ g ∈ (dieGet s d).dirty, g ∈ u.lostGran) ∧ u.nodes = s.nodes ∧ u.mem = s.mem := by
  have hstruck : nodesStruck (dieTaken s d) d = dieTaken s d := nodesStruck_untouched fun x hx => (h x hx).1
  obtain ⟨hosts, hu⟩ := loseDie_of_seated hlost (by rw [hstruck]; exact fun x hx => (h x hx).2)
  rw [hstruck] at hu
  have hdie : dieGet (loseDie d s) d =
      { dieGet s d with lost := true, tlb2 := [], walks := [], missQ := [], cached := [], dirty := [] } := by
    rw [hu]
    exact dieGet_diePut_same ..
  refine ⟨by rw [hdie], by rw [hdie], by rw [hdie], fun g hg => ?_, by rw [hu]; rfl, by rw [hu]; rfl⟩
  rw [hu]
  show g ∈ s.lostGran ++ (dieGet s d).dirty.filter fun g => !s.lostGran.contains g
  by_cases hold : g ∈ s.lostGran
  · exact List.mem_append_left _ hold
  · exact List.mem_append_right _ (List.mem_filter.mpr ⟨hg, by simpa using hold⟩)

/-- The one node of a package that touched a lost die: the loss leaves what its strike leaves, if that is seated. -/
theorem nodes_loseDie_single {d : Nat} {nd' : Node} (hlost : (dieGet s d).lost = false) (hn : s.nodes = [(n, nd)])
    (hstrike : (dieStrikes (dieTaken s d) n d nd).nodes = [(n, nd')]) (hseated : Seated nd') :
    nodeGet? (loseDie d s) n = some nd' := by
  have hstruck : nodesStruck (dieTaken s d) d = dieStrikes (dieTaken s d) n d nd := by
    show s.nodes.foldl _ _ = _
    rw [hn]
    rfl
  obtain ⟨hosts, hu⟩ := loseDie_of_seated hlost (by rw [hstruck, hstrike]; simpa using hseated)
  have hnodes : (loseDie d s).nodes = [(n, nd')] := by
    rw [hu, hstruck]
    exact hstrike
  simp [nodeGet?, hnodes, mapGet?]

/-- A node on its tiles that touched a lost die stops (18 R421). -/
theorem loseDie_stops {d : Nat} (hlost : (dieGet s d).lost = false) (hn : s.nodes = [(n, nd)])
    (htouch : natBit (mapGet s.touched (nodeAsid nd) 0) d = true)
    (hst : nd.st = .placed ∨ nd.st = .running ∨ nd.st = .yielding ∨ nd.st = .stopped ∨ nd.st = .retiring) :
    (nodeGet? (loseDie d s) n).map (·.st) = some .stopped := by
  have honly : OnlyNode n (dieTaken s d) := ⟨nd, hn⟩
  have hstrike : dieStrikes (dieTaken s d) n d nd =
      stopWide (dieTaken s d) n noAgent (dieLostTrap (dieTaken s d) (nodeAsid nd)) := by
    have ht : natBit (mapGet (dieTaken s d).touched (nodeAsid nd) 0) d = true := htouch
    rcases hst with h | h | h | h | h <;> simp only [dieStrikes, ht, h] <;> rfl
  obtain ⟨nd', hnodes, hst'⟩ := honly.stopWide_noAgent (x := dieLostTrap (dieTaken s d) (nodeAsid nd))
  rw [nodes_loseDie_single hlost hn (hstrike ▸ hnodes) (by simp [Seated, hst']), Option.map_some, hst']

/-- A saved node that touched a lost die stays saved, to stop once it is restored (18 R421). -/
theorem loseDie_saved {d : Nat} (hlost : (dieGet s d).lost = false) (hn : s.nodes = [(n, nd)])
    (htouch : natBit (mapGet s.touched (nodeAsid nd) 0) d = true) (hst : nd.st = .saved) :
    nodeGet? (loseDie d s) n = some { nd with diesLost := true } := by
  have hstrike : dieStrikes (dieTaken s d) n d nd = nodePut (dieTaken s d) n { nd with diesLost := true } := by
    have ht : natBit (mapGet (dieTaken s d).touched (nodeAsid nd) 0) d = true := htouch
    simp only [dieStrikes, ht, hst]
    rfl
  have hnodes : (dieTaken s d).nodes = [(n, nd)] := hn
  refine nodes_loseDie_single hlost hn ?_ (by simp [Seated, hst])
  rw [hstrike, nodePut_nodes, hnodes]
  simp [mapPut]

/-! ## The board's events -/

/-- Package reset clears the package but for what flash, the fuses and memory hold, and zeroised keys stay so (01 R12, R19;
20 R461, R462, R464). -/
theorem packageReset_clears (cfail : BitVec 9) (pfail : BitVec 4) (ports : BitVec 2) :
    let u := packageReset cfail.toNat pfail.toNat ports.toNat s
    u.mem = s.mem ∧ u.flash = s.flash ∧ u.bankMarks = s.bankMarks ∧ u.mgmt.zeroised = s.mgmt.zeroised ∧ u.mgmt.bootPhase = 1 ∧
      u.nodes = [] ∧ u.packs = [] ∧ u.tiles = tilesAtReset s ∧ u.mgmt.mgmtHost = s.flashMgmt % 2 ∧
      (∀ n < 256, flashOf s n 0 ≠ ⟨false, false, 0, 0, 0, 0, 0, 0, 0⟩ → (tileGet u n).gov.v = trimUp (flashOf s n 0).safe) ∧
      (∀ d < 8, (dieGet u d).phys = (dieGet s d).phys ∧ (dieGet u d).lost = false) ∧ u.records = [] ∧ u.recQ = [] ∧
      u.links = [] ∧ u.point = State.reset.point ∧ u.mgmt.csaCnt = 0 ∧ (∀ p < 4, p ∈ u.portsLost ↔ pfail.getLsbD p = true) ∧
      (∀ h < 2, (hostGet u h).linkUp = false ∧ (hostGet u h).lq = [] ∧ (hostGet u h).fr = [] ∧
        ((hostGet u h).gone = true ↔ ports.getLsbD h = false ∨ 3 * h ∈ u.portsLost)) ∧
      (∀ p < 9, u.mgmt.bootBits.getLsbD (15 + p) = !cfail.getLsbD p) ∧
      (∀ p < 4, u.mgmt.bootBits.getLsbD (11 + p) = !pfail.getLsbD p) := by
  refine ⟨rfl, rfl, rfl, rfl, rfl, rfl, rfl, rfl, rfl, fun n hn he => tilesAtReset_v hn he, fun d _ => ?_, rfl, rfl, rfl, rfl,
    rfl, fun p hp => mem_portsLost_packageReset _ _ pfail hp, fun h hh => ?_, bootBits_packageReset cfail pfail⟩
  · rw [dieGet_packageReset]
    exact ⟨rfl, rfl⟩
  · obtain ⟨gone, hget, hgone⟩ := hostGet_packageReset (s := s) cfail.toNat pfail.toNat ports hh
    rw [hget]
    exact ⟨rfl, rfl, rfl, hgone⟩

/-- The last link of bring-up lets the remap stand: every die keeps its place, and is lost if it failed (20 R461, R463). -/
theorem linkTrained_last {link reva revb : Nat} (hlink : link < 36) (h1 : s.mgmt.bootPhase = 1)
    (hlast : (mapPut s.links link (commonRev reva revb)).length = 36) :
    let s1 := { s with links := mapPut s.links link (commonRev reva revb) }
    let u := linkTrained link reva revb s
    u.mgmt.bootPhase = 3 ∧ u.links = s1.links ∧ ∀ d < 8,
      (dieGet u d).lost = (bootLost s1 d || (dieGet s d).lost) ∧ (dieGet u d).phys = (dieGet s d).phys := by
  intro s1 u
  have hu : u = remapApply s1 := by
    simp [u, s1, linkTrained, Nat.not_le.mpr hlink, h1, hlast]
  rw [hu, remapApply_eq]
  exact ⟨rfl, (foldl_remapDie_diesOnly s1).links, fun d hd => dieGet_foldl_remapDie hd⟩

/-- A link that leaves its die with one in service, or belongs to none in use, is only noted (20 R463). -/
theorem linkTrained_inService {link reva revb : Nat} (hlink : link < 36) (h3 : 3 ≤ s.mgmt.bootPhase)
    (h : (∀ d < 8, (dieGet s d).phys ≠ link / 4) ∨
      dieLinked { s with links := mapPut s.links link (commonRev reva revb) } (link / 4) = true) :
    linkTrained link reva revb s = { s with links := mapPut s.links link (commonRev reva revb) } := by
  rw [linkTrained, if_neg (Nat.not_le.mpr hlink)]
  dsimp only
  rw [if_neg (by omega), if_pos h3]
  refine foldl_eq_self fun d hd => if_neg ?_
  rcases h with h | h
  · exact fun e => h d (List.mem_range.mp hd) (of_decide_eq_true (Bool.and_elim_left e))
  · simp [h]

/-- A link that trains before bring-up waits for it, or before the last of them, is only noted (20 R463). -/
theorem linkTrained_early {link reva revb : Nat} (hlink : link < 36) (h3 : s.mgmt.bootPhase < 3)
    (h : s.mgmt.bootPhase ≠ 1 ∨ (mapPut s.links link (commonRev reva revb)).length ≠ 36) :
    linkTrained link reva revb s = { s with links := mapPut s.links link (commonRev reva revb) } := by
  rw [linkTrained, if_neg (Nat.not_le.mpr hlink)]
  dsimp only
  by_cases h1 : s.mgmt.bootPhase = 1
  · rw [if_pos h1, if_neg (h.resolve_left (not_not.mpr h1))]
  · rw [if_neg h1, if_neg (Nat.not_le.mpr h3)]

end BoardEvents

/-- Settles O57: package reset, bring-up, the frequency change, the alarm and the failed port are followed field by field; a
struck node is followed through the stop of its tiles, which leaves the package its one node. -/
theorem boardEvents : Obligations.BoardEvents := by
  intro s link reva revb src die
  refine ⟨fun cfail pfail ports => ⟨_, rfl, packageReset_clears cfail pfail ports⟩, ?link, fun h => ?notLoaded,
    fun h => ⟨_, rfl, tableLoad_ready h⟩, fun hbusy hstop => ?stop, fun h => ?idle, fun hbusy hstop hhalt => ?restart,
    ?alarm, ⟨_, rfl, by simp [mgmtPortFail], rfl, rfl, rfl, rfl⟩, fun h => ?lostBefore,
    fun hlost h => ⟨_, rfl, loseDie_untouched hlost h⟩, fun n nd hlost hn htouch =>
      ⟨fun hst => ⟨_, rfl, loseDie_stops hlost hn htouch hst⟩, fun hst => ⟨_, rfl, loseDie_saved hlost hn htouch hst⟩⟩⟩
  case link =>
    exact ⟨fun h => congrArg Host.Outcome.next (if_pos h),
      fun h h3 hn => congrArg Host.Outcome.next (linkTrained_early h h3 hn),
      fun h h1 hlast => ⟨_, rfl, linkTrained_last h h1 hlast⟩,
      fun h h3 hn => congrArg Host.Outcome.next (linkTrained_inService h h3 hn)⟩
  case notLoaded => exact congrArg Host.Outcome.next (if_pos h)
  case stop =>
    exact ⟨fun hall => congrArg Host.Outcome.next (if_pos (by simp [hbusy, hstop, hall])),
      fun hall => congrArg Host.Outcome.next (if_neg (by simp [hall]))⟩
  case idle =>
    exact ⟨congrArg Host.Outcome.next (if_neg (by simp [h])), congrArg Host.Outcome.next (if_neg (by simp [h]))⟩
  case restart =>
    obtain ⟨⟨tiles, hu⟩, hat⟩ := freqRestart_done hbusy hstop hhalt
    refine ⟨_, rfl, by rw [hu], by rw [hu], by rw [hu], by rw [hu], fun k x hk => ?_⟩
    obtain ⟨hx, hv⟩ := hat k x hk
    exact ⟨hx.core, hx.floor, fun hpin => ⟨hx.p hpin, hv hpin⟩⟩
  case alarm =>
    obtain ⟨sets, hu⟩ := securityAlarm_eq (s := s) src
    exact ⟨_, congrArg Host.Outcome.next hu, rfl, rfl, rfl, rfl, rfl, rfl, rfl, rfl⟩
  case lostBefore => exact congrArg Host.Outcome.next (if_pos h)

end Sys2Proof.Machine

/-! # O32: fork counts a bobbin and csend reserves an entry -/

namespace Sys2Proof.Machine
open Sys2Proof

section ForkAndSend
variable {s u : State} {tile : Nat} {b : Bundle} {v : Word}

/-! ## The check of an own access leaves the tiles alone -/

theorem tileGet_of_tiles (h : u.tiles = s.tiles) (n : Nat) : tileGet u n = tileGet s n := by
  rw [tileGet, h]; rfl

theorem checkGran_tiles {a : Nat} {x : Agent} {g : Nat} {w p : Bool} {pd : Option (Nat × Nat)} :
    checkGran s a x g w p pd = .ok u → u.tiles = s.tiles := by
  fun_cases checkGran <;> rintro ⟨⟩ <;> rfl

theorem checkGrans_tiles {a : Nat} {x : Agent} {w p : Bool} {pd : Option (Nat × Nat)} {l : List Nat} :
    checkGrans s a x w p pd l = .ok u → u.tiles = s.tiles := by
  induction l generalizing s with
  | nil => rintro ⟨⟩; rfl
  | cons g l ih =>
    rw [checkGrans]
    split
    · exact nofun
    · next s' hg => exact fun h => (ih h).trans (checkGran_tiles hg)

theorem tileGet_checkOwn {seq off n : Nat} {w p : Bool} (h : checkOwn s tile seq off n w p = .ok u) (k : Nat) :
    tileGet u k = tileGet s k :=
  tileGet_of_tiles (checkGrans_tiles h) k

/-! ## What the acts of an issue leave in an engine and in the results under way -/

/-- A core put back leaves every engine as it is. -/
@[simp] theorem engGet_corePut (s : State) (n k e : Nat) (c : Core) :
    engGet (tileGet (corePut s n c) k) e = engGet (tileGet s k) e := by
  by_cases h : k = n
  · subst h; simp [engGet]
  · rw [tileGet_corePut_other s c h]

/-- An act on an engine leaves every core as it is. -/
@[simp] theorem coreGet_engMap (s : State) (n e k : Nat) (f : Engine → Engine) :
    coreGet (engMap s n e f) k = coreGet s k := by
  by_cases h : k = n
  · subst h; simp [coreGet, engMap]
  · simp [coreGet, engMap, h]

/-- The result that an issue adds is the latest under way once its slot is marked. -/
theorem lastFlight_slotDone (s : State) (tile slot l : Nat) (b : Bundle) (effs : List Eff) :
    lastFlight (slotDone (addFlight s tile b.seq slot l effs) tile slot b) tile =
      some ⟨b.seq, slot, (coreGet s tile).ticks + l - 1, effs, none, false, false, false⟩ := by
  simp [lastFlight, slotDone, markIssued, bundleMap, addFlight]

/-! ## The body of fork (07 R154) -/

section Fork
variable {o : COp} (hjoin : natBits v.toNat 33 31 = 0 ∧ (natBit v.toNat 32 = false → natBits v.toNat 16 16 = 0))
  (htile : natBit v.toNat 32 = false → natBits v.toNat 8 8 ∈ nodeTiles s tile)

theorem forkBody_badJoin
    (h : ¬ (natBits v.toNat 33 31 = 0 ∧ (natBit v.toNat 32 = false → natBits v.toNat 16 16 = 0))) :
    forkBody o tile s b v = .error (trapAt causeBadJoin 0 v) := by
  refine if_pos ?_
  by_contra hn
  simp_all

include hjoin

theorem forkBody_badTile (h : ¬ (natBit v.toNat 32 = false → natBits v.toNat 8 8 ∈ nodeTiles s tile)) :
    forkBody o tile s b v = .error (trapAt causeIllegalTarget 0 v) := by
  obtain ⟨hlink, hmem⟩ := Classical.not_imp.mp h
  simp [forkBody, hjoin.1, hjoin.2 hlink, hlink, hmem]

include htile

/-- What fork does once its join spec and its join tile are legal. -/
theorem forkBody_legal : forkBody o tile s b v =
    if 4160 ≤ creelCount (tileGet s tile) ∨ 2 ^ 32 ≤ outstanding s tile + 1 then .error (trapAt causeCreelFull 0 v)
    else .ok (some (caResult (setOutstanding (addAct s tile b.seq 0 (.fork (pcAdd b.pc o.target) (natBit v.toNat 32)
      (v.toNat % 2 ^ 32) (carryNow s tile))) tile (outstanding s tile + 1)) tile b 0 2
        (BitVec.ofNat 64 (outstanding s tile + 1)))) := by
  cases hlink : natBit v.toNat 32 <;> simp_all [forkBody]

end Fork

/-! ## The body of csend (07 R155) -/

/-- A csend's target is legal: no reserved bit is set, the engine exists, and the tile is of the node. -/
def SendLegal (s : State) (tile : Nat) (v : Word) : Prop :=
  natBits v.toNat 44 20 = 0 ∧ natBits v.toNat 23 9 = 0 ∧ natBits v.toNat 40 4 < 10 ∧
    natBits v.toNat 32 8 ∈ nodeTiles s tile

/-- The block of a csend, read from the pool. -/
def csendBlock (t : Tile) (off : Nat) : List Word := (List.range 8).map fun i => BitVec.ofNat 64 (poolNat t (off + 8 * i) 8)

/-- An engine with a csend's entry reserved. -/
def reserveEntry (tile seq : Nat) (block : List Word) (x : Engine) : Engine :=
  { x with queue := x.queue ++ [csendEntry tile seq x.nextOrd block], nextOrd := x.nextOrd + 1 }

/-- The state that a csend with its entry reserved leaves, from the state with its block checked. -/
def csendSent (u : State) (tile : Nat) (b : Bundle) (v : Word) (block : List Word) : State :=
  let target := natBits v.toNat 32 8
  let eng := natBits v.toNat 40 4
  let u1 := engMap u target eng (reserveEntry tile b.seq block)
  caResult (addAct u1 tile b.seq 0 (.csend target eng (tile * 2 ^ 40 + b.seq))) tile b 0 2
    (BitVec.ofNat 64 (16 - (engGet (tileGet u1 target) eng).queue.length))

theorem csendBody_misaligned (h : natBits v.toNat 0 23 % 64 ≠ 0) :
    csendBody tile s b v = .error (trapAt causeAlignment 0 v) :=
  if_pos h

section Aligned
variable (hal : natBits v.toNat 0 23 % 64 = 0)
include hal

theorem csendBody_illegal (h : ¬ SendLegal s tile v) :
    csendBody tile s b v = .error (trapAt causeIllegalTarget 0 v) := by
  refine (if_neg (not_not.mpr hal)).trans (if_pos ?_)
  by_contra hn
  refine h ⟨?_, ?_, ?_, ?_⟩ <;> simp_all

section Legal
variable (hlegal : SendLegal s tile v)
include hlegal

theorem csendBody_past (h : scratchSize (tileGet s tile) < natBits v.toNat 0 23 + 64) :
    csendBody tile s b v = .error (trapAt causeScratchBound 0 v) := by
  obtain ⟨hhigh, hlow, heng, hmem⟩ := hlegal
  simp [csendBody, hal, hhigh, hlow, Nat.not_le.mpr heng, hmem, pastScratch, h]

section Inside
variable (hin : natBits v.toNat 0 23 + 64 ≤ scratchSize (tileGet s tile))
include hin

theorem csendBody_waits (h : csendWaits s tile b.seq v = true) : csendBody tile s b v = .ok none := by
  obtain ⟨hhigh, hlow, heng, hmem⟩ := hlegal
  simp [csendBody, hal, hhigh, hlow, Nat.not_le.mpr heng, hmem, pastScratch, Nat.not_lt.mpr hin, h]

/-- A csend whose block stands and whose engine has room reserves an entry with the block. -/
theorem csendBody_sends (hgo : csendWaits s tile b.seq v = false) (hdbg : (tileGet s tile).dbg = false)
    (hcode : poolReadTrap s tile (natBits v.toNat 0 23) 64 = none)
    (hown : checkOwn s tile b.seq (natBits v.toNat 0 23) 64 false true = .ok u) :
    csendBody tile s b v = .ok (some (csendSent u tile b v (csendBlock (tileGet s tile) (natBits v.toNat 0 23)))) := by
  obtain ⟨hhigh, hlow, heng, hmem⟩ := hlegal
  have hpend : pendingOwn (tileGet s tile) (natBits v.toNat 0 23) 64 = none := by simp [pendingOwn, hdbg]
  rw [csendBody]
  dsimp only
  rw [if_neg (not_not.mpr hal), if_neg (by simp [hhigh, hlow, Nat.not_le.mpr heng, hmem]),
    if_neg (by simp [pastScratch, hin]), if_neg (by simp [hgo]), hpend, hcode]
  simp only [Option.or_none, hown]
  rfl

end Inside
end Legal
end Aligned

/-- The engine that a csend names holds the reserved entry, last in its queue. -/
theorem engGet_csendSent (u : State) (tile : Nat) (b : Bundle) (v : Word) (block : List Word) :
    engGet (tileGet (slotDone (csendSent u tile b v block) tile 0 b) (natBits v.toNat 32 8)) (natBits v.toNat 40 4) =
      reserveEntry tile b.seq block (engGet (tileGet u (natBits v.toNat 32 8)) (natBits v.toNat 40 4)) := by
  simp [slotDone, markIssued, csendSent, caResult, addFlight, addAct]

/-- A csend delivers how many entries it leaves free (07 R155). -/
theorem lastFlight_csendSent (u : State) (tile : Nat) (b : Bundle) (v : Word) (block : List Word) :
    lastFlight (slotDone (csendSent u tile b v block) tile 0 b) tile = some ⟨b.seq, 0, (coreGet u tile).ticks + 1,
      [.reg 0x60 (rvOf (BitVec.ofNat 64
        (16 - ((engGet (tileGet u (natBits v.toNat 32 8)) (natBits v.toNat 40 4)).queue.length + 1))))],
      none, false, false, false⟩ := by
  refine (lastFlight_slotDone ..).trans ?_
  simp [addAct, bundleMap, reserveEntry, latchKey]

end ForkAndSend

/-- Settles O32: fork and csend go through their checks in the order of log entry 72, and each check has its lemma. -/
theorem forkAndSend : Obligations.ForkAndSend := by
  intro tile o s b v n link bad okJoin okTile k room
  refine ⟨fun h => ⟨fun hj ht hr => ?_, fun hj => ?_, fun hj ht => ?_, fun hj ht hr => ?_⟩,
    fun h => ⟨fun hal => ?_, fun hal hl => ?_, fun hal hl hp => ?_, fun hal hl hin hw => ?_,
      fun hal hl hin hb hq hcode u hown => ?_⟩⟩
  · exact ctlOp_ok h ((forkBody_legal hj ht).trans (if_neg (by omega)))
  · exact ctlOp_bad h (forkBody_badJoin hj)
  · exact ctlOp_bad h (forkBody_badTile hj ht)
  · exact ctlOp_bad h ((forkBody_legal hj ht).trans (if_pos (by omega)))
  · exact ctlOp_bad h (csendBody_misaligned hal)
  · exact ctlOp_bad h (csendBody_illegal hal hl)
  · exact ctlOp_bad h (csendBody_past hal hl hp)
  · exact ctlOp_wait h (csendBody_waits hal hl hin (by simpa [csendWaits] using hw))
  · have hgo : csendWaits s tile.toNat b.seq v = false := by simpa [csendWaits] using ⟨hb, hq⟩
    have htiles : ∀ k, tileGet u k = tileGet s k := tileGet_checkOwn hown
    refine ⟨_, ctlOp_ok h (csendBody_sends hal hl hin hgo h.ready.normal hcode hown), ?_⟩
    have heng := engGet_csendSent u tile.toNat b v (csendBlock (tileGet s tile.toNat) (natBits v.toNat 0 23))
    have hfl := lastFlight_csendSent u tile.toNat b v (csendBlock (tileGet s tile.toNat) (natBits v.toNat 0 23))
    simp only [coreGet, htiles] at heng hfl
    exact ⟨_, congrArg Engine.queue heng, rfl, rfl, rfl, hfl⟩

end Sys2Proof.Machine

/-! # O35: psplit and pmerge wait for every tile of the pack and then change it -/

namespace Sys2Proof.Machine
open Sys2Proof

section PackOperations
variable {α : Type} {s : State} {p : Pack} {b : Bundle} {v : Word} {tile j n : Nat}

/-! ## Pack IDs and the layout of sub-packs (02 R49, R51) -/

/-- A second entry under a key takes the place of the first. -/
theorem mapPut_mapPut (m : NMap α) (i : Nat) (x y : α) : mapPut (mapPut m i x) i y = mapPut m i y := by
  induction m with
  | nil => simp [mapPut]
  | cons e m ih =>
    obtain ⟨k, w⟩ := e
    rcases lt_trichotomy i k with h | h | h
    · simp [mapPut, h]
    · simp [mapPut, h]
    · simp [mapPut, Nat.lt_asymm h, h.ne', ih]

/-- The IDs in use are no more than the packs listed. -/
theorem length_usedPacks_le (s : State) (n : Nat) :
    ((List.range n).filter fun i => !(packGet? s i).isNone).length ≤ s.packs.length := by
  rw [← List.length_map (f := (·.1)) (as := s.packs)]
  refine (List.subperm_of_subset (List.nodup_range.filter _) fun i hi => ?_).length_le
  obtain ⟨p, hp⟩ := Option.isSome_iff_exists.mp (by simpa using (List.mem_filter.mp hi).2 : (packGet? s i).isSome = true)
  exact List.mem_map_of_mem (mem_of_mapGet? hp)

/-- There are as many free pack IDs as are asked for (02 R49; log entry 60). -/
theorem length_freePacks (s : State) (n : Nat) : (freePacks s n).length = n := by
  have hused := length_usedPacks_le s (s.packs.length + n)
  have hall := List.length_eq_length_filter_add (l := List.range (s.packs.length + n)) fun i => (packGet? s i).isNone
  rw [List.length_range] at hall
  rw [freePacks, List.length_take]
  omega

/-- While fewer than 8,192 packs are live, a free ID is no mark of a mismatch. -/
theorem mem_freePacks_ne_splitMark {id : Nat} (hlive : s.packs.length < 8192) (hn : n < 2 ^ 16) (h : id ∈ freePacks s n) :
    id ≠ splitMark := by
  have hid := List.mem_range.mp (List.mem_filter.mp (List.mem_of_mem_take h)).1
  unfold splitMark
  omega

/-- Sub-pack `k` of a psplit into 2^j parts, under the ID `id`. -/
def subPack (p : Pack) (j id k : Nat) : Pack :=
  { id, node := p.node, level := p.level + 1, parent := p.id,
    tiles := (p.tiles.drop (k * (p.tiles.length / 2 ^ j))).take (p.tiles.length / 2 ^ j), phase := 0, outstanding := 0,
    arrived := [] }

theorem mem_splitPacks {q : Pack} :
    q ∈ splitPacks s p j ↔ ∃ k id, (freePacks s (2 ^ j))[k]? = some id ∧ q = subPack p j id k := by
  simp only [splitPacks, List.mem_map, Prod.exists]
  simp only [List.mem_iff_getElem?, List.getElem?_zip_eq_some]
  constructor
  · rintro ⟨id, k', ⟨k, hid, hk⟩, rfl⟩
    obtain ⟨-, rfl⟩ := List.getElem?_eq_some_iff.mp hk
    rw [List.getElem_range]
    exact ⟨k, id, hid, rfl⟩
  · rintro ⟨k, id, hid, rfl⟩
    have hk : k < 2 ^ j := by simpa [length_freePacks] using (List.getElem?_eq_some_iff.mp hid).1
    exact ⟨id, k, ⟨k, hid, List.getElem?_range hk⟩, rfl⟩

/-- Every tile of a pack that divides evenly stands in one of the sub-packs. -/
theorem exists_subPack_tile (ht : tile ∈ p.tiles) (hdiv : p.tiles.length % 2 ^ j = 0) :
    ∃ q ∈ splitPacks s p j, tile ∈ q.tiles := by
  obtain ⟨i, hi, rfl⟩ := List.mem_iff_getElem.mp ht
  have hlen : p.tiles.length / 2 ^ j * 2 ^ j = p.tiles.length := Nat.div_mul_cancel (Nat.dvd_of_mod_eq_zero hdiv)
  generalize hsize : p.tiles.length / 2 ^ j = size at hlen
  have hpos : 0 < size := by
    rcases Nat.eq_zero_or_pos size with h | h
    · simp [h] at hlen; omega
    · exact h
  have hk : i / size < 2 ^ j := (Nat.div_lt_iff_lt_mul hpos).mpr (by rw [Nat.mul_comm, hlen]; exact hi)
  have hid := List.getElem?_eq_getElem (l := freePacks s (2 ^ j)) (i := i / size) (by rwa [length_freePacks])
  refine ⟨_, mem_splitPacks.mpr ⟨_, _, hid, rfl⟩, ?_⟩
  rw [subPack, hsize]
  refine List.mem_iff_getElem?.mpr ⟨i % size, ?_⟩
  rw [List.getElem?_take_of_lt (Nat.mod_lt _ hpos), List.getElem?_drop, Nat.div_add_mod' i size]
  exact List.getElem?_eq_getElem hi

/-- The first place that the layout gives a tile is a sub-pack that holds it. -/
theorem find_places (ht : tile ∈ p.tiles) (hdiv : p.tiles.length % 2 ^ j = 0) : ∃ k id,
    (freePacks s (2 ^ j))[k]? = some id ∧ tile ∈ (subPack p j id k).tiles ∧
    (((splitPacks s p j).flatMap fun q => q.tiles.map fun x => (x, q.id)).find? fun x => decide (x.1 = tile)) =
      some (tile, id) := by
  obtain ⟨q, hq, hmem⟩ := exists_subPack_tile (s := s) ht hdiv
  have hsome : (((splitPacks s p j).flatMap fun q => q.tiles.map fun x => (x, q.id)).find?
      fun x => decide (x.1 = tile)).isSome := by
    rw [List.find?_isSome]
    exact ⟨(tile, q.id), List.mem_flatMap.mpr ⟨q, hq, List.mem_map_of_mem hmem⟩, decide_eq_true rfl⟩
  obtain ⟨⟨x, id⟩, hx⟩ := Option.isSome_iff_exists.mp hsome
  obtain rfl : x = tile := by simpa using List.find?_some hx
  obtain ⟨r, hr, hin⟩ := List.mem_flatMap.mp (List.mem_of_find?_eq_some hx)
  obtain ⟨y, hy, he⟩ := List.mem_map.mp hin
  obtain ⟨rfl, rfl⟩ := Prod.mk.inj he
  obtain ⟨k, id, hid, rfl⟩ := mem_splitPacks.mp hr
  exact ⟨k, id, hid, hy, hx⟩

/-! ## The body of psplit (07 R158) -/

section Split
variable {o : COp}

/-- What a pack's record holds once a tile has found what it was told there. -/
def toldTaken (p : Pack) (tile : Nat) (l : List (Nat × Nat)) : Pack :=
  { p with arrived := l.filter fun x => decide (x.1 ≠ tile) }

theorem psplitBody_deep (h : 3 ≤ (tileGet s tile).packLevel ∨ (tileGet s tile).packSize < 2 ^ (o.imm.toNat % 16)) :
    psplitBody o tile s b v = .error (trapOf causePackDepth) :=
  if_pos h

@[simp] theorem packPut_packPut (s : State) (p : Pack) (l l' : List (Nat × Nat)) :
    packPut (packPut s { p with arrived := l }) { p with arrived := l' } = packPut s { p with arrived := l' } :=
  congrArg (fun packs => { s with packs }) (mapPut_mapPut ..)

theorem packGet_packPut_told {id : Nat} (hid : p.id = id) (l : List (Nat × Nat)) :
    packGet? (packPut s { p with arrived := l }) id = some { p with arrived := l } :=
  hid ▸ packGet_packPut_same s { p with arrived := l }

variable (hlevel : (tileGet s tile).packLevel < 3) (hsize : 2 ^ (o.imm.toNat % 16) ≤ (tileGet s tile).packSize)
  (hpack : packGet? s (tileGet s tile).packId = some p)
include hlevel hsize hpack

theorem psplitBody_phase (h : phaseDone (tileGet s tile) p = false) :
    psplitBody o tile s b v = .error (trapOf causePackPhase) := by
  simp [psplitBody, Nat.not_le.mpr hlevel, Nat.not_lt.mpr hsize, hpack, h]

variable (hphase : phaseDone (tileGet s tile) p = true)
include hphase

/-- A tile that was told its sub-pack goes on into it. -/
theorem psplitBody_told {x : Nat × Nat} (h : (p.arrived.find? fun f => decide (f.1 = tile)) = some x)
    (hx : x.2 ≠ splitMark) : psplitBody o tile s b v =
      .ok (some (addAct (caResult s tile b 0 2 (BitVec.ofNat 64 x.2)) tile b.seq 0 (.psplit (o.imm.toNat % 16)))) := by
  simp [psplitBody, Nat.not_le.mpr hlevel, Nat.not_lt.mpr hsize, hpack, hphase, h, hx]

/-- A tile that was told of a mismatch raises it. -/
theorem psplitBody_toldMismatch {x : Nat × Nat} (h : (p.arrived.find? fun f => decide (f.1 = tile)) = some x)
    (hx : x.2 = splitMark) : psplitBody o tile s b v =
      .ok (some (raiseAt (packPut s (toldTaken p tile p.arrived)) tile b.seq 0 (trapOf causePackMismatch))) := by
  simp [psplitBody, Nat.not_le.mpr hlevel, Nat.not_lt.mpr hsize, hpack, hphase, h, hx, toldTaken]

variable (htold : (p.arrived.find? fun f => decide (f.1 = tile)) = none)
include htold

theorem psplitBody_waits (h : collAll s 0x16 tile (o.imm.toNat % 16) p = none) :
    psplitBody o tile s b v = .ok none := by
  simp only [psplitBody, if_neg (not_or.mpr ⟨Nat.not_le.mpr hlevel, Nat.not_lt.mpr hsize⟩), hpack, hphase, htold, h,
    Bool.not_true, Bool.false_eq_true, if_false]

variable {js : List Nat} (hall : collAll s 0x16 tile (o.imm.toNat % 16) p = some js)
include hall

/-- The tile that sees different values of j tells every tile of the pack, and raises the mismatch itself. -/
theorem psplitBody_mismatch (hid : p.id = (tileGet s tile).packId) (h : ∃ i ∈ js, i ≠ o.imm.toNat % 16) :
    psplitBody o tile s b v =
      .ok (some (raiseAt (packPut s (toldTaken p tile (p.tiles.map fun x => (x, splitMark)))) tile b.seq 0
        (trapOf causePackMismatch))) := by
  have hj : (js.all fun i => decide (i = o.imm.toNat % 16)) = false := by simpa using h
  simp only [psplitBody, if_neg (not_or.mpr ⟨Nat.not_le.mpr hlevel, Nat.not_lt.mpr hsize⟩), hpack, hphase, htold, hall, hj,
    Bool.not_true, Bool.false_eq_true, if_false, if_true, packGet_packPut_told hid, packPut_packPut]
  rfl

/-- The tile that sees one value of j lays out the sub-packs and goes on into its own. -/
theorem psplitBody_split {id : Nat} (h : ∀ i ∈ js, i = o.imm.toNat % 16) (hid : id ≠ splitMark)
    (hfind : (((splitPacks s p (o.imm.toNat % 16)).flatMap fun q => q.tiles.map fun x => (x, q.id)).find?
      fun x => decide (x.1 = tile)) = some (tile, id)) :
    psplitBody o tile s b v = .ok (some (addAct (caResult
      (packPut ((splitPacks s p (o.imm.toNat % 16)).foldl packPut s) { p with
        arrived := (splitPacks s p (o.imm.toNat % 16)).flatMap fun q => q.tiles.map fun x => (x, q.id) })
      tile b 0 2 (BitVec.ofNat 64 id)) tile b.seq 0 (.psplit (o.imm.toNat % 16)))) := by
  have hj : (js.all fun i => decide (i = o.imm.toNat % 16)) = true := by simpa using h
  simp only [psplitBody, if_neg (not_or.mpr ⟨Nat.not_le.mpr hlevel, Nat.not_lt.mpr hsize⟩), hpack, hphase, htold, hall, hj,
    Bool.not_true, Bool.false_eq_true, if_false, if_true, hfind, Option.map_some, Option.getD_some, if_neg hid]

end Split

/-! ## The body of pmerge (07 R158) -/

section Merge
variable (hlevel : 0 < (tileGet s tile).packLevel) (hpack : packGet? s (tileGet s tile).packId = some p)

theorem pmergeBody_deep (h : (tileGet s tile).packLevel = 0) : pmergeBody tile s b v = .error (trapOf causePackDepth) :=
  if_pos h

include hlevel hpack

theorem pmergeBody_phase (h : phaseDone (tileGet s tile) p = false) :
    pmergeBody tile s b v = .error (trapOf causePackPhase) := by
  simp [pmergeBody, hlevel.ne', hpack, h]

variable (hphase : phaseDone (tileGet s tile) p = true)
include hphase

theorem pmergeBody_told (h : (p.arrived.any fun f => decide (f.1 = tile)) = true) :
    pmergeBody tile s b v = .ok (some (addAct s tile b.seq 0 .pmerge)) := by
  simp only [pmergeBody, if_neg hlevel.ne', hpack, hphase, h, Bool.not_true, Bool.false_eq_true, if_false, if_true]

variable (htold : (p.arrived.any fun f => decide (f.1 = tile)) = false)
include htold

theorem pmergeBody_waits (h : collAll s 0x17 tile 0 p = none) : pmergeBody tile s b v = .ok none := by
  simp only [pmergeBody, if_neg hlevel.ne', hpack, hphase, htold, h, Bool.not_true, Bool.false_eq_true, if_false]

theorem pmergeBody_merges {js : List Nat} (h : collAll s 0x17 tile 0 p = some js) : pmergeBody tile s b v =
    .ok (some (addAct (packPut s { p with arrived := p.tiles.map fun x => (x, 0) }) tile b.seq 0 .pmerge)) := by
  simp only [pmergeBody, if_neg hlevel.ne', hpack, hphase, htold, h, Bool.not_true, Bool.false_eq_true, if_false]

end Merge

end PackOperations

/-- Settles O35: each check and each answer of psplit and pmerge has its lemma; the layout of a psplit gives every tile of a
pack that divides evenly the ID of the run that it stands in. -/
theorem packOperations : Obligations.PackOperations := by
  intro tile o s b p t j fault told left split places mismatch
  refine ⟨fun h => ⟨fun hd => ctlOp_bad h (psplitBody_deep hd), fun hl hs hp hid => ?split⟩,
    fun h => ⟨fun hd => ctlOp_bad h (pmergeBody_deep hd), fun hl hp => ?merge⟩⟩
  case merge =>
    exact ⟨fun hph => ctlOp_bad h (pmergeBody_phase hl hp hph), fun hph ht => ctlOp_ok h (pmergeBody_told hl hp hph ht),
      fun hph ht hc => ctlOp_wait h (pmergeBody_waits hl hp hph ht hc),
      fun hph ht js hc => ctlOp_ok h (pmergeBody_merges hl hp hph ht hc)⟩
  case split =>
    refine ⟨fun hph => ctlOp_bad h (psplitBody_phase hl hs hp hph),
      fun hph x hx => ⟨fun hm => ctlOp_ok h (psplitBody_told hl hs hp hph hx hm),
        fun hm => ctlOp_ok h (psplitBody_toldMismatch hl hs hp hph hx hm)⟩,
      fun hph ht => ⟨fun hc => ctlOp_wait h (psplitBody_waits hl hs hp hph ht hc), fun js hc =>
        ⟨fun hj => ctlOp_ok h (psplitBody_mismatch hl hs hp hph ht hc hid hj), fun hj hlive hmem hdiv => ?_⟩⟩⟩
    obtain ⟨k, id, hk, hin, hfind⟩ := find_places (s := s) hmem hdiv
    have hbound : k < 2 ^ j := by simpa [length_freePacks] using (List.getElem?_eq_some_iff.mp hk).1
    have hj16 : 2 ^ j < 2 ^ 16 := Nat.pow_lt_pow_right (by omega) (Nat.mod_lt _ (by omega))
    have hfree := List.mem_of_getElem? hk
    exact ⟨k, hbound, id, hfree, _, hin, hk,
      ctlOp_ok h (psplitBody_split hl hs hp hph ht hc hj (mem_freePacks_ne_splitMark hlive hj16 hfree) hfind), rfl⟩

end Sys2Proof.Machine

/-! # O59: what the registers read after package reset -/

namespace Sys2Proof.Machine
open Sys2Proof

section ResetState
variable {s : State} {h : Nat}

/-! ## Which block of the control BAR an offset names (20 R449) -/

theorem mmioRead_launchQueue {l k : Nat} (hl : l < 24) (hk : k < 64) :
    mmioRead s h (64 * l + k) = BitVec.ofNat 64 (lqRead s h (64 * l + k)) := by
  unfold mmioRead hostRead
  rw [if_pos (by omega), if_pos (by omega)]

theorem mmioRead_faultRing {n k : Nat} (hn : n < 16) (hk : k < 64) :
    mmioRead s h (0x800 + 64 * n + k) = BitVec.ofNat 64 (frRead s h (64 * n + k)) := by
  unfold mmioRead hostRead
  rw [if_pos (by omega), if_neg (by omega), if_pos (by omega), show 0x800 + 64 * n + k - 0x800 = 64 * n + k by omega]

theorem mmioRead_mgmt {k : Nat} (hk : k < 0x100000) :
    mmioRead s h (0x100000 + k) = BitVec.ofNat 64 (mgmtRead s k) := by
  unfold mmioRead
  rw [if_neg (by omega), if_pos (by omega), Nat.add_sub_cancel_left]

theorem mmioRead_tile {t k : Nat} (ht : t < 256) (hk : k < 0x10000) :
    mmioRead s h (0x1000000 + 0x10000 * t + k) = BitVec.ofNat 64 (tileRead s h t k) := by
  unfold mmioRead
  rw [if_neg (by omega), if_neg (by omega), if_pos (by omega),
    show (0x1000000 + 0x10000 * t + k - 0x1000000) / 0x10000 = t by omega,
    show (0x1000000 + 0x10000 * t + k) % 0x10000 = k by omega]

/-! ## The Reset columns, block by block -/

/-- A launch queue's registers (02 R36). -/
theorem mmioRead_reset_launchQueue {l : Nat} (hl : l < 24) :
    mmioRead State.reset h (64 * l) = 0 ∧ mmioRead State.reset h (64 * l + 0x08) = 4 ∧
      mmioRead State.reset h (64 * l + 0x10) = 0 ∧ mmioRead State.reset h (64 * l + 0x18) = 0 := by
  have hword {k : Nat} (hk : k < 64) : (64 * l + k) % 64 = k := by omega
  refine ⟨(mmioRead_launchQueue (k := 0) hl (by omega)).trans ?_, (mmioRead_launchQueue hl (by omega)).trans ?_,
    (mmioRead_launchQueue hl (by omega)).trans ?_, (mmioRead_launchQueue hl (by omega)).trans ?_⟩ <;>
  · unfold lqRead
    rw [hword (by omega)]
    rfl

/-- A fault ring's registers (18 R403). -/
theorem mmioRead_reset_faultRing {n : Nat} (hn : n < 16) :
    mmioRead State.reset h (0x800 + 64 * n) = 0 ∧ mmioRead State.reset h (0x800 + 64 * n + 8) = 6 ∧
      mmioRead State.reset h (0x800 + 64 * n + 0x10) = 0 ∧ mmioRead State.reset h (0x800 + 64 * n + 0x18) = 0 := by
  have hword {k : Nat} (hk : k < 64) : (64 * n + k) % 64 = k := by omega
  refine ⟨(mmioRead_faultRing (k := 0) hn (by omega)).trans ?_, (mmioRead_faultRing hn (by omega)).trans ?_,
    (mmioRead_faultRing hn (by omega)).trans ?_, (mmioRead_faultRing hn (by omega)).trans ?_⟩ <;>
  · unfold frRead
    rw [hword (by omega)]
    rfl

/-- The weights of the round-robin (02 R40). -/
theorem mmioRead_reset_weights {l : Nat} (hl : l < 24) : mmioRead State.reset h (0x100000 + 8 * l) = 0x0101 := by
  rw [mmioRead_mgmt (by omega)]
  unfold mgmtRead
  rw [if_pos (by omega)]
  rfl

/-- DIE_STEAL_CTL (02 R58). -/
theorem mmioRead_reset_dieSteal {d : Nat} (hd : d < 8) : mmioRead State.reset h (0x100100 + 8 * d) = 0x120 := by
  rw [show 0x100100 + 8 * d = 0x100000 + (0x100 + 8 * d) by omega, mmioRead_mgmt (by omega)]
  unfold mgmtRead
  rw [if_neg (by omega), if_pos (by omega)]
  simp [dieGet, State.reset, mapGet, mapGet?, dieReset, bitAt, boolNat]

/-- TILE_DBG and LEASE_CTL (05 R108; 12 R283). -/
theorem mmioRead_reset_tile {t : Nat} (ht : t < 256) : mmioRead State.reset h (0x1000000 + 0x10000 * t) = 0 ∧
    mmioRead State.reset h (0x1000000 + 0x10000 * t + 0x10) = 0x0000001400001000 :=
  ⟨mmioRead_tile (k := 0) ht (by omega), mmioRead_tile ht (by omega)⟩

end ResetState

/-- Settles O59: each block of the map of registers is read at the reset state, where every table is empty and every entry
its reset value. -/
theorem resetState : Obligations.ResetState := by
  refine ⟨fun h _ => ⟨fun l => mmioRead_reset_launchQueue, fun n => mmioRead_reset_faultRing,
      fun l => mmioRead_reset_weights, fun d => mmioRead_reset_dieSteal, ?mgmt⟩,
    fun t _ => ⟨rfl, rfl, rfl⟩, rfl, rfl, rfl, rfl, rfl⟩
  exact ⟨rfl, rfl, rfl, rfl, rfl, rfl, rfl, fun t => mmioRead_reset_tile⟩

end Sys2Proof.Machine

/-! # O41: pick-up, stealing and waking of bobbins -/

namespace Sys2Proof.Machine
open Sys2Proof

section BobbinsStart
variable {α : Type} {s u : State} {n : Nat} {e : CreelEntry} {t : Tile}

/-! ## The registers that a pick-up leaves (03 R75) -/

theorem mapGet?_filter_dropped (p : Nat → Bool) (m : NMap α) {k : Nat} (hk : p k = false) :
    mapGet? (m.filter fun x => p x.1) k = none := by
  induction m with
  | nil => rfl
  | cons c m ih =>
    obtain ⟨j, v⟩ := c
    by_cases hj : p j = true
    · have hne : j ≠ k := fun e => by simp [e, hk] at hj
      simp [hj, mapGet?, hne, ih]
    · simp [hj, ih]

/-- Entries put one after the other from a key on. -/
theorem mapGet?_foldl_mapPut (f : Nat → α) (base k : Nat) (l : List Nat) (m : NMap α) :
    mapGet? (l.foldl (fun m i => mapPut m (base + i) (f i)) m) k =
      if base ≤ k ∧ k - base ∈ l then some (f (k - base)) else mapGet? m k := by
  induction l generalizing m with
  | nil => simp
  | cons i l ih =>
    rw [List.foldl_cons, ih]
    by_cases hk : base + i = k
    · obtain rfl := hk
      simp
    · have hi : base ≤ k → k - base ≠ i := by omega
      by_cases hb : base ≤ k <;> simp [hk, hb, hi]

/-- The tile runs this bobbin, with an empty pipeline, its carries and, beside what a pick-up keeps, no other register. -/
def RunsFresh (u : State) (n : Nat) (e : CreelEntry) (b : Bobbin) : Prop :=
  (tileGet u n).running = some { b with spilled := false } ∧
    (coreGet u n).pc = b.pc ∧ (coreGet u n).window = [] ∧ (coreGet u n).log = [] ∧ (coreGet u n).loops = [] ∧
    (∀ i < 6, e.handle = none → mapGet (coreGet u n).regs (58 + i) (rvOf 0) = rvOf (b.carry.getD i 0)) ∧
    (∀ k, (k < 58 ∨ 64 ≤ k) → keptAtPickup k = false → e.handle = none → mapGet (coreGet u n).regs k (rvOf 0) = rvOf 0)

@[simp] theorem tileGet_agentPut (s : State) (a k : Nat) (x : Agent) : tileGet (agentPut s a x) k = tileGet s k := rfl

/-- The registers of a bobbin that starts with no handle: what a pick-up keeps, and the six carries. -/
theorem startBobbin_regs (h : e.handle = none) : (coreGet (startBobbin s n e) n).regs =
    (List.range 6).foldl (fun m i => mapPut m (58 + i) (rvOf (e.bobbin.carry.getD i 0)))
      ((tileGet s n).core.regs.filter fun x => keptAtPickup x.1) := by
  simp [startBobbin, coreGet, h]

theorem startBobbin_runs (s : State) (n : Nat) (e : CreelEntry) (b : Bobbin) :
    RunsFresh (startBobbin s n { e with bobbin := b }) n e b := by
  refine ⟨?_, ?_, ?_, ?_, ?_, fun i hi hh => ?_, fun k hk hkept hh => ?_⟩
  case refine_6 =>
    rw [startBobbin_regs (e := { e with bobbin := b }) hh, mapGet, mapGet?_foldl_mapPut, if_pos (by simp [hi])]
    simp
  case refine_7 =>
    rw [startBobbin_regs (e := { e with bobbin := b }) hh, mapGet, mapGet?_foldl_mapPut, if_neg (by simp; omega), mapGet?_filter_dropped _ _ hkept]
    rfl
  all_goals simp [startBobbin, coreGet]

/-! ## Pick-up and stealing (02 R56 to R58) -/

theorem pickup_runs (hopen : pickOpen s n = true) (hpick : ownerPick (tileGet s n) = some (e, t)) :
    RunsFresh (pickup n s) n e (entryBobbin s n e) := by
  have h := startBobbin_runs (tilePut s n t) n e (entryBobbin s n e)
  simpa [pickup, hopen, hpick] using h

section Steal
variable {v : Nat} (hidle : tileIdle s n = true)
include hidle

theorem stealAttempt_runs (hv : (stealOrder s n)[(tileGet s n).stealNext % (stealOrder s n).length]? = some v)
    (hsteal : stealFrom s (tilePacks (tileGet s n)) v = some (e, t)) :
    RunsFresh (stealAttempt n s) n e (entryBobbin s v e) := by
  have h := startBobbin_runs (tilePut s v t) n e (entryBobbin s v e)
  simpa only [stealAttempt, hv, hidle, hsteal, if_true] using h

/-- A probe that finds nothing counts, and the next goes to the next tile (02 R57). -/
theorem stealAttempt_fails (hv : (stealOrder s n)[(tileGet s n).stealNext % (stealOrder s n).length]? = some v)
    (hsteal : stealFrom s (tilePacks (tileGet s n)) v = none) :
    (tileGet (stealAttempt n s) n).stealFails = (tileGet s n).stealFails + 1 ∧
      (tileGet (stealAttempt n s) n).stealNext = (tileGet s n).stealNext + 1 ∧
      (tileGet (stealAttempt n s) n).running = (tileGet s n).running ∧ (stealAttempt n s).mem = s.mem := by
  simp only [stealAttempt, hv, hidle, hsteal, if_true, tileGet_tilePut_same, tilePut_mem, and_self]

theorem stewardSteal_runs (hasked : (tileGet s n).stewardAsked = true)
    (hv : (((List.range 7).map fun i => (dieOf n + 1 + i) % 8).filter fun d => !(dieGet s d).lost).findSome?
      (fun d => fullest s (tilePacks (tileGet s n)) ((nodeTiles s n).filter fun x => decide (dieOf x = d))) = some v)
    (hsteal : stealFrom s (tilePacks (tileGet s n)) v = some (e, t)) :
    RunsFresh (stewardSteal n s) n e (entryBobbin s v e) := by
  have h := startBobbin_runs (tilePut s v t) n e (entryBobbin s v e)
  simpa only [stewardSteal, hasked, hidle, Bool.and_self, hv, hsteal, if_true] using h

end Steal

/-! ## Waking (16 R365, R367, R368) -/

/-- A state that differs from another in what device and host memory hold. -/
def MemoryOnly (s u : State) : Prop := ∃ mem hostMem0 hostMem1 lostGran symErr saved,
  u = { s with mem, hostMem0, hostMem1, lostGran, symErr, saved }

theorem MemoryOnly.refl (s : State) : MemoryOnly s s := ⟨_, _, _, _, _, _, rfl⟩

theorem MemoryOnly.trans {v : State} (h : MemoryOnly s u) (h' : MemoryOnly u v) : MemoryOnly s v := by
  obtain ⟨_, _, _, _, _, _, rfl⟩ := h
  obtain ⟨_, _, _, _, _, _, rfl⟩ := h'
  exact ⟨_, _, _, _, _, _, rfl⟩

theorem MemoryOnly.tileGet (h : MemoryOnly s u) (n : Nat) : tileGet u n = Machine.tileGet s n := by
  obtain ⟨_, _, _, _, _, _, rfl⟩ := h
  rfl

theorem csaTouch_saved (s : State) (pa k : Nat) : ∃ saved, csaTouch s pa k = { s with saved } := by
  fun_cases csaTouch
  · exact ⟨s.saved, rfl⟩
  · exact ⟨_, rfl⟩

theorem devWrite_memoryOnly (s : State) (pa : Nat) (bs : List Byte) : MemoryOnly s (devWrite s pa bs) := by
  unfold devWrite
  split
  · extract_lets k w s1 s2 s3
    obtain ⟨lostGran, h1⟩ : ∃ lostGran, s1 = { s with lostGran } := by
      unfold s1; split <;> exact ⟨_, rfl⟩
    obtain ⟨symErr, h2⟩ : ∃ symErr, s2 = { s1 with symErr } := by
      unfold s2; split <;> exact ⟨_, rfl⟩
    obtain ⟨saved, h3⟩ := csaTouch_saved s2 pa k
    exact ⟨_, _, _, _, _, _, by rw [show s3 = _ from h3, h2, h1]⟩
  all_goals exact ⟨_, _, _, _, _, _, rfl⟩

theorem spillWrite_memoryOnly (s : State) (n idx : Nat) (e : CreelEntry) : MemoryOnly s (spillWrite s n idx e) := by
  unfold spillWrite
  split
  · exact (devWrite_memoryOnly ..).trans (devWrite_memoryOnly ..)
  · exact .refl s

/-- A spill in one tile leaves every other tile as it is. -/
theorem tileGet_creelSpill_other {k : Nat} (h : k ≠ n) : tileGet (creelSpill s n) k = tileGet s k := by
  unfold creelSpill
  extract_lets l
  split
  · rfl
  · split
    · split
      · exact (tileGet_tilePut_other _ _ h).trans ((spillWrite_memoryOnly ..).tileGet k)
      · rfl
    · rfl

theorem tileGet_readyHead_other {k : Nat} {acq : Option (Nat × Scope)} (h : k ≠ n) :
    tileGet (readyHead s n e acq) k = tileGet s k :=
  (tileGet_creelSpill_other h).trans (tileGet_tilePut_other _ _ h)

/-! ### A freed wait entry is offered to a poller of another tile -/

theorem mem_pollers {loc : Nat} {x : Nat × CreelEntry × Nat} : x ∈ pollers s loc ↔ ∃ y ∈ s.tiles, ∃ e ∈ y.2.creel,
    ∃ addr th sc since tested, e.wait = some (.reel addr loc th sc false since tested) ∧ x = (y.1, e, since) := by
  simp only [pollers, List.mem_flatMap, List.mem_filterMap]
  refine exists_congr fun y => and_congr_right fun _ => exists_congr fun e => and_congr_right fun _ => ⟨fun h => ?_, ?_⟩
  · split at h
    · next addr l th sc since tested hw =>
      split at h
      · next hl => exact ⟨addr, th, sc, since, tested, hl ▸ hw, (Option.some.inj h).symm⟩
      · cases h
    · cases h
  · rintro ⟨addr, th, sc, since, tested, hw, rfl⟩
    simp [hw]

theorem oldestPoller_mem {l : List (Nat × CreelEntry × Nat)} {x : Nat × CreelEntry × Nat} :
    oldestPoller l = some x → x ∈ l := by
  refine List.foldlRecOn l _ (motive := fun r => r = some x → x ∈ l) nofun fun r hr y hy => ?_
  split
  · exact fun | rfl => hy
  · split
    · exact fun | rfl => hy
    · exact hr

/-- An entry that is offered changes a tile only where a waiter of that tile polls the reel. -/
theorem tileGet_offerEntry_other {r : ReelAt} (h : ∀ x ∈ pollers s (reelLoc r), x.1 ≠ n) :
    tileGet (offerEntry s r) n = tileGet s n := by
  unfold offerEntry
  split
  · rfl
  · next tile e since hold =>
    have hne : n ≠ tile := (h _ (oldestPoller_mem hold)).symm
    split
    · extract_lets x
      split
      · rfl
      · split
        · exact (tileGet_readyHead_other hne).trans (tileGet_tilePut_other _ _ hne)
        · exact tileGet_tilePut_other _ _ hne
    · rfl

/-! ### The entry that wakes -/

theorem mem_of_mem_dropAt {l : List α} {i : Nat} {x : α} (h : x ∈ dropAt l i) : x ∈ l :=
  (List.mem_append.mp h).elim List.mem_of_mem_take List.mem_of_mem_drop

theorem takeFirst_holds {p : α → Bool} {l rest : List α} {x : α} (h : takeFirst p l = some (x, rest)) : p x = true := by
  induction l generalizing rest with
  | nil => cases h
  | cons y l ih =>
    rw [takeFirst] at h
    split at h
    · cases h; assumption
    · obtain ⟨r, hr, heq⟩ := Option.map_eq_some_iff.mp h
      cases heq
      exact ih hr

theorem creelHard_dropAt {l : List CreelEntry} {i : Nat} (h : l[i]? = some e) (harea : e.area = none) :
    creelHard (dropAt l i) + 1 = creelHard l := by
  obtain ⟨hi, he⟩ := List.getElem?_eq_some_iff.mp h
  have hl : l = l.take i ++ e :: l.drop (i + 1) := by rw [← he, List.cons_getElem_drop_succ, List.take_append_drop]
  conv_rhs => rw [hl]
  simp only [creelHard, dropAt, List.filter_append, List.length_append, List.filter_cons, harea, Option.isNone_none, if_true,
    List.length_cons]
  omega

theorem tilePut_tilePut (s : State) (n : Nat) (t t' : Tile) : tilePut (tilePut s n t) n t' = tilePut s n t' :=
  congrArg (fun tiles => { s with tiles }) (mapPut_mapPut ..)

theorem creelSpill_fits (h : creelHard (tileGet s n).creel ≤ 64) : creelSpill s n = s :=
  if_pos h

/-- An entry of the hardware that becomes ready stands at the head, and nothing spills where there is room (02 R54, R55). -/
theorem readyHead_eq (harea : e.area = none) (hroom : creelHard (tileGet s n).creel < 64) (acq : Option (Nat × Scope)) :
    ∃ vc, readyHead s n e acq =
      tilePut s n { tileGet s n with creel := { e with wait := none, vc } :: (tileGet s n).creel } := by
  have hkeep : entryBobbin s n e = e.bobbin := by simp [entryBobbin, harea]
  unfold readyHead creelAdd
  extract_lets vc t
  refine ⟨vc, (creelSpill_fits ?_).trans ?_⟩
  · simpa [creelHard] using hroom
  · rw [if_pos rfl, hkeep, ← harea]

section Wakes
variable {i : Nat} (he : (tileGet s n).creel[i]? = some e) (harea : e.area = none)
  (hroom : creelHard (tileGet s n).creel ≤ 64)

/-- The tile with the entry at a place of its creel woken. -/
def wokenTile (t : Tile) (i : Nat) (e : CreelEntry) (vc : NMap Nat) : Tile :=
  { t with creel := { e with wait := none, vc } :: dropAt t.creel i }

include he

/-- A waiter of the tile that wakes polls no reel any more, and the others poll as before. -/
theorem mem_pollers_of_woken {loc : Nat} {vc : NMap Nat} {x : Nat × CreelEntry × Nat}
    (hx : x ∈ pollers (tilePut s n (wokenTile (tileGet s n) i e vc)) loc) : x ∈ pollers s loc := by
  obtain ⟨y, hy, c, hc, addr, th, sc, since, tested, hw, rfl⟩ := mem_pollers.mp hx
  refine mem_pollers.mpr ?_
  rcases mem_mapPut hy with rfl | hy
  · have hlisted : (n, tileGet s n) ∈ s.tiles := by
      refine mem_of_mapGet? ?_
      cases hm : mapGet? s.tiles n with
      | none => simp [tileGet, mapGet, hm, tileReset] at he
      | some t => simp [tileGet, mapGet, hm]
    refine ⟨_, hlisted, c, ?_, addr, th, sc, since, tested, hw, rfl⟩
    rcases List.mem_cons.mp hc with rfl | hc
    · cases hw
    · exact mem_of_mem_dropAt hc
  · exact ⟨y, hy, c, hc, addr, th, sc, since, tested, hw, rfl⟩

include harea hroom

/-- A waiter that stands in the hardware of its creel becomes ready at the head, and nothing spills (02 R54, R55). -/
theorem wakeAt_eq (acq : Option (Nat × Scope)) :
    ∃ vc, wakeAt s n i acq = tilePut s n (wokenTile (tileGet s n) i e vc) := by
  have hhard := creelHard_dropAt he harea
  obtain ⟨vc, hvc⟩ := readyHead_eq (s := tilePut s n { tileGet s n with creel := dropAt (tileGet s n).creel i }) (n := n) harea
    (by rw [tileGet_tilePut_same]; dsimp only; omega) acq
  refine ⟨vc, ?_⟩
  simp only [wakeAt, he]
  rw [hvc, tilePut_tilePut, tileGet_tilePut_same]
  rfl

/-- A reel waiter that is woken spuriously becomes ready; its freed entry goes to no waiter of its tile (16 R365, R368). -/
theorem spuriousWake_reel {addr th : Word} {loc since tested : Nat} {sc : Scope} {listed : Bool}
    (hw : e.wait = some (.reel addr loc th sc listed since tested))
    (hnone : listed = true → ∀ x ∈ pollers s (reelLoc (locReelAt loc)), x.1 ≠ n) :
    ∃ vc, tileGet (spuriousWake n i s) n = wokenTile (tileGet s n) i e vc := by
  obtain ⟨vc, hwake⟩ := wakeAt_eq he harea hroom none
  refine ⟨vc, ?_⟩
  have hat : waitAt (tileGet s n) i = some (.reel addr loc th sc listed since tested) := by simp [waitAt, he, hw]
  have hwoken : tileGet (wakeAt s n i none) n = wokenTile (tileGet s n) i e vc := by rw [hwake, tileGet_tilePut_same]
  unfold spuriousWake
  rw [hat]
  dsimp only
  split
  · next hl =>
    split
    · next w rest htake =>
      refine Eq.trans ?_ hwoken
      have hloc : w.loc = loc := by
        have := takeFirst_holds htake
        simp only [Bool.and_eq_true, decide_eq_true_eq] at this
        exact this.1.1.1
      have hoffer : tileGet (offerEntry { wakeAt s n i none with waits := rest } (locReelAt loc)) n =
          tileGet (wakeAt s n i none) n :=
        tileGet_offerEntry_other fun x hx => hnone hl x (mem_pollers_of_woken he (hwake ▸ hx))
      change tileGet (if waitRoom _ (locReelAt w.loc) = true then _ else _) n = _
      rw [hloc]
      split
      · exact hoffer
      · rfl
    · exact hwoken
  · exact hwoken
omit harea hroom

theorem spuriousWake_phase (hw : e.wait = some .phase) : spuriousWake n i s = wakePhase s n := by
  have hat : waitAt (tileGet s n) i = some .phase := by simp [waitAt, he, hw]
  simp only [spuriousWake, hat]

/-- The test of a parked polling waiter reads its reel (16 R367). -/
theorem parkedPoll_eq {addr th : Word} {loc since tested : Nat} {sc : Scope} {listed : Bool}
    (hdue : pickTurn s (pollDue s) = some (n, i)) (hw : e.wait = some (.reel addr loc th sc listed since tested)) :
    parkedPoll s = pollRead s n i addr loc th sc listed since e := by
  simp only [parkedPoll, hdue, he, hw]

end Wakes

/-- The state with an entry of a creel set to wait on, with the time of its test (16 R367). -/
theorem creel_pollRead_waits {i : Nat} {addr th : Word} {loc l since : Nat} {sc : Scope} {listed : Bool}
    (h : parkedAt s n addr loc = .bounced ∧ l = loc ∨
      ∃ r, parkedAt s n addr loc = .here r ∧ l = reelLoc r ∧ (reelVal s r).toNat < th.toNat) :
    (tileGet (pollRead s n i addr loc th sc listed since e) n).creel =
      (tileGet s n).creel.set i { e with wait := some (.reel addr l th sc listed since (timeOf s)) } := by
  rcases h with ⟨hat, rfl⟩ | ⟨r, hat, rfl, hlow⟩
  · simp only [pollRead, hat, tileGet_tilePut_same]
  · simp only [pollRead, hat, if_neg (Nat.not_le.mpr hlow), tileGet_tilePut_same]

/-- A waiter whose reel has reached its threshold, or whose read would fault, wakes (16 R367, R368; log entry 68). -/
theorem pollRead_wakes {i : Nat} {addr th : Word} {loc since : Nat} {sc : Scope} {listed : Bool}
    (h : parkedAt s n addr loc = .faulty ∨ ∃ r, parkedAt s n addr loc = .here r ∧ th.toNat ≤ (reelVal s r).toNat) :
    ∃ acq, pollRead s n i addr loc th sc listed since e = wakeAt s n i acq := by
  rcases h with hat | ⟨r, hat, hmet⟩
  · exact ⟨_, by simp only [pollRead, hat]; rfl⟩
  · exact ⟨_, by simp only [pollRead, hat, if_pos hmet]; rfl⟩

end BobbinsStart

/-- Settles O41: a pick-up and every steal run the bobbin by `startBobbin`, and every wake goes by `wakeAt`. -/
theorem bobbinsStart : Obligations.BobbinsStart := by
  intro tile s e t n runs ready
  have hready (i : Nat) (acq : Option (Nat × Scope)) (he : (tileGet s n).creel[i]? = some e) :
      ready (wakeAt s n i acq) i := fun harea hroom => by
    obtain ⟨vc, hvc⟩ := wakeAt_eq he harea hroom acq
    exact ⟨vc, by rw [hvc, tileGet_tilePut_same]; rfl⟩
  refine ⟨fun ho hp => ⟨_, rfl, pickup_runs ho hp⟩, fun hi v hv => ⟨fun hs => ⟨_, rfl, stealAttempt_runs hi hv hs⟩,
      fun hs => ⟨_, rfl, stealAttempt_fails hi hv hs⟩⟩,
    fun hi ha v hv hs => ⟨_, rfl, stewardSteal_runs hi ha hv hs⟩, fun idx he => ⟨?spurious, fun hw => ?phase⟩,
    fun i addr loc th sc listed since tested hdue he hw => ?poll⟩
  case spurious =>
    refine fun addr loc th sc listed since tested hw hnone => ⟨_, rfl, fun harea hroom => ?_⟩
    obtain ⟨vc, hvc⟩ := spuriousWake_reel he harea hroom hw hnone
    exact ⟨vc, congrArg Tile.creel hvc⟩
  case phase => exact congrArg Host.Outcome.next (spuriousWake_phase he hw)
  case poll =>
    refine ⟨_, congrArg Host.Outcome.next (parkedPoll_eq he hdue hw), fun r hat hmet => ?_,
      fun r hat hlow => creel_pollRead_waits (.inr ⟨r, hat, rfl, hlow⟩), fun hat => creel_pollRead_waits (.inl ⟨hat, rfl⟩),
      fun hat => ?_⟩
    · obtain ⟨acq, h⟩ := pollRead_wakes (.inr ⟨r, hat, hmet⟩)
      exact h ▸ hready i acq he
    · obtain ⟨acq, h⟩ := pollRead_wakes (.inl hat)
      exact h ▸ hready i acq he

end Sys2Proof.Machine

/-! # O56: accesses through the control BAR, the window BAR and AtomicOps; what hosts write in the management registers and tiles -/

namespace Sys2Proof.Machine
open Sys2Proof

section HostAccesses
variable {s u : State} {h n a : Nat} {v : Word}

/-! ## States that differ in their clocks alone, or in the queues of the dispatcher -/

/-- A state that differs from another in the clocks of the memory model alone. -/
def ClocksOnly (s u : State) : Prop := ∃ agents releases, u = { s with agents, releases }

theorem ClocksOnly.refl (s : State) : ClocksOnly s s := ⟨_, _, rfl⟩

theorem ClocksOnly.trans {v : State} (h : ClocksOnly s u) (h' : ClocksOnly u v) : ClocksOnly s v := by
  obtain ⟨_, _, rfl⟩ := h
  obtain ⟨_, _, rfl⟩ := h'
  exact ⟨_, _, rfl⟩

theorem ClocksOnly.mem (h : ClocksOnly s u) : u.mem = s.mem := by
  obtain ⟨_, _, rfl⟩ := h
  rfl

theorem ClocksOnly.waits (h : ClocksOnly s u) : u.waits = s.waits := by
  obtain ⟨_, _, rfl⟩ := h
  rfl

theorem ClocksOnly.records (h : ClocksOnly s u) : u.records = s.records := by
  obtain ⟨_, _, rfl⟩ := h
  rfl

theorem ClocksOnly.devBytes (h : ClocksOnly s u) (pa k : Nat) : devBytes u pa k = Machine.devBytes s pa k := by
  obtain ⟨_, _, rfl⟩ := h
  rfl

theorem relsJoin_clocksOnly (s : State) (loc : Nat) (r : Option Rel) : ClocksOnly s (relsJoin s loc r) := by
  unfold relsJoin
  split
  · exact .refl s
  · exact ⟨_, _, rfl⟩

theorem relaxedRead_clocksOnly (s : State) (g : Nat) (x : Agent) (loc : Nat) : ClocksOnly s (relaxedRead s g x loc) := by
  unfold relaxedRead
  split
  · exact .refl s
  · exact ⟨_, _, rfl⟩

theorem recordRead_clocksOnly (s : State) (h k m : Nat) : ClocksOnly s (recordRead s h k m) := by
  fun_cases recordRead
  · exact .refl s
  · exact ⟨_, _, rfl⟩

/-- A relaxed atomic touches the clocks alone (17 R382). -/
theorem syncAccess_rlx_clocksOnly (s : State) (g ident node place loc : Nat) (sc : Scope) :
    ClocksOnly s (syncAccess s g ident node place .rlx sc loc true true) :=
  (relaxedRead_clocksOnly ..).trans (relsJoin_clocksOnly ..)

theorem foldl_recordRead_clocksOnly (s : State) (h : Nat) (l : List (Nat × Nat)) :
    ClocksOnly s (l.foldl (fun s r => recordRead s h r.1 r.2) s) :=
  foldl_keeps (p := ClocksOnly s) (.refl s) fun _ _ hs => hs.trans (recordRead_clocksOnly ..)

/-- A state that differs from another in what the dispatcher and the fault rings queue. -/
def QueuesOnly (s u : State) : Prop := ∃ nodes recQ hosts, u = { s with nodes, recQ, hosts }

theorem QueuesOnly.refl (s : State) : QueuesOnly s s := ⟨_, _, _, rfl⟩

theorem QueuesOnly.trans {v : State} (h : QueuesOnly s u) (h' : QueuesOnly u v) : QueuesOnly s v := by
  obtain ⟨_, _, _, rfl⟩ := h
  obtain ⟨_, _, _, rfl⟩ := h'
  exact ⟨_, _, _, rfl⟩

theorem QueuesOnly.mgmt (h : QueuesOnly s u) : u.mgmt = s.mgmt := by
  obtain ⟨_, _, _, rfl⟩ := h
  rfl

theorem packLost_queuesOnly (s : State) (k : Nat) (nd : Node) : QueuesOnly s (packLost s k nd) := by
  unfold packLost nodeNote nodeNoteIn
  split
  · exact ⟨_, _, _, rfl⟩
  · exact ⟨_, _, _, rfl⟩

theorem drrRest_queuesOnly (s : State) : QueuesOnly s (drrRest s) := by
  obtain ⟨hosts, e⟩ := drrRest_hosts s
  exact ⟨_, _, hosts, e⟩

/-- A retest changes nodes, records and deficits (02 R45). -/
theorem retest_queuesOnly (s : State) : QueuesOnly s (retest s) := by
  refine .trans (foldl_keeps (p := QueuesOnly s) (.refl s) fun u x hu => ?_) (drrRest_queuesOnly _)
  dsimp only
  split
  · exact hu
  · split
    iterate 4 · exact hu.trans ⟨_, _, _, rfl⟩
    · exact hu.trans (packLost_queuesOnly ..)
    · exact hu

/-! ## Bytes of memory after a write -/

theorem memGet_memPutList_other (m : Mem) {a c : Nat} {bs : List Byte} (h : c < a ∨ a + bs.length ≤ c) :
    memGet (memPutList m a bs) c = memGet m c := by
  induction bs generalizing m a with
  | nil => rfl
  | cons b bs ih =>
    rw [List.length_cons] at h
    rw [memPutList, ih _ (by omega), memGet_memPut_other _ _ (by omega)]

theorem memGet_memPutList {m : Mem} (hm : memWf m = true) {a i : Nat} {bs : List Byte} (hi : i < bs.length) :
    memGet (memPutList m a bs) (a + i) = bs[i] := by
  induction bs generalizing m a i with
  | nil => exact absurd hi (Nat.not_lt_zero i)
  | cons b bs ih =>
    rw [memPutList]
    cases i with
    | zero => exact (memGet_memPutList_other _ (.inl (Nat.lt_succ_self a))).trans (memGet_memPut_same hm a b)
    | succ i =>
      have := ih (memPut_wf hm a b) (a := a + 1) (Nat.lt_of_succ_lt_succ hi)
      simpa [Nat.add_right_comm, Nat.add_assoc] using this

theorem homeOf_stack_iff {pa k : Nat} :
    homeOf pa = .stack k ↔ pa < 2 ^ 39 ∧ pa % 2 ^ 36 < 0xC00000000 ∧ k = pa / 2 ^ 36 := by
  unfold homeOf
  split
  · split <;> simp_all [eq_comm]
  · constructor
    · intro h
      split at h <;> [cases h; (split at h <;> [cases h; (split at h <;> cases h)])]
    · omega

/-- Bytes in one stack's range have their home there (10 R233). -/
theorem homeOf_of_inHbm (h : inHbm a n = true) {i : Nat} (hi : i < n) : ∃ k, homeOf (a + i) = .stack k := by
  unfold inHbm at h
  split at h
  · next x y hx hy =>
    obtain rfl := of_decide_eq_true h
    obtain ⟨hx1, hx2, rfl⟩ := homeOf_stack_iff.mp hx
    obtain ⟨hy1, hy2, hxy⟩ := homeOf_stack_iff.mp hy
    exact ⟨_, homeOf_stack_iff.mpr ⟨by omega, by omega, rfl⟩⟩
  · cases h

theorem devBytes_of_inHbm (h : inHbm a n = true) (s : State) : devBytes s a n = memGetList s.mem a n := by
  refine List.map_congr_left fun i hi => ?_
  obtain ⟨k, hk⟩ := homeOf_of_inHbm h (List.mem_range.mp hi)
  simp only [devByte, hk]

/-- A write to a stack writes its bytes into device memory. -/
theorem devWrite_mem {k : Nat} (h : homeOf a = .stack k) (s : State) (bs : List Byte) :
    (devWrite s a bs).mem = memPutList s.mem a bs := by
  unfold devWrite
  rw [h]
  extract_lets m w s1 s2 s3
  have h1 : s1.mem = s.mem := by unfold s1; split <;> rfl
  have h2 : s2.mem = s1.mem := by unfold s2; split <;> rfl
  obtain ⟨saved, h3⟩ : ∃ saved, s3 = { s2 with saved } := csaTouch_saved ..
  rw [h3, h2, h1]

theorem leNat_leBytes (k x : Nat) : leNat (leBytes k x) = x % 256 ^ k := by
  induction k generalizing x with
  | zero => simp [leBytes, leNat, Nat.mod_one]
  | succ k ih =>
    have hp : 256 ^ (k + 1) = 256 * 256 ^ k := Nat.pow_succ'
    rw [leBytes, leNat, ih, BitVec.toNat_ofNat, hp]
    exact (Nat.mod_mul ..).symm

theorem memGetList_memPutList {m : Mem} (hm : memWf m = true) (a : Nat) (bs : List Byte) :
    memGetList (memPutList m a bs) a bs.length = bs := by
  refine List.ext_getElem (by simp [memGetList]) fun i h1 h2 => ?_
  simpa [memGetList] using memGet_memPutList hm h2

/-! ## What a host's write leaves of the waits on reels -/

/-- A host's write that meets no reel that is waited on wakes nothing (16 R365). -/
theorem hostWakes_none (h : ∀ w ∈ s.waits, w.loc * 8 + 8 ≤ a ∨ a + n ≤ w.loc * 8) : hostWakes s a n = s := by
  unfold hostWakes
  extract_lets l
  have hl : l = [] := by
    refine List.filter_eq_nil_iff.mpr fun k hk => ?_
    obtain ⟨w, hw, rfl⟩ := List.mem_map.mp (List.mem_eraseDups.mp hk)
    have := h w hw
    simp only [Bool.and_eq_true, decide_eq_true_eq]
    omega
  rw [hl]
  rfl

/-- Without open records a host's access opens none and stops no node (17 R389, R390). -/
theorem hostCheck_noRecords (hr : s.records = []) (write plain : Bool) (g : Nat) : hostCheck h write plain s g = s := by
  simp [hostCheck, hr]

theorem foldl_hostCheck_noRecords (hr : s.records = []) (write plain : Bool) (l : List Nat) :
    l.foldl (hostCheck h write plain) s = s :=
  foldl_eq_self fun g _ => hostCheck_noRecords hr write plain g

theorem plainWrite_clocksOnly (s : State) (l : List Nat) : ClocksOnly s (plainWrite s l) := by
  unfold plainWrite
  split
  · exact .refl s
  · exact ⟨_, _, rfl⟩

theorem devWrite_waits (s : State) (pa : Nat) (bs : List Byte) : (devWrite s pa bs).waits = s.waits := by
  obtain ⟨_, _, _, _, _, _, e⟩ := devWrite_memoryOnly s pa bs
  rw [e]

/-- A coherent write to a stack writes its bytes and leaves the waits as they are (10 R234). -/
theorem partWrite_mem {k : Nat} (h : homeOf a = .stack k) (s : State) (bs : List Byte) :
    (partWrite s a bs).mem = memPutList s.mem a bs ∧ (partWrite s a bs).waits = s.waits := by
  have hdrop : ((granList a bs.length).foldl cacheDrop s).mem = s.mem ∧
      ((granList a bs.length).foldl cacheDrop s).waits = s.waits :=
    foldl_keeps (p := fun u : State => u.mem = s.mem ∧ u.waits = s.waits) ⟨rfl, rfl⟩ fun _ _ hu => hu
  have hplain := plainWrite_clocksOnly ((granList a bs.length).foldl cacheDrop s) (locsOf locMem a bs.length)
  exact ⟨(devWrite_mem h _ bs).trans (congrArg (memPutList · a bs) (hplain.mem.trans hdrop.1)),
    (devWrite_waits ..).trans (hplain.waits.trans hdrop.2)⟩

/-! ## A host's access completes (20 R446 to R450) -/

@[simp] theorem cpl_complete (s : State) (h : Nat) (c : Cpl) : (hostGet (complete s h c) h).cpl = some c := by
  simp [complete]

/-- Of a host's own block, a completion changes the completion alone. -/
theorem hostGet_complete (s : State) (h : Nat) (c : Cpl) : hostGet (complete s h c) h = { hostGet s h with cpl := some c } := by
  simp [complete]

/-! ## The window BAR (20 R450) -/

section Window
variable {ctl : Nat}

theorem window_inside (hlow : a < 2 ^ 39) (hin : inHbm a n = true) : ¬ (2 ^ 39 ≤ a ∨ (!inHbm a n) = true) := by
  simpa [hin] using hlow

theorem windowAccess_unsupported (hbad : 2 ^ 39 ≤ a ∨ inHbm a (2 ^ (natBits ctl 1 3 % 4)) = false) :
    windowAccess h a ctl v s = complete s h .unsupported :=
  if_pos (by simpa using hbad)

variable (hlow : a < 2 ^ 39) (hin : inHbm a (2 ^ (natBits ctl 1 3 % 4)) = true)
include hlow hin

theorem windowAccess_writeAbort (hw : natBit ctl 0 = true) (ht : memWriteTrap s a (2 ^ (natBits ctl 1 3 % 4)) ≠ none) :
    windowAccess h a ctl v s = complete s h .abort := by
  obtain ⟨x, hx⟩ := Option.ne_none_iff_exists'.mp ht
  simp only [windowAccess, if_neg (window_inside hlow hin), hw, if_true, hx]

theorem windowAccess_readAbort (hw : natBit ctl 0 = false) (ht : memReadTrap s a (2 ^ (natBits ctl 1 3 % 4)) ≠ none) :
    windowAccess h a ctl v s = complete s h .abort := by
  obtain ⟨x, hx⟩ := Option.ne_none_iff_exists'.mp ht
  simp only [windowAccess, if_neg (window_inside hlow hin), hw, Bool.false_eq_true, if_false, hx]

theorem windowAccess_write (hw : natBit ctl 0 = true) (ht : memWriteTrap s a (2 ^ (natBits ctl 1 3 % 4)) = none) :
    windowAccess h a ctl v s = complete (hostWakes (partWrite
      ((granList a (2 ^ (natBits ctl 1 3 % 4))).foldl (hostCheck h true true) s) a
        (leBytes (2 ^ (natBits ctl 1 3 % 4)) v.toNat)) a (2 ^ (natBits ctl 1 3 % 4))) h (.ok []) := by
  simp only [windowAccess, if_neg (window_inside hlow hin), hw, if_true, ht]

theorem windowAccess_read (hw : natBit ctl 0 = false) (ht : memReadTrap s a (2 ^ (natBits ctl 1 3 % 4)) = none) :
    let s2 := (granList a (2 ^ (natBits ctl 1 3 % 4))).foldl (hostCheck h false true)
      ((recsAt s h a (2 ^ (natBits ctl 1 3 % 4))).foldl (fun s r => recordRead s h r.1 r.2) s)
    windowAccess h a ctl v s = complete s2 h (.ok (devBytes s2 a (2 ^ (natBits ctl 1 3 % 4)))) := by
  simp only [windowAccess, if_neg (window_inside hlow hin), hw, Bool.false_eq_true, if_false, ht]

end Window

/-- A write to a stack that meets no reel that is waited on leaves its bytes, and all others as they were. -/
theorem hostWakes_bytes (hm : memWf s.mem = true) (hin : inHbm a n = true) {bs : List Byte} (hn : bs.length = n)
    (hu : u.mem = memPutList s.mem a bs) (hw : ∀ w ∈ u.waits, w.loc * 8 + 8 ≤ a ∨ a + n ≤ w.loc * 8) :
    devBytes (hostWakes u a n) a n = bs ∧ ∀ c, c < a ∨ a + n ≤ c → memGet (hostWakes u a n).mem c = memGet s.mem c := by
  subst hn
  rw [hostWakes_none hw]
  exact ⟨by rw [devBytes_of_inHbm hin, hu, memGetList_memPutList hm],
    fun c hc => by rw [hu, memGet_memPutList_other _ hc]⟩

/-! ## AtomicOps (20 R446) -/

theorem leNat_lt (bs : List Byte) : leNat bs < 256 ^ bs.length := by
  induction bs with
  | nil => exact Nat.one_pos
  | cons b bs ih =>
    have hb := b.isLt
    rw [leNat, List.length_cons, Nat.pow_succ]
    omega

theorem devNat_lt (s : State) (a n : Nat) : devNat s a n < 2 ^ (8 * n) := by
  have h := leNat_lt (devBytes s a n)
  rwa [devBytes, List.length_map, List.length_range, ← devBytes, show 256 = 2 ^ 8 from rfl, ← Nat.pow_mul] at h

/-- The new value of an AtomicOp: FetchAdd, Swap or CAS (20 R446). -/
def atomicOpNew (op bytes old : Nat) (x y : Word) : Nat :=
  if op = 0 then (old + x.toNat) % 2 ^ (8 * bytes)
  else if op = 1 then x.toNat % 2 ^ (8 * bytes)
  else if old = x.toNat % 2 ^ (8 * bytes) then y.toNat % 2 ^ (8 * bytes) else old

theorem atomicOpNew_lt {op bytes old : Nat} {x y : Word} (h : old < 2 ^ (8 * bytes)) :
    atomicOpNew op bytes old x y < 2 ^ (8 * bytes) := by
  have hpos : 0 < 2 ^ (8 * bytes) := Nat.two_pow_pos _
  unfold atomicOpNew
  split
  · exact Nat.mod_lt _ hpos
  · split
    · exact Nat.mod_lt _ hpos
    · split
      · exact Nat.mod_lt _ hpos
      · exact h

section Atomic
variable {ctl bytes : Nat} {x y : Word} (hbytes : bytes = if natBit ctl 3 then 8 else 4)
  (hcan : hostCan s (natBits ctl 0 1) = true)
include hbytes hcan

theorem completerAtomic_unsupported
    (hbad : natBits ctl 1 2 = 3 ∨ 2 ^ 39 ≤ a ∨ a % bytes ≠ 0 ∨ inHbm a bytes = false) :
    completerAtomic ctl a x y s = complete s (natBits ctl 0 1) .unsupported := by
  subst hbytes
  unfold completerAtomic
  exact (if_neg (by simp [hcan])).trans (if_pos (by simpa using hbad))

variable (hok : ¬ (natBits ctl 1 2 = 3 ∨ 2 ^ 39 ≤ a ∨ a % bytes ≠ 0 ∨ inHbm a bytes = false))
include hok

theorem completerAtomic_abort (ht : memReadTrap s a bytes ≠ none) :
    completerAtomic ctl a x y s = complete s (natBits ctl 0 1) .abort := by
  subst hbytes
  unfold completerAtomic
  exact (if_neg (by simp [hcan])).trans ((if_neg (by simpa using hok)).trans (if_pos (Option.isSome_iff_ne_none.mpr ht)))

/-- An AtomicOp that is served leaves the new value and returns the old one. -/
theorem completerAtomic_ok (ht : memReadTrap s a bytes = none) :
    let s1 := hostCheck (natBits ctl 0 1) true false s (granMem a)
    let s2 := syncAccess s1 (hostAgentId (natBits ctl 0 1)) (identOf 2 (natBits ctl 0 1) 0) 4097 (256 + natBits ctl 0 1) .rlx .sys
      (locMem a) true true
    completerAtomic ctl a x y s = complete (hostWakes (devWrite (cacheDrop s2 (a / 64)) a
      (leBytes bytes (atomicOpNew (natBits ctl 1 2) bytes (devNat s a bytes) x y))) a bytes) (natBits ctl 0 1)
        (.ok (leBytes bytes (devNat s a bytes))) := by
  subst hbytes
  intro s1 s2
  unfold completerAtomic
  refine (if_neg (by simp [hcan])).trans ((if_neg (by simpa using hok)).trans ((if_neg (by simp [ht])).trans ?_))
  refine congrArg (fun new => complete (hostWakes (devWrite (cacheDrop s2 (a / 64)) a
    (leBytes (if natBit ctl 3 then 8 else 4) new)) a (if natBit ctl 3 then 8 else 4)) (natBits ctl 0 1)
      (.ok (leBytes (if natBit ctl 3 then 8 else 4) (devNat s a (if natBit ctl 3 then 8 else 4))))) ?_
  unfold atomicOpNew
  split <;> simp_all

end Atomic

/-! ## The management block and the tile blocks (20 R447 to R449) -/

section Management
variable {f : State → State}

theorem mgmtWrite_mine (hm : h = s.mgmt.mgmtHost) : mgmtWrite h s f = f s :=
  if_pos hm

theorem mgmtWrite_other (hm : h ≠ s.mgmt.mgmtHost) : mgmtWrite h s f = hostNote s h (trapOf causeManagementAccess) :=
  if_neg hm

/-- What the host that is not the management host writes in the management block is dropped with a record (02 R41). -/
theorem mgmtBlockWrite_other (hm : h ≠ s.mgmt.mgmtHost) (off : Nat) :
    mgmtBlockWrite h off v s = hostNote s h (trapOf causeManagementAccess) := by
  unfold mgmtBlockWrite
  extract_lets put
  split
  · exact mgmtWrite_other hm
  · split
    · exact mgmtWrite_other hm
    · split <;> exact mgmtWrite_other hm

/-- A write that is dropped leaves a management-access record, and the registers as they were. -/
def Dropped (s u : State) : Prop := ∃ r, u.recQ = s.recQ ++ [r] ∧ r.cls = recClass causeManagementAccess ∧
  u.mgmt = s.mgmt ∧ u.tiles = s.tiles ∧ u.dies = s.dies

theorem hostNote_dropped (s : State) (h : Nat) : Dropped s (hostNote s h (trapOf causeManagementAccess)) :=
  ⟨_, rfl, rfl, rfl, rfl, rfl⟩

theorem mgmtWrite_other_dropped (hm : h ≠ s.mgmt.mgmtHost) : Dropped s (mgmtWrite h s f) :=
  mgmtWrite_other (f := f) hm ▸ hostNote_dropped s h

theorem shepCtlWrite_other_dropped (hm : h ≠ s.mgmt.mgmtHost) (hthere : tileThere s n = true) :
    Dropped s (shepCtlWrite h n v s) := by
  rw [shepCtlWrite, if_neg (by simp [hthere])]
  exact mgmtWrite_other_dropped hm

end Management

/-! ### CSA_BASE and CSA_CNT (18 R412) -/

section Mine
variable (hm : h = s.mgmt.mgmtHost)
include hm

theorem csaWrite_base (hheld : nodesHeld s = false) : (csaWrite h 0 v s).mgmt.csaBase = v &&& 0x3FFFFF800000#64 := by
  simp [csaWrite, mgmtWrite_mine hm, hheld]

theorem csaWrite_count (hheld : nodesHeld s = false) : (csaWrite h 1 v s).mgmt.csaCnt = v.toNat % 2 ^ 14 := by
  simp [csaWrite, mgmtWrite_mine hm, hheld, (retest_queuesOnly _).mgmt]

theorem csaWrite_base_dropped (hheld : nodesHeld s = true) (hnew : v &&& 0x3FFFFF800000#64 ≠ s.mgmt.csaBase) :
    Dropped s (csaWrite h 0 v s) := by
  simp [csaWrite, mgmtWrite_mine hm, hheld, hnew, hostNote_dropped]

theorem csaWrite_count_dropped (hheld : nodesHeld s = true) (hnew : v.toNat % 2 ^ 14 ≠ s.mgmt.csaCnt) :
    Dropped s (csaWrite h 1 v s) := by
  have hnew' : ¬ v.toNat % 16384 = s.mgmt.csaCnt := hnew
  simp [csaWrite, mgmtWrite_mine hm, hheld, hnew', hostNote_dropped]

/-! ### HOST_CFG and DIE_STEAL_CTL (20 R447; 02 R58) -/

theorem hostCfgWrite_dropped (hlive : nodesLive s = true) : Dropped s (hostCfgWrite h v s) := by
  simp [hostCfgWrite, mgmtWrite_mine hm, hlive, hostNote_dropped]

theorem hostCfgWrite_takes (hlive : nodesLive s = false) :
    (hostCfgWrite h v s).mgmt = { s.mgmt with hostSplit := natBits v.toNat 1 11 } := by
  simp [hostCfgWrite, mgmtWrite_mine hm, hlive]

theorem dieStealWrite_dropped (d : Nat) (hz : v.toNat % 256 = 0) : Dropped s (dieStealWrite h d v s) := by
  simp [dieStealWrite, mgmtWrite_mine hm, hz, hostNote_dropped]

theorem dieStealWrite_takes (d : Nat) (hz : v.toNat % 256 ≠ 0) :
    dieGet (dieStealWrite h d v s) d = { dieGet s d with xdie := v.getLsbD 8, tries := v.toNat % 256 } := by
  simp [dieStealWrite, mgmtWrite_mine hm, hz]

/-! ### FREQ_CMD (01 R18; 20 R448) -/

theorem freqCmd_busy (hb : s.freqBusy = true) : freqCmd h v s = s := by
  simp [freqCmd, mgmtWrite_mine hm, hb]

theorem freqCmd_begins (hb : s.freqBusy = false) : freqCmd h v s = freqBegin s (v.toNat % 4) := by
  simp [freqCmd, mgmtWrite_mine hm, hb]

/-! ### ALARM_CTL and SCRUB_CTL (20 R466; 19 R432) -/

/-- Level 3, a lower level under lock, and unlocking are refused (20 R466). -/
theorem alarmCtlWrite_refused (hbad : v.toNat % 4 = 3 ∨ (natBit s.mgmt.alarmCtl.toNat 2 = true ∧
    (v.toNat % 4 < s.mgmt.alarmCtl.toNat % 4 ∨ v.getLsbD 2 = false))) : alarmCtlWrite h v s = s :=
  (mgmtWrite_mine hm).trans (if_pos (by simpa using hbad))

theorem alarmCtlWrite_takes (hok : ¬ (v.toNat % 4 = 3 ∨ (natBit s.mgmt.alarmCtl.toNat 2 = true ∧
    (v.toNat % 4 < s.mgmt.alarmCtl.toNat % 4 ∨ v.getLsbD 2 = false)))) :
    alarmCtlWrite h v s = { s with mgmt := { s.mgmt with alarmCtl := v &&& 7#64 } } :=
  (mgmtWrite_mine hm).trans (if_neg (by simpa using hok))

omit hm in
/-- A word made of 33 low bits and bit 33. -/
theorem scrubWord {x : Nat} (hx : x < 2 ^ 33) (b : Bool) :
    (BitVec.ofNat 64 (x + boolNat b * 2 ^ 33)).toNat % 2 ^ 33 = x ∧ (BitVec.ofNat 64 (x + boolNat b * 2 ^ 33)).getLsbD 33 = b := by
  rw [BitVec.getLsbD_ofNat, BitVec.toNat_ofNat, Nat.testBit_eq_decide_div_mod_eq]
  cases b
  · simp [boolNat]
    omega
  · simp [boolNat]
    omega

/-- A pass time outside an hour to a year, or reserved bits, leave SCRUB_CTL with its error bit (19 R432). -/
theorem scrubCtlWrite_refused
    (hbad : natBits v.toNat 34 30 ≠ 0 ∨ natBits v.toNat 0 32 < 3600 ∨ 31536000 < natBits v.toNat 0 32) :
    (scrubCtlWrite h v s).mgmt.scrubCtl.getLsbD 33 = true ∧
      (scrubCtlWrite h v s).mgmt.scrubCtl.toNat % 2 ^ 33 = s.mgmt.scrubCtl.toNat % 2 ^ 33 := by
  have hb : (decide (natBits v.toNat 34 30 ≠ 0) || decide (natBits v.toNat 0 32 < 3600) ||
      decide (31536000 < natBits v.toNat 0 32)) = true := by simpa [or_assoc] using hbad
  obtain ⟨hlow, herr⟩ := scrubWord (Nat.mod_lt s.mgmt.scrubCtl.toNat (Nat.two_pow_pos 33)) true
  rw [scrubCtlWrite, mgmtWrite_mine hm]
  simp only [hb, if_true, Bool.or_true]
  exact ⟨herr, hlow⟩

theorem scrubCtlWrite_takes
    (hok : ¬ (natBits v.toNat 34 30 ≠ 0 ∨ natBits v.toNat 0 32 < 3600 ∨ 31536000 < natBits v.toNat 0 32)) :
    (scrubCtlWrite h v s).mgmt.scrubCtl.toNat % 2 ^ 33 = v.toNat % 2 ^ 33 ∧
      (scrubCtlWrite h v s).mgmt.scrubCtl.getLsbD 33 =
        (s.mgmt.scrubCtl.getLsbD 33 && !(keepSet s (mgmtReg 0x158) v).getLsbD 33) := by
  have hb : (decide (natBits v.toNat 34 30 ≠ 0) || decide (natBits v.toNat 0 32 < 3600) ||
      decide (31536000 < natBits v.toNat 0 32)) = false := by
    simpa [not_or, and_assoc] using hok
  rw [scrubCtlWrite, mgmtWrite_mine hm]
  simp only [hb, Bool.false_eq_true, if_false, Bool.or_false]
  exact scrubWord (Nat.mod_lt _ (Nat.two_pow_pos 33)) _

/-! ### SHEP_CTL and SHEP_FCMD (19 R439, R443) -/

theorem shepCtlWrite_refused (hthere : tileThere s n = true) (hbad : natBits v.toNat 20 3 < 4 ∨ natBits v.toNat 23 9 < 15) :
    shepCtlWrite h n v s = noteBits (govMap s n fun g => { g with ctlerr := true }) (tileReg n 0x48) 1 := by
  rw [shepCtlWrite, if_neg (by simp [hthere]), mgmtWrite_mine hm]
  exact if_pos (by simp only [Bool.or_eq_true, decide_eq_true_eq]; tauto)

/-- A value of SHEP_CTL is refused with ctlerr or taken (19 R443). -/
theorem shepCtlWrite_ctlerr_or (hthere : tileThere s n = true) :
    (tileGet (shepCtlWrite h n v s) n).gov.ctlerr = true ∨ (tileGet (shepCtlWrite h n v s) n).gov.ctl = v := by
  rw [shepCtlWrite, if_neg (by simp [hthere]), mgmtWrite_mine hm]
  dsimp only
  split
  · left
    change (tileGet (govMap s n fun g => { g with ctlerr := true }) n).gov.ctlerr = true
    rw [tileGet_govMap_same]
  · exact .inr ((tileGet_pinApply_same _ n).2.1.trans (congrArg (fun t : Tile => t.gov.ctl) (tileGet_govMap_same s n _)))

theorem shepFcmd_refused (hgo : natBit v.toNat 9 = true) (hbad : s.mgmt.shepCmd.isSome = true ∨ 287 < natBits v.toNat 0 9) :
    (shepFcmd h v s).mgmt.shepErr = true ∧ (shepFcmd h v s).mgmt.shepCmd = s.mgmt.shepCmd := by
  rw [shepFcmd, mgmtWrite_mine hm]
  dsimp only
  rw [if_neg (by simp [hgo]), if_pos (by rcases hbad with h | h <;> simp [h])]
  exact ⟨rfl, rfl⟩

theorem shepFcmd_starts (hgo : natBit v.toNat 9 = true) (hidle : s.mgmt.shepCmd = none) (hp : natBits v.toNat 0 9 ≤ 287)
    (hz : natBits v.toNat 12 52 = 0) (hfree : physTaken s (natBits v.toNat 0 9) = false) :
    (shepFcmd h v s).mgmt.shepCmd = some (natBits v.toNat 0 9) := by
  have hfree' : ∀ m, physTaken { s with mgmt := m } (natBits v.toNat 0 9) = false := fun _ => hfree
  rw [shepFcmd, mgmtWrite_mine hm]
  dsimp only
  rw [if_neg (by simp [hgo]), if_neg (by simp [hidle, hz, hfree', hp])]

end Mine

/-- A rise of the frequency moves every island to the table voltage of the point commanded first (01 R18). -/
theorem freqBegin_rise {point k : Nat} (hrise : s.point < point) (hk : k ∈ s.tiles.map (·.1)) :
    (tileGet (freqBegin s point) k).gov.v = tableVolt s k point ∧ (tileGet (freqBegin s point) k).gov.boost = 0 := by
  let s0 : State := { s with freqTarget := point, freqFrom := s.point, freqBusy := true }
  let q (w : State) : Prop := TilesOnly s0 w ∧ (tileGet w k).gov.v = tableVolt s0 k point ∧ (tileGet w k).gov.boost = 0
  have hother {w : State} {j x : Nat} (hj : j ≠ k) :
      tileGet (govMap (setVolt w j x) j fun g => { g with boost := 0 }) k = tileGet w k := by
    rw [tileGet_govMap_other _ _ (Ne.symm hj), tileGet_setVolt_other _ _ (Ne.symm hj)]
  have hq : q (moveVolts s0 point) := by
    refine foldl_reaches (p := TilesOnly s0) (q := q) hk (fun w h => h.1) (fun w hw => ?_) (fun w j _ hw => hw.setVolt.govMap)
      (fun w j hj hw => ⟨hw.1.setVolt.govMap, by rw [hother hj]; exact hw.2⟩) (.refl s0)
    obtain ⟨-, -, -, -, hv, hboost⟩ := gov_moved w k (tableVolt w k point)
    exact ⟨hw.setVolt.govMap, hv.trans (tableVolt_of_tilesOnly hw k point), hboost⟩
  rw [freqBegin, if_pos hrise]
  exact hq.2

/-! ## The control BAR (20 R449) -/

theorem mmioClear_keeps (s : State) (h off : Nat) :
    (mmioClear s h off).mem = s.mem ∧ (mmioClear s h off).nodes = s.nodes := by
  fun_cases mmioClear <;> exact ⟨rfl, rfl⟩

section ControlBar
variable {off size : Nat} (hopen : mmioOpen s h off = true)
include hopen

theorem rcRead_unsupported (hbad : size ≠ 8 ∨ off % 8 ≠ 0) : rcRead h off size s = complete s h .unsupported := by
  rw [rcRead, if_neg (by simp [hopen]), if_pos hbad]

theorem mmioWrite_unsupported (hbad : size ≠ 8 ∨ off % 8 ≠ 0) : mmioWrite h off size v s = complete s h .unsupported := by
  rw [mmioWrite, if_neg (by simp [hopen]), if_pos hbad]

/-- The number of a register of the control BAR, a host's own block apart. -/
def barReg (h off : Nat) : Nat := if off < 0x100000 then hostReg h off else off

theorem rcRead_ok (hal : off % 8 = 0) : rcRead h off 8 s = complete (mmioClear s h off) h
    (.ok (leBytes 8 ((mmioRead s h off).toNat - countIn s (barReg h off)))) := by
  rw [rcRead, if_neg (by simp [hopen]), if_neg (by simp [hal])]
  rfl

/-- The effect of a write of the control BAR, from the value that is written. -/
def barEffect (h off : Nat) (w : Word) (s : State) : State :=
  if off < 0x100000 then hostBlockWrite h off w s
  else if off < 0x200000 then mgmtBlockWrite h (off - 0x100000) w s
  else if 0x1000000 ≤ off ∧ off < 0x2000000 then tileBlockWrite h ((off - 0x1000000) / 0x10000) (off % 0x10000) w s
  else s

theorem mmioWrite_ok (hal : off % 8 = 0) :
    mmioWrite h off 8 v s = complete (barEffect h off (keepSet s (barReg h off) v) s) h (.ok []) := by
  rw [mmioWrite, if_neg (by simp [hopen]), if_neg (by simp [hal])]
  rfl

end ControlBar

theorem barEffect_mgmt {off : Nat} (hlo : 0x100000 ≤ off) (hhi : off < 0x200000) :
    barEffect h off v s = mgmtBlockWrite h (off - 0x100000) v s := by
  rw [barEffect, if_neg (Nat.not_lt.mpr hlo), if_pos hhi]

theorem barEffect_unassigned {off : Nat} (hlo : 0x2000000 ≤ off) : barEffect h off v s = s := by
  rw [barEffect, if_neg (by omega), if_neg (by omega), if_neg (by omega)]

/-- The host's own registers that take what is written, in the map of the control BAR (16 R360, R361; 18 R420). -/
theorem hostGet_barEffect (s : State) (h : Nat) (w : Word) :
    hostGet (barEffect h 0x1040 w s) h = { hostGet s h with hkAddr := w } ∧
      hostGet (barEffect h 0x1060 w s) h = { hostGet s h with tdmAsid := w.toNat % 2 ^ 11 } ∧
      hostGet (barEffect h 0x1058 w s) h = { hostGet s h with hkErr := (hostGet s h).hkErr && !w.getLsbD 1 } := by
  simp [barEffect, hostBlockWrite]

/-- The translation table and the fabric identifier, which the management host writes (10 R236; 20 R451). -/
theorem mgmt_barEffect (hm : h = s.mgmt.mgmtHost) (w : Word) :
    (barEffect h 0x100140 w s).mgmt.asidTbl = w &&& 0x3FFFFFFFC001#64 ∧
      (barEffect h 0x100190 w s).mgmt.fabId = w &&& 0xFFF#64 := by
  simp [barEffect, mgmtBlockWrite, mgmtWrite_mine hm]

end HostAccesses

/-- A host's access that is answered has the effect that its step names. -/
theorem hostDoes_can {s : State} {host : BitVec 1} {f : State → State} (h : hostCan s host.toNat = true) :
    hostDoes host s f = .next (f s) :=
  congrArg Host.Outcome.next (if_pos h)

/-- Settles O56: a BAR access goes by the block that its offset names, a register's write by the rule of the register, and a
window access or an AtomicOp by the bytes at its DPA. -/
theorem hostAccesses : Obligations.HostAccesses := by
  intro s host tile off size val data2 ctl h n t mine cpl reg dropped
  have hsize : size ≠ 8 ∨ off.toNat % 8 ≠ 0 → size.toNat ≠ 8 ∨ off.toNat % 8 ≠ 0 :=
    Or.imp_left fun hne he => hne (BitVec.eq_of_toNat_eq he)
  refine ⟨fun hopen hbad => ?unsupported, fun hopen hsz hal => ⟨?read, ?write⟩, fun hcan => ?host, fun hcan => ?atomic⟩
  case unsupported =>
    exact ⟨⟨_, congrArg Host.Outcome.next (rcRead_unsupported hopen (hsize hbad)), cpl_complete .., rfl, rfl⟩,
      ⟨_, congrArg Host.Outcome.next (mmioWrite_unsupported hopen (hsize hbad)), cpl_complete .., rfl, rfl⟩⟩
  case read =>
    subst hsz
    exact ⟨_, congrArg Host.Outcome.next (rcRead_ok hopen hal), cpl_complete .., mmioClear_keeps s h off.toNat⟩
  case write =>
    subst hsz
    intro v
    obtain ⟨haddr, hasid, herr⟩ := hostGet_barEffect s h v
    have hwrite : exec (.mmioRegisterWrite host off 8 val) s = .next (complete (barEffect h off.toNat v s) h (.ok [])) :=
      congrArg Host.Outcome.next (mmioWrite_ok hopen hal)
    refine ⟨_, hwrite, cpl_complete .., fun ho => ?_, fun ho => ?_, fun ho => ?_,
      fun ho hmine => ?_, fun ho hmine => ?_, fun hlo hhi hother => ?_, fun hlo => ?_⟩
    · rw [hostGet_complete, ho]
      exact congrArg HostBlk.hkAddr haddr
    · rw [hostGet_complete, ho]
      exact congrArg HostBlk.tdmAsid hasid
    · rw [hostGet_complete, ho]
      exact congrArg HostBlk.hkErr herr
    · rw [ho]
      exact (mgmt_barEffect (s := s) hmine v).1
    · rw [ho]
      exact (mgmt_barEffect (s := s) hmine v).2
    · rw [barEffect_mgmt hlo hhi, mgmtBlockWrite_other hother]
      exact ⟨rfl, List.length_append ..⟩
    · rw [barEffect_unassigned hlo]
      exact ⟨rfl, rfl, rfl, rfl⟩
  case host =>
    have does {i : Instr} {f : State → State} (hi : exec i s = hostDoes host s f) : exec i s = .next (f s) :=
      hi.trans (hostDoes_can hcan)
    have drop {i : Instr} {f : State → State} (hi : exec i s = hostDoes host s f) (hf : Dropped s (f s)) : dropped i := by
      obtain ⟨r, hr⟩ := hf
      exact ⟨_, r, does hi, hr⟩
    refine ⟨fun hthere => ?dbg, fun hother => ?others, fun hmine => ?mine, ?window⟩
    case dbg =>
      have hd : dbgWrite n val s = tilePut s n { t with dbg := val.getLsbD 0 } := if_pos hthere
      exact ⟨_, (does rfl).trans (congrArg Host.Outcome.next hd), tileGet_tilePut_same .., fun m hm => tileGet_tilePut_other _ _ hm⟩
    case others =>
      refine ⟨drop rfl (mgmtWrite_other_dropped hother), drop rfl (mgmtWrite_other_dropped hother),
        drop rfl (mgmtWrite_other_dropped hother), fun die => drop rfl (mgmtWrite_other_dropped hother),
        drop rfl (mgmtWrite_other_dropped hother), drop rfl (mgmtWrite_other_dropped hother),
        drop rfl (mgmtWrite_other_dropped hother), drop rfl (mgmtWrite_other_dropped hother),
        fun hthere => drop rfl (shepCtlWrite_other_dropped hother hthere)⟩
    case mine =>
      refine ⟨fun hheld => ⟨⟨_, does rfl, csaWrite_base hmine hheld⟩, ⟨_, does rfl, csaWrite_count hmine hheld⟩⟩,
        fun hheld => ⟨fun hne => drop rfl (csaWrite_base_dropped hmine hheld hne),
          fun hne => drop rfl (csaWrite_count_dropped hmine hheld hne)⟩,
        fun hlive => ⟨_, does rfl, hostCfgWrite_takes hmine hlive⟩, fun hlive => drop rfl (hostCfgWrite_dropped hmine hlive),
        fun die => ⟨fun hz => drop rfl (dieStealWrite_dropped hmine _ hz), fun hz => ⟨_, does rfl, dieStealWrite_takes hmine _ hz⟩⟩,
        fun hbusy => (does rfl).trans (congrArg Host.Outcome.next (freqCmd_busy hmine hbusy)), fun hidle => ?freq, ?alarm, ?scrub,
        fun hthere => ⟨⟨_, does rfl, shepCtlWrite_ctlerr_or hmine hthere⟩,
          fun hbad => (does rfl).trans (congrArg Host.Outcome.next (shepCtlWrite_refused hmine hthere hbad))⟩,
        fun hgo => ⟨_, does rfl, shepFcmd_refused hmine hgo, shepFcmd_starts hmine hgo⟩⟩
      case freq =>
        refine ⟨_, (does rfl).trans (congrArg Host.Outcome.next (freqCmd_begins hmine hidle)), ?_⟩
        obtain ⟨tiles, htiles⟩ := freqBegin_tilesOnly s (val.toNat % 4)
        refine ⟨by rw [htiles], by rw [htiles], by rw [htiles], by rw [htiles], fun hfall => ?_, fun hrise k y hk => ?_⟩
        · rw [freqBegin, if_neg (Nat.not_lt.mpr hfall)]
        · exact freqBegin_rise hrise (List.mem_map_of_mem (f := Prod.fst) hk)
      case alarm =>
        intro now bad
        exact ⟨fun hbad => (does rfl).trans (congrArg Host.Outcome.next (alarmCtlWrite_refused hmine hbad)),
          fun hok => (does rfl).trans (congrArg Host.Outcome.next (alarmCtlWrite_takes hmine hok))⟩
      case scrub =>
        intro w bad
        exact ⟨_, does rfl, scrubCtlWrite_refused hmine, scrubCtlWrite_takes hmine⟩
    case window =>
      intro bytes a
      refine ⟨fun hbad => ⟨_, (does rfl).trans (congrArg Host.Outcome.next (windowAccess_unsupported hbad)), cpl_complete .., rfl⟩,
        fun hlow hin => ⟨fun hw ht => ⟨_, (does rfl).trans (congrArg Host.Outcome.next (windowAccess_writeAbort hlow hin hw ht)),
            cpl_complete .., rfl⟩,
          fun hw ht => ⟨_, (does rfl).trans (congrArg Host.Outcome.next (windowAccess_readAbort hlow hin hw ht)), cpl_complete .., rfl⟩,
          fun hw ht => ⟨_, (does rfl).trans (congrArg Host.Outcome.next (windowAccess_write hlow hin hw ht)), cpl_complete ..,
            fun hrec hinv hwaits => ?_⟩,
          fun hw ht => ⟨_, _, (does rfl).trans (congrArg Host.Outcome.next (windowAccess_read hlow hin hw ht)), cpl_complete ..,
            fun hrec => ?_⟩⟩⟩
      · rw [foldl_hostCheck_noRecords hrec]
        obtain ⟨k, hk⟩ := homeOf_of_inHbm hin (Nat.two_pow_pos _)
        obtain ⟨hmem, hkeep⟩ := partWrite_mem (a := a) hk s (leBytes bytes val.toNat)
        exact hostWakes_bytes hinv.1 hin (leBytes_length ..) hmem (hkeep ▸ hwaits)
      · have hclocks := foldl_recordRead_clocksOnly s h (recsAt s h a bytes)
        rw [foldl_hostCheck_noRecords (hclocks.records.trans hrec)]
        exact ⟨hclocks.devBytes a bytes, hclocks.mem⟩
  case atomic =>
    intro hh bytes op addr a old bad
    refine ⟨fun hbad => ⟨_, congrArg Host.Outcome.next (completerAtomic_unsupported rfl hcan hbad), cpl_complete .., rfl⟩,
      fun hok ht => ⟨_, congrArg Host.Outcome.next (completerAtomic_abort rfl hcan hok ht), cpl_complete .., rfl⟩,
      fun hok ht => ⟨_, congrArg Host.Outcome.next (completerAtomic_ok rfl hcan hok ht), cpl_complete .., fun hrec hinv hwaits => ?_⟩⟩
    have hin : inHbm a bytes = true := by
      by_contra hin
      exact hok (.inr (.inr (.inr (Bool.not_eq_true _ ▸ hin))))
    have hpos : 0 < bytes := by
      unfold bytes
      split <;> decide
    rw [hostCheck_noRecords hrec]
    obtain ⟨k, hk⟩ := homeOf_of_inHbm hin hpos
    set s2 := syncAccess s (hostAgentId hh) (identOf 2 hh 0) 4097 (256 + hh) .rlx .sys (locMem a) true true
    have hclocks : ClocksOnly s s2 := syncAccess_rlx_clocksOnly ..
    set new := atomicOpNew op bytes old val data2
    have hmem : (devWrite (cacheDrop s2 (a / 64)) a (leBytes bytes new)).mem = memPutList s.mem a (leBytes bytes new) :=
      (devWrite_mem (a := a) hk _ _).trans (congrArg (memPutList · a _) hclocks.mem)
    have hkeep : (devWrite (cacheDrop s2 (a / 64)) a (leBytes bytes new)).waits = s.waits :=
      (devWrite_waits ..).trans hclocks.waits
    have hbytes := (hostWakes_bytes hinv.1 hin (leBytes_length ..) hmem (hkeep ▸ hwaits)).1
    calc leNat (devBytes (hostWakes (devWrite (cacheDrop s2 (a / 64)) a (leBytes bytes new)) a bytes) a bytes)
      _ = new % 256 ^ bytes := by rw [hbytes, leNat_leBytes]
      _ = new := Nat.mod_eq_of_lt (by
        rw [show 256 = 2 ^ 8 from rfl, ← Nat.pow_mul]
        exact atomicOpNew_lt (devNat_lt ..))

end Sys2Proof.Machine

/-! # O53: launch queues, record checks, dependences, aging, placement and loading -/

namespace Sys2Proof.Machine
open Sys2Proof

section LaunchLifecycle
variable {s u : State} {h l n level : Nat} {nd : Node} {v : Word}

/-! ## Launch queues and their deficits (02 R36, R37, R40) -/

@[simp] theorem lqGet_lqPut_same (s : State) (h l : Nat) (q : LaunchQ) : lqGet (lqPut s h l q) h l = q := by
  simp [lqGet, lqPut]

theorem lqGet_lqPut_other {h' l' : Nat} (q : LaunchQ) (hne : ¬ (h = h' ∧ l = l')) :
    lqGet (lqPut s h' l' q) h l = lqGet s h l := by
  unfold lqGet lqPut
  by_cases hh : h = h'
  · subst hh
    have hl : l' ≠ l := fun e => hne ⟨rfl, e.symm⟩
    simp [hl]
  · rw [hostGet_hostPut_other _ _ hh]

/-- A launch queue with another deficit. -/
def OwesOnly (q q' : LaunchQ) : Prop := ∃ d, q' = { q with deficit := d }

theorem OwesOnly.refl (q : LaunchQ) : OwesOnly q q := ⟨_, rfl⟩

theorem OwesOnly.drrSet {q : LaunchQ} (hq : OwesOnly q (lqGet u h l)) (h' l' d : Nat) :
    OwesOnly q (lqGet (drrSet u h' l' d) h l) := by
  obtain ⟨d', e⟩ := hq
  by_cases hat : h = h' ∧ l = l'
  · obtain ⟨rfl, rfl⟩ := hat
    exact ⟨d, by rw [Machine.drrSet, lqGet_lqPut_same, e]⟩
  · exact ⟨d', by rw [Machine.drrSet, lqGet_lqPut_other _ hat, e]⟩

/-- Counting the deficits anew changes no other register of a queue (02 R40). -/
theorem lqGet_drrRest (s : State) (h l : Nat) : ∃ d, lqGet (drrRest s) h l = { lqGet s h l with deficit := d } := by
  refine foldl_keeps (p := fun u => OwesOnly (lqGet s h l) (lqGet u h l)) (.refl _) fun u level hu => ?_
  refine foldl_keeps (p := fun u => OwesOnly (lqGet s h l) (lqGet u h l)) hu fun w h' hw => ?_
  split
  · exact hw.drrSet ..
  · exact hw

/-- A queue's registers after it has been put back and the deficits are counted anew. -/
theorem lqGet_drrRest_lqPut (s : State) (h l : Nat) (q : LaunchQ) :
    ∃ d, lqGet (drrRest (lqPut s h l q)) h l = { q with deficit := d } := by
  obtain ⟨d, e⟩ := lqGet_drrRest (lqPut s h l q) h l
  exact ⟨d, by rw [e, lqGet_lqPut_same]⟩

theorem lqTailWrite_fits (hfit : (v.toNat % 2 ^ 32 + 2 ^ 32 - (lqGet s h l).head) % 2 ^ 32 ≤ lqSize (lqGet s h l)) :
    lqTailWrite h l v s = drrRest (lqPut s h l { lqGet s h l with tail := v.toNat % 2 ^ 32 }) :=
  if_neg (Nat.not_lt.mpr hfit)

theorem lqTailWrite_overflows (hover : lqSize (lqGet s h l) < (v.toNat % 2 ^ 32 + 2 ^ 32 - (lqGet s h l).head) % 2 ^ 32) :
    lqTailWrite h l v s = drrRest (lqNote h l 2 (lqPut s h l { lqGet s h l with
      tail := v.toNat % 2 ^ 32, overflow := true, ctl := (lqGet s h l).ctl &&& ~~~0x100#64 })) :=
  if_pos hover

/-- What a write of LQ_CTL refuses (02 R37). -/
def LqCtlBad (q : LaunchQ) (v : Word) : Prop :=
  natBits v.toNat 0 5 < 4 ∨ 16 < natBits v.toNat 0 5 ∨ natBits v.toNat 32 2 = 3 ∨
    (natBit v.toNat 9 = true ∧ natBits v.toNat 16 16 = 0) ∨ (q.ctl.getLsbD 8 = true ∧ q.head ≠ q.tail ∧ natBits v.toNat 0 5 ≠ natBits q.ctl.toNat 0 5)

theorem lqCtlWrite_refused (hbad : LqCtlBad (lqGet s h l) v) :
    lqCtlWrite h l v s = lqNote h l 4 (lqPut s h l { lqGet s h l with ctlerr := true }) :=
  if_pos (by simpa [LqCtlBad, or_assoc, and_assoc] using hbad)

theorem lqCtlWrite_takes (hok : ¬ LqCtlBad (lqGet s h l) v) :
    lqCtlWrite h l v s = drrRest (lqPut s h l { lqGet s h l with ctl := v &&& 0x3FFFF031F#64 }) :=
  if_neg (by simpa [LqCtlBad, or_assoc, and_assoc] using hok)

theorem lqBaseWrite_refused (hbusy : (lqGet s h l).ctl.getLsbD 8 = true ∧ (lqGet s h l).head ≠ (lqGet s h l).tail)
    (hne : v &&& 0xFFFFFFFFFFFFFF01#64 ≠ (lqGet s h l).base) :
    lqBaseWrite h l v s = lqNote h l 4 (lqPut s h l { lqGet s h l with ctlerr := true }) :=
  if_pos (by simp [hbusy, hne])

theorem lqBaseWrite_takes (hok : ¬ (((lqGet s h l).ctl.getLsbD 8 = true ∧ (lqGet s h l).head ≠ (lqGet s h l).tail) ∧
    v &&& 0xFFFFFFFFFFFFFF01#64 ≠ (lqGet s h l).base)) :
    lqBaseWrite h l v s = lqPut s h l { lqGet s h l with base := v &&& 0xFFFFFFFFFFFFFF01#64 } :=
  if_neg (by simpa only [Bool.and_eq_true, decide_eq_true_eq] using hok)

@[simp] theorem lqGet_lqNote (s : State) (bits h' l' : Nat) : lqGet (lqNote h l bits s) h' l' = lqGet s h' l' := rfl

theorem bit8_cleared (c : Word) : (c &&& ~~~0x100#64).getLsbD 8 = false := by
  simp

@[simp] theorem drrRest_recQ (s : State) : (drrRest s).recQ = s.recQ := by
  obtain ⟨hosts, e⟩ := drrRest_hosts s
  rw [e]

@[simp] theorem nodeGet_drrRest (s : State) (n : Nat) : nodeGet? (drrRest s) n = nodeGet? s n :=
  congrArg (mapGet? · n) (drrRest_nodes)

/-! ## The check of a head record (02 R34, R37, R38) -/

/-- The head record of a queue as its 32 words, and the node that they describe. -/
def headWords (s : State) (h l : Nat) : List Nat := recWords (devBytes s (lqAddr h (lqGet s h l)) 256)

def headNd (s : State) (h l : Nat) : Node :=
  { recNode h l ((lqGet s h l).base.toNat / 256 * 256 + (lqGet s h l).head % lqSize (lqGet s h l) * 256) (lqGet s h l).head
      (headWords s h l) with order := s.nextOrder }

/-- The state in which a queue stands at node `n`, whose record has been read. -/
def headRead (s : State) (h l n : Nat) : State :=
  lqPut { s with nextOrder := s.nextOrder + 1 } h l { lqGet s h l with headNode := some n }

/-- The queue after the check of its head record: it stands at the record's node. -/
theorem lqGet_drrRest_headRead (hu : u.hosts = (headRead s h l n).hosts) :
    ∃ d, lqGet (drrRest u) h l = { lqGet s h l with headNode := some n, deficit := d } := by
  obtain ⟨d, e⟩ := lqGet_drrRest u h l
  have hq : lqGet u h l = lqGet (headRead s h l n) h l :=
    congrArg (fun hosts => mapGet (mapGet hosts h hostReset).lq l lqReset) hu
  exact ⟨d, by rw [e, hq, headRead, lqGet_lqPut_same]⟩

section Check
variable (hpick : pickTurn s (checkable s) = some (h, l, n))
include hpick

theorem launchCheck_unread (hr : partReads s (lqAddr h (lqGet s h l)) 256 = false) :
    launchCheck s = drrRest (lqNote h l 8 (lqPut s h l { lqGet s h l with
      fetch := true, ctl := (lqGet s h l).ctl &&& ~~~0x100#64 })) := by
  unfold launchCheck
  rw [hpick]
  dsimp only
  rw [hr]
  rfl

variable (hr : partReads s (lqAddr h (lqGet s h l)) 256 = true)
include hr

theorem launchCheck_wait {a : Option (Nat × Nat × Nat)} (hc : recCheck s (headNd s h l) (headWords s h l) = .wait a) :
    launchCheck s = s := by
  unfold headNd headWords at hc
  unfold launchCheck
  rw [hpick]
  dsimp only
  rw [hr, hc]
  rfl

theorem launchCheck_bad {x : Trap} (hc : recCheck s (headNd s h l) (headWords s h l) = .bad x) :
    launchCheck s = drrRest (reject (headRead s h l n) n (headNd s h l) x.cause) := by
  unfold headNd headWords at hc
  unfold launchCheck
  rw [hpick]
  dsimp only
  rw [hr, hc]
  rfl

theorem launchCheck_ok {nd : Node} (hc : recCheck s (headNd s h l) (headWords s h l) = .ok nd) :
    launchCheck s = drrRest (nodePut (headRead s h l n) n { nd with
      st := if nd.deps.all (fun d => (depMet s (nodeAsid nd) d).isSome) then .queued else .blocked }) := by
  unfold headNd headWords at hc
  unfold launchCheck
  rw [hpick]
  dsimp only
  rw [hr, hc]
  rfl

end Check

/-! ## Placement (02 R38, R39, R40, R46) -/

@[simp] theorem touch_tiles (s : State) (asid bit : Nat) : (touch s asid bit).tiles = s.tiles := by
  fun_cases touch <;> rfl

/-- A node is placed on tiles with slots, and its tiles are its own. -/
def PlacedOn (u : State) (n : Nat) (nd : Node) (tiles slots : List Nat) : Prop :=
  ∃ y, nodeGet? u n = some y ∧ y.st = .placed ∧ y.tiles = tiles ∧ y.slots = slots ∧ y.restoring = nd.restoring ∧
    ∀ t ∈ tiles, (tileGet u t).node = some n

/-- A placement stands in the nodes and the tiles alone. -/
theorem PlacedOn.frame {w : State} {tiles slots : List Nat} (hu : PlacedOn u n nd tiles slots) (hn : w.nodes = u.nodes)
    (ht : w.tiles = u.tiles) : PlacedOn w n nd tiles slots := by
  unfold PlacedOn nodeGet? tileGet
  rw [hn, ht]
  exact hu

/-- Every tile of a placement gets its node, whatever held it before. -/
theorem foldl_grant_node (s : State) (n asid : Nat) {tiles : List Nat} {t : Nat} (ht : t ∈ tiles) :
    (tileGet (tiles.foldl (fun s t => touch (tilePut s t { tileGet s t with node := some n, grant := 7 }) asid (dieOf t)) s) t).node
      = some n := by
  have hget (w : State) (bit k : Nat) : tileGet (touch w asid bit) k = tileGet w k := congrArg (mapGet · k tileReset) (touch_tiles ..)
  refine foldl_reaches (p := fun _ => True) (q := fun w => (tileGet w t).node = some n) ht (fun _ _ => trivial) (fun w _ => ?_)
    (fun _ _ _ _ => trivial) (fun w k hk hw => ?_) trivial
  · rw [hget, tileGet_tilePut_same]
  · rw [hget, tileGet_tilePut_other _ _ (Ne.symm hk)]
    exact hw

theorem place_placedOn (s : State) (n : Nat) (nd : Node) (tiles slots : List Nat) :
    PlacedOn (place s n nd tiles slots) n nd tiles slots := by
  unfold place
  extract_lets fresh s1 pack nd' s2 s3
  have h3 : nodeGet? s3 n = some nd' := by
    unfold s3
    split <;> exact nodeGet_nodePut_same ..
  refine ⟨nd', ?_, rfl, rfl, rfl, rfl, fun t ht => foldl_grant_node _ _ _ ht⟩
  refine (congrArg (mapGet? · n) (foldl_nodes fun w t => ?_)).trans h3
  exact touch_nodes

theorem nodeNote_tiles (s : State) (n : Nat) (x : Trap) : (nodeNote s n x).tiles = s.tiles := by
  unfold nodeNote nodeNoteIn
  split <;> rfl

/-- A candidate with tiles and slots is placed on them, unless its pages migrate (02 R38, R46). -/
theorem serveCandidate_places {tiles slots : List Nat} (ht : nodeTilesFor s nd = some tiles) (hs : nodeSlotsFor s nd = some slots)
    (hgo : nd.st = .preempted ∨ nd.restart = false ∨ ∀ a, restartOk s nd ≠ .wait a) :
    ∃ w, (∀ lifted, serveCandidate s n nd level lifted = .placed w) ∧ PlacedOn w n nd tiles slots := by
  unfold serveCandidate
  simp only [ht, hs]
  split
  · exact ⟨_, fun _ => rfl, place_placedOn ..⟩
  · next hst =>
    split
    · next hre =>
      split
      · next a ha => exact absurd ha ((hgo.resolve_left hst).resolve_left (by simp [hre]) a)
      · exact ⟨_, fun _ => rfl, place_placedOn ..⟩
      · exact ⟨_, fun _ => rfl, PlacedOn.frame (place_placedOn (takeHead s n nd) n { nd with restart := false } tiles slots)
          nodeNote_nodes (nodeNote_tiles ..)⟩
    · exact ⟨_, fun _ => rfl, place_placedOn ..⟩

/-- An eligible candidate with tiles and no slots is held, and asks for nothing (02 R39). -/
theorem serveCandidate_holds {tiles : List Nat} (ht : nodeTilesFor s nd = some tiles) (hs : nodeSlotsFor s nd = none)
    (hst : nd.st = .eligible) (lifted : Bool) :
    serveCandidate s n nd level lifted = .held (nodePut s n { nd with st := .held }) := by
  have ht' : nodeTilesFor (nodePut s n { nd with st := .held }) nd = some tiles := ht
  simp [serveCandidate, holdCandidate, ht, hs, hst, ht']

/-! ### Levels with no candidate, and the level that is served (02 R39, R40) -/

theorem drrClear_of_idle (hi : LevelIdle s level) : drrClear s level = s := by
  refine foldl_eq_self fun h hh => if_neg fun hd => hd.1 ?_
  have : h = 0 ∨ h = 1 := by
    have := List.mem_range.mp hh
    omega
  rcases this with rfl | rfl
  · exact hi.deficits.1
  · exact hi.deficits.2

theorem drrServe_of_idle (hi : LevelIdle s level) (fuel : Nat) : drrServe level fuel s = none := by
  obtain ⟨h0, h1⟩ := hi.heads
  cases fuel with
  | zero => rfl
  | succ fuel =>
    unfold drrServe
    rcases Nat.mod_two_eq_zero_or_one (mapGet s.drrTurn level 0) with e | e
    · simp [e, h0, h1]
    · simp [e, h0, h1]

theorem decide'_of_idle (hi : LevelIdle s level) : decide' (level + 1) s = decide' level s := by
  simp [decide', hi.held, hi.preempted, hi.pending, hi.heads, drrClear_of_idle hi, drrServe_of_idle hi]

/-- Idle levels pass the decision on to the level below them. -/
theorem decide'_down {top : Nat} (htop : level < top) (hidle : ∀ k, level < k → k < top → LevelIdle s k) :
    decide' top s = decide' (level + 1) s := by
  induction top, htop using Nat.le_induction with
  | base => rfl
  | succ top hle ih =>
    rw [decide'_of_idle (hidle top hle (Nat.lt_succ_self top))]
    exact ih fun k hk hkt => hidle k hk (Nat.lt_succ_of_lt hkt)

section Serve
variable {s1 : State} (hs : Serves s level s1 n nd)
include hs

/-- The candidate that is served is placed; a head pays its deficit. -/
theorem decide'_placed (hp : ∀ lifted, serveCandidate s1 n nd level lifted = .placed u) :
    (decide' (level + 1) s).nodes = u.nodes ∧ (decide' (level + 1) s).tiles = u.tiles := by
  have hpay (q : LaunchQ) : (drrRest (lqPut u nd.host level q)).nodes = u.nodes ∧
      (drrRest (lqPut u nd.host level q)).tiles = u.tiles := by
    obtain ⟨hosts, e⟩ := drrRest_hosts (lqPut u nd.host level q)
    rw [e]
    exact ⟨rfl, rfl⟩
  cases hs with
  | held _ _ hh => simpa [decide', hh, hp] using hpay _
  | preempted _ _ hh hpre => simp [decide', hh, hpre, hp]
  | turn _ _ _ hh hpre h0 h1 hd => simpa [decide', hh, hpre, h0, h1, hd, hp] using hpay _

theorem decide'_held (hp : ∀ lifted, serveCandidate s1 n nd level lifted = .held u) : decide' (level + 1) s = u := by
  cases hs with
  | held _ _ hh => simp [decide', hh, hp]
  | preempted _ _ hh hpre => simp [decide', hh, hpre, hp]
  | turn _ _ _ hh hpre h0 h1 hd => simp [decide', hh, hpre, h0, h1, hd, hp]

end Serve

/-! ## Loading (02 R26, R27, R50, R53) -/

/-- A fold ends with what its step at a listed key brings about, where its steps at the other listed keys leave that alone. -/
theorem foldl_brings {q : State → Prop} {f : State → Nat → State} {i : Nat} {l : List Nat} (hi : i ∈ l) (hat : ∀ s, q (f s i))
    (hq : ∀ s, ∀ k ∈ l, k ≠ i → q s → q (f s k)) (s : State) : q (l.foldl f s) := by
  induction l using List.reverseRecOn with
  | nil => exact absurd hi List.not_mem_nil
  | append_singleton l k ih =>
    rw [List.foldl_append]
    by_cases hk : k = i
    · exact hk ▸ hat _
    · have hil : i ∈ l := (List.mem_append.mp hi).resolve_right fun h => hk (List.mem_singleton.mp h).symm
      exact hq _ k (by simp) hk (ih hil fun w j hj => hq w j (List.mem_append_left _ hj))

/-- A tile with the root bobbin of a pack ready and the geometry of its rank. -/
def Loaded (nd : Node) (rank : Nat) (t : Tile) : Prop :=
  t.creel = [⟨rootBobbin nd, none, none, [], none⟩] ∧ t.running = none ∧ t.packRank = rank ∧ t.packSize = nd.tiles.length ∧
    t.packId = nd.pack ∧ t.packLevel = 0 ∧ t.engines = [] ∧ t.halted = false ∧
    t.partAcc = natBits (mapGet nd.hdr 0x08 0) 4 4 ∧ t.partQueue = natBits (mapGet nd.hdr 0x08 0) 0 4

@[simp] theorem tileGet_poolClean (s : State) (tile off k t : Nat) : tileGet (poolClean s tile off k) t = tileGet s t := by
  unfold poolClean
  split <;> rfl

@[simp] theorem tileGet_plainWrite (s : State) (l : List Nat) (t : Nat) : tileGet (plainWrite s l) t = tileGet s t := by
  unfold plainWrite
  split <;> rfl

theorem tileGet_poolWrite_other {tile off t : Nat} {bs : List Byte} (ht : t ≠ tile) :
    tileGet (poolWrite s tile off bs) t = tileGet s t := by
  simp [poolWrite, ht]

theorem tileGet_poolWrite_same (s : State) (tile off : Nat) (bs : List Byte) :
    tileGet (poolWrite s tile off bs) tile = { tileGet s tile with pool := memPutList (tileGet s tile).pool off bs } := by
  simp [poolWrite]

/-- Loading a rank leaves the tiles of the other ranks as they are. -/
theorem tileGet_loadTile_other {x : Sections} {rank t : Nat} (ht : t ≠ nd.tiles.getD rank 0) :
    tileGet (loadTile n nd x s rank) t = tileGet s t := by
  unfold loadTile
  extract_lets tile p t0 c regs acc s1 s2 s3
  have h2 : tileGet s2 t = tileGet s t := (tileGet_tilePut_other _ _ ht).trans (tileGet_poolClean ..)
  have h3 : tileGet s3 t = tileGet s2 t := by
    unfold s3
    split
    · rfl
    · rw [tileGet_poolWrite_other ht, tileGet_plainWrite]
  exact h3.trans h2

theorem loadTile_loaded (s : State) (n : Nat) (nd : Node) (x : Sections) (rank : Nat) :
    Loaded nd rank (tileGet (loadTile n nd x s rank) (nd.tiles.getD rank 0)) := by
  unfold loadTile
  extract_lets tile p t0 c regs acc s1 s2 s3
  have h2 : Loaded nd rank (tileGet s2 tile) := by
    unfold s2
    rw [tileGet_tilePut_same]
    exact ⟨rfl, rfl, rfl, rfl, rfl, rfl, rfl, rfl, rfl, rfl⟩
  have h3 : Loaded nd rank (tileGet s3 tile) := by
    unfold s3
    split
    · exact h2
    · rw [tileGet_poolWrite_same, tileGet_plainWrite]
      exact h2
  exact h3

/-- Every rank of a pack of distinct tiles is loaded. -/
theorem foldl_loadTile_loaded (s : State) (n : Nat) (x : Sections) (hnd : nd.tiles.Nodup) {r : Nat} (hr : r < nd.tiles.length) :
    Loaded nd r (tileGet ((List.range nd.tiles.length).foldl (loadTile n nd x) s) nd.tiles[r]) := by
  have hget {k : Nat} (hk : k < nd.tiles.length) : nd.tiles.getD k 0 = nd.tiles[k] := List.getD_eq_getElem _ _ hk
  refine foldl_brings (q := fun w => Loaded nd r (tileGet w nd.tiles[r])) (List.mem_range.mpr hr) (fun w => ?_)
    (fun w k hk hkr hw => ?_) s
  · rw [← hget hr]
    exact loadTile_loaded ..
  · rw [tileGet_loadTile_other]
    · exact hw
    · rw [hget (List.mem_range.mp hk)]
      exact fun e => hkr ((hnd.getElem_inj_iff).mp e).symm

/-- The load of a node whose dies stand: every rank is loaded, and the node runs (02 R49, R60). -/
theorem launchLoad_runs (hp : pickTurn s (loadable s) = some n) (hn : nodeGet? s n = some nd) (hd : nd.diesLost = false) :
    ∃ w x reels, launchLoad s = nodePut ((List.range nd.tiles.length).foldl (loadTile n nd x) w) n
      { nd with st := .running, requeue := false, diesLost := false, reels0 := reels } := by
  unfold launchLoad
  rw [hp]
  dsimp only
  rw [hn]
  exact ⟨_, _, _, if_neg (by simp [hd])⟩

end LaunchLifecycle

/-- A host's write of a launch queue's register that is answered has its effect. -/
theorem hostDoes_level {s : State} {host : BitVec 1} {l : Nat} {f : State → State} (hcan : hostCan s host.toNat = true)
    (hl : l < 24) :
    hostDoes host s (fun s => if 24 ≤ l then s else f s) = .next (f s) :=
  (congrArg Host.Outcome.next (if_pos hcan)).trans (congrArg Host.Outcome.next (if_neg (Nat.not_le.mpr hl)))

/-- Settles O53: each step of a launch, from its doorbell to its first bundle, from the lemma about that step; a decision falls
through the idle levels to the one that is served. -/
theorem launchLifecycle : Obligations.LaunchLifecycle := by
  intro s host lv val n h l q size
  refine ⟨fun hcan hl => ⟨?tail, ?ctl, ?base⟩, fun h l hpick => ?check, fun k nd hpick hn => ?met, fun nd hpick hn => ?lift,
    fun hhalt => ?halted, fun level nd tiles slots hhalt hl hidle => ?place, fun nd hpick hn hd hnd => ?load⟩
  case tail =>
    by_cases hfit : (val.toNat % 2 ^ 32 + 2 ^ 32 - q.head) % 2 ^ 32 ≤ lqSize q
    · obtain ⟨d, e⟩ := lqGet_drrRest_lqPut s h l { q with tail := val.toNat % 2 ^ 32 }
      refine ⟨_, (hostDoes_level hcan hl).trans (congrArg Host.Outcome.next (lqTailWrite_fits hfit)), ?_⟩
      rw [e]
      exact ⟨rfl, rfl, fun _ => ⟨rfl, rfl⟩, fun hover => absurd hfit (Nat.not_le.mpr hover)⟩
    · refine ⟨_, (hostDoes_level hcan hl).trans (congrArg Host.Outcome.next (lqTailWrite_overflows (Nat.lt_of_not_le hfit))), ?_⟩
      obtain ⟨d, e⟩ := lqGet_drrRest (lqNote h l 2 (lqPut s h l { q with
        tail := val.toNat % 2 ^ 32, overflow := true, ctl := q.ctl &&& ~~~0x100#64 })) h l
      rw [lqGet_lqNote, lqGet_lqPut_same] at e
      rw [e]
      exact ⟨rfl, rfl, fun hle => absurd hle hfit, fun _ => ⟨bit8_cleared _, rfl⟩⟩
  case ctl =>
    intro bad
    refine ⟨fun hbad => ⟨_, (hostDoes_level hcan hl).trans (congrArg Host.Outcome.next (lqCtlWrite_refused hbad)), ?_⟩,
      fun hok => ⟨_, (hostDoes_level hcan hl).trans (congrArg Host.Outcome.next (lqCtlWrite_takes hok)), ?_⟩⟩
    · rw [lqGet_lqNote, lqGet_lqPut_same]
      exact ⟨rfl, rfl⟩
    · obtain ⟨d, e⟩ := lqGet_drrRest_lqPut s h l { q with ctl := val &&& 0x3FFFF031F#64 }
      rw [e]
  case base =>
    intro w busy
    refine ⟨fun hbad => ⟨_, (hostDoes_level hcan hl).trans (congrArg Host.Outcome.next (lqBaseWrite_refused hbad.1 hbad.2)), ?_⟩,
      fun hok => ⟨_, (hostDoes_level hcan hl).trans (congrArg Host.Outcome.next (lqBaseWrite_takes hok)), ?_⟩⟩
    · rw [lqGet_lqNote, lqGet_lqPut_same]
      exact ⟨rfl, rfl⟩
    · rw [lqGet_lqPut_same]
  case check =>
    intro q pa w nd
    refine ⟨fun hr => ⟨_, congrArg Host.Outcome.next (launchCheck_unread hpick hr), ?_⟩,
      fun hr nd' hc => ⟨_, _, congrArg Host.Outcome.next (launchCheck_ok hpick hr hc),
        (nodeGet_drrRest ..).trans (nodeGet_nodePut_same ..), ?_, rfl, rfl, ?_, ?_⟩,
      fun hr x hc => ⟨_, _, _, congrArg Host.Outcome.next (launchCheck_bad hpick hr hc),
        (nodeGet_drrRest ..).trans (nodeGet_nodePut_same ..), rfl, drrRest_recQ _, rfl, rfl, ?_⟩,
      fun hr a hc => congrArg Host.Outcome.next (launchCheck_wait hpick hr hc)⟩
    · obtain ⟨d, e⟩ := lqGet_drrRest (lqNote h l 8 (lqPut s h l { q with fetch := true, ctl := q.ctl &&& ~~~0x100#64 })) h l
      rw [lqGet_lqNote, lqGet_lqPut_same] at e
      rw [e]
      exact ⟨rfl, bit8_cleared _, rfl, drrRest_nodes⟩
    · split
      · exact .inl rfl
      · exact .inr rfl
    · split
      · next hmet => exact iff_of_true rfl hmet
      · next hmet => exact iff_of_false nofun hmet
    · obtain ⟨d, e⟩ := lqGet_drrRest_headRead (u := nodePut (headRead s h l n) n _) rfl
      rw [e]
      exact ⟨rfl, rfl, drrRest_recQ _⟩
    · obtain ⟨d, e⟩ := lqGet_drrRest_headRead (u := reject (headRead s h l n) n (headNd s h l) x.cause) rfl
      rw [e]
  case met =>
    have hmet : dependenceMet s = nodePut s n { nd with
        st := .eligible, since := timeOf s, acq := k.flatMap fun r => mapGet s.releases (reelLoc r) [] } := by
      unfold dependenceMet
      rw [hpick]
      dsimp only
      rw [hn]
    exact ⟨_, congrArg Host.Outcome.next hmet, nodeGet_nodePut_same .., fun m hm => nodeGet_nodePut_other _ _ hm⟩
  case lift =>
    have hlift : agingLift s = nodePut s n { nd with lift := nd.lift + 1 } := by
      unfold agingLift
      rw [hpick]
      dsimp only
      rw [hn]
    exact ⟨_, congrArg Host.Outcome.next hlift, nodeGet_nodePut_same .., fun m hm => nodeGet_nodePut_other _ _ hm⟩
  case halted => exact congrArg Host.Outcome.next (if_neg (by simp [dispatches, hhalt]))
  case place =>
    have hdown : placement s = decide' (level + 1) s := (if_pos (by simp [dispatches, hhalt])).trans (decide'_down hl hidle)
    refine ⟨fun s1 hs ht hslots hgo => ?_, fun s1 hs ht hslots hst => ?_⟩
    · obtain ⟨w, hw, hplaced⟩ := serveCandidate_places (n := n) (level := level) ht hslots hgo
      obtain ⟨hn, htiles⟩ := decide'_placed hs hw
      obtain ⟨y, hy⟩ := hplaced.frame hn htiles
      exact ⟨_, y, congrArg Host.Outcome.next hdown, hy⟩
    · have hheld := decide'_held hs (serveCandidate_holds ht hslots hst)
      exact ⟨_, _, congrArg Host.Outcome.next (hdown.trans hheld), nodeGet_nodePut_same .., rfl⟩
  case load =>
    obtain ⟨w, x, reels, e⟩ := launchLoad_runs hpick hn hd
    refine ⟨_, congrArg Host.Outcome.next e, congrArg (Option.map (·.st)) (nodeGet_nodePut_same ..), fun r hr => ?_⟩
    exact foldl_loadTile_loaded w n x hnd hr

end Sys2Proof.Machine

/-! # O3: every word that decodes is the encoding of what it decodes to -/

namespace Sys2Proof.Machine
open Sys2Proof

section WordRoundTrip

/-! Every field of a slot word is the number of what it stands for (04 R74; 08 R174). -/

theorem portNum_portOf (w : BitVec 10) : portNum (portOf w) = w := by
  revert w; decide +kernel

theorem guardNum_guardOf (w : BitVec 4) : guardNum (guardOf w) = w := by
  revert w; decide

theorem orderNum_memOrderOf (w : BitVec 2) : orderNum (memOrderOf w) = w := by
  revert w; decide

theorem scopeNum_of_scopeOf {w : BitVec 3} {x : Scope} : scopeOf w = some x → scopeNum x = w := by
  revert w; cases x <;> decide

theorem sizeNum_of_sizeOf3 {w : BitVec 3} {x : Size} : sizeOf3 w = some x → sizeNum x = w := by
  revert w; cases x <;> decide

theorem engineNum_of_engineOf {w : BitVec 5} {x : EngineId} : engineOf w = some x → engineNum x = w := by
  revert w; cases x <;> decide

theorem ofBool_getLsbD {n : Nat} (w : BitVec n) (k : Nat) : BitVec.ofBool (w.getLsbD k) = w.extractLsb' k 1 := by
  ext i hi
  obtain rfl : i = 0 := by omega
  simp

/-- The fields of a slot word of class C, put together again, are the word (03 R71). -/
theorem packC_unpackC (w : SlotWord) : packC (opcodeOf w) (unpackC w) = w := by
  simp (disch := omega) only [packC, unpackC, opcodeOf, guardNum_guardOf, portNum_portOf,
    BitVec.extractLsb'_append_extractLsb'_eq_extractLsb']
  exact BitVec.extractLsb'_eq_self

theorem packS_unpackS (w : SlotWord) : packS (opcodeOf w) (unpackS w) = w := by
  simp (disch := omega) only [packS, unpackS, opcodeOf, guardNum_guardOf, portNum_portOf,
    BitVec.extractLsb'_append_extractLsb'_eq_extractLsb']
  exact BitVec.extractLsb'_eq_self

theorem packM_of_unpackM {w : SlotWord} {o : MOp} (h : unpackM w = some o) : packM (opcodeOf w) o = w := by
  unfold unpackM at h
  split at h
  · next hsc hsz =>
    cases h
    simp (disch := omega) only [packM, opcodeOf, guardNum_guardOf, portNum_portOf, orderNum_memOrderOf,
      scopeNum_of_scopeOf hsc, sizeNum_of_sizeOf3 hsz, BitVec.extractLsb'_append_extractLsb'_eq_extractLsb']
    exact BitVec.extractLsb'_eq_self
  · cases h

theorem packE_of_unpackE {w : SlotWord} {o : EOp} (h : unpackE w = some o) : packE (opcodeOf w) o = w := by
  unfold unpackE at h
  split at h
  · next he =>
    cases h
    simp (disch := omega) only [packE, opcodeOf, guardNum_guardOf, portNum_portOf, engineNum_of_engineOf he,
      BitVec.extractLsb'_append_extractLsb'_eq_extractLsb']
    exact BitVec.extractLsb'_eq_self
  · cases h

theorem packV_of_unpackV {w : SlotWord} {o : VOp} (h : unpackV w = some o) : packV (opcodeOf w) o = w := by
  unfold unpackV at h
  split at h
  · next he =>
    cases h
    have he' : 0#2 = w.extractLsb' 0 2 := he.symm
    simp (disch := omega) only [packV, opcodeOf, guardNum_guardOf, ofBool_getLsbD, he',
      BitVec.extractLsb'_append_extractLsb'_eq_extractLsb']
    exact BitVec.extractLsb'_eq_self
  · cases h

/-! What each class of operations reads from its fields, and the word that encodes it (04 R84 to R88). -/

theorem instrC_some {tile : BitVec 8} {opc : Nat} {o : COp} {i : Instr} (h : instrC tile opc o = some i) :
    opc < 0x1C ∧ encodeStep i = slotStep 0 tile (packC (BitVec.ofNat 9 opc) o) ∧ opView i = .c tile.toNat opc o := by
  unfold instrC at h
  repeat' split at h
  all_goals cases h
  all_goals exact ⟨by decide, rfl, rfl⟩

theorem instrM_some {tile : BitVec 8} {hi : Bool} {opc : Nat} {o : MOp} {i : Instr} (h : instrM tile hi opc o = some i) :
    (opc < 0x00A ∨ 0x040 ≤ opc ∧ opc < 0x04E ∨ 0x080 ≤ opc ∧ opc < 0x086) ∧
      encodeStep i = slotStep (if hi then 2 else 1) tile (packM (BitVec.ofNat 9 opc) o) ∧ opView i ≠ .event := by
  unfold instrM at h
  repeat' split at h
  all_goals cases h
  all_goals exact ⟨by decide, rfl, nofun⟩

theorem instrS_some {tile : BitVec 8} {hi : Bool} {opc : Nat} {o : SOp} {i : Instr} (h : instrS tile hi opc o = some i) :
    opc < 0x032 ∧ encodeStep i = slotStep (if hi then 4 else 3) tile (packS (BitVec.ofNat 9 opc) o) ∧ opView i ≠ .event := by
  unfold instrS at h
  split at h
  all_goals cases h
  all_goals exact ⟨by decide, rfl, nofun⟩

theorem instrV_some {tile : BitVec 8} {hi : Bool} {opc : Nat} {o : VOp} {i : Instr} (h : instrV tile hi opc o = some i) :
    (0x100 ≤ opc ∧ opc < 0x12B) ∧
      encodeStep i = slotStep (if hi then 4 else 3) tile (packV (BitVec.ofNat 9 opc) o) ∧ opView i ≠ .event := by
  unfold instrV at h
  split at h
  all_goals cases h
  all_goals exact ⟨by decide, rfl, nofun⟩

theorem instrE_some {tile : BitVec 8} {opc : Nat} {o : EOp} {i : Instr} (h : instrE tile opc o = some i) :
    opc < 0x005 ∧ encodeStep i = slotStep 5 tile (packE (BitVec.ofNat 9 opc) o) ∧ opView i ≠ .event := by
  unfold instrE at h
  split at h
  all_goals cases h
  all_goals exact ⟨by decide, rfl, nofun⟩

/-! The lanes of an event's step word. -/

theorem laneFits_zero_iff (l : BitVec 64) : laneFits l 0 = true ↔ l = 0#64 := by
  simp only [laneFits, decide_eq_true_eq, Nat.pow_zero, Nat.lt_one_iff]
  exact ⟨fun h => BitVec.eq_of_toNat_eq h, fun h => by rw [h]; rfl⟩

theorem laneFits_back {l : BitVec 64} {n : Nat} (h : laneFits l n = true) : (l.setWidth n).setWidth 64 = l := by
  apply BitVec.eq_of_toNat_eq
  simp only [laneFits, decide_eq_true_eq] at h
  rw [BitVec.toNat_setWidth, BitVec.toNat_setWidth, Nat.mod_eq_of_lt h, Nat.mod_eq_of_lt l.isLt]

/-- An event that the table reads is well-formed, and its lanes are those of the word. -/
theorem instrEvent_some {code : Nat} {w : StepWord} {i : Instr} (h : instrEvent code w = some i) :
    i.formFault = none ∧ encodeStep i = eventStep (BitVec.ofNat 9 code) w.l1 w.l2 w.l3 w.l4 := by
  obtain ⟨l0, l1, l2, l3, l4⟩ := w
  unfold instrEvent at h
  split at h
  all_goals simp only [Option.ite_none_right_eq_some, Option.some.injEq, Bool.and_eq_true,
    laneFits_zero_iff, and_assoc, reduceCtorEq] at h
  all_goals
    obtain ⟨h1, h2, h3, h4, rfl⟩ := h
    refine ⟨rfl, ?_⟩
    simp only [encodeStep, laneFits_back, *]

/-- An operation that a slot word spells is encoded by that word, in the step word of its slot and tile (03 R70). -/
theorem slotInstr_some {slot : Nat} {tile : BitVec 8} {w : SlotWord} {i : Instr} (h : slotInstr slot tile w = some i) :
    encodeStep i = slotStep (BitVec.ofNat 4 slot) tile w ∧ opView i ≠ .event := by
  have hopc : BitVec.ofNat 9 (opcodeOf w).toNat = opcodeOf w := BitVec.ofNat_toNat ..
  unfold slotInstr at h
  dsimp only at h
  split at h
  case h_1 =>
    obtain ⟨-, he, hv⟩ := instrC_some h
    exact ⟨by rw [he, hopc, packC_unpackC]; rfl, by simp [hv]⟩
  case h_2 | h_3 =>
    obtain ⟨o, ho, h⟩ := Option.bind_eq_some_iff.mp h
    obtain ⟨-, he, hv⟩ := instrM_some h
    exact ⟨by rw [he, hopc, packM_of_unpackM ho]; rfl, hv⟩
  case h_4 | h_5 =>
    split at h
    · obtain ⟨-, he, hv⟩ := instrS_some h
      exact ⟨by rw [he, hopc, packS_unpackS]; rfl, hv⟩
    · obtain ⟨o, ho, h⟩ := Option.bind_eq_some_iff.mp h
      obtain ⟨-, he, hv⟩ := instrV_some h
      exact ⟨by rw [he, hopc, packV_of_unpackV ho]; rfl, hv⟩
  case h_6 =>
    obtain ⟨o, ho, h⟩ := Option.bind_eq_some_iff.mp h
    obtain ⟨-, he, hv⟩ := instrE_some h
    exact ⟨by rw [he, hopc, packE_of_unpackE ho]; rfl, hv⟩
  case h_7 => cases h

theorem decodeSlot_ok {slot : Nat} {tile : BitVec 8} {w : SlotWord} {i : Instr} (h : decodeSlot slot tile w = .ok i) :
    slotInstr slot tile w = some i ∧ i.formFault = none := by
  unfold decodeSlot at h
  split at h
  · cases h
  · next hi =>
    split at h
    · next hf => cases h; exact ⟨hi, hf⟩
    all_goals cases h

/-- What the decoder answers of a step word is an event of the table or an operation of a slot (03 R70; 04 R84 to R88). -/
theorem decodeStep_ok {w : StepWord} {i : Instr} (h : decodeStep w = .ok i) :
    ((w.l0.extractLsb' 60 4).toNat = 7 ∧ laneFits (w.l0.setWidth 60 |>.setWidth 64) 9 = true ∧
      instrEvent (w.l0.extractLsb' 0 9).toNat w = some i) ∨
    ((w.l0.extractLsb' 60 4).toNat < 6 ∧ (laneFits w.l1 8 && laneFits w.l2 0 && laneFits w.l3 0 && laneFits w.l4 0) = true ∧
      decodeSlot (w.l0.extractLsb' 60 4).toNat (w.l1.setWidth 8) (w.l0.extractLsb' 0 60) = .ok i) := by
  unfold decodeStep at h
  dsimp only at h
  split at h
  · next h7 =>
    split at h
    · next hfit =>
      split at h
      · next hi => cases h; exact .inl ⟨h7, hfit, hi⟩
      · cases h
    · cases h
  · split at h
    · next h6 =>
      split at h
      · next hfit => exact .inr ⟨h6, hfit, h⟩
      · cases h
    · cases h

/-- The lane 0 of an event's step word, from its fields (03 R70). -/
theorem eventLane_of_fields {l : BitVec 64} (h7 : (l.extractLsb' 60 4).toNat = 7)
    (hfit : laneFits (l.setWidth 60 |>.setWidth 64) 9 = true) : 7#4 ++ 0#51 ++ l.extractLsb' 0 9 = l := by
  have htop : 7#4 = l.extractLsb' 60 4 := (BitVec.eq_of_toNat_eq h7).symm
  have hmid : 0#51 = l.extractLsb' 9 51 := by
    apply BitVec.eq_of_toNat_eq
    simp only [laneFits, decide_eq_true_eq, BitVec.toNat_setWidth] at hfit
    simp only [BitVec.toNat_ofNat, BitVec.extractLsb'_toNat, Nat.shiftRight_eq_div_pow]
    omega
  rw [htop, hmid]
  simp (disch := omega) only [BitVec.extractLsb'_append_extractLsb'_eq_extractLsb']
  exact BitVec.extractLsb'_eq_self

end WordRoundTrip

/-- Settles O3: a word that decodes is an event of the table or an operation of a slot, and each class packs the fields that it
unpacked. -/
theorem encodeOfDecode : Obligations.EncodeOfDecode := by
  intro w i h
  obtain ⟨l0, l1, l2, l3, l4⟩ := w
  obtain ⟨h7, hfit, hi⟩ | ⟨h6, hfit, hi⟩ := decodeStep_ok h
  · obtain ⟨hwf, henc⟩ := instrEvent_some hi
    refine ⟨by rw [WellFormed, Instr.wf, hwf]; rfl, ?_⟩
    rw [henc, BitVec.ofNat_toNat, BitVec.setWidth_eq, eventStep]
    exact congrArg (StepWord.mk · l1 l2 l3 l4) (eventLane_of_fields h7 hfit)
  · obtain ⟨hi, hwf⟩ := decodeSlot_ok hi
    refine ⟨by rw [WellFormed, Instr.wf, hwf]; rfl, ?_⟩
    simp only [Bool.and_eq_true, laneFits_zero_iff] at hfit
    obtain ⟨⟨⟨hl1, rfl⟩, rfl⟩, rfl⟩ := hfit
    rw [(slotInstr_some hi).1, slotStep, BitVec.ofNat_toNat, BitVec.setWidth_eq, laneFits_back hl1]
    exact congrArg (StepWord.mk · l1 0 0 0) (BitVec.extractLsb'_append_extractLsb' (w := 4) (len := 60))

end Sys2Proof.Machine

/-! # O2: decoding an encoded instruction gives it back -/

namespace Sys2Proof.Laws.RoundTrip
open Sys2Proof

/-- The round trip of each instruction, gathered (03 R70). -/
theorem decodeStep_encodeStep : ∀ i, Statement i
  | .nop .. => nop _ _ | .jmp .. => jmp _ _ | .jmpi .. => jmpi _ _ | .call .. => call _ _ | .ret .. => ret _ _
  | .loop .. => loop _ _ | .loopr .. => loopr _ _ | .endOp .. => endOp _ _ | .yield .. => yield _ _
  | .suspend .. => suspend _ _ | .fork .. => fork _ _ | .join .. => join _ _ | .csend .. => csend _ _
  | .lease .. => lease _ _ | .leasew .. => leasew _ _ | .wake .. => wake _ _ | .unleash .. => unleash _ _
  | .slack .. => slack _ _ | .fence .. => fence _ _ | .vfence .. => vfence _ _ | .trap .. => trap _ _ | .brk .. => brk _ _
  | .psplit .. => psplit _ _ | .pmerge .. => pmerge _ _ | .parrive .. => parrive _ _ | .pwait .. => pwait _ _
  | .ovl .. => ovl _ _ | .sleepk .. => sleepk _ _ | .sleepkSource .. => sleepkSource _ _ | .sleepkSet .. => sleepkSet _ _
  | .ld .. => ld _ _ _ | .st .. => st _ _ _ | .ldq .. => ldq _ _ _ | .stq .. => stq _ _ _ | .ldc .. => ldc _ _ _
  | .stc .. => stc _ _ _ | .pref .. => pref _ _ _ | .rdset .. => rdset _ _ _ | .rdsetOrg .. => rdsetOrg _ _ _
  | .rdget .. => rdget _ _ _ | .rdgetOrg .. => rdgetOrg _ _ _ | .rdadv .. => rdadv _ _ _ | .rdadvOrg .. => rdadvOrg _ _ _
  | .aadd .. => aadd _ _ _ | .aand .. => aand _ _ _ | .aor .. => aor _ _ _ | .axor .. => axor _ _ _ | .amin .. => amin _ _ _
  | .amax .. => amax _ _ _ | .aminn .. => aminn _ _ _ | .amaxn .. => amaxn _ _ _ | .aswap .. => aswap _ _ _
  | .acas .. => acas _ _ _ | .aincw .. => aincw _ _ _ | .afaddb .. => afaddb _ _ _ | .afaddF32 .. => afaddF32 _ _ _
  | .afaddBf16x2 .. => afaddBf16x2 _ _ _ | .kadd .. => kadd _ _ _ | .kwait .. => kwait _ _ _ | .kread .. => kread _ _ _
  | .kpoll .. => kpoll _ _ _ | .kbind .. => kbind _ _ _ | .kinit .. => kinit _ _ _ | .add .. => add _ _ _
  | .sub .. => sub _ _ _ | .mul .. => mul _ _ _ | .mulh .. => mulh _ _ _ | .mulhn .. => mulhn _ _ _ | .div .. => div _ _ _
  | .divn .. => divn _ _ _ | .rem .. => rem _ _ _ | .remn .. => remn _ _ _ | .andOp .. => andOp _ _ _
  | .orOp .. => orOp _ _ _ | .xorOp .. => xorOp _ _ _ | .andn .. => andn _ _ _ | .shl .. => shl _ _ _ | .shr .. => shr _ _ _
  | .sar .. => sar _ _ _ | .rol .. => rol _ _ _ | .minOp .. => minOp _ _ _ | .maxOp .. => maxOp _ _ _
  | .minn .. => minn _ _ _ | .maxn .. => maxn _ _ _ | .clz .. => clz _ _ _ | .ctz .. => ctz _ _ _ | .popc .. => popc _ _ _
  | .brev .. => brev _ _ _ | .bext .. => bext _ _ _ | .bins .. => bins _ _ _ | .sel .. => sel _ _ _ | .mov .. => mov _ _ _
  | .li .. => li _ _ _ | .lih .. => lih _ _ _ | .madr .. => madr _ _ _ | .ceq .. => ceq _ _ _ | .cne .. => cne _ _ _
  | .clt .. => clt _ _ _ | .cltn .. => cltn _ _ _ | .cle .. => cle _ _ _ | .clen .. => clen _ _ _ | .ctst .. => ctst _ _ _
  | .pand .. => pand _ _ _ | .por .. => por _ _ _ | .pnot .. => pnot _ _ _ | .fadd .. => fadd _ _ _ | .fsub .. => fsub _ _ _
  | .fmul .. => fmul _ _ _ | .ffma .. => ffma _ _ _ | .fmin .. => fmin _ _ _ | .fmax .. => fmax _ _ _
  | .fcmp .. => fcmp _ _ _ | .fcvt .. => fcvt _ _ _ | .vadd .. => vadd _ _ _ | .vsub .. => vsub _ _ _
  | .vmul .. => vmul _ _ _ | .vfma .. => vfma _ _ _ | .vmin .. => vmin _ _ _ | .vmax .. => vmax _ _ _
  | .vabs .. => vabs _ _ _ | .vneg .. => vneg _ _ _ | .vrcp .. => vrcp _ _ _ | .vrsqrt .. => vrsqrt _ _ _
  | .vsqrt .. => vsqrt _ _ _ | .vexp2 .. => vexp2 _ _ _ | .vlog2 .. => vlog2 _ _ _ | .vtanh .. => vtanh _ _ _
  | .vcvt .. => vcvt _ _ _ | .vscl .. => vscl _ _ _ | .vamax .. => vamax _ _ _ | .vand .. => vand _ _ _
  | .vor .. => vor _ _ _ | .vxor .. => vxor _ _ _ | .vnot .. => vnot _ _ _ | .vshl .. => vshl _ _ _ | .vshr .. => vshr _ _ _
  | .vsar .. => vsar _ _ _ | .vcmp .. => vcmp _ _ _ | .vsel .. => vsel _ _ _ | .vbcast .. => vbcast _ _ _
  | .vcopy .. => vcopy _ _ _ | .vperm .. => vperm _ _ _ | .viota .. => viota _ _ _ | .vredsum .. => vredsum _ _ _
  | .vredmax .. => vredmax _ _ _ | .vredmin .. => vredmin _ _ _ | .vscan .. => vscan _ _ _ | .vsqsum .. => vsqsum _ _ _
  | .vdot .. => vdot _ _ _ | .vrng .. => vrng _ _ _ | .vdrop .. => vdrop _ _ _ | .vkat .. => vkat _ _ _
  | .vclamp .. => vclamp _ _ _ | .vpopc .. => vpopc _ _ _ | .vcompress .. => vcompress _ _ _ | .vexpand .. => vexpand _ _ _
  | .ewr .. => ewr _ _ | .erd .. => erd _ _ | .etrig .. => etrig _ _ | .eabort .. => eabort _ _ | .ewaitq .. => ewaitq _ _
  | .packageReset .. => packageReset _ _ _ | .toldodyLinkTrained .. => toldodyLinkTrained _ _ _
  | .securityAlarm .. => securityAlarm _ | .dieLost .. => dieLost _ | .strandLinkUp .. => strandLinkUp _ _ _ _
  | .strandLinkDown .. => strandLinkDown _ | .timeAlignExchange .. => timeAlignExchange _ _
  | .strandReelAdd .. => strandReelAdd _ _ _ _ | .freqCmd .. => freqCmd _ _ | .lqTailWrite .. => lqTailWrite _ _ _
  | .lqCtlWrite .. => lqCtlWrite _ _ _ | .lqBaseWrite .. => lqBaseWrite _ _ _ | .bobbinPickup .. => bobbinPickup _
  | .stealAttempt .. => stealAttempt _ | .stewardSteal .. => stewardSteal _ | .indexFetch .. => indexFetch _
  | .bundleDispatch .. => bundleDispatch _ | .bundleCommit .. => bundleCommit _ | .resultLanding .. => resultLanding _
  | .remoteReplyArrival .. => remoteReplyArrival _ _ | .freezeBegin .. => freezeBegin _
  | .lateTransitionFlag .. => lateTransitionFlag _ | .clockStretch .. => clockStretch _ | .preciseTrap .. => preciseTrap _
  | .inFlightFault .. => inFlightFault _ | .frCtlWrite .. => frCtlWrite _ _ _ | .frBaseWrite .. => frBaseWrite _ _ _
  | .frHeadWrite .. => frHeadWrite _ _ _ | .frStatIpendClear .. => frStatIpendClear _ _ _ | .nodeResume .. => nodeResume _ _
  | .nodeResumeOver .. => nodeResumeOver _ _ | .nodeSave .. => nodeSave _ _ | .nodeKill .. => nodeKill _ _
  | .nodeYield .. => nodeYield _ _ | .tlbiPage .. => tlbiPage _ _ | .tlbiAsid .. => tlbiAsid _ _
  | .tlbiHost .. => tlbiHost _ _ | .frzFreeze .. => frzFreeze _ _ | .frzThaw .. => frzThaw _ _
  | .patrolScrubRead .. => patrolScrubRead _ | .windowBarAccess .. => windowBarAccess _ _ _ _
  | .completerAtomicop .. => completerAtomicop _ _ _ _ | .hkadd .. => hkadd _ _ | .leaseCmdEvict .. => leaseCmdEvict _ _ _
  | .shepFcmdClear .. => shepFcmdClear _ _ | .sumCmd .. => sumCmd _ _ | .attCmd .. => attCmd _ _
  | .tileDbgWrite .. => tileDbgWrite _ _ _ | .csaWrite .. => csaWrite _ _ _ | .hostCfgWrite .. => hostCfgWrite _ _
  | .alarmCtlWrite .. => alarmCtlWrite _ _ | .scrubCtlWrite .. => scrubCtlWrite _ _ | .shepCtlWrite .. => shepCtlWrite _ _ _
  | .dieStealCtlWrite .. => dieStealCtlWrite _ _ _ | .mmioRegisterWrite .. => mmioRegisterWrite _ _ _ _
  | .rcRegisterRead .. => rcRegisterRead _ _ _ | .elasticBufferAccept .. => elasticBufferAccept _ _
  | .enginePowerUpComplete .. => enginePowerUpComplete _ _ | .copyBurst .. => copyBurst _ _
  | .copyGateWaitEnd .. => copyGateWaitEnd _ _ | .copyBindingWaitEnd .. => copyBindingWaitEnd _ _
  | .copySignal .. => copySignal _ _ | .arrayRingWaitEnd .. => arrayRingWaitEnd _ _
  | .arrayGroupLanding .. => arrayGroupLanding _ _ | .arrayComputeEnd .. => arrayComputeEnd _ _
  | .drainRow .. => drainRow _ _ | .dstqWaitEnd .. => dstqWaitEnd _ _ | .drainRowStore .. => drainRowStore _ _
  | .arrayDoneAdd .. => arrayDoneAdd _ _ | .engineUnit .. => engineUnit _ _
  | .engineCommandComplete .. => engineCommandComplete _ _ | .fxFirstFlitCheck .. => fxFirstFlitCheck _
  | .fxChunkStep .. => fxChunkStep _ | .fxReceiveAdd .. => fxReceiveAdd _
  | .fxAbortMarkerArrival .. => fxAbortMarkerArrival _ | .vectorOperationStart .. => vectorOperationStart _
  | .vectorElementGroup .. => vectorElementGroup _ | .spuriousWake .. => spuriousWake _ _
  | .governorWindowEnd .. => governorWindowEnd _ | .safeRestore .. => safeRestore _
  | .currentReading .. => currentReading _ _ | .temperatureReading .. => temperatureReading _ _
  | .marginTableLoad => marginTableLoad | .freqChangeClockStop => freqChangeClockStop
  | .freqChangeClockRestart => freqChangeClockRestart | .launchRecordCheck => launchRecordCheck
  | .dependenceMet => dependenceMet | .agingLift => agingLift | .placementDecision => placementDecision
  | .launchLoadComplete => launchLoadComplete | .dictionaryFillComplete => dictionaryFillComplete
  | .fetchBufferFillComplete => fetchBufferFillComplete | .freezeWatchdogExpiry => freezeWatchdogExpiry
  | .faultRecordWrite => faultRecordWrite | .nodeCommandComplete => nodeCommandComplete
  | .yieldDeadlineExpiry => yieldDeadlineExpiry | .contextSaveComplete => contextSaveComplete
  | .contextRestore => contextRestore | .retirementComplete => retirementComplete | .tlbiComplete => tlbiComplete
  | .freezeRecallComplete => freezeRecallComplete | .translationWalk => translationWalk | .walkComplete => walkComplete
  | .migrationWalkRetry => migrationWalkRetry | .atomicBounce => atomicBounce | .remotePoolRequest => remotePoolRequest
  | .nearMemoryAtomic => nearMemoryAtomic | .conflictCheckAnswer => conflictCheckAnswer
  | .poolCorrectionWriteback => poolCorrectionWriteback | .bankMarkFailed => bankMarkFailed
  | .bankRebuildLine => bankRebuildLine | .hkaddPerform => hkaddPerform | .shepFcmdComplete => shepFcmdComplete
  | .summaryComplete => summaryComplete | .attQuoteComplete => attQuoteComplete | .leaseQueueGrant => leaseQueueGrant
  | .idleGating => idleGating | .wokenIdleReturn => wokenIdleReturn | .releaseComplete => releaseComplete
  | .standbyGraceExpiry => standbyGraceExpiry | .engineRunFault => engineRunFault | .fxTimeout => fxTimeout
  | .pollBackoffExpiry => pollBackoffExpiry | .parkedPollTest => parkedPollTest | .sleepkWaitEnd => sleepkWaitEnd
  | .governorWindowTimeout => governorWindowTimeout | .grantAdjust => grantAdjust | .governorEmergency => governorEmergency
  | .emergencyEnd => emergencyEnd | .marginDailyWrite => marginDailyWrite | .managementPortFailure => managementPortFailure

end Sys2Proof.Laws.RoundTrip

namespace Sys2Proof.Machine
open Sys2Proof

/-- Settles O2: by the law of each instruction's own round trip. -/
theorem decodeOfEncode : Obligations.DecodeOfEncode := Laws.RoundTrip.decodeStep_encodeStep

end Sys2Proof.Machine

/-! # O4: unassigned opcodes are refused -/

namespace Sys2Proof.Machine
open Sys2Proof

section Opcodes

theorem decodeSlot_eq_illegal {slot : Nat} {tile : BitVec 8} {w : SlotWord} (h : ∀ i, slotInstr slot tile w ≠ some i) :
    decodeSlot slot tile w = .error .illegalOperation := by
  rw [decodeSlot, Option.eq_none_iff_forall_ne_some.mpr h]

/-- The opcodes that the four classes assign (04 R84 to R88). -/
theorem slotInstr_opcode {slot : Nat} {tile : BitVec 8} {w : SlotWord} {i : Instr} (h : slotInstr slot tile w = some i) :
    let opc := (opcodeOf w).toNat
    (slot = 0 → opc < 0x01C) ∧
    (slot = 1 ∨ slot = 2 → opc < 0x00A ∨ 0x040 ≤ opc ∧ opc < 0x04E ∨ 0x080 ≤ opc ∧ opc < 0x086) ∧
    (slot = 3 ∨ slot = 4 → opc < 0x032 ∨ 0x100 ≤ opc ∧ opc < 0x12B) ∧ (slot = 5 → opc < 0x005) := by
  unfold slotInstr at h
  dsimp only at h
  split at h
  case h_1 => simpa using (instrC_some h).1
  case h_2 | h_3 =>
    obtain ⟨o, -, h⟩ := Option.bind_eq_some_iff.mp h
    simpa using (instrM_some h).1
  case h_4 | h_5 =>
    split at h
    · simpa using Or.inl (instrS_some h).1
    · obtain ⟨o, -, h⟩ := Option.bind_eq_some_iff.mp h
      simpa using Or.inr (instrV_some h).1
  case h_6 =>
    obtain ⟨o, -, h⟩ := Option.bind_eq_some_iff.mp h
    simpa using (instrE_some h).1
  case h_7 => cases h

end Opcodes

/-- Settles O4: an opcode that a class reads is one of those it assigns, so any other spells no operation. -/
theorem unassignedOpcodesRefused : Obligations.UnassignedOpcodesRefused := by
  intro tile w
  refine ⟨fun h => ?_, fun h => ⟨?_, ?_⟩, fun h => ⟨?_, ?_⟩, fun h => ?_⟩
  all_goals
    refine decodeSlot_eq_illegal fun i hi => ?_
    obtain ⟨hc, hm, hx, he⟩ := slotInstr_opcode hi
  · have := hc rfl; omega
  · have := hm (.inl rfl); omega
  · have := hm (.inr rfl); omega
  · have := hx (.inl rfl); omega
  · have := hx (.inr rfl); omega
  · have := he rfl; omega

end Sys2Proof.Machine

/-! # O18: ld and ldq of the own pool -/

namespace Sys2Proof.Machine
open Sys2Proof

section OwnPoolReads
variable {s s1 : State} {tile slot off n al : Nat} {ea : Word} {b : Bundle} {o : MOp} {v : MVals}

theorem poolPlace_own {a : Nat} (h : a < 2 ^ 23) : poolPlace a = .ownPool a := by
  have h32 : natBits a 32 32 = 0 := by unfold natBits; omega
  have h31 : natBit a 31 = false := by unfold natBit; simp; omega
  have h23 : natBits a 23 8 = 0 := by unfold natBits; omega
  have h0 : natBits a 0 23 = a := by unfold natBits; omega
  simp [poolPlace, h32, h31, h23, h0]

/-- An aligned own-pool address inside the scratchpad passes its checks (08 R174, R180). -/
theorem poolCheck_own (h : OwnPoolAt s tile ea n al) : poolCheck s tile ea n al = .ok (.ownPool ea.toNat) := by
  obtain ⟨hown, hal, hin⟩ := h
  simp [poolCheck, poolPlace_own hown, hal, pastScratch, hin]

theorem pendingOwn_normal (h : (tileGet s tile).dbg = false) (off n : Nat) : pendingOwn (tileGet s tile) off n = none := by
  simp [pendingOwn, h]

/-- A read that the own pool serves (08 R180; 10 R232). -/
theorem ownRead_serves (hdbg : (tileGet s tile).dbg = false)
    (h : PoolServes s s1 tile slot b off n false (decide (o.order = .rlx))) :
    ownRead s tile slot b off n o = .ok (some (ownSync (servePort s1 tile off false) tile off n o)) := by
  obtain ⟨hport, hcode, hown⟩ := h
  simp only [Bool.false_eq_true, if_false] at hcode
  simp [ownRead, hport, hcode, hown, pendingOwn_normal hdbg]

/-- What an ld of the own pool that is served adds to the results under way (08 R180, R181). -/
theorem loadBody_own {effs : List Eff} (hrel : relWaits (coreGet s tile) b.seq o.order = false)
    (hdbg : (tileGet s tile).dbg = false)
    (hat : OwnPoolAt s tile (effAddr v.base v.index o) (sizeBytes o.size) (sizeBytes o.size))
    (hserve : PoolServes s s1 tile slot b (effAddr v.base v.index o).toNat (sizeBytes o.size) false (decide (o.order = .rlx)))
    (hdst : dstEffs (slotQ b.pushes slot) o.data
      (rvOf (BitVec.ofNat 64 (poolNat (tileGet s tile) (effAddr v.base v.index o).toNat (sizeBytes o.size)))) = .ok effs) :
    loadBody o tile slot s b v = .ok (some (addRead
      (ownSync (servePort s1 tile (effAddr v.base v.index o).toNat false) tile (effAddr v.base v.index o).toNat
        (sizeBytes o.size) o)
      tile b.seq slot 5
      (.reg (latchKey slot 0)
        (rvOf (BitVec.ofNat 64 (poolNat (tileGet s tile) (effAddr v.base v.index o).toNat (sizeBytes o.size)))) :: effs)
      (ordAcq o.order) false)) := by
  simp [loadBody, hrel, poolCheck_own hat, ownRead_serves hdbg hserve, hdst]

theorem take_drop_map_range {α : Type} (f : Nat → α) {m a k : Nat} (h : a + k ≤ m) :
    (((List.range m).map f).drop a).take k = (List.range k).map fun j => f (a + j) := by
  apply List.ext_getElem
  · simp; omega
  · simp

theorem sizeBytes_mul_le (z : Size) {i : Nat} (h : i < 64 / sizeBytes z) : sizeBytes z * i + sizeBytes z ≤ 64 := by
  cases z <;> simp only [sizeBytes] at h ⊢ <;> omega

/-- The elements of 64 bytes of a pool are the little-endian numbers of their bytes (08 R181). -/
theorem elemsOf_poolBytes (t : Tile) (off : Nat) (z : Size) :
    elemsOf (sizeBytes z) ((List.range 64).map fun i => poolByte t (off + i)) =
      (List.range (64 / sizeBytes z)).map fun j => poolNat t (off + sizeBytes z * j) (sizeBytes z) := by
  refine List.map_congr_left fun i hi => ?_
  rw [take_drop_map_range _ (sizeBytes_mul_le z (List.mem_range.mp hi)), poolNat]
  simp only [Nat.add_assoc]

/-- What an ldq of the own pool that is served adds to the results under way (08 R180, R181). -/
theorem ldqBody_own (hrel : relWaits (coreGet s tile) b.seq o.order = false)
    (hdbg : (tileGet s tile).dbg = false) (hat : OwnPoolAt s tile (effAddr v.base v.index o) 64 64)
    (hserve : PoolServes s s1 tile slot b (effAddr v.base v.index o).toNat 64 false (decide (o.order = .rlx))) :
    ldqBody o tile slot s b v = .ok (some (addRead
      (ownSync (servePort s1 tile (effAddr v.base v.index o).toNat false) tile (effAddr v.base v.index o).toNat 64 o)
      tile b.seq slot 5
      (((slotQ b.pushes slot).zip ((List.range (64 / sizeBytes o.size)).map fun j =>
        poolNat (tileGet s tile) ((effAddr v.base v.index o).toNat + sizeBytes o.size * j) (sizeBytes o.size))).map
          fun p => .entry p.1.1 p.1.2 (rvOf (BitVec.ofNat 64 p.2)))
      (ordAcq o.order) false)) := by
  simp [ldqBody, hrel, poolCheck_own hat, ownRead_serves hdbg hserve, elemsOf_poolBytes]

end OwnPoolReads

/-- Settles O18: an access that the pool serves passes its checks, and its value lands five ticks on. -/
theorem ownPoolLoads : Obligations.OwnPoolLoads := by
  intro tile hi o s b s1 hrel
  refine ⟨fun h effs hat hserve hdst => ?_, fun h hat hserve => ?_⟩
  · exact accessOp_ok h (loadBody_own hrel h.ready.normal hat hserve hdst)
  · exact accessOp_ok h (ldqBody_own hrel h.ready.normal hat hserve)

end Sys2Proof.Machine

/-! # O19: st and stq to the own pool -/

namespace Sys2Proof.Machine
open Sys2Proof

section OwnPoolWrites
variable {s s1 : State} {tile slot off n al : Nat} {ea : Word} {b : Bundle} {o : MOp} {v : MVals} {bs : List Byte}

/-- A write that the own pool serves lands its bytes at the end of its tick (08 R180, R181). -/
theorem ownWrite_serves (hn : bs.length = n) (h : PoolServes s s1 tile slot b off n true (decide (o.order = .rlx))) :
    ∃ x, ownWrite s tile slot b off bs o = .ok (some
      (addFlight x tile b.seq slot 1 [.cells ((List.range n).zip bs |>.map fun p => (off + p.1, p.2))])) := by
  obtain ⟨hport, hcode, hown⟩ := h
  simp only [if_true] at hcode
  simp only [ownWrite, hn, hport, hcode, hown, Bool.not_true, Bool.false_eq_true, if_false]
  exact ⟨_, rfl⟩

theorem storeAt_own (opc : Nat) (hn : bs.length = n) (hrel : relWaits (coreGet s tile) b.seq o.order = false)
    (hat : OwnPoolAt s tile ea n al) (hserve : PoolServes s s1 tile slot b ea.toNat n true (decide (o.order = .rlx))) :
    ∃ x, storeAt o opc tile slot s b ea al bs = .ok (some
      (addFlight x tile b.seq slot 1 [.cells ((List.range n).zip bs |>.map fun p => (ea.toNat + p.1, p.2))])) := by
  obtain ⟨x, hx⟩ := ownWrite_serves hn hserve
  exact ⟨x, by simp [storeAt, hrel, hn, poolCheck_own hat, hx]⟩

/-- The entries that an stq pops, after those of its base and its index (08 R181). -/
def storedEntries (s : State) (tile slot : Nat) (o : MOp) (b : Bundle) : List RV :=
  ((slotQ b.pops slot).drop (qOf o.base ++ qOf o.index).length).map fun q =>
    mapGet (coreGet s tile).qent (qKey q.1 q.2) (rvOf 0)

theorem stqBody_checked (h : resCheck (storedEntries s tile slot o b) = none) : stqBody o tile slot s b v =
    storeAt o 0x003 tile slot s b (effAddr v.base v.index o) 64
      ((storedEntries s tile slot o b).flatMap fun x => leBytes (sizeBytes o.size) x.v.toNat) := by
  unfold storedEntries at h ⊢
  simp only [stqBody, h]

theorem length_entryBytes {vals : List RV} {z : Size} (h : vals.length = 64 / sizeBytes z) :
    (vals.flatMap fun x => leBytes (sizeBytes z) x.v.toNat).length = 64 := by
  simp only [List.length_flatMap, leBytes_length, List.map_const', List.sum_replicate, h]
  cases z <;> rfl

/-- The write of an issue is the latest result under way, and lands in the tick of the issue (05 R105). -/
theorem write_lands {x : State} {effs : List Eff} (h : IssueKeeps tile s (addFlight x tile b.seq slot 1 effs)) :
    IssueKeeps tile s (slotDone (addFlight x tile b.seq slot 1 effs) tile slot b) ∧
      lastFlight (slotDone (addFlight x tile b.seq slot 1 effs) tile slot b) tile =
        some ⟨b.seq, slot, (coreGet s tile).ticks, effs, none, false, false, false⟩ := by
  refine ⟨keeps_trans h (keeps_markIssued ..), ?_⟩
  have hticks : (coreGet x tile).ticks = (coreGet s tile).ticks := (keeps_addFlight x ..).ticks.symm.trans h.ticks
  rw [lastFlight_slotDone, hticks, Nat.add_sub_cancel]

end OwnPoolWrites

/-- Settles O19: a write that the pool serves is staged, and lands at the end of its tick. -/
theorem ownPoolStores : Obligations.OwnPoolStores := by
  intro tile hi o s b s1 hrel
  refine ⟨fun h hat hserve => ?_, fun h hlen hgood hat hserve => ?_⟩
  · obtain ⟨x, hx⟩ := storeAt_own 0x001 (leBytes_length _ (accessArgs s tile hi o true b).data.v.toNat) hrel hat hserve
    exact ⟨_, accessOp_ok h hx, write_lands ((keeps_storeBody o _ _ _ _ _).get _ hx)⟩
  · have hlen' : (storedEntries s tile.toNat (mSlot hi) o b).length = 64 / sizeBytes o.size := (List.length_map ..).trans hlen
    obtain ⟨x, hx⟩ := storeAt_own 0x003 (length_entryBytes hlen') hrel hat hserve
    have hbody := (stqBody_checked (v := accessArgs s tile hi o false b) hgood).trans hx
    exact ⟨_, accessOp_ok h hbody, write_lands ((keeps_stqBody o _ _ _ _ _).get _ hbody)⟩

end Sys2Proof.Machine

/-! # O34: slack, the fences, brk, ovl and sleepk -/

namespace Sys2Proof.Machine
open Sys2Proof

section Fences
/-- A fence is open once the older writes and reads that its order names are done (07 R159). -/
theorem fenceWaits_eq_false_iff {c : Core} {seq : Nat} {imm : BitVec 13} : fenceWaits c seq imm = false ↔
    (ordRel (memOrderOf (imm.extractLsb' 3 2)) = true → writesDone c seq = true) ∧
      (ordAcq (memOrderOf (imm.extractLsb' 3 2)) = true → readsDone c seq = true) := by
  simp [fenceWaits]

/-- The page that an ovl names, where its countport is a source as the operation says (07 R160). -/
theorem ovlPage_eq (o : COp) (v : Word) : (if o.cport = .s 0 then o.imm.toNat else
    (if decide (o.cport ≠ .s 0) = true then v else 0).toNat) = if o.cport = .s 0 then o.imm.toNat else v.toNat := by
  by_cases h : o.cport = .s 0
  · rw [if_pos h, if_pos h]
  · rw [if_neg h, if_neg h, if_pos (decide_eq_true h)]

end Fences

/-- Settles O34: each operation goes by its body, whose one test is the statement's case. -/
theorem fencesAndHolds : Obligations.FencesAndHolds := by
  intro tile o s b
  refine ⟨fun h => ctlOp_ok h rfl, fun h => ⟨fun hopen => ?_, fun hopen => ?_⟩, fun h => ?_,
    fun h => ⟨fun hk => ?_, fun hk => ?_⟩, fun h => ⟨fun hp => ?_, fun hp => ?_⟩, fun h => ctlOp_ok h rfl,
    fun h => ⟨fun h1 h2 => ?_, fun hw => ?_⟩, fun h => ctlOp_ok h rfl⟩
  · exact ctlOp_ok h (if_neg (Bool.eq_false_iff.mp (fenceWaits_eq_false_iff.mpr hopen)))
  · exact ctlOp_wait h (if_pos (Bool.eq_true_of_not_eq_false (mt fenceWaits_eq_false_iff.mp hopen)))
  · by_cases hv : vecDone (coreGet s tile.toNat) b.seq = true
    · rw [if_pos hv]
      exact ctlOp_ok h (if_pos hv)
    · rw [if_neg hv]
      exact ctlOp_wait h (if_neg hv)
  · exact ctlOp_bad h (if_neg (by simp [hk]))
  · exact ctlOp_ok h (if_pos hk)
  · refine ctlOp_bad h ?_
    rw [ovlBody, ovlPage_eq]
    exact if_pos hp
  · refine ctlOp_ok h ?_
    rw [ovlBody, ovlPage_eq]
    exact if_neg (Nat.not_le.mpr hp)
  · exact ctlOp_ok h (if_neg (by simp only [if_true]; omega))
  · exact ctlOp_bad h (if_pos hw)

end Sys2Proof.Machine

/-! # O38: the operations of slot ea enter their engine's buffer -/

namespace Sys2Proof.Machine
open Sys2Proof

section EngineOperations
variable {s : State} {i : Instr} {tile : BitVec 8} {o : EOp} {src : Bool} {b : Bundle} {body : State → Bundle → RV → State}

/-- The issue of a ready operation of slot ea whose guard is true (11 R249). -/
theorem engRun_ready (h : ReadyE i tile o src s b) :
    engRun tile.toNat o src body s b = some (body s b (engineArg s tile o src)) := by
  have hc := h.checked
  simp only [engRun, pendingTrap_normal h.ready.normal, h.guard, if_true, hc]
  rfl

theorem engRun_off (h : Ready i tile.toNat 5 s b) (g : guardTrue s tile.toNat o.guard = false) :
    engRun tile.toNat o src body s b = some s := by
  simp [engRun, pendingTrap_normal h.normal, g]

theorem issueOp_engRun (h : ReadyE i tile o src s b) : issueOp i tile.toNat 5 s (engRun tile.toNat o src body) =
    .next (slotDone (body s b (engineArg s tile o src)) tile.toNat 5 b) := by
  rw [issueOp_of_ready h.ready, engRun_ready h]; rfl

theorem issueOp_engRun_off (h : Ready i tile.toNat 5 s b) (g : guardTrue s tile.toNat o.guard = false) :
    issueOp i tile.toNat 5 s (engRun tile.toNat o src body) = .next (slotDone s tile.toNat 5 b) := by
  rw [issueOp_of_ready h, engRun_off h g]; rfl

theorem engGet_slotDone (u : State) (n sl k e : Nat) (b : Bundle) :
    engGet (tileGet (slotDone u n sl b) k) e = engGet (tileGet u k) e := engGet_corePut ..

theorem tileGet_slotDone_other (u : State) {n k : Nat} (sl : Nat) (b : Bundle) (h : k ≠ n) :
    tileGet (slotDone u n sl b) k = tileGet u k := tileGet_corePut_other _ _ h

theorem slotDone_regs (u : State) (n sl : Nat) (b : Bundle) : (coreGet (slotDone u n sl b) n).regs = (coreGet u n).regs :=
  (keeps_markIssued ..).regs

theorem slotDone_flights (u : State) (n sl : Nat) (b : Bundle) :
    (coreGet (slotDone u n sl b) n).flights = (coreGet u n).flights := by
  simp [slotDone, markIssued, bundleMap]

theorem engGet_engMap_other (s : State) (n : Nat) {e k : Nat} (f : Engine → Engine) (h : k ≠ e) :
    engGet (tileGet (engMap s n e f) n) k = engGet (tileGet s n) k := by
  rw [engMap, tileGet_tilePut_same, engGet_engPut_other _ _ h]

theorem tileGet_engMap_other (s : State) {n k : Nat} (e : Nat) (f : Engine → Engine) (h : k ≠ n) :
    tileGet (engMap s n e f) k = tileGet s k := tileGet_tilePut_other _ _ h

theorem engGet_addFlight (s : State) (n k e seq slot l : Nat) (effs : List Eff) :
    engGet (tileGet (addFlight s n seq slot l effs) k) e = engGet (tileGet s k) e := engGet_corePut ..

theorem slackFor_addFlight (s : State) (n seq slot l q : Nat) (effs : List Eff) :
    slackFor (coreGet (addFlight s n seq slot l effs) n) q = slackFor (coreGet s n) q := by
  simp [slackFor, addFlight]

/-- What the entry of an operation in its engine's buffer leaves of the engines, the tiles and the core (05 R109). -/
theorem slotDone_engEnter (s : State) (n e : Nat) (b : Bundle) (k : EOpKind) (sh : Nat) (x : RV) (imm : Nat) :
    let u := slotDone (engEnter s n e b.seq k sh x imm) n 5 b
    (∃ ord, (engGet (tileGet u n) e).buf = (engGet (tileGet s n) e).buf ++
      [⟨b.seq, k, sh, x, imm, false, slackFor (coreGet s n) b.seq, [], ord⟩]) ∧
    (∀ j, j ≠ e → engGet (tileGet u n) j = engGet (tileGet s n) j) ∧
    (∀ j, j ≠ n → tileGet u j = tileGet s j) ∧ u.mem = s.mem ∧ (coreGet u n).regs = (coreGet s n).regs ∧
    (coreGet u n).flights = (coreGet s n).flights := by
  refine ⟨⟨(engGet (tileGet s n) e).nextOrd, ?_⟩, fun j hj => ?_, fun j hj => ?_, rfl, ?_, ?_⟩
  · rw [engGet_slotDone, engEnter, engGet_engMap_same]
  · rw [engGet_slotDone, engEnter, engGet_engMap_other _ _ _ hj]
  · rw [tileGet_slotDone_other _ _ _ hj, engEnter, tileGet_engMap_other _ _ _ hj]
  · rw [slotDone_regs, engEnter, coreGet_engMap]
  · rw [slotDone_flights, engEnter, coreGet_engMap]

/-- What an operation of slot ea leaves once its entry is in its engine's buffer (05 R109; 11 R249). -/
def EntersBuffer (s u : State) (tile : BitVec 8) (o : EOp) (b : Bundle) (kind : EOpKind) : Prop :=
  let n := tile.toNat
  let e := (engineNum o.engine).toNat
  (∃ y, (engGet (tileGet u n) e).buf = (engineAt s tile o).buf ++ [y] ∧ y.seq = b.seq ∧ y.kind = kind ∧
    y.shadow = o.shadow.toNat ∧ y.committed = false ∧ y.slack = slackFor (coreGet s n) b.seq ∧
    (kind = .ewr → y.x = engineArg s tile o true) ∧ (kind = .etrig → y.imm = o.imm.toNat)) ∧
  (∀ k, k ≠ e → engGet (tileGet u n) k = engGet (tileGet s n) k) ∧
  (∀ k, k ≠ n → tileGet u k = tileGet s k) ∧ u.mem = s.mem ∧ (coreGet u n).regs = (coreGet s n).regs ∧
  (coreGet u n).flights = (coreGet s n).flights ++ (if kind = .erd then
    [⟨b.seq, 5, (coreGet s n).ticks + 1, [.reg (portKey o.source) (rvOf (engRegRd (tileGet s n) e o.shadow.toNat))],
      none, false, false, false⟩] else [])

/-- ewr, etrig, eabort and ewaitq leave their entry and no result (05 R109). -/
theorem engOp_enters {kind : EOpKind} (h : ReadyE i tile o src s b) (hk : kind ≠ .erd) (hsrc : kind = .ewr → src = true) :
    ∃ u, engOp i tile o src kind s = .next u ∧ EntersBuffer s u tile o b kind := by
  obtain ⟨⟨ord, hbuf⟩, heng, htile, hmem, hregs, hfl⟩ := slotDone_engEnter s tile.toNat (engineNum o.engine).toNat b kind
    o.shadow.toNat (engineArg s tile o src) o.imm.toNat
  refine ⟨_, issueOp_engRun h, ⟨_, hbuf, rfl, rfl, rfl, rfl, rfl, fun hw => ?_, fun _ => rfl⟩, heng, htile, hmem, hregs, ?_⟩
  · rw [hsrc hw]
  · rw [hfl, if_neg hk, List.append_nil]

/-- erd leaves its entry, and the register's value lands in two ticks (05 R105, R109). -/
theorem execErd_enters (h : ReadyE (.erd tile o) tile o false s b) :
    ∃ u, execErd tile o s = .next u ∧ EntersBuffer s u tile o b .erd := by
  have hdone := issueOp_engRun (body := fun s b _ =>
    engEnter (addFlight s tile.toNat b.seq 5 2 [.reg (portKey o.source)
      (rvOf (engRegRd (tileGet s tile.toNat) (engineNum o.engine).toNat o.shadow.toNat))]) tile.toNat (engineNum o.engine).toNat
      b.seq .erd o.shadow.toNat (rvOf 0) 0) h
  obtain ⟨⟨ord, hbuf⟩, heng, htile, hmem, hregs, hfl⟩ := slotDone_engEnter (addFlight s tile.toNat b.seq 5 2
    [.reg (portKey o.source) (rvOf (engRegRd (tileGet s tile.toNat) (engineNum o.engine).toNat o.shadow.toNat))])
    tile.toNat (engineNum o.engine).toNat b .erd o.shadow.toNat (rvOf 0) 0
  rw [slackFor_addFlight, engGet_addFlight] at hbuf
  refine ⟨_, hdone, ⟨_, hbuf, rfl, rfl, rfl, rfl, rfl, nofun, nofun⟩, fun k hk => ?_, fun k hk => ?_, hmem, hregs.trans ?_,
    hfl.trans ?_⟩
  · rw [heng k hk, engGet_addFlight]
  · rw [htile k hk]
    exact tileGet_corePut_other _ _ hk
  · exact (keeps_addFlight ..).regs
  · simp [addFlight]

end EngineOperations

/-- Settles O38: all but erd are one operation of slot ea with its kind, and erd adds its result. -/
theorem engineOperations : Obligations.EngineOperations := by
  intro tile o s b r hr
  simp only [List.mem_cons, List.not_mem_nil, or_false] at hr
  obtain rfl | rfl | rfl | rfl | rfl := hr
  · exact ⟨fun h => engOp_enters h nofun fun _ => rfl, issueOp_engRun_off⟩
  · exact ⟨fun h => engOp_enters h nofun nofun, issueOp_engRun_off⟩
  · exact ⟨fun h => engOp_enters h nofun nofun, issueOp_engRun_off⟩
  · exact ⟨fun h => engOp_enters h nofun nofun, issueOp_engRun_off⟩
  · exact ⟨fun h => execErd_enters h, issueOp_engRun_off⟩

end Sys2Proof.Machine

/-! # O40: fetch, the fills of lines and pages, and dispatch -/

namespace Sys2Proof.Machine
open Sys2Proof

section Fetch
variable {s : State} {n : Nat}

/-- A fetch that faults holds its fault until the older bundles have committed (04 R93). -/
theorem decodeStop_of_fetchStop {u : State} {pc cause : Nat} (h : u = fetchStop s n pc cause) :
    (coreGet u n).decodeStop = some (pc, 0, trapAt cause (BitVec.ofNat 64 pc) 0) := by
  rw [h, fetchStop, coreGet_corePut_same]

/-- The eviction of a frame changes the frames of the core alone (03 R64). -/
theorem coreGet_evictFrame (s : State) (n : Nat) :
    ∃ l, coreGet (evictFrame s n) n = { coreGet s n with frames := l } := by
  unfold evictFrame
  dsimp only
  split
  · exact ⟨_, rfl⟩
  · exact ⟨_, coreGet_corePut_same ..⟩

theorem evictFrame_room (h : (coreGet s n).frames.length < 32) : evictFrame s n = s := if_pos h

/-- The begin of a page's fill changes the frames and the pages to fill of the core alone (03 R64, R65). -/
theorem coreGet_fillBegin (s : State) (n page : Nat) : ∃ l p, page ∈ p ∧
    coreGet (fillBegin s n page) n = { coreGet s n with frames := l, fill := p } := by
  unfold fillBegin
  dsimp only
  split
  · next h => exact ⟨_, _, List.contains_iff_mem.mp h, rfl⟩
  · split
    · obtain ⟨l, hl⟩ := coreGet_evictFrame s n
      exact ⟨l, [page], List.mem_singleton_self _, by rw [coreGet_corePut_same, hl]⟩
    · exact ⟨_, _, List.mem_append_right _ (List.mem_singleton_self _), coreGet_corePut_same ..⟩

theorem corePut_keepsPc {c : Core} (hpc : c.pc = (coreGet s n).pc) (hregs : c.regs = (coreGet s n).regs) :
    (coreGet (corePut s n c) n).pc = (coreGet s n).pc ∧ (coreGet (corePut s n c) n).regs = (coreGet s n).regs ∧
      (corePut s n c).mem = s.mem := by
  rw [coreGet_corePut_same]
  exact ⟨hpc, hregs, rfl⟩

/-- A fetch keeps the pc, the committed registers and the memory (03 R61). -/
theorem indexFetch_frame (s : State) (n : Nat) : (coreGet (indexFetch n s) n).pc = (coreGet s n).pc ∧
    (coreGet (indexFetch n s) n).regs = (coreGet s n).regs ∧ (indexFetch n s).mem = s.mem := by
  fun_cases indexFetch n s
  case case1 => exact ⟨rfl, rfl, rfl⟩
  case case6 =>
    obtain ⟨l, p, -, hcore⟩ := coreGet_fillBegin _ _ _
    rw [hcore, coreGet_corePut_same]
    exact ⟨rfl, rfl, (keeps_fillBegin ..).mem⟩
  all_goals exact corePut_keepsPc rfl rfl

section Open
variable {i : Nat} (ho : fetchOpen s n = true)
include ho

theorem indexFetch_past (h : hdrField s n 0x24 ≤ (coreGet s n).pc) :
    indexFetch n s = fetchStop s n (coreGet s n).pc causeFetchBound := by
  simp [indexFetch, ho, h]

theorem indexFetch_lacks {l : Nat} (hin : (coreGet s n).pc < hdrField s n 0x24) (h : halfAt s n (coreGet s n).pc = .inr l) :
    indexFetch n s = corePut s n { coreGet s n with lineWait := some l } := by
  simp [indexFetch, ho, Nat.not_le.mpr hin, h]

section Half
variable (hin : (coreGet s n).pc < hdrField s n 0x24) (h : halfAt s n (coreGet s n).pc = .inl i)
include hin h

theorem indexFetch_badIndex (hlow : i < 0x8000) (hdict : hdrField s n 0x1C ≤ i) :
    indexFetch n s = fetchStop s n (coreGet s n).pc causeIllegalIndex := by
  simp [indexFetch, ho, Nat.not_le.mpr hin, h, hlow, hdict]

theorem indexFetch_reserved (hhigh : 0x8000 ≤ i) (hesc : i ≠ 0xFFFF) :
    indexFetch n s = fetchStop s n (coreGet s n).pc causeIllegalIndex := by
  simp [indexFetch, ho, Nat.not_le.mpr hin, h, Nat.not_lt.mpr hhigh, hesc]

/-- An index whose page stands in a frame gives the entry there (03 R61, R64). -/
theorem indexFetch_entry {f : Frame} (hlow : i < 0x8000) (hdict : i < hdrField s n 0x1C)
    (hf : frameOf s n (i / 256) = some f) : (coreGet (indexFetch n s) n).cur =
      some (leNat ((f.bytes.drop (i % 256 * 48)).take 48), (coreGet s n).pc + 1) := by
  simp [indexFetch, ho, Nat.not_le.mpr hin, h, hlow, Nat.not_le.mpr hdict, hf]

theorem indexFetch_noFrame (hlow : i < 0x8000) (hdict : i < hdrField s n 0x1C) (hf : frameOf s n (i / 256) = none) :
    indexFetch n s = fillBegin (corePut s n { coreGet s n with pageWait := some (i / 256) }) n (i / 256) := by
  simp [indexFetch, ho, Nat.not_le.mpr hin, h, hlow, Nat.not_le.mpr hdict, hf]

theorem indexFetch_cut (hesc : i = 0xFFFF) (hend : hdrField s n 0x24 ≤ (coreGet s n).pc + 24) :
    indexFetch n s = fetchStop s n (coreGet s n).pc causeFetchBound := by
  simp [indexFetch, ho, Nat.not_le.mpr hin, h, hesc, hend]

theorem indexFetch_literal {bits : Nat} (hesc : i = 0xFFFF) (hend : (coreGet s n).pc + 24 < hdrField s n 0x24)
    (hlit : literalAt s n (coreGet s n).pc = .inl bits) :
    indexFetch n s = corePut s n { coreGet s n with cur := some (bits, (coreGet s n).pc + 25) } := by
  simp [indexFetch, ho, Nat.not_le.mpr hin, h, hesc, Nat.not_le.mpr hend, hlit]

end Half
end Open

/-! ## Lines and pages that arrive (03 R64, R67) -/

/-- What the arrival of a line, and of the line before it where the index stands there, leaves in the core (03 R67). -/
theorem lineFill_arrives {l l0 : Nat} {s1 : State} {bs : List Byte} (hp : pickTurn s (lineWaiters s) = some (n, l))
    (hl0 : l0 = if idxAddr s n (coreGet s n).pc / 64 + 1 = l then l - 1 else l)
    (hread : codeRead s n 2 (l0 * 64) (64 * (l + 1 - l0)) = (s1, .ok (some bs))) :
    ∃ fill kept, coreGet (lineFill s) n = { coreGet s1 n with lineWait := none, lines :=
      (((List.range (l + 1 - l0)).map fun i => (⟨l0 + i, fill, (bs.drop (64 * i)).take 64⟩ : FetchLine)) ++ kept).take 16 } := by
  subst hl0
  simp only [lineFill, hp, hread]
  exact ⟨_, _, coreGet_corePut_same ..⟩

/-- Of lines that come at most 16 at a time, the buffer holds every one (03 R67). -/
theorem lineFind_arrived {c : Core} {l0 m k fill : Nat} {bs : List Byte} {kept : List FetchLine} (hm : m ≤ 16) (hk : k < m)
    (hc : c.lines = (((List.range m).map fun i => (⟨l0 + i, fill, (bs.drop (64 * i)).take 64⟩ : FetchLine)) ++ kept).take 16) :
    lineFind c (l0 + k) = some ⟨l0 + k, fill, (bs.drop (64 * k)).take 64⟩ := by
  have hfind : (List.range m).find? (fun i => decide (l0 + i = l0 + k)) = some k := by
    simp only [List.find?_range_eq_some]
    simp [hk]
    omega
  rw [lineFind, hc, List.take_append, List.take_of_length_le (by simpa using hm), List.find?_append, List.find?_map]
  simp only [Function.comp_def, hfind]
  rfl

/-- What the arrival of a dictionary page leaves in the core (03 R64 to R66). -/
theorem dictFill_arrives {p : Nat} {s1 : State} {bs : List Byte} (hp : pickTurn s (fillTiles s) = some (n, p))
    (hread : codeRead s n 3 (imageBase s n + hdrField s n 0x18 + p * 12288) (48 * min 256 (hdrField s n 0x1C - 256 * p)) =
      (s1, .ok (some bs))) :
    ∃ l stamp, coreGet (dictFill s) n = { coreGet s1 n with
        frames := l, fill := (coreGet s1 n).fill.tail,
        pageWait := if (coreGet s1 n).pageWait = some p then none else (coreGet s1 n).pageWait } ∧
      ((coreGet s1 n).fill.tail = [] ∨ (coreGet s1 n).frames.length < 31 →
        l = (coreGet s1 n).frames ++ [⟨hdrField s1 n 0x06, hdrField s1 n 0x10, p, bs, stamp⟩]) := by
  simp only [dictFill, hp, hread, List.drop_one]
  split
  · exact ⟨_, _, coreGet_corePut_same .., fun _ => rfl⟩
  · next hfill =>
    by_cases hroom : (coreGet s1 n).frames.length < 31
    · rw [evictFrame_room (by rw [coreGet_corePut_same]; simp; omega)]
      exact ⟨_, _, coreGet_corePut_same .., fun _ => rfl⟩
    · obtain ⟨l, hl⟩ := coreGet_evictFrame (corePut s1 n _) n
      refine ⟨l, 0, by rw [hl, coreGet_corePut_same], fun h => absurd h ?_⟩
      exact not_or.mpr ⟨mt List.isEmpty_iff.mpr hfill, hroom⟩

/-! ## Dispatch (04 R93; 05 R98) -/

theorem coreGet_tickOpen (s : State) (n : Nat) : ∃ st, coreGet (tickOpen n s) n = { coreGet s n with stage := st } := by
  unfold tickOpen
  split
  · exact ⟨_, coreGet_corePut_same ..⟩
  · exact ⟨_, rfl⟩

/-- What the entry of a bundle leaves in the core, and what the bundle is (05 R98). -/
theorem enterBundle_spec (s : State) (n pc next hdr : Nat) (ops : List (Nat × SlotWord)) :
    let r := enterBundle s n pc next hdr ops
    ((coreGet r.1 n).regs = (coreGet s n).regs ∧ (coreGet r.1 n).cur = none ∧ (coreGet r.1 n).window = (coreGet s n).window ++ [r.2] ∧
      (coreGet r.1 n).nextSeq = (coreGet s n).nextSeq + 1) ∧
    r.2.seq = (coreGet s n).nextSeq ∧ r.2.pc = pc ∧ r.2.next = next ∧ r.2.words = ops := by
  refine ⟨?_, rfl, rfl, rfl, rfl⟩
  have hput : (enterBundle s n pc next hdr ops).1 = corePut s n _ := rfl
  rw [hput, coreGet_corePut_same]
  exact ⟨rfl, rfl, rfl, rfl⟩

section Dispatch
variable {bits next : Nat}

theorem dispatch_open (hruns : coreRuns s n = true) (hopen : dispatchOpen (tileGet s n) = true)
    (hcur : (coreGet s n).cur = some (bits, next)) : dispatch n s = tickOpen n (dispatchNow n s bits next) := by
  have hcur' : (tileGet s n).core.cur = some (bits, next) := hcur
  simp [dispatch, hcur', hruns, hopen]

/-- A bundle with a decode fault is held with its cause (04 R93). -/
theorem dispatchNow_bad {mask : Nat} {x : Trap} (h : bundleTrap (coreGet s n).pc next bits = some (mask, x)) :
    coreGet (dispatchNow n s bits next) n =
      { coreGet s n with decodeStop := some ((coreGet s n).pc, mask, x), cur := none } := by
  have h' : bundleTrap (tileGet s n).core.pc next bits = some (mask, x) := h
  simp only [dispatchNow, h', coreGet_corePut_same]
  rfl

/-- A bundle with no decode fault enters the window (05 R98). -/
theorem dispatchNow_good (h : bundleTrap (coreGet s n).pc next bits = none) : ∃ weight busy,
    coreGet (dispatchNow n s bits next) n =
      { coreGet (enterBundle s n (coreGet s n).pc next (bits / 2 ^ 360)
          (((List.range 6).filter fun k => natBit bits (372 + k)).map fun k => (k, bundleWord bits k))).1 n with
        weight, busy } := by
  have h' : bundleTrap (tileGet s n).core.pc next bits = none := h
  simp only [dispatchNow, h', coreGet, tileGet_tilePut_same]
  exact ⟨_, _, rfl⟩

end Dispatch

end Fetch

/-- Settles O40: each answer of the fetch from the lemma on its branch; each fill and the dispatch from
what it leaves in the core. -/
theorem fetchAndDispatch : Obligations.FetchAndDispatch := by
  intro tile s
  refine ⟨?_, ?_, ?_, ?_⟩
  case refine_1 =>
    intro ho
    obtain ⟨hpc, hregs, hmem⟩ := indexFetch_frame s tile.toNat
    refine ⟨_, rfl, hpc, hregs, hmem, fun h => ?_, fun hin l h => ?_, fun hin i h => ⟨fun hlow hdict => ?_, fun hhigh hesc => ?_,
      fun hlow hdict f hf => ?_, fun hlow hdict hf => ?_, fun hesc hend => ?_, fun hesc hend bits hlit => ?_⟩⟩
    · exact decodeStop_of_fetchStop (indexFetch_past ho h)
    · rw [indexFetch_lacks ho hin h, coreGet_corePut_same]
    · exact decodeStop_of_fetchStop (indexFetch_badIndex ho hin h hlow hdict)
    · exact decodeStop_of_fetchStop (indexFetch_reserved ho hin h hhigh hesc)
    · exact indexFetch_entry ho hin h hlow hdict hf
    · obtain ⟨fr, pages, hmem, hcore⟩ := coreGet_fillBegin
        (corePut s tile.toNat { coreGet s tile.toNat with pageWait := some (i / 256) }) tile.toNat (i / 256)
      rw [indexFetch_noFrame ho hin h hlow hdict hf, hcore, coreGet_corePut_same]
      exact ⟨rfl, hmem⟩
    · exact decodeStop_of_fetchStop (indexFetch_cut ho hin h hesc hend)
    · rw [indexFetch_literal ho hin h hesc hend hlit, coreGet_corePut_same]
  case refine_2 =>
    intro l s1 bs hp l0 hread
    obtain ⟨fill, kept, hcore⟩ := lineFill_arrives hp rfl hread
    have hl0 : l0 = l ∨ l0 + 1 = l := by
      by_cases hc : idxAddr s tile.toNat (coreGet s tile.toNat).pc / 64 + 1 = l
      · exact .inr (by simp only [l0, if_pos hc]; omega)
      · exact .inl (if_neg hc)
    refine ⟨_, rfl, congrArg Core.lineWait hcore, fun k hk hkl => ?_⟩
    have hfind := lineFind_arrived (k := k - l0) (by omega) (by omega) (congrArg Core.lines hcore)
    rw [Nat.add_sub_cancel' hk] at hfind
    exact ⟨_, hfind, rfl⟩
  case refine_3 =>
    intro p s1 bs hp hread
    obtain ⟨frames, stamp, hcore, hroom⟩ := dictFill_arrives hp hread
    refine ⟨_, rfl, ?_⟩
    rw [hcore]
    refine ⟨?_, rfl, fun h =>
      ⟨⟨hdrField s1 tile.toNat 0x06, hdrField s1 tile.toNat 0x10, p, bs, stamp⟩, ?_, rfl, rfl, rfl, rfl⟩⟩
    · dsimp only
      split
      · nofun
      · assumption
    · rw [hroom h]
      exact List.mem_append_right _ (List.mem_singleton_self _)
  case refine_4 =>
    intro bits next hruns hopen hcur
    refine ⟨_, congrArg Host.Outcome.next (dispatch_open hruns hopen hcur), ?_⟩
    obtain ⟨stage, htick⟩ := coreGet_tickOpen (dispatchNow tile.toNat s bits next) tile.toNat
    rw [htick]
    cases htrap : bundleTrap (coreGet s tile.toNat).pc next bits with
    | some y =>
      rw [dispatchNow_bad htrap]
      exact ⟨rfl, rfl, fun mask x h => by cases h; exact ⟨rfl, rfl⟩, nofun⟩
    | none =>
      obtain ⟨weight, busy, hcore⟩ := dispatchNow_good htrap
      obtain ⟨⟨hregs, hcur', hwin, hseq⟩, hb⟩ := enterBundle_spec s tile.toNat (coreGet s tile.toNat).pc next (bits / 2 ^ 360)
        (((List.range 6).filter fun k => natBit bits (372 + k)).map fun k => (k, bundleWord bits k))
      obtain ⟨hbseq, hbpc, hbnext, hbwords⟩ := hb
      rw [hcore]
      exact ⟨hregs, hcur', nofun, fun _ => ⟨_, hwin, hbseq, hbpc, hbnext, hseq, hbwords⟩⟩

end Sys2Proof.Machine

/-! # O1: worked slot words -/

namespace Sys2Proof.Machine
open Sys2Proof

/-- Settles O1: each word is read by evaluation. -/
theorem wordsDecode : Obligations.WordsDecode := by
  refine ⟨?_, ?_, ?_, ?_, ?_, ?_, ?_, ?_, ?_, ?_, ?_, ?_, ?_⟩ <;> rfl

end Sys2Proof.Machine

/-! # O5: a slot's offer counts the port it lost before it runs -/

namespace Sys2Proof.Machine
open Sys2Proof

section PortLoss

/-- An ld of the first eight bytes of the own pool. -/
def loadFirst : MOp := ⟨⟨false, 0⟩, .s 5, .s 0, .s 0, 0, .tile, .rlx, .d⟩

/-- A tile that runs, whose pool has served a store to line 0 in this tick. -/
def portTaken : Tile :=
  { tileReset with running := some bareBobbin, core := { coreReset with served := [(0, portAskOf 0 true)] } }

/-- The load in slot aa of tile 0, with its bundle. -/
def loadEntered : State × Bundle :=
  enterBundle { State.reset with tiles := [(0, portTaken)] } 0 0 25 (2 ^ 13) [(1, slotWordOf (.ld 0 false loadFirst))]

/-- The slot's offer stands at the head of the agenda. -/
def loadOffered : State := { loadEntered.1 with agenda := [.slot 0 1] }

/-- The losses at the pool's port that tile 0 has counted after a step (10 R232). -/
def lossesAfter : Out → Nat
  | .next t => (coreGet t 0).lost.length
  | _ => 0

end PortLoss

/-- Refutes O5: the step of an offer of slot aa whose pool port is taken counts that loss (10 R232) before the operation runs, so
it is exec on a state that differs from the one named in more than its agenda. The ld of line 0, with a store to the line served in
the tick, shows it: one loss after the step, none after exec. -/
theorem not_stepRunsDecodedWord : ¬ Obligations.StepRunsDecodedWord := by
  intro h
  have hnext : slotNext? (coreGet loadOffered 0) 1 = some loadEntered.2 := by decide +kernel
  have hdec : decodeSlot 1 (BitVec.ofNat 8 0) (mapGet loadEntered.2.words 1 0) = .ok (.ld 0 false loadFirst) := by rfl
  have hstep := (h loadOffered (.ld 0 false loadFirst)).2 0 1 [] loadEntered.2 (by decide) (by decide) rfl hnext hdec
  have hcount : lossesAfter (step loadOffered) = 1 := by decide +kernel
  have hexec : lossesAfter (exec (.ld 0 false loadFirst) { loadOffered with agenda := [] }) = 0 := by decide +kernel
  rw [hstep, hexec] at hcount
  cases hcount

end Sys2Proof.Machine

/-! # O6: a word that is placed runs next -/

namespace Sys2Proof.Machine
open Sys2Proof

section PlacedWords

theorem length_natBytes (n x : Nat) : (natBytes n x).length = n := by
  induction n generalizing x with
  | zero => rfl
  | succ n ih => rw [natBytes, List.length_cons, ih]

/-- The step word of a table's word decodes to the instruction that the table reads (03 R70). -/
theorem decodeStep_of_decodeTableWord {nbits w : Nat} {i : Instr} (h : decodeTableWord nbits w = some i) :
    decodeStep (stepWordOf (tableBytes nbits w)) = .ok i := by
  have hlen : (tableBytes nbits w).length = 40 := length_natBytes ..
  have htake : (tableBytes nbits w).take 40 = tableBytes nbits w := List.take_of_length_le hlen.le
  rw [decodeTableWord, decode, hlen, htake] at h
  cases hd : decodeStep (stepWordOf (tableBytes nbits w)) with
  | error e => simp [hd] at h
  | ok j => simp [hd] at h; rw [h]

theorem step_of_word {s : State} {w : StepWord} {turn : Nat} {rest : List Todo} {i : Instr}
    (ha : s.agenda = .word w turn :: rest) (hw : decodeStep w = .ok i) : step s = exec i { s with agenda := rest, turn } := by
  simp only [step, takeNext, ha, hw]

theorem putWord_agenda (s : State) (w : StepWord) : (putWord s w).agenda = .word w 0 :: s.agenda := by
  unfold putWord
  dsimp only
  split <;> rfl

theorem putWord_event {s : State} {w : StepWord} (h : ¬ (w.l0.extractLsb' 60 4).toNat < 6) :
    putWord s w = { s with agenda := .word w 0 :: s.agenda } :=
  if_neg fun hc => h hc.1

/-- The word of an event is not the word of a slot, so it is placed with nothing beside it. -/
theorem not_slot_of_event {w : StepWord} {i : Instr} (h : decodeStep w = .ok i) (hi : opView i = .event) :
    ¬ (w.l0.extractLsb' 60 4).toNat < 6 := by
  obtain ⟨h7, -⟩ | ⟨-, -, hs⟩ := decodeStep_ok h
  · omega
  · exact absurd hi (slotInstr_some (decodeSlot_ok hs).1).2

end PlacedWords

/-- Settles O6: the placed word heads the agenda, and the table's word decodes to its instruction. -/
theorem placedWordRuns : Obligations.PlacedWordRuns := by
  intro s i nbits w h
  have hd := decodeStep_of_decodeTableWord h
  have hstep : step (s.withFetchWord nbits w) = exec i { s.withFetchWord nbits w with agenda := s.agenda, turn := 0 } :=
    step_of_word (putWord_agenda ..) hd
  refine ⟨hstep, fun hi => ?_⟩
  rw [hstep, State.withFetchWord, putWord_event (not_slot_of_event hd hi)]

end Sys2Proof.Machine

/-! # O17: the hard-wired ports -/

namespace Sys2Proof.Machine
open Sys2Proof

section PortKeys

theorem portKey_s (n : BitVec 6) : portKey (.s n) = n.toNat := by revert n; decide
theorem portKey_p (n : BitVec 3) : portKey (.p n) = 64 + n.toNat := by revert n; decide
theorem portKey_m (n : BitVec 3) : portKey (.m n) = 72 + n.toNat := by revert n; decide

end PortKeys

/-- Settles O17: each port's key in the latches, and what a result does to it. -/
theorem hardwiredPorts : Obligations.HardwiredPorts := by
  intro s tile immv pushes x
  refine ⟨rfl, rfl, rfl, rfl, fun n hn => ?_, fun n hn hx => ?_, fun hx => ?_, fun n hx => ⟨?_, ?_⟩, fun n hx => ?_⟩
  · exact congrArg Except.ok ((if_neg hn).trans (by rw [portKey_s]))
  · rw [dstEffs, hx, portKey_p]
    exact congrArg Except.ok (if_neg hn)
  · rw [dstEffs, hx]; rfl
  · rw [dstEffs, hx]; rfl
  · rw [dstEffs, hx]; rfl
  · rw [dstEffs, hx, portKey_m]; rfl

end Sys2Proof.Machine

/-! # O7: a step completes unless the word at the head of the agenda decodes to nothing -/

namespace Sys2Proof.Machine
open Sys2Proof

section StepAnswers

/-- Every instruction has its meaning: one of a slot is an issue, and an event gives its next state outright. -/
theorem exec_next (i : Instr) (s : State) : ∃ t, exec i s = .next t := by
  cases i with
  -- slot ca
  | nop | jmp | jmpi | call | ret | loop | loopr | endOp | yield | suspend | fork | join | csend | lease | leasew | wake
  | unleash | slack | fence | vfence | trap | brk | psplit | pmerge | parrive | pwait | ovl | sleepk | sleepkSource | sleepkSet
  -- slots aa and ab
  | ld | st | ldq | stq | ldc | stc | pref | rdset | rdsetOrg | rdget | rdgetOrg | rdadv | rdadvOrg | aadd | aand | aor | axor
  | amin | amax | aminn | amaxn | aswap | acas | aincw | afaddb | afaddF32 | afaddBf16x2 | kadd | kwait | kread | kpoll | kbind
  | kinit
  -- slots xa and xb, scalar
  | add | sub | mul | mulh | mulhn | div | divn | rem | remn | andOp | orOp | xorOp | andn | shl | shr | sar | rol | minOp | maxOp
  | minn | maxn | clz | ctz | popc | brev | bext | bins | sel | mov | li | lih | madr | ceq | cne | clt | cltn | cle | clen | ctst
  | pand | por | pnot | fadd | fsub | fmul | ffma | fmin | fmax | fcmp | fcvt
  -- slots xa and xb, vector
  | vadd | vsub | vmul | vfma | vmin | vmax | vabs | vneg | vrcp | vrsqrt | vsqrt | vexp2 | vlog2 | vtanh | vcvt | vscl | vamax
  | vand | vor | vxor | vnot | vshl | vshr | vsar | vcmp | vsel | vbcast | vcopy | vperm | viota | vredsum | vredmax | vredmin
  | vscan | vsqsum | vdot | vrng | vdrop | vkat | vclamp | vpopc | vcompress | vexpand
  -- slot ea
  | ewr | erd | etrig | eabort | ewaitq => exact issueOp_next ..
  -- the events
  | _ => exact ⟨_, rfl⟩

/-- Of what the agenda holds only a word can fail to decode: a slot's offer and a probe answer with or without an instruction. -/
theorem undecodable_of_takeNext_error {s : State} {e : Unit} (h : takeNext s = .error e) :
    ∃ w turn rest, s.agenda = .word w turn :: rest ∧ ∀ i, decodeStep w ≠ .ok i := by
  revert h
  fun_cases takeNext with
  | case1 => exact nofun
  | case2 => exact nofun
  | case3 w turn rest ha _ hw => exact fun _ => ⟨w, turn, rest, ha, by simp [hw]⟩
  | case4 => exact nofun
  | case5 => exact nofun

end StepAnswers

/-- Settles O7: what the step takes either decodes to nothing, leaves no instruction to run, or is run by exec, which always
answers a next state. -/
theorem stepAlwaysAnswers : Obligations.StepAlwaysAnswers := by
  intro s
  unfold step
  cases h : takeNext s with
  | error e => exact .inr ⟨rfl, undecodable_of_takeNext_error h⟩
  | ok next =>
    obtain ⟨i?, s'⟩ := next
    cases i? with
    | none => exact .inl ⟨s', rfl⟩
    | some i => exact .inl (exec_next i s')

end Sys2Proof.Machine

/-! # O31: operations of slot ca whose effect comes with the commit of their bundle -/

namespace Sys2Proof.Machine

open Sys2Proof

section CommitActs

/-- Rewriting the bundle of a sequence number shows in its look-up. -/
theorem bundleGet?_bundleMap {c : Core} {seq : Nat} {f : Bundle → Bundle} (hf : ∀ b, (f b).seq = b.seq) :
    bundleGet? (bundleMap c seq f) seq = (bundleGet? c seq).map f := by
  have hp : ((fun b : Bundle => decide (b.seq = seq)) ∘ fun b => if b.seq = seq then f b else b) = fun b => decide (b.seq = seq) := by
    funext b
    by_cases e : b.seq = seq <;> simp [e, hf]
  simp only [bundleGet?, bundleMap, List.find?_map, hp]
  cases hx : c.window.find? fun b => decide (b.seq = seq) with
  | none => rfl
  | some x =>
    have : x.seq = seq := by simpa using List.find?_some hx
    simp [this]

/-- The look-up of a bundle reads the window alone. -/
theorem bundleGet?_of_window {c d : Core} (h : c.window = d.window) (seq : Nat) : bundleGet? c seq = bundleGet? d seq := by
  simp [bundleGet?, h]

/-- A bundle whose operation has issued keeps its commit acts, and what holds dispatch behind it. -/
theorem bundleGet?_slotDone (s : State) (tile slot : Nat) (b : Bundle) :
    bundleGet? (coreGet (slotDone s tile slot b) tile) b.seq =
      (bundleGet? (coreGet s tile) b.seq).map fun x =>
        { x with todo := x.todo.filter (· ≠ slot), past := (coreGet s tile).ticks + 1 } := by
  simp only [slotDone, markIssued, coreGet_corePut_same]
  exact (bundleGet?_of_window rfl _).trans (bundleGet?_bundleMap (by intro; rfl))

/-- end adds its act to its bundle and holds the dispatch of younger ones. -/
theorem bundleGet?_endBody (s : State) (tile : Nat) (b : Bundle) :
    bundleGet? (coreGet (corePut (addAct s tile b.seq 0 .endBobbin) tile
        (bundleMap (coreGet (addAct s tile b.seq 0 .endBobbin) tile) b.seq fun x => { x with unresolved := true })) tile) b.seq =
      (bundleGet? (coreGet s tile) b.seq).map fun x => { x with acts := x.acts ++ [(0, .endBobbin)], unresolved := true } := by
  rw [coreGet_corePut_same]
  refine (bundleGet?_bundleMap (by intro; rfl)).trans ?_
  rw [addAct, coreGet_corePut_same]
  refine (congrArg _ (bundleGet?_bundleMap (by intro; rfl))).trans ?_
  rw [Option.map_map]
  rfl

end CommitActs

/-- Settles O31: each of them completes by the rule of slot ca; end also marks its bundle. -/
theorem commitTimeOperations : Obligations.CommitTimeOperations := by
  unfold Obligations.CommitTimeOperations
  intro tile o s b act reel scope
  refine ⟨fun h => ?_, fun h => ctlOp_ok h rfl, fun h => ctlOp_ok h rfl, fun h => ctlOp_ok h rfl, fun h => ctlOp_ok h rfl,
    fun h => ctlOp_ok h rfl, fun h => ctlOp_ok h rfl, fun h => ctlOp_ok h rfl⟩
  refine ⟨_, ctlOp_ok h rfl, fun x hx => ?_⟩
  rw [bundleGet?_slotDone, bundleGet?_endBody, hx]
  exact ⟨_, rfl, rfl, rfl⟩

end Sys2Proof.Machine

/-! # O28: what holds an operation in its slot -/

namespace Sys2Proof.Machine

open Sys2Proof

section IssueConditions

variable {c : Core} {seq : Nat}

/-- Up to a sync bundle at or before `seq`, every slot of the older bundles has issued in an earlier tick. -/
theorem older_of_syncClear (h : syncClear c seq = true) {x y : Bundle} (hy : y ∈ c.window) (sync : y.sync = true)
    (le : y.seq ≤ seq) (hx : x ∈ c.window) (lt : x.seq < y.seq) : x.todo = [] ∧ x.past ≤ c.ticks := by
  have h1 := List.all_eq_true.1 h y hy
  simp only [sync, le, decide_true, Bool.and_true, Bool.not_true, Bool.false_or] at h1
  have h2 := List.all_eq_true.1 h1 x hx
  simpa [lt] using h2

/-- No unaccepted engine operation forbids the issue of a bundle that its slack does not block. -/
theorem slack_of_not_slackBlocks {t : Tile} (h : slackBlocks t seq = false) {e : Nat} (he : e < 10) {x : EEntry}
    (hx : x ∈ (engGet t e).buf) : seq < x.seq + x.slack + 1 := by
  have h1 := List.any_eq_false.1 h e (List.mem_range.2 he)
  have h2 := List.any_eq_false.1 (Bool.eq_false_iff.2 h1) x hx
  simpa using h2

end IssueConditions

/-- Settles O28: each clause is one of the conditions of `issueOpen`, of the slack and of the elastic buffers. -/
theorem issueOrder : Obligations.IssueOrder := by
  unfold Obligations.IssueOrder
  intro s tile slot b v h
  simp only [canIssue, issueOpen, Bool.and_eq_true, Bool.not_eq_true', decide_eq_true_eq, List.contains_iff_mem] at h
  obtain ⟨⟨⟨⟨⟨⟨⟨todo, busy⟩, sync⟩, fence⟩, pops⟩, held⟩, slack⟩, buf⟩ := h
  refine ⟨todo, busy, fun y hy sy le x hx lt => older_of_syncClear sync hy sy le hx lt, fence, pops,
    fun e he x hx => slack_of_not_slackBlocks slack he hx, fun g a => ?_, fun g slot5 => ?_⟩
  · simp only [g, a, Bool.not_true, Bool.false_or, Bool.true_and, Bool.and_eq_true, Bool.not_eq_true'] at held
    exact held.1
  · subst slot5
    simp only [g, Bool.not_true, Bool.false_or, decide_true, Bool.true_and, Bool.and_eq_true, Bool.not_eq_true'] at held
    exact ⟨held.2, by simpa [bufHolds, g] using buf⟩

end Sys2Proof.Machine

/-! # O27: what the issue of a slot operation leaves unchanged -/

namespace Sys2Proof.Machine

open Sys2Proof

section IssueFrame

/-- Every slot operation is an issue at the tile and the slot that its fields name. -/
theorem exec_issueOp {i : Instr} {tile slot : Nat} (h : placeOf (opView i) = some (tile, slot)) (s : State) :
    ∃ body, exec i s = issueOp i tile slot s body := by
  cases i with
  -- slot ca
  | nop | jmp | jmpi | call | ret | loop | loopr | endOp | yield | suspend | fork | join | csend | lease | leasew | wake
  | unleash | slack | fence | vfence | trap | brk | psplit | pmerge | parrive | pwait | ovl | sleepk | sleepkSource | sleepkSet
  -- slots aa and ab
  | ld | st | ldq | stq | ldc | stc | pref | rdset | rdsetOrg | rdget | rdgetOrg | rdadv | rdadvOrg | aadd | aand | aor | axor
  | amin | amax | aminn | amaxn | aswap | acas | aincw | afaddb | afaddF32 | afaddBf16x2 | kadd | kwait | kread | kpoll | kbind
  | kinit
  -- slots xa and xb, scalar
  | add | sub | mul | mulh | mulhn | div | divn | rem | remn | andOp | orOp | xorOp | andn | shl | shr | sar | rol | minOp | maxOp
  | minn | maxn | clz | ctz | popc | brev | bext | bins | sel | mov | li | lih | madr | ceq | cne | clt | cltn | cle | clen | ctst
  | pand | por | pnot | fadd | fsub | fmul | ffma | fmin | fmax | fcmp | fcvt
  -- slots xa and xb, vector
  | vadd | vsub | vmul | vfma | vmin | vmax | vabs | vneg | vrcp | vrsqrt | vsqrt | vexp2 | vlog2 | vtanh | vcvt | vscl | vamax
  | vand | vor | vxor | vnot | vshl | vshr | vsar | vcmp | vsel | vbcast | vcopy | vperm | viota | vredsum | vredmax | vredmin
  | vscan | vsqsum | vdot | vrng | vdrop | vkat | vclamp | vpopc | vcompress | vexpand
  -- slot ea
  | ewr | erd | etrig | eabort | ewaitq => cases h; exact ⟨_, rfl⟩
  -- an event has no place
  | _ => cases h

theorem keeps_jmpiBody : KeepsC jmpiBody := fun _ _ _ _ => keepsRes_some (keeps_setFlow ..)
theorem keeps_retBody : KeepsC retBody := fun _ _ _ _ => keepsRes_some (keeps_setFlow ..)
theorem keeps_looprBody (o : COp) : KeepsC (looprBody o) := fun _ _ _ _ => keeps_loopRun ..
theorem keeps_nopBody : KeepsC fun _ s _ _ => .ok (some s) := fun tile s _ _ => keepsRes_some (keeps_refl tile s)
theorem keeps_parkBody (always : Bool) (o : COp) : KeepsC (parkBody always o) := fun _ _ _ _ => keepsRes_some (keeps_addAct ..)

/-- An operation that reaches no other tile and no engine leaves what every issue leaves. -/
theorem keeps_exec {i : Instr} {tile slot : Nat} {s t : State} (hp : placeOf (opView i) = some (tile, slot))
    (hr : reachesOut (opView i) = false) (h : exec i s = .next t) : IssueKeeps tile s t := by
  cases i with
  -- slot ca
  | nop => cases hp; exact keeps_ctlOp keeps_offNone keeps_nopBody h
  | jmp => cases hp; exact keeps_ctlOp keeps_offFlow (keeps_jmpBody _) h
  | jmpi => cases hp; exact keeps_ctlOp keeps_offFlow keeps_jmpiBody h
  | call => cases hp; exact keeps_ctlOp keeps_offFlow (keeps_callBody _) h
  | ret => cases hp; exact keeps_ctlOp keeps_offFlow keeps_retBody h
  | loop => cases hp; exact keeps_ctlOp keeps_offFlow (keeps_loopBody _) h
  | loopr => cases hp; exact keeps_ctlOp keeps_offFlow (keeps_looprBody _) h
  | endOp => cases hp; exact keeps_ctlOp keeps_offNone keeps_endBody h
  | yield | wake | trap | parrive | pwait => cases hp; exact keeps_ctlOp keeps_offNone (keeps_actBody _) h
  | suspend | join => cases hp; exact keeps_ctlOp keeps_offNone (keeps_parkBody _ _) h
  | fork => cases hp; exact keeps_ctlOp keeps_offNone (keeps_forkBody _) h
  | csend | lease | leasew => cases hr
  | unleash => cases hp; exact keeps_ctlOp keeps_offNone keeps_unleashBody h
  | slack => cases hp; exact keeps_ctlOp keeps_offNone (keeps_slackBody _) h
  | fence => cases hp; exact keeps_ctlOp keeps_offNone (keeps_fenceBody _) h
  | vfence => cases hp; exact keeps_ctlOp keeps_offNone keeps_vfenceBody h
  | brk => cases hp; exact keeps_ctlOp keeps_offNone (keeps_brkBody _) h
  | psplit => cases hp; exact keeps_ctlOp keeps_offNone (keeps_psplitBody _) h
  | pmerge => cases hp; exact keeps_ctlOp keeps_offNone keeps_pmergeBody h
  | ovl => cases hp; exact keeps_ctlOp keeps_offNone (keeps_ovlBody _) h
  | sleepk => cases hp; exact keeps_ctlOp keeps_offSleep keeps_sleepkBody h
  | sleepkSource => cases hp; exact keeps_ctlOp keeps_offSleep keeps_sleepkSourceBody h
  | sleepkSet => cases hp; exact keeps_ctlOp keeps_offSleep (keeps_sleepkSetBody _) h
  -- slots aa and ab
  | ld => cases hp; exact keeps_accessOp (keeps_loadBody _) h
  | st => cases hp; exact keeps_accessOp (keeps_storeBody _) h
  | ldq => cases hp; exact keeps_accessOp (keeps_ldqBody _) h
  | stq => cases hp; exact keeps_accessOp (keeps_stqBody _) h
  | ldc => cases hp; exact keeps_accessOp (keeps_ldcBody _) h
  | stc => cases hp; exact keeps_accessOp (keeps_stcBody _) h
  | pref => cases hp; exact keeps_accessOp (keeps_prefBody _) h
  | rdset | rdsetOrg => cases hp; exact keeps_accessOp (keeps_rdsetBody _ _) h
  | rdget | rdgetOrg => cases hp; exact keeps_accessOp (keeps_rdgetBody _ _) h
  | rdadv | rdadvOrg => cases hp; exact keeps_accessOp (keeps_rdadvBody _ _) h
  | aadd | aand | aor | axor | amin | amax | aminn | amaxn | aswap | acas | aincw | afaddb | afaddF32 | afaddBf16x2 =>
    cases hp; exact keeps_accessOp (keeps_atomicBody _ _ _) h
  | kadd => cases hp; exact keeps_accessOp (keeps_kaddBody _) h
  | kwait => cases hp; exact keeps_accessOp (keeps_kwaitBody _) h
  | kread | kpoll => cases hp; exact keeps_accessOp (keeps_kreadBody _ _) h
  | kbind => cases hp; exact keeps_accessOp (keeps_kbindBody _) h
  | kinit => cases hp; exact keeps_accessOp (keeps_kinitBody _) h
  -- slots xa and xb, scalar
  | add | sub | mul | mulh | mulhn | div | divn | rem | remn | andOp | orOp | xorOp | andn | shl | shr | sar | rol | minOp | maxOp
  | minn | maxn | clz | ctz | popc | brev | bext | bins | sel | mov | li | lih | madr | ceq | cne | clt | cltn | cle | clen | ctst
  | pand | por | pnot | fadd | fsub | fmul | ffma | fmin | fmax | fcmp | fcvt => cases hp; exact keeps_scalarOp h
  -- slots xa and xb, vector
  | vadd | vsub | vmul | vfma | vmin | vmax | vabs | vneg | vrcp | vrsqrt | vsqrt | vexp2 | vlog2 | vtanh | vcvt | vscl | vamax
  | vand | vor | vxor | vnot | vshl | vshr | vsar | vcmp | vsel | vbcast | vcopy | vperm | viota | vredsum | vredmax | vredmin
  | vscan | vsqsum | vdot | vrng | vdrop | vkat | vclamp | vpopc | vcompress | vexpand => cases hp; exact keeps_vecOp h
  -- slot ea, and the events
  | ewr | erd | etrig | eabort | ewaitq => cases hr
  | _ => cases hp

/-- With an operation of the slot waiting, an issue takes that one or none. -/
theorem takeOp_of_next {s : State} {tile slot : Nat} {b : Bundle} (hb : slotNext? (coreGet s tile) slot = some b) (w : SlotWord) :
    takeOp s tile slot w = if mapGet b.words slot 0 = w then some (s, b) else none := by simp only [takeOp, hb]

end IssueFrame

/-- Settles O27: the frame is that of each operation's body, and the waits are the branches of `issueOp`. -/
theorem issueFrame : Obligations.IssueFrame := by
  unfold Obligations.IssueFrame
  intro i tile slot s hp
  obtain ⟨body, he⟩ := exec_issueOp hp s
  refine ⟨fun hr t h => keeps_exec hp hr h, fun h => ?_, fun b hb hw => ?_, fun b hb hc => ?_⟩
  · rw [he, issueOp, h]; rfl
  · rw [he, issueOp, takeOp_of_next hb, if_neg hw]
    exact ite_self _
  · rw [he, issueOp, takeOp_of_next hb]
    by_cases hw : mapGet b.words slot 0 = slotWordOf i
    · rw [if_pos hw]
      simp only [hc, Bool.false_eq_true, if_false, ite_self]
    · rw [if_neg hw]
      exact ite_self _

end Sys2Proof.Machine

/-! # O36: the issue of a vector operation -/

namespace Sys2Proof.Machine

open Sys2Proof

section VectorIssue

theorem foldl_min_le (l : List Nat) (m : Nat) : l.foldl min m ≤ m := by
  induction l generalizing m with
  | nil => exact le_refl m
  | cons x l ih => exact (ih (min m x)).trans (min_le_left m x)

/-- Every row's instruction is a vector issue of its opcode. -/
theorem exec_vectorRow {r : (BitVec 8 → Bool → VOp → Instr) × Nat} (hr : r ∈ vectorRows) (tile : BitVec 8) (hi : Bool) (o : VOp)
    (s : State) : exec (r.1 tile hi o) s = vecOp (r.1 tile hi o) tile hi r.2 o s := by
  have h : vectorRows.Forall fun r => exec (r.1 tile hi o) s = vecOp (r.1 tile hi o) tile hi r.2 o s := by
    unfold vectorRows
    and_intros <;> rfl
  exact List.forall_iff_forall_mem.1 h r hr

/-- The operation that passes its checks: its operands as they stand, and nothing of it run yet. -/
theorem vecPlan_ok {s : State} {tile slot opc : Nat} {b : Bundle} {o : VOp} {v : VecOp} (h : vecPlan s tile b slot opc o = .ok v) :
    let c := coreGet s tile
    v.seq = b.seq ∧ v.slot = slot ∧ v.opc = opc ∧ v.op = o ∧ v.vd = readRegion c o.vd.toNat ∧
      (o.qa = false → v.va = readRegion c o.va.toNat) ∧ (o.qb = false → v.vb = readRegion c o.vb.toNat) ∧
      v.n = (if (vecRow opc).fromVa then v.va.count else v.vd.count) ∧ v.elem = 0 ∧ v.t0 = none ∧ v.w ≤ 256 := by
  unfold vecPlan at h
  extract_lets t c row pops ea eb scA scB tokens numA numB vd va vb mnum msk n dst srcs mask rates at h
  split at h
  · cases h
  · split at h
    · cases h
    · cases h
      refine ⟨rfl, rfl, rfl, rfl, rfl, fun hqa => ?_, fun hqb => ?_, rfl, rfl, rfl, foldl_min_le _ _⟩
      · have hnum : numA = o.va.toNat := by simp [numA, ea, hqa]
        exact congrArg (readRegion c) hnum
      · have hnum : numB = o.vb.toNat := by simp [numB, eb, hqb]
        exact congrArg (readRegion c) hnum

section GuardTrue

variable {s : State} {tile slot opc : Nat} {b : Bundle} {o : VOp} (hd : (tileGet s tile).dbg = false)
  (g : guardTrue s tile o.guard = true)
include hd g

/-- With its guard true a vector operation waits for room in the queue. -/
theorem vecRun_full (full : 4 ≤ (coreGet s tile).vec.length) : vecRun tile slot opc o s b = none := by
  simp only [vecRun, pendingTrap_normal hd, g, if_true, full]

/-- It enters the queue where its checks pass. -/
theorem vecRun_enters (room : (coreGet s tile).vec.length < 4) {v : VecOp} (h : vecPlan s tile b slot opc o = .ok v) :
    vecRun tile slot opc o s b = some (corePut s tile { coreGet s tile with vec := (coreGet s tile).vec ++ [v] }) := by
  simp only [vecRun, pendingTrap_normal hd, g, if_true, if_neg (Nat.not_le.2 room), h]

/-- It faults where they do not. -/
theorem vecRun_faults (room : (coreGet s tile).vec.length < 4) {x : Trap} (h : vecPlan s tile b slot opc o = .error x) :
    vecRun tile slot opc o s b = some (raiseAt s tile b.seq slot x) := by
  simp only [vecRun, pendingTrap_normal hd, g, if_true, if_neg (Nat.not_le.2 room), h]

end GuardTrue

/-- With its guard false it pushes vd's token. -/
theorem vecRun_off {s : State} {tile slot opc : Nat} {b : Bundle} {o : VOp} (hd : (tileGet s tile).dbg = false)
    (g : guardTrue s tile o.guard = false) :
    vecRun tile slot opc o s b = some (addFlight s tile b.seq slot 6
      ((slotQ b.pushes slot).map fun q => .entry q.1 q.2 (rvOf (o.vd.setWidth 64)))) := by
  simp only [vecRun, pendingTrap_normal hd, g, Bool.false_eq_true, if_false]

end VectorIssue

/-- Settles O36: the cases of the issue's body, and the fields of the operation that its checks let through. -/
theorem vectorIssue : Obligations.VectorIssue := by
  unfold Obligations.VectorIssue
  intro tile hi o s b r hr i c plan
  have he : exec i s = issueOp i tile.toNat (vSlot hi) s (vecRun tile.toNat (vSlot hi) r.2 o) := exec_vectorRow hr tile hi o s
  refine ⟨fun h => ⟨fun room v hv => ⟨?_, vecPlan_ok hv⟩, fun room x hx => ?_, fun full => ?_⟩, fun h g => ?_⟩
  · rw [he, issueOp_of_ready h.ready, vecRun_enters h.ready.normal h.guard room hv]
    rfl
  · rw [he, issueOp_of_ready h.ready, vecRun_faults h.ready.normal h.guard room hx]
    rfl
  · rw [he, issueOp_of_ready h.ready, vecRun_full h.ready.normal h.guard full]
  · rw [he, issueOp_of_ready h, vecRun_off h.normal g]
    rfl

end Sys2Proof.Machine

/-! # O23: an atomic on the own pool -/

namespace Sys2Proof.Machine

open Sys2Proof

section OwnPoolAtomics

/-- Every row's instruction is an access with the body of its opcode. -/
theorem exec_atomicRow {row : AtomicRow} (hr : row ∈ atomicRows) (tile : BitVec 8) (hi : Bool) (o : MOp) (s : State) :
    exec (row.op tile hi o) s =
      accessOp (row.op tile hi o) tile hi o true none (atomicBody row.opc row.two o) s := by
  have h : atomicRows.Forall fun row => exec (row.op tile hi o) s =
      accessOp (row.op tile hi o) tile hi o true none (atomicBody row.opc row.two o) s := by
    unfold atomicRows
    and_intros <;> rfl
  exact List.forall_iff_forall_mem.1 h row hr

/-- What an atomic stores is its row's new value, and afaddb succeeds exactly where it stores (08 R185, R186). -/
theorem atomicNew_row {row : AtomicRow} (hr : row ∈ atomicRows) (n old v x : Nat) :
    (atomicNew row.opc n old v x).1 = row.new n old v x ∧
      (row.opc = 0x04B → (atomicNew row.opc n old v x).2 = (row.new n old v x).isSome) := by
  have h : atomicRows.Forall fun row => (atomicNew row.opc n old v x).1 = row.new n old v x ∧
      (row.opc = 0x04B → (atomicNew row.opc n old v x).2 = (row.new n old v x).isSome) := by
    unfold atomicRows
    refine ⟨⟨rfl, nofun⟩, ⟨rfl, nofun⟩, ⟨rfl, nofun⟩, ⟨rfl, nofun⟩, ⟨rfl, nofun⟩, ⟨rfl, nofun⟩, ⟨rfl, nofun⟩, ⟨rfl, nofun⟩,
      ⟨rfl, nofun⟩, ⟨rfl, nofun⟩, ⟨rfl, nofun⟩, ?_, ⟨rfl, nofun⟩, ⟨rfl, nofun⟩⟩
    by_cases fits : old ≤ x ∧ v ≤ x - old <;> simp [atomicNew, fits]
  exact List.forall_iff_forall_mem.1 h row hr

theorem toInt_ofNat_word {w : Nat} (hw : w = 32 ∨ w = 64) (n : Nat) : (BitVec.ofNat w n).toInt = signedNat w n := by
  obtain rfl | rfl := hw <;> simp [BitVec.toInt_eq_toNat_cond, signedNat] <;> omega

/-- A word's old value as an atomic returns it (08 R185). -/
theorem atomicRet_old (r : AtomicRow) {n : Nat} (hn : n = 4 ∨ n = 8) (old : Nat) : atomicRet r.opc n old = oldReturned r n old := by
  unfold atomicRet oldReturned
  by_cases hs : r.opc = 0x044 ∨ r.opc = 0x045
  · obtain rfl | rfl := hn
    · simp [hs, BitVec.signExtend, toInt_ofNat_word (.inl rfl)]
    · simp [hs, ← toInt_ofNat_word (w := 64) (.inr rfl)]
  · simp [hs]

/-- The latch results of an atomic, as its row gives them. -/
theorem atomicEffs_row {row : AtomicRow} (hr : row ∈ atomicRows) (slot : Nat) {n : Nat} (hn : n = 4 ∨ n = 8) (old v x : Nat) :
    atomicEffs slot row.opc (atomicRet row.opc n old) (atomicNew row.opc n old v x).2 =
      [.reg (latchKey slot 2) (rvOf (oldReturned row n old))] ++
        if row.opc = 0x04B then [.reg (latchKey slot 3) (rvOf (flagWord (row.new n old v x).isSome))] else [] := by
  rw [atomicRet_old row hn, atomicEffs]
  by_cases h : row.opc = 0x04B
  · rw [if_pos h, if_pos h, (atomicNew_row hr n old v x).2 h]
    rfl
  · rw [if_neg h, if_neg h]
    rfl

/-- A full address of the own pool (08 R174, R176). -/
theorem fullPlace_own {ea : Word} (h : ea.toNat = 2 ^ 63 + ea.toNat % 2 ^ 23) : fullPlace ea = .ownPool (ea.toNat % 2 ^ 23) := by
  have hk : natBits ea.toNat 62 2 = 2 := by unfold natBits; omega
  have hz : natBits ea.toNat 32 30 = 0 := by unfold natBits; omega
  have ho : natBits ea.toNat 0 32 = ea.toNat % 2 ^ 23 := by unfold natBits; omega
  simp only [fullPlace, hk, hz, ho, ne_eq, not_true_eq_false, if_false]
  exact poolPlace_own (by omega)

/-- The bytes that an atomic writes, if it does. -/
def atomicCells (off n : Nat) : Option Nat → List Eff
  | some y => [.cells (cellsOf off n y)]
  | none => []

variable {s s1 : State} {tile slot opc : Nat} {two : Bool} {o : MOp} {b : Bundle} {v : MVals}

/-- The state in which an atomic of the own pool adds its result: its access is checked, and its effects are in its bundle. -/
def atomicStaged (s1 : State) (tile slot : Nat) (b : Bundle) (o : MOp) (off n : Nat) (wr : Bool) : State :=
  addAct (addAct (ownSync (servePort s1 tile off false) tile off n o) tile b.seq slot (.atomic off n)) tile b.seq slot
    (.sync (locPool tile off) o.order (effScope o .tile) wr)

theorem keeps_atomicStaged {off n : Nat} {wr : Bool} (h : checkOwn s tile b.seq off n true false = .ok s1) :
    IssueKeeps tile s (atomicStaged s1 tile slot b o off n wr) :=
  keeps_trans (keeps_checkOwn h) (keeps_trans (keeps_servePort ..) (keeps_trans (keeps_ownSync ..)
    (keeps_trans (keeps_addAct ..) (keeps_addAct ..))))

/-- An atomic that its own pool serves (08 R185 to R188). -/
theorem atomicBody_own {ea : Word} (hea : (if two then effAddr2 v.base o else effAddr v.base v.index o) = ea)
    (hdbg : (tileGet s tile).dbg = false) (hrel : relWaits (coreGet s tile) b.seq o.order = false)
    (hatom : atomWaits b slot opc = false) (hown : ea.toNat = 2 ^ 63 + ea.toNat % 2 ^ 23)
    (hal : ea.toNat % sizeBytes o.size = 0) (hin : ea.toNat % 2 ^ 23 + sizeBytes o.size ≤ scratchSize (tileGet s tile))
    (hport : portOpen s tile slot (ea.toNat % 2 ^ 23) false = true)
    (hcode : poolReadTrap s tile (ea.toNat % 2 ^ 23) (sizeBytes o.size) = none)
    (hc : checkOwn s tile b.seq (ea.toNat % 2 ^ 23) (sizeBytes o.size) true false = .ok s1) :
    let n := sizeBytes o.size
    let off := ea.toNat % 2 ^ 23
    let old := leNat ((List.range n).map fun i => heldByte (tileGet s tile) (off + i))
    let r := atomicNew opc n old (v.data.v.toNat % 2 ^ (8 * n)) (if two then v.index.toNat % 2 ^ (8 * n) else 0)
    atomicBody opc two o tile slot s b v = .ok (some (addRead (atomicStaged s1 tile slot b o off n r.1.isSome) tile b.seq slot 6
      (atomicEffs slot opc (atomicRet opc n old) r.2 ++ atomicCells off n r.1)
      (ordAcq o.order) true)) := by
  simp only [atomicBody, hea, fullPlace_own hown, hal, hrel, hatom, pastScratch, Nat.not_lt.2 hin, hport,
    pendingOwn_normal hdbg, hcode, hc, Option.or_none, decide_false, Bool.false_eq_true, if_false, Bool.or_false, Bool.not_true,
    ne_eq, not_true_eq_false]
  rfl

/-- The result under way after the issue of an operation that reads. -/
theorem lastFlight_addRead (s : State) (tile slot l : Nat) (b : Bundle) (effs : List Eff) (acq atom : Bool) :
    lastFlight (slotDone (addRead s tile b.seq slot l effs acq atom) tile slot b) tile =
      some ⟨b.seq, slot, (coreGet s tile).ticks + l - 1, effs, none, true, acq, atom⟩ := by
  simp [lastFlight, slotDone, markIssued, bundleMap, addRead]

end OwnPoolAtomics

/-- Settles O23: the served atomic's issue, with its row's old and new value. -/
theorem ownPoolAtomics : Obligations.OwnPoolAtomics := by
  unfold Obligations.OwnPoolAtomics
  intro row hr tile hi o s b s1 h hrel hatom n ea off v x old hsize hown hal hin hport hcode hc
  have hn : n = 4 ∨ n = 8 := by
    obtain hw | ⟨hd, -⟩ := hsize
    · exact .inl (by simp only [n, hw]; rfl)
    · exact .inr (by simp only [n, hd]; rfl)
  have hea : (if row.two then effAddr2 (accessArgs s tile hi o true b).base o
      else effAddr (accessArgs s tile hi o true b).base (accessArgs s tile hi o true b).index o) = ea := rfl
  have hlow : ea.toNat = 2 ^ 63 + ea.toNat % 2 ^ 23 := hown
  have hbody := atomicBody_own (opc := row.opc) hea h.ready.normal hrel hatom hlow hal hin hport hcode hc
  have hstaged : IssueKeeps tile.toNat s (atomicStaged s1 tile.toNat (mSlot hi) b o off n
      (atomicNew row.opc n old v x).1.isSome) := keeps_atomicStaged hc
  refine ⟨_, (exec_atomicRow hr tile hi o s).trans (accessOp_ok h hbody), ?_, ?_⟩
  · exact keeps_trans ((keeps_atomicBody row.opc row.two o tile.toNat (mSlot hi) s b _).get _ hbody) (keeps_markIssued ..)
  · rw [lastFlight_addRead]
    have hticks : (coreGet (atomicStaged s1 tile.toNat (mSlot hi) b o off n (atomicNew row.opc n old v x).1.isSome)
      tile.toNat).ticks + 6 - 1 = (coreGet s tile.toNat).ticks + 5 := by rw [hstaged.ticks]; rfl
    have heffs := atomicEffs_row hr (mSlot hi) hn old v x
    have hnew := (atomicNew_row hr n old v x).1
    exact congrArg₂ (fun l e => some (Flight.mk b.seq (mSlot hi) l e none true (ordAcq o.order) true)) hticks
      (congrArg₂ (· ++ ·) heffs (congrArg (atomicCells off n) hnew))

end Sys2Proof.Machine

/-! # O42: results land at the end of their tick -/

namespace Sys2Proof.Machine

open Sys2Proof

section LandingEffects

variable {s : State} {tile : Nat}

/-- What an effect leaves in a register that held `x`. -/
def effReg (e : Eff) (key : Nat) (x : RV) : RV :=
  match e with
  | .reg k y => if k = key then y else x
  | .fp bits => if key = keyFpstat then rvOf (x.v ||| BitVec.ofNat 64 bits) else x
  | _ => x

theorem logReg_nil (key : Nat) (x : RV) : logReg [] key x = x := rfl

theorem logReg_cons (a : Landed) (l : List Landed) (key : Nat) (x : RV) :
    logReg (a :: l) key x = logReg l key (effReg a.eff key x) := by
  cases h : a.eff <;> simp [logReg, effReg, h]

theorem logReg_append_singleton (l : List Landed) (a : Landed) (key : Nat) (x : RV) :
    logReg (l ++ [a]) key x = effReg a.eff key (logReg l key x) := by
  induction l generalizing x with
  | nil => rw [List.nil_append, logReg_cons, logReg_nil, logReg_nil]
  | cons b l ih => rw [List.cons_append, logReg_cons, logReg_cons, ih]

/-- Two effects of which the later becomes committed: what is left of the earlier one, if anything, leaves the register as the
two did in their order (05 R105). -/
theorem effReg_shadowed (e : Eff) (a : Landed) (key : Nat) (x : RV) :
    ((shadowed e a).map fun b => effReg b.eff key (effReg e key x)).getD (effReg e key x) =
      effReg e key (effReg a.eff key x) := by
  obtain ⟨seq, slot, f⟩ := a
  cases e with
  | reg k y =>
    cases f with
    | reg j z =>
      by_cases hjk : j = k <;> by_cases hk : k = key <;> simp_all [shadowed, effReg]
    | fp bits =>
      by_cases hf : k = keyFpstat <;> by_cases hk : k = key <;> simp_all [shadowed, effReg]
      exact fun h => absurd h.symm hk
    | _ => simp [shadowed, effReg]
  | fp bits =>
    cases f with
    | reg j z =>
      by_cases hf : j = keyFpstat <;> by_cases hk : j = key <;> simp_all [shadowed, effReg, eq_comm]
    | fp bits' =>
      by_cases hf : key = keyFpstat
      · simp only [shadowed, effReg, hf, if_true, Option.map_some, Option.getD_some]
        exact congrArg rvOf (by
          show x.v ||| BitVec.ofNat 64 bits ||| BitVec.ofNat 64 bits' = x.v ||| BitVec.ofNat 64 bits' ||| BitVec.ofNat 64 bits
          rw [BitVec.or_assoc, BitVec.or_comm (BitVec.ofNat 64 bits), ← BitVec.or_assoc])
      · simp [shadowed, effReg, hf]
    | _ => simp [shadowed, effReg]
  | cells cs =>
    cases f <;> simp only [shadowed] <;> repeat' split
    all_goals simp [effReg]
  | nib b hi v =>
    cases f <;> simp only [shadowed] <;> repeat' split
    all_goals simp [effReg]
  | _ => cases f <;> simp [shadowed, effReg]

/-- Committing a later effect, with the staged ones that it shadows cut back, leaves every register as it read (05 R103, R105). -/
theorem logReg_shadowed (e : Eff) (l : List Landed) (key : Nat) (x : RV) :
    logReg (l.filterMap (shadowed e)) key (effReg e key x) = effReg e key (logReg l key x) := by
  induction l generalizing x with
  | nil => rfl
  | cons a l ih =>
    rw [logReg_cons, List.filterMap_cons, ← ih, ← effReg_shadowed]
    cases shadowed e a with
    | none => rfl
    | some b => exact logReg_cons ..

/-- The committed registers after a committed effect. -/
theorem mapGet_baseApply (t : Tile) (e : Eff) (key : Nat) :
    mapGet (baseApply t e).core.regs key (regDefault key) = effReg e key (mapGet t.core.regs key (regDefault key)) := by
  cases e with
  | reg k y => by_cases hk : k = key <;> simp [baseApply, effReg, hk]
  | fp bits =>
    by_cases hk : key = keyFpstat
    · subst hk
      simp only [baseApply, effReg, mapGet_mapPut_same, if_true]
      rfl
    · simp [baseApply, effReg, hk, Ne.symm hk]
  | _ => rfl

@[simp] theorem baseApply_log (t : Tile) (e : Eff) : (baseApply t e).core.log = t.core.log := by cases e <;> rfl
@[simp] theorem baseApply_flights (t : Tile) (e : Eff) : (baseApply t e).core.flights = t.core.flights := by cases e <;> rfl
@[simp] theorem baseApply_window (t : Tile) (e : Eff) : (baseApply t e).core.window = t.core.window := by cases e <;> rfl

@[simp] theorem poolClean_mem (s : State) (tile off n : Nat) : (poolClean s tile off n).mem = s.mem := by
  unfold poolClean
  split <;> rfl

theorem foldl_poolClean_frame (tile : Nat) (cs : List Host.Cell) (s : State) (k : Nat) :
    tileGet (cs.foldl (fun s c => poolClean s tile c.1 1) s) k = tileGet s k ∧
      (cs.foldl (fun s c => poolClean s tile c.1 1) s).mem = s.mem := by
  induction cs generalizing s with
  | nil => exact ⟨rfl, rfl⟩
  | cons c cs ih => simpa using ih (poolClean s tile c.1 1)

/-- Re-encoding codewords changes no tile and no byte of memory. -/
theorem effClean_frame (s : State) (tile : Nat) (e : Eff) (k : Nat) :
    tileGet (effClean s tile e) k = tileGet s k ∧ (effClean s tile e).mem = s.mem := by
  cases e with
  | cells cs =>
    simp only [effClean]
    split
    · exact ⟨rfl, rfl⟩
    · exact foldl_poolClean_frame ..
  | nib a hi v => exact ⟨tileGet_poolClean .., poolClean_mem ..⟩
  | _ => exact ⟨rfl, rfl⟩

/-- A register as it reads after an effect that has landed (05 R103, R105). -/
theorem regRd_landEff (seq slot : Nat) (e : Eff) (key : Nat) :
    regRd (coreGet (landEff tile seq slot s e) tile) key = effReg e key (regRd (coreGet s tile) key) := by
  have staged : regRd { coreGet s tile with log := (coreGet s tile).log ++ [⟨seq, slot, e⟩] } key =
      effReg e key (regRd (coreGet s tile) key) := logReg_append_singleton ..
  have committed : regRd { (baseApply (tileGet s tile) e).core with
      log := (baseApply (tileGet s tile) e).core.log.filterMap (shadowed e) } key = effReg e key (regRd (coreGet s tile) key) := by
    simp only [regRd, mapGet_baseApply, baseApply_log, logReg_shadowed]
    rfl
  cases e with
  | entry q i x => simp [landEff, landEntry, effReg, regRd, coreGet]
  | entryLatch q i k => simp [landEff, landEntry, effReg, regRd, coreGet]
  | _ =>
    simp only [landEff]
    split
    · simpa [coreGet, effClean_frame] using committed
    · simpa [coreGet] using staged

theorem landEff_flights (seq slot : Nat) (e : Eff) :
    (coreGet (landEff tile seq slot s e) tile).flights = (coreGet s tile).flights := by
  cases e with
  | entry q i x => simp [landEff, landEntry, coreGet]
  | entryLatch q i k => simp [landEff, landEntry, coreGet]
  | _ =>
    simp only [landEff]
    split <;> simp [coreGet, effClean_frame]

theorem foldl_landEff_flights (seq slot : Nat) (l : List Eff) (s : State) :
    (coreGet (l.foldl (landEff tile seq slot) s) tile).flights = (coreGet s tile).flights := by
  induction l generalizing s with
  | nil => rfl
  | cons e l ih => exact (ih _).trans (landEff_flights ..)

theorem landTrap_flights (seq slot : Nat) (x : Trap) :
    (coreGet (landTrap s tile seq slot x) tile).flights = (coreGet s tile).flights := by
  simp only [landTrap]
  split
  · simp
  · simp [raiseAt, bundleMap]

/-- The state in which a result is no longer under way. -/
def flightGone (s : State) (tile : Nat) (f : Flight) : State :=
  corePut s tile { coreGet s tile with flights := (coreGet s tile).flights.filter fun x => decide (x ≠ f) }

theorem flightGone_flights (s : State) (tile : Nat) (f : Flight) :
    (coreGet (flightGone s tile f) tile).flights = (coreGet s tile).flights.filter fun x => decide (x ≠ f) := by
  simp [flightGone]

theorem landFlight_computed {f : Flight} (h : f.req = none) :
    landFlight tile s f = f.effs.foldl (landEff tile f.seq f.slot) (flightGone s tile f) := by
  unfold landFlight
  simp only [h]
  rfl

/-- A landing takes one result off the list of those under way, or leaves a reply that has not come. -/
theorem landFlight_flights (s : State) (f : Flight) :
    (coreGet (landFlight tile s f) tile).flights = (coreGet s tile).flights ∧ f.req ≠ none ∨
      (coreGet (landFlight tile s f) tile).flights = (coreGet s tile).flights.filter fun x => decide (x ≠ f) := by
  cases hreq : f.req with
  | none =>
    rw [landFlight_computed hreq, foldl_landEff_flights, flightGone_flights]
    exact .inr rfl
  | some id =>
    simp only [landFlight, hreq]
    split
    · exact .inr (flightGone_flights ..)
    · split
      · split
        · exact .inr (by simp [reqMap])
        · split
          · exact .inr ((foldl_landEff_flights ..).trans (flightGone_flights ..))
          · exact .inr ((landTrap_flights ..).trans (flightGone_flights ..))
      · exact .inl ⟨rfl, nofun⟩

/-- A list of results lands: nothing is added to those under way, what is not of the list stays, and what has been computed goes. -/
theorem foldl_landFlight_flights (l : List Flight) (s : State) :
    (∀ f ∈ (coreGet (l.foldl (landFlight tile) s) tile).flights, f ∈ (coreGet s tile).flights) ∧
    (∀ f ∈ (coreGet s tile).flights, f ∉ l → f ∈ (coreGet (l.foldl (landFlight tile) s) tile).flights) ∧
    ∀ f ∈ l, f.req = none → f ∉ (coreGet (l.foldl (landFlight tile) s) tile).flights := by
  induction l generalizing s with
  | nil => exact ⟨fun f h => h, fun f h _ => h, fun f h => by cases h⟩
  | cons g l ih =>
    obtain ⟨sub, stay, gone⟩ := ih (landFlight tile s g)
    have sub' : ∀ f ∈ (coreGet (landFlight tile s g) tile).flights, f ∈ (coreGet s tile).flights := fun f hf => by
      obtain ⟨h, -⟩ | h := landFlight_flights (tile := tile) s g
      · exact h ▸ hf
      · exact (List.mem_filter.1 (h ▸ hf)).1
    refine ⟨fun f hf => sub' f (sub f hf), fun f hf hl => stay f ?_ (List.not_mem_of_not_mem_cons hl), fun f hf hreq => ?_⟩
    · obtain ⟨h, -⟩ | h := landFlight_flights (tile := tile) s g
      · exact h.symm ▸ hf
      · exact h.symm ▸ List.mem_filter.2 ⟨hf, by simpa using (List.ne_of_not_mem_cons hl)⟩
    · by_cases hfl : f ∈ l
      · exact gone f hfl hreq
      · obtain rfl : f = g := (List.mem_cons.1 hf).resolve_right hfl
        intro h
        obtain ⟨-, hne⟩ | h' := landFlight_flights (tile := tile) s f
        · exact hne hreq
        · have := List.mem_filter.1 (h' ▸ sub f h)
          simp at this

end LandingEffects

section Landing

/-- The result lands in the tick in progress. -/
def landsNow (c : Core) (f : Flight) : Bool := decide (f.land ≤ c.ticks)

/-- The sticky flags that land in the tick in progress, which come last (06 R138). -/
def flagsNow (c : Core) : List (Nat × Nat × Eff) :=
  (c.flights.filter (landsNow c)).flatMap fun f => (f.effs.filter effIsFp).map fun e => (f.seq, f.slot, e)

/-- A result that lands in the tick in progress, with its sticky flags taken out. -/
def dryFlight (c : Core) (f : Flight) : Flight :=
  if landsNow c f then { f with effs := f.effs.filter fun e => !effIsFp e } else f

/-- The state with those flags taken out of their results. -/
def flagsApart (s : State) (tile : Nat) : State :=
  if (flagsNow (coreGet s tile)).isEmpty then s
  else corePut s tile { coreGet s tile with flights := (coreGet s tile).flights.map (dryFlight (coreGet s tile)) }

/-- The results that land in the tick in progress, by slot and then by age. -/
def landOrder (s : State) (tile : Nat) : List Flight :=
  (List.range 6).flatMap fun k =>
    ((coreGet (flagsApart s tile) tile).flights.filter (landsNow (coreGet s tile))).filter fun f => decide (f.slot = k)

/-- The tick in progress has landed its results. -/
def landEnd (s : State) (tile ticks : Nat) : State :=
  let c := reqTidy (coreGet s tile)
  corePut s tile { c with stage := .landed,
                          vec := c.vec.filter fun v => !(decide (v.n ≤ v.elem) && v.t0.isSome && decide (v.last ≤ ticks)) }

variable {s : State} {tile : Nat}

theorem landing_open (h : landOpen s tile = true) :
    landing tile s = landEnd ((flagsNow (coreGet s tile)).foldl (fun s x => landEff tile x.1 x.2.1 s x.2.2)
      ((landOrder s tile).foldl (landFlight tile) (flagsApart s tile))) tile (coreGet s tile).ticks := by
  rw [landing, if_pos h]
  rfl

theorem foldl_flags_flights (l : List (Nat × Nat × Eff)) (s : State) :
    (coreGet (l.foldl (fun s x => landEff tile x.1 x.2.1 s x.2.2) s) tile).flights = (coreGet s tile).flights := by
  induction l generalizing s with
  | nil => rfl
  | cons x l ih => exact (ih _).trans (landEff_flights ..)

theorem mem_landOrder {f : Flight} (h : f ∈ landOrder s tile) : f.land ≤ (coreGet s tile).ticks := by
  obtain ⟨k, -, hf⟩ := List.mem_flatMap.1 h
  simpa [landsNow] using (List.mem_filter.1 (List.mem_filter.1 hf).1).2

theorem mem_landOrder_of {f : Flight} (hf : f ∈ (coreGet (flagsApart s tile) tile).flights) (hs : f.slot < 6)
    (hl : f.land ≤ (coreGet s tile).ticks) : f ∈ landOrder s tile :=
  List.mem_flatMap.2 ⟨f.slot, List.mem_range.2 hs, List.mem_filter.2 ⟨List.mem_filter.2 ⟨hf, by simpa [landsNow] using hl⟩, by simp⟩⟩

/-- A result that is not due is the same when the flags of those that are have been taken out. -/
theorem mem_flagsApart {f : Flight} (hf : f ∈ (coreGet s tile).flights) (hl : (coreGet s tile).ticks < f.land) :
    f ∈ (coreGet (flagsApart s tile) tile).flights := by
  unfold flagsApart
  split
  · exact hf
  · rw [coreGet_corePut_same]
    exact List.mem_map.2 ⟨f, hf, by simp [dryFlight, landsNow, Nat.not_le.2 hl]⟩

theorem landEnd_core (s : State) (tile ticks : Nat) :
    (coreGet (landEnd s tile ticks) tile).flights = (coreGet s tile).flights ∧
      (coreGet (landEnd s tile ticks) tile).stage = .landed ∧
      (∀ key, regRd (coreGet (landEnd s tile ticks) tile) key = regRd (coreGet s tile) key) ∧
      (coreGet (landEnd s tile ticks) tile).regs = (coreGet s tile).regs ∧
      (coreGet (landEnd s tile ticks) tile).log = (coreGet s tile).log ∧
      (tileGet (landEnd s tile ticks) tile).pool = (tileGet s tile).pool ∧ (landEnd s tile ticks).mem = s.mem := by
  simp [landEnd, reqTidy, regRd]

/-- The results under way after the landing are those that the due ones leave. -/
theorem landing_flights (h : landOpen s tile = true) :
    (coreGet (landing tile s) tile).flights =
      (coreGet ((landOrder s tile).foldl (landFlight tile) (flagsApart s tile)) tile).flights := by
  rw [landing_open h]
  exact (landEnd_core ..).1.trans (foldl_flags_flights ..)

/-- A computed result that writes one register. -/
def regFlight (seq slot land k : Nat) (x : RV) : Flight := ⟨seq, slot, land, [.reg k x], none, false, false, false⟩

variable {seq slot land k : Nat} {x : RV}

/-- A register result that lands: committed at once where its bundle has committed, else staged. -/
theorem landEff_reg (s : State) (tile seq slot k : Nat) (x : RV) :
    (isCommitted (coreGet s tile) seq = true → mapGet (coreGet (landEff tile seq slot s (.reg k x)) tile).regs k (rvOf 0) = x) ∧
    (isCommitted (coreGet s tile) seq = false →
      (coreGet (landEff tile seq slot s (.reg k x)) tile).regs = (coreGet s tile).regs ∧
      (coreGet (landEff tile seq slot s (.reg k x)) tile).log = (coreGet s tile).log ++ [⟨seq, slot, .reg k x⟩]) ∧
    (tileGet (landEff tile seq slot s (.reg k x)) tile).pool = (tileGet s tile).pool ∧
    (landEff tile seq slot s (.reg k x)).mem = s.mem := by
  cases hc : isCommitted (coreGet s tile) seq with
  | true =>
    have he : landEff tile seq slot s (.reg k x) = tilePut s tile { tileGet s tile with core := { coreGet s tile with
        regs := mapPut (coreGet s tile).regs k x, log := (coreGet s tile).log.filterMap (shadowed (.reg k x)) } } :=
      if_pos hc
    rw [he]
    simp [coreGet]
  | false =>
    have he : landEff tile seq slot s (.reg k x) =
        corePut s tile { coreGet s tile with log := (coreGet s tile).log ++ [⟨seq, slot, .reg k x⟩] } :=
      if_neg (Bool.eq_false_iff.1 hc)
    rw [he]
    simp

/-- A tick with one result under way, which writes one register and is due, lands that result alone. -/
theorem landing_single (h : landOpen s tile = true) (hs : slot < 6) (hl : land ≤ (coreGet s tile).ticks)
    (hf : (coreGet s tile).flights = [regFlight seq slot land k x]) :
    landing tile s = landEnd (landEff tile seq slot (flightGone s tile (regFlight seq slot land k x))
      (.reg k x)) tile (coreGet s tile).ticks := by
  have hnow : landsNow (coreGet s tile) (regFlight seq slot land k x) = true := decide_eq_true hl
  have hflags : flagsNow (coreGet s tile) = [] := by simp [flagsNow, hf, effIsFp, regFlight]
  have hapart : flagsApart s tile = s := by simp [flagsApart, hflags]
  have horder : landOrder s tile = [regFlight seq slot land k x] := by
    simp only [landOrder, hapart, hf, List.filter_cons, hnow, if_true, List.filter_nil]
    interval_cases slot <;> rfl
  rw [landing_open h, hflags, hapart, horder]
  rfl

end Landing

/-- Settles O42: what lands goes off the list of results under way, and its register reads as written, committed or staged. -/
theorem landingIsVisible : Obligations.LandingIsVisible := by
  unfold Obligations.LandingIsVisible
  intro tile s h n c
  obtain ⟨sub, stay, gone⟩ := foldl_landFlight_flights (tile := n) (landOrder s n) (flagsApart s n)
  refine ⟨landing n s, rfl, ?_, fun f hf hl => ?_, fun f hf hreq hs hl => ?_, fun seq slot land k x hs hl hf => ?_⟩
  · rw [landing_open h]
    exact (landEnd_core ..).2.1
  · rw [landing_flights h]
    exact stay f (mem_flagsApart hf hl) fun hm => absurd (mem_landOrder hm) (Nat.not_le.2 hl)
  · rw [landing_flights h]
    exact fun hm => gone f (mem_landOrder_of (sub f hm) hs hl) hreq hm
  · obtain ⟨-, -, hrd, hregs, hlog, hpool, hmem⟩ := landEnd_core
      (landEff n seq slot (flightGone s n (regFlight seq slot land k x)) (.reg k x)) n c.ticks
    obtain ⟨hcommitted, hstaged, hpool', hmem'⟩ := landEff_reg (flightGone s n (regFlight seq slot land k x)) n seq slot k x
    have hgone : coreGet (flightGone s n (regFlight seq slot land k x)) n =
        { c with flights := c.flights.filter fun y => decide (y ≠ regFlight seq slot land k x) } := coreGet_corePut_same ..
    rw [landing_single h hs hl hf, hregs, hlog, hpool, hmem, hpool', hmem']
    rw [hgone] at hcommitted hstaged
    refine ⟨?_, hcommitted, hstaged, fun j hj => ?_, by simp [flightGone], rfl⟩
    · rw [hrd, regRd_landEff]
      exact if_pos rfl
    · rw [hrd, regRd_landEff, hgone]
      exact if_neg (Ne.symm hj)

end Sys2Proof.Machine

/-! # O44: freezes, replays, stretched cycles, and the ends of holds and of back-offs -/

namespace Sys2Proof.Machine

open Sys2Proof

section PipelineEvents

variable {s : State} {tile : Nat}

/-- Counting in a register touches no byte of memory. -/
theorem ite_noteCount_mem (p : Prop) [Decidable p] (s : State) (reg n : Nat) :
    (if p then noteCount s reg n else s).mem = s.mem := by
  split <;> rfl

/-- Counting in a register touches no tile. -/
theorem tileGet_ite_noteCount (p : Prop) [Decidable p] (s : State) (reg n k : Nat) :
    tileGet (if p then noteCount s reg n else s) k = tileGet s k := by
  split <;> rfl

/-- An alarm of a tile counts in its governor alone, and unpins it (19 R424, R441). -/
theorem govAlarm_frame (s : State) (tile : Nat) :
    tileGet (govAlarm s tile) tile = { tileGet s tile with gov := { (tileGet s tile).gov with
      alarms := min 65535 ((tileGet s tile).gov.alarms + 1), restore := (tileGet s tile).gov.restore + 1,
      ctl := (tileGet s tile).gov.ctl &&& ~~~0x10000#64 } } ∧ (govAlarm s tile).mem = s.mem := by
  simp [govAlarm, govCount, ite_noteCount_mem]

theorem freezeBegin_open {a : Word} (h : trapOpen s tile = true) (hr : (tileGet s tile).core.replay = none)
    (ha : freezeCause (tileGet s tile).core = some a) :
    freezeBegin tile s =
      tilePut s tile { tileGet s tile with core := { (tileGet s tile).core with frozen := some ⟨a, timeOf s, 0⟩ } } := by
  simp [freezeBegin, h, hr, ha]

/-- The governor of a tile after the first flag of a replay, which is counted once (05 R117; 19 R424). -/
def flaggedGov (s : State) (tile flags : Nat) : Governor :=
  let g := (tileGet s tile).gov
  if flags = 1 then dayCount s.point 0 1 { g with replays := min (2 ^ 32 - 1) (g.replays + 1), wReplays := g.wReplays + 1 } else g

/-- The tile after a flag. -/
def flaggedTile (s : State) (tile flags : Nat) : Tile :=
  let t := tileGet s tile
  { t with core := { t.core with replay := some ⟨9, flags⟩, ticked := false }, gov := flaggedGov s tile flags }

/-- What a flag does, with `s1` the state in which the replay has been noted. -/
theorem lateFlag_open {flags : Nat} (h : flagOpen s tile = true)
    (hf : (match (tileGet s tile).core.replay with | some r => r.flags | none => 0) + 1 = flags) :
    ∃ s1, tileGet s1 tile = flaggedTile s tile flags ∧ s1.mem = s.mem ∧
      lateFlag tile s = if flags = 4 then govAlarm s1 tile else s1 := by
  subst hf
  simp only [lateFlag, h, if_true]
  exact ⟨_, tileGet_tilePut_same .., ite_noteCount_mem .., rfl⟩

theorem flaggedGov_counts (s : State) (tile flags : Nat) :
    (flaggedGov s tile flags).wReplays = (if flags = 1 then (tileGet s tile).gov.wReplays + 1 else (tileGet s tile).gov.wReplays) ∧
    (flaggedGov s tile flags).replays =
      (if flags = 1 then min (2 ^ 32 - 1) ((tileGet s tile).gov.replays + 1) else (tileGet s tile).gov.replays) ∧
    (flaggedGov s tile flags).alarms = (tileGet s tile).gov.alarms := by
  by_cases h : flags = 1 <;> simp [flaggedGov, h, dayCount]

theorem clockStretch_open (hf : (tileGet s tile).core.frozen = none) (hc : s.clockStop = false)
    (hs : (tileGet s tile).core.stretch = 0) :
    clockStretch tile s = tilePut s tile { tileGet s tile with core := { (tileGet s tile).core with stretch := 1 } } := by
  simp [clockStretch, hf, hc, hs]

theorem holdEnd_pick (h : pickTurn s (holdTiles s) = some tile) :
    holdEnd s = corePut s tile { coreGet s tile with hold := 0 } := by
  simp only [holdEnd, h]

/-- The kwaits of a bundle. -/
def kwaitsOf (c : Core) (b : Bundle) : List Req := c.reqs.filter fun r => decide (r.seq = b.seq) && decide (r.kind = .kwait)

variable {b : Bundle} {l : List Bundle}

/-- The tile whose back-off has run out looks its reels up anew and tries its commit again (16 R366). -/
theorem pollAgain_ok {s1 : State} (h : pickTurn s (pollTiles s) = some tile) (hw : (coreGet s tile).window = b :: l)
    (hp : pollLooks tile s (kwaitsOf (coreGet s tile) b) = .ok s1) :
    pollAgain s = commitBundle true tile (corePut s1 tile (bundleMap (coreGet s1 tile) b.seq fun x => { x with poll := none })) := by
  unfold kwaitsOf at hp
  simp only [pollAgain, h, hw, hp]

/-- A reel that needs a walk asks for it. -/
theorem pollAgain_wait {a : Option (Nat × Nat × Nat)} (h : pickTurn s (pollTiles s) = some tile)
    (hw : (coreGet s tile).window = b :: l) (hp : pollLooks tile s (kwaitsOf (coreGet s tile) b) = .wait a) :
    pollAgain s = engAsk s a := by
  unfold kwaitsOf at hp
  simp only [pollAgain, h, hw, hp]

end PipelineEvents

/-- Settles O44: each event opened at its tile. -/
theorem pipelineEvents : Obligations.PipelineEvents := by
  unfold Obligations.PipelineEvents
  intro tile s n t flags same
  refine ⟨fun a h hr ha => ?_, fun h => ?_, fun hf hc hs => ?_, fun h => ?_, fun b l h hw => ?_⟩
  · exact ⟨_, congrArg Host.Outcome.next (freezeBegin_open h hr ha), by simp [coreGet, n], by simp [same, coreGet, t, n]⟩
  · obtain ⟨s1, ht, hm, he⟩ := lateFlag_open (flags := flags) h rfl
    obtain ⟨hw, hr, ha⟩ := flaggedGov_counts s n flags
    refine ⟨_, congrArg Host.Outcome.next he, ?_⟩
    by_cases h4 : flags = 4
    · have h1 : flags ≠ 1 := by omega
      obtain ⟨hg, hgm⟩ := govAlarm_frame s1 n
      rw [if_pos h4, if_pos h4]
      refine ⟨?_, ?_, ?_, ?_, ?_⟩
      · simp [coreGet, hg, ht, flaggedTile]
      · simpa [hg, ht, flaggedTile] using hw
      · simpa [hg, ht, flaggedTile] using hr
      · simp [hg, ht, flaggedTile, ha, t]
      · simp [same, coreGet, hg, hgm, ht, hm, flaggedTile, t]
    · rw [if_neg h4, if_neg h4]
      exact ⟨by simp [coreGet, ht, flaggedTile], by rw [ht]; exact hw, by rw [ht]; exact hr, by rw [ht]; exact ha,
        by simp [same, coreGet, ht, hm, flaggedTile, t]⟩
  · exact ⟨_, congrArg Host.Outcome.next (clockStretch_open hf hc hs), by simp [coreGet, n], by simp [same, coreGet, t, n]⟩
  · exact ⟨_, congrArg Host.Outcome.next (holdEnd_pick h), by simp [n], by simp [same, coreGet, t, n]⟩
  · exact ⟨fun s1 h1 => congrArg Host.Outcome.next (pollAgain_ok h hw h1),
      fun a ha => congrArg Host.Outcome.next (pollAgain_wait h hw ha)⟩

end Sys2Proof.Machine

/-! # O47: requests are performed at their locations and answered -/

namespace Sys2Proof.Machine

open Sys2Proof

/-! ## What synchronisation, touches and caches leave alone -/

section SameBytes

/-- No tile and no byte of device or host memory differs. -/
structure SameBytes (s u : State) : Prop where
  tiles : u.tiles = s.tiles
  mem : u.mem = s.mem
  host0 : u.hostMem0 = s.hostMem0
  host1 : u.hostMem1 = s.hostMem1

variable {s u v : State}

theorem SameBytes.refl (s : State) : SameBytes s s := ⟨rfl, rfl, rfl, rfl⟩

theorem SameBytes.trans (h : SameBytes s u) (k : SameBytes u v) : SameBytes s v :=
  ⟨k.tiles.trans h.tiles, k.mem.trans h.mem, k.host0.trans h.host0, k.host1.trans h.host1⟩

theorem SameBytes.ite {p : Prop} [Decidable p] (h : SameBytes s u) (k : SameBytes s v) : SameBytes s (if p then u else v) := by
  split
  · exact h
  · exact k

theorem SameBytes.foldl {α : Type} {f : State → α → State} (hf : ∀ s x, SameBytes s (f s x)) (l : List α) (s : State) :
    SameBytes s (l.foldl f s) :=
  foldl_keeps (p := SameBytes s) (.refl s) fun u x hu => hu.trans (hf u x)

theorem SameBytes.poolBytes (h : SameBytes s u) (t off n : Nat) : poolBytes u t off n = Machine.poolBytes s t off n := by
  rw [Machine.poolBytes, Machine.poolBytes, tileGet_of_tiles h.tiles]

theorem SameBytes.devNat (h : SameBytes s u) (pa n : Nat) : devNat u pa n = Machine.devNat s pa n := by
  have hb : ∀ a, devByte u a = devByte s a := fun a => by simp only [devByte, h.mem, h.host0, h.host1]
  simp only [Machine.devNat, devBytes, hb]

theorem touch_sameBytes (s : State) (asid bit : Nat) : SameBytes s (touch s asid bit) := by
  unfold touch
  exact .ite (.refl s) ⟨rfl, rfl, rfl, rfl⟩

theorem touchPa_sameBytes (s : State) (asid pa : Nat) : SameBytes s (touchPa s asid pa) := by
  unfold touchPa
  split
  · exact touch_sameBytes ..
  · exact .refl s

theorem relsJoin_sameBytes (s : State) (loc : Nat) (r : Option Rel) : SameBytes s (relsJoin s loc r) := by
  unfold relsJoin
  split
  · exact .refl s
  · exact ⟨rfl, rfl, rfl, rfl⟩

theorem relaxedRead_sameBytes (s : State) (a : Nat) (x : Agent) (loc : Nat) : SameBytes s (relaxedRead s a x loc) := by
  unfold relaxedRead
  split
  · exact .refl s
  · exact ⟨rfl, rfl, rfl, rfl⟩

theorem reqSync_sameBytes (s : State) (tile : Nat) (r : Req) (loc : Nat) (rd wr : Bool) :
    SameBytes s (reqSync s tile r loc rd wr) := by
  unfold reqSync
  extract_lets a u
  have hu : SameBytes s u := by
    refine .ite ?_ (.refl s)
    split
    · exact ⟨rfl, rfl, rfl, rfl⟩
    · exact ⟨rfl, rfl, rfl, rfl⟩
    · exact relaxedRead_sameBytes ..
  refine .ite (hu.trans ?_) hu
  split <;> exact relsJoin_sameBytes ..

theorem plainWrite_sameBytes (s : State) (l : List Nat) : SameBytes s (plainWrite s l) := by
  unfold plainWrite
  exact .ite (.refl s) ⟨rfl, rfl, rfl, rfl⟩

theorem storeSync_sameBytes (s : State) (tile : Nat) (r : Req) (locs : List Nat) : SameBytes s (storeSync s tile r locs) := by
  unfold storeSync
  refine .ite (plainWrite_sameBytes ..) (SameBytes.trans (.foldl (fun _ _ => reqSync_sameBytes ..) locs s) ⟨rfl, rfl, rfl, rfl⟩)

theorem wroteBack_sameBytes (s : State) (gs : List Nat) : SameBytes s (wroteBack s gs) := by
  unfold wroteBack
  exact .ite (.refl s) ⟨rfl, rfl, rfl, rfl⟩

theorem diePut_sameBytes (s : State) (n : Nat) (d : Die) : SameBytes s (diePut s n d) := ⟨rfl, rfl, rfl, rfl⟩

theorem cachePut_sameBytes (s : State) (die g : Nat) : SameBytes s (cachePut s die g) :=
  (diePut_sameBytes ..).trans (wroteBack_sameBytes ..)

theorem cacheFill_sameBytes (s : State) (die g : Nat) : SameBytes s (cacheFill s die g) := by
  unfold cacheFill
  exact .ite (.refl s) (cachePut_sameBytes ..)

theorem cacheDrop_sameBytes (s : State) (g : Nat) : SameBytes s (cacheDrop s g) := ⟨rfl, rfl, rfl, rfl⟩

theorem cacheDirty_sameBytes (s : State) (die g : Nat) : SameBytes s (cacheDirty s die g) := by
  unfold cacheDirty
  exact .ite (cacheDrop_sameBytes ..) ((cacheDrop_sameBytes ..).trans ((cachePut_sameBytes ..).trans (diePut_sameBytes ..)))

theorem devWrite_tiles (s : State) (pa : Nat) (bs : List Byte) : (devWrite s pa bs).tiles = s.tiles := by
  obtain ⟨mem, h0, h1, l, e, c, h⟩ := devWrite_memoryOnly s pa bs
  rw [h]

end SameBytes

/-! ## What a request finds and does at its location -/

section Serve

variable {s : State} {tile : Nat} {r : Req}

/-- The state that a load of another tile's pool leaves. -/
def poolLoaded (s : State) (tile : Nat) (r : Req) (t off : Nat) : State :=
  let u := touch s (tileAsid s tile) (dieOf t)
  if ordAcq r.order then (locsOf (locPool t) off (r.size * r.n)).foldl (fun s l => reqSync s tile r l true false) u else u

/-- The state in which a store to another tile's pool writes. -/
def poolSynced (s : State) (tile : Nat) (r : Req) (t off : Nat) : State :=
  storeSync (touch s (tileAsid s tile) (dieOf t)) tile r (locsOf (locPool t) off (r.size * r.n))

/-- The state that a load of memory leaves. -/
def memLoaded (s : State) (tile : Nat) (r : Req) : State :=
  let u := touchPa s (tileAsid s tile) r.pa
  let v := if leafCache r.leaf then cacheFill u (dieOf tile) (r.pa / 64) else u
  if ordAcq r.order || leafReel r.leaf then (locsOf locMem r.pa (r.size * r.n)).foldl (fun s l => reqSync s tile r l true false) v
  else v

/-- The state in which a store to memory writes. -/
def memSynced (s : State) (tile : Nat) (r : Req) : State :=
  let u := storeSync (touchPa s (tileAsid s tile) r.pa) tile r (locsOf locMem r.pa (r.size * r.n))
  if leafCache r.leaf then cacheDirty u (dieOf tile) (r.pa / 64) else cacheDrop u (r.pa / 64)

theorem poolLoaded_sameBytes (s : State) (tile : Nat) (r : Req) (t off : Nat) : SameBytes s (poolLoaded s tile r t off) :=
  .ite ((touch_sameBytes ..).trans (.foldl (fun _ _ => reqSync_sameBytes ..) _ _)) (touch_sameBytes ..)

theorem poolSynced_sameBytes (s : State) (tile : Nat) (r : Req) (t off : Nat) : SameBytes s (poolSynced s tile r t off) :=
  (touch_sameBytes ..).trans (storeSync_sameBytes ..)

theorem memLoaded_sameBytes (s : State) (tile : Nat) (r : Req) : SameBytes s (memLoaded s tile r) := by
  have hv := (touchPa_sameBytes s (tileAsid s tile) r.pa).trans
    (SameBytes.ite (p := leafCache r.leaf = true) (cacheFill_sameBytes _ (dieOf tile) (r.pa / 64)) (.refl _))
  exact .ite (hv.trans (.foldl (fun _ _ => reqSync_sameBytes ..) _ _)) hv

theorem memSynced_sameBytes (s : State) (tile : Nat) (r : Req) : SameBytes s (memSynced s tile r) := by
  have hu := (touchPa_sameBytes s (tileAsid s tile) r.pa).trans (storeSync_sameBytes _ tile r (locsOf locMem r.pa (r.size * r.n)))
  exact .ite (hu.trans (cacheDirty_sameBytes ..)) (hu.trans (cacheDrop_sameBytes ..))

/-- A load of another tile's pool reads its bytes (08 R180). -/
theorem servePool_load {t off : Nat} (hk : r.kind = .load)
    (ht : poolReadTrap (touch s (tileAsid s tile) (dieOf t)) t off (r.size * r.n) = none) :
    servePool s tile r t off = .ok (poolLoaded s tile r t off, leNat (poolBytes s t off (r.size * r.n)), true) := by
  rw [← (poolLoaded_sameBytes s tile r t off).poolBytes]
  simp only [servePool, hk, ht]
  rfl

/-- A store to another tile's pool writes its bytes there (08 R180). -/
theorem servePool_store {t off : Nat} (hk : r.kind = .store)
    (ht : poolWriteTrap (touch s (tileAsid s tile) (dieOf t)) t off (r.size * r.n) = none) :
    servePool s tile r t off = .ok (poolWrite (poolSynced s tile r t off) t off r.bytes, 0, true) := by
  simp only [servePool, hk, ht]
  rfl

/-- A load of memory reads its bytes (08 R180). -/
theorem serveMem_load (hk : r.kind = .load)
    (ht : memReadTrap (touchPa s (tileAsid s tile) r.pa) r.pa (r.size * r.n) = none) :
    serveMem s tile r = .ok (memLoaded s tile r, devNat s r.pa (r.size * r.n), true) := by
  rw [← (memLoaded_sameBytes s tile r).devNat]
  simp only [serveMem, hk, ht]
  rfl

/-- A store to memory writes its bytes there (08 R180). -/
theorem serveMem_store (hk : r.kind = .store)
    (ht : memWriteTrap (touchPa s (tileAsid s tile) r.pa) r.pa (r.size * r.n) = none) :
    serveMem s tile r = .ok (devWrite (memSynced s tile r) r.pa r.bytes, 0, true) := by
  simp only [serveMem, hk, ht]
  rfl

/-- The state in which an atomic on memory writes. -/
def memAtomed (s : State) (tile : Nat) (r : Req) (wr : Bool) : State :=
  reqSync (cacheDrop (touchPa s (tileAsid s tile) r.pa) (r.pa / 64)) tile r (locMem r.pa) true wr

theorem memAtomed_sameBytes (s : State) (tile : Nat) (r : Req) (wr : Bool) : SameBytes s (memAtomed s tile r wr) :=
  (touchPa_sameBytes ..).trans ((cacheDrop_sameBytes ..).trans (reqSync_sameBytes ..))

/-- An atomic on memory writes what it gives of the old value (08 R185, R187). -/
theorem serveMem_atomic (hk : r.kind = .atomic)
    (ht : memReadTrap (touchPa s (tileAsid s tile) r.pa) r.pa (r.size * r.n) = none) (hl : leafChk r.leaf = false) :
    let old := devNat s r.pa (r.size * r.n)
    let x := atomicNew r.opc r.size old r.data.toNat r.data2.toNat
    serveMem s tile r = .ok (x.1.elim (memAtomed s tile r x.1.isSome)
      (fun y => devWrite (memAtomed s tile r x.1.isSome) r.pa (leBytes (r.size * r.n) y)), old, x.2) := by
  have hold := (touchPa_sameBytes s (tileAsid s tile) r.pa).devNat r.pa (r.size * r.n)
  simp only [serveMem, hk, ht, hl, Bool.false_and, Bool.false_eq_true, if_false, serveAtomic, hold]
  cases (atomicNew r.opc r.size (devNat s r.pa (r.size * r.n)) r.data.toNat r.data2.toNat).1 <;> rfl

end Serve

/-! ## The events of requests -/

section Events

variable {s s1 : State} {tile : Nat} {r : Req}

/-- A request is performed after the stores that go with it, unless its bundle then meets another fault (05 R102; 08 R179). -/
theorem serveReq_performed {arrived : Bool} {s0 : State} {v : Nat} {ok : Bool}
    (h0 : serveStores tile s ((coreGet s tile).reqs.filter fun x => storeWith x r) = .ok s0)
    (h1 : serve s0 tile r = .ok (s1, v, ok)) :
    let s2 := reqServed (reqDemote s1 tile r) tile r v ok arrived
    let bad := if atReady r && !r.go then matesFaults s2 tile r else []
    serveReq s tile r arrived =
      if bad.isEmpty then s2 else bad.foldl (fun u y => raiseAt u tile r.seq y.1 y.2) s := by
  simp only [serveReq, h0, h1]
  split <;> simp_all

theorem serveReq_faults {arrived : Bool} {s0 : State} {x : Trap}
    (h0 : serveStores tile s ((coreGet s tile).reqs.filter fun x => storeWith x r) = .ok s0) (h1 : serve s0 tile r = .error x) :
    serveReq s tile r arrived = reqFault s tile r x := by
  simp only [serveReq, h0, h1]

/-- A request for a pool or a reel is performed, but for an atomic on a held word (08 R187, R188). -/
theorem remotePool_serves (h : pickTurn s (remoteReqs s) = some (tile, r))
    (hw : ∀ t off, fullPlace r.addr = .pool t off → r.kind = .atomic → wordHeld (tileGet s t) off r.size = false) :
    remotePool s = serveReq s tile r false := by
  cases hp : fullPlace r.addr with
  | pool t off =>
    have hn : ¬ (r.kind = .atomic ∧ wordHeld (tileGet s t) off r.size = true) := fun ⟨hk, hh⟩ => by
      simp [hw t off hp hk] at hh
    simp only [remotePool, h, hp, if_neg hn]
  | _ => simp only [remotePool, h, hp]

section Held

variable {t off : Nat} (h : pickTurn s (remoteReqs s) = some (tile, r)) (hp : fullPlace r.addr = .pool t off)
  (hk : r.kind = .atomic) (hw : wordHeld (tileGet s t) off r.size = true) (hg : r.go = false)
include h hp hk hw hg

/-- An atomic on a held word is accepted when its check passes, and waits (08 R188). -/
theorem remotePool_accepts (hc : checkSync s tile r (granPool t off) = .ok s1) :
    remotePool s = corePut s1 tile (reqMap (coreGet s1 tile) r.id fun y => { y with go := true }) := by
  simp only [remotePool, h, hp, hk, hw, hg, hc, and_self, if_true, Bool.false_eq_true, if_false]

theorem remotePool_conflicts {x : Trap} (hc : checkSync s tile r (granPool t off) = .error x) :
    remotePool s = reqFault s tile r x := by
  simp only [remotePool, h, hp, hk, hw, hg, hc, and_self, if_true, Bool.false_eq_true, if_false]

end Held

theorem nearAtomic_pick (h : pickTurn s (nearReqs s false) = some (tile, r)) : nearAtomic s = owedRun (serveReq s tile r false) := by
  simp only [nearAtomic, h]

theorem atomicBounce_hit {e : TlbEnt} (h : pickTurn s (nearReqs s true) = some (tile, r))
    (hx : xlate s tile (tileAsid s tile) r.addr.toNat = some e) :
    atomicBounce s = corePut s tile (reqMap (coreGet s tile) r.id fun y => reqXlated y e) := by
  simp only [atomicBounce, h, hx]

theorem atomicBounce_miss (h : pickTurn s (nearReqs s true) = some (tile, r))
    (hx : xlate s tile (tileAsid s tile) r.addr.toNat = none) :
    atomicBounce s =
      let u := askWalk s tile (tileAsid s tile) (r.addr.toNat / 65536)
      corePut u tile (reqMap (coreGet u tile) r.id fun y => { y with st := .walk }) := by
  simp only [atomicBounce, h, hx]

/-- What holds of every rewritten request holds of those of its number afterwards. -/
theorem of_mem_reqMap {p : Req → Prop} {c : Core} {id : Nat} {f : Req → Req} (hf : ∀ x, p (f x)) {y : Req}
    (hy : y ∈ (reqMap c id f).reqs) (hid : y.id = id) : p y := by
  obtain ⟨x, -, rfl⟩ := List.mem_map.1 hy
  by_cases hx : x.id = id
  · rw [if_pos hx]
    exact hf x
  · rw [if_neg hx] at hid
    exact absurd hid hx

theorem thaw_frame (s : State) (tile : Nat) : (coreGet (thaw s tile) tile).reqs = (coreGet s tile).reqs ∧ (thaw s tile).mem = s.mem := by
  unfold thaw
  dsimp only
  split
  · exact ⟨rfl, rfl⟩
  · split
    · exact ⟨rfl, rfl⟩
    · exact ⟨by simp [coreGet], rfl⟩

/-- The conflict check of a load or store at its location (17 R389, R390). -/
def conflictOut (s : State) (tile : Nat) (r : Req) : Except Trap State :=
  let pend := if isCommitted (coreGet s tile) r.seq then none else some (tile, r.seq)
  match fullPlace r.addr with
  | .pool t off => checkGran s (tileAgentId s tile) (reqAgent s tile r) (granPool t off) (decide (r.kind = .store))
      (decide (r.order = .rlx)) pend
  | _ => checkMem s (tileAgentId s tile) (reqAgent s tile r) r.leaf r.pa (decide (r.kind = .store)) (decide (r.order = .rlx)) pend

theorem conflictAnswer_ok (h : pickTurn s (checkReqs s) = some (tile, r)) (hc : conflictOut s tile r = .ok s1) :
    conflictAnswer s = thaw (corePut s1 tile (reqMap (coreGet s1 tile) r.id fun y => { y with check := false })) tile := by
  cases hp : fullPlace r.addr <;> simp only [conflictOut, hp] at hc <;> simp only [conflictAnswer, h, hp, hc]

theorem conflictAnswer_error {x : Trap} (h : pickTurn s (checkReqs s) = some (tile, r)) (hc : conflictOut s tile r = .error x) :
    conflictAnswer s = reqFault s tile r x := by
  cases hp : fullPlace r.addr <;> simp only [conflictOut, hp] at hc <;> simp only [conflictAnswer, h, hp, hc]

theorem replyArrival_sent {id : Nat} (h : ((coreGet s tile).reqs.find? fun r => decide (r.id % 2 ^ 16 = id)) = some r)
    (hs : r.st = .sent) :
    replyArrival tile id s = thaw (corePut s tile (reqMap (coreGet s tile) r.id fun y => { y with st := .done })) tile := by
  simp only [replyArrival, h, hs]

end Events

/-- Settles O47: each event at the request that it takes, and what a request does at its location. -/
theorem requestsAreServed : Obligations.RequestsAreServed := by
  unfold Obligations.RequestsAreServed
  intro s tile r n len mine moves
  have hmoves : ∀ i f, exec i s = .next (f (serveReq s n r false)) → moves i f := fun i f he s0 h0 => by
    refine ⟨fun s1 v ok h1 => ?_, fun x h1 => ?_⟩
    · rw [he, serveReq_performed h0 h1]
    · rw [he, serveReq_faults h0 h1]
  refine ⟨fun h => ⟨fun hw => ?_, fun t off hp hk hw hg => ?_⟩, fun h => ?_, fun h => ?_, fun h => ?_, fun id h hs => ?_,
    fun t off hp => ?_, fun va st hp hhome => ?_⟩
  case refine_1 => exact hmoves _ id (congrArg Host.Outcome.next (remotePool_serves h hw))
  case refine_2 =>
    exact ⟨fun s1 hc => congrArg Host.Outcome.next (remotePool_accepts h hp hk hw hg hc),
      fun x hc => congrArg Host.Outcome.next (remotePool_conflicts h hp hk hw hg hc)⟩
  case refine_3 => exact hmoves _ owedRun (congrArg Host.Outcome.next (nearAtomic_pick h))
  case refine_4 =>
    refine ⟨fun e hx => congrArg Host.Outcome.next (atomicBounce_hit h hx), fun hx => ?_⟩
    refine ⟨_, congrArg Host.Outcome.next (atomicBounce_miss h hx), (keeps_askWalk n s ..).mem, fun y hy hid => ?_⟩
    rw [coreGet_corePut_same] at hy
    exact of_mem_reqMap (p := fun y => y.st = .walk) (fun _ => rfl) hy hid
  case refine_5 =>
    intro me pend wr plain out
    refine ⟨fun s1 hc => ?_, fun x hc => congrArg Host.Outcome.next (conflictAnswer_error h hc)⟩
    refine ⟨_, congrArg Host.Outcome.next (conflictAnswer_ok h hc), fun y hy hid => ?_⟩
    rw [(thaw_frame ..).1, coreGet_corePut_same] at hy
    exact of_mem_reqMap (p := fun y => y.check = false) (fun _ => rfl) hy hid
  case refine_6 =>
    refine ⟨_, congrArg Host.Outcome.next (replyArrival_sent h hs), (thaw_frame ..).2, fun y hy hid => ?_⟩
    rw [(thaw_frame ..).1, coreGet_corePut_same] at hy
    exact of_mem_reqMap (p := fun y => y.st = .done) (fun _ => rfl) hy hid
  case refine_7 =>
    have hserve : serve s n r = servePool s n r t off := by simp only [serve, hp]
    refine ⟨fun hk ht => ?_, fun hk ht => ?_⟩
    · have hb := poolLoaded_sameBytes s n r t off
      exact ⟨_, hserve.trans (servePool_load hk ht), hb.tiles, hb.mem⟩
    · have hb := poolSynced_sameBytes s n r t off
      have htile := fun k => tileGet_of_tiles hb.tiles (n := k)
      refine ⟨_, hserve.trans (servePool_store hk ht), ?_, ?_, fun k hk => ?_⟩
      · rw [tileGet_poolWrite_same, htile]
      · exact (poolClean_mem ..).trans hb.mem
      · rw [tileGet_poolWrite_other hk, htile]
  case refine_8 =>
    have hserve : serve s n r = serveMem s n r := by simp only [serve, hp]
    refine ⟨fun hk ht => ?_, fun hk ht => ?_, fun hk ht hl => ?_⟩
    · have hb := memLoaded_sameBytes s n r
      exact ⟨_, hserve.trans (serveMem_load hk ht), hb.mem, hb.tiles⟩
    · have hb := memSynced_sameBytes s n r
      exact ⟨_, hserve.trans (serveMem_store hk ht), by rw [devWrite_mem hhome, hb.mem], (devWrite_tiles ..).trans hb.tiles⟩
    · refine ⟨_, hserve.trans (serveMem_atomic hk ht hl), ?_⟩
      show State.tiles (Option.elim _ _ _) = _ ∧ State.mem (Option.elim _ _ _) = _
      cases (atomicNew r.opc r.size (devNat s r.pa (r.size * r.n)) r.data.toNat r.data2.toNat).1 with
      | none => exact ⟨(memAtomed_sameBytes s n r _).tiles, (memAtomed_sameBytes s n r _).mem⟩
      | some y =>
        have hb := memAtomed_sameBytes s n r true
        exact ⟨(devWrite_tiles ..).trans hb.tiles, (devWrite_mem hhome ..).trans (congrArg (memPutList · r.pa (leBytes len y)) hb.mem)⟩

end Sys2Proof.Machine

/-! # O8: a package cycle, and which of them are ticks -/

namespace Sys2Proof.Machine

open Sys2Proof

section TickCounts

variable {s u : State} {tile : Nat}

/-- What a cycle of one tile leaves alone. -/
structure OtherTiles (tile : Nat) (s u : State) : Prop where
  clock : u.clock = s.clock
  clockStop : u.clockStop = s.clockStop
  mem : u.mem = s.mem
  nodes : u.nodes = s.nodes
  packs : u.packs = s.packs
  tiles : ∀ n, n ≠ tile → tileGet u n = tileGet s n

theorem OtherTiles.refl (tile : Nat) (s : State) : OtherTiles tile s s := ⟨rfl, rfl, rfl, rfl, rfl, fun _ _ => rfl⟩

theorem OtherTiles.tilePut (tile : Nat) (s : State) (t : Tile) : OtherTiles tile s (tilePut s tile t) :=
  ⟨rfl, rfl, rfl, rfl, rfl, fun _ h => tileGet_tilePut_other s t h⟩

theorem OtherTiles.trans {v : State} (h : OtherTiles tile s u) (k : OtherTiles tile u v) : OtherTiles tile s v :=
  ⟨k.clock.trans h.clock, k.clockStop.trans h.clockStop, k.mem.trans h.mem, k.nodes.trans h.nodes, k.packs.trans h.packs,
   fun n hn => (k.tiles n hn).trans (h.tiles n hn)⟩

/-- A step of an array changes its engine alone. -/
theorem arrayStep_frame (t : Tile) (e : Nat) :
    (arrayStep t e).core = t.core ∧ (arrayStep t e).running = t.running ∧ (arrayStep t e).halted = t.halted := by
  unfold arrayStep
  dsimp only
  split <;> exact ⟨rfl, rfl, rfl⟩

theorem arraysStep_other (s : State) (tile : Nat) : OtherTiles tile s (arraysStep s tile) := by
  unfold arraysStep
  split
  · exact .tilePut ..
  · exact .refl ..

theorem arraysStep_frame (s : State) (tile : Nat) :
    (tileGet (arraysStep s tile) tile).core = (tileGet s tile).core ∧
      (tileGet (arraysStep s tile) tile).running = (tileGet s tile).running ∧
      (tileGet (arraysStep s tile) tile).halted = (tileGet s tile).halted := by
  unfold arraysStep
  split
  · obtain ⟨hc, hr, hh⟩ := arrayStep_frame (arrayStep (tileGet s tile) 0) 1
    obtain ⟨hc', hr', hh'⟩ := arrayStep_frame (tileGet s tile) 0
    rw [tileGet_tilePut_same]
    exact ⟨hc.trans hc', hr.trans hr', hh.trans hh'⟩
  · exact ⟨rfl, rfl, rfl⟩

/-- Whether a tick is over depends on the tile's core, its bobbin, its stop and the clocks alone. -/
theorem tickOver_congr (hc : (tileGet u tile).core = (tileGet s tile).core)
    (hr : (tileGet u tile).running = (tileGet s tile).running) (hh : (tileGet u tile).halted = (tileGet s tile).halted)
    (hs : u.clockStop = s.clockStop) : tickOver u tile = tickOver s tile := by
  simp only [tickOver, coreLive, hc, hr, hh, hs]

theorem idleTick_core (t : Tile) : (idleTick t).core = t.core :=
  foldl_keeps (p := fun u : Tile => u.core = t.core) rfl fun u e hu => by
    dsimp only
    split
    · exact hu
    · split <;> exact hu

/-- The end of a tile cycle (05 R96, R116): it is a tick exactly when the tick in progress is over, and a replay then has one
cycle less. -/
theorem cycleEnd_core (s : State) (tile : Nat) :
    (cycleEnd s tile).core.ticks = (coreGet s tile).ticks + (if tickOver s tile then 1 else 0) ∧
      (cycleEnd s tile).core.stretch = 0 ∧
      (tickOver s tile = true → ∀ r, (coreGet s tile).replay = some r → 1 < r.left →
        (cycleEnd s tile).core.replay = some { r with left := r.left - 1 }) := by
  unfold cycleEnd
  cases hgo : tickOver s tile with
  | true =>
    simp only [if_true, tickNext, idleTick_core]
    refine ⟨rfl, trivial, fun _ r hr hl => ?_⟩
    have hr' : (tileGet s tile).core.replay = some r := hr
    simp [hr', replayNext, Nat.not_le.2 hl]
  | false => exact ⟨rfl, rfl, nofun⟩

/-- The cases of a package cycle on one tile. -/
theorem cycleTile_other (s : State) (tile : Nat) : OtherTiles tile s (cycleTile s tile) := by
  unfold cycleTile
  dsimp only
  split
  · exact .refl ..
  · split
    · exact .tilePut ..
    · exact (arraysStep_other ..).trans (.tilePut ..)

theorem cycleTile_stopped (h : s.clockStop = true) : cycleTile s tile = s := by
  simp only [cycleTile, h, if_true]

variable (hs : s.clockStop = false)
include hs

theorem cycleTile_frozen {f : Freeze} (hf : (coreGet s tile).frozen = some f) :
    (coreGet (cycleTile s tile) tile).frozen = some { f with cycles := f.cycles + 1 } ∧
      (coreGet (cycleTile s tile) tile).ticks = (coreGet s tile).ticks := by
  have hf' : (tileGet s tile).core.frozen = some f := hf
  simp only [cycleTile, hs, hf', Bool.false_eq_true, if_false, coreGet, tileGet_tilePut_same, and_self]

theorem cycleTile_stretched (hf : (coreGet s tile).frozen = none) (h1 : (coreGet s tile).stretch = 1) :
    (coreGet (cycleTile s tile) tile).ticks = (coreGet s tile).ticks ∧ (coreGet (cycleTile s tile) tile).stretch = 2 ∧
      (coreGet (cycleTile s tile) tile).replay = (coreGet s tile).replay := by
  have hf' : (tileGet s tile).core.frozen = none := hf
  have h1' : (tileGet s tile).core.stretch = 1 := h1
  simp only [cycleTile, hs, hf', h1', Bool.false_eq_true, if_false, if_true, coreGet, tileGet_tilePut_same, and_self]

theorem cycleTile_ends (hf : (coreGet s tile).frozen = none) (h1 : (coreGet s tile).stretch ≠ 1) :
    tileGet (cycleTile s tile) tile = cycleEnd (arraysStep s tile) tile := by
  have hf' : (tileGet s tile).core.frozen = none := hf
  have h1' : (tileGet s tile).core.stretch ≠ 1 := h1
  simp only [cycleTile, hs, hf', if_neg h1', Bool.false_eq_true, if_false, tileGet_tilePut_same]

/-- The end of a tile's cycle, in terms of the state in which the cycle begins. -/
theorem cycleTile_tick (hf : (coreGet s tile).frozen = none) (h1 : (coreGet s tile).stretch ≠ 1) :
    (coreGet (cycleTile s tile) tile).ticks = (coreGet s tile).ticks + (if tickOver s tile then 1 else 0) ∧
      (coreGet (cycleTile s tile) tile).stretch = 0 ∧
      (tickOver s tile = true → ∀ r, (coreGet s tile).replay = some r → 1 < r.left →
        (coreGet (cycleTile s tile) tile).replay = some { r with left := r.left - 1 }) := by
  obtain ⟨hc, hr, hh⟩ := arraysStep_frame s tile
  have hend := cycleEnd_core (arraysStep s tile) tile
  rw [tickOver_congr hc hr hh (arraysStep_other s tile).clockStop, coreGet, hc] at hend
  rw [coreGet, cycleTile_ends hs hf h1]
  exact hend

end TickCounts

section CyclePass

variable {s : State}

/-- A fold of cycles over other tiles leaves a tile. -/
theorem foldl_cycleTile_other {l : List Nat} {n : Nat} (h : n ∉ l) (s : State) :
    tileGet (l.foldl cycleTile s) n = tileGet s n := by
  induction l generalizing s with
  | nil => rfl
  | cons m l ih =>
    rw [List.mem_cons, not_or] at h
    exact (ih h.2 _).trans ((cycleTile_other s m).tiles n h.1)

theorem foldl_cycleTile_frame (l : List Nat) (s : State) :
    (l.foldl cycleTile s).clock = s.clock ∧ (l.foldl cycleTile s).clockStop = s.clockStop ∧ (l.foldl cycleTile s).mem = s.mem ∧
      (l.foldl cycleTile s).nodes = s.nodes ∧ (l.foldl cycleTile s).packs = s.packs := by
  induction l generalizing s with
  | nil => exact ⟨rfl, rfl, rfl, rfl, rfl⟩
  | cons m l ih =>
    obtain ⟨h1, h2, h3, h4, h5⟩ := ih (cycleTile s m)
    have h := cycleTile_other s m
    exact ⟨h1.trans h.clock, h2.trans h.clockStop, h3.trans h.mem, h4.trans h.nodes, h5.trans h.packs⟩

/-- Of a fold of cycles over different tiles, a tile sees its own: it begins where the tile stands as before the fold. -/
theorem foldl_cycleTile_at {l : List Nat} (hl : l.Nodup) {n : Nat} (h : n ∈ l) (s : State) :
    ∃ u, tileGet u n = tileGet s n ∧ u.clockStop = s.clockStop ∧ tileGet (l.foldl cycleTile s) n = tileGet (cycleTile u n) n := by
  obtain ⟨pre, post, rfl⟩ := List.append_of_mem h
  have hd := List.nodup_middle.1 hl
  rw [List.nodup_cons, List.mem_append, not_or] at hd
  obtain ⟨⟨hpre, hpost⟩, -⟩ := hd
  refine ⟨pre.foldl cycleTile s, foldl_cycleTile_other hpre s, (foldl_cycleTile_frame pre s).2.1, ?_⟩
  rw [List.foldl_append, List.foldl_cons, foldl_cycleTile_other hpost]

/-- With an empty agenda the step lets a package cycle pass. -/
theorem step_cyclePass (h : s.agenda = []) : step s = .next (refill s) := by simp only [step, takeNext, h]

/-- The state after the cycle of every tile. -/
def cycledTiles (s : State) : State := (s.tiles.map (·.1)).foldl cycleTile s

theorem refill_frame (s : State) :
    (refill s).clock = (cycledTiles s).clock + cyclePeriod s ∧ (refill s).mem = (cycledTiles s).mem ∧
      (refill s).nodes = (cycledTiles s).nodes ∧ (refill s).packs = (cycledTiles s).packs ∧
      ∀ n, tileGet (refill s) n = tileGet (cycledTiles s) n := ⟨rfl, rfl, rfl, rfl, fun _ => rfl⟩

end CyclePass

/-- Settles O8: every tile sees its own cycle of the fold, whose cases are those of `cycleTile`. -/
theorem tickCounts : Obligations.TickCounts := by
  intro s ha hnd
  obtain ⟨hclock, hmem, hnodes, hpacks, htile⟩ := refill_frame s
  obtain ⟨hclock', -, hmem', hnodes', hpacks'⟩ := foldl_cycleTile_frame (s.tiles.map (·.1)) s
  refine ⟨refill s, step_cyclePass ha, by rw [hclock]; exact congrArg (· + cyclePeriod s) hclock', hmem.trans hmem',
    hnodes.trans hnodes', hpacks.trans hpacks', fun n hn => ?_⟩
  obtain ⟨u, hu, hstop, hat⟩ := foldl_cycleTile_at hnd hn s
  have hcore : coreGet s n = coreGet u n := congrArg Tile.core hu.symm
  have hover : tickOver s n = tickOver u n := tickOver_congr (by rw [hu]) (by rw [hu]) (by rw [hu]) hstop.symm
  have hend : tileGet (refill s) n = tileGet (cycleTile u n) n := (htile n).trans hat
  have hend' : coreGet (refill s) n = coreGet (cycleTile u n) n := congrArg Tile.core hend
  dsimp only
  rw [hend, hend', hcore, hover, ← hstop]
  refine ⟨fun hs => ?_, fun hs f hf => cycleTile_frozen hs hf, fun hs hf h1 => cycleTile_stretched hs hf h1,
    fun hs hf h1 => cycleTile_tick hs hf h1⟩
  rw [cycleTile_stopped hs, hu]

end Sys2Proof.Machine

/-! # O37: the vector unit -/

namespace Sys2Proof.Machine

open Sys2Proof

/-! ## Integer results and shifts (06 R125, R134; 09 R212, R217) -/

section IntegerElements

/-- The least value of an integer format. -/
def intLow (f : Fmt) : Int := if fmtIsI f then -2 ^ (fmtBits f - 1) else 0

/-- The greatest value of an integer format. -/
def intHigh (f : Fmt) : Int := if fmtIsI f then 2 ^ (fmtBits f - 1) - 1 else 2 ^ fmtBits f - 1

theorem intLow_le_intHigh (f : Fmt) : intLow f ≤ intHigh f := by cases f <;> decide

/-- The encoded limits of a format are its least and greatest value. -/
theorem intLimit_eq (f : Fmt) (low : Bool) : intLimit f low = wrapInt (fmtBits f) (if low then intLow f else intHigh f) := by
  cases f <;> cases low <;> rfl

theorem intOutside_eq (f : Fmt) (x : Int) :
    intOutside f x = if x < intLow f then some true else if intHigh f < x then some false else none := by
  cases h : fmtIsI f <;> simp [intOutside, intLow, intHigh, h]

/-- An integer converted to a format is clamped to it or wrapped (06 R134). -/
theorem intToInt_fitted (f : Fmt) (sat : Bool) (x : Int) : (intToInt f sat x).1 = fitted f sat x := by
  have hle := intLow_le_intHigh f
  have hf : fitted f sat x = wrapInt (fmtBits f) (if sat then max (intLow f) (min x (intHigh f)) else x) := rfl
  rw [hf, intToInt, intOutside_eq]
  by_cases hlo : x < intLow f
  · cases sat
    · simp [hlo]
    · have hc : max (intLow f) (min x (intHigh f)) = intLow f := by omega
      simp [hlo, hc, intLimit_eq]
  · by_cases hhi : intHigh f < x
    · cases sat
      · simp [hlo, hhi]
      · have hc : max (intLow f) (min x (intHigh f)) = intHigh f := by omega
        simp [hlo, hhi, hc, intLimit_eq]
    · have hc : max (intLow f) (min x (intHigh f)) = x := by omega
      simp [hlo, hhi, hc]

/-- A pattern that is read is below 2 to its width. -/
theorem elemRead_lt (t : Tile) (r : Region) (i : Nat) : elemRead t r i < 2 ^ fmtBits (fmtOf r.fmt) := by
  unfold elemRead
  dsimp only
  split
  case isTrue h =>
    have hb := (poolByte t (elemOff r i).toNat).isLt
    rw [h]
    split <;> simp only [fmtBits] <;> omega
  case isFalse h =>
    have hp : poolNat t (elemOff r i).toNat (elemBytes (fmtOf r.fmt)) < 256 ^ elemBytes (fmtOf r.fmt) := by
      simpa [poolNat] using leNat_lt ((List.range (elemBytes (fmtOf r.fmt))).map fun j => poolByte t ((elemOff r i).toNat + j))
    have hw : 256 ^ elemBytes (fmtOf r.fmt) = 2 ^ fmtBits (fmtOf r.fmt) := by
      cases hf : fmtOf r.fmt <;> first | rfl | exact absurd hf h
    exact hw ▸ hp

/-- A left shift by the width or more leaves nothing. -/
theorem shiftPat_left (w a n : Nat) : shiftPat 0 w a n = a * 2 ^ n % 2 ^ w := by
  simp only [shiftPat]
  split
  case isTrue h =>
    exact (Nat.mod_eq_zero_of_dvd ((Nat.pow_dvd_pow 2 h).mul_left a)).symm
  case isFalse => rfl

/-- A right shift of a pattern by the width or more leaves nothing. -/
theorem shiftPat_right {w a : Nat} (ha : a < 2 ^ w) (n : Nat) : shiftPat 1 w a n = a / 2 ^ n := by
  simp only [shiftPat]
  split
  case isTrue h => exact (Nat.div_eq_of_lt (ha.trans_le (Nat.pow_le_pow_right Nat.two_pos h))).symm
  case isFalse => rfl

/-- A signed pattern of width `w` lies between -2^(w-1) and 2^(w-1). -/
theorem signedNat_bounds {w : Nat} (hw : 0 < w) (a : Nat) : -2 ^ (w - 1) ≤ signedNat w a ∧ signedNat w a < 2 ^ (w - 1) := by
  have h2 : 2 ^ w = 2 * 2 ^ (w - 1) := by rw [← Nat.pow_succ', Nat.succ_eq_add_one, Nat.sub_add_cancel hw]
  have hm := Nat.mod_lt a (Nat.two_pow_pos w)
  have hc : ((2 ^ (w - 1) : Nat) : Int) = 2 ^ (w - 1) := by push_cast; rfl
  unfold signedNat
  split <;> omega

/-- An arithmetic right shift by the width or more leaves the sign. -/
theorem shiftPat_arith {w : Nat} (hw : 0 < w) (a n : Nat) : shiftPat 2 w a n = wrapInt w (signedNat w a / 2 ^ n) := by
  simp only [shiftPat]
  congr 1
  split
  case isTrue h =>
    obtain ⟨hlo, hhi⟩ := signedNat_bounds hw a
    have hle : (2 : Int) ^ (w - 1) ≤ 2 ^ n := pow_le_pow_right₀ (by decide) (by omega)
    have hp : (0 : Int) < 2 ^ (w - 1) := by positivity
    push_cast
    by_cases hs : 0 ≤ signedNat w a
    · rw [Int.ediv_eq_zero_of_lt hs hhi, Int.ediv_eq_zero_of_lt hs (hhi.trans_le hle)]
    · rw [Int.ediv_eq_neg_one_of_neg_of_le (by omega) (by omega), Int.ediv_eq_neg_one_of_neg_of_le (by omega) (by omega)]
  case isFalse => push_cast; rfl

end IntegerElements

/-! ## What a group adds to its results -/

section Elements

variable {t : Tile} {v : VecOp}

/-- The opcodes whose elements are each a value of their own (09 R212 to R220). -/
def elementWise : List Nat := [0x100, 0x101, 0x102, 0x103, 0x104, 0x105, 0x106, 0x107, 0x111, 0x112, 0x113, 0x114, 0x115, 0x116, 0x117, 0x11B]

/-- An element of such an operation is stored where it is active, and adds nothing else to the results. -/
theorem vecElem_elementWise (hop : v.opc ∈ elementWise) (a : VecAcc) (i : Nat) :
    (vecElem t v a i).effs =
      a.effs ++ if vecActive t v i then [elemWrite v.vd i (vecResult t v i).1] else [] := by
  unfold vecElem
  extract_lets act a1 pa a2
  have h1 : a1.effs = a.effs := by unfold a1; split <;> rfl
  have h2 : a2.effs = a.effs := by unfold a2; split <;> exact h1
  split
  case h_12 =>
    by_cases hact : act = true
    · rw [if_pos hact, if_pos hact, storeElem, h2]
    · rw [if_neg hact, if_neg hact, h2, List.append_nil]
  all_goals
    rename_i heq
    simp [heq, elementWise] at hop

/-- The results of a run of elements of such an operation, in order. -/
theorem foldl_vecElem_effs (hop : v.opc ∈ elementWise) (l : List Nat) (a : VecAcc) :
    (l.foldl (fun a i => vecElem t v a (v.elem + i)) a).effs =
      a.effs ++ l.flatMap fun i => if vecActive t v (v.elem + i) then [elemWrite v.vd (v.elem + i) (vecResult t v (v.elem + i)).1] else [] := by
  induction l generalizing a with
  | nil => simp
  | cons i l ih => rw [List.foldl_cons, ih, vecElem_elementWise hop, List.flatMap_cons, List.append_assoc]

/-- The scalar result of an instruction, in latch l2 of its slot (09 R225). -/
def scalarLatch (v : VecOp) (res : Option Nat) : List Eff :=
  match res with
  | some x => [.reg (latchKey v.slot 2) (rvOf (BitVec.ofNat 64 x))]
  | none => []

/-- vd's token, where the instruction has qd (09 R203). -/
def vecToken (v : VecOp) : List Eff :=
  match v.push with
  | some q => [.entry q.1 q.2 (rvOf (v.op.vd.setWidth 64))]
  | none => []

theorem mem_scalarOps {opc : Nat} (h : (vecRow opc).scalarRes = true) :
    opc ∈ [0x110, 0x11E, 0x11F, 0x120, 0x121, 0x122, 0x123, 0x126, 0x128, 0x129, 0x12A] := by
  unfold vecRow at h
  split at h <;> simp at h ⊢

/-- What the last group adds: the single result, then the scalar one, which an instruction with one has, then the token. -/
theorem vecFinish_effs (v : VecOp) (a : VecAcc) :
    ∃ l res, (vecFinish v a).effs = a.effs ++ l ++ scalarLatch v res ++ vecToken v ∧
      ((vecRow v.opc).scalarRes = true → res.isSome = true) := by
  unfold vecFinish
  extract_lets fa fd f
  split
  rename_i b res heq
  have hb : (∃ l, b.effs = a.effs ++ l) ∧ ((vecRow v.opc).scalarRes = true → res.isSome = true) := by
    split at heq
    case h_12 =>
      cases heq
      refine ⟨⟨[], (List.append_nil _).symm⟩, fun h => ?_⟩
      have := mem_scalarOps h
      simp_all
    all_goals
      cases heq
      first
        | exact ⟨⟨_, rfl⟩, fun _ => rfl⟩
        | exact ⟨⟨[], (List.append_nil _).symm⟩, fun _ => rfl⟩
  obtain ⟨⟨l, hl⟩, hres⟩ := hb
  exact ⟨l, res, by rw [← hl]; rfl, hres⟩

/-- The values of the integer operations (09 R213, R214). -/
theorem vecResult_int {r : Nat × (Int → Int → Int → Int)} (hr : r ∈ vectorIntRows) (ho : v.opc = r.1)
    (hint : fmtIsInt (fmtOf v.va.fmt) = true) (i : Nat) :
    (vecResult t v i).1 = fitted (fmtOf v.vd.fmt) v.op.sat (r.2 (intOf (fmtOf v.va.fmt) (srcRead t v.va i))
      (intOf (fmtOf v.vb.fmt) (srcRead t v.vb i)) (intOf (fmtOf v.vd.fmt) (elemRead t v.vd i))) := by
  have habs (x : Int) : (x.natAbs : Int) = max x (-x) := by omega
  have h : vectorIntRows.Forall fun r => v.opc = r.1 → (vecResult t v i).1 =
      fitted (fmtOf v.vd.fmt) v.op.sat (r.2 (intOf (fmtOf v.va.fmt) (srcRead t v.va i))
        (intOf (fmtOf v.vb.fmt) (srcRead t v.vb i)) (intOf (fmtOf v.vd.fmt) (elemRead t v.vd i))) := by
    unfold vectorIntRows
    and_intros <;> intro ho <;> simp only [vecResult, ho, hint, if_true, intFit, intToInt_fitted, habs]
  exact List.forall_iff_forall_mem.1 h r hr ho

/-- The patterns of the operations on bits (09 R217, R219). -/
theorem vecResult_bits {r : Nat × (Nat → Nat → Nat → Nat)} (hr : r ∈ vectorBitRows) (ho : v.opc = r.1)
    (hw : fmtBits (fmtOf v.vd.fmt) = fmtBits (fmtOf v.va.fmt)) (i : Nat) :
    (vecResult t v i).1 = r.2 (fmtBits (fmtOf v.vd.fmt)) (srcRead t v.va i) (srcRead t v.vb i) := by
  have ha : srcRead t v.va i < 2 ^ fmtBits (fmtOf v.vd.fmt) := hw ▸ elemRead_lt ..
  have hpos : 0 < fmtBits (fmtOf v.vd.fmt) := by cases fmtOf v.vd.fmt <;> decide
  have h : vectorBitRows.Forall fun r => v.opc = r.1 →
      (vecResult t v i).1 = r.2 (fmtBits (fmtOf v.vd.fmt)) (srcRead t v.va i) (srcRead t v.vb i) := by
    unfold vectorBitRows
    and_intros <;> intro ho <;>
      simp only [vecResult, ho, shiftPat_left, shiftPat_right ha, shiftPat_arith hpos]
  exact List.forall_iff_forall_mem.1 h r hr ho

theorem elementWise_of_row {opc : Nat} (h : (∃ r ∈ vectorIntRows, opc = r.1) ∨ ∃ r ∈ vectorBitRows, opc = r.1) :
    opc ∈ elementWise := by
  have hi : vectorIntRows.Forall fun r => r.1 ∈ elementWise := by unfold vectorIntRows; and_intros <;> decide
  have hb : vectorBitRows.Forall fun r => r.1 ∈ elementWise := by unfold vectorBitRows; and_intros <;> decide
  obtain ⟨r, hr, rfl⟩ | ⟨r, hr, rfl⟩ := h
  · exact List.forall_iff_forall_mem.1 hi r hr
  · exact List.forall_iff_forall_mem.1 hb r hr

/-- An active element of the group that is due is among its results. -/
theorem mem_vecAccOf (hop : v.opc ∈ elementWise) {i : Nat} (hlo : v.elem ≤ i) (hhi : i < vecStop v)
    (hact : vecActive t v i = true) : elemWrite v.vd i (vecResult t v i).1 ∈ (vecAccOf t v).effs := by
  have hrun : elemWrite v.vd i (vecResult t v i).1 ∈ ((List.range (vecStop v - v.elem)).foldl
      (fun a i => vecElem t v a (v.elem + i)) ⟨[], flagsOfBits v.flags, v.acc, v.part, v.cnt, []⟩).effs := by
    rw [foldl_vecElem_effs hop, List.nil_append]
    refine List.mem_flatMap.2 ⟨i - v.elem, List.mem_range.2 (by omega), ?_⟩
    rw [Nat.add_sub_cancel' hlo, if_pos hact]
    exact List.mem_singleton_self _
  unfold vecAccOf
  dsimp only
  split
  · obtain ⟨l, res, hfin, -⟩ := vecFinish_effs v ((List.range (vecStop v - v.elem)).foldl
      (fun a i => vecElem t v a (v.elem + i)) ⟨[], flagsOfBits v.flags, v.acc, v.part, v.cnt, []⟩)
    rw [hfin]
    simp only [List.mem_append]
    exact .inl (.inl (.inl hrun))
  · exact hrun

/-- The last group has the scalar result, of an instruction with one, and vd's token, of one with qd. -/
theorem vecAccOf_last (h : vecStop v = v.n) :
    ((vecRow v.opc).scalarRes = true → ∃ x, Eff.reg (latchKey v.slot 2) (rvOf x) ∈ (vecAccOf t v).effs) ∧
      ∀ q, v.push = some q → Eff.entry q.1 q.2 (rvOf (v.op.vd.setWidth 64)) ∈ (vecAccOf t v).effs := by
  unfold vecAccOf
  dsimp only
  rw [if_pos h]
  obtain ⟨l, res, hfin, hres⟩ := vecFinish_effs v ((List.range (vecStop v - v.elem)).foldl
    (fun a i => vecElem t v a (v.elem + i)) ⟨[], flagsOfBits v.flags, v.acc, v.part, v.cnt, []⟩)
  rw [hfin]
  refine ⟨fun hs => ?_, fun q hq => List.mem_append_right _ (by simp [vecToken, hq])⟩
  obtain ⟨x, rfl⟩ := Option.isSome_iff_exists.1 (hres hs)
  exact ⟨_, List.mem_append_left _ (List.mem_append_right _ (List.mem_singleton_self _))⟩

end Elements

/-! ## The unit's steps (05 R106; 09 R228) -/

section Unit

variable {s s1 : State} {tile : Nat} {v : VecOp}

/-- A check of accesses changes no tile. -/
theorem checkUses_tiles {seq : Nat} {l : List (Nat × Nat × Bool)} (h : checkUses s tile seq l = .ok s1) : s1.tiles = s.tiles := by
  unfold checkUses at h
  extract_lets pend at h
  generalize useGrans tile l = gs at h
  have main : ∀ (gs : List (Nat × Bool)) (r : Except Trap State), gs.foldl (fun r g => match r with
      | .error x => .error x
      | .ok s => checkGran s (tileAgentId s tile) (coreAgent s tile) g.1 g.2 true pend) r = .ok s1 →
      ∃ s0, r = .ok s0 ∧ s1.tiles = s0.tiles := by
    intro gs
    induction gs with
    | nil => exact fun r hr => ⟨s1, hr, rfl⟩
    | cons g gs ih =>
      intro r hr
      obtain ⟨s0, h0, ht⟩ := ih _ hr
      cases r with
      | error x => cases h0
      | ok u => exact ⟨u, rfl, ht.trans (checkGran_tiles h0)⟩
  obtain ⟨s0, h0, ht⟩ := main gs (.ok s) h
  cases h0
  exact ht

theorem vecUses_tiles {seq : Nat} {l : List (Nat × Nat × Bool)} (h : vecUses s tile seq l = .ok s1) : s1.tiles = s.tiles := by
  unfold vecUses at h
  dsimp only at h
  split at h
  · cases h
  · split at h
    · cases h
    · exact checkUses_tiles h

/-- The unit starts its next operation with the operands that it reads once. -/
theorem vecStart_starts (hrun : coreRuns s tile = true) (hv : vecToStart (tileGet s tile).core = some v)
    (hu : vecUses s tile v.seq (vecOpen (tileGet s tile) { v with t0 := some (tileGet s tile).core.ticks }).2 = .ok s1) :
    vecStart tile s = corePut s1 tile (vecPut (coreGet s1 tile)
      (vecOpen (tileGet s tile) { v with t0 := some (tileGet s tile).core.ticks }).1) := by
  simp only [vecStart, hrun, if_true, hv, hu]

theorem vecOpen_t0 (t : Tile) (v : VecOp) : (vecOpen t v).1.t0 = v.t0 := by
  unfold vecOpen
  extract_lets row rd f pat r
  split
  case h_1 => split <;> rfl
  case h_3 => split <;> rfl
  all_goals rfl

/-- An operation whose group has run, its elements up to `vecStop` with what they produced. -/
def groupRun (v : VecOp) (a : VecAcc) (ticks : Nat) : VecOp :=
  { v with elem := vecStop v, acc := a.acc, part := a.part, cnt := a.cnt, flags := 0, last := ticks + 5 }

/-- The state in which a group's results are under way. -/
def groupUnderWay (s1 : State) (tile : Nat) (v : VecOp) (a : VecAcc) (ticks : Nat) : State :=
  let s2 := addFlight s1 tile v.seq v.slot 6 (a.effs ++ if flagBits a.fl = 0 then [] else [.fp (flagBits a.fl)])
  corePut s2 tile (vecPut (coreGet s2 tile) (groupRun v a ticks))

/-- A vkat whose fold is not its word (09 R228). -/
def foldDiffers (t : Tile) (v : VecOp) : Prop :=
  v.opc = 0x126 ∧ vecStop v = v.n ∧ BitVec.ofNat 64 ((vecAccOf t v).acc.headD 0) ≠ v.sb.getD 0

section Due

variable (hrun : coreRuns s tile = true) (hv : vecDue (tileGet s tile).core = some v)
  (hu : vecUses s tile v.seq (vecAccOf (tileGet s tile) v).uses = .ok s1)
include hrun hv hu

theorem vecGroup_lands (hd : ¬ foldDiffers (tileGet s tile) v) :
    vecGroup tile s = groupUnderWay s1 tile v (vecAccOf (tileGet s tile) v) (tileGet s tile).core.ticks := by
  simp only [vecGroup, hrun, if_true, hv, hu]
  exact if_neg hd

theorem vecGroup_differs (hd : foldDiffers (tileGet s tile) v) :
    vecGroup tile s = vecFault (groupUnderWay s1 tile v (vecAccOf (tileGet s tile) v) (tileGet s tile).core.ticks) tile
      (groupRun v (vecAccOf (tileGet s tile) v) (tileGet s tile).core.ticks) v.n
      ⟨causeSilentError, BitVec.ofNat 64 ((vecAccOf (tileGet s tile) v).acc.headD 0), 0, v.sb.getD 0, 0⟩ := by
  simp only [vecGroup, hrun, if_true, hv, hu]
  exact if_pos hd

end Due

theorem lastFlight_groupUnderWay (a : VecAcc) (ticks : Nat) :
    lastFlight (groupUnderWay s1 tile v a ticks) tile = some ⟨v.seq, v.slot, (coreGet s1 tile).ticks + 5,
      a.effs ++ (if flagBits a.fl = 0 then [] else [.fp (flagBits a.fl)]), none, false, false, false⟩ := by
  simp [lastFlight, groupUnderWay, addFlight, vecPut]

/-- The first in-flight fault of a core that the unit raises. -/
theorem vecFault_fault {u : State} (h : (coreGet u tile).fault = none) (p : Nat) (x : Trap) :
    (coreGet (vecFault u tile v p x) tile).fault = some (v.pc, v.slot, { opcDetail v.opc x with d3 := BitVec.ofNat 64 p }) := by
  simp [vecFault, h]

theorem groupUnderWay_fault (a : VecAcc) (ticks : Nat) :
    (coreGet (groupUnderWay s1 tile v a ticks) tile).fault = (coreGet s1 tile).fault := by
  simp [groupUnderWay, addFlight, vecPut]

end Unit

/-- Settles O37: the unit's start and its group, with the results of each row's elements. -/
theorem vectorUnit : Obligations.VectorUnit := by
  unfold Obligations.VectorUnit
  intro tile s s1 v hrun t
  refine ⟨fun r hv hr hu => ?_, ?_⟩
  · subst hr
    exact ⟨congrArg Host.Outcome.next (vecStart_starts hrun hv hu), vecOpen_t0 ..⟩
  intro fold differs
  refine ⟨fun hv hu hd hfault => ?_, fun hv hu hd => ?_⟩
  · have hcore : coreGet s1 tile.toNat = t.core := congrArg Tile.core (tileGet_of_tiles (vecUses_tiles hu) _)
    refine ⟨_, congrArg Host.Outcome.next (vecGroup_differs hrun hv hu hd), ?_⟩
    rw [vecFault_fault (by rw [groupUnderWay_fault, hcore]; exact hfault)]
    rfl
  · refine ⟨_, _, congrArg Host.Outcome.next (vecGroup_lands hrun hv hu hd), lastFlight_groupUnderWay .., rfl, rfl, rfl,
      fun i hlo hhi hact => ⟨fun r hr ho hint => ?_, fun r hr ho hw => ?_⟩, fun hn hs => ?_, fun hn q hq => ?_⟩
    · rw [← vecResult_int hr ho hint]
      exact List.mem_append_left _ (mem_vecAccOf (elementWise_of_row (.inl ⟨r, hr, ho⟩)) hlo hhi hact)
    · rw [← vecResult_bits hr ho hw]
      exact List.mem_append_left _ (mem_vecAccOf (elementWise_of_row (.inr ⟨r, hr, ho⟩)) hlo hhi hact)
    · obtain ⟨x, hx⟩ := (vecAccOf_last hn).1 hs
      exact ⟨x, List.mem_append_left _ hx⟩
    · exact List.mem_append_left _ ((vecAccOf_last hn).2 q hq)

end Sys2Proof.Machine

/-! # O43: the commit of the oldest bundle -/

namespace Sys2Proof.Machine

open Sys2Proof

/-! ## Adds, wakes and synchronisation leave every core, its halt, and the packs (16 R365) -/

section SameSeats

/-- No core differs, no tile halts or goes on, and the packs stay. -/
structure SameSeats (s u : State) : Prop where
  core : ∀ k, coreGet u k = coreGet s k
  halted : ∀ k, (tileGet u k).halted = (tileGet s k).halted
  packs : u.packs = s.packs

variable {α : Type} {s u v : State} {n : Nat}

theorem SameSeats.of_eq (ht : u.tiles = s.tiles) (hp : u.packs = s.packs) : SameSeats s u :=
  ⟨fun k => congrArg Tile.core (tileGet_of_tiles ht k), fun k => congrArg Tile.halted (tileGet_of_tiles ht k), hp⟩

theorem SameSeats.refl (s : State) : SameSeats s s := .of_eq rfl rfl

theorem SameSeats.trans (h : SameSeats s u) (k : SameSeats u v) : SameSeats s v :=
  ⟨fun i => (k.core i).trans (h.core i), fun i => (k.halted i).trans (h.halted i), k.packs.trans h.packs⟩

/-- The same rule, read from the later of two acts. -/
theorem SameSeats.after (k : SameSeats u v) (h : SameSeats s u) : SameSeats s v := h.trans k

theorem SameSeats.ite {p : Prop} [Decidable p] (h : SameSeats s u) (k : SameSeats s v) : SameSeats s (if p then u else v) := by
  split
  · exact h
  · exact k

theorem SameSeats.foldl {f : State → α → State} (hf : ∀ s x, SameSeats s (f s x)) (l : List α) (s : State) :
    SameSeats s (l.foldl f s) :=
  foldl_keeps (p := SameSeats s) (.refl s) fun u x hu => hu.trans (hf u x)

/-- A tile whose core and halt stay is put back. -/
theorem tilePut_sameSeats {t : Tile} (hc : t.core = coreGet s n) (hh : t.halted = (tileGet s n).halted) :
    SameSeats s (tilePut s n t) where
  core k := by
    by_cases hk : k = n
    · subst hk; simp [coreGet, hc]
    · simp [coreGet, hk]
  halted k := by
    by_cases hk : k = n
    · subst hk; simp [hh]
    · simp [hk]
  packs := rfl

theorem MemoryOnly.sameSeats (h : MemoryOnly s u) : SameSeats s u := by
  obtain ⟨_, _, _, _, _, _, rfl⟩ := h
  exact .of_eq rfl rfl

theorem creelSpill_sameSeats (s : State) (n : Nat) : SameSeats s (creelSpill s n) := by
  unfold creelSpill
  extract_lets l
  refine .ite (.refl s) ?_
  split
  · split
    · exact (spillWrite_memoryOnly ..).sameSeats.trans (tilePut_sameSeats rfl rfl)
    · exact .refl s
  · exact .refl s

theorem creelAdd_sameSeats (s : State) (n : Nat) (head : Bool) (e : CreelEntry) : SameSeats s (creelAdd s n head e) :=
  (creelSpill_sameSeats ..).after (tilePut_sameSeats rfl rfl)

theorem readyHead_sameSeats (s : State) (n : Nat) (e : CreelEntry) (acq : Option (Nat × Scope)) :
    SameSeats s (readyHead s n e acq) := creelAdd_sameSeats ..

theorem wakeEnt_sameSeats (s : State) (w : WaitEnt) (acq : Bool) : SameSeats s (wakeEnt s w acq) := by
  unfold wakeEnt
  extract_lets t
  split
  · exact .refl s
  · exact (readyHead_sameSeats ..).after (tilePut_sameSeats rfl rfl)

theorem offerEntry_sameSeats (s : State) (r : ReelAt) : SameSeats s (offerEntry s r) := by
  unfold offerEntry
  split
  · exact .refl s
  · split
    · extract_lets x
      split
      · exact .refl s
      · refine .ite ((readyHead_sameSeats ..).after (tilePut_sameSeats rfl rfl)) ?_
        exact .trans (tilePut_sameSeats (t := { x with creel := x.creel.map _ }) rfl rfl) (.of_eq rfl rfl)
    · exact .refl s

theorem wakeReel_sameSeats (s : State) (r : ReelAt) : SameSeats s (wakeReel s r) := by
  unfold wakeReel
  extract_lets v hit l s1
  refine .ite (.refl s) (.trans ?_ (.foldl (fun _ _ => .ite (offerEntry_sameSeats ..) (.refl _)) ..))
  exact (SameSeats.foldl (fun _ _ => wakeEnt_sameSeats ..) ..).after (.of_eq rfl rfl)

theorem reelStore_sameSeats (s : State) (r : ReelAt) (v : Word) : SameSeats s (reelStore s r v) := by
  cases r with
  | reg t k => exact tilePut_sameSeats rfl rfl
  | mem pa => exact (devWrite_memoryOnly ..).sameSeats.after (.of_eq rfl rfl)

theorem reelAdd_sameSeats {r : ReelAt} {v : Word} (h : reelAdd s r v = .ok u) : SameSeats s u := by
  unfold reelAdd at h
  split at h
  · cases h
  · cases h
    exact (reelStore_sameSeats ..).trans (wakeReel_sameSeats ..)

theorem relsJoin_sameSeats (s : State) (loc : Nat) (r : Option Rel) : SameSeats s (relsJoin s loc r) := by
  unfold relsJoin
  split
  · exact .refl s
  · exact .of_eq rfl rfl

theorem release_sameSeats (s : State) (a : Nat) (x : Agent) (loc : Nat) (sc : Scope) : SameSeats s (release s a x loc sc) :=
  (relsJoin_sameSeats ..).trans (.of_eq rfl rfl)

theorem relaxedRead_sameSeats (s : State) (a : Nat) (x : Agent) (loc : Nat) : SameSeats s (relaxedRead s a x loc) := by
  unfold relaxedRead
  split
  · exact .refl s
  · exact .of_eq rfl rfl

theorem coreSync_sameSeats (s : State) (n : Nat) (o : Order) (sc : Scope) (loc : Nat) (rd wr : Bool) :
    SameSeats s (coreSync s n o sc loc rd wr) := by
  unfold coreSync syncAccess
  extract_lets x s1 y
  have h1 : SameSeats s s1 := by
    refine .ite ?_ (.refl s)
    split
    · exact .of_eq rfl rfl
    · exact .of_eq rfl rfl
    · exact relaxedRead_sameSeats ..
  refine .ite (h1.trans ?_) h1
  split
  · exact release_sameSeats ..
  · exact release_sameSeats ..
  · exact relsJoin_sameSeats ..

theorem touch_sameSeats (s : State) (asid bit : Nat) : SameSeats s (touch s asid bit) := by
  unfold touch
  exact .ite (.refl s) (.of_eq rfl rfl)

theorem touchPa_sameSeats (s : State) (asid pa : Nat) : SameSeats s (touchPa s asid pa) := by
  unfold touchPa
  split
  · exact touch_sameSeats ..
  · exact .refl s

theorem reelTouch_sameSeats (s : State) (asid : Nat) (r : ReelAt) : SameSeats s (reelTouch s asid r) := by
  cases r with
  | reg t k => exact touch_sameSeats ..
  | mem pa => exact touchPa_sameSeats ..

theorem nodeRec_sameSeats (s : State) (i n agent mask pc : Nat) (x : Trap) : SameSeats s (nodeRec s i n agent mask pc x) := by
  unfold nodeRec
  split
  · exact .refl s
  · exact .of_eq rfl rfl

theorem demoteNode_sameSeats (s : State) (i n agent : Nat) : SameSeats s (demoteNode s i n agent) := by
  unfold demoteNode
  split
  · exact .refl s
  · exact .ite ((nodeRec_sameSeats ..).after (.of_eq rfl rfl)) (.refl s)

theorem demoteAddFor_sameSeats (s : State) (node : Option Nat) (n agent : Nat) (r : ReelAt) :
    SameSeats s (demoteAddFor s node n agent r) := by
  unfold demoteAddFor
  split
  · exact .refl s
  · split
    · exact demoteNode_sameSeats ..
    · exact .ite (.refl s) (demoteNode_sameSeats ..)

theorem joinAdd_sameSeats (h : joinAdd s n = .ok u) : SameSeats s u := by
  revert h
  unfold joinAdd
  split
  · exact fun | rfl => .refl s
  · split
    · exact fun | rfl => .refl s
    · extract_lets addr
      refine engThen_elim fun r _ => ?_
      split
      · exact nofun
      · extract_lets s1
        have h1 : SameSeats s s1 :=
          (coreSync_sameSeats ..).after ((demoteAddFor_sameSeats ..).after (reelTouch_sameSeats ..))
        split
        · rintro ⟨⟩
          exact h1.trans (reelAdd_sameSeats ‹_›)
        · exact nofun

theorem wakePhase_sameSeats (s : State) (n : Nat) : SameSeats s (wakePhase s n) := by
  unfold wakePhase
  extract_lets t
  split
  · exact .refl s
  · refine .ite ?_ (.refl s)
    split
    · unfold wakeAt
      extract_lets
      split
      · exact .refl s
      · exact (readyHead_sameSeats ..).after (tilePut_sameSeats rfl rfl)
    · exact .refl s

end SameSeats

/-! ## The commit of a bundle that performs nothing on reels and met no wait (05 R102) -/

section Committed

variable {s u : State} {n seq : Nat} {b : Bundle}

/-- Staged effects that leave a register may be dropped. -/
theorem logReg_filter {p : Landed → Bool} {key : Nat} (l : List Landed)
    (h : ∀ a : Landed, p a = false → ∀ x, effReg a.eff key x = x) (x : RV) : logReg (l.filter p) key x = logReg l key x := by
  induction l generalizing x with
  | nil => rfl
  | cons a l ih =>
    rw [List.filter_cons, logReg_cons]
    split
    · rw [logReg_cons, ih]
    · next hp => rw [ih, h a (by simpa using hp)]

theorem regRd_dropReelEffs (c : Core) (seq key : Nat) : regRd (dropReelEffs c seq) key = regRd c key := by
  refine logReg_filter _ (fun a ha x => ?_) _
  cases he : a.eff <;> simp_all [effReg]

/-- One staged result at the commit of a bundle: the bundle's own becomes committed, with the earlier staged ones that it shadows
cut back (05 R102, R105). -/
def foldOne (seq : Nat) (r : Tile × List Landed) (x : Landed) : Tile × List Landed :=
  if x.seq = seq then (baseApply r.1 x.eff, r.2.filterMap (shadowed x.eff)) else (r.1, r.2 ++ [x])

theorem shadowed_seq (e : Eff) (a : Landed) : ∀ x ∈ shadowed e a, x.seq = a.seq := by
  fun_cases shadowed <;> simp

theorem baseApply_eq (t : Tile) (e : Eff) :
    baseApply t e = { t with core := { t.core with regs := (baseApply t e).core.regs }, pool := (baseApply t e).pool } := by
  cases e <;> rfl

/-- What the fold over the staged results keeps: the rest of the tile, and what every register reads as. -/
theorem foldl_foldOne (seq : Nat) (l : List Landed) (r : Tile × List Landed) (hr : ∀ x ∈ r.2, x.seq ≠ seq) :
    let q := l.foldl (foldOne seq) r
    q.1 = { r.1 with core := { r.1.core with regs := q.1.core.regs }, pool := q.1.pool } ∧ (∀ x ∈ q.2, x.seq ≠ seq) ∧
      ∀ key, logReg q.2 key (mapGet q.1.core.regs key (regDefault key)) =
        logReg l key (logReg r.2 key (mapGet r.1.core.regs key (regDefault key))) := by
  induction l generalizing r with
  | nil => exact ⟨rfl, hr, fun key => rfl⟩
  | cons a l ih =>
    by_cases ha : a.seq = seq
    · have hstep : foldOne seq r a = (baseApply r.1 a.eff, r.2.filterMap (shadowed a.eff)) := if_pos ha
      obtain ⟨ht, hl, hk⟩ := ih (foldOne seq r a) (by
        rw [hstep]
        intro x hx
        obtain ⟨y, hy, hxy⟩ := List.mem_filterMap.mp hx
        exact shadowed_seq _ _ x hxy ▸ hr y hy)
      refine ⟨?_, hl, fun key => ?_⟩
      · rw [List.foldl_cons, ht, hstep, baseApply_eq]
      · rw [List.foldl_cons, hk, hstep, mapGet_baseApply, logReg_shadowed, logReg_cons]
    · have hstep : foldOne seq r a = (r.1, r.2 ++ [a]) := if_neg ha
      obtain ⟨ht, hl, hk⟩ := ih (foldOne seq r a) (by
        rw [hstep]
        intro x hx
        rcases List.mem_append.mp hx with hx | hx
        · exact hr x hx
        · exact List.mem_singleton.mp hx ▸ ha)
      refine ⟨?_, hl, fun key => ?_⟩
      · rw [List.foldl_cons, ht, hstep]
      · rw [List.foldl_cons, hk, hstep, logReg_append_singleton, logReg_cons]

/-- What the commit of a bundle's staged results leaves: every register as it read, no staged result of the bundle, and the rest
of the tile, memory and packs. -/
structure Folded (n seq : Nat) (s u : State) : Prop where
  tile : ∃ regs log flights pool,
    tileGet u n = { tileGet s n with core := { coreGet s n with regs, log, flights }, pool }
  reg : ∀ key, regRd (coreGet u n) key = regRd (coreGet s n) key
  log : ∀ x ∈ (coreGet u n).log, x.seq ≠ seq
  mem : u.mem = s.mem
  packs : u.packs = s.packs

theorem effClean_packs (s : State) (n : Nat) (e : Eff) : (effClean s n e).packs = s.packs := by
  have hclean (s : State) (off : Nat) : (poolClean s n off 1).packs = s.packs := by
    unfold poolClean
    split <;> rfl
  cases e with
  | cells cs =>
    simp only [effClean]
    split
    · rfl
    · exact foldl_keeps (p := fun u : State => u.packs = s.packs) rfl fun u x hu => (hclean ..).trans hu
  | nib a hi v => exact hclean ..
  | _ => rfl

theorem foldLog_folded (s : State) (n seq : Nat) : Folded n seq s (foldLog s n seq) := by
  let r := (coreGet s n).log.foldl (foldOne seq) (tileGet s n, [])
  let s1 := tilePut s n { r.1 with core := { r.1.core with log := r.2 } }
  have hs : foldLog s n seq = if s1.symErr.isEmpty then s1
      else ((coreGet s n).log.filter fun x => decide (x.seq = seq)).foldl (fun s x => effClean s n x.eff) s1 := rfl
  have hrest : tileGet (foldLog s n seq) n = tileGet s1 n ∧ (foldLog s n seq).mem = s1.mem ∧
      (foldLog s n seq).packs = s1.packs := by
    rw [hs]
    split
    · exact ⟨rfl, rfl, rfl⟩
    · refine foldl_keeps (p := fun u : State => tileGet u n = tileGet s1 n ∧ u.mem = s1.mem ∧ u.packs = s1.packs)
        ⟨rfl, rfl, rfl⟩ fun u x ⟨ht, hm, hp⟩ => ?_
      obtain ⟨ht', hm'⟩ := effClean_frame u n x.eff n
      exact ⟨ht'.trans ht, hm'.trans hm, (effClean_packs ..).trans hp⟩
  obtain ⟨ht, hm, hp⟩ := hrest
  obtain ⟨hq, hl, hk⟩ := foldl_foldOne seq (coreGet s n).log (tileGet s n, []) nofun
  have htile : tileGet (foldLog s n seq) n = { r.1 with core := { r.1.core with log := r.2 } } :=
    ht.trans (tileGet_tilePut_same ..)
  refine ⟨⟨r.1.core.regs, r.2, (coreGet s n).flights, r.1.pool, ?_⟩, fun key => ?_, ?_, hm, hp⟩
  · rw [htile, show r.1 = _ from hq]
    rfl
  · rw [coreGet, htile]
    exact hk key
  · rw [coreGet, htile]
    exact hl

/-- The staged results of a bundle with no reel effects become committed. -/
def commitStaged (s : State) (n seq : Nat) : State := foldLog (corePut s n (dropReelEffs (coreGet s n) seq)) n seq

theorem commitStaged_folded (s : State) (n seq : Nat) : Folded n seq s (commitStaged s n seq) := by
  obtain ⟨⟨regs, log, flights, pool, ht⟩, hr, hl, hm, hp⟩ := foldLog_folded (corePut s n (dropReelEffs (coreGet s n) seq)) n seq
  refine ⟨⟨regs, log, flights, pool, ?_⟩, fun key => ?_, hl, hm, hp⟩
  · rw [commitStaged, ht, tileGet_corePut_same, coreGet_corePut_same]
    rfl
  · rw [commitStaged, hr, coreGet_corePut_same, regRd_dropReelEffs]

/-- A core whose bundle leaves the window, with the queue entries that it popped. -/
def leftCore (b : Bundle) (c : Core) : Core :=
  let popped (k : Nat) : Bool := b.pops.any fun p => decide (qKey p.2.1 p.2.2 = k)
  reqTidy { c with
    window := c.window.filter fun x => decide (x.seq ≠ b.seq),
    qent := if b.pops.isEmpty then c.qent else c.qent.filter fun x => !popped x.1,
    reqs := c.reqs.map fun r => if r.seq = b.seq then { r with go := true } else r }

theorem leftCore_window (b : Bundle) (c : Core) :
    (leftCore b c).window = c.window.filter fun x => decide (x.seq ≠ b.seq) := rfl

theorem leftCore_log (b : Bundle) (c : Core) : (leftCore b c).log = c.log := rfl

theorem leftCore_phase (b : Bundle) (c : Core) : (leftCore b c).phase = c.phase := rfl

theorem leftCore_fault (b : Bundle) (c : Core) : (leftCore b c).fault = c.fault := rfl

theorem regRd_leftCore (b : Bundle) (c : Core) (key : Nat) : regRd (leftCore b c) key = regRd c key := rfl

/-- What the commit does after the bundle's acts: its commands enter the engines' queues, its reservations of granules stand, and it
leaves the window with what it popped. -/
def commitLeave (n : Nat) (b : Bundle) (s2 : State) : State :=
  let t := tileGet s2 n
  let s3 := if t.engines.any fun e => e.2.buf.any fun x => decide (x.seq = b.seq) then
      let r := forkClock s2 n
      let t := tileGet r.1 n
      tilePut r.1 n { t with engines := t.engines.map fun e => (e.1, { e.2 with buf := e.2.buf.map fun x =>
        if x.seq = b.seq then { x with committed := true, vc := r.2 } else x }) }
    else s2
  let s4 := if s3.records.any fun r => decide (r.pend = some (n, b.seq)) then
      { s3 with records := s3.records.map fun r => if r.pend = some (n, b.seq) then { r with pend := none } else r }
    else s3
  corePut s4 n (leftCore b (coreGet s4 n))

theorem commitLeave_frame (n : Nat) (b : Bundle) (s : State) :
    (∃ engines, tileGet (commitLeave n b s) n = { tileGet s n with engines, core := leftCore b (coreGet s n) }) ∧
      (commitLeave n b s).mem = s.mem ∧ (commitLeave n b s).packs = s.packs := by
  unfold commitLeave
  extract_lets t r t' s3 s4
  have h3 : (∃ engines, tileGet s3 n = { tileGet s n with engines }) ∧ s3.mem = s.mem ∧ s3.packs = s.packs := by
    unfold s3
    split
    · exact ⟨⟨_, tileGet_tilePut_same ..⟩, rfl, rfl⟩
    · exact ⟨⟨_, rfl⟩, rfl, rfl⟩
  have h4 : tileGet s4 n = tileGet s3 n ∧ s4.mem = s3.mem ∧ s4.packs = s3.packs := by
    unfold s4
    split <;> exact ⟨rfl, rfl, rfl⟩
  obtain ⟨⟨engines, ht3⟩, hm3, hp3⟩ := h3
  obtain ⟨ht4, hm4, hp4⟩ := h4
  refine ⟨⟨engines, ?_⟩, hm4.trans hm3, hp4.trans hp3⟩
  rw [tileGet_corePut_same, coreGet, ht4, ht3]
  rfl

/-- The acts of a bundle that others can synchronise with, and those that come after its results. -/
theorem commitEffects_eq (met : List SuspWait) : commitEffects s n b met =
    commitLeave n b ((b.acts.filter fun a => !syncActs a.2).foldl (commitAct n b.seq)
      (commitStaged ((List.range 6).foldl
        (slotActs n b met (ownReelEffs (coreGet s n) b.seq) (prologueOver s n b)) s) n b.seq)) := rfl

/-- A slot with none of the acts that others can synchronise with does nothing before the results. -/
theorem slotActs_none {late : Bool} {k : Nat} (h : (b.acts.filter fun a => decide (a.1 = k) && syncActs a.2) = []) :
    slotActs n b [] [] late s k = s := by
  simp [slotActs, h]

/-- A bundle with no reel effect and none of those acts. -/
theorem commitEffects_quiet (hr : ownReelEffs (coreGet s n) b.seq = []) (ha : ∀ a ∈ b.acts, syncActs a.2 = false) :
    commitEffects s n b [] = commitLeave n b (b.acts.foldl (commitAct n b.seq) (commitStaged s n b.seq)) := by
  have hslots : (List.range 6).foldl (slotActs n b [] [] (prologueOver s n b)) s = s :=
    foldl_eq_self fun k _ => slotActs_none (List.filter_eq_nil_iff.mpr fun a h => by simp [ha a h])
  have hall : (b.acts.filter fun a => !syncActs a.2) = b.acts := List.filter_eq_self.mpr fun a h => by simp [ha a h]
  rw [commitEffects_eq, hr, hslots, hall]

/-- The act neither ends its bobbin nor suspends it (07 R151). -/
def staysRunning : CommitAct → Bool
  | .endBobbin | .yield | .pwait | .lease _ _ _ _ _ _ _ _ => false
  | _ => true

/-- A bundle that neither ends its bobbin nor suspends it, with no wait. -/
theorem commitGo_stays (hfin : b.fin = false) (hw : bundleWaits (coreGet s n) n b = [])
    (ha : ∀ a ∈ b.acts, staysRunning a.2 = true) : commitGo s n false b = commitEffects s n b [] := by
  have hend : bundleEnds b = false := by
    simp only [bundleEnds, hfin, Bool.false_or, List.any_eq_false, decide_eq_true_eq]
    intro a h heq
    simpa [heq, staysRunning] using ha a h
  have hs : suspends s n false b = none := by
    have hw' : bundleWaits (tileGet s n).core n b = [] := hw
    simp only [suspends, hw', List.find?_nil, Option.map_none, ite_eq_right_iff, List.any_eq_true]
    rintro ⟨a, h, hact⟩
    have hstay := ha a h
    cases hk : a.2 <;> simp [hk, staysRunning] at hact hstay
  simp [commitGo, hend, hs, hw]

/-- A bundle without acts or waits commits its results (05 R102). -/
theorem commitEffects_results (hr : ownReelEffs (coreGet s n) b.seq = []) (ha : b.acts = []) :
    commitEffects s n b [] = commitLeave n b (commitStaged s n b.seq) := by
  rw [commitEffects_quiet hr (by simp [ha]), ha]
  rfl

theorem commitResults_frame (s : State) (n : Nat) (b : Bundle) :
    let u := commitLeave n b (commitStaged s n b.seq)
    (coreGet u n).window = (coreGet s n).window.filter (fun x => decide (x.seq ≠ b.seq)) ∧
      (∀ x ∈ (coreGet u n).log, x.seq ≠ b.seq) ∧ (∀ k, regRd (coreGet u n) k = regRd (coreGet s n) k) ∧ u.mem = s.mem := by
  intro u
  obtain ⟨⟨engines, ht⟩, hm, -⟩ := commitLeave_frame n b (commitStaged s n b.seq)
  have hf := commitStaged_folded s n b.seq
  obtain ⟨regs, log, flights, pool, hst⟩ := hf.tile
  have hc : coreGet u n = leftCore b (coreGet (commitStaged s n b.seq) n) := congrArg Tile.core ht
  refine ⟨?_, ?_, fun k => ?_, hm.trans hf.mem⟩
  · rw [hc, leftCore_window, coreGet, hst]
  · rw [hc, leftCore_log]
    exact hf.log
  · rw [hc, regRd_leftCore, hf.reg]

end Committed

/-! ## A bobbin that leaves the core (07 R151, R152) -/

section Leaves

variable {s u : State} {n seq : Nat} {b : Bundle} {e : CreelEntry}

/-- What undoing the reservations of csend leaves of the tiles: all but their engines, whose runs go on. -/
def EnginesOnly (s u : State) : Prop :=
  ∀ k, ∃ engines, tileGet u k = { tileGet s k with engines } ∧ ∀ i, (engGet (tileGet u k) i).runs = (engGet (tileGet s k) i).runs

theorem EnginesOnly.of_tiles (h : u.tiles = s.tiles) : EnginesOnly s u :=
  fun k => ⟨(tileGet s k).engines, tileGet_of_tiles h k, fun i => by rw [tileGet_of_tiles h k]⟩

theorem EnginesOnly.trans {v : State} (h : EnginesOnly s u) (h' : EnginesOnly u v) : EnginesOnly s v := fun k => by
  obtain ⟨e, he, hr⟩ := h k
  obtain ⟨e', he', hr'⟩ := h' k
  exact ⟨e', by rw [he', he], fun i => (hr' i).trans (hr i)⟩

theorem engMap_enginesOnly (s : State) (n i : Nat) {f : Engine → Engine} (hf : ∀ x, (f x).runs = x.runs) :
    EnginesOnly s (engMap s n i f) := fun k => by
  by_cases hk : k = n
  · subst hk
    refine ⟨_, tileGet_tilePut_same .., fun j => ?_⟩
    by_cases hj : j = i
    · subst hj
      rw [engGet_engMap_same, hf]
    · rw [engGet_engMap_other _ _ _ hj]
  · rw [tileGet_engMap_other s i f hk]
    exact ⟨(tileGet s k).engines, rfl, fun _ => rfl⟩

theorem keepRecords_tiles_packs (s : State) (p : OpenRec → Bool) :
    (keepRecords s p).tiles = s.tiles ∧ (keepRecords s p).packs = s.packs := by
  refine foldl_keeps (p := fun u : State => u.tiles = s.tiles ∧ u.packs = s.packs) ⟨rfl, rfl⟩ fun u r hu => ?_
  unfold tagZero
  split <;> exact hu

theorem setOutstanding_tiles (s : State) (n k : Nat) : (setOutstanding s n k).tiles = s.tiles := by
  unfold setOutstanding
  split <;> rfl

/-- The engines with the elastic entries of undone bundles dropped (05 R109). -/
def bufsKept (seq : Nat) (m : NMap Engine) : NMap Engine :=
  m.map fun e => (e.1, { e.2 with buf := e.2.buf.filter fun x => x.committed || decide (x.seq < seq) })

theorem engGet_bufsKept (t : Tile) (seq i : Nat) :
    (engGet { t with engines := bufsKept seq t.engines } i).runs = (engGet t i).runs := by
  simp only [engGet, bufsKept, mapGet, mapGet?_map_entries t.engines fun e => { e.2 with
    buf := e.2.buf.filter fun x => x.committed || decide (x.seq < seq) }]
  cases mapGet? t.engines i <;> rfl

/-- What is undone on other tiles, and in the engines of this one, before its core goes back (18 R397). -/
def undoReserved (s : State) (tile seq : Nat) : State :=
  let acts := ((coreGet s tile).window.filter fun b => decide (seq ≤ b.seq)).flatMap (·.acts)
  let forks := (acts.filter fun a => match a.2 with | .fork _ _ _ _ => true | _ => false).length
  let s1 := if forks = 0 then s else setOutstanding s tile (outstanding s tile - forks)
  acts.foldl (fun s a => match a.2 with
    | .csend target e id => engMap s target e fun x => { x with queue := x.queue.filter fun q => decide (q.id ≠ id) }
    | _ => s) s1

theorem undoReserved_enginesOnly (s : State) (n seq : Nat) : EnginesOnly s (undoReserved s n seq) := by
  unfold undoReserved
  extract_lets acts forks s1
  have h1 : EnginesOnly s s1 := by
    unfold s1
    split
    · exact .of_tiles rfl
    · exact .of_tiles (setOutstanding_tiles ..)
  refine foldl_keeps (p := EnginesOnly s) h1 fun u a hu => ?_
  split
  · exact hu.trans (engMap_enginesOnly _ _ _ fun _ => rfl)
  · exact hu

/-- Undoing puts the tile back with its core at the bundle, and changes other tiles in their engines alone. -/
theorem undoTile_eq (s : State) (n seq : Nat) : ∃ s3, EnginesOnly s s3 ∧ s3.packs = (undoReserved s n seq).packs ∧
    ((undoReserved s n seq).records.all (fun r => r.pend.isNone) = true → s3.mem = (undoReserved s n seq).mem) ∧
    undoTile s n seq = tilePut s3 n { tileGet s3 n with
      core := undoFrom (coreGet s3 n) seq, engines := bufsKept seq (tileGet s3 n).engines } := by
  let keep (r : OpenRec) : Bool := match r.pend with
    | some (u, q) => !(decide (u = n) && decide (seq ≤ q))
    | none => true
  let s2 := undoReserved s n seq
  refine ⟨if s2.records.any fun r => r.pend.isSome then keepRecords s2 keep else s2, ?_, ?_, ?_, rfl⟩
  · split
    · exact (undoReserved_enginesOnly s n seq).trans (.of_tiles (keepRecords_tiles_packs ..).1)
    · exact undoReserved_enginesOnly s n seq
  · split
    · exact (keepRecords_tiles_packs ..).2
    · rfl
  · intro h
    rw [if_neg]
    simpa [s2] using h

/-- A tile whose younger bundles are undone keeps all but its core and its engines. -/
theorem undoTile_tile (s : State) (n seq : Nat) :
    ∃ engines, tileGet (undoTile s n seq) n = { tileGet s n with core := undoFrom (coreGet s n) seq, engines } := by
  obtain ⟨s3, h, -, -, he⟩ := undoTile_eq s n seq
  obtain ⟨engines, ht, -⟩ := h n
  refine ⟨bufsKept seq engines, ?_⟩
  rw [he, tileGet_tilePut_same, coreGet, ht]
  rfl

/-- The bobbin is gone from the core, and the creel stays (07 R152). -/
theorem leaveCore_tile (s : State) (n seq : Nat) :
    (tileGet (leaveCore s n seq) n).running = none ∧ (tileGet (leaveCore s n seq) n).creel = (tileGet s n).creel := by
  obtain ⟨engines, h⟩ := undoTile_tile s n (seq + 1)
  simp [leaveCore, h]

theorem leaveCore_window (s : State) (n seq : Nat) : (coreGet (leaveCore s n seq) n).window = [] := by
  simp [leaveCore, coreGet]

theorem creelAdd_fits (head : Bool) (harea : e.area = none) (hroom : creelHard (tileGet s n).creel < 64) :
    creelAdd s n head e = tilePut s n { tileGet s n with
      creel := if head then e :: (tileGet s n).creel else (tileGet s n).creel ++ [e] } := by
  refine creelSpill_fits ?_
  cases head <;> simpa [creelHard, harea] using hroom

/-- A spill keeps what runs, and the bobbin of every entry but for its mark. -/
theorem creelSpill_keeps (s : State) (n pc : Nat) :
    (tileGet (creelSpill s n) n).running = (tileGet s n).running ∧
      ((∃ x ∈ (tileGet s n).creel, x.bobbin.pc = pc) → ∃ x ∈ (tileGet (creelSpill s n) n).creel, x.bobbin.pc = pc) := by
  unfold creelSpill
  extract_lets l
  split
  · exact ⟨rfl, id⟩
  · split
    · next i idx hi hidx =>
      split
      · next e he =>
        extract_lets bobbin e' s1
        have ht : tileGet s1 n = tileGet s n := (spillWrite_memoryOnly ..).tileGet n
        refine ⟨?_, fun ⟨x, hx, hpc⟩ => ?_⟩
        · rw [tileGet_tilePut_same]
          exact (congrArg Tile.running ht : (tileGet s1 n).running = (tileGet s n).running)
        obtain ⟨j, hj, rfl⟩ := List.getElem_of_mem hx
        obtain ⟨hi', rfl⟩ := List.getElem?_eq_some_iff.mp he
        rw [tileGet_tilePut_same]
        by_cases hij : i = j
        · subst hij
          exact ⟨e', List.mem_set (h := hi') .., hpc⟩
        · exact ⟨_, List.mem_of_getElem (List.getElem_set_ne hij (by simpa using hj)), hpc⟩
      · exact ⟨rfl, id⟩
    · exact ⟨rfl, id⟩

theorem creelAdd_keeps (s : State) (n : Nat) (head : Bool) (e : CreelEntry) :
    (tileGet (creelAdd s n head e) n).running = (tileGet s n).running ∧
      ∃ x ∈ (tileGet (creelAdd s n head e) n).creel, x.bobbin.pc = e.bobbin.pc := by
  obtain ⟨hr, he⟩ := creelSpill_keeps (tilePut s n { tileGet s n with
    creel := if head then e :: (tileGet s n).creel else (tileGet s n).creel ++ [e] }) n e.bobbin.pc
  refine ⟨hr.trans (by simp), he ⟨e, ?_, rfl⟩⟩
  cases head <;> simp

theorem readyHead_keeps (harea : e.area = none) (acq : Option (Nat × Scope)) :
    (tileGet (readyHead s n e acq) n).running = (tileGet s n).running ∧
      ∃ x ∈ (tileGet (readyHead s n e acq) n).creel, x.bobbin.pc = e.bobbin.pc := by
  have hkeep : entryBobbin s n e = e.bobbin := by simp [entryBobbin, harea]
  unfold readyHead
  rw [hkeep]
  exact creelAdd_keeps ..

/-- A bobbin that parks stands in the creel, ready or waiting, and none runs (07 R153). -/
theorem parkOn_keeps (harea : e.area = none) (r : ReelAt) (addr t : Word) (sc : Scope) :
    (tileGet (parkOn s n e r addr t sc) n).running = (tileGet s n).running ∧
      ∃ x ∈ (tileGet (parkOn s n e r addr t sc) n).creel, x.bobbin.pc = e.bobbin.pc := by
  unfold parkOn
  extract_lets loc frozen listed s1
  split
  · exact readyHead_keeps harea _
  · have h : (tileGet s1 n).running = (tileGet s n).running ∧ ∃ x ∈ (tileGet s1 n).creel, x.bobbin.pc = e.bobbin.pc :=
      creelAdd_keeps ..
    split <;> exact h

theorem suspendEntry_wait (t : Tile) (b : Bundle) (w : Option Wait) (vc : NMap Nat) : (suspendEntry t b w vc).wait = w := rfl

theorem suspendEntry_pc (t : Tile) (b : Bundle) (w : Option Wait) (vc : NMap Nat) : (suspendEntry t b w vc).bobbin.pc = b.next := by
  unfold suspendEntry
  cases t.running <;> rfl

end Leaves

/-! ## What each act does at the commit of its bundle -/

section Acts

variable {s : State} {n : Nat} {b : Bundle}

theorem headIssued_head (h : headIssued s n = some b) : (∃ l, (coreGet s n).window = b :: l) ∧ (coreGet s n).fault = none := by
  unfold headIssued at h
  extract_lets t c at h
  change (∃ l, c.window = b :: l) ∧ c.fault = none
  split at h
  · cases h
  · next b' l hw =>
    split at h
    · next hc =>
      cases h
      simp only [Bool.and_eq_true, Option.isNone_iff_eq_none] at hc
      exact ⟨⟨l, hw⟩, hc.1.2⟩
    · cases h

theorem execBundleCommit_go {tile : BitVec 8} (hh : headIssued s tile.toNat = some b) (ho : commitsOpen s tile.toNat = true)
    (hp : commitPlan s tile.toNat false b = .go) (hc : commitHeld s tile.toNat false b = false) :
    exec (.bundleCommit tile) s = .next (commitGo s tile.toNat false b) := by
  have hgo : commitBundle false tile.toNat s = commitGo s tile.toNat false b := by simp [commitBundle, hh, ho, hp, hc]
  exact congrArg Host.Outcome.next hgo

/-- A reel wait that parks ends the run, with an entry that resumes at N (07 R151, R153). -/
theorem commitGo_parks {k : Nat} {w : SuspWait} (hend : bundleEnds b = false)
    (hs : suspends s n false b = some (k, some w)) :
    (tileGet (commitGo s n false b) n).running = none ∧ ∃ e ∈ (tileGet (commitGo s n false b) n).creel, e.bobbin.pc = b.next := by
  let s1 := commitEffects s n b ((bundleWaits (coreGet s n) n b).filter fun w => !w.always && waitMet s n false b w)
  let s2 := leaveCore (forkClock s1 n).1 n b.seq
  let e := suspendEntry (tileGet s1 n) b none (forkClock s1 n).2
  have hgo : commitGo s n false b = parkOn s2 n e w.place w.addr w.t w.wakes := by
    unfold commitGo
    simp only [hend, Bool.false_eq_true, if_false, hs]
    rfl
  obtain ⟨hr, x, hx, hpc⟩ := parkOn_keeps (s := s2) (n := n) (e := e) rfl w.place w.addr w.t w.wakes
  rw [hgo]
  exact ⟨hr.trans (leaveCore_tile ..).1, x, hx, hpc.trans (suspendEntry_pc ..)⟩

theorem creel_commitLeave (s : State) : (tileGet (commitLeave n b s) n).creel = (tileGet s n).creel := by
  obtain ⟨⟨engines, h⟩, -⟩ := commitLeave_frame n b s
  rw [h]

theorem creel_commitStaged (s : State) : (tileGet (commitStaged s n b.seq) n).creel = (tileGet s n).creel := by
  obtain ⟨regs, log, flights, pool, h⟩ := (commitStaged_folded s n b.seq).tile
  rw [h]

/-- fork puts its bobbin at the head of the creel (07 R154). -/
theorem commitEffects_fork {pc join : Nat} {link : Bool} {carry : List Word}
    (hr : ownReelEffs (coreGet s n) b.seq = []) (ha : b.acts = [(0, .fork pc link join carry)])
    (hroom : creelHard (tileGet s n).creel < 64) : ∃ vc, (tileGet (commitEffects s n b []) n).creel =
      ⟨forkBobbin (tileGet s n) pc link join carry, none, none, vc, none⟩ :: (tileGet s n).creel := by
  rw [commitEffects_quiet hr (by simp [ha, syncActs]), ha, creel_commitLeave]
  obtain ⟨regs, log, flights, pool, ht⟩ := (commitStaged_folded s n b.seq).tile
  generalize commitStaged s n b.seq = s1 at ht
  have hfork : tileGet (forkClock s1 n).1 n = tileGet s1 n := rfl
  refine ⟨(forkClock s1 n).2, ?_⟩
  show (tileGet (creelAdd (forkClock s1 n).1 n true _) n).creel = _
  rw [creelAdd_fits _ rfl (by rw [hfork, ht]; exact hroom), tileGet_tilePut_same, hfork, ht]
  rfl

/-- yield puts its bobbin at the tail of the creel, to resume at N (07 R152). -/
theorem commitGo_yield (hfin : b.fin = false) (hr : ownReelEffs (coreGet s n) b.seq = [])
    (hw : bundleWaits (coreGet s n) n b = []) (ha : b.acts = [(0, .yield)]) (hroom : creelHard (tileGet s n).creel < 64) :
    ∃ e, (tileGet (commitGo s n false b) n).creel = (tileGet s n).creel ++ [e] ∧ e.bobbin.pc = b.next ∧ e.wait = none ∧
      (tileGet (commitGo s n false b) n).running = none := by
  have hend : bundleEnds b = false := by simp [bundleEnds, hfin, ha]
  have hs : suspends s n false b = some (0, none) := by simp [suspends, ha]
  let s1 := commitEffects s n b []
  let s2 := leaveCore (forkClock s1 n).1 n b.seq
  let e := suspendEntry (tileGet s1 n) b none (forkClock s1 n).2
  have hgo : commitGo s n false b = creelAdd s2 n false e := by
    simp [commitGo, hend, hs, hw, suspendAct, ha, s1, s2, e]
  have hcreel : (tileGet s2 n).creel = (tileGet s n).creel := by
    refine (leaveCore_tile ..).2.trans ?_
    show (tileGet s1 n).creel = _
    unfold s1
    rw [commitEffects_quiet hr (by simp [ha, syncActs]), ha, creel_commitLeave]
    exact creel_commitStaged s
  have hrun : (tileGet (creelAdd s2 n false e) n).running = none := (creelAdd_keeps ..).1.trans (leaveCore_tile ..).1
  refine ⟨e, ?_, suspendEntry_pc .., suspendEntry_wait .., hgo ▸ hrun⟩
  rw [hgo, creelAdd_fits false rfl (by rw [hcreel]; exact hroom), tileGet_tilePut_same, ← hcreel]
  rfl

/-- trap raises software-trap with its code at its bundle's pc (07 R161). -/
theorem commitEffects_trap {code : Nat} (hh : headIssued s n = some b) (hr : ownReelEffs (coreGet s n) b.seq = [])
    (ha : b.acts = [(0, .trapCode code)]) : (coreGet (commitEffects s n b []) n).fault =
      some (b.pc, 0, trapAt causeSoftwareTrap (BitVec.ofNat 64 code) 0) := by
  obtain ⟨⟨l, hwin⟩, hfault⟩ := headIssued_head hh
  rw [commitEffects_quiet hr (by simp [ha, syncActs]), ha]
  obtain ⟨regs, log, flights, pool, ht⟩ := (commitStaged_folded s n b.seq).tile
  generalize commitStaged s n b.seq = s1 at ht
  obtain ⟨⟨engines, hl⟩, -⟩ := commitLeave_frame n b (commitAct n b.seq s1 (0, .trapCode code))
  have hc : coreGet s1 n = { coreGet s n with regs, log, flights } := congrArg Tile.core ht
  have hb : bundleGet? (coreGet s1 n) b.seq = some b := by
    rw [hc, bundleGet?]
    simp [hwin]
  have hact : commitAct n b.seq s1 (0, .trapCode code) = corePut s1 n { coreGet s1 n with
      fault := some (b.pc, 0, trapAt causeSoftwareTrap (BitVec.ofNat 64 code) 0) } := by
    have hnone : (coreGet s1 n).fault = none := by rw [hc]; exact hfault
    simp [commitAct, hb, hnone]
  show (coreGet (commitLeave n b (commitAct n b.seq s1 (0, .trapCode code))) n).fault = _
  rw [coreGet, hl, leftCore_fault, hact, coreGet_corePut_same]

/-- parrive counts the tile's phase and the pack's (16 R371). -/
theorem arrive_counts {rel : Bool} {p : Pack} (hp : packGet? s (tileGet s n).packId = some p) :
    (coreGet (arrive s n rel) n).phase = (coreGet s n).phase + 1 ∧
      (arrive s n rel).packs = mapPut s.packs p.id { p with phase := p.phase + 1 } := by
  unfold arrive
  simp only [hp]
  generalize hs1 : coreSync s n _ (packScope p) (locPhase p.id) false true = s1
  have h1 : SameSeats s s1 := hs1 ▸ coreSync_sameSeats ..
  generalize hs3 : corePut _ n _ = s3
  have h3 := SameSeats.foldl wakePhase_sameSeats p.tiles s3
  refine ⟨?_, ?_⟩
  · rw [h3.core, ← hs3, coreGet_corePut_same]
    rfl
  · rw [h3.packs, ← hs3]
    exact congrArg (fun m => mapPut m p.id { p with phase := p.phase + 1 }) h1.packs

theorem commitEffects_parrive {rel : Bool} {p : Pack} (hr : ownReelEffs (coreGet s n) b.seq = [])
    (ha : b.acts = [(0, .parrive rel)]) (hp : packGet? s (tileGet s n).packId = some p) :
    (coreGet (commitEffects s n b []) n).phase = (coreGet s n).phase + 1 ∧
      (commitEffects s n b []).packs = mapPut s.packs p.id { p with phase := p.phase + 1 } := by
  have hslots {late : Bool} : (List.range 6).foldl (slotActs n b [] [] late) s = arrive s n rel := by
    have h0 : slotActs n b [] [] late s 0 = arrive s n rel := by simp [slotActs, ha, syncActs, commitAct]
    show [1, 2, 3, 4, 5].foldl (slotActs n b [] [] late) (slotActs n b [] [] late s 0) = _
    rw [h0]
    refine foldl_eq_self fun k hk => slotActs_none ?_
    have hk0 : k ≠ 0 := by
      rintro rfl
      simp at hk
    simp [ha, Ne.symm hk0]
  rw [commitEffects_eq, hr, hslots, ha]
  generalize hs1 : commitStaged (arrive s n rel) n b.seq = s1
  have hf : Folded n b.seq (arrive s n rel) s1 := hs1 ▸ commitStaged_folded ..
  obtain ⟨hphase, hpacks⟩ := arrive_counts (rel := rel) hp
  obtain ⟨regs, log, flights, pool, ht⟩ := hf.tile
  obtain ⟨⟨engines, hl⟩, -, hlp⟩ := commitLeave_frame n b s1
  refine ⟨?_, (hlp.trans hf.packs).trans hpacks⟩
  show (coreGet (commitLeave n b s1) n).phase = _
  rw [coreGet, hl, leftCore_phase, coreGet, ht]
  exact hphase

end Acts

/-! ## The end of a bobbin (02 R53; 07 R151) -/

section Ends

variable {s : State} {n seq : Nat} {b : Bundle}

/-- A tile with an empty window has nothing to undo. -/
theorem undoTile_empty (h : (coreGet s n).window = []) : tileNode? (undoTile s n seq) n = tileNode? s n ∧
    (undoTile s n seq).packs = s.packs := by
  obtain ⟨engines, ht⟩ := undoTile_tile s n seq
  have hnode : (tileGet (undoTile s n seq) n).node = (tileGet s n).node := by rw [ht]
  refine ⟨?_, ?_⟩
  · rw [tileNode?, tileNode?, hnode]
    refine congrArg _ (funext fun i => ?_)
    rw [nodeGet?, nodeGet?, undoTile_nodes]
  · obtain ⟨s3, -, hp, -, he⟩ := undoTile_eq s n seq
    have hsame : undoReserved s n seq = s := by simp [undoReserved, h]
    rw [he, ← hsame, ← hp]
    rfl

theorem outstanding_congr {u : State} (hn : tileNode? u n = tileNode? s n) (hp : u.packs = s.packs) :
    outstanding u n = outstanding s n := by
  simp only [outstanding, packGet?, hn, hp]

theorem tileNode?_setOutstanding (s : State) (n k : Nat) : tileNode? (setOutstanding s n k) n = tileNode? s n := by
  unfold setOutstanding
  split <;> rfl

/-- The count is the one that is put, where the tile's node has a pack. -/
theorem outstanding_setOutstanding (k : Nat) (hp : ∀ nd p, tileNode? s n = some nd → packGet? s nd.pack = some p → p.id = nd.pack)
    (hk : outstanding s n = 0 → k = 0) : outstanding (setOutstanding s n k) n = k := by
  cases h : (tileNode? s n).bind fun x => packGet? s x.pack with
  | none =>
    have h0 : outstanding s n = 0 := by simp [outstanding, h]
    simp only [setOutstanding, h]
    rw [h0, hk h0]
  | some p =>
    obtain ⟨nd, hnd, hpk⟩ := Option.bind_eq_some_iff.mp h
    have hnd' : tileNode? (packPut s { p with outstanding := k }) n = some nd := hnd
    have hid : nd.pack = ({ p with outstanding := k } : Pack).id := (hp nd p hnd hpk).symm
    simp only [setOutstanding, h]
    rw [outstanding, hnd', Option.bind_some, hid, packGet_packPut_same]
    rfl

/-- What becomes of the state of a node leaves its pack's count. -/
theorem outstanding_nodePut {i : Nat} {nd : Node} {st : NodeState} (ht : (tileGet s n).node = some i)
    (hnd : nodeGet? s i = some nd) : outstanding (nodePut s i { nd with st }) n = outstanding s n := by
  have hnode : tileNode? s n = some nd := by simp [tileNode?, ht, hnd]
  have hnode' : tileNode? (nodePut s i { nd with st }) n = some { nd with st } := by
    have ht' : (tileGet (nodePut s i { nd with st }) n).node = some i := ht
    rw [tileNode?, ht', Option.bind_some, nodeGet_nodePut_same]
  simp only [outstanding, hnode, hnode']
  rfl

/-- The bobbin that ends leaves the core, and the outstanding count falls (02 R53). -/
theorem endNow_ends (hwin : (coreGet s n).window = [])
    (hp : ∀ nd p, tileNode? s n = some nd → packGet? s nd.pack = some p → p.id = nd.pack) :
    (tileGet (endNow s n seq) n).running = none ∧ (coreGet (endNow s n seq) n).window = [] ∧
      outstanding (endNow s n seq) n = outstanding s n - 1 := by
  obtain ⟨hun, hup⟩ := undoTile_empty (seq := seq + 1) hwin
  let s1 := leaveCore s n seq
  have hnode : tileNode? s1 n = tileNode? s n := by
    refine Eq.trans ?_ hun
    simp only [s1, leaveCore, tileNode?, tileGet_tilePut_same]
    rfl
  have hout : outstanding s1 n = outstanding s n := outstanding_congr hnode hup
  let s2 := setOutstanding s1 n (outstanding s1 n - 1)
  have h2 : (tileGet s2 n).running = none ∧ (coreGet s2 n).window = [] ∧ outstanding s2 n = outstanding s n - 1 := by
    have ht : tileGet s2 n = tileGet s1 n := tileGet_of_tiles (setOutstanding_tiles ..) n
    refine ⟨ht ▸ (leaveCore_tile ..).1, ?_, ?_⟩
    · rw [coreGet, ht]
      exact leaveCore_window ..
    · rw [← hout]
      refine outstanding_setOutstanding _ (fun nd p hnd hpk => ?_) fun h => by rw [h]
      refine hp nd p (hnode ▸ hnd) ?_
      rw [← hpk]
      exact congrArg (fun m => mapGet? m nd.pack) hup.symm
  have hend : endNow s n seq = match (tileGet s2 n).node with
    | none => s2
    | some i => match nodeGet? s2 i with
      | some nd => if outstanding s1 n - 1 = 0 ∧ (nd.st = .running ∨ nd.st = .yielding) then
          nodePut s2 i { nd with st := .retiring } else s2
      | none => s2 := rfl
  rw [hend]
  clear_value s2
  split
  · exact h2
  · next i hi =>
    split
    · next nd hnd =>
      split
      · exact ⟨h2.1, h2.2.1, (outstanding_nodePut hi hnd).trans h2.2.2⟩
      · exact h2
    · exact h2

/-- The commit of a bundle that ends its bobbin, with nothing younger (07 R151). -/
theorem commitGo_ends (hfin : b.fin = true) (hr : ownReelEffs (coreGet s n) b.seq = [])
    (hw : bundleWaits (coreGet s n) n b = []) (ha : b.acts = []) (hwin : (coreGet s n).window = [b]) {s2 : State}
    (hj : joinAdd (commitEffects s n b []) n = .ok s2)
    (hp : ∀ nd p, tileNode? s2 n = some nd → packGet? s2 nd.pack = some p → p.id = nd.pack) :
    (tileGet (commitGo s n false b) n).running = none ∧ (coreGet (commitGo s n false b) n).window = [] ∧
      outstanding (commitGo s n false b) n = outstanding s2 n - 1 := by
  have hgo : commitGo s n false b = endNow s2 n b.seq := by
    simp [commitGo, bundleEnds, hfin, hw, hj]
  have hempty : (coreGet s2 n).window = [] := by
    rw [(joinAdd_sameSeats hj).core, commitEffects_results hr ha, (commitResults_frame ..).1, hwin]
    simp
  rw [hgo]
  exact endNow_ends hempty hp

end Ends

/-- Settles O43: the commit as acts that synchronise, staged results that become committed and acts that follow them; each clause
is one act's. -/
theorem commitMakesArchitectural : Obligations.CommitMakesArchitectural := by
  unfold Obligations.CommitMakesArchitectural
  intro tile s b n c t hh ho hplan hheld
  refine ⟨commitGo s n false b, execBundleCommit_go hh ho hplan hheld, fun hend k w => commitGo_parks hend, fun hr hw =>
    ⟨?results, ?fork, ?yield, ?trap, ?parrive, fun hfin ha hwin s2 => commitGo_ends hfin hr hw ha hwin⟩⟩
  case results =>
    intro hfin ha
    rw [commitGo_stays hfin hw (by simp [ha, staysRunning]), commitEffects_results hr ha]
    exact commitResults_frame s n b
  case fork =>
    intro hfin pc link join carry ha hroom
    rw [commitGo_stays hfin hw (by simp [ha, staysRunning])]
    exact commitEffects_fork hr ha hroom
  case yield => exact fun hfin ha hroom => commitGo_yield hfin hr hw ha hroom
  case trap =>
    intro hfin code ha
    rw [commitGo_stays hfin hw (by simp [ha, staysRunning])]
    exact commitEffects_trap hh hr ha
  case parrive =>
    intro hfin rel p ha hp hid
    rw [commitGo_stays hfin hw (by simp [ha, staysRunning])]
    obtain ⟨hphase, hpacks⟩ := commitEffects_parrive hr ha hp
    refine ⟨hphase, { p with phase := p.phase + 1 }, ?_, rfl⟩
    rw [packGet?, hpacks, hid, mapGet?_mapPut_same]

end Sys2Proof.Machine

/-! # O45: precise traps, faults in flight, run faults and freeze timeouts stop the node -/

namespace Sys2Proof.Machine

open Sys2Proof

/-! ## A stop keeps the node in its table

`OnlyNode` says it of a package with one node; here any number of nodes stand, and one of them is followed through the commits
and the stops of its tiles. -/

section HasNode

variable {α : Type} {s u : State} {tile e n i slot agent seq asid cause : Nat} {v : Word} {b : Bundle} {sc : Scope}

/-- The package has a node under a given number. -/
def HasNode (i : Nat) (s : State) : Prop := ∃ nd, nodeGet? s i = some nd

theorem HasNode.of_nodes (h : HasNode i s) (e : u.nodes = s.nodes) : HasNode i u :=
  h.imp fun nd hnd => by rw [nodeGet?, e]; exact hnd

theorem HasNode.nodePut {j : Nat} {x : Node} (h : HasNode i s) : HasNode i (nodePut s j x) := by
  by_cases hj : i = j
  · subst hj
    exact ⟨x, nodeGet_nodePut_same ..⟩
  · exact h.imp fun nd hnd => (nodeGet_nodePut_other s x hj).trans hnd

theorem HasNode.foldl {f : State → α → State} {l : List α} (h : HasNode i s) (hf : ∀ s x, HasNode i s → HasNode i (f s x)) :
    HasNode i (l.foldl f s) :=
  foldl_keeps h hf

theorem HasNode.ite {c : Prop} [Decidable c] (h : HasNode i s) (h' : HasNode i u) : HasNode i (if c then s else u) := by
  split <;> assumption

theorem HasNode.demoteNode {j : Nat} (h : HasNode i s) : HasNode i (demoteNode s j tile agent) := by
  fun_cases Machine.demoteNode
  · exact h
  · exact h.nodePut.of_nodes nodeRec_nodes
  · exact h

theorem HasNode.demote (h : HasNode i s) : HasNode i (demote s tile agent) := by
  fun_cases Machine.demote
  · exact h
  · exact h.demoteNode

theorem HasNode.demoteAddFor {node : Option Nat} {r : ReelAt} (h : HasNode i s) :
    HasNode i (demoteAddFor s node tile agent r) := by
  fun_cases Machine.demoteAddFor
  · exact h
  · exact h.demoteNode
  · exact h
  · exact h.demoteNode

theorem HasNode.addFor {node : Option Nat} {r : ReelAt} (h : HasNode i s) :
    addFor s node asid tile agent r v sc = .ok u → HasNode i u := by
  fun_cases Machine.addFor
  · exact nofun
  · intro e
    have h1 : HasNode i (Machine.reelTouch s asid r) := h.of_nodes reelTouch_nodes
    exact h1.demoteAddFor.of_nodes ((reelAdd_nodes e).trans release_nodes)

theorem HasNode.addBy {r : ReelAt} (h : HasNode i s) : addBy s tile agent r v sc = .ok u → HasNode i u :=
  h.addFor

theorem HasNode.engAdd {addr : Word} (h : HasNode i s) : engAdd s tile agent addr v sc = .ok u → HasNode i u :=
  engThen_elim fun r _ => by
    split
    · rintro ⟨⟩
      exact h.addBy ‹_›
    · exact nofun

theorem HasNode.addOrOwe {node : Option Nat} {addr : Word} {c : Nat} (h : HasNode i s) :
    addOrOwe s node asid tile agent addr v sc = (u, c) → HasNode i u := by
  fun_cases Machine.addOrOwe
  · exact fun | rfl => h
  · exact fun | rfl => h
  · exact fun | rfl => h.addFor ‹_›
  · exact fun | rfl => h


theorem HasNode.dnAdd {halt : Bool} {r : Run} (h : HasNode i s) : dnAdd halt s tile e r = .ok u → HasNode i u := by
  unfold Machine.dnAdd
  extract_lets a addr sc done
  split
  · split
    · rintro ⟨⟩
      exact HasNode.of_nodes (h.addBy ‹_›) mxRun_nodes
    · exact nofun
  · refine engThen_elim fun s1 hs1 => ?_
    rintro ⟨⟩
    refine HasNode.of_nodes (s := s1) ?_ mxRun_nodes
    unfold done at hs1
    split at hs1
    · split at hs1
      · cases hs1
        exact h.addOrOwe ‹_›
      · cases hs1
    · exact h.engAdd hs1

theorem HasNode.drainRest {k : Nat} (h : HasNode i s) : HasNode i (drainRest tile e agent k s) := by
  fun_induction Machine.drainRest
  · exact h
  · exact h
  · rename_i ih
    exact ih (h.dnAdd ‹_›)
  · exact h
  · exact h
  · exact h
  · exact h
  · next s1 _ e2 ih =>
    have h1 : HasNode i s1 := .ite (h.of_nodes mxRun_nodes) h
    exact ih (h1.of_nodes (dnRowEnd_nodes e2))
  · exact h

theorem HasNode.mxStop (h : HasNode i s) : HasNode i (mxStop s tile e) :=
  .of_nodes (s := _)
    (.foldl (.foldl h fun _ _ h => h.of_nodes landRest_nodes) fun _ _ h => .ite h.drainRest h) engMap_nodes

theorem HasNode.stopTile {mask : Nat} (h : HasNode i s) : HasNode i (stopTile cause mask s tile) := by
  unfold Machine.stopTile
  extract_lets c seq s1 s2 t
  have h1 : HasNode i s1 := h.of_nodes undoTile_nodes
  exact h1.mxStop.mxStop.of_nodes (tilePut_nodes ..)

theorem HasNode.joinAdd (h : HasNode i s) : joinAdd s tile = .ok u → HasNode i u := by
  unfold Machine.joinAdd
  split
  · exact fun | rfl => h
  · split
    · exact fun | rfl => h
    · extract_lets addr
      refine engThen_elim fun r _ => ?_
      split
      · exact nofun
      · extract_lets s1
        have h0 : HasNode i (Machine.reelTouch s (tileAsid s tile) r) := h.of_nodes reelTouch_nodes
        have h1 : HasNode i s1 := h0.demoteAddFor.of_nodes coreSync_nodes
        split
        · rintro ⟨⟩
          exact h1.of_nodes (reelAdd_nodes ‹_›)
        · exact nofun

theorem HasNode.commitAct {a : Nat × CommitAct} (h : HasNode i s) : HasNode i (commitAct tile seq s a) := by
  fun_cases Machine.commitAct
  · exact h.of_nodes coreSync_nodes
  · exact h.of_nodes plainWrite_nodes
  · exact h
  · exact h.demote
  · exact .of_nodes (.ite (h.of_nodes agentPut_nodes) h) agentPut_nodes
  · exact .ite (h.of_nodes agentPut_nodes) h
  · exact h.of_nodes creelAdd_nodes
  · exact h
  · exact h.of_nodes leaseHeadGrant_nodes
  · exact h
  · exact h
  · exact h.of_nodes splitTile_nodes
  · exact h.of_nodes mergeTile_nodes
  · exact h.of_nodes arrive_nodes
  · exact h
  · exact h.of_nodes phasePass_nodes
  · exact h
  · exact h
  · exact h

theorem HasNode.slotActs {met : List SuspWait} {effs : List (Nat × Eff)} {late : Bool} {k : Nat} (h : HasNode i s) :
    HasNode i (slotActs tile b met effs late s k) := by
  unfold Machine.slotActs
  extract_lets s1 s2
  have h1 : HasNode i s1 := h.of_nodes (foldl_nodes fun _ _ => waitDone_nodes)
  have h2 : HasNode i s2 := h1.foldl fun _ _ h => h.commitAct
  refine h2.foldl fun s x h => ?_
  split
  · exact h.of_nodes (reelEff_nodes ‹_›)
  · exact h

theorem commitLeave_nodes (n : Nat) (b : Bundle) (s : State) : (commitLeave n b s).nodes = s.nodes := by
  unfold commitLeave
  extract_lets t r t' s3 s4
  have h3 : s3.nodes = s.nodes := ite_nodes rfl rfl
  have h4 : s4.nodes = s3.nodes := ite_nodes rfl rfl
  exact h4.trans h3

theorem commitStaged_nodes (s : State) (n seq : Nat) : (commitStaged s n seq).nodes = s.nodes :=
  foldLog_nodes.trans (corePut_nodes ..)

theorem HasNode.commitEffects {met : List SuspWait} (h : HasNode i s) : HasNode i (commitEffects s tile b met) := by
  rw [commitEffects_eq]
  generalize hs0 : (List.range 6).foldl _ s = s0
  have h0 : HasNode i s0 := hs0 ▸ h.foldl fun _ _ h => h.slotActs
  have h1 : HasNode i (commitStaged s0 tile b.seq) := h0.of_nodes (commitStaged_nodes ..)
  exact (h1.foldl fun _ _ h => h.commitAct).of_nodes (commitLeave_nodes ..)

theorem HasNode.endNow (h : HasNode i s) : HasNode i (endNow s tile seq) := by
  have h2 {k : Nat} : HasNode i (Machine.setOutstanding (Machine.leaveCore s tile seq) tile k) :=
    h.of_nodes (setOutstanding_nodes.trans leaveCore_nodes)
  fun_cases Machine.endNow
  · exact h2
  · exact h2.nodePut
  · exact h2
  · exact h2

theorem HasNode.commitGo {again : Bool} (h : HasNode i s) : HasNode i (commitGo s tile again b) := by
  unfold Machine.commitGo
  extract_lets met s1
  have h1 : HasNode i s1 := h.commitEffects
  split
  · split
    · exact HasNode.endNow (h1.joinAdd ‹_›)
    · exact h
  · split
    · exact h1
    · cases e : Machine.suspendAct s1 tile b with
      | none => exact h1
      | some s2 => exact h1.of_nodes (suspendAct_nodes e)
    · exact h1.of_nodes (parkOn_nodes.trans leaveCore_nodes)

theorem HasNode.commitBundle {again : Bool} (h : HasNode i s) : HasNode i (commitBundle again tile s) := by
  fun_cases Machine.commitBundle
  · exact h
  · exact h
  · exact h.of_nodes engAsk_nodes
  · exact h.of_nodes (foldl_nodes fun _ _ => rfl)
  · exact h
  · exact h
  · exact h
  · exact h.commitGo

theorem HasNode.settle (h : HasNode i s) : HasNode i (settle s tile) := by
  unfold Machine.settle
  extract_lets mates
  have hmates {s} : (mates s).nodes = s.nodes := by
    unfold mates
    extract_lets c
    split
    · exact ite_nodes rfl rfl
    · rfl
  exact h.foldl fun _ _ h => HasNode.commitBundle (h.of_nodes hmates)

theorem govCount_nodes : (govCount s tile).nodes = s.nodes := by
  unfold govCount
  exact ite_nodes rfl rfl

theorem noteBad_nodes {d : Due} : (noteBad s d).nodes = s.nodes := by
  unfold noteBad
  refine ite_nodes rfl (ite_nodes (ite_nodes ?_ rfl) rfl)
  exact govCount_nodes

theorem standSplit_nodes : (standSplit s tile).nodes = s.nodes := by
  unfold standSplit
  extract_lets t
  split
  · exact ite_nodes rfl rfl
  · rfl

theorem rasReport_nodes {nd : Node} {at' retries : Nat} {x : Trap} {stop : Bool} :
    (rasReport s n nd at' x stop retries).nodes = s.nodes := rfl

theorem alarm_nodes {d : Due} : (if d.trap.cause = causeResidue ∨ d.trap.cause = causeSilentError then govAlarm s d.tile
    else s).nodes = s.nodes :=
  ite_nodes govCount_nodes rfl

end HasNode

/-! ## An array that stops leaves every core, its halt, and the packs (13 R309 to R311) -/

section ArraySeats

variable {s u : State} {tile e n agent asid : Nat} {v : Word} {sc : Scope} {r : Run}

theorem engMap_sameSeats (s : State) (n e : Nat) (f : Engine → Engine) : SameSeats s (engMap s n e f) :=
  tilePut_sameSeats rfl rfl

theorem mxRun_sameSeats (s : State) (n e agent : Nat) (f : Run → Run) : SameSeats s (mxRun s n e agent f) :=
  engMap_sameSeats ..

theorem addFor_sameSeats {node : Option Nat} {r : ReelAt} (h : addFor s node asid tile agent r v sc = .ok u) :
    SameSeats s u := by
  unfold addFor at h
  split at h
  · cases h
  · exact (reelAdd_sameSeats h).after ((release_sameSeats ..).after ((demoteAddFor_sameSeats ..).after (reelTouch_sameSeats ..)))

theorem engAdd_sameSeats {addr : Word} : engAdd s tile agent addr v sc = .ok u → SameSeats s u :=
  engThen_elim fun r _ => by
    split
    · rintro ⟨⟩
      exact addFor_sameSeats ‹_›
    · exact nofun

theorem addOrOwe_sameSeats {node : Option Nat} {addr : Word} {c : Nat}
    (h : addOrOwe s node asid tile agent addr v sc = (u, c)) : SameSeats s u := by
  revert h
  fun_cases addOrOwe
  · exact fun | rfl => .refl s
  · exact fun | rfl => .of_eq rfl rfl
  · exact fun | rfl => addFor_sameSeats ‹_›
  · exact fun | rfl => .refl s

theorem dnAdd_sameSeats {halt : Bool} : dnAdd halt s tile e r = .ok u → SameSeats s u := by
  unfold dnAdd
  extract_lets a addr sc done
  split
  · split
    · rintro ⟨⟩
      exact (mxRun_sameSeats ..).after (addFor_sameSeats ‹_›)
    · exact nofun
  · refine engThen_elim fun s1 hs1 => ?_
    rintro ⟨⟩
    refine (mxRun_sameSeats ..).after ?_
    unfold done at hs1
    split at hs1
    · split at hs1
      · cases hs1
        exact addOrOwe_sameSeats ‹_›
      · cases hs1
    · exact engAdd_sameSeats hs1

theorem checkGran_sameSeats {a gran : Nat} {x : Agent} {write plain : Bool} {pend : Option (Nat × Nat)}
    (h : checkGran s a x gran write plain pend = .ok u) : SameSeats s u := by
  revert h
  fun_cases checkGran
  · exact nofun
  · exact fun | rfl => .refl s
  · exact nofun
  · exact fun | rfl => .of_eq rfl rfl

theorem checkGrans_sameSeats {a : Nat} {x : Agent} {write plain : Bool} {pend : Option (Nat × Nat)} {l : List Nat} :
    checkGrans s a x write plain pend l = .ok u → SameSeats s u := by
  fun_induction checkGrans
  · exact fun | rfl => .refl _
  · exact nofun
  · rename_i h ih
    exact fun hu => (checkGran_sameSeats h).trans (ih hu)

/-- The check of a drain's side accesses, all of them to pools, opens records. -/
theorem dnCheck_sameSeats {wr : Bool} {l : List DnUse} : dnCheck s tile agent wr l = .ok u → SameSeats s u := by
  fun_induction dnCheck
  · exact fun | rfl => .refl _
  · next s us y s1 h ih =>
    have h1 : SameSeats s s1 := by
      simp only [engCheck, engCheckAs, checkPiece] at h
      split at h
      · cases h
        exact checkGrans_sameSeats ‹_›
      · cases h
    exact fun hu => h1.trans (ih hu)
  · exact nofun
  · exact fun | rfl => .refl _

theorem poolClean_sameSeats (s : State) (tile off n : Nat) : SameSeats s (poolClean s tile off n) := by
  unfold poolClean
  split <;> exact .of_eq rfl rfl

theorem poolWrite_sameSeats (s : State) (tile off : Nat) (bs : List Byte) : SameSeats s (poolWrite s tile off bs) :=
  SameSeats.after (tilePut_sameSeats rfl rfl) (poolClean_sameSeats ..)

theorem plainWrite_sameSeats (s : State) (l : List Nat) : SameSeats s (plainWrite s l) :=
  .ite (.refl s) (.of_eq rfl rfl)

theorem dnPut_sameSeats {x : DnUse × DrainOut} : dnPut tile s x = .ok u → SameSeats s u := by
  unfold dnPut
  extract_lets put
  have hput {off : Nat} {bs : List Byte} : put off bs = .ok u → SameSeats s u := by
    unfold put
    simp only [pieceWrite]
    split
    · next h =>
      split at h
      · cases h
      · cases h
        exact fun | rfl => (poolWrite_sameSeats ..).after (plainWrite_sameSeats ..)
    · exact nofun
    · exact fun | rfl => .refl s
  split
  · exact hput
  · exact hput
  · exact fun | rfl => .refl s

theorem dnPutAll_sameSeats {l : List (DnUse × DrainOut)} : dnPutAll tile s l = .ok u → SameSeats s u := by
  fun_induction dnPutAll
  · exact fun | rfl => .refl _
  · rename_i h ih
    exact fun hu => (dnPut_sameSeats h).trans (ih hu)
  · exact nofun

theorem dnRowEnd_sameSeats {y : RowOut} : dnRowEnd s tile e r y = .ok u → SameSeats s u := by
  fun_cases dnRowEnd
  · exact nofun
  · exact nofun
  · exact nofun
  · next e1 _ e2 _ _ _ _ =>
    rintro ⟨⟩
    refine (engMap_sameSeats ..).after (SameSeats.after (tilePut_sameSeats ?_ ?_)
      ((dnPutAll_sameSeats e2).after (dnCheck_sameSeats e1)))
    · rfl
    · rfl

theorem dqGo_sameSeats (s : State) (tile e : Nat) (r : Run) (i : Nat) : SameSeats s (dqGo s tile e r i) :=
  (mxRun_sameSeats ..).after (.of_eq rfl rfl)

theorem drainRest_sameSeats {k : Nat} : SameSeats s (drainRest tile e agent k s) := by
  fun_induction drainRest
  · exact .refl _
  · exact .refl _
  · rename_i ih
    exact ih.after (dnAdd_sameSeats ‹_›)
  · exact mxRun_sameSeats ..
  · exact engMap_sameSeats ..
  · exact .refl _
  · exact mxRun_sameSeats ..
  · next s1 _ e2 ih =>
    have h1 : SameSeats _ s1 := .ite (dqGo_sameSeats ..) (.refl _)
    exact ih.after ((dnRowEnd_sameSeats e2).after h1)
  · exact mxRun_sameSeats ..

theorem landStep_sameSeats (s : State) (tile e : Nat) (r : Run) : SameSeats s (landStep s tile e r) := by
  unfold landStep
  extract_lets c g row s1 t s2
  have h1 : SameSeats s s1.1 :=
    foldl_keeps (p := fun x : State × Nat => SameSeats s x.1) (.refl s) fun _ _ h => (poolWrite_sameSeats ..).after h
  have h2 : SameSeats s1.1 s2 := by
    unfold s2 wmarkLand wmarkMap
    split
    · split <;> exact tilePut_sameSeats rfl rfl
    · exact tilePut_sameSeats rfl rfl
  exact (mxRun_sameSeats ..).after (h1.trans h2)

theorem landRest_sameSeats {k : Nat} : SameSeats s (landRest tile e n s k) := by
  fun_induction landRest
  · exact .refl _
  · exact .refl _
  · rename_i ih
    exact ih.after (landStep_sameSeats ..)
  · exact .refl _

theorem mxStop_sameSeats (s : State) (tile e : Nat) : SameSeats s (mxStop s tile e) := by
  unfold mxStop
  extract_lets s1 s2
  have h1 : SameSeats s s1 := .foldl (fun _ _ => landRest_sameSeats) ..
  have h2 : SameSeats s1 s2 := .foldl (fun _ _ => .ite drainRest_sameSeats (.refl _)) ..
  exact (engMap_sameSeats ..).after (h1.trans h2)

/-- An array with no command only brings its PROG up to date. -/
theorem mxStop_idle (h : (engGet (tileGet s tile) e).runs = []) : mxStop s tile e = engMap s tile e progSync := by
  simp [mxStop, h]

end ArraySeats

/-! ## The stop of a tile (18 R397) -/

section StopTile

variable {s u : State} {n cause mask : Nat} {b : Bundle}

theorem undoFrom_regs (c : Core) (seq : Nat) : (undoFrom c seq).regs = c.regs := by
  unfold undoFrom
  extract_lets
  split <;> rfl

theorem takeStop_regs (c : Core) (cause mask kind : Nat) : (takeStop c cause mask kind).regs = c.regs := by
  unfold takeStop
  split <;> exact undoFrom_regs ..

theorem takeStop_stopCause (c : Core) (cause mask kind : Nat) : (takeStop c cause mask kind).stopCause = cause := rfl

/-- With nothing left to undo, the core stops where it stands. -/
theorem takeStop_empty {c : Core} (h : c.window = []) (cause mask kind : Nat) :
    (takeStop c cause mask kind).window = [] ∧ (takeStop c cause mask kind).pc = c.pc := by
  have hu : undoFrom c c.nextSeq = { c with cur := none, decodeStop := none, lineWait := none, pageWait := none } := by
    simp [undoFrom, h]
  simp [takeStop, h, hu]

/-- Undoing from the oldest bundle on empties the window, and the core goes back to it. -/
theorem undoFrom_oldest {c : Core} {l : List Bundle} (hw : c.window = b :: l) (hl : ∀ x ∈ l, b.seq ≤ x.seq) :
    (undoFrom c b.seq).window = [] ∧ (undoFrom c b.seq).pc = b.pc := by
  have hfind : (c.window.find? fun x => !decide (x.seq < b.seq)) = some b := by simp [hw]
  have hfilter : (c.window.filter fun x => decide (x.seq < b.seq)) = [] := by
    rw [hw]
    refine List.filter_eq_nil_iff.mpr fun x hx => ?_
    rcases List.mem_cons.mp hx with rfl | hx
    · simp
    · simpa using hl x hx
  simp [undoFrom, hfind, hfilter]

/-- The oldest bundle of a core, or the one that it takes next. -/
def oldestSeq (c : Core) : Nat := match c.window with | b :: _ => b.seq | [] => c.nextSeq

/-- The tile's arrays as the stop leaves them (13 R309). -/
def arraysStopped (s : State) (n : Nat) : State := mxStop (mxStop (undoTile s n (oldestSeq (coreGet s n))) n 0) n 1

theorem stopTile_eq (cause mask : Nat) (s : State) (n : Nat) : stopTile cause mask s n =
    tilePut (arraysStopped s n) n { tileGet (arraysStopped s n) n with
      core := takeStop (coreGet (arraysStopped s n) n) cause mask 2, halted := true,
      frzNs := frozenNs (arraysStopped s n) (tileGet (arraysStopped s n) n), walkBad := [] } := rfl

theorem undoTile_cores (s : State) (n seq : Nat) : coreGet (undoTile s n seq) n = undoFrom (coreGet s n) seq ∧
    ∀ k, k ≠ n → coreGet (undoTile s n seq) k = coreGet s k ∧ (tileGet (undoTile s n seq) k).halted = (tileGet s k).halted := by
  obtain ⟨s3, h, -, -, he⟩ := undoTile_eq s n seq
  refine ⟨?_, fun k hk => ?_⟩
  · obtain ⟨engines, ht⟩ := undoTile_tile s n seq
    rw [coreGet, ht]
  · obtain ⟨engines, ht, -⟩ := h k
    rw [he, coreGet, tileGet_tilePut_other _ _ hk, ht]
    exact ⟨rfl, rfl⟩

theorem arraysStopped_sameSeats (s : State) (n : Nat) :
    SameSeats (undoTile s n (oldestSeq (coreGet s n))) (arraysStopped s n) :=
  (mxStop_sameSeats ..).trans (mxStop_sameSeats ..)

theorem coreGet_stopTile (cause mask : Nat) (s : State) (n : Nat) :
    coreGet (stopTile cause mask s n) n = takeStop (undoFrom (coreGet s n) (oldestSeq (coreGet s n))) cause mask 2 := by
  rw [stopTile_eq, coreGet, tileGet_tilePut_same, (arraysStopped_sameSeats s n).core, (undoTile_cores ..).1]

theorem stopTile_halted (cause mask : Nat) (s : State) (n : Nat) : (tileGet (stopTile cause mask s n) n).halted = true := by
  rw [stopTile_eq, tileGet_tilePut_same]

theorem stopTile_other {k : Nat} (hk : k ≠ n) : coreGet (stopTile cause mask s n) k = coreGet s k ∧
    (tileGet (stopTile cause mask s n) k).halted = (tileGet s k).halted := by
  obtain ⟨hc, hh⟩ := (undoTile_cores s n (oldestSeq (coreGet s n))).2 k hk
  have hseats := arraysStopped_sameSeats s n
  rw [stopTile_eq, coreGet, tileGet_tilePut_other _ _ hk]
  exact ⟨(hseats.core k).trans hc, (hseats.halted k).trans hh⟩

/-- With no reserved granule, undoing writes no byte of memory. -/
theorem undoReserved_frame (s : State) (n seq : Nat) : (undoReserved s n seq).mem = s.mem ∧
    (undoReserved s n seq).records = s.records := by
  unfold undoReserved
  extract_lets acts forks s1
  have h1 : s1.mem = s.mem ∧ s1.records = s.records := by
    unfold s1 setOutstanding
    split
    · exact ⟨rfl, rfl⟩
    · split <;> exact ⟨rfl, rfl⟩
  refine foldl_keeps (p := fun u : State => u.mem = s.mem ∧ u.records = s.records) h1 fun u a hu => ?_
  split <;> exact hu

theorem undoTile_frame (s : State) (n seq : Nat) :
    (∀ i, (engGet (tileGet (undoTile s n seq) n) i).runs = (engGet (tileGet s n) i).runs) ∧
      ((∀ r ∈ s.records, r.pend = none) → (undoTile s n seq).mem = s.mem) := by
  obtain ⟨s3, h, -, hm, he⟩ := undoTile_eq s n seq
  obtain ⟨hmem, hrec⟩ := undoReserved_frame s n seq
  obtain ⟨-, -, hruns⟩ := h n
  refine ⟨fun i => ?_, fun hpend => ?_⟩
  · rw [he, tileGet_tilePut_same]
    exact (engGet_bufsKept (tileGet s3 n) seq i).trans (hruns i)
  · have hall : (undoReserved s n seq).records.all (fun r => r.pend.isNone) = true := by
      rw [hrec]
      simpa using hpend
    rw [he]
    exact (hm hall).trans hmem

theorem engMap_mem (s : State) (n e : Nat) (f : Engine → Engine) : (engMap s n e f).mem = s.mem := rfl

/-- Arrays with no command write no byte of memory as they stop. -/
theorem mxStop_mem (h0 : (engGet (tileGet s n) 0).runs = []) (h1 : (engGet (tileGet s n) 1).runs = []) :
    (mxStop (mxStop s n 0) n 1).mem = s.mem := by
  rw [mxStop_idle h0, mxStop_idle, engMap_mem, engMap_mem]
  rw [engGet_engMap_other _ _ _ (by decide)]
  exact h1

/-- Nothing in its arrays and no reserved granule: the stop of a tile writes no byte of memory. -/
theorem stopTile_mem (h0 : (engGet (tileGet s n) 0).runs = []) (h1 : (engGet (tileGet s n) 1).runs = [])
    (hp : ∀ r ∈ s.records, r.pend = none) : (stopTile cause mask s n).mem = s.mem := by
  obtain ⟨hruns, hmem⟩ := undoTile_frame s n (oldestSeq (coreGet s n))
  have harrays : (arraysStopped s n).mem = (undoTile s n (oldestSeq (coreGet s n))).mem :=
    mxStop_mem ((hruns 0).trans h0) ((hruns 1).trans h1)
  rw [stopTile_eq, tilePut_mem, harrays, hmem hp]

end StopTile

/-! ## The stop of a node (18 R399) -/

section StopNode

variable {s : State} {n i : Nat} {nd : Node}

/-- A node that stands as stopped, with every one of these tiles. -/
def NodeStopped (i : Nat) (tiles : List Nat) (u : State) : Prop :=
  (∃ x, nodeGet? u i = some x ∧ x.st = .stopped) ∧ ∀ k ∈ tiles, (tileGet u k).halted = true

/-- The tiles stop one after the other; a tile that has stopped stays so as another does. -/
theorem foldl_stopTile_halted {f : State → Nat → State} {cause : Nat} (hf : ∀ s k, ∃ mask, f s k = stopTile cause mask s k)
    {l : List Nat} {k : Nat} (hk : k ∈ l) (s : State) : (tileGet (l.foldl f s) k).halted = true := by
  refine foldl_brings (q := fun u => (tileGet u k).halted = true) hk (fun u => ?_) (fun u j _ hj hu => ?_) s
  · obtain ⟨mask, h⟩ := hf u k
    rw [h]
    exact stopTile_halted ..
  · obtain ⟨mask, h⟩ := hf u j
    rw [h, (stopTile_other (Ne.symm hj)).2]
    exact hu

/-- A node that does not restart stops, whichever of its agents trap (18 R399; 19 R435). -/
theorem stopNode_stopped (l : List Due) (hnd : nodeGet? s i = some nd) (hre : nd.restart = false) :
    NodeStopped i nd.tiles (stopNode s i l) := by
  have h0 : HasNode i s := ⟨nd, hnd⟩
  unfold stopNode
  simp -zeta only [hnd]
  extract_lets s1 alarms bad again cause s2 s3 s4 s5 s6
  have h1 : HasNode i s1 := h0.of_nodes (foldl_nodes fun _ _ => noteBad_nodes)
  have h2 : HasNode i s2 := h1.foldl fun _ _ h => h.settle
  have h3 : HasNode i s3 := h2.foldl fun _ _ h => h.of_nodes nodeRec_nodes
  have halarms (u : State) (h : HasNode i u) : HasNode i (alarms u) :=
    foldl_keeps (p := HasNode i) h fun _ d h => h.of_nodes (alarm_nodes (d := d))
  have h4 : HasNode i s4 := halarms s3 h3
  have h5 : HasNode i s5 := by
    unfold s5
    cases bad with
    | none => exact h4
    | some d => exact h4.of_nodes rasReport_nodes
  have h6 : HasNode i s6 := h5.foldl fun _ _ h => h.stopTile
  have hhalted : ∀ k ∈ nd.tiles, (tileGet s6 k).halted = true := by
    intro k hk
    unfold s6
    exact foldl_stopTile_halted (fun _ _ => ⟨_, rfl⟩) hk s5
  have hagain : again = false := by
    unfold again
    cases bad <;> simp [hre]
  clear_value s6 again bad
  obtain ⟨x, hx⟩ := h6
  simp only [hx]
  split
  · cases hagain
  · exact ⟨⟨_, nodeGet_nodePut_same .., rfl⟩, hhalted⟩

theorem stopAt_stopped (more : List Due) (ht : (tileGet s n).node = some i) (hnd : nodeGet? s i = some nd)
    (hre : nd.restart = false) : NodeStopped i nd.tiles (stopAt s n more) := by
  have hsplit : nodeGet? (nd.tiles.foldl standSplit s) i = some nd := by
    rw [nodeGet?, foldl_nodes fun _ _ => standSplit_nodes]
    exact hnd
  simp only [stopAt, ht, hnd, Option.map_some, Option.getD_some]
  exact stopNode_stopped _ hsplit hre

/-- A freeze whose watchdog has run out stops the node, as the freeze ends (05 R121, R122). -/
theorem freezeTimeout_stopped {f : Freeze} (hpick : pickTurn s (lateFreezes s) = some (n, f)) (ht : (tileGet s n).node = some i)
    (hnd : nodeGet? s i = some nd) (hre : nd.restart = false) : NodeStopped i nd.tiles (freezeTimeout s) := by
  simp only [freezeTimeout, hpick]
  refine stopAt_stopped _ ?_ hnd hre
  rw [tileGet_tilePut_same]
  exact ht

end StopNode

/-- Settles O45: each of the four events comes to the stop of the tile's node; the node stays in its table through the commits and
stops of its tiles, and each tile that stops stays stopped as the others do. -/
theorem trapsStopTheNode : Obligations.TrapsStopTheNode := by
  unfold Obligations.TrapsStopTheNode
  intro tile s nid nd n t stopped
  refine ⟨fun ht hnd hre => ⟨fun ho hx => ⟨?_, ?_⟩, fun hh hf => ⟨?_, ?_⟩, fun hp => ⟨?_, ?_⟩, fun f hp => ?_⟩,
    fun cause mask => ⟨stopTile_halted .., ?_, fun h0 h1 => ⟨?_, fun b l hw hl => ?_, fun k hk => (stopTile_other hk).1,
      stopTile_mem h0 h1⟩⟩⟩
  · refine congrArg Host.Outcome.next (if_pos ?_)
    rw [ho, Bool.true_and]
    exact hx
  · exact stopAt_stopped [] ht hnd hre
  · refine congrArg Host.Outcome.next (if_pos ?_)
    simp only [t] at hh hf
    simp [n, hh, hf]
  · exact stopAt_stopped [] ht hnd hre
  · exact congrArg Host.Outcome.next (by simp only [runFault, hp])
  · exact stopAt_stopped [] ht hnd hre
  · exact ⟨_, rfl, freezeTimeout_stopped hp ht hnd hre⟩
  · rw [coreGet_stopTile, takeStop_stopCause]
  · rw [coreGet_stopTile, takeStop_regs, undoFrom_regs]
    rfl
  · have hseq : oldestSeq (coreGet s n) = b.seq := by
      have hw' : (coreGet s n).window = b :: l := hw
      simp [oldestSeq, hw']
    obtain ⟨hempty, hpc⟩ := undoFrom_oldest (c := coreGet s n) hw hl
    obtain ⟨hempty', hpc'⟩ := takeStop_empty hempty cause mask 2
    rw [coreGet_stopTile, hseq]
    exact ⟨hempty', hpc'.trans hpc⟩

end Sys2Proof.Machine

/-! # O9 to O13, O15: the scalar operations of slots xa and xb -/

namespace Sys2Proof.Machine
open Sys2Proof

section ScalarOperations

/-! ## The meaning of a scalar operation: the frame of 07 R163 with a function of its own -/

/-- An operation of slots xa and xb, with its latch and its latency, is the shared frame with some function of its operands. -/
def IsScalar (row : (BitVec 8 → Bool → SOp → Instr) × Nat × Nat) : Prop :=
  ∀ tile hi o, ∃ extra f, ∀ s,
    exec (row.1 tile hi o) s = scalarOp (row.1 tile hi o) tile hi o row.2.1 row.2.2 extra f s

theorem isScalar_scalarRows : ∀ row ∈ scalarRows, IsScalar row := by
  simp only [scalarRows, integerRows, fieldRows, moveRows, compareRows, floatRows, rowOf, rowOf1, List.map_cons, List.map_nil,
    List.cons_append, List.nil_append, List.forall_mem_cons, List.not_mem_nil, false_implies, implies_true, and_true]
  repeat' apply And.intro
  all_goals exact fun _ _ _ => ⟨_, _, fun _ => rfl⟩

/-- A row of the scalar class completes with its value in its latch and its destination, and sets no flag. -/
def RowRuns (r : ScalarRow) : Prop :=
  ∀ (tile : BitVec 8) (hi : Bool) (o : SOp) (s : State) (b : Bundle),
    Ready (r.op tile hi o) tile.toNat (xSlot hi) s b → guardTrue s tile.toNat o.guard = true →
    exec (r.op tile hi o) s =
      .next (scalarDone s tile hi o b r.latch r.lat (r.val o (scalarArg s tile hi o b 0) (scalarArg s tile hi o b 1)) 0)

variable {op : BitVec 8 → Bool → SOp → Instr} {latch lat : Nat}

theorem rowRuns_of_exec {val : SOp → RV → RV → RV}
    (he : ∀ tile hi o s, exec (op tile hi o) s =
      scalarOp (op tile hi o) tile hi o latch lat [] (fun _ _ a b => (val o a b, 0)) s) :
    RowRuns ⟨op, latch, lat, val⟩ :=
  fun tile hi o s _ h g => (he tile hi o s).trans (scalarOp_done h g)

theorem rowRuns_pure2 {f g : SOp → Word → Word → Word}
    (he : ∀ tile hi o s, exec (op tile hi o) s = scalarOp (op tile hi o) tile hi o latch lat [] (pure2 (f o)) s)
    (hf : ∀ o a b, f o a b = g o a b) : RowRuns (rowOf op latch lat g) := by
  obtain rfl : f = g := by funext o a b; exact hf o a b
  exact rowRuns_of_exec he

theorem rowRuns_pure1 {f g : SOp → Word → Word}
    (he : ∀ tile hi o s, exec (op tile hi o) s = scalarOp (op tile hi o) tile hi o latch lat [] (pure1 (f o)) s)
    (hf : ∀ o a, f o a = g o a) : RowRuns (rowOf1 op latch lat g) := by
  obtain rfl : f = g := by funext o a; exact hf o a
  exact rowRuns_of_exec he

/-! ## The integer functions are the formulas of 07 R164 -/

theorem divSigned_eq (a b : Word) :
    divSigned a b = if b = 0 then BitVec.allOnes 64 else BitVec.ofInt 64 (a.toInt.tdiv b.toInt) := by
  have h : a.sdiv b = BitVec.ofInt 64 (a.toInt.tdiv b.toInt) :=
    BitVec.eq_of_toInt_eq (by rw [BitVec.toInt_sdiv, BitVec.toInt_ofInt])
  rw [divSigned, h]

theorem divUnsigned_eq (a b : Word) :
    divUnsigned a b = if b = 0 then BitVec.allOnes 64 else BitVec.ofNat 64 (a.toNat / b.toNat) := by
  rw [divUnsigned, ← BitVec.toNat_udiv, BitVec.ofNat_toNat, BitVec.setWidth_eq]

theorem remSigned_eq (a b : Word) : remSigned a b = if b = 0 then a else BitVec.ofInt 64 (a.toInt.tmod b.toInt) := by
  rw [remSigned, ← BitVec.toInt_srem, BitVec.ofInt_toInt]

theorem remUnsigned_eq (a b : Word) : remUnsigned a b = if b = 0 then a else BitVec.ofNat 64 (a.toNat % b.toNat) := by
  rw [remUnsigned, ← BitVec.toNat_umod, BitVec.ofNat_toNat, BitVec.setWidth_eq]

theorem shiftLeft64_eq (a b : Word) : shiftLeft64 a b = BitVec.ofNat 64 (a.toNat * 2 ^ b.toNat) := by
  apply BitVec.eq_of_toNat_eq
  rw [BitVec.toNat_ofNat, shiftLeft64]
  split
  · rw [BitVec.toNat_shiftLeft, Nat.shiftLeft_eq]
  next h =>
    have hb : 64 ≤ b.toNat := BitVec.not_lt.1 h
    exact (Nat.mod_eq_zero_of_dvd ((Nat.pow_dvd_pow 2 hb).mul_left _)).symm

theorem shiftRight64_eq (a b : Word) : shiftRight64 a b = BitVec.ofNat 64 (a.toNat / 2 ^ b.toNat) := by
  apply BitVec.eq_of_toNat_eq
  rw [BitVec.toNat_ofNat, Nat.mod_eq_of_lt ((Nat.div_le_self ..).trans_lt a.isLt), shiftRight64]
  split
  · rw [BitVec.toNat_ushiftRight, Nat.shiftRight_eq_div_pow]
  next h =>
    have hb : 64 ≤ b.toNat := BitVec.not_lt.1 h
    exact (Nat.div_eq_of_lt (a.isLt.trans_le (Nat.pow_le_pow_right two_pos hb))).symm

/-- From 63 places on, an arithmetic right shift leaves the sign alone. -/
theorem toInt_div_two_pow_of_le (a : Word) {n : Nat} (h : 63 ≤ n) : a.toInt / 2 ^ n = a.toInt / 2 ^ 63 := by
  have hp : (2 : Int) ^ 63 ≤ 2 ^ n := pow_le_pow_right₀ (by decide) h
  have hlo : -2 ^ 63 ≤ a.toInt := BitVec.le_toInt a
  have hhi : a.toInt < 2 ^ 63 := BitVec.toInt_lt
  obtain hs | hs := lt_or_ge a.toInt 0
  · rw [Int.ediv_eq_neg_one_of_neg_of_le hs (by omega), Int.ediv_eq_neg_one_of_neg_of_le hs (by omega)]
  · rw [Int.ediv_eq_zero_of_lt hs (by omega), Int.ediv_eq_zero_of_lt hs hhi]

theorem shiftArith64_eq (a b : Word) : shiftArith64 a b = BitVec.ofInt 64 (a.toInt / 2 ^ b.toNat) := by
  have h (n : Nat) : a.sshiftRight n = BitVec.ofInt 64 (a.toInt / 2 ^ n) := by
    have := BitVec.ofInt_toInt (x := a.sshiftRight n)
    rw [BitVec.toInt_sshiftRight, Int.shiftRight_eq_div_pow] at this
    exact_mod_cast this.symm
  rw [shiftArith64, h]
  split
  · rfl
  next hb =>
    have hb : 64 ≤ b.toNat := BitVec.not_lt.1 hb
    rw [toInt_div_two_pow_of_le a (by omega : 63 ≤ b.toNat)]

theorem rotl64_eq (a : Word) (n : Nat) : rotl64 a (n % 64) = a.rotateLeft (n % 64) := (BitVec.rotateLeft_def ..).symm

/-- A choice by the signed order of words is one by the order of the integers. -/
theorem ite_slt (a b x y : Word) : (if a.slt b then x else y) = if a.toInt < b.toInt then x else y := by
  simp [BitVec.slt]

/-- Every integer operation has its formula (07 R164). -/
theorem rowRuns_integerRows : ∀ row ∈ integerRows, RowRuns row := by
  simp only [integerRows, List.cons_append, List.nil_append, List.forall_mem_cons, List.not_mem_nil, false_implies,
    implies_true, and_true]
  refine ⟨rowRuns_of_exec ?_, rowRuns_of_exec ?_, rowRuns_of_exec ?_,
    rowRuns_pure2 ?_ fun _ _ _ => rfl, rowRuns_pure2 ?_ fun _ _ _ => rfl,
    rowRuns_pure2 ?_ fun _ => divSigned_eq, rowRuns_pure2 ?_ fun _ => divUnsigned_eq,
    rowRuns_pure2 ?_ fun _ => remSigned_eq, rowRuns_pure2 ?_ fun _ => remUnsigned_eq,
    rowRuns_pure2 ?_ fun _ _ _ => rfl, rowRuns_pure2 ?_ fun _ _ _ => rfl, rowRuns_pure2 ?_ fun _ _ _ => rfl,
    rowRuns_pure2 ?_ fun _ _ _ => rfl,
    rowRuns_pure2 ?_ fun _ => shiftLeft64_eq, rowRuns_pure2 ?_ fun _ => shiftRight64_eq, rowRuns_pure2 ?_ fun _ => shiftArith64_eq,
    rowRuns_pure2 ?_ fun _ a b => rotl64_eq a b.toNat,
    rowRuns_pure2 ?_ fun _ a b => ite_slt b a b a, rowRuns_pure2 ?_ fun _ a b => ite_slt a b b a,
    rowRuns_pure2 ?_ fun _ _ _ => rfl, rowRuns_pure2 ?_ fun _ _ _ => rfl,
    rowRuns_pure1 ?_ fun _ _ => rfl, rowRuns_pure1 ?_ fun _ _ => rfl, rowRuns_pure1 ?_ fun _ _ => rfl,
    rowRuns_pure1 ?_ fun _ _ => rfl⟩
  all_goals exact fun _ _ _ _ => rfl

/-! ### Counts of bits -/

theorem bitLen_of_ne_zero {n : Nat} (h : n ≠ 0) : bitLen n = n.log2 + 1 := if_neg h

/-- clz counts the zero bits above the highest 1 bit. -/
theorem leadingZeros_spec {a : Word} (h : a ≠ 0) : (leadingZeros a).toNat < 64 ∧
    a.getLsbD (63 - (leadingZeros a).toNat) = true ∧ ∀ j, 63 - (leadingZeros a).toNat < j → a.getLsbD j = false := by
  have hn : a.toNat ≠ 0 := BitVec.toNat_ne_iff_ne.2 h
  have hlog : a.toNat.log2 < 64 := (Nat.log2_lt hn).2 a.isLt
  have hz : (leadingZeros a).toNat = 63 - a.toNat.log2 := by
    rw [leadingZeros, bitLen_of_ne_zero hn, BitVec.toNat_ofNat]
    omega
  have htop : 63 - (leadingZeros a).toNat = a.toNat.log2 := by omega
  rw [htop]
  refine ⟨by omega, ?_, fun j hj => ?_⟩
  · rw [← BitVec.testBit_toNat]
    exact Nat.testBit_log2 hn
  · rw [← BitVec.testBit_toNat]
    exact Nat.testBit_lt_two_pow ((Nat.log2_lt hn).1 hj)

/-- The search from an index on is the search of the list, shifted. -/
theorem findIdxFrom_eq {α : Type} (p : α → Bool) (l : List α) (i : Nat) :
    findIdxFrom p l i = (l.findIdx? p).map (· + i) := by
  induction l generalizing i with
  | nil => rfl
  | cons x xs ih =>
    rw [findIdxFrom, ih, List.findIdx?_cons]
    split
    · simp
    · simp [Option.map_map, Function.comp_def, Nat.add_right_comm, Nat.add_assoc]

theorem trailingZeros_eq (a : Word) :
    trailingZeros a = BitVec.ofNat 64 (((List.range 64).findIdx? fun i => a.getLsbD i).getD 64) := by
  rw [trailingZeros, findIdxFrom_eq]
  simp

/-- ctz counts the zero bits below the lowest 1 bit. -/
theorem trailingZeros_spec {a : Word} (h : a ≠ 0) : (trailingZeros a).toNat < 64 ∧
    a.getLsbD (trailingZeros a).toNat = true ∧ ∀ j < (trailingZeros a).toNat, a.getLsbD j = false := by
  obtain ⟨_, htop, -⟩ := leadingZeros_spec h
  cases hk : (List.range 64).findIdx? fun i => a.getLsbD i with
  | none =>
    have := List.findIdx?_eq_none_iff.1 hk (63 - (leadingZeros a).toNat) (List.mem_range.2 (by omega))
    simp [htop] at this
  | some k =>
    obtain ⟨hlt, hset, hbelow⟩ := List.findIdx?_eq_some_iff_getElem.1 hk
    rw [List.length_range] at hlt
    have hz : (trailingZeros a).toNat = k := by
      rw [trailingZeros_eq, hk, Option.getD_some, BitVec.toNat_ofNat]
      omega
    rw [hz]
    exact ⟨hlt, by simpa using hset, fun j hj => by simpa using hbelow j hj⟩

theorem popCount_toNat (a : Word) : (popCount a).toNat = ((List.range 64).filter fun j => a.getLsbD j).length := by
  have h := List.length_filter_le (fun j => a.getLsbD j) (List.range 64)
  rw [List.length_range] at h
  rw [popCount, BitVec.toNat_ofNat]
  omega

/-! ## Fields, moves, compares and floating operations -/

/-- bext gives the field of a that the control value names (07 R165). -/
theorem fieldExtract_eq (a b : Word) : fieldExtract a b =
    (a >>> (b.toNat % 64)) &&& BitVec.ofNat 64 (2 ^ min (b.toNat / 64 % 128) 64 - 1) := by
  apply BitVec.eq_of_toNat_eq
  have hw : 2 ^ min (b.toNat / 64 % 128) 64 ≤ 2 ^ 64 := Nat.pow_le_pow_right two_pos (min_le_right ..)
  have hx : a.toNat / 2 ^ (b.toNat % 64) < 2 ^ 64 := (Nat.div_le_self ..).trans_lt a.isLt
  rw [fieldExtract, BitVec.toNat_and, BitVec.toNat_ofNat, BitVec.toNat_ofNat, BitVec.toNat_ushiftRight,
    Nat.shiftRight_eq_div_pow, Nat.mod_eq_of_lt ((Nat.mod_le ..).trans_lt hx),
    Nat.mod_eq_of_lt (Nat.sub_one_lt_of_le (Nat.two_pow_pos _) hw), Nat.and_two_pow_sub_one_eq_mod]

theorem rowRuns_fieldRows : ∀ row ∈ fieldRows, RowRuns row := by
  simp only [fieldRows, List.forall_mem_cons, List.not_mem_nil, false_implies, implies_true, and_true]
  exact ⟨rowRuns_pure2 (fun _ _ _ _ => rfl) fun _ => fieldExtract_eq, rowRuns_pure2 (fun _ _ _ _ => rfl) fun _ _ _ => rfl⟩

/-- lih puts the immediate below a shifted left by 16 (07 R167). -/
theorem shiftIn16_eq (a : Word) (imm : BitVec 17) :
    (a <<< 16 ||| (imm.setWidth 16).setWidth 64) = BitVec.ofNat 64 (a.toNat * 2 ^ 16 + imm.toNat % 2 ^ 16) := by
  have hor : a <<< 16 ||| (imm.setWidth 16).setWidth 64 = a <<< 16 + (imm.setWidth 16).setWidth 64 := by
    refine (BitVec.add_eq_or_of_and_eq_zero _ _ ?_).symm
    ext i
    obtain h | h := lt_or_ge i 16 <;> simp [h]
  rw [hor]
  apply BitVec.eq_of_toNat_eq
  simp [Nat.shiftLeft_eq]

theorem rowRuns_moveRows : ∀ row ∈ moveRows, RowRuns row := by
  simp only [moveRows, List.forall_mem_cons, List.not_mem_nil, false_implies, implies_true, and_true]
  exact ⟨rowRuns_of_exec fun _ _ _ _ => rfl, rowRuns_of_exec fun _ _ _ _ => rfl,
    rowRuns_pure1 (fun _ _ _ _ => rfl) fun o a => shiftIn16_eq a o.imm, rowRuns_of_exec fun _ _ _ _ => rfl⟩

theorem boolWord_eq (a b : Word) : boolWord (decide (a = b)) = flagWord (decide (a.toNat = b.toNat)) :=
  congrArg boolWord (decide_eq_decide.2 BitVec.toNat_inj.symm)

theorem boolWord_ne (a b : Word) : boolWord (decide (a ≠ b)) = flagWord (decide (a.toNat ≠ b.toNat)) :=
  congrArg boolWord (decide_eq_decide.2 BitVec.toNat_inj.symm.not)

theorem rowRuns_compareRows : ∀ row ∈ compareRows, RowRuns row := by
  simp only [compareRows, List.forall_mem_cons, List.not_mem_nil, false_implies, implies_true, and_true]
  refine ⟨rowRuns_pure2 ?_ fun _ => boolWord_eq, rowRuns_pure2 ?_ fun _ => boolWord_ne,
    rowRuns_pure2 ?_ fun _ _ _ => rfl, rowRuns_pure2 ?_ fun _ _ _ => rfl, rowRuns_pure2 ?_ fun _ _ _ => rfl,
    rowRuns_pure2 ?_ fun _ _ _ => rfl, rowRuns_pure2 ?_ fun _ _ _ => rfl,
    rowRuns_pure2 ?_ fun _ _ _ => congrArg boolWord (Bool.decide_and ..).symm,
    rowRuns_pure2 ?_ fun _ _ _ => congrArg boolWord (Bool.decide_or ..).symm, rowRuns_pure1 ?_ fun _ _ => rfl⟩
  all_goals exact fun _ _ _ _ => rfl

/-- sel's choice by a predicate as it is read is the choice by a guard on it (07 R144, R166). -/
theorem ite_plainRd_p (s : State) (tile : Nat) (n : BitVec 3) (x y : Word) :
    (if (plainRd s tile (.p n) 0).v = 0 then y else x) = if guardTrue s tile ⟨false, n⟩ then x else y := by
  by_cases h : n = 0
  · simp [plainRd, guardTrue, h, rvOf]
  · simp only [plainRd, guardTrue, if_neg h]
    simp

variable {tile : BitVec 8} {hi : Bool} {o : SOp} {s : State} {b : Bundle}

theorem sel_runs (h : Ready (.sel tile hi o) tile.toNat (xSlot hi) s b) (g : guardTrue s tile.toNat o.guard = true) :
    exec (.sel tile hi o) s = .next (scalarDone s tile hi o b 0 1 (remade [scalarArg s tile hi o b 0, scalarArg s tile hi o b 1]
      (if guardTrue s tile.toNat ⟨false, o.imm.setWidth 3⟩ then (scalarArg s tile hi o b 0).v else (scalarArg s tile hi o b 1).v))
      0) := by
  rw [← ite_plainRd_p]
  exact scalarOp_done h g

/-- Every floating operation on two sources sets the flags that its function raises (07 R168, R169). -/
theorem floatRows_run (g : guardTrue s tile.toNat o.guard = true) :
    ∀ row ∈ floatRows, Ready (row.op tile hi o) tile.toNat (xSlot hi) s b →
      exec (row.op tile hi o) s = .next (scalarDone s tile hi o b 2 4
        (float2 tile.toNat o (row.f o) s b (scalarArg s tile hi o b 0) (scalarArg s tile hi o b 1)).1
        (float2 tile.toNat o (row.f o) s b (scalarArg s tile hi o b 0) (scalarArg s tile hi o b 1)).2) := by
  simp only [floatRows, List.forall_mem_cons, List.not_mem_nil, false_implies, implies_true, and_true]
  exact ⟨(scalarOp_done · g), (scalarOp_done · g), (scalarOp_done · g), (scalarOp_done · g), (scalarOp_done · g), (scalarOp_done · g)⟩

end ScalarOperations

/-- Settles O9: every row is its formula, and the counts of bits count. -/
theorem integerOperations : Obligations.IntegerOperations := by
  unfold Obligations.IntegerOperations
  exact ⟨rowRuns_integerRows, ⟨by decide, by decide, fun _ h => ⟨leadingZeros_spec h, trailingZeros_spec h⟩⟩, popCount_toNat⟩

/-- Settles O10: both rows are their formulas. -/
theorem fieldOperations : Obligations.FieldOperations := rowRuns_fieldRows

/-- Settles O11: every row is its formula. -/
theorem moveOperations : Obligations.MoveOperations := rowRuns_moveRows

/-- Settles O12: every row is its formula, and sel's predicate is read as a guard is. -/
theorem compareOperations : Obligations.CompareOperations := by
  unfold Obligations.CompareOperations
  exact ⟨rowRuns_compareRows, fun _ _ _ _ _ h g => sel_runs h g⟩

/-- Settles O13: the frame with each operation's function. -/
theorem floatOperations : Obligations.FloatOperations := by
  unfold Obligations.FloatOperations
  intro tile hi o s b ctx x y g
  exact ⟨floatRows_run g, fun h => scalarOp_done h g, fun h => scalarOp_done h g⟩

/-- Settles O15: the frame is the same for every operation of the class. -/
theorem predicatedOffScalar : Obligations.PredicatedOffScalar := by
  unfold Obligations.PredicatedOffScalar
  intro row hrow tile hi o s b h g
  obtain ⟨extra, f, hexec⟩ := isScalar_scalarRows row hrow tile hi o
  rw [hexec]
  exact scalarOp_off h g

/-! # O16: residues -/

section Residues
variable {x y : RV} {v : Word} {r : Int}

/-- A residue that passes its check is the value mod 15, which is no poison (07 R170). -/
theorem toNat_residue (h : resBad x = false) : x.r.toNat = x.v.toNat % 15 := by
  simp only [resBad, Bool.or_eq_false_iff, decide_eq_false_iff_not, not_not] at h
  exact h.2.symm

theorem residue_ne_poison (h : resBad x = false) : x.r ≠ poison := by
  intro hp
  simp [resBad, hp, poison] at h

theorem rvOf_residue (v : Word) : (rvOf v).r.toNat = v.toNat % 15 := by
  simp only [rvOf, BitVec.toNat_ofNat]
  omega

theorem resBad_rvOf (v : Word) : resBad (rvOf v) = false := by
  have h := rvOf_residue v
  have hv : (rvOf v).v = v := rfl
  simp only [resBad, hv, h, Bool.or_eq_false_iff, decide_eq_false_iff_not, not_not, and_true]
  omega

/-- A residue number congruent to the value is the value's own residue. -/
theorem res15_eq (h : r % 15 = (v.toNat : Int) % 15) : (⟨v, res15 r⟩ : RV) = rvOf v := by
  rw [res15, h, rvOf]
  congr 1

theorem propagated_eq_rvOf (hx : resBad x = false) (hy : resBad y = false) (h : r % 15 = (v.toNat : Int) % 15) :
    propagated x y v r = rvOf v := by
  rw [propagated, if_neg (by simp [residue_ne_poison hx, residue_ne_poison hy]), res15_eq h]

theorem propagated_poison (h : x.r = poison ∨ y.r = poison) (v : Word) (r : Int) : propagated x y v r = ⟨v, poison⟩ := if_pos h

theorem propagated_v (x y : RV) (v : Word) (r : Int) : (propagated x y v r).v = v := by
  rw [propagated]
  split <;> rfl

/-- 2^64 is 1 modulo 15, so a carry counts 1 (07 R171). -/
theorem resAdd_eq_rvOf (hx : resBad x = false) (hy : resBad y = false) : resAdd x y = rvOf (x.v + y.v) := by
  refine propagated_eq_rvOf hx hy ?_
  have h1 := x.v.isLt
  have h2 := y.v.isLt
  rw [toNat_residue hx, toNat_residue hy, BitVec.toNat_add, boolNat]
  split
  next h => have := of_decide_eq_true h; omega
  next h => have : ¬ _ := fun hc => h (decide_eq_true hc); omega

/-- A borrow adds 2^64, which is 1 modulo 15 (07 R171). -/
theorem resSub_eq_rvOf (hx : resBad x = false) (hy : resBad y = false) : resSub x y = rvOf (x.v - y.v) := by
  refine propagated_eq_rvOf hx hy ?_
  rw [toNat_residue hx, toNat_residue hy, BitVec.toNat_sub, boolNat]
  have h1 := x.v.isLt
  have h2 := y.v.isLt
  split
  next h => have := of_decide_eq_true h; omega
  next h => have : ¬ _ := fun hc => h (decide_eq_true hc); omega

/-- The product is its low half and 2^64, or 1 modulo 15, times its high half (07 R171). -/
theorem resMul_eq_rvOf (hx : resBad x = false) (hy : resBad y = false) : resMul x y = rvOf (x.v * y.v) := by
  refine propagated_eq_rvOf hx hy ?_
  have hp : x.v.toNat * y.v.toNat < 2 ^ 64 * 2 ^ 64 := Nat.mul_lt_mul'' x.v.isLt y.v.isLt
  have hm := Nat.mul_mod x.v.toNat y.v.toNat 15
  rw [toNat_residue hx, toNat_residue hy, BitVec.toNat_mul, mulhUnsigned, BitVec.toNat_ofNat,
    Nat.mod_eq_of_lt (Nat.div_lt_of_lt_mul hp)]
  generalize x.v.toNat * y.v.toNat = p at hp hm ⊢
  generalize x.v.toNat % 15 * (y.v.toNat % 15) = q at hm ⊢
  omega

theorem remade_v (l : List RV) (v : Word) : (remade l v).v = v := by
  rw [remade]
  split <;> rfl

/-- A residue formed anew is poisoned exactly when an operand fails its check (07 R171). -/
theorem remade_poison_iff (l : List RV) (v : Word) : (remade l v).r = poison ↔ ∃ z ∈ l, resBad z = true := by
  rw [← List.any_eq_true, remade]
  split
  next h => exact iff_of_true rfl h
  next h => exact iff_of_false (residue_ne_poison (resBad_rvOf v)) h

end Residues

/-- Settles O16: a propagated residue is congruent to the value it stands beside, since 2^64 is 1 modulo 15. -/
theorem residuesPropagate : Obligations.ResiduesPropagate := by
  unfold Obligations.ResiduesPropagate
  intro x y l v
  refine ⟨fun hx hy => ⟨resAdd_eq_rvOf hx hy, resSub_eq_rvOf hx hy, resMul_eq_rvOf hx hy⟩, fun h => ?_, propagated_v .., propagated_v ..,
    propagated_v .., remade_v l v, remade_poison_iff l v, resBad_rvOf v⟩
  simp only [resAdd, resSub, resMul, propagated_poison h, and_self]

end Sys2Proof.Machine

/-! # O29, O30: where control goes -/

namespace Sys2Proof.Machine
open Sys2Proof

section Transfers
variable {e : LoopEnt} {es l : List LoopEnt} {pc next n : Nat} {exit : Int}

/-! ## The loop stack (07 R149, R150) -/

theorem exitTest_elsewhere (h : pc ≠ e.exit) : exitTest (e :: es) pc = (e :: es, pc) := if_neg h.symm

theorem exitTest_again (h : 1 < e.left) :
    exitTest (e :: es) e.exit = ({ e with left := e.left - 1 } :: es, e.start) := by
  rw [exitTest, if_pos rfl, if_neg (by omega)]

theorem exitTest_last (h : e.left ≤ 1) : exitTest (e :: es) e.exit = exitTest es e.exit := by
  rw [exitTest, if_pos rfl, if_pos h]

/-- Each time control reaches the exit one run fewer is left. -/
theorem repeat_exitTest (e : LoopEnt) (es : List LoopEnt) (n k : Nat) :
    Nat.repeat (fun x : List LoopEnt × Nat => exitTest x.1 e.exit) n ({ e with left := k + 1 + n } :: es, e.start) =
      ({ e with left := k + 1 } :: es, e.start) := by
  induction n generalizing k with
  | zero => rfl
  | succ n ih =>
    rw [Nat.repeat, show k + 1 + (n + 1) = k + 1 + 1 + n by omega, ih]
    exact exitTest_again (e := { e with left := k + 1 + 1 }) (by simp)

theorem loopEnter_behind (h : exit ≤ next) : loopEnter l next exit n = .error causeIllegalOperation := if_pos h

theorem loopEnter_skip (h : (next : Int) < exit) (hn : n = 0) : loopEnter l next exit n = .ok (exitTest l exit.toNat) := by
  rw [loopEnter, if_neg (by omega), if_pos hn]

theorem loopEnter_full (h : (next : Int) < exit) (hn : 0 < n) (hl : 4 ≤ l.length) :
    loopEnter l next exit n = .error causeLoopState := by
  rw [loopEnter, if_neg (by omega), if_neg (by omega), if_pos hl]

theorem loopEnter_push (h : (next : Int) < exit) (hn : 0 < n) (hl : l.length < 4) :
    loopEnter l next exit n = .ok (⟨next, exit.toNat, n⟩ :: l, next) := by
  rw [loopEnter, if_neg (by omega), if_neg (by omega), if_neg (by omega)]

theorem unguarded_iff {g : Guard} : unguarded g = true ↔ g = ⟨false, 0⟩ := decide_eq_true_iff

/-! ## loop and loopr at their issue -/

variable {tile : Nat} {s : State} {b : Bundle}

/-- Beside the end bit a loop has no effect (07 R148). -/
theorem loopRun_end (h : b.fin = true) : loopRun tile exit n s b = .ok (some s) := if_pos h

theorem loopRun_error {c : Nat} (hb : b.fin = false) (h : loopEnter (coreGet s tile).loops b.next exit n = .error c) :
    loopRun tile exit n s b = .error (trapOf c) := by
  simp [loopRun, hb, h]

theorem loopRun_ok {go : List LoopEnt × Nat} (hb : b.fin = false)
    (h : loopEnter (coreGet s tile).loops b.next exit n = .ok go) :
    loopRun tile exit n s b = .ok (some (setFlow s tile b go)) := by
  simp [loopRun, hb, h]

/-- A loop that has not resolved at dispatch runs its body: the guarded loop, and loopr whatever its guard. -/
theorem loopOp_eq {op : BitVec 8 → COp → Instr} {src : Bool} {n : Nat} {tile : BitVec 8} {o : COp} {s : State}
    (h : (op = .loop ∧ src = false ∧ n = o.imm.toNat ∧ o.guard ≠ ⟨false, 0⟩) ∨
      (op = .loopr ∧ src = true ∧ n = (ctlArg s tile o).toNat)) :
    ∃ body, exec (op tile o) s = ctlOp (op tile o) tile o src offFlow body s ∧
      ∀ b, body tile.toNat s b (if src then ctlArg s tile o else 0) = loopRun tile.toNat (loopExit b.pc o.target) n s b := by
  obtain ⟨rfl, rfl, rfl, hg⟩ | ⟨rfl, rfl, rfl⟩ := h
  · exact ⟨loopBody o, rfl, fun b => if_neg (mt unguarded_iff.1 hg)⟩
  · exact ⟨looprBody o, rfl, fun b => rfl⟩

end Transfers

/-- Settles O30: the exit test entry by entry, and the four outcomes of a loop's start. -/
theorem LoopStack.loopExit : Obligations.LoopExit := by
  unfold Obligations.LoopExit
  refine ⟨fun e es pc => ⟨rfl, exitTest_elsewhere, exitTest_again, exitTest_last, fun n => ?_⟩, fun l pc next o => ?_⟩
  · have := repeat_exitTest e es n 0
    rwa [show 0 + 1 + n = n + 1 by omega] at this
  · refine ⟨fun n => ⟨loopEnter_behind, loopEnter_skip, loopEnter_full, loopEnter_push⟩, fun h => ?_, fun h => ?_⟩
    · exact if_pos (unguarded_iff.2 h)
    · exact if_neg (mt unguarded_iff.1 h)

/-- Settles O29: a transfer goes by its body, whose case is that of its guard or of the loop's start. -/
theorem controlTransfers : Obligations.ControlTransfers := by
  unfold Obligations.ControlTransfers
  intro tile o s b c goes done at' exit
  refine ⟨fun h => ctlOp_ok (off := offNone) (body := fun _ s _ _ => .ok (some s)) h rfl, fun h => ctlOp_ok h ?_,
    fun h => ctlOp_ok h rfl, fun h => ctlOp_ok h ?_,
    fun h => ctlOp_ok h rfl, fun op src n hop h => ?_, fun h hg => ctlOp_ok h (if_pos (unguarded_iff.2 hg)), ?_⟩
  · simp only [jmpBody, unguarded_iff]
    rfl
  · simp only [callBody, unguarded_iff]
    rfl
  · obtain ⟨body, hexec, hbody⟩ := loopOp_eq hop
    rw [hexec]
    refine ⟨fun hb => ctlOp_ok h ((hbody b).trans (loopRun_end hb)), fun hb => ⟨fun he => ?_, fun he hn => ?_, fun he hn hl => ?_,
      fun he hn hl => ?_⟩⟩
    · exact ctlOp_bad h ((hbody b).trans (loopRun_error hb (loopEnter_behind he)))
    · exact ctlOp_ok h ((hbody b).trans (loopRun_ok hb (loopEnter_skip he hn)))
    · exact ctlOp_bad h ((hbody b).trans (loopRun_error hb (loopEnter_full he hn hl)))
    · exact ctlOp_ok h ((hbody b).trans (loopRun_ok hb (loopEnter_push he hn hl)))
  · simp only [List.forall_mem_cons, List.not_mem_nil, false_implies, implies_true, and_true]
    exact ⟨ctlOp_off, ctlOp_off, ctlOp_off, ctlOp_off, ctlOp_off, ctlOp_off⟩

/-! # O33: lease, leasew and unleash -/

section Leases
variable {s : State} {tile : Nat} {o : COp} {b : Bundle} {wait : Bool}

/-- The decision on a lease as it issues (12 R274). -/
def leaseAsked (s : State) (tile : Nat) (o : COp) (b : Bundle) : LeaseDec :=
  leaseDecide s tile (leaseView s tile b.seq) (o.imm.getLsbD 4) (o.imm.toNat % 16) (o.imm.getLsbD 6)

/-- The key of the predicate that a lease writes, or 0 (07 R156). -/
def leasePred : Port → Nat
  | .p n => if n = 0 then 0 else 64 + n.toNat
  | _ => 0

/-- The evictions that a lease forces, and its decision kept for the commit (12 R274, R275). -/
def leaseKept (s : State) (tile : Nat) (o : COp) (b : Bundle) (wait : Bool) : State :=
  let d := leaseAsked s tile o b
  addAct (d.evicted.foldl (fun s e => evict s tile e 0) s) tile b.seq 0
    (.lease (o.imm.getLsbD 4) (o.imm.toNat % 16) (o.imm.getLsbD 6) (o.imm.getLsbD 5) wait (leasePred o.cport) d.status d.eng)

/-- The same with its handle and its predicate under way (07 R156). -/
def leaseGiven (s : State) (tile : Nat) (o : COp) (b : Bundle) (wait : Bool) : State :=
  let d := leaseAsked s tile o b
  addFlight (leaseKept s tile o b wait) tile b.seq 0 2 (.reg 0x60 (rvOf (decHandle (leaseView s tile b.seq) d)) ::
    if leasePred o.cport = 0 then [] else [.reg (leasePred o.cport) (rvOf (flagWord (decide (d.status ≤ 1 ∨ d.status = 3))))])

theorem boolWord_granted (n : Nat) : boolWord (decide (n ≤ 1) || decide (n = 3)) = flagWord (decide (n ≤ 1 ∨ n = 3)) :=
  congrArg boolWord (Bool.decide_or ..).symm

theorem leaseBody_eq (v : Word) : leaseBody wait o tile s b v = if wait && decide ((leaseAsked s tile o b).status = 2) then
    .ok (some (leaseKept s tile o b wait)) else .ok (some (leaseGiven s tile o b wait)) := by
  obtain ⟨guard, target, port, imm⟩ := o
  simp only [leaseBody, boolWord_granted]
  cases port with
  | p n => simp only [portKey_p]; rfl
  | _ => rfl

/-- A leasew that must queue delivers nothing yet (07 R156). -/
theorem leasewBody_eq (v : Word) : leaseBody true o tile s b v =
    .ok (some (if (leaseAsked s tile o b).status = 2 then leaseKept s tile o b true else leaseGiven s tile o b true)) := by
  rw [leaseBody_eq, Bool.true_and, apply_ite some, apply_ite Except.ok]
  simp only [decide_eq_true_eq]

/-- The handle of an unleash names a held record of the tile with its generation (07 R157; 12 R278). -/
def NamesHeld (t : Tile) (v : Word) : Prop :=
  v.toNat % 16 < 8 ∧ engState t (v.toNat % 16) ∈ [2, 3, 4, 6] ∧ (engGet t (v.toNat % 16)).gen = natBits v.toNat 16 32

theorem unleashBody_held {v : Word} (h : NamesHeld (leaseView s tile b.seq) v) :
    unleashBody tile s b v = .ok (some (addAct s tile b.seq 0 (.unleash (v.toNat % 16)))) :=
  if_pos (by simpa [NamesHeld] using h)

theorem unleashBody_bad {v : Word} (h : ¬ NamesHeld (leaseView s tile b.seq) v) :
    unleashBody tile s b v = .error (trapAt causeBadHandle 0 v) :=
  if_neg (by simpa [NamesHeld] using h)

end Leases

/-- Settles O33: the bodies of the three operations in each case of the decision and of the handle. -/
theorem leaseOperations : Obligations.LeaseOperations := by
  unfold Obligations.LeaseOperations
  intro tile o s b
  exact ⟨fun h => ctlOp_ok h (leaseBody_eq 0), fun h => ctlOp_ok h (leasewBody_eq 0),
    fun h => ⟨fun hh => ctlOp_ok h (unleashBody_held hh), fun hh => ctlOp_bad h (unleashBody_bad hh)⟩⟩

end Sys2Proof.Machine

/-! # O51: the special engines, the collective engine and the strand ports -/

namespace Sys2Proof.Machine
open Sys2Proof

section SpecialEngines
variable {s s1 : State} {n e : Nat} {r : Run}

/-! ## Reads after the acts on a port, on an engine and on FPSTAT -/

@[simp] theorem strandGet_strandPut_same (s : State) (p : Nat) (x : Strand) : strandGet (strandPut s p x) p = x := by
  simp [strandGet, strandPut]

@[simp] theorem strandGet_engMap (s : State) (n e p : Nat) (f : Engine → Engine) : strandGet (engMap s n e f) p = strandGet s p := rfl
@[simp] theorem engGet_orFpstat (s : State) (n k e bits : Nat) :
    engGet (tileGet (orFpstat s n bits) k) e = engGet (tileGet s k) e := engGet_corePut ..

/-! ## One unit of a special engine (15 R339, R341) -/

/-- A command whose registers a fault has damaged, before its first unit. -/
def Damaged (r : Run) : Prop := ra r akBegun = 0 ∧ ∃ k < 11, resBad (mapGet r.cmd.regs k (rvOf 0)) = true

theorem damaged_iff : (decide (ra r akBegun = 0) && (List.range 11).any fun n => resBad (mapGet r.cmd.regs n (rvOf 0))) = true ↔
    Damaged r := by
  simp [Damaged, List.any_eq_true, List.mem_range]

theorem engineUnit_damaged (h : spNext s n e = some r) (hd : Damaged r) :
    engineUnit n e s = engStopAt s n e (cmdCode r.cmd) (trapOf causeResidue) := by
  simp only [engineUnit, h]
  exact if_pos (damaged_iff.2 hd)

/-- Of a sound command the unit's own outcome decides. -/
theorem engineUnit_sound (h : spNext s n e = some r) (hd : ¬ Damaged r) :
    (∀ ask, spUnit s n e r = .wait ask → engineUnit n e s = engAsk s ask) ∧
    (∀ x, spUnit s n e r = .bad x → engineUnit n e s = engStopAt s n e (cmdCode r.cmd) x) ∧
    (∀ y, spUnit s n e r = .ok y → engineUnit n e s = engMap y.s n e fun x =>
      { x with runs := [{ y.r with aux := mapPut y.r.aux akBegun 1 }], progNext := y.r.unit }) := by
  simp only [engineUnit, h, if_neg (mt damaged_iff.1 hd)]
  exact ⟨fun ask hx => by rw [hx], fun x hx => by rw [hx], fun y hx => by rw [hx]⟩

/-- The completion of a command: its count in RES, PROG.seq one further (15 R339). -/
theorem spDone_done (h : spFinished s n e = some r) (hd : (if cmdReg r.cmd 6 = 0 then .ok s
      else engAdd s n r.cmd.agent (BitVec.ofNat 64 (cmdReg r.cmd 6)) 1 (scopeOfCode (spScope r.cmd))) = .ok s1) :
    spDone n e s = engMap (orFpstat s1 n r.flags) n e fun x =>
      { x with runs := [], progSeq := x.progSeq + 1, after := (agentOf s1 r.cmd.agent).vc,
               regs := mapPut x.regs 11 (rvOf (BitVec.ofNat 64 (ra r akCount))) } := by
  simp only [spDone, h, hd]

theorem engComplete_special (hlo : 2 ≤ e) (hhi : e ≤ 6) : engComplete n e s = spDone n e s := by
  rw [engComplete, if_neg (by omega), if_pos (by omega)]

/-! ## The collective engine (20 R455 to R458) -/

theorem fxFirstCheck_first {next : Bool} {port : Nat} {ps : List Nat} (ho : fxOpen s n = some r)
    (hc : fxToCheck s r = some (next, port, some (.first ps))) : fxFirstCheck n s =
      if ps = fxExpected r.cmd then
        fxMap (strandTake s port) n fun r => raSet (raSet r (if next then akNext else akPrev) 1) akFlit (timeOf (strandTake s port))
      else fxAbort (strandTake s port) n 6 port := by
  simp only [fxFirstCheck, ho, hc]

theorem ra_raSet_same (r : Run) (k v : Nat) : ra (raSet r k v) k = v := mapGet_mapPut_same ..
theorem ra_raSet_other (r : Run) {k j : Nat} (v : Nat) (h : k ≠ j) : ra (raSet r k v) j = ra r j := mapGet_mapPut_other _ _ _ h

theorem runMap_cons {x : Engine} {y : Run} {ys : List Run} (h : x.runs = y :: ys) (f : Run → Run) :
    runMap x f = { x with runs := f y :: ys } := by
  simp [runMap, h]

theorem fxMap_runs {y : Run} {ys : List Run} (h : (engGet (tileGet s n) 7).runs = y :: ys) (f : Run → Run) :
    (engGet (tileGet (fxMap s n f) n) 7).runs = f y :: ys := by
  rw [fxMap, engGet_engMap_same, runMap_cons h]

/-- A step whose chunk comes in and is stored ends with the step counted (20 R456). -/
theorem fxChunkIn_stores {s2 : State} {fl : FpFlags} {bs : List Byte} (hr : (fxPlan r.cmd r.unit).recv.isSome = true)
    (hn : fxReceives (fxPlan r.cmd r.unit) = true)
    (ha : fxArrived s r.cmd (((fxPlan r.cmd r.unit).recv.map (·.2)).getD 0) = some (s1, bs))
    (hd : fxRecvHalf s1 n r.cmd (fxPlan r.cmd r.unit) bs = .ok (s2, fl)) : fxChunkIn s n r = fxStepEnd s2 n r fl := by
  obtain ⟨⟨va, m⟩, hp⟩ := Option.isSome_iff_exists.1 hr
  have hm : m ≠ 0 := by simpa [fxReceives, hp] using hn
  simp only [hp, Option.map_some, Option.getD_some] at ha
  simp only [fxChunkIn, hp, if_neg hm, ha, hd]

/-- A chunk-step whose chunk has gone out takes in the chunk of the same step (20 R456). -/
theorem fxChunkStep_second (h : fxNextStep s n = some r) (hp : r.phase = 1) : fxChunkStep n s = fxChunkIn s n r := by
  simp only [fxChunkStep, h, if_pos hp]

/-- A chunk-step sends its chunk and takes in the chunk of the same step, if that is there (20 R456). -/
theorem fxChunkStep_first (h : fxNextStep s n = some r) (hp : r.phase ≠ 1)
    (hs : fxSendHalf s n r.cmd (fxPlan r.cmd r.unit) = .ok s1)
    (hw : ((fxPlan r.cmd r.unit).send.isSome && fxReceives (fxPlan r.cmd r.unit) && (strandGet s1 (fxPrev r.cmd)).rx.isEmpty) = false) :
    fxChunkStep n s = fxChunkIn s1 n r := by
  simp only [fxChunkStep, h, if_neg hp, hs, hw, Bool.false_eq_true, if_false]

theorem fxReceiveAdd_done (h : fxFinished s n false = some r) (hd : fxAdd s n r .fab = .ok s1) :
    fxReceiveAdd n s = fxComplete s1 n r := by
  simp only [fxReceiveAdd, h, hd]

/-- An abort ends the command with cause 4 (20 R456, R458). -/
theorem fxAbort_ended {cause port : Nat} {y : Run} {ys : List Run} (h : (engGet (tileGet s n) 7).runs = y :: ys) :
    (engGet (tileGet (fxAbort s n cause port) n) 7).runs = [] ∧ (engGet (tileGet (fxAbort s n cause port) n) 7).cause = 4 := by
  have hm : (engGet (tileGet (fxMarkers s y.cmd) n) 7).runs = y :: ys := h
  simp only [fxAbort, h, fxAbortEnd, hm, engGet_engMap_same, fxEnded, setCause, and_self]

theorem fxMarker_marker {p : Nat} (ho : fxOpen s n = some r) (hm : fxHasMarker s r.cmd = some p)
    (hr : ∀ c l, (strandGet s (fxNext r.cmd)).rx ≠ .refused c :: l) : fxMarker n s = fxAbort (strandTake s p) n 4 p := by
  cases hx : (strandGet s (fxNext r.cmd)).rx with
  | nil => simp only [fxMarker, ho, hx, hm]
  | cons m l =>
    cases m with
    | refused c => exact absurd hx (hr c l)
    | _ => simp only [fxMarker, ho, hx, hm]

/-! ## The strand ports (20 R451, R452, R457) -/

section Ports
variable {port peer pport asid : Nat} {peerTime : Word}

/-- The peer's TIME less the own. -/
def peerAhead (s : State) (peerTime : Word) : Int := (peerTime.toNat : Int) - timeOf s

theorem strandGet_timeAlign (h : (strandGet s port).up = true) : strandGet (timeAlign port peerTime s) port =
    { strandGet s port with align := (strandGet s port).align || decide ((peerAhead s peerTime).natAbs ≤ 50) } := by
  simp only [timeAlign, h, Bool.not_true, Bool.false_eq_true, if_false]
  split <;> exact strandGet_strandPut_same ..

theorem timeAlign_tiles : (timeAlign port peerTime s).tiles = s.tiles := by
  unfold timeAlign
  dsimp only
  split
  · rfl
  · split <;> rfl

/-- The F9 with the higher FAB_ID slews, until the two times are near (20 R452). -/
theorem timeAlign_slew (h : (strandGet s port).up = true) (hp : (strandGet s port).peer < s.mgmt.fabId.toNat % 4096) :
    (timeAlign port peerTime s).slew = if (peerAhead s peerTime).natAbs ≤ 50 then 0 else peerAhead s peerTime * 360000 := by
  simp only [timeAlign, h, Bool.not_true, Bool.false_eq_true, if_false, if_pos hp, decide_eq_true_eq]
  rfl

theorem strandUp_trains (hp : port < 12) (hl : port / 3 ∉ s.portsLost) : strandUp port peer pport peerTime s =
    timeAlign port peerTime (strandPut s port
      { strandGet s port with up := true, peer := peer % 4096, pport := pport % 16, align := false, rx := [] }) :=
  if_neg (by simp [hl]; omega)

/-- Which commands run over a port does not lie in the ports. -/
theorem fxOver_strandPut (s : State) (p q : Nat) (x : Strand) : fxOver (strandPut s p x) q = fxOver s q := rfl

theorem strandDown_idle (h : fxOver s port = []) : strandDown port s =
    strandPut s port { strandGet s port with up := false, align := false, rx := [] } := by
  simp only [strandDown, fxOver_strandPut, h, List.foldl_nil]

variable {addr v : Word}

/-- An add that nothing holds up is performed, or refused to its sender (20 R457). -/
theorem strandAdd_now (hu : (strandGet s port).up = true) (hw : addWaits s asid addr = false)
    (ho : ∀ o ∈ s.owed, o.agent ≠ remoteAgentId port) :
    (∀ s1, extAdd s asid (remoteAgentId port) (remoteAgent s port) addr v .fab = .ok s1 → strandAdd port asid addr v s = s1) ∧
    (∀ c, extAdd s asid (remoteAgentId port) (remoteAgent s port) addr v .fab = .error c →
      strandAdd port asid addr v s = strandSend s port (.refused c)) := by
  have hany : (s.owed.any fun o => decide (o.agent = remoteAgentId port)) = false := by simpa using ho
  simp only [strandAdd, hu, hw, hany, Bool.not_true, Bool.or_self, Bool.false_eq_true, if_false]
  exact ⟨fun s1 hx => by rw [hx], fun c hx => by rw [hx]⟩

theorem strandAdd_owed (hu : (strandGet s port).up = true) (hw : addWaits s asid addr = true) : strandAdd port asid addr v s =
    owe (agentPut s (remoteAgentId port) (remoteAgent s port)) ⟨asid, none, 256, port, remoteAgentId port, addr, v, .fab, []⟩ := by
  simp [strandAdd, hu, hw]

end Ports
end SpecialEngines

/-- Settles O51: the rule of each event, in the case that its clause names. -/
theorem specialEngines : Obligations.SpecialEngines := by
  unfold Obligations.SpecialEngines
  intro tile eng s r n after damaged
  refine ⟨?unit, ?complete, ?firstFlit, ?chunkStep, ?receiveAdd, ?marker, ?timeout, ?abort, ?ports⟩
  case unit =>
    refine fun h => ⟨fun hd => congrArg _ (engineUnit_damaged h hd), fun hd => ?_, fun hd => ?_, fun hd y hx => ⟨_, rfl, ?_⟩⟩
      <;> obtain ⟨hwait, hbad, hok⟩ := engineUnit_sound h hd
    · exact fun x hx => congrArg _ (hbad x hx)
    · exact fun a hx => congrArg _ (hwait a hx)
    · rw [hok y hx]
      refine ⟨rfl, ?_⟩
      simp only [after, engGet_engMap_same, List.map_cons, List.map_nil, and_self]
  case complete =>
    refine fun s1 hlo hhi h hd => ⟨_, rfl, ?_⟩
    rw [engComplete_special hlo hhi, spDone_done h hd]
    simp only [after, engGet_engMap_same, engGet_orFpstat, mapGet_mapPut_same, and_self]
  case firstFlit =>
    refine fun ho next port ps hc => ⟨fun hp => ?_, fun hp => ⟨_, rfl, ?_⟩⟩
    · exact congrArg _ ((fxFirstCheck_first ho hc).trans (if_neg hp))
    · rw [fxFirstCheck_first ho hc, if_pos hp]
      refine ⟨rfl, ?_, fun y ys hy => ⟨_, fxMap_runs hy _, rfl, ?_⟩⟩
      · simp only [fxMap, strandGet_engMap, strandTake, strandGet_strandPut_same]
      · rw [ra_raSet_other _ _ (by cases next <;> decide), ra_raSet_same]
  case chunkStep =>
    refine fun h => ⟨fun hp => ?_, fun hp s1 hs hw => ?_, fun s1 s2 fl bs hr hn ha hd => ⟨_, rfl, ?_⟩⟩
    · exact congrArg _ (fxChunkStep_second h hp)
    · exact congrArg _ (fxChunkStep_first h hp hs hw)
    · rw [fxChunkIn_stores hr hn ha hd]
      exact ⟨rfl, by simp only [after, fxStepEnd, engGet_engMap_same]⟩
  case receiveAdd =>
    refine fun s1 h hd => ⟨_, rfl, ?_⟩
    rw [fxReceiveAdd_done h hd]
    simp only [after, fxComplete, engGet_engMap_same, engGet_orFpstat, and_self]
  case marker => exact fun p ho hm hr => congrArg _ (fxMarker_marker ho hm hr)
  case timeout => exact fun cause port hp => congrArg Host.Outcome.next (by simp only [fxTimeout, hp])
  case abort => exact fun cause port y ys h => fxAbort_ended h
  case ports =>
    intro port peer pport peerTime
    refine ⟨fun hp hl => ⟨_, rfl, ?_⟩, fun h => ⟨_, rfl, ?_⟩, fun hu => ⟨_, rfl, timeAlign_tiles, timeAlign_slew hu, fun hn => ?_⟩,
      fun asid addr v hu hw ho => ?_, fun asid addr v hu hw => ⟨_, rfl, ?_⟩⟩
    · rw [strandUp_trains hp hl, strandGet_timeAlign (by rw [strandGet_strandPut_same])]
      simp only [strandGet_strandPut_same, Bool.false_or, decide_eq_true_eq]
      exact ⟨trivial, Nat.mod_eq_of_lt peer.isLt, Nat.mod_eq_of_lt pport.isLt, Iff.rfl⟩
    · rw [strandDown_idle h, strandGet_strandPut_same]
      exact ⟨rfl, rfl, rfl⟩
    · rw [strandGet_timeAlign hu]
      exact Bool.or_eq_true_iff.2 (.inr (decide_eq_true hn))
    · obtain ⟨hmade, hrefused⟩ := strandAdd_now (v := v) hu hw ho
      exact ⟨fun s1 hx => congrArg _ (hmade s1 hx), fun c hx => congrArg _ (hrefused c hx)⟩
    · rw [strandAdd_owed hu hw]
      exact ⟨rfl, rfl, _, rfl, rfl, rfl, rfl, rfl⟩

end Sys2Proof.Machine

/-! # O20: accesses beyond the own pool become requests -/

namespace Sys2Proof.Machine

open Sys2Proof

section RemoteAccesses
variable {s : State} {tile slot t n al : Nat} {ea : Word} {b : Bundle} {o : MOp} {v : MVals}

/-- A pool address from 2^31 on names a tile and an offset of its pool (08 R174). -/
theorem poolPlace_remote {a : Nat} (hlo : 2 ^ 31 ≤ a) (hhi : a < 2 ^ 32) :
    poolPlace a = .pool ((a - 2 ^ 31) / 2 ^ 23) (a % 2 ^ 23) := by
  have h32 : natBits a 32 32 = 0 := by unfold natBits; omega
  have h31 : natBit a 31 = true := by unfold natBit; simp only [beq_iff_eq]; omega
  have h23 : natBits a 23 8 = (a - 2 ^ 31) / 2 ^ 23 := by unfold natBits; omega
  have h0 : natBits a 0 23 = a % 2 ^ 23 := by unfold natBits; omega
  simp [poolPlace, h32, h31, h23, h0]

/-- An aligned address inside the scratchpad of another tile of the node passes its checks (08 R174, R180). -/
theorem poolCheck_remote (h : RemotePoolAt s tile ea t n al) : poolCheck s tile ea n al = .ok (.pool t (ea.toNat % 2 ^ 23)) := by
  obtain ⟨hlo, hhi, rfl, hal, hmem, hin⟩ := h
  simp only [poolCheck, poolPlace_remote hlo hhi, hal, List.contains_iff_mem.2 hmem, pastScratch, Nat.not_lt.2 hin, decide_false,
    ne_eq, not_true_eq_false, Bool.not_true, Bool.false_eq_true, if_false]

/-- An aligned global address passes its checks (08 R175, R183). -/
theorem globalCheck_aligned (hlow : ea.toNat < 2 ^ 52) (hal : ea.toNat % n = 0) : globalCheck ea n = none := by
  simp only [globalCheck, Nat.div_eq_of_lt hlow, hal, ne_eq, not_true_eq_false, if_false]

section Unordered
variable (hrel : relWaits (coreGet s tile) b.seq o.order = false)
include hrel

theorem loadBody_remote (hat : RemotePoolAt s tile (effAddr v.base v.index o) t (sizeBytes o.size) (sizeBytes o.size)) :
    loadBody o tile slot s b v = .ok (some (addReq s tile b slot (some 64)
      { reqOf .load 0x000 (poolFull (effAddr v.base v.index o)) o (effScope o (poolReach tile t)) with
        dst := o.data, entries := slotQ b.pushes slot })) := by
  simp [loadBody, hrel, poolCheck_remote hat]

theorem ldqBody_remote (hat : RemotePoolAt s tile (effAddr v.base v.index o) t 64 64) :
    ldqBody o tile slot s b v = .ok (some (addReq s tile b slot (some 64)
      { reqOf .load 0x002 (poolFull (effAddr v.base v.index o)) o (effScope o (poolReach tile t)) with
        n := 64 / sizeBytes o.size, entries := slotQ b.pushes slot })) := by
  simp [ldqBody, hrel, poolCheck_remote hat]

theorem storeAt_remote {bs : List Byte} (opc : Nat) (hn : bs.length = n) (hat : RemotePoolAt s tile ea t n al) :
    storeAt o opc tile slot s b ea al bs = .ok (some (addReq s tile b slot none
      { reqOf .store opc (poolFull ea) o (effScope o (poolReach tile t)) with
        bytes := bs, size := n, data := BitVec.ofNat 64 (leNat (bs.take 8)) })) := by
  simp [storeAt, hrel, hn, poolCheck_remote hat]

theorem ldcBody_global (hlow : (effAddr v.base v.index o).toNat < 2 ^ 52)
    (hal : (effAddr v.base v.index o).toNat % sizeBytes o.size = 0) :
    ldcBody o tile slot s b v = .ok (some (addReq s tile b slot (some 64)
      { reqOf .load 0x004 (effAddr v.base v.index o) o (effScope o .pkg) with
        dst := o.data, entries := slotQ b.pushes slot })) := by
  simp [ldcBody, hrel, globalCheck_aligned hlow hal]

theorem stcBody_global (hlow : (effAddr v.base v.index o).toNat < 2 ^ 52)
    (hal : (effAddr v.base v.index o).toNat % sizeBytes o.size = 0) :
    stcBody o tile slot s b v = .ok (some (addReq s tile b slot none
      { reqOf .store 0x005 (effAddr v.base v.index o) o (effScope o .pkg) with
        bytes := leBytes (sizeBytes o.size) v.data.v.toNat, data := v.data.v })) := by
  simp [stcBody, hrel, globalCheck_aligned hlow hal]

end Unordered
end RemoteAccesses

/-- Settles O20: each access passes its checks and adds its request. -/
theorem remoteAccesses : Obligations.RemoteAccesses := by
  intro tile hi o s b t hrel n slot ld sto v far wide
  refine ⟨fun h hat => ?_, fun h hat => ?_, fun h hat => ?_, fun h => ?_, fun h hlow hal => ?_, fun h hlow hal => ?_⟩
  · exact accessOp_ok h (loadBody_remote hrel hat)
  · exact accessOp_ok h (ldqBody_remote hrel hat)
  · exact accessOp_ok h (storeAt_remote hrel 0x001 (leBytes_length _ v.toNat) hat)
  · intro vals bs hlen hgood hat
    exact accessOp_ok h ((stqBody_checked hgood).trans (storeAt_remote hrel 0x003 hlen hat))
  · exact accessOp_ok h (ldcBody_global (v := accessArgs s tile hi o false b) hrel hlow hal)
  · exact accessOp_ok h (stcBody_global (v := accessArgs s tile hi o true b) hrel hlow hal)

end Sys2Proof.Machine

/-! # O21: pref fills the cache of the issuing die, or does nothing -/

namespace Sys2Proof.Machine

open Sys2Proof

section Prefetch
variable {s : State} {tile slot w bits : Nat} {b : Bundle} {o : MOp} {v : MVals}

theorem prefBody_notGlobal (h : 2 ^ 52 ≤ (effAddr v.base v.index o).toNat) : prefBody o tile slot s b v = .ok (some s) :=
  if_pos (by omega)

/-- Where no leaf maps the address, every branch of pref keeps the state (08 R183). -/
theorem prefBody_unmapped
    (h : ∀ w bits, (walkTables s (tileAsid s tile) ((effAddr v.base v.index o).toNat / 65536)).1 ≠ .leaf w bits) :
    prefBody o tile slot s b v = .ok (some s) := by
  simp only [prefBody, ite_self]

/-- Where the address translates, the leaf decides whether the granule comes into the cache (08 R183). -/
theorem prefBody_leaf (hlow : (effAddr v.base v.index o).toNat < 2 ^ 52)
    (h : (walkTables s (tileAsid s tile) ((effAddr v.base v.index o).toNat / 65536)).1 = .leaf w bits) :
    let ea := (effAddr v.base v.index o).toNat
    let e : TlbEnt := ⟨tileAsid s tile, ea / 2 ^ bits, bits, w⟩
    prefBody o tile slot s b v = .ok (some (
      if leafR w && leafCache w && !permBad e ea 1 true false then
        touchPa (cacheFill s (dieOf tile) (entPa e ea / 64)) (tileAsid s tile) (entPa e ea)
      else s)) := by
  simp only [prefBody, Nat.div_eq_of_lt hlow, ne_eq, not_true_eq_false, if_false, h]
  split
  · rfl
  · rfl

end Prefetch

/-- Settles O21: pref goes through whatever its address, and its leaf decides the fill. -/
theorem prefetch : Obligations.Prefetch := by
  intro tile hi o s b h ea asid walk
  refine ⟨fun hhigh => accessOp_ok h (prefBody_notGlobal hhigh), fun _ hnone => accessOp_ok h (prefBody_unmapped hnone),
    fun w bits hlow hleaf => ?_⟩
  intro e use
  refine ⟨fun huse => ?_, fun huse => ?_⟩
  · exact accessOp_ok h ((prefBody_leaf hlow hleaf).trans (congrArg (Except.ok ∘ some) (if_pos huse)))
  · exact accessOp_ok h ((prefBody_leaf hlow hleaf).trans (congrArg (Except.ok ∘ some) (if_neg (Bool.eq_false_iff.1 huse))))

end Sys2Proof.Machine

/-! # O22: rdset, rdget and rdadv -/

namespace Sys2Proof.Machine

open Sys2Proof

section RegionDescriptors
variable {s : State} {tile slot n : Nat} {org : Bool} {b : Bundle} {o : MOp} {v : MVals} {x : Trap}

/-- A descriptor number of at most 2,047 is one (08 R184). -/
theorem descNum_ok (h : (v.base + o.disp.signExtend 64).toNat ≤ 2047) :
    descNum v o = .ok (v.base + o.disp.signExtend 64).toNat :=
  if_neg (Nat.not_lt.2 h)

theorem descNum_bad (h : 2047 < (v.base + o.disp.signExtend 64).toNat) :
    descNum v o = .error (trapAt causeBadDescriptor (BitVec.ofNat 64 (v.base + o.disp.signExtend 64).toNat) v.data.v) :=
  if_pos h

/-- The base moves by `v` elements where it then is an offset (08 R184). -/
theorem advBase_moves {d : Word} {i : Int}
    (hwhole : i * fmtBits (fmtOf (natBits d.toNat 4 4)) % 8 = 0)
    (hlo : 0 ≤ (natBits d.toNat 41 23 : Int) + i * fmtBits (fmtOf (natBits d.toNat 4 4)) / 8)
    (hhi : (natBits d.toNat 41 23 : Int) + i * fmtBits (fmtOf (natBits d.toNat 4 4)) / 8 < 2 ^ 23) :
    advBase d i = some (BitVec.ofNat 64
      (((natBits d.toNat 41 23 : Int) + i * fmtBits (fmtOf (natBits d.toNat 4 4)) / 8).toNat * 2 ^ 41 + d.toNat % 2 ^ 41)) :=
  if_neg (by omega)

/-- A base that leaves the offset field or is no integer is none (08 R184). -/
theorem advBase_none {d : Word} {i : Int}
    (h : i * fmtBits (fmtOf (natBits d.toNat 4 4)) % 8 ≠ 0 ∨
      (natBits d.toNat 41 23 : Int) + i * fmtBits (fmtOf (natBits d.toNat 4 4)) / 8 < 0 ∨
      2 ^ 23 ≤ (natBits d.toNat 41 23 : Int) + i * fmtBits (fmtOf (natBits d.toNat 4 4)) / 8) :
    advBase d i = none :=
  if_pos (by omega)

section Numbered
variable (hn : descNum v o = .ok n)
include hn

theorem rdsetBody_ok : rdsetBody org o tile slot s b v =
    .ok (some (addFlight s tile b.seq slot 1 [.reg (if org then orgKey n else descKey n) (rvOf v.data.v)])) := by
  simp only [rdsetBody, hn]

theorem rdgetBody_ok {effs : List Eff} (hd : dstEffs (slotQ b.pushes slot) o.data
      (rvOf (regRd (coreGet s tile) (if org then orgKey n else descKey n)).v) = .ok effs) :
    rdgetBody org o tile slot s b v = .ok (some (addFlight s tile b.seq slot 2
      (.reg (latchKey slot 3) (rvOf (regRd (coreGet s tile) (if org then orgKey n else descKey n)).v) :: effs))) := by
  simp only [rdgetBody, hn, hd]

theorem rdadvBody_origin : rdadvBody true o tile slot s b v = .ok (some (addFlight s tile b.seq slot 1
    [.reg (orgKey n) (rvOf ((regRd (coreGet s tile) (orgKey n)).v + v.data.v))])) := by
  simp only [rdadvBody, hn, if_true]

theorem rdadvBody_moves {d : Word} (hadv : advBase (regRd (coreGet s tile) (descKey n)).v v.data.v.toInt = some d) :
    rdadvBody false o tile slot s b v = .ok (some (addFlight s tile b.seq slot 1
      [.reg (descKey n) (rvOf d), .reg (orgKey n) (rvOf ((regRd (coreGet s tile) (orgKey n)).v + v.data.v))])) := by
  simp only [rdadvBody, hn, Bool.false_eq_true, if_false, hadv]

theorem rdadvBody_range (hadv : advBase (regRd (coreGet s tile) (descKey n)).v v.data.v.toInt = none) :
    rdadvBody false o tile slot s b v = .error (trapAt causeRegionRange (BitVec.ofNat 64 n) v.data.v) := by
  simp only [rdadvBody, hn, Bool.false_eq_true, if_false, hadv]

end Numbered

section Unnumbered
variable (hx : descNum v o = .error x)
include hx

theorem rdsetBody_bad : rdsetBody org o tile slot s b v = .error x := by simp only [rdsetBody, hx]

theorem rdgetBody_bad : rdgetBody org o tile slot s b v = .error x := by simp only [rdgetBody, hx]

theorem rdadvBody_bad : rdadvBody org o tile slot s b v = .error x := by simp only [rdadvBody, hx]

end Unnumbered
end RegionDescriptors

/-- Settles O22: the descriptor's number decides the fault, and each operation then stages its registers. -/
theorem regionDescriptors : Obligations.RegionDescriptors := by
  intro tile hi o s b d v n slot D G
  refine ⟨fun hd hle => ?_, fun hd hle effs => ?_, fun hgt => ⟨fun op hop hd h => ?_, fun op hop hd h => ?_⟩⟩
  · subst hd
    have hn : descNum v o = .ok n := descNum_ok hle
    refine ⟨fun h => accessOp_ok h (rdsetBody_ok hn), fun h => accessOp_ok h (rdsetBody_ok hn),
      fun h => accessOp_ok h (rdadvBody_origin hn), fun h => ?_⟩
    intro half nb
    refine ⟨fun hwhole hlo hhi => ?_, fun hout => ?_⟩
    · exact accessOp_ok h (rdadvBody_moves hn (advBase_moves hwhole hlo hhi))
    · exact accessOp_bad h (rdadvBody_range hn (advBase_none hout))
  · subst hd
    have hn : descNum v o = .ok n := descNum_ok hle
    exact ⟨fun h hdst => accessOp_ok h (rdgetBody_ok hn hdst), fun h hdst => accessOp_ok h (rdgetBody_ok hn hdst)⟩
  · subst hd
    have hx := descNum_bad hgt
    simp only [List.mem_cons, List.not_mem_nil, or_false] at hop
    obtain rfl | rfl | rfl | rfl := hop
    · exact accessOp_bad h (rdsetBody_bad hx)
    · exact accessOp_bad h (rdsetBody_bad hx)
    · exact accessOp_bad h (rdadvBody_bad hx)
    · exact accessOp_bad h (rdadvBody_bad hx)
  · subst hd
    have hx := descNum_bad hgt
    simp only [List.mem_cons, List.not_mem_nil, or_false] at hop
    obtain rfl | rfl := hop
    · exact accessOp_bad h (rdgetBody_bad hx)
    · exact accessOp_bad h (rdgetBody_bad hx)

end Sys2Proof.Machine

/-! # O24: an atomic elsewhere becomes a request -/

namespace Sys2Proof.Machine

open Sys2Proof

section RemoteAtomics
variable {s : State} {tile slot opc t off : Nat} {two : Bool} {o : MOp} {b : Bundle} {v : MVals} {ea : Word}

/-- A full address below 2^52 is a global one (08 R175, R176). -/
theorem fullPlace_mem (h : ea.toNat < 2 ^ 52) : fullPlace ea = .mem ea.toNat := by
  have hk : natBits ea.toNat 62 2 = 0 := by unfold natBits; omega
  have hz : natBits ea.toNat 52 10 = 0 := by unfold natBits; omega
  simp [fullPlace, hk, hz]

/-- A place that holds no word: a reel register, or none at all (08 R176). -/
inductive NoWord : Place → Prop where
  | ownReel (k : Nat) : NoWord (.ownReel k)
  | reel (t k : Nat) : NoWord (.reel t k)
  | bad : NoWord .bad

/-- A full address from 3 · 2^62 on names a reel register or is undefined (08 R176). -/
theorem fullPlace_noWord (h : 3 * 2 ^ 62 ≤ ea.toNat) : NoWord (fullPlace ea) := by
  have hk : natBits ea.toNat 62 2 = 3 := by unfold natBits; omega
  simp only [fullPlace, hk]
  split
  · exact .bad
  · split
    · exact .reel ..
    · split
      · exact .bad
      · exact .ownReel _

/-- The request of an atomic: its address, its operands at its size, and its effective scope (08 R178, R185). -/
def atomicReq (opc : Nat) (two : Bool) (o : MOp) (ea : Word) (v : MVals) (reach : Scope) : Req :=
  { reqOf .atomic opc ea o (effScope o reach) with
    data := BitVec.ofNat 64 (v.data.v.toNat % 2 ^ (8 * sizeBytes o.size)),
    data2 := BitVec.ofNat 64 (if two then v.index.toNat % 2 ^ (8 * sizeBytes o.size) else 0) }

section Addressed
variable (hea : (if two then effAddr2 v.base o else effAddr v.base v.index o) = ea)
include hea

theorem atomicBody_noWord (h : NoWord (fullPlace ea)) :
    atomicBody opc two o tile slot s b v = .error (addrTrap causeBadAddress ea v.data.v) := by
  simp only [atomicBody, hea]
  generalize fullPlace ea = p at h
  cases h <;> rfl

theorem atomicBody_misaligned (hlow : ea.toNat < 2 ^ 52) (hal : ea.toNat % sizeBytes o.size ≠ 0) :
    atomicBody opc two o tile slot s b v = .error (addrTrap causeAlignment ea v.data.v) := by
  simp [atomicBody, hea, fullPlace_mem hlow, hal]

section Aligned
variable (hal : ea.toNat % sizeBytes o.size = 0)
  (hwait : (relWaits (coreGet s tile) b.seq o.order || atomWaits b slot opc) = false)
include hal hwait

theorem atomicBody_global (hlow : ea.toNat < 2 ^ 52) :
    atomicBody opc two o tile slot s b v = .ok (some (addReq s tile b slot (some 64) (atomicReq opc two o ea v .pkg))) := by
  simp only [atomicBody, hea, fullPlace_mem hlow, hal, hwait, Bool.false_eq_true, if_false, ne_eq, not_true_eq_false]
  rfl

theorem atomicBody_remote (hp : fullPlace ea = .pool t off) (hmem : t ∈ nodeTiles s tile)
    (hin : off + sizeBytes o.size ≤ scratchSize (tileGet s t)) :
    atomicBody opc two o tile slot s b v =
      .ok (some (addReq s tile b slot (some 64) (atomicReq opc two o ea v (poolReach tile t)))) := by
  simp only [atomicBody, hea, hp, hal, hwait, List.contains_iff_mem.2 hmem, pastScratch, Nat.not_lt.2 hin, decide_false,
    Bool.not_true, Bool.false_eq_true, if_false, ne_eq, not_true_eq_false]
  rfl

end Aligned
end Addressed
end RemoteAtomics

/-- Settles O24: the place that the address names decides between the request and the fault. -/
theorem remoteAtomics : Obligations.RemoteAtomics := by
  intro row hr tile hi o s b h n ea a waits req
  have hea : (if row.two then effAddr2 a.base o else effAddr a.base a.index o) = ea := rfl
  have hexec := exec_atomicRow hr tile hi o s
  refine ⟨fun hlow hal hwait => ?_, fun t off hp hal hwait hmem hin => ?_, fun hno => ?_, fun hlow hal => ?_⟩
  · exact hexec.trans (accessOp_ok h (atomicBody_global hea hal hwait hlow))
  · exact hexec.trans (accessOp_ok h (atomicBody_remote hea hal hwait hp hmem hin))
  · have hplace : NoWord (fullPlace ea) := by
      obtain hbad | hhigh := hno
      · rw [hbad]; exact .bad
      · exact fullPlace_noWord hhigh
    exact hexec.trans (accessOp_bad h (atomicBody_noWord hea hplace))
  · exact hexec.trans (accessOp_bad h (atomicBody_misaligned hea hlow hal))

end Sys2Proof.Machine

/-! # O25: reel operations on the own registers, and elsewhere -/

namespace Sys2Proof.Machine

open Sys2Proof

section ReelOperations
variable {s : State} {tile slot k t : Nat} {o : MOp} {b : Bundle} {v : MVals} {ea d : Word} {p : Place}

/-- A full address of an own reel register (08 R176). -/
theorem fullPlace_ownReel (hk : k < 256) (h : ea.toNat = 3 * 2 ^ 62 + k) : fullPlace ea = .ownReel k := by
  have htop : natBits ea.toNat 62 2 = 3 := by unfold natBits; omega
  have hz : natBits ea.toNat 17 45 = 0 := by unfold natBits; omega
  have hown : natBit ea.toNat 16 = false := by unfold natBit; simp only [beq_eq_false_iff_ne]; omega
  have htile : natBits ea.toNat 8 8 = 0 := by unfold natBits; omega
  have hreg : natBits ea.toNat 0 8 = k := by unfold natBits; omega
  simp [fullPlace, htop, hz, hown, htile, hreg]

theorem reelCheck_ownReel (hk : k < 256) (h : ea.toNat = 3 * 2 ^ 62 + k) : reelCheck ea d = .ok (.ownReel k) := by
  simp only [reelCheck, fullPlace_ownReel hk h]

theorem reelCheck_bad (h : fullPlace ea = .bad) : reelCheck ea d = .error (addrTrap causeBadAddress ea d) := by
  simp only [reelCheck, h]

/-- With no add under way that names the register as another tile would, a tile sees its register's value (08 R179). -/
theorem reelSeen_noAdds {seq : Nat}
    (h : ∀ r ∈ (coreGet s tile).reqs, r.kind = .kadd → fullPlace r.addr ≠ .reel tile k) :
    reelSeen s tile seq slot k = reelOwn (tileGet s tile) k :=
  List.foldlRecOn (motive := (· = reelOwn (tileGet s tile) k)) _ _ rfl fun _ hx r hr =>
    (if_neg fun ⟨hkind, hplace, _⟩ => h r hr hkind hplace).trans hx

/-- A depth that kbind refuses: 2^32 or more, but for the all-ones word that removes a binding (08 R194). -/
theorem depth_refused_iff : (2 ^ 32 ≤ d.toNat ∧ d ≠ BitVec.allOnes 64) ↔ (2 ^ 32 ≤ d.toNat ∧ d.toNat ≠ 2 ^ 64 - 1) := by
  rw [ne_eq, ← BitVec.toNat_inj, BitVec.toNat_allOnes]

section Own
variable (hc : reelCheck (effAddr v.base v.index o) v.data.v = .ok (.ownReel k))
include hc

theorem kaddBody_own (hrel : relWaits (coreGet s tile) b.seq o.order = false) :
    kaddBody o tile slot s b v = .ok (some (addFlight
      (addAct s tile b.seq slot (.sync (locReel tile k) o.order (effScope o .tile) true)) tile b.seq slot 1
      [.reelAdd k v.data.v])) := by
  simp [kaddBody, hrel, hc]

theorem kwaitBody_own :
    kwaitBody o tile slot s b v = .ok (some (addReq s tile b slot (some 2)
      { reqOf .kwait 0x081 (effAddr v.base v.index o) o (effScope o .tile) with
        data := v.data.v, order := .acq,
        result := boolNat (decide (v.data.v.toNat ≤ (reelSeen s tile b.seq slot k).toNat)) })) := by
  simp only [kwaitBody, hc, reelReach]

/-- A kpoll of an own register acquires where its test is met (08 R193). -/
theorem kpollBody_own :
    let met := decide (v.data.v.toNat ≤ (reelSeen s tile b.seq slot k).toNat)
    kreadBody true o tile slot s b v = .ok (some (addRead
      (if ordAcq o.order && met then coreSync s tile .acq (effScope o .tile) (locReel tile k) true false else s)
      tile b.seq slot 2 [.reg (latchKey slot 3) (rvOf (flagWord met))] (ordAcq o.order) false)) := by
  simp only [kreadBody, hc, if_true, Bool.not_true, Bool.false_or]
  rfl

theorem kreadBody_own {effs : List Eff}
    (hd : dstEffs (slotQ b.pushes slot) o.data (rvOf (reelSeen s tile b.seq slot k)) = .ok effs) :
    kreadBody false o tile slot s b v = .ok (some (addRead
      (if ordAcq o.order then coreSync s tile .acq (effScope o .tile) (locReel tile k) true false else s)
      tile b.seq slot 2 (.reg (latchKey slot 3) (rvOf (reelSeen s tile b.seq slot k)) :: effs) (ordAcq o.order) false)) := by
  simp only [kreadBody, hc, Bool.false_eq_true, if_false, Bool.not_false, Bool.true_or, Bool.and_true, hd]

theorem kinitBody_own :
    kinitBody o tile slot s b v = .ok (some (addFlight s tile b.seq slot 1 [.reelSet k v.data.v])) := by
  simp only [kinitBody, hc]

end Own

/-- A place of a reel beyond the own registers: a register as the package names it, or a word of memory (08 R190). -/
def FarReel (ea : Word) (p : Place) : Prop :=
  p = .reel (ea.toNat / 2 ^ 8 % 2 ^ 8) (ea.toNat % 2 ^ 8) ∨ p = .mem ea.toNat

section Far
variable (hp : FarReel (effAddr v.base v.index o) p) (hc : reelCheck (effAddr v.base v.index o) v.data.v = .ok p)
include hp hc

theorem kaddBody_far (hrel : relWaits (coreGet s tile) b.seq o.order = false) :
    kaddBody o tile slot s b v = .ok (some (addReq s tile b slot none
      { reqOf .kadd 0x080 (effAddr v.base v.index o) o (effScope o (reelReach tile p)) with data := v.data.v })) := by
  obtain rfl | rfl := hp <;> simp [kaddBody, hrel, hc]

theorem kwaitBody_far :
    kwaitBody o tile slot s b v = .ok (some (addReq s tile b slot (some 64)
      { reqOf .kwait 0x081 (effAddr v.base v.index o) o (effScope o (reelReach tile p)) with
        data := v.data.v, order := .acq })) := by
  obtain rfl | rfl := hp <;> simp only [kwaitBody, hc]

theorem kreadBody_far (poll : Bool) :
    kreadBody poll o tile slot s b v = .ok (some (addReq s tile b slot (some 64)
      { reqOf (if poll then .kpoll else .kread) (if poll then 0x083 else 0x082) (effAddr v.base v.index o) o
          (effScope o (reelReach tile p)) with
        data := v.data.v, dst := if poll then .s 0 else o.data, entries := if poll then [] else slotQ b.pushes slot })) := by
  obtain rfl | rfl := hp <;> simp only [kreadBody, hc]

end Far

theorem kinitBody_reel (hc : reelCheck (effAddr v.base v.index o) v.data.v = .ok (.reel t k)) :
    kinitBody o tile slot s b v = .error (addrTrap causeIllegalTarget (effAddr v.base v.index o) v.data.v) := by
  simp only [kinitBody, hc]

theorem kinitBody_mem {va : Nat} (hc : reelCheck (effAddr v.base v.index o) v.data.v = .ok (.mem va)) :
    kinitBody o tile slot s b v = .ok (some (addReq s tile b slot none
      { reqOf .kinit 0x085 (effAddr v.base v.index o) o .pkg with data := v.data.v, order := .rlx })) := by
  simp only [kinitBody, hc]

theorem kbindBody_binds (hc : reelCheck (effAddr2 v.base o) v.data.v = .ok (.ownReel k)) (hlow : v.index.toNat < 256)
    (hne : v.index.toNat ≠ k) (hdepth : v.data.v.toNat < 2 ^ 32 ∨ v.data.v.toNat = 2 ^ 64 - 1) :
    kbindBody o tile slot s b v = .ok (some (addFlight s tile b.seq slot 1 [.reelBind k v.index.toNat v.data.v])) := by
  simp only [kbindBody, hc]
  exact if_neg (by rw [depth_refused_iff]; omega)

theorem kbindBody_refused (hc : reelCheck (effAddr2 v.base o) v.data.v = .ok (.ownReel k))
    (h : 256 ≤ v.index.toNat ∨ v.index.toNat = k ∨ (2 ^ 32 ≤ v.data.v.toNat ∧ v.data.v.toNat ≠ 2 ^ 64 - 1)) :
    kbindBody o tile slot s b v = .error (addrTrap causeReelBind (effAddr2 v.base o) v.data.v) := by
  simp only [kbindBody, hc]
  exact if_pos (by rwa [depth_refused_iff])

theorem kbindBody_reel (hc : reelCheck (effAddr2 v.base o) v.data.v = .ok (.reel t k)) :
    kbindBody o tile slot s b v = .error (addrTrap causeReelBind (effAddr2 v.base o) v.data.v) := by
  simp only [kbindBody, hc]

theorem kbindBody_mem {va : Nat} (hc : reelCheck (effAddr2 v.base o) v.data.v = .ok (.mem va)) :
    kbindBody o tile slot s b v = .ok (some (addReq s tile b slot none
      { reqOf .kbind 0x084 (effAddr2 v.base o) o .pkg with data := v.data.v, order := .rlx })) := by
  simp only [kbindBody, hc]

section Undefined
variable {x : Trap} (hc : reelCheck (effAddr v.base v.index o) v.data.v = .error x)
include hc

theorem kaddBody_bad (hrel : relWaits (coreGet s tile) b.seq o.order = false) : kaddBody o tile slot s b v = .error x := by
  simp [kaddBody, hrel, hc]

theorem kwaitBody_bad : kwaitBody o tile slot s b v = .error x := by simp only [kwaitBody, hc]

theorem kreadBody_bad (poll : Bool) : kreadBody poll o tile slot s b v = .error x := by simp only [kreadBody, hc]

theorem kinitBody_bad : kinitBody o tile slot s b v = .error x := by simp only [kinitBody, hc]

end Undefined
end ReelOperations

/-- Settles O25: the place that the address names, own register, far reel or none, decides what each operation does. -/
theorem ownReelOperations : Obligations.OwnReelOperations := by
  intro tile hi o s b k hk hrel slot ea lda a ea2 v vl x met bad
  refine ⟨reelSeen_noAdds, fun h he => ?_, fun h he => ?_, fun h he => ?_, fun h he => ?_,
    fun h he => ⟨fun hlow hne hdepth => ?_, fun hout => ?_⟩, fun h he => ?_, fun p hp hc => ?_, fun p hp hc h => ?_,
    fun h => ⟨fun j n hc => ?_, fun va hc => ?_⟩, fun hbad op hop h => ?_⟩
  · exact accessOp_ok h (kaddBody_own (reelCheck_ownReel hk he) hrel)
  · exact accessOp_ok h (kwaitBody_own (reelCheck_ownReel hk he))
  · exact accessOp_ok h (kpollBody_own (reelCheck_ownReel hk he))
  · intro s1 effs hd
    exact accessOp_ok h (kreadBody_own (reelCheck_ownReel hk he) hd)
  · exact accessOp_ok h (kbindBody_binds (reelCheck_ownReel hk he) hlow hne hdepth)
  · exact accessOp_bad h (kbindBody_refused (reelCheck_ownReel hk he) hout)
  · exact accessOp_ok h (kinitBody_own (reelCheck_ownReel hk he))
  · intro sc
    refine ⟨fun h => accessOp_ok h (kaddBody_far hp hc hrel), fun h => accessOp_ok h (kwaitBody_far hp hc),
      fun h => accessOp_ok h (kreadBody_far hp hc true), fun h => ?_⟩
    obtain rfl | rfl := hp
    · rw [if_neg (by simp)]
      exact accessOp_bad h (kinitBody_reel hc)
    · rw [if_pos rfl]
      exact accessOp_ok h (kinitBody_mem hc)
  · exact accessOp_ok h (kreadBody_far hp hc false)
  · exact accessOp_bad h (kbindBody_reel hc)
  · exact accessOp_ok h (kbindBody_mem hc)
  · have hc : reelCheck ea v = .error (addrTrap causeBadAddress ea v) := reelCheck_bad hbad
    simp only [List.mem_cons, List.not_mem_nil, or_false] at hop
    obtain rfl | rfl | rfl | rfl := hop
    · exact accessOp_bad h (kaddBody_bad hc hrel)
    · exact accessOp_bad h (kwaitBody_bad hc)
    · exact accessOp_bad h (kreadBody_bad hc true)
    · exact accessOp_bad h (kinitBody_bad hc)

end Sys2Proof.Machine

/-! # O26: an add to a reel is checked and performed indivisibly -/

namespace Sys2Proof.Machine

open Sys2Proof

section ReelAdds

/-- Every tile differs from what it was in its creel alone. -/
structure CreelsOnly (s u : State) : Prop where
  tile : ∀ k, ∃ creel, tileGet u k = { tileGet s k with creel }

variable {α : Type} {s u w : State} {n tile k : Nat} {v : Word}

theorem CreelsOnly.of_tiles (h : u.tiles = s.tiles) : CreelsOnly s u := ⟨fun k => ⟨_, tileGet_of_tiles h k⟩⟩

theorem CreelsOnly.trans (h : CreelsOnly s u) (h' : CreelsOnly u w) : CreelsOnly s w := by
  refine ⟨fun k => ?_⟩
  obtain ⟨_, hu⟩ := h.tile k
  obtain ⟨c, hw⟩ := h'.tile k
  exact ⟨c, by rw [hw, hu]⟩

theorem CreelsOnly.ite {p : Prop} [Decidable p] (h : CreelsOnly s u) (h' : CreelsOnly s w) :
    CreelsOnly s (if p then u else w) := by
  split
  · exact h
  · exact h'

theorem CreelsOnly.foldl {f : State → α → State} (hf : ∀ s x, CreelsOnly s (f s x)) (l : List α) (s : State) :
    CreelsOnly s (l.foldl f s) :=
  foldl_keeps (p := CreelsOnly s) (.of_tiles rfl) fun u x hu => hu.trans (hf u x)

theorem CreelsOnly.reels (h : CreelsOnly s u) (k : Nat) : (tileGet u k).reels = (tileGet s k).reels := by
  obtain ⟨_, hk⟩ := h.tile k
  rw [hk]

theorem tilePut_creelsOnly (s : State) (n : Nat) (creel : List CreelEntry) :
    CreelsOnly s (tilePut s n { tileGet s n with creel }) := by
  refine ⟨fun k => ?_⟩
  by_cases hk : k = n
  · subst hk
    exact ⟨creel, tileGet_tilePut_same ..⟩
  · exact ⟨_, tileGet_tilePut_other _ _ hk⟩

theorem MemoryOnly.creelsOnly (h : MemoryOnly s u) : CreelsOnly s u := by
  obtain ⟨_, _, _, _, _, _, rfl⟩ := h
  exact .of_tiles rfl

theorem creelSpill_creelsOnly (s : State) (n : Nat) : CreelsOnly s (creelSpill s n) := by
  unfold creelSpill
  extract_lets l
  refine .ite (.of_tiles rfl) ?_
  split
  · split
    · exact (spillWrite_memoryOnly ..).creelsOnly.trans (tilePut_creelsOnly ..)
    · exact .of_tiles rfl
  · exact .of_tiles rfl

theorem readyHead_creelsOnly (s : State) (n : Nat) (e : CreelEntry) (acq : Option (Nat × Scope)) :
    CreelsOnly s (readyHead s n e acq) :=
  (tilePut_creelsOnly ..).trans (creelSpill_creelsOnly ..)

theorem wakeEnt_creelsOnly (s : State) (x : WaitEnt) (acq : Bool) : CreelsOnly s (wakeEnt s x acq) := by
  unfold wakeEnt
  extract_lets t
  split
  · exact .of_tiles rfl
  · exact (tilePut_creelsOnly ..).trans (readyHead_creelsOnly ..)

theorem offerEntry_creelsOnly (s : State) (r : ReelAt) : CreelsOnly s (offerEntry s r) := by
  unfold offerEntry
  split
  · exact .of_tiles rfl
  · split
    · extract_lets x
      split
      · exact .of_tiles rfl
      · exact .ite ((tilePut_creelsOnly ..).trans (readyHead_creelsOnly ..)) ((tilePut_creelsOnly ..).trans (.of_tiles rfl))
    · exact .of_tiles rfl

/-- The wakes of a reel's waiters change creels alone (16 R365). -/
theorem wakeReel_creelsOnly (s : State) (r : ReelAt) : CreelsOnly s (wakeReel s r) := by
  unfold wakeReel
  extract_lets v hit l s1
  have hwaits (waits : List WaitEnt) : CreelsOnly s { s with waits } := .of_tiles rfl
  have hwoken : CreelsOnly s s1 := (hwaits _).trans (.foldl (fun s w => wakeEnt_creelsOnly s w true) ..)
  exact .ite (.of_tiles rfl) (hwoken.trans (.foldl (fun _ _ => .ite (offerEntry_creelsOnly ..) (.of_tiles rfl)) ..))

/-- The greatest value that the ceiling of a bound register lets it take (08 R191). -/
def addTop (t : Tile) (k : Nat) : Nat := (reelGet t (reelGet t k).ceiling).value.toNat + (reelGet t k).depth

theorem reelAdd_overflow (h : 2 ^ 64 ≤ (reelGet (tileGet s tile) k).value.toNat + v.toNat) :
    reelAdd s (.reg tile k) v = .error causeReelOverflow := by
  have hc : addCheck s (.reg tile k) v = some causeReelOverflow := if_pos h
  simp only [reelAdd, hc]

theorem addCheck_fits (h : (reelGet (tileGet s tile) k).value.toNat + v.toNat < 2 ^ 64) :
    addCheck s (.reg tile k) v =
      if (reelGet (tileGet s tile) k).bound &&
          decide (addTop (tileGet s tile) k < (reelGet (tileGet s tile) k).value.toNat + v.toNat)
        then some causeRingCeiling else none :=
  if_neg (Nat.not_le.2 h)

theorem reelAdd_ceiling (h : (reelGet (tileGet s tile) k).value.toNat + v.toNat < 2 ^ 64)
    (hbound : (reelGet (tileGet s tile) k).bound = true)
    (htop : addTop (tileGet s tile) k < (reelGet (tileGet s tile) k).value.toNat + v.toNat) :
    reelAdd s (.reg tile k) v = .error causeRingCeiling := by
  simp [reelAdd, addCheck_fits h, hbound, htop]

/-- An add that passes its check leaves the sum in the register: the wakes keep it (08 R191; 16 R365). -/
theorem reelAdd_takes (h : (reelGet (tileGet s tile) k).value.toNat + v.toNat < 2 ^ 64)
    (hok : (reelGet (tileGet s tile) k).bound = false ∨
      (reelGet (tileGet s tile) k).value.toNat + v.toNat ≤ addTop (tileGet s tile) k) :
    ∃ t, reelAdd s (.reg tile k) v = .ok t ∧
      (reelGet (tileGet t tile) k).value.toNat = (reelGet (tileGet s tile) k).value.toNat + v.toNat := by
  have hc : addCheck s (.reg tile k) v = none := by
    rw [addCheck_fits h]
    refine if_neg fun hbad => ?_
    obtain ⟨hbound, htop⟩ := Bool.and_eq_true_iff.1 hbad
    obtain hfree | hle := hok
    · exact Bool.false_ne_true (hfree.symm.trans hbound)
    · exact Nat.not_lt.2 hle (of_decide_eq_true htop)
  refine ⟨_, by simp only [reelAdd, hc]; rfl, ?_⟩
  have hval : (reelGet (tileGet (wakeReel (reelStore s (.reg tile k) (reelVal s (.reg tile k) + v)) (.reg tile k)) tile) k).value =
      (reelGet (tileGet s tile) k).value + v := by
    simp [reelGet, (wakeReel_creelsOnly ..).reels, reelStore, reelVal]
  rw [hval, BitVec.toNat_add, Nat.mod_eq_of_lt h]

/-- An add that lands is seen by the tile's own reads (08 R191). -/
theorem reelOwn_logged (t : Tile) (k seq slot : Nat) (v : Word) :
    reelOwn { t with core := { t.core with log := t.core.log ++ [⟨seq, slot, .reelAdd k v⟩] } } k = reelOwn t k + v := by
  simp only [reelOwn, reelGet, List.foldl_append, List.foldl_cons, List.foldl_nil, if_true]

end ReelAdds

/-- Settles O26: the two faults of the check, the sum that the wakes keep, and the tile's own view. -/
theorem reelAddIsChecked : Obligations.ReelAddIsChecked := by
  intro s tile k v x new top
  exact ⟨reelAdd_overflow, fun h hbound htop => reelAdd_ceiling h hbound htop, fun h hok => reelAdd_takes h hok,
    fun seq slot => reelOwn_logged (tileGet s tile) k seq slot v⟩

end Sys2Proof.Machine

/-! # O48: page walks, invalidations and frozen frames -/

namespace Sys2Proof.Machine

open Sys2Proof

variable {α : Type} {s u w : State}

/-- What holds of the default and of every entry holds of what a table answers. -/
theorem mapGet_of_forall {p : α → Prop} {m : NMap α} {d : α} (hd : p d) (h : ∀ e ∈ m, p e.2) (i : Nat) : p (mapGet m i d) := by
  unfold mapGet
  cases hx : mapGet? m i with
  | none => exact hd
  | some x => exact h _ (mem_of_mapGet? hx)

/-! ## The walker of a die (10 R238, R240, R241, R247) -/

section Walks

variable {d k leaf bits : Nat} {m : Nat × Nat × Nat} {y : Walk}

/-- A state that differs from another in its touched-dies masks alone. -/
def TouchedOnly (s u : State) : Prop := ∃ touched, u = { s with touched }

theorem touchPa_touchedOnly (s : State) (asid pa : Nat) : TouchedOnly s (touchPa s asid pa) := by
  unfold touchPa touch
  split
  · dsimp only
    split <;> exact ⟨_, rfl⟩
  · exact ⟨_, rfl⟩

theorem TouchedOnly.trans (h : TouchedOnly s u) (h' : TouchedOnly u w) : TouchedOnly s w := by
  obtain ⟨_, rfl⟩ := h
  obtain ⟨_, rfl⟩ := h'
  exact ⟨_, rfl⟩

/-- Reading the tables of a walk touches their homes and changes nothing else (10 R238; 18 R420). -/
theorem walkRead_touchedOnly (s : State) (y : Walk) : TouchedOnly s (walkRead s y).2 := by
  have hfold : TouchedOnly s ((walkTables s y.asid y.vpn).2.foldl (fun s pa => touchPa s y.asid pa) s) :=
    foldl_keeps (p := TouchedOnly s) ⟨s.touched, rfl⟩ fun u pa hu => hu.trans (touchPa_touchedOnly u y.asid pa)
  fun_cases walkRead <;> exact hfold

/-- A walk keeps its page and its tiles; where it met a migrating page it repeats 2 µs on (10 R247). -/
theorem walkRead_keeps (s : State) (y : Walk) : ∃ retry out bad, (walkRead s y).1 = { y with retry, out, bad } ∧
    (retry = 0 ∨ retry = s.clock + 72000) := by
  obtain ⟨touched, ht⟩ := walkRead_touchedOnly s y
  revert ht
  fun_cases walkRead with
  | case1 => exact fun _ => ⟨_, _, _, rfl, .inl rfl⟩
  | case2 => exact fun _ => ⟨_, _, _, rfl, .inl rfl⟩
  | case3 => exact fun ht => ⟨_, _, _, rfl, .inr (congrArg migRetry ht :)⟩

theorem walkRead_leaf (h : (walkTables s y.asid y.vpn).1 = .leaf leaf bits) : (walkRead s y).1.out = some (leaf, bits) := by
  simp only [walkRead, h]

theorem walkRead_bad {c : Nat} (h : (walkTables s y.asid y.vpn).1 = .bad c) :
    (walkRead s y).1.out = none ∧ (walkRead s y).1.bad = c := by
  simp only [walkRead, h, and_self]

/-- The walk that a miss starts, before its tables are read (10 R241). -/
def missWalk (m : Nat × Nat × Nat) : Walk := ⟨m.2.1, m.2.2, [m.1], 0, none, 0⟩

/-- The walk walks the page of the miss. -/
def walksPage (m : Nat × Nat × Nat) (y : Walk) : Bool := decide (y.asid = m.2.1) && decide (y.vpn = m.2.2)

/-- The misses of a die but one. -/
def missesBut (x : Die) (m : Nat × Nat × Nat) : List (Nat × Nat × Nat) := x.missQ.filter fun y => decide (y ≠ m)

theorem not_mem_missesBut (x : Die) (m : Nat × Nat × Nat) : m ∉ missesBut x m := by
  simp [missesBut]

theorem walkStart_joins (h : pickTurn s (missesReady s) = some (d, m)) (hj : (dieGet s d).walks.any (walksPage m) = true) :
    walkStart s = diePut s d { dieGet s d with
      missQ := missesBut (dieGet s d) m,
      walks := (dieGet s d).walks.map fun y => if y.asid = m.2.1 ∧ y.vpn = m.2.2 then { y with tiles := y.tiles ++ [m.1] } else y } := by
  unfold walksPage at hj
  simp only [walkStart, h, hj, if_true]
  rfl

theorem walkStart_starts (h : pickTurn s (missesReady s) = some (d, m)) (hj : (dieGet s d).walks.any (walksPage m) = false) :
    ∃ u, TouchedOnly s u ∧ walkStart s = diePut u d { dieGet s d with
      missQ := missesBut (dieGet s d) m,
      walks := (dieGet s d).walks ++ [(walkRead s (missWalk m)).1] } := by
  unfold walksPage at hj
  obtain ⟨touched, ht⟩ := walkRead_touchedOnly s (missWalk m)
  refine ⟨_, ⟨touched, rfl⟩, ?_⟩
  unfold missWalk at ht
  simp only [walkStart, h, hj, Bool.false_eq_true, if_false, ht]
  rfl

theorem mem_walks_of_walksRetry (h : pickTurn s (walksRetry s) = some (d, y)) : y ∈ (dieGet s d).walks := by
  obtain ⟨k, -, hk⟩ := List.mem_flatMap.1 (List.mem_of_getElem? h)
  obtain ⟨x, hx, he⟩ := List.mem_map.1 hk
  cases he
  exact (List.mem_filter.1 hx).1

theorem walkRetry_repeats (h : pickTurn s (walksRetry s) = some (d, y)) :
    ∃ u, TouchedOnly s u ∧ walkRetry s = diePut u d { dieGet s d with
      walks := (dieGet s d).walks.map fun x => if x.asid = y.asid ∧ x.vpn = y.vpn then (walkRead s y).1 else x } := by
  obtain ⟨touched, ht⟩ := walkRead_touchedOnly s y
  refine ⟨_, ⟨touched, rfl⟩, ?_⟩
  simp only [walkRetry, h, ht]
  rfl

/-! ## The outcome of a walk goes to its tiles (10 R240) -/

/-- The entry that a walk gives with its leaf. -/
def walkEnt (y : Walk) (leaf bits : Nat) : TlbEnt := ⟨y.asid, y.vpn * 65536 / 2 ^ bits, bits, leaf⟩

/-- What the end of a freeze leaves: the TLB of the tile, every other tile, the dies and memory. -/
theorem thaw_keeps (s : State) (tile : Nat) : (coreGet (thaw s tile) tile).tlb = (coreGet s tile).tlb ∧
    (∀ k ≠ tile, tileGet (thaw s tile) k = tileGet s k) ∧ (thaw s tile).dies = s.dies ∧ (thaw s tile).mem = s.mem := by
  fun_cases thaw with
  | case1 => exact ⟨rfl, fun _ _ => rfl, rfl, rfl⟩
  | case2 => exact ⟨rfl, fun _ _ => rfl, rfl, rfl⟩
  | case3 => exact ⟨congrArg (·.core.tlb) (tileGet_tilePut_same ..), fun k hk => tileGet_tilePut_other _ _ hk, rfl, rfl⟩

theorem walkDeliver_keeps (y : Walk) (s : State) (tile : Nat) : (∀ k ≠ tile, tileGet (walkDeliver y s tile) k = tileGet s k) ∧
    (walkDeliver y s tile).dies = s.dies ∧ (walkDeliver y s tile).mem = s.mem := by
  have hput (t : Tile) : (∀ k ≠ tile, tileGet (thaw (tilePut s tile t) tile) k = tileGet s k) ∧
      (thaw (tilePut s tile t) tile).dies = s.dies ∧ (thaw (tilePut s tile t) tile).mem = s.mem := by
    obtain ⟨-, hother, hdies, hmem⟩ := thaw_keeps (tilePut s tile t) tile
    exact ⟨fun k hk => (hother k hk).trans (tileGet_tilePut_other _ _ hk), hdies, hmem⟩
  fun_cases walkDeliver <;> exact hput _

theorem walkEnt_mem_walkDeliver (ho : y.out = some (leaf, bits)) (s : State) (tile : Nat) :
    walkEnt y leaf bits ∈ (coreGet (walkDeliver y s tile) tile).tlb := by
  simp only [walkDeliver, ho]
  rw [(thaw_keeps ..).1, coreGet, tileGet_tilePut_same]
  exact List.mem_cons_self

/-- Every tile that waits for a walk gets its entry. -/
theorem walkEnt_mem_foldl_walkDeliver (ho : y.out = some (leaf, bits)) {l : List Nat} (hk : k ∈ l) (s : State) :
    walkEnt y leaf bits ∈ (coreGet (l.foldl (walkDeliver y) s) k).tlb := by
  refine foldl_brings (q := fun u => walkEnt y leaf bits ∈ (coreGet u k).tlb) hk (fun u => walkEnt_mem_walkDeliver ho u k)
    (fun u j _ hj hu => ?_) s
  rwa [coreGet, (walkDeliver_keeps y u j).1 k hj.symm]

theorem foldl_walkDeliver_keeps (y : Walk) (l : List Nat) (s : State) :
    (l.foldl (walkDeliver y) s).dies = s.dies ∧ (l.foldl (walkDeliver y) s).mem = s.mem := by
  refine foldl_keeps (p := fun u : State => u.dies = s.dies ∧ u.mem = s.mem) ⟨rfl, rfl⟩ fun u j hu => ?_
  obtain ⟨-, hdies, hmem⟩ := walkDeliver_keeps y u j
  exact ⟨hdies.trans hu.1, hmem.trans hu.2⟩

/-- A die after the end of a walk with a leaf: the walk has left, and the second-level TLB has the entry. -/
def dieEnded (x : Die) (y : Walk) (leaf bits : Nat) : Die :=
  { x with
    tlb2 := (walkEnt y leaf bits :: x.tlb2).take 16384,
    walks := x.walks.filter fun z => !(decide (z.asid = y.asid) && decide (z.vpn = y.vpn)) }

theorem walkEnd_leaf (h : pickTurn s (walksDone s) = some (d, y)) (ho : y.out = some (leaf, bits)) :
    walkEnd s = y.tiles.foldl (walkDeliver y) (diePut s d (dieEnded (dieGet s d) y leaf bits)) := by
  simp only [walkEnd, h, ho]
  rfl

end Walks

/-! ## Invalidations (10 R242, R243) -/

section Invalidations

variable {h k : Nat} {v : Word}

/-- The word that a write of TLBI_CMD with a kind takes. -/
def tlbiWord (val : BitVec 64) (kind : Nat) : Word := BitVec.ofNat 64 (val.toNat % 2 ^ 62 + kind * 2 ^ 62)

theorem tlbiWord_fields (val : BitVec 64) (hk : k < 3) : natBits (tlbiWord val k).toNat 62 2 = k ∧
    natBits (tlbiWord val k).toNat 36 15 = natBits val.toNat 36 15 ∧
    natBits (tlbiWord val k).toNat 51 11 = natBits val.toNat 51 11 := by
  simp only [tlbiWord, natBits, BitVec.toNat_ofNat]
  omega

/-- A write of TLBI_CMD that is taken: none is in progress, and it names a page of the host (10 R242). -/
def TlbiLegal (s : State) (h : Nat) (v : Word) : Prop :=
  (hostGet s h).tlbi = none ∧ natBits v.toNat 36 15 = 0 ∧ hostOwns s h (natBits v.toNat 51 11) = true

theorem tlbiWrite_legal (hk : natBits v.toNat 62 2 ≠ 3) (hv : TlbiLegal s h v) :
    tlbiWrite h v s = hostPut s h { hostGet s h with tlbi := some v } := by
  obtain ⟨hidle, hzero, hown⟩ := hv
  simp [tlbiWrite, hidle, hk, hzero, hown]

theorem tlbiWrite_refused (hv : ¬ TlbiLegal s h v) :
    tlbiWrite h v s = noteBits (hostPut s h { hostGet s h with tlbiErr := true }) (hostReg h 0x1018) 2 := by
  refine if_pos ?_
  by_contra hok
  refine hv ?_
  simp only [Bool.or_eq_true, not_or, Bool.not_eq_true, Option.isSome_eq_false_iff, Option.isNone_iff_eq_none,
    decide_eq_false_iff_not, not_not, Bool.not_eq_false'] at hok
  obtain ⟨⟨⟨hidle, -⟩, hzero⟩, hown⟩ := hok
  exact ⟨hidle, hzero, hown⟩

/-- Tiles, memory and the second-level TLBs stand. -/
structure TlbsStand (s u : State) : Prop where
  tiles : u.tiles = s.tiles
  mem : u.mem = s.mem
  tlb2 : ∀ k, (dieGet u k).tlb2 = (dieGet s k).tlb2

theorem TlbsStand.refl (s : State) : TlbsStand s s := ⟨rfl, rfl, fun _ => rfl⟩

theorem TlbsStand.trans (h : TlbsStand s u) (h' : TlbsStand u w) : TlbsStand s w :=
  ⟨h'.tiles.trans h.tiles, h'.mem.trans h.mem, fun k => (h'.tlb2 k).trans (h.tlb2 k)⟩

theorem TlbsStand.foldl {f : State → α → State} (hf : ∀ s x, TlbsStand s (f s x)) (l : List α) (s : State) :
    TlbsStand s (l.foldl f s) :=
  foldl_keeps (p := TlbsStand s) (.refl s) fun u x hu => hu.trans (hf u x)

theorem diePut_tlbsStand {d : Nat} {x : Die} (h : x.tlb2 = (dieGet s d).tlb2) : TlbsStand s (diePut s d x) := by
  refine ⟨rfl, rfl, fun k => ?_⟩
  by_cases hk : k = d
  · subst hk
    rw [dieGet_diePut_same, h]
  · rw [dieGet_diePut_other _ _ hk]

theorem askWalk_tlbsStand (s : State) (tile asid vpn : Nat) : TlbsStand s (askWalk s tile asid vpn) := by
  fun_cases askWalk with
  | case1 => exact .refl s
  | case2 => exact diePut_tlbsStand rfl

theorem walkRead_tlbsStand (s : State) (y : Walk) : TlbsStand s (walkRead s y).2 := by
  obtain ⟨touched, ht⟩ := walkRead_touchedOnly s y
  rw [ht]
  exact ⟨rfl, rfl, fun _ => rfl⟩

/-- No TLB holds an entry that the invalidation of `s` names, and memory is that of `s` (10 R243). -/
structure TlbsPurged (s : State) (h : Nat) (v : Word) (u : State) : Prop where
  mem : u.mem = s.mem
  first : ∀ k, ∀ e ∈ (coreGet u k).tlb, tlbiHits s h v e.asid e.vpn e.bits = false
  second : ∀ k, ∀ e ∈ (dieGet u k).tlb2, tlbiHits s h v e.asid e.vpn e.bits = false

theorem TlbsPurged.stand (hp : TlbsPurged s h v u) (hu : TlbsStand u w) : TlbsPurged s h v w where
  mem := hu.mem.trans hp.mem
  first k := by
    rw [coreGet, tileGet_of_tiles hu.tiles]
    exact hp.first k
  second k := by
    rw [hu.tlb2]
    exact hp.second k

theorem tlbiHits_of_mem_filter {l : List TlbEnt} :
    ∀ e ∈ l.filter fun e => !tlbiHits s h v e.asid e.vpn e.bits, tlbiHits s h v e.asid e.vpn e.bits = false := fun _ he => by
  simpa only [Bool.not_eq_true'] using (List.mem_filter.1 he).2

/-- An invalidation purges the TLBs first; what it asks and reads again after that installs no entry. -/
theorem tlbiDone_purges (ha : pickTurn s (tlbiAsked s) = some (h, v)) (hs : tlbiStores s h v = false) :
    ∃ u, TlbsPurged s h v u ∧ tlbiDone s = hostPut u h { hostGet u h with tlbi := none } := by
  simp -zeta only [tlbiDone, ha]
  extract_lets asidOf named back keep s1 s2 s3
  rw [if_neg (Bool.eq_false_iff.1 hs)]
  have h1 : TlbsPurged s h v s1 := by
    refine ⟨rfl, fun k => ?_, fun k => ?_⟩
    · refine mapGet_of_forall (p := fun t : Tile => ∀ e ∈ t.core.tlb, tlbiHits s h v e.asid e.vpn e.bits = false)
        (fun _ he => absurd he List.not_mem_nil) (fun t ht => ?_) k
      obtain ⟨t, -, rfl⟩ := List.mem_map.1 ht
      exact tlbiHits_of_mem_filter
    · refine mapGet_of_forall (p := fun x : Die => ∀ e ∈ x.tlb2, tlbiHits s h v e.asid e.vpn e.bits = false)
        (fun _ he => absurd he List.not_mem_nil) (fun x hx => ?_) k
      obtain ⟨x, -, rfl⟩ := List.mem_map.1 hx
      exact tlbiHits_of_mem_filter
  have h2 : TlbsStand s1 s2 := .foldl (fun _ _ => askWalk_tlbsStand ..) _ _
  have h3 : TlbsStand s2 s3 := by
    refine .foldl (fun u d => .foldl (fun u y => ?_) _ _) _ _
    split
    · exact (walkRead_tlbsStand u y).trans (diePut_tlbsStand rfl)
    · exact .refl u
  exact ⟨s3, h1.stand (h2.trans h3), rfl⟩

end Invalidations

/-! ## Frozen frames (10 R244, R245) -/

section Frames

variable {h : Nat} {v : Word}

/-- A frame of HBM, with the code of its size. -/
structure FrameNamed (f : Nat × Nat) : Prop where
  code : f.2 ≠ 3
  aligned : f.1 % [2 ^ 16, 2 ^ 21, 2 ^ 30].getD f.2 1 = 0
  inside : inHbm f.1 ([2 ^ 16, 2 ^ 21, 2 ^ 30].getD f.2 1) = true

/-- The three sizes of a frame, by its code. -/
theorem frameSize_eq {c : Nat} (hlt : c < 4) (hc : c ≠ 3) :
    (if c = 0 then 2 ^ 16 else if c = 1 then 2 ^ 21 else 2 ^ 30) = [2 ^ 16, 2 ^ 21, 2 ^ 30].getD c 1 := by
  match c, hlt with
  | 0, _ => rfl
  | 1, _ => rfl
  | 2, _ => rfl
  | 3, _ => exact absurd rfl hc

theorem frzFrame_code_lt (x : HostBlk) : (frzFrame x).2 < 4 := Nat.mod_lt _ (by decide)

/-- The host's block as a write of FRZ_CTL finds it, with the error that it may clear. -/
def frzAsked (s : State) (h : Nat) (v : Word) : HostBlk :=
  if (keepSet s (hostReg h 0x1028) v).getLsbD 9 then { hostGet s h with frzErr := false } else hostGet s h

theorem frzAsked_keeps (s : State) (h : Nat) (v : Word) : frzFrame (frzAsked s h v) = frzFrame (hostGet s h) ∧
    (frzAsked s h v).frozen = (hostGet s h).frozen ∧ (frzAsked s h v).frzBusy = (hostGet s h).frzBusy := by
  unfold frzAsked
  split <;> exact ⟨rfl, rfl, rfl⟩

theorem hostGet_frzWaits (s : State) (h : Nat) : hostGet (frzWaits s) h = hostGet s h := by
  fun_cases frzWaits <;> rfl

/-- A write of FRZ_CTL is taken when it asks for one thing of a frame of HBM: a freeze where the frame is frozen already or the
list has room, or a thaw of a frozen frame (10 R244, R245). -/
theorem frzWrite_taken {x : HostBlk} (hx : frzAsked s h v = x) (hidle : x.frzBusy = false) (hn : FrameNamed (frzFrame x))
    (hone : v.getLsbD 1 = !v.getLsbD 0) (hroom : v.getLsbD 0 = true → frzFrame x ∈ x.frozen ∨ x.frozen.length < 16)
    (hthere : v.getLsbD 0 = false → frzFrame x ∈ x.frozen) :
    frzWrite h v s = if v.getLsbD 0 then
        frzWaits (hostPut s h { x with
          frzBusy := true, frozen := if x.frozen.contains (frzFrame x) then x.frozen else x.frozen ++ [frzFrame x] })
      else hostPut s h { x with frozen := x.frozen.filter (· ≠ frzFrame x) } := by
  subst hx
  obtain ⟨hcode, haligned, hinside⟩ := hn
  rw [← frameSize_eq (frzFrame_code_lt _) hcode] at haligned hinside
  unfold frzWrite
  extract_lets x0 x f size freeze thaw bad
  have hthaw : thaw = !freeze := hone
  have hok : bad = false := by
    change f.1 % size = 0 at haligned
    change inHbm f.1 size = true at hinside
    change f.2 ≠ 3 at hcode
    change x.frzBusy = false at hidle
    change freeze = true → f ∈ x.frozen ∨ x.frozen.length < 16 at hroom
    change freeze = false → f ∈ x.frozen at hthere
    simp only [bad, hidle, hthaw, hcode, haligned, hinside]
    cases hf : freeze with
    | true => simpa [or_iff_not_imp_left] using hroom hf
    | false => simpa using hthere hf
  rw [if_neg (by simp [hthaw]), if_neg (by simp [hok])]
  rfl

theorem frzWrite_freezes (hidle : (hostGet s h).frzBusy = false) (hn : FrameNamed (frzFrame (hostGet s h)))
    (hf : v.getLsbD 0 = true) (ht : v.getLsbD 1 = false)
    (hroom : frzFrame (hostGet s h) ∈ (hostGet s h).frozen ∨ (hostGet s h).frozen.length < 16) :
    frzFrame (hostGet s h) ∈ (hostGet (frzWrite h v s) h).frozen ∧ (hostGet (frzWrite h v s) h).frzBusy = true := by
  obtain ⟨hframe, hfrozen, hbusy⟩ := frzAsked_keeps s h v
  rw [← hframe] at hn
  rw [← hframe, ← hfrozen] at hroom
  rw [frzWrite_taken rfl (hbusy.trans hidle) hn (by rw [hf, ht]; rfl) (fun _ => hroom) (by rw [hf]; nofun), if_pos hf,
    hostGet_frzWaits, hostGet_hostPut_same, ← hframe]
  refine ⟨?_, rfl⟩
  dsimp only
  split
  · exact List.contains_iff_mem.1 ‹_›
  · exact List.mem_append_right _ List.mem_cons_self

theorem frzWrite_thaws (hidle : (hostGet s h).frzBusy = false) (hn : FrameNamed (frzFrame (hostGet s h)))
    (hf : v.getLsbD 0 = false) (ht : v.getLsbD 1 = true) (hthere : frzFrame (hostGet s h) ∈ (hostGet s h).frozen) :
    frzFrame (hostGet s h) ∉ (hostGet (frzWrite h v s) h).frozen ∧ (hostGet (frzWrite h v s) h).frzBusy = false := by
  obtain ⟨hframe, hfrozen, hbusy⟩ := frzAsked_keeps s h v
  rw [← hframe] at hn
  rw [← hframe, ← hfrozen] at hthere
  rw [frzWrite_taken rfl (hbusy.trans hidle) hn (by rw [hf, ht]; rfl) (by rw [hf]; nofun) (fun _ => hthere),
    if_neg (Bool.eq_false_iff.1 hf), hostGet_hostPut_same, ← hframe]
  exact ⟨by simp, hbusy.trans hidle⟩

theorem wroteBack_dies (s : State) (gs : List Nat) : (wroteBack s gs).dies = s.dies := by
  fun_cases wroteBack <;> rfl

/-- The cache of a die holds no line of a frozen frame (10 R245). -/
def Unfrozen (s : State) (x : Die) : Prop := ∀ g, g ∈ x.cached ∨ g ∈ x.dirty → frameFrozen s (g * 64) = false

/-- The end of a recall takes the lines of frozen frames out of every die's cache (10 R245). -/
theorem frzRecall_recalls (hp : pickTurn s ((List.range 2).filter fun k => (hostGet s k).frzBusy) = some h) :
    (hostGet (frzRecall s) h).frzBusy = false ∧ (frzRecall s).mem = s.mem ∧
      ∀ k, Unfrozen s (dieGet (frzRecall s) k) := by
  simp -zeta only [frzRecall, hp]
  extract_lets out back s1
  have hclear : ∀ e ∈ s1.dies, Unfrozen s e.2 := by
    intro e he
    simp only [s1, wroteBack_dies] at he
    obtain ⟨e, -, rfl⟩ := List.mem_map.1 he
    intro g hg
    have hout : out g = true := hg.elim (fun hg => (List.mem_filter.1 hg).2) fun hg => (List.mem_filter.1 hg).2
    simpa only [out, Bool.not_eq_true'] using hout
  refine ⟨congrArg HostBlk.frzBusy (hostGet_hostPut_same ..), (wroteBack_sameBytes ..).mem, fun k => ?_⟩
  exact mapGet_of_forall (p := Unfrozen s) (fun g hg => absurd hg (by simp [dieReset])) hclear k

end Frames

/-- Settles O48: each event opened at the walk, the invalidation or the frame that it takes. -/
theorem translationEvents : Obligations.TranslationEvents := by
  intro s host val d w h x
  refine ⟨fun m hm => ?start, fun leaf bits hw ho => ?done, fun hw => ?retry, fun hcan r hr => ?write, fun v ha hs => ?complete,
    fun hcan hidle => ⟨fun ht hcode hal hin hroom => ?freeze, fun hf hcode hal hin hthere => ?thaw⟩, fun hp => ?finish⟩
  case start =>
    intro joined
    cases hj : (dieGet s d).walks.any joined with
    | false =>
      obtain ⟨u, ⟨touched, rfl⟩, he⟩ := walkStart_starts hm hj
      obtain ⟨retry, out, bad, hread, -⟩ := walkRead_keeps s (missWalk m)
      refine ⟨_, congrArg Host.Outcome.next he, ?_, rfl, rfl, fun _ => ?_, nofun⟩
      · rw [dieGet_diePut_same]
        exact not_mem_missesBut _ m
      · rw [dieGet_diePut_same]
        refine ⟨_, rfl, ?_, ?_, ?_, fun leaf bits => walkRead_leaf (y := missWalk m), fun c => walkRead_bad (y := missWalk m)⟩
        all_goals rw [hread]; rfl
    | true =>
      refine ⟨_, congrArg Host.Outcome.next (walkStart_joins hm hj), ?_, rfl, rfl, nofun, fun _ y hy hjoin => ?_⟩
      · rw [dieGet_diePut_same]
        exact not_mem_missesBut _ m
      · rw [dieGet_diePut_same]
        exact List.mem_map.2 ⟨y, hy, if_pos (by simpa [joined] using hjoin)⟩
  case done =>
    obtain ⟨hdies, hmem⟩ := foldl_walkDeliver_keeps w w.tiles (diePut s d (dieEnded (dieGet s d) w leaf bits))
    have hdie : dieGet (walkEnd s) d = dieEnded (dieGet s d) w leaf bits := by
      rw [walkEnd_leaf hw ho, dieGet, hdies]
      exact dieGet_diePut_same ..
    refine ⟨_, rfl, ?_, fun y hy hasid hvpn => ?_, ?_, fun k hk => ?_⟩
    · rw [walkEnd_leaf hw ho]
      exact hmem
    · rw [hdie] at hy
      simpa [hasid, hvpn] using (List.mem_filter.1 hy).2
    · rw [hdie]
      exact List.mem_cons_self
    · rw [walkEnd_leaf hw ho]
      exact walkEnt_mem_foldl_walkDeliver ho hk _
  case retry =>
    obtain ⟨u, ⟨touched, rfl⟩, he⟩ := walkRetry_repeats hw
    obtain ⟨retry, out, bad, hread, hretry⟩ := walkRead_keeps s w
    refine ⟨_, congrArg Host.Outcome.next he, rfl, (walkRead s w).1, ?_, ?_⟩
    · rw [dieGet_diePut_same]
      exact List.mem_map.2 ⟨w, mem_walks_of_walksRetry hw, if_pos ⟨rfl, rfl⟩⟩
    · rw [hread]
      exact ⟨rfl, rfl, hretry⟩
  case write =>
    have hexec : exec (r.1 host val) s = hostDoes host s (tlbiWrite h (tlbiWord val r.2)) ∧ r.2 < 3 := by
      simp only [List.mem_cons, List.not_mem_nil, or_false] at hr
      obtain rfl | rfl | rfl := hr
      · exact ⟨rfl, by decide⟩
      · exact ⟨rfl, by decide⟩
      · exact ⟨rfl, by decide⟩
    obtain ⟨hdoes, hkind⟩ := hexec
    obtain ⟨hk, hzero, hasid⟩ := tlbiWord_fields val hkind
    have hlegal : TlbiLegal s h (tlbiWord val r.2) ↔
        x.tlbi = none ∧ natBits val.toNat 36 15 = 0 ∧ hostOwns s h (natBits val.toNat 51 11) = true := by
      rw [TlbiLegal, hzero, hasid]
    intro v legal
    rw [hdoes, hostDoes_can hcan]
    exact ⟨fun hv => congrArg Host.Outcome.next (tlbiWrite_legal (by omega) (hlegal.2 hv)),
      fun hv => congrArg Host.Outcome.next (tlbiWrite_refused (mt hlegal.1 hv))⟩
  case complete =>
    obtain ⟨u, hu, he⟩ := tlbiDone_purges ha hs
    exact ⟨_, congrArg Host.Outcome.next he, congrArg HostBlk.tlbi (hostGet_hostPut_same ..), hu.mem, hu.first, hu.second⟩
  case freeze =>
    exact ⟨_, hostDoes_can hcan, frzWrite_freezes hidle ⟨hcode, hal, hin⟩ (by simp) (by rw [BitVec.getLsbD_or, ht]; rfl) hroom⟩
  case thaw =>
    exact ⟨_, hostDoes_can hcan, frzWrite_thaws hidle ⟨hcode, hal, hin⟩ (by rw [BitVec.getLsbD_or, hf]; rfl) (by simp) hthere⟩
  case finish => exact ⟨_, rfl, frzRecall_recalls hp⟩

end Sys2Proof.Machine

/-! # O49: the copy sequencers -/

namespace Sys2Proof.Machine

open Sys2Proof

section CopySequencers

variable {s : State} {n e : Nat} {r : Run} {rs : List Run} {p : ReelAt}

/-! ## A burst (11 R258, R259) -/

/-- A sequencer with a command of its queue taken: it begins at its FIRST burst. -/
def cpStarted (q : QEntry) (rest : List QEntry) (x : Engine) : Engine :=
  { x with queue := rest, progNext := cpFirst q.cmd,
           runs := [runOf q.cmd (cpFirst q.cmd) [(cpKeySig, cpFirst q.cmd / cpGroup q.cmd)]] }

theorem copyBurst_starts {q : QEntry} {rest : List QEntry} (ho : cpOpen s n e = true)
    (hr : (engGet (tileGet s n) e).runs = []) (hq : cpNext (engGet (tileGet s n) e) = some (q, rest)) :
    copyBurst n e s = engMap s n e (cpStarted q rest) := by
  simp only [copyBurst, ho, hr, hq, Bool.not_true, Bool.false_eq_true, if_false]
  rfl

/-- The running command of a sequencer has a burst left, its fork has been delivered, and no signal goes before the burst. -/
structure BurstNext (s : State) (n e : Nat) (r : Run) : Prop where
  opened : cpOpen s n e = true
  running : ∃ rs, (engGet (tileGet s n) e).runs = r :: rs
  left : r.unit < cpTotal r.cmd
  forked : forkReady s r.cmd.fork = true
  unsignalled : cpSigDue (tileGet s n) e r = false

theorem BurstNext.not_held (h : BurstNext s n e r) :
    ¬ (cpTotal r.cmd ≤ r.unit ∨ (!forkReady s r.cmd.fork) = true ∨ cpSigDue (tileGet s n) e r = true) := by
  simp [h.left, h.forked, h.unsignalled]

/-- A wait for the binding or the gate goes before the burst (11 R262, R263). -/
theorem BurstNext.copyBurst_waits (h : BurstNext s n e r) (hw : cpBindWait s n r = true ∨ cpGateWait r = true) :
    copyBurst n e s = engMap s n e fun x => { x with waiting := true } := by
  obtain ⟨rs, hr⟩ := h.running
  simp only [copyBurst, h.opened, hr, if_neg h.not_held, Bool.not_true, Bool.false_eq_true, if_false,
    if_pos (Bool.or_eq_true_iff.2 hw)]

/-- Of a command that waits for nothing the outcome of its next burst decides. -/
theorem BurstNext.copyBurst_bursts (h : BurstNext s n e r) (hb : cpBindWait s n r = false) (hg : cpGateWait r = false) :
    (∀ s1, cpBurstRun s n e r.cmd r.unit = .ok (s1, none) → copyBurst n e s = engMap s1 n e fun x =>
      { runMap x (fun y => { y with unit := y.unit + 1 }) with progNext := r.unit + 1 }) ∧
    (∀ s1 x, cpBurstRun s n e r.cmd r.unit = .ok (s1, some x) → copyBurst n e s = engStopAt s1 n e (cpCode r.cmd) x) ∧
    (∀ x, cpBurstRun s n e r.cmd r.unit = .bad x → copyBurst n e s = engStopAt s n e (cpCode r.cmd) x) ∧
    (∀ a, cpBurstRun s n e r.cmd r.unit = .wait a → copyBurst n e s = engAsk s a) := by
  obtain ⟨rs, hr⟩ := h.running
  simp only [copyBurst, h.opened, hr, if_neg h.not_held, hb, hg, Bool.or_self, Bool.not_true, Bool.false_eq_true, if_false]
  exact ⟨fun s1 hx => by rw [hx], fun s1 x hx => by rw [hx], fun x hx => by rw [hx], fun a hx => by rw [hx]⟩

/-! ## The ends of the waits (11 R262, R263) -/

/-- The first command of an engine has passed the wait of a key for its next group. -/
def groupAdmitted (key : Nat) (x : Engine) : Engine :=
  { runMap x (fun y => { y with aux := mapPut y.aux key ((cpNextGroup y).1 + 1) }) with waiting := false }

theorem groupAdmitted_runs {x : Engine} (h : x.runs = r :: rs) (key : Nat) :
    (groupAdmitted key x).runs = { r with aux := mapPut r.aux key ((cpNextGroup r).1 + 1) } :: rs := by
  rw [groupAdmitted, runMap_cons h]

@[simp] theorem tileGet_acquire (s : State) (a : Nat) (x : Agent) (loc : Nat) (sc : Scope) (k : Nat) :
    tileGet (acquire s a x loc sc) k = tileGet s k := tileGet_agentPut ..

theorem reelTouch_touchedOnly (s : State) (asid : Nat) (p : ReelAt) : TouchedOnly s (reelTouch s asid p) := by
  cases p with
  | reg t k =>
    unfold reelTouch touch
    dsimp only
    split <;> exact ⟨_, rfl⟩
  | mem pa => exact touchPa_touchedOnly s asid pa

/-- The command of a run acquires a reel, with the clock that its agent has in the state. -/
def reelAcquired (s : State) (n : Nat) (r : Run) (p : ReelAt) : State :=
  acquire s r.cmd.agent (agentOf s r.cmd.agent) (reelLoc p) (reachOf n p)

theorem copyBindEnd_met {b : Nat × Nat × Nat × Nat} (ho : cpOpen s n e = true) (hr : (engGet (tileGet s n) e).runs = r :: rs)
    (hw : cpBindWait s n r = true) (hm : cpBindMet s n r = true) (hb : cpBinding s n r.cmd = some b) :
    copyBindEnd n e s = engMap (reelAcquired s n r (.reg b.1 b.2.2.1)) n e (groupAdmitted cpKeyBind) := by
  simp only [copyBindEnd, hr, ho, hw, hm, hb, Bool.and_self, if_true]
  rfl

/-- The gate reel of a sequencer's running command can be read, and only that wait holds the command. -/
structure GateRead (s : State) (n e : Nat) (r : Run) (p : ReelAt) : Prop where
  opened : cpOpen s n e = true
  running : ∃ rs, (engGet (tileGet s n) e).runs = r :: rs
  unbound : cpBindWait s n r = false
  gated : cpGateWait r = true
  reel : engReel s n (BitVec.ofNat 64 (cmdReg r.cmd 26)) false = .ok p

theorem GateRead.copyGateEnd_met (h : GateRead s n e r p) (hm : cpGateNeed r ≤ (reelVal s p).toNat) :
    copyGateEnd n e s = engMap (reelAcquired (reelTouch s (tileAsid s n) p) n r p) n e (groupAdmitted cpKeyGate) := by
  obtain ⟨rs, hr⟩ := h.running
  simp only [copyGateEnd, hr, h.opened, h.unbound, h.gated, h.reel, Bool.not_false, Bool.and_self, if_true, if_pos hm]
  rfl

theorem GateRead.copyGateEnd_unmet (h : GateRead s n e r p) (hm : (reelVal s p).toNat < cpGateNeed r) :
    copyGateEnd n e s = s := by
  obtain ⟨rs, hr⟩ := h.running
  simp only [copyGateEnd, hr, h.opened, h.unbound, h.gated, h.reel, Bool.not_false, Bool.and_self, if_true,
    if_neg (Nat.not_le.2 hm)]

/-! ## A signal and the end of a command (11 R254, R261, R264) -/

/-- A signal whose addend a reel can hold, or that goes to no reel, is counted once its add is performed. -/
theorem copySignal_counts {s1 : State} (ho : cpOpen s n e = true) (hr : (engGet (tileGet s n) e).runs = r :: rs)
    (hd : cpSigDue (tileGet s n) e r = true) (hv : cpRl r.cmd = false ∨ cpAddend r.cmd < 2 ^ 64)
    (ha : (if cpRl r.cmd then engAdd s n r.cmd.agent (BitVec.ofNat 64 (cmdReg r.cmd 6))
      (BitVec.ofNat 64 (cpAddend r.cmd)) (scopeOfCode (cpScope r.cmd)) else .ok s) = .ok s1) :
    copySignal n e s = cpFollow (engMap s1 n e fun x => { runMap x (fun y =>
      { y with aux := mapPut y.aux cpKeySig (mapGet y.aux cpKeySig 0 + 1) }) with waiting := false }) n e r := by
  cases hl : cpRl r.cmd with
  | false =>
    obtain rfl : s = s1 := by simpa [hl] using ha
    simp only [copySignal, hr, ho, hd, hl, Bool.and_self, Bool.not_false, if_true]
  | true =>
    rw [hl, if_pos rfl] at ha
    have hv : cpAddend r.cmd < 2 ^ 64 := hv.resolve_left (by simp [hl])
    simp only [copySignal, hr, ho, hd, hl, Bool.and_self, Bool.not_true, Bool.false_eq_true, if_true, if_false, if_pos hv, ha]

/-- An addend that no reel can hold stops the sequencer with reel-overflow. -/
theorem copySignal_overflows (ho : cpOpen s n e = true) (hr : (engGet (tileGet s n) e).runs = r :: rs)
    (hd : cpSigDue (tileGet s n) e r = true) (hl : cpRl r.cmd = true) (hv : 2 ^ 64 ≤ cpAddend r.cmd)
    (hp : engReel s n (BitVec.ofNat 64 (cmdReg r.cmd 6)) true = .ok p) :
    copySignal n e s = engStopAt s n e (cpCode r.cmd) (engTrap causeReelOverflow (cmdReg r.cmd 6 % 2 ^ 64)) := by
  simp only [copySignal, hr, ho, hd, hl, Bool.and_self, Bool.not_true, Bool.false_eq_true, if_true, if_false,
    if_neg (Nat.not_lt.2 hv), hp, engThen, BitVec.toNat_ofNat]

theorem copyDone_completes (ho : cpOpen s n e = true) (hr : (engGet (tileGet s n) e).runs = r :: rs)
    (hd : cpDone (tileGet s n) e r = true) : copyDone n e s = engMap s n e fun x =>
      { x with runs := rs, progSeq := x.progSeq + 1, progNext := r.unit, waiting := false } := by
  simp only [copyDone, hr, ho, hd, Bool.and_self, if_true]

theorem engComplete_copy (h : 8 ≤ e) : engComplete n e s = copyDone n e s := by
  rw [engComplete, if_neg (by omega), if_neg (by omega), if_neg (by omega)]

/-- Both sequencers' numbers fit the engine field of an event. -/
theorem toNat_sequencer (cq : BitVec 1) : (BitVec.ofNat 4 (8 + cq.toNat)).toNat = 8 + cq.toNat := by
  rw [BitVec.toNat_ofNat]
  omega

end CopySequencers

/-- Settles O49: the rule of each event, in the case that its clause names. -/
theorem copySequencer : Obligations.CopySequencer := by
  unfold Obligations.CopySequencer
  intro tile cq s n e t g after ho
  refine ⟨fun q rest hr hq => ?start,
    fun r rs hr => ⟨fun hleft hfork hsig => ?burst, fun b hw hm hb => ?binding, fun p hb hg hp => ?gate,
      fun s1 hd hv ha => ?signal, fun p hd hl hv hp => ?overflow, fun hd => ?done⟩⟩
  case start =>
    have hstarts := copyBurst_starts ho hr hq
    refine ⟨_, congrArg Host.Outcome.next hstarts, ?_⟩
    simp only [after, engGet_engMap_same]
    exact ⟨rfl, rfl, rfl⟩
  case burst =>
    have hnext : BurstNext s n e r := ⟨ho, ⟨rs, hr⟩, hleft, hfork, hsig⟩
    refine ⟨fun hw => ⟨_, congrArg Host.Outcome.next (hnext.copyBurst_waits hw), ?_⟩, fun hb hg => ?_⟩
    · simp only [after, engGet_engMap_same]
      exact ⟨trivial, rfl, rfl⟩
    · obtain ⟨hdone, hlate, hbad, hwait⟩ := hnext.copyBurst_bursts hb hg
      exact ⟨fun s1 hx => congrArg _ (hdone s1 hx), fun s1 x hx => congrArg _ (hlate s1 x hx),
        fun x hx => congrArg _ (hbad x hx), fun a hx => congrArg _ (hwait a hx)⟩
  case binding =>
    have hends := copyBindEnd_met ho hr hw hm hb
    refine ⟨_, congrArg Host.Outcome.next hends, ?_⟩
    have hruns := groupAdmitted_runs (show (engGet (tileGet s n) e).runs = r :: rs from hr) cpKeyBind
    simp only [after, engGet_engMap_same, reelAcquired, tileGet_acquire, hruns, List.map_cons, mapGet_mapPut_same]
    exact ⟨rfl, rfl, trivial⟩
  case gate =>
    have hread : GateRead s n e r p := ⟨ho, ⟨rs, hr⟩, hb, hg, hp⟩
    refine ⟨fun hm => ⟨_, congrArg Host.Outcome.next (hread.copyGateEnd_met hm), ?_⟩,
      fun hm => congrArg Host.Outcome.next (hread.copyGateEnd_unmet hm)⟩
    obtain ⟨touched, ht⟩ := reelTouch_touchedOnly s (tileAsid s n) p
    have hruns : (engGet (tileGet (reelTouch s (tileAsid s n) p) n) e).runs = r :: rs := by rw [ht]; exact hr
    simp only [after, engGet_engMap_same, reelAcquired, tileGet_acquire]
    refine ⟨rfl, ?_, _, _, groupAdmitted_runs hruns cpKeyGate, mapGet_mapPut_same ..⟩
    rw [ht]
    rfl
  case signal => exact congrArg Host.Outcome.next (copySignal_counts ho hr hd hv ha)
  case overflow => exact congrArg Host.Outcome.next (copySignal_overflows ho hr hd hl hv hp)
  case done =>
    have hcomplete : engComplete n (BitVec.ofNat 4 e).toNat s = copyDone n e s := by
      rw [toNat_sequencer]
      exact engComplete_copy (Nat.le_add_right ..)
    refine ⟨_, congrArg Host.Outcome.next (hcomplete.trans (copyDone_completes ho hr hd)), ?_⟩
    simp only [after, engGet_engMap_same]
    exact ⟨trivial, rfl, trivial, trivial, rfl⟩

end Sys2Proof.Machine

/-! # O52: the events of leases -/

namespace Sys2Proof.Machine

open Sys2Proof

section LeaseEvents
variable {α : Type} {s : State} {n k : Nat} {q : LeaseReq} {l : List LeaseReq}

/-! ## The grant of a queue's head (12 R275) -/

/-- The bobbins that become ready change the creels alone. -/
theorem leaseReady_creelsOnly (s : State) (n : Nat) (inst : Bool) (k : Nat) (h : Word) :
    CreelsOnly s (leaseReady s n inst k h) :=
  (tilePut_creelsOnly ..).trans (.foldl (fun u _ => creelSpill_creelsOnly u n) _ _)

/-- A grant takes the head from the queue and leaves the standby leases. -/
theorem leaseHeadGrant_takes (hq : (tileGet s n).leaseQ = q :: l) (hp : headPick (tileGet s n) = some k) (awake : Bool) :
    (tileGet (leaseHeadGrant s n awake) n).leaseQ.map (·.inst) = l.map (·.inst) ∧
      (tileGet (leaseHeadGrant s n awake) n).standby = (tileGet s n).standby := by
  simp only [leaseHeadGrant, hq, hp]
  obtain ⟨creel, hc⟩ := (leaseReady_creelsOnly ..).tile n
  rw [hc, tileGet_tilePut_same]
  refine ⟨?_, rfl⟩
  cases l <;> rfl

/-! ## The grace of a standby lease (12 R288) -/

theorem dropStandby_nil (t : Tile) : dropStandby t [] = t := by simp [dropStandby]

theorem dropStandby_dropStandby (t : Tile) (l l' : List Nat) :
    dropStandby (dropStandby t l) l' = dropStandby t (l ++ l') := by
  simp only [dropStandby, List.filter_filter, List.contains_append, Bool.not_or, Bool.and_comm]

/-- Where the end of the first `m` standby leases of a list covers the queue's head, the release ends some of them and then
grants the head. -/
theorem graceRelease_grants {es : List Nat} {m : Nat} (hm : m < es.length)
    (h : (headPick (dropStandby (tileGet s n) (es.take m))).isSome = true) :
    ∃ u out, graceRelease n es s = leaseHeadGrant u n false ∧ tileGet u n = dropStandby (tileGet s n) out ∧
      (headPick (tileGet u n)).isSome = true := by
  induction es generalizing s m with
  | nil => cases hm
  | cons e es ih =>
    rw [graceRelease]
    split
    case isTrue hp => exact ⟨s, [], rfl, (dropStandby_nil _).symm, hp⟩
    case isFalse hp =>
      cases m with
      | zero => exact absurd (by rwa [List.take_zero, dropStandby_nil] at h) hp
      | succ m =>
        have ht := tileGet_tilePut_same s n (dropStandby (tileGet s n) [e])
        rw [List.take_succ_cons, ← List.singleton_append, ← dropStandby_dropStandby, ← ht] at h
        obtain ⟨u, out, hu, htile, hpick⟩ := ih (Nat.lt_of_succ_lt_succ hm) h
        exact ⟨u, [e] ++ out, hu, by rw [htile, ht, dropStandby_dropStandby], hpick⟩

theorem mapGet?_of_mem {m : NMap α} (hd : (m.map (·.1)).Nodup) {x : Nat × α} (hx : x ∈ m) : mapGet? m x.1 = some x.2 := by
  induction m with
  | nil => cases hx
  | cons y m ih =>
    obtain ⟨hy, hd⟩ := List.nodup_cons.1 hd
    obtain rfl | hx := List.mem_cons.1 hx
    · exact if_pos rfl
    · have hne : y.1 ≠ x.1 := fun he => hy (List.mem_map.2 ⟨x, hx, he.symm⟩)
      exact (if_neg hne).trans (ih hd hx)

/-- The test of the grace goes by the entries of the table of tiles, and not by what `tileGet` reads. -/
theorem mem_graceOver (h : n ∈ graceOver s) : ∃ x ∈ s.tiles, x.1 = n ∧ x.2.leaseQ ≠ [] ∧
    (headPick (dropStandby x.2 (List.range 8))).isSome = true := by
  obtain ⟨x, hx, he⟩ := List.mem_filterMap.1 h
  split at he
  · next r l hq =>
    split at he
    · next hc =>
      obtain ⟨⟨-, hpick⟩, -⟩ := by simpa only [Bool.and_eq_true] using hc
      exact ⟨x, hx, Option.some.inj he, by simp [hq], hpick⟩
    · cases he
  · cases he

/-- Where every tile is listed once, a queue that standby leases have blocked beyond the grace loses its head to a grant. -/
theorem standbyGraceExpiry_grants (hd : (s.tiles.map (·.1)).Nodup) (h : pickTurn s (graceOver s) = some n) :
    ∃ u, exec .standbyGraceExpiry s = .next u ∧ (tileGet u n).leaseQ.length + 1 = (tileGet s n).leaseQ.length ∧
      ∀ x ∈ (tileGet u n).standby, x ∈ (tileGet s n).standby := by
  obtain ⟨x, hx, rfl, hne, hpick⟩ := mem_graceOver (List.mem_of_getElem? h)
  have ht : tileGet s x.1 = x.2 := by rw [tileGet, mapGet, mapGet?_of_mem hd hx, Option.getD_some]
  rw [← ht] at hne hpick
  obtain ⟨u, out, hu, htile, hsome⟩ := graceRelease_grants (es := List.range 9) (m := 8) (by decide) hpick
  obtain ⟨q, l, hq⟩ := List.exists_cons_of_ne_nil hne
  obtain ⟨k, hk⟩ := Option.isSome_iff_exists.1 hsome
  obtain ⟨hqueue, hstandby⟩ := leaseHeadGrant_takes (q := q) (l := l) (by rw [htile]; exact hq) hk false
  refine ⟨leaseHeadGrant u x.1 false, ?_, ?_, ?_⟩
  · simp only [exec, execStandbyGraceExpiry, h, hu]
  · simpa [hq] using congrArg List.length hqueue
  · rw [hstandby, htile]
    exact fun y => List.mem_of_mem_filter

/-! ## A state that lists a tile twice -/

/-- A tile whose node has asked for no engine. -/
def unasking : Tile := { tileReset with node := some 0 }

/-- A tile whose queue asks for engine 4, for which the points of engine 0 in standby leave no room (12 R271, R288). -/
def blocked : Tile := { unasking with grant := 3, standby := [(0, ⟨1, 9, false⟩)], leaseQ := [⟨false, 4, 0, false, 0, 0⟩] }

/-- Tile 0 reads as the first of its two entries; the second has waited for its grace of 20 us. -/
def listedTwice : State := { State.reset with clock := 36 * 20000, tiles := [(0, unasking), (0, blocked)] }

end LeaseEvents

/-- Refutes O52: its clause of the grace (12 R288) fails where the table of tiles lists a tile twice, which no hypothesis of it
excludes. The test of the grace finds the blocked queue in the second entry of tile 0, and the release acts on the tile as it
reads, which is the first entry: its queue is empty and has no head to lose. A sparse table is meant to have rising keys (`NMap`),
and where every tile is listed once the clause holds (`standbyGraceExpiry_grants`). -/
theorem not_leaseEvents : ¬ Obligations.LeaseEvents := by
  intro h
  obtain ⟨-, -, -, -, -, hgrace, -⟩ := h 0 0 listedTwice 0
  obtain ⟨u, -, hlen, -⟩ := hgrace (by decide +kernel)
  cases hlen

end Sys2Proof.Machine

/-! # O50: the matrix arrays -/

namespace Sys2Proof.Machine

open Sys2Proof

section MatrixArrays

variable {s u : State} {n e a : Nat} {r y : Run} {f : Run → Run}

/-! ## The run of an agent rewritten -/

@[simp] theorem engGet_mxRun (s : State) (n e a : Nat) (f : Run → Run) :
    engGet (tileGet (mxRun s n e a f) n) e = progSync (runFor (engGet (tileGet s n) e) a f) := engGet_engMap_same ..

/-- What a tile has besides its engines is no business of its runs. -/
theorem tileGet_mxRun (s : State) (n e a : Nat) (f : Run → Run) :
    ∃ engines, tileGet (mxRun s n e a f) n = { tileGet s n with engines } := ⟨_, tileGet_tilePut_same ..⟩

@[simp] theorem mxRun_mem (s : State) (n e a : Nat) (f : Run → Run) : (mxRun s n e a f).mem = s.mem := rfl

/-- A command of the agent after the rewriting is a command of the agent rewritten. -/
theorem mem_runs_mxRun (h : y ∈ (engGet (tileGet (mxRun s n e a f) n) e).runs) (ha : y.cmd.agent = a) :
    ∃ q ∈ (engGet (tileGet s n) e).runs, q.cmd.agent = a ∧ y = f q := by
  rw [engGet_mxRun] at h
  obtain ⟨q, hq, rfl⟩ := List.mem_map.mp (show y ∈ (runFor (engGet (tileGet s n) e) a f).runs from h)
  by_cases hqa : q.cmd.agent = a
  · exact ⟨q, hq, hqa, if_pos hqa⟩
  · rw [if_neg hqa] at ha
    exact absurd ha hqa

/-- An array that may act has not stopped. -/
theorem stopped_of_mxOpen (h : mxOpen s n e = true) : (engGet (tileGet s n) e).stopped = false := by
  simp only [mxOpen, engOpen, Bool.and_eq_true, Bool.not_eq_true'] at h
  exact h.1.1.2

/-! ## The compute phase begins (13 R303, R306) -/

theorem mxOpen_of_canBegin (h : mxCanBegin s n e = some r) : mxOpen s n e = true := by
  by_contra ho
  simp [mxCanBegin, ho] at h

@[simp] theorem tileGet_mxRingAcquire (s : State) (n k : Nat) (c : Cmd) (b : Bool) :
    tileGet (mxRingAcquire s n c b) k = tileGet s k := by
  unfold mxRingAcquire
  dsimp only
  split
  · exact tileGet_acquire ..
  · rfl

@[simp] theorem mxRingAcquire_mem (s : State) (n : Nat) (c : Cmd) (b : Bool) : (mxRingAcquire s n c b).mem = s.mem := by
  unfold mxRingAcquire
  dsimp only
  split <;> rfl

/-- The watermarks of a tile that a command of which kind begins to write (13 R306). -/
def wmarkBegun (c : Cmd) (w : Wmark) : Wmark := { w with wf := 0, ws := if axMul c then 0 else w.ws, wr := true }

/-- The command in its compute phase, with the slots that its rings give it. -/
def runBegun (t : Tile) (c : Cmd) (q : Run) : Run :=
  if axMul c then raSet (raSet { q with phase := 1 } akSlotA (mxSlot t c false)) akSlotB (mxSlot t c true)
  else { q with phase := 1 }

theorem runBegun_phase (t : Tile) (c : Cmd) (q : Run) : (runBegun t c q).phase = 1 := by
  unfold runBegun
  split <;> rfl

/-- Both rings are acquired, and the watermarks of the command's tile restart. -/
def beginState (s : State) (n : Nat) (c : Cmd) : State :=
  let s1 := mxRingAcquire (mxRingAcquire s n c false) n c true
  tilePut s1 n (wmarkMap (tileGet s1 n) (axAcc c) (wmarkBegun c))

theorem mxBegin_begins (h : mxCanBegin s n e = some r) :
    mxBegin n e s = mxRun (beginState s n r.cmd) n e r.cmd.agent (runBegun (tileGet s n) r.cmd) := by
  simp only [mxBegin, h]
  rfl

theorem tileGet_beginState (s : State) (n : Nat) (c : Cmd) :
    tileGet (beginState s n c) n = wmarkMap (tileGet s n) (axAcc c) (wmarkBegun c) := by
  simp [beginState]

theorem beginState_mem (s : State) (n : Nat) (c : Cmd) : (beginState s n c).mem = s.mem := by
  simp [beginState]

theorem mxBegin_frame (h : mxCanBegin s n e = some r) :
    let v := mxBegin n e s
    let x := engGet (tileGet v n) e
    v.mem = s.mem ∧ (tileGet v n).pool = (tileGet s n).pool ∧
      x.progNext = (x.runs.head?.map axUnit).getD (engGet (tileGet s n) e).progNext ∧
      (∀ y ∈ x.runs, y.cmd.agent = r.cmd.agent → y.phase = 1) ∧
      mapGet (tileGet v n).wmarks (axAcc r.cmd) wmarkReset =
        wmarkBegun r.cmd (mapGet (tileGet s n).wmarks (axAcc r.cmd) wmarkReset) := by
  intro v x
  have hv : v = mxRun (beginState s n r.cmd) n e r.cmd.agent (runBegun (tileGet s n) r.cmd) := mxBegin_begins h
  have htile := tileGet_beginState s n r.cmd
  obtain ⟨engines, ht⟩ := tileGet_mxRun (beginState s n r.cmd) n e r.cmd.agent (runBegun (tileGet s n) r.cmd)
  have heng : engGet (tileGet (beginState s n r.cmd) n) e = engGet (tileGet s n) e := by rw [htile]; rfl
  have hx : x = progSync (runFor (engGet (tileGet s n) e) r.cmd.agent (runBegun (tileGet s n) r.cmd)) := by
    rw [← heng, ← engGet_mxRun, ← hv]
  refine ⟨?_, ?_, ?_, fun y hy ha => ?_, ?_⟩
  · rw [hv, mxRun_mem, beginState_mem]
  · rw [hv, ht, htile]
    rfl
  · rw [hx]
    exact if_neg (by simp [runFor, stopped_of_mxOpen (mxOpen_of_canBegin h)])
  · have hy : y ∈ (engGet (tileGet v n) e).runs := hy
    rw [hv] at hy
    obtain ⟨q, -, -, rfl⟩ := mem_runs_mxRun hy ha
    exact runBegun_phase ..
  · rw [hv, ht, htile]
    exact mapGet_mapPut_same ..

/-! ## Rows land (13 R303, R307) -/

section Landing

variable (ho : mxOpen s n e = true)
include ho

section Lands

variable (hf : (engGet (tileGet s n) e).runs.find? (mxLands (engGet (tileGet s n) e)) = some r)
include hf

theorem mxGroup_zeroes (hz : cmdCode r.cmd = 4) : mxGroup n e s = zeroStep s n e r := by
  simp only [mxGroup, ho, hf, if_pos hz, Bool.not_true, Bool.false_eq_true, if_false]

theorem mxGroup_lands (hm : cmdCode r.cmd ≠ 4) (hl : landBad s n r = none) : mxGroup n e s = landStep s n e r := by
  simp only [mxGroup, ho, hf, if_neg hm, hl, Bool.not_true, Bool.false_eq_true, if_false]

/-- A multiply stops at a row of its accumulator tile that it cannot read (13 R309). -/
theorem mxGroup_stops {x : Nat × Trap} (hm : cmdCode r.cmd ≠ 4) (hl : landBad s n r = some x) :
    mxGroup n e s = mxFault s n e r (engTrapOf x.2) := by
  simp only [mxGroup, ho, hf, if_neg hm, hl, Bool.not_true, Bool.false_eq_true, if_false]

end Lands

theorem mxGroup_reads (hl : (engGet (tileGet s n) e).runs.find? (mxLands (engGet (tileGet s n) e)) = none)
    (hf : (engGet (tileGet s n) e).runs.find? mxReads = some r) : mxGroup n e s = mxRead s n e r := by
  simp only [mxGroup, ho, hl, hf, Bool.not_true, Bool.false_eq_true, if_false]

end Landing

theorem poolWrite_mem (s : State) (n off : Nat) (bs : List Byte) : (poolWrite s n off bs).mem = s.mem :=
  poolClean_mem ..

/-- Rows of an accumulator tile set to zero, from a row on. -/
def rowsZeroed (s : State) (n acc row m : Nat) : State :=
  (List.range m).foldl (fun s k => poolWrite s n (accOff (tileGet s n) acc (row + k)) (List.replicate 256 0)) s

/-- Zeroing rows changes the tile's pool alone, which then reads 0 at their bytes. -/
theorem rowsZeroed_zero {acc row : Nat} (hw : memWf (tileGet s n).pool = true) (m : Nat) :
    ∃ pool, tileGet (rowsZeroed s n acc row m) n = { tileGet s n with pool } ∧ memWf pool = true ∧
      (rowsZeroed s n acc row m).mem = s.mem ∧
      ∀ k < 256 * m, memGet pool (accOff (tileGet s n) acc row + k) = 0 := by
  induction m with
  | zero => exact ⟨_, rfl, hw, rfl, nofun⟩
  | succ m ih =>
    obtain ⟨pool, ht, hwf, hm, hz⟩ := ih
    have hstep : rowsZeroed s n acc row (m + 1) = poolWrite (rowsZeroed s n acc row m) n
        (accOff (tileGet s n) acc row + 256 * m) (List.replicate 256 0) := by
      have hoff : accOff (tileGet (rowsZeroed s n acc row m) n) acc (row + m) = accOff (tileGet s n) acc row + 256 * m := by
        rw [ht]
        simp only [accOff, scratchSize]
        omega
      rw [← hoff, rowsZeroed, List.range_succ, List.foldl_append]
      rfl
    refine ⟨_, by rw [hstep, tileGet_poolWrite_same, ht], memPutList_wf hwf .., by rw [hstep, poolWrite_mem, hm], ?_⟩
    intro k hk
    by_cases hlt : k < 256 * m
    · rw [memGet_memPutList_other _ (.inl (by omega)), hz k hlt]
    · have hi : k - 256 * m < (List.replicate 256 (0 : Byte)).length := by
        rw [List.length_replicate]
        omega
      have hread := memGet_memPutList hwf (a := accOff (tileGet s n) acc row + 256 * m) hi
      rw [List.getElem_replicate] at hread
      rwa [show accOff (tileGet s n) acc row + k = accOff (tileGet s n) acc row + 256 * m + (k - 256 * m) by omega]

theorem wmarkLand_eq (t : Tile) (c : Cmd) (row : Nat) : ∃ wmarks, wmarkLand t c row = { t with wmarks } := by
  unfold wmarkLand
  split <;> exact ⟨_, rfl⟩

/-- A step of azero: four rows are zero, and the command stands four rows further (13 R307). -/
theorem zeroStep_zeroes (hw : memWf (tileGet s n).pool = true) :
    let v := zeroStep s n e r
    v.mem = s.mem ∧
      (∀ y ∈ (engGet (tileGet v n) e).runs, y.cmd.agent = r.cmd.agent →
        ∃ q ∈ (engGet (tileGet s n) e).runs, q.cmd.agent = r.cmd.agent ∧ y.cmd = q.cmd ∧ y.unit = r.unit + 4) ∧
      ∀ k < 1024, memGet (tileGet v n).pool (accOff (tileGet s n) (axAcc r.cmd) r.unit + k) = 0 := by
  intro v
  obtain ⟨pool, ht, -, hm, hz⟩ := rowsZeroed_zero (acc := axAcc r.cmd) (row := r.unit) hw 4
  obtain ⟨wmarks, hl⟩ := wmarkLand_eq (tileGet (rowsZeroed s n (axAcc r.cmd) r.unit 4) n) r.cmd r.unit
  let s1 := tilePut (rowsZeroed s n (axAcc r.cmd) r.unit 4) n
    (wmarkLand (tileGet (rowsZeroed s n (axAcc r.cmd) r.unit 4) n) r.cmd r.unit)
  have ht1 : tileGet s1 n = { tileGet s n with pool, wmarks } := by rw [tileGet_tilePut_same, hl, ht]
  obtain ⟨engines, hv⟩ : ∃ engines, tileGet v n = { tileGet s1 n with engines } := tileGet_mxRun ..
  refine ⟨hm, fun y hy ha => ?_, fun k hk => ?_⟩
  · obtain ⟨q, hq, hqa, rfl⟩ := mem_runs_mxRun (s := s1) hy ha
    rw [ht1] at hq
    exact ⟨q, hq, hqa, rfl, rfl⟩
  · rw [hv, ht1]
    exact hz k hk

/-! ## The end of the compute phase, and completion (13 R302, R303) -/

theorem mxComputeEnd_ends {s1 s2 : State} (ho : mxOpen s n e = true) (hf : mxEnds (engGet (tileGet s n) e) = some r)
    (ha : (if ra r akRel = 0 then mxRelease s n r.cmd false else .ok s) = .ok s1) (hb : mxRelease s1 n r.cmd true = .ok s2) :
    mxComputeEnd n e s = mxRun s2 n e r.cmd.agent fun q => raSet { q with phase := 2 } akRel 2 := by
  simp only [mxComputeEnd, ho, hf, ha, hb, Bool.not_true, Bool.false_eq_true, if_false]

/-- The known-answer compare of a finished command, where it has one to make (13 R308). -/
def mxChecked (s : State) (n e : Nat) (r : Run) : State × Option Trap :=
  if axKat r.cmd && decide (ra r akCmp = 0) then mxCompare s n e r else (s, none)

theorem mxDone_mismatch {x : Trap} (ho : mxOpen s n e = true) (hf : mxFinished (engGet (tileGet s n) e) = some r)
    (hx : (mxChecked s n e r).2 = some x) : mxDone n e s = dnStop (mxChecked s n e r).1 n e r 64 x := by
  obtain ⟨s1, hs1⟩ : ∃ s1, mxChecked s n e r = (s1, some x) := ⟨_, Prod.ext rfl hx⟩
  rw [mxChecked] at hs1 ⊢
  simp only [mxDone, ho, hf, hs1, Bool.not_true, Bool.false_eq_true, if_false]

theorem mxDone_completes {s2 : State} (ho : mxOpen s n e = true) (hf : mxFinished (engGet (tileGet s n) e) = some r)
    (hx : (mxChecked s n e r).2 = none)
    (ha : (if cmdReg r.cmd 3 = 0 then .ok (mxChecked s n e r).1
      else engAdd (mxChecked s n e r).1 n r.cmd.agent (BitVec.ofNat 64 (cmdReg r.cmd 3)) 1
        (scopeOfCode (axScope r.cmd))) = .ok s2) :
    mxDone n e s = engMap (orFpstat s2 n r.flags) n e fun x =>
      progSync { x with runs := x.runs.drop 1, progSeq := x.progSeq + 1 } := by
  obtain ⟨s1, hs1⟩ : ∃ s1, mxChecked s n e r = (s1, none) := ⟨_, Prod.ext rfl hx⟩
  rw [hs1] at ha
  rw [mxChecked] at hs1
  simp only [mxDone, ho, hf, hs1, ha, Bool.not_true, Bool.false_eq_true, if_false]

/-! ## Drains (14 R315, R327, R329) -/

/-- The state in which a drain reads its row: the drain starts with its first. -/
def drainStarted (s : State) (n e : Nat) (r : Run) : State := if ra r akFirst = 0 then dnBegin s n e r else s

/-- The drain's command in that state. -/
def drainRun (s : State) (n e : Nat) (r : Run) : Run := (runOfAgent (drainStarted s n e r) n e r.cmd.agent).getD r

theorem drainRun_agent (s : State) (n e : Nat) (r : Run) : (drainRun s n e r).cmd.agent = r.cmd.agent := by
  unfold drainRun runOfAgent
  cases h : (engGet (tileGet (drainStarted s n e r) n) e).runs.find? fun q => decide (q.cmd.agent = r.cmd.agent) with
  | none => rfl
  | some q => exact of_decide_eq_true (List.find?_some (p := fun q : Run => decide (q.cmd.agent = r.cmd.agent)) h)

/-- The checks of the row that a drain reads next. -/
def drainChecked (s : State) (n e : Nat) (r : Run) : DnRes State :=
  let q := drainRun s n e r
  dnChecks (drainStarted s n e r) n q (axProg (tileGet (drainStarted s n e r) n) q.cmd) (decide (ra q akBuf = 0))

/-- A drain's command with the buffers of its side tables filled, which the first row read fills (14 R322, R330). -/
def rowBuffered (t : Tile) (prog : List Nat) (q : Run) : Run :=
  if ra q akBuf = 0 then raSet { q with data := dnBuffers t q.cmd prog q.unit q.data } akBuf 1 else q

/-- What the buffers leave of the command. -/
theorem rowBuffered_eq (t : Tile) (prog : List Nat) (q : Run) :
    ∃ aux data, rowBuffered t prog q = { q with aux, data } := by
  unfold rowBuffered
  split <;> exact ⟨_, _, rfl⟩

/-- A drain's command once it has read its next row. -/
def rowRead (t : Tile) (prog : List Nat) (sat : Bool) (q : Run) : Run :=
  let r := rowBuffered t prog q
  { raSet r akRowClk (ra r akClk + 1) with unit := q.unit + 1, rows := r.rows ++ [dnRow t r prog q.unit sat] }

theorem rowRead_rows (t : Tile) (prog : List Nat) (sat : Bool) (q : Run) :
    (rowRead t prog sat q).rows.length = q.rows.length + 1 := by
  obtain ⟨_, _, h⟩ := rowBuffered_eq t prog q
  simp only [rowRead, h, List.length_append, List.length_singleton]

theorem drainRow_reads {s2 : State} (hc : dnCanRead s n e = some r) (hk : drainChecked s n e r = .ok s2) :
    ∃ prog, drainRow n e s = mxRun { s2 with free := s2.free + 1 } n e r.cmd.agent fun _ =>
      rowRead (tileGet s2 n) prog (Config.freeBool s.free) (drainRun s n e r) := by
  let prog := axProg (tileGet (drainStarted s n e r) n) (drainRun s n e r).cmd
  refine ⟨prog, ?_⟩
  obtain ⟨_, _, hb⟩ := rowBuffered_eq (tileGet s2 n) prog (drainRun s n e r)
  have hrow : drainRow n e s = mxRun { s2 with free := s2.free + 1 } n e
      (rowBuffered (tileGet s2 n) prog (drainRun s n e r)).cmd.agent fun _ =>
        rowRead (tileGet s2 n) prog (Config.freeBool s.free) (drainRun s n e r) := by
    unfold prog drainChecked drainRun drainStarted at *
    simp only [drainRow, hc, decide_eq_true_eq] at hk ⊢
    simp only [hk, rowRead, rowBuffered]
  rw [hrow, hb, ← drainRun_agent s n e r]

theorem drainRow_faults {b : DnBad} (hc : dnCanRead s n e = some r) (hk : drainChecked s n e r = .error b)
    (hr : (drainRun s n e r).rows = []) :
    drainRow n e s = dnFault (drainStarted s n e r) n e (drainRun s n e r) (drainRun s n e r).unit b := by
  unfold drainChecked drainRun drainStarted at *
  simp only [drainRow, hc, decide_eq_true_eq] at hk ⊢
  simp only [hk, hr, List.isEmpty_nil, if_true]

theorem dstqWaitEnd_tests {i : Nat} (h : dqWaiting s n e = some (r, i)) :
    dstqWaitEnd n e s = if dqRoom (tileGet s n) r.cmd then dqGo s n e r i else s := by
  simp only [dstqWaitEnd, h]

theorem dqGo_notes {i : Nat} : ∀ y ∈ (engGet (tileGet (dqGo s n e r i) n) e).runs, y.cmd.agent = r.cmd.agent →
    mapGet y.aux akDqOk 0 = i + 1 := by
  intro y hy ha
  obtain ⟨q, -, -, rfl⟩ := mem_runs_mxRun hy ha
  exact mapGet_mapPut_same ..

theorem drainStore_stores {y : RowOut} {ys : List RowOut} (h : dnCanStore s n e = some r) (hdq : ra r akPdq = 0)
    (hds : ra r akPdsig = 0) (hr : r.rows = y :: ys) : drainStore n e s = dnEndRow s n e r y := by
  simp [drainStore, h, dnOwes, hdq, hds, hr]

theorem drainStore_adds (h : dnCanStore s n e = some r) (ho : ra r akPdq ≠ 0 ∨ ra r akPdsig ≠ 0) :
    drainStore n e s = dnAdds n e r.cmd.agent 20 s := by
  simp [drainStore, h, dnOwes, ho]

end MatrixArrays

/-- Settles O50: the rule of each event of an array, in the case that its clause names. -/
theorem matrixArray : Obligations.MatrixArray := by
  unfold Obligations.MatrixArray
  intro tile mx s r n e t g after
  refine ⟨fun hb => ?begins, fun ho hf => ⟨fun hz hw => ?zeroes,
      fun hm hl => congrArg Host.Outcome.next (mxGroup_lands ho hf hm hl),
      fun hm x hl => congrArg Host.Outcome.next (mxGroup_stops ho hf hm hl)⟩,
    fun ho hl hf => congrArg Host.Outcome.next (mxGroup_reads ho hl hf), fun s1 s2 ho hf ha hb => ?ends,
    fun ho hf => ⟨fun x hx => congrArg Host.Outcome.next (mxDone_mismatch ho hf hx), fun s2 hx ha => ?done⟩,
    fun hc => ⟨fun s2 hk => ?reads, fun b hk hr => congrArg Host.Outcome.next (drainRow_faults hc hk hr)⟩,
    fun i hw => ⟨fun hr => ?waited, fun hr => ?waits⟩,
    fun hc => ⟨fun hdq hds y ys hr => congrArg Host.Outcome.next (drainStore_stores hc hdq hds hr),
      fun ho => congrArg Host.Outcome.next (drainStore_adds hc ho)⟩⟩
  case begins =>
    obtain ⟨hmem, hpool, hprog, hruns, hmarks⟩ := mxBegin_frame hb
    exact ⟨_, rfl, hmem, hpool, hprog, hruns, congrArg Wmark.wf hmarks, congrArg Wmark.ws hmarks, congrArg Wmark.wr hmarks⟩
  case zeroes =>
    obtain ⟨hmem, hruns, hzero⟩ := zeroStep_zeroes (e := e) (r := r) hw
    exact ⟨_, congrArg Host.Outcome.next (mxGroup_zeroes ho hf hz), hmem, hruns, hzero⟩
  case ends =>
    refine ⟨_, congrArg Host.Outcome.next (mxComputeEnd_ends ho hf ha hb), rfl, fun y hy hya => ?_⟩
    obtain ⟨q, -, -, rfl⟩ := mem_runs_mxRun hy hya
    rfl
  case done =>
    refine ⟨_, congrArg Host.Outcome.next (mxDone_completes ho hf hx ha), ?_⟩
    have hafter := engGet_engMap_same (orFpstat s2 n r.flags) n e fun x =>
      progSync { x with runs := x.runs.drop 1, progSeq := x.progSeq + 1 }
    rw [engGet_orFpstat] at hafter
    exact ⟨congrArg Engine.runs hafter, congrArg Engine.progSeq hafter⟩
  case reads =>
    obtain ⟨prog, hrow⟩ := drainRow_reads hc hk
    refine ⟨_, congrArg Host.Outcome.next hrow, rfl, fun y hy hya => ?_⟩
    obtain ⟨_, -, -, rfl⟩ := mem_runs_mxRun hy hya
    exact ⟨rfl, rowRead_rows ..⟩
  case waited =>
    exact ⟨_, congrArg Host.Outcome.next ((dstqWaitEnd_tests hw).trans (if_pos hr)), rfl, dqGo_notes⟩
  case waits =>
    exact congrArg Host.Outcome.next ((dstqWaitEnd_tests hw).trans (if_neg (Bool.not_eq_true _ ▸ hr)))

end Sys2Proof.Machine

/-! # O55: fault records and their rings, HKADD, SUMMARY and attestation -/

namespace Sys2Proof.Machine

open Sys2Proof

section HostCommands

variable {s u : State} {h n a k : Nat} {v : Word} {bs : List Byte}

/-! ## Memory that a command of a host names (10 R233; 20 R465, R468) -/

theorem SameBytes.devBytes (hs : SameBytes s u) (pa m : Nat) : devBytes u pa m = Machine.devBytes s pa m := by
  simp only [Machine.devBytes, devByte, hs.mem, hs.host0, hs.host1]

theorem SameBytes.memInv (hs : SameBytes s u) (hm : MemInv s) : MemInv u := by
  unfold MemInv
  rwa [hs.mem, hs.host0, hs.host1]

theorem homeOf_port_iff {pa p : Nat} : homeOf pa = .port p ↔ p < 2 ∧ hostWin p ≤ pa ∧ pa < hostWin (p + 1) := by
  unfold homeOf hostWin
  split
  · split <;> simp <;> omega
  · split
    · simp
      omega
    · split
      · simp
        omega
      · split
        · simp
          omega
        · simp
          omega

/-- A stretch of bytes that all lie in device memory, or all in the memory of one host. -/
inductive OneMemory (a n : Nat) : Prop
  | stack (hs : ∀ i < n, ∃ k, homeOf (a + i) = .stack k)
  | port (p : Nat) (hp : ∀ i < n, homeOf (a + i) = .port p)

theorem oneMemory_of_ports {p : Nat} (ha : homeOf a = .port p) (hb : homeOf (a + n - 1) = .port p) : OneMemory a n := by
  refine .port p fun i hi => ?_
  rw [homeOf_port_iff] at ha hb ⊢
  omega

theorem oneMemory_of_inHbm (hi : inHbm a n = true) : OneMemory a n := .stack fun _ => homeOf_of_inHbm hi

theorem oneMemory_of_areaThere (ht : areaThere s a n = true) : OneMemory a n := by
  unfold areaThere at ht
  split at ht
  · exact oneMemory_of_inHbm (Bool.and_eq_true_iff.1 ht).1
  · next hp => exact oneMemory_of_ports hp (of_decide_eq_true (Bool.and_eq_true_iff.1 ht).2)
  · cases ht

theorem oneMemory_of_partWrites (ht : partWrites s a n = true) : OneMemory a n := by
  unfold partWrites at ht
  split at ht
  · exact oneMemory_of_inHbm (Bool.and_eq_true_iff.1 (Bool.and_eq_true_iff.1 ht).1).1
  · next ha hb =>
    obtain rfl := of_decide_eq_true (Bool.and_eq_true_iff.1 ht).1
    exact oneMemory_of_ports ha hb
  · cases ht

/-- A byte of a write into one memory reads as it was written. -/
theorem devByte_devWrite {i : Nat} (hm : MemInv s) (ha : OneMemory a n) (hi : i < n) (hb : i < bs.length) :
    devByte (devWrite s a bs) (a + i) = bs[i] := by
  have hn : 0 < n := Nat.zero_lt_of_lt hi
  obtain ⟨hmem, hmem0, hmem1⟩ := hm
  cases ha with
  | stack hs =>
    obtain ⟨k, hk⟩ := hs 0 hn
    obtain ⟨j, hj⟩ := hs i hi
    simp only [devByte, hj, devWrite_mem (Nat.add_zero a ▸ hk)]
    exact memGet_memPutList hmem hb
  | port p hp =>
    have h0 : homeOf a = .port p := hp 0 hn
    obtain ⟨hlt, hle, -⟩ := homeOf_port_iff.1 h0
    have hoff : a + i - hostWin p = a - hostWin p + i := by omega
    obtain rfl | rfl : p = 0 ∨ p = 1 := by omega
    · have hbyte : devByte (devWrite s a bs) (a + i) = memGet (memPutList s.hostMem0 (a - hostWin 0) bs) (a + i - hostWin 0) := by
        simp only [devByte, hp i hi, devWrite, h0]
      rw [hbyte, hoff]
      exact memGet_memPutList hmem0 hb
    · have hbyte : devByte (devWrite s a bs) (a + i) = memGet (memPutList s.hostMem1 (a - hostWin 1) bs) (a + i - hostWin 1) := by
        simp only [devByte, hp i hi, devWrite, h0]
      rw [hbyte, hoff]
      exact memGet_memPutList hmem1 hb

/-- Bytes of the part's own write into one memory read as they were written. -/
theorem devBytes_partWrite {i m : Nat} (hm : MemInv s) (ha : OneMemory a n) (hn : i + m ≤ n) (hb : i + m ≤ bs.length) :
    devBytes (partWrite s a bs) (a + i) m = (bs.drop i).take m := by
  let s1 := plainWrite ((granList a bs.length).foldl cacheDrop s) (locsOf locMem a bs.length)
  have hsame : SameBytes s s1 := (SameBytes.foldl cacheDrop_sameBytes ..).trans (plainWrite_sameBytes ..)
  refine List.ext_getElem (by simp [devBytes]; omega) fun j hj _ => ?_
  have hj : j < m := by simpa [devBytes] using hj
  have hbyte : devByte (partWrite s a bs) (a + (i + j)) = bs[i + j] :=
    devByte_devWrite (hsame.memInv hm) ha (by omega) (by omega)
  simpa [devBytes, Nat.add_assoc] using hbyte

/-- The part's own write changes memory, caches and release sequences. -/
theorem partWrite_eq (s : State) (a : Nat) (bs : List Byte) : ∃ mem hostMem0 hostMem1 lostGran symErr saved dies agents releases,
    partWrite s a bs = { s with mem, hostMem0, hostMem1, lostGran, symErr, saved, dies, agents, releases } := by
  obtain ⟨dies, hd⟩ : ∃ dies, (granList a bs.length).foldl cacheDrop s = { s with dies } :=
    foldl_keeps (p := fun u => ∃ dies, u = { s with dies }) ⟨s.dies, rfl⟩ fun _ _ ⟨_, hu⟩ => ⟨_, by rw [hu]; rfl⟩
  obtain ⟨_, _, hp⟩ := plainWrite_clocksOnly ((granList a bs.length).foldl cacheDrop s) (locsOf locMem a bs.length)
  obtain ⟨_, _, _, _, _, _, hw⟩ := devWrite_memoryOnly
    (plainWrite ((granList a bs.length).foldl cacheDrop s) (locsOf locMem a bs.length)) a bs
  exact ⟨_, _, _, _, _, _, _, _, _, by rw [partWrite, hw, hp, hd]⟩

theorem partWrite_hosts (s : State) (a : Nat) (bs : List Byte) : (partWrite s a bs).hosts = s.hosts := by
  obtain ⟨_, _, _, _, _, _, _, _, _, e⟩ := partWrite_eq s a bs
  rw [e]

theorem partWrite_recQ (s : State) (a : Nat) (bs : List Byte) : (partWrite s a bs).recQ = s.recQ := by
  obtain ⟨_, _, _, _, _, _, _, _, _, e⟩ := partWrite_eq s a bs
  rw [e]

theorem hostGet_of_hosts (e : u.hosts = s.hosts) (k : Nat) : hostGet u k = hostGet s k := by rw [hostGet, e, hostGet]

/-! ## Fault rings (18 R403 to R405) -/

/-- A fault ring of a host as it reads in a state. -/
def ringIn (s : State) (h n : Nat) : FaultRing := ringGet (hostGet s h) n

@[simp] theorem ringIn_ringPut (s : State) (h n : Nat) (r : FaultRing) : ringIn (ringPut s h n r) h n = r := by
  simp [ringIn, ringPut, ringGet]

@[simp] theorem ringIn_ringNote (s : State) (h n k m bits : Nat) : ringIn (ringNote h n bits s) k m = ringIn s k m := rfl

/-- A ring with a message under way (18 R405). -/
def ringSent (s : State) (h n : Nat) : State :=
  ringNote h n 1 (ringPut (msixSend s h n) h n { ringIn s h n with ipend := true })

theorem ringSignal_eq (s : State) (h n : Nat) : ringSignal s h n =
    if (ringIn s h n).ctl.getLsbD 9 && !(ringIn s h n).ipend then ringSent s h n else s := rfl

/-- A signal of a ring changes no more of it than ipend, and no byte and no record. -/
theorem ringSignal_frame (s : State) (h n : Nat) : (ringIn (ringSignal s h n) h n).tail = (ringIn s h n).tail ∧
    (ringIn (ringSignal s h n) h n).head = (ringIn s h n).head ∧ (ringIn (ringSignal s h n) h n).ctl = (ringIn s h n).ctl ∧
    (ringSignal s h n).recQ = s.recQ ∧ SameBytes s (ringSignal s h n) := by
  rw [ringSignal_eq]
  split
  · simp only [ringSent, ringIn_ringNote, ringIn_ringPut]
    exact ⟨trivial, trivial, trivial, rfl, rfl, rfl, rfl, rfl⟩
  · exact ⟨rfl, rfl, rfl, rfl, .refl s⟩

/-- A refused write of a ring's register sets ctlerr (18 R403). -/
def ringRefused (s : State) (h n : Nat) : State := ringNote h n 4 (ringPut s h n { ringIn s h n with ctlerr := true })

@[simp] theorem ringIn_ringRefused (s : State) (h n : Nat) :
    ringIn (ringRefused s h n) h n = { ringIn s h n with ctlerr := true } := by
  simp [ringRefused]

/-- The sizes and the changes of size that FR_CTL refuses (18 R403). -/
def CtlBad (x : FaultRing) (v : Word) : Prop :=
  natBits v.toNat 0 5 < 4 ∨ 16 < natBits v.toNat 0 5 ∨
    (x.ctl.getLsbD 8 = true ∧ x.head ≠ x.tail ∧ natBits v.toNat 0 5 ≠ natBits x.ctl.toNat 0 5)

theorem ctlBad_iff (x : FaultRing) (v : Word) : CtlBad x v ↔ natBits v.toNat 0 5 < 4 ∨ 16 < natBits v.toNat 0 5 ∨
    ((x.ctl.getLsbD 8 && decide (x.head ≠ x.tail)) = true ∧ natBits v.toNat 0 5 ≠ natBits x.ctl.toNat 0 5) := by
  simp only [CtlBad, Bool.and_eq_true, decide_eq_true_eq, and_assoc]

theorem ringCtlWrite_refuses (hb : CtlBad (ringIn s h n) v) : ringCtlWrite h n v s = ringRefused s h n :=
  if_pos ((ctlBad_iff ..).1 hb)

theorem ringCtlWrite_takes (hb : ¬ CtlBad (ringIn s h n) v) :
    let x := ringIn (ringCtlWrite h n v s) h n
    x.ctl = v &&& 0x31F#64 ∧ x.head = (ringIn s h n).head ∧ x.tail = (ringIn s h n).tail := by
  intro x
  let s1 := ringPut s h n { ringIn s h n with ctl := v &&& 0x31F#64, failed := (ringIn s h n).failed && !v.getLsbD 8 }
  have hx : ringCtlWrite h n v s = if (v.getLsbD 9 && !(ringIn s h n).ctl.getLsbD 9) &&
      decide ((ringIn s h n).head ≠ (ringIn s h n).tail) then ringSignal s1 h n else s1 := if_neg (mt (ctlBad_iff ..).2 hb)
  have h1 : ringIn s1 h n = { ringIn s h n with ctl := v &&& 0x31F#64, failed := (ringIn s h n).failed && !v.getLsbD 8 } :=
    ringIn_ringPut ..
  obtain ⟨htail, hhead, hctl, -⟩ := ringSignal_frame s1 h n
  unfold x
  rw [hx]
  split
  · rw [hctl, hhead, htail, h1]
    exact ⟨rfl, rfl, rfl⟩
  · rw [h1]
    exact ⟨rfl, rfl, rfl⟩

/-- The base that FR_BASE takes from a written value (18 R403). -/
def ringBase (v : Word) : Word := v &&& 0xFFFFFFFFFFFFFF81#64

/-- A ring in use that has records keeps its base (18 R403). -/
def BaseBad (x : FaultRing) (v : Word) : Prop := x.ctl.getLsbD 8 = true ∧ x.head ≠ x.tail ∧ ringBase v ≠ x.base

theorem baseBad_iff (x : FaultRing) (v : Word) : BaseBad x v ↔
    (x.ctl.getLsbD 8 && decide (x.head ≠ x.tail) && decide (ringBase v ≠ x.base)) = true := by
  simp only [BaseBad, Bool.and_eq_true, decide_eq_true_eq, and_assoc]

theorem ringBaseWrite_refuses (hb : BaseBad (ringIn s h n) v) : ringBaseWrite h n v s = ringRefused s h n :=
  if_pos ((baseBad_iff ..).1 hb)

theorem ringBaseWrite_takes (hb : ¬ BaseBad (ringIn s h n) v) :
    ringBaseWrite h n v s = ringPut s h n { ringIn s h n with base := ringBase v } := if_neg (mt (baseBad_iff ..).2 hb)

theorem ringHeadWrite_refuses
    (hb : ringSize (ringIn s h n) < ((ringIn s h n).tail + 2 ^ 32 - v.toNat % 2 ^ 32) % 2 ^ 32) :
    ringHeadWrite h n v s = ringRefused s h n := if_pos hb

theorem ringHeadWrite_takes
    (hb : ((ringIn s h n).tail + 2 ^ 32 - v.toNat % 2 ^ 32) % 2 ^ 32 ≤ ringSize (ringIn s h n)) :
    ringIn (ringHeadWrite h n v s) h n = { ringIn s h n with head := v.toNat % 2 ^ 32 } :=
  (congrArg (ringIn · h n) (if_neg (Nat.not_lt.2 hb))).trans (ringIn_ringPut ..)

/-- FR_STAT with the bits cleared that a value names (18 R403). -/
def statCleared (x : FaultRing) (v : Word) : FaultRing :=
  { x with wrerr := x.wrerr && !v.getLsbD 3, ctlerr := x.ctlerr && !v.getLsbD 2, ipend := x.ipend && !v.getLsbD 0 }

/-- A write that clears ipend of a ring whose messages are enabled and that has records left (18 R405). -/
def SendsAgain (x : FaultRing) (v : Word) : Prop :=
  v.getLsbD 0 = true ∧ x.ipend = true ∧ x.head ≠ x.tail ∧ x.ctl.getLsbD 9 = true

theorem ringStatWrite_eq (h n : Nat) (v : Word) (s : State) :
    let w := keepSet s (ringReg h n) v
    let s1 := ringPut s h n (statCleared (ringIn s h n) w)
    ringStatWrite h n v s = if (w.getLsbD 0 && (ringIn s h n).ipend) && decide ((ringIn s h n).head ≠ (ringIn s h n).tail)
      then ringSignal s1 h n else s1 := rfl

theorem ringStatWrite_again (ha : SendsAgain (ringIn s h n) (keepSet s (ringReg h n) v)) :
    ringStatWrite h n v s = ringSent (ringPut s h n (statCleared (ringIn s h n) (keepSet s (ringReg h n) v))) h n := by
  obtain ⟨hclr, hpend, hleft, hon⟩ := ha
  rw [ringStatWrite_eq, ringSignal_eq, ringIn_ringPut]
  simp [statCleared, hclr, hpend, hleft, hon]

theorem ringStatWrite_quiet (ha : ¬ SendsAgain (ringIn s h n) (keepSet s (ringReg h n) v)) :
    ringStatWrite h n v s = ringPut s h n (statCleared (ringIn s h n) (keepSet s (ringReg h n) v)) := by
  rw [ringStatWrite_eq]
  split
  · next hc =>
    simp only [Bool.and_eq_true, decide_eq_true_eq] at hc
    obtain ⟨⟨hclr, hpend⟩, hleft⟩ := hc
    have hoff : ¬ (ringIn s h n).ctl.getLsbD 9 = true := fun hon => ha ⟨hclr, hpend, hleft, hon⟩
    rw [ringSignal_eq, ringIn_ringPut]
    exact if_neg fun hx => hoff (Bool.and_eq_true_iff.1 hx).1
  · rfl

/-! ## A fault record is written (18 R404) -/

/-- The rest of a record's write keeps the ring's tail, the queue of records, and every byte. -/
structure RingKept (h n : Nat) (s u : State) : Prop where
  tail : (ringIn u h n).tail = (ringIn s h n).tail
  recQ : u.recQ = s.recQ
  same : SameBytes s u

theorem RingKept.refl (h n : Nat) (s : State) : RingKept h n s s := ⟨rfl, rfl, .refl s⟩

theorem RingKept.trans {w : State} (h1 : RingKept h n s u) (h2 : RingKept h n u w) : RingKept h n s w :=
  ⟨h2.tail.trans h1.tail, h2.recQ.trans h1.recQ, h1.same.trans h2.same⟩

theorem rejectWritten_ringKept (s : State) (r : FaultRec) (n : Nat) : RingKept r.host n s (rejectWritten s r) := by
  unfold rejectWritten
  dsimp only
  split
  · exact ⟨by simp [ringIn, ringGet], rfl, rfl, rfl, rfl, rfl⟩
  · exact .refl ..

theorem releaseVc_ringKept (s : State) (vc : NMap Nat) (loc : Nat) (sc : Scope) (place : Nat) :
    RingKept h n s (releaseVc s vc loc sc place) := by
  obtain ⟨_, _, e⟩ := relsJoin_clocksOnly s loc (some ⟨vc, sc, place, false⟩)
  rw [releaseVc, e]
  exact ⟨rfl, rfl, rfl, rfl, rfl, rfl⟩

theorem ringSignal_ringKept (s : State) (h n : Nat) : RingKept h n s (ringSignal s h n) := by
  obtain ⟨htail, -, -, hrecQ, hsame⟩ := ringSignal_frame s h n
  exact ⟨htail, hrecQ, hsame⟩

/-- A record's write where memory takes it: the record's bytes, then the tail, and what is left of the rings and the clocks. -/
theorem recWrite_takes {r : FaultRec} {rest : List FaultRec} {x : FaultRing} {words : List Nat} (hx : x = ringIn s r.host n)
    (hwords : words = (List.range 16).map fun i => (r.words.getD i 0).toNat + if i = 1 then x.tail * 2 ^ 32 else 0)
    (hp : partWrites s (ringSlot r.host x) 128 = true) (hr : hostRefuses s (ringSlot r.host x) = false) :
    RingKept r.host n (ringPut (partWrite { s with free := s.free + 1, recQ := rest } (ringSlot r.host x)
      (words.flatMap (leBytes 8))) r.host n { x with tail := (x.tail + 1) % 2 ^ 32 }) (recWrite s r n rest) := by
  subst hx hwords
  unfold recWrite
  extract_lets x pa ok s0 words s1 s2 s3 s4
  have hok : ok = true := Bool.and_eq_true_iff.2 ⟨hp, Bool.not_eq_true' _ ▸ hr⟩
  rw [if_pos hok]
  have h3 : RingKept r.host n s2 s3 := by
    unfold s3
    split
    · exact rejectWritten_ringKept ..
    · exact .refl ..
  have h4 : RingKept r.host n s3 s4 := by
    unfold s4
    split
    · exact releaseVc_ringKept ..
    · exact .refl ..
  exact (h3.trans h4).trans (ringSignal_ringKept ..)

theorem recWrite_written {r : FaultRec} {rest : List FaultRec} {x : FaultRing} {words : List Nat} (hx : x = ringIn s r.host n)
    (hwords : words = (List.range 16).map fun i => (r.words.getD i 0).toNat + if i = 1 then x.tail * 2 ^ 32 else 0)
    (hp : partWrites s (ringSlot r.host x) 128 = true) (hr : hostRefuses s (ringSlot r.host x) = false) (hm : MemInv s) :
    (recWrite s r n rest).recQ = rest ∧ devBytes (recWrite s r n rest) (ringSlot r.host x) 128 = words.flatMap (leBytes 8) ∧
      (ringIn (recWrite s r n rest) r.host n).tail = (x.tail + 1) % 2 ^ 32 := by
  obtain ⟨htail, hrecQ, hsame⟩ := recWrite_takes (rest := rest) hx hwords hp hr
  have hlen : (words.flatMap (leBytes 8)).length = 128 := by
    rw [length_flatMap_const (leBytes_length 8), hwords]
    rfl
  refine ⟨hrecQ.trans (partWrite_recQ ..), ?_, htail.trans (by rw [ringIn_ringPut])⟩
  have hbytes := devBytes_partWrite (s := { s with free := s.free + 1, recQ := rest }) (i := 0) (m := 128) hm
    (oneMemory_of_partWrites hp) (Nat.le_refl _) (Nat.le_of_eq hlen.symm)
  rw [hsame.devBytes]
  exact hbytes.trans (List.take_of_length_le (Nat.le_of_eq hlen))

/-- The ring once a write into it has failed (18 R404). -/
def ringFailed (x : FaultRing) : FaultRing := { x with ctl := x.ctl &&& ~~~0x100#64, wrerr := true, failed := true }

/-- The count of dropped notices after one more (18 R404). -/
def lostUp (k : Nat) : Nat := if k < 65535 then k + 1 else k

theorem ringLost_counts (s : State) (h n : Nat) : (ringLost s h n).recQ = s.recQ ∧
    ringIn (ringLost s h n) h n = { ringIn s h n with lost := lostUp (ringIn s h n).lost } := by
  have he : ringLost s h n = if (ringIn s h n).lost < 65535 then noteCount (ringPut s h n
      { ringIn s h n with lost := (ringIn s h n).lost + 1 }) (ringReg h n) (2 ^ 16) else s := rfl
  rw [he, lostUp]
  split
  · exact ⟨rfl, ringIn_ringPut ..⟩
  · exact ⟨rfl, rfl⟩

/-- A record's write that fails disables the ring, and drops a notice. -/
theorem recWrite_fails {r : FaultRec} {rest : List FaultRec} {x : FaultRing} (hx : x = ringIn s r.host n)
    (hf : partWrites s (ringSlot r.host x) 128 = false ∨ hostRefuses s (ringSlot r.host x) = true) :
    (∃ lost, ringIn (recWrite s r n rest) r.host n = { ringFailed x with lost }) ∧
      (r.cls ≠ 1 → (recWrite s r n rest).recQ = s.recQ) ∧ (r.cls = 1 → (recWrite s r n rest).recQ = rest) := by
  subst hx
  let s1 := ringNote r.host n 8 (ringPut { s with free := s.free + 1 } r.host n (ringFailed (ringIn s r.host n)))
  have hok : (partWrites s (ringSlot r.host (ringIn s r.host n)) 128 &&
      !hostRefuses s (ringSlot r.host (ringIn s r.host n))) = false := by
    rcases hf with hf | hf <;> simp [hf]
  have he : recWrite s r n rest = if r.cls = 1 then ringLost { s1 with recQ := rest } r.host n else s1 := by
    unfold ringIn at hok
    unfold recWrite
    simp only [hok, Bool.false_eq_true, if_false]
    rfl
  have h1 : ringIn s1 r.host n = ringFailed (ringIn s r.host n) := ringIn_ringPut ..
  rw [he]
  by_cases hc : r.cls = 1
  · obtain ⟨hrecQ, hring⟩ := ringLost_counts { s1 with recQ := rest } r.host n
    have h2 : ringIn { s1 with recQ := rest } r.host n = ringFailed (ringIn s r.host n) := h1
    rw [if_pos hc]
    exact ⟨⟨_, by rw [hring, h2]⟩, fun hne => absurd hc hne, fun _ => hrecQ⟩
  · rw [if_neg hc]
    exact ⟨⟨_, h1⟩, fun _ => rfl, fun h => absurd h hc⟩

theorem recordWrite_writes {r : FaultRec} {m : Nat} {rest : List FaultRec}
    (hp : pickTurn s (recReady s s.recQ [] []) = some (r, .write m, rest)) : recordWrite s = recWrite s r m rest := by
  simp only [recordWrite, hp]

theorem recordWrite_drops {r : FaultRec} {m : Nat} {rest : List FaultRec}
    (hp : pickTurn s (recReady s s.recQ [] []) = some (r, .drop (some m), rest)) :
    recordWrite s = ringLost { s with recQ := rest } r.host m := by
  simp only [recordWrite, hp]

/-! ## HKADD, SUM_CMD and ATT_CMD (16 R361; 20 R465, R468) -/

@[simp] theorem hostGet_noteBits (s : State) (reg bits k : Nat) : hostGet (noteBits s reg bits) k = hostGet s k := rfl

theorem hkAdd_hostGet (h : Nat) (v : Word) (s : State) : hostGet (hkAdd h v s) h =
    if (hostGet s h).hkCmd.isSome then { hostGet s h with hkErr := true, hkCause := 7 }
    else if hostOwns s h (hostGet s h).hkAsid then
      { hostGet s h with hkCmd := some ⟨(hostGet s h).hkAsid, (hostGet s h).hkAddr, v⟩ }
    else { hostGet s h with hkErr := true, hkCause := 8 } := by
  unfold hkAdd hkRefuse
  dsimp only
  split
  · simp
  · cases hostOwns s h (hostGet s h).hkAsid <;> simp

theorem attWrite_refuses (hb : (hostGet s h).attCmd.isSome = true ∨ v.toNat % 4096 ≠ 0 ∨ areaThere s v.toNat 2048 = false ∨
    s.mgmt.bootPhase < 4 ∨ s.mgmt.zeroised = true) : attWrite h v s = attFail s h :=
  if_pos (by simpa using hb)

theorem attWrite_starts (hb : ¬ ((hostGet s h).attCmd.isSome = true ∨ v.toNat % 4096 ≠ 0 ∨ areaThere s v.toNat 2048 = false ∨
    s.mgmt.bootPhase < 4 ∨ s.mgmt.zeroised = true)) : attWrite h v s = hostPut s h { hostGet s h with attCmd := some [v] } :=
  if_neg (by simpa using hb)

theorem hostGet_attFail (s : State) (h : Nat) : hostGet (attFail s h) h = { hostGet s h with attErr := true } := by
  simp [attFail]

theorem sumWrite_refuses (hb : (hostGet s h).sumCmd.isSome = true ∨ v.toNat % 4096 ≠ 0 ∨ areaThere s v.toNat 4096 = false) :
    sumWrite h v s = sumFail s h :=
  if_pos (by simpa using hb)

theorem sumWrite_starts
    (hb : ¬ ((hostGet s h).sumCmd.isSome = true ∨ v.toNat % 4096 ≠ 0 ∨ areaThere s v.toNat 4096 = false)) :
    sumWrite h v s = hostPut s h { hostGet s h with sumCmd := some v } :=
  if_neg (by simpa using hb)

theorem hostGet_sumFail (s : State) (h : Nat) : hostGet (sumFail s h) h = { hostGet s h with sumErr := true } := by
  simp [sumFail]

/-! ## The commands of hosts complete -/

/-- When one of the two hosts has a command that is ready, and the other none, the host's is the one that completes. -/
theorem pickTurn_onlyHost {α : Type} {f : Nat → Option α} (host : BitVec 1) {x : α} (hx : f host.toNat = some x)
    (hy : f (1 - host.toNat) = none) : pickTurn s ((List.range 2).filterMap f) = some x := by
  have hl : (List.range 2).filterMap f = [x] := by
    have hlt := host.isLt
    have h01 : host.toNat = 0 ∨ host.toNat = 1 := by omega
    rcases h01 with h | h <;> rw [h] at hx hy <;> simp_all [List.range_succ]
  rw [hl, pickTurn, List.length_singleton, Nat.mod_one]
  rfl

/-- A host's reel add that no walk or frozen frame holds up (16 R361). -/
def hkReady (s : State) (h : Nat) : Option (Nat × HostCmd) :=
  match (hostGet s h).hkCmd with
  | some c => if addWaits s c.kind c.a then none else some (h, c)
  | none => none

/-- The host's command no longer stands. -/
def hkTaken (s : State) (h : Nat) : State := hostPut s h { hostGet s h with hkCmd := none }

theorem hkPerform_adds {c : HostCmd} (hp : pickTurn s ((List.range 2).filterMap (hkReady s)) = some (h, c)) :
    (∀ s2, extAdd (hkTaken s h) c.kind (hostAgentId h) (hostAgent (hkTaken s h) h) c.a c.b .sys = .ok s2 → hkPerform s = s2) ∧
      ∀ e, extAdd (hkTaken s h) c.kind (hostAgentId h) (hostAgent (hkTaken s h) h) c.a c.b .sys = .error e →
        hkPerform s = hkRefuse (hkTaken s h) h (hkCauseOf e) := by
  have he : hkPerform s = match pickTurn s ((List.range 2).filterMap (hkReady s)) with
      | none => s
      | some (h, c) => match extAdd (hkTaken s h) c.kind (hostAgentId h) (hostAgent (hkTaken s h) h) c.a c.b .sys with
        | .ok s2 => s2
        | .error e => hkRefuse (hkTaken s h) h (hkCauseOf e) := rfl
  rw [he, hp]
  exact ⟨fun s2 h2 => by simp only [h2], fun e h2 => by simp only [h2]⟩

theorem hostGet_hkRefuse (s : State) (h cause : Nat) :
    hostGet (hkRefuse s h cause) h = { hostGet s h with hkErr := true, hkCause := cause } := by
  simp [hkRefuse]

/-- An area stands or not by the hosts' links and the dies, of which a host's own commands are no part. -/
theorem areaThere_hostPut {x : HostBlk} (hl : x.linkUp = (hostGet s h).linkUp) (a n : Nat) :
    areaThere (hostPut s h x) a n = areaThere s a n := by
  have hlink (p : Nat) : (hostGet (hostPut s h x) p).linkUp = (hostGet s p).linkUp := by
    by_cases hp : p = h
    · rw [hp, hostGet_hostPut_same, hl]
    · rw [hostGet_hostPut_other s x hp]
  unfold areaThere
  simp only [hlink]
  rfl

/-! ### SUMMARY (20 R468, R469) -/

/-- The record of SUMMARY begins with its magic number and its host. -/
theorem sumBytes_head (s : State) (h : Nat) : ∃ rest, (sumBytes s h).1 = leBytes 8 0x4D533946 ++ (leBytes 8 h ++ rest) := by
  have hpad (x y : Nat) (l : List Nat) : ∃ rest, wordsPad 64 (x :: y :: l) = leBytes 8 x ++ (leBytes 8 y ++ rest) := by
    refine ⟨((l.flatMap (leBytes 8)) ++ List.replicate 64 0).take 48, ?_⟩
    simp only [wordsPad, List.flatMap_cons, List.append_assoc]
    rw [List.take_append, List.take_append, leBytes_length, leBytes_length, List.take_of_length_le (by simp [leBytes_length]),
      List.take_of_length_le (by simp [leBytes_length])]
  obtain ⟨rest, hrest⟩ := hpad 0x4D533946 h [s.mgmt.mgmtHost, freqPoint s, bootStat s, timeOf s]
  simp only [sumBytes, hrest, List.append_assoc]
  exact ⟨_, rfl⟩

theorem sumComplete_completes (hp : pickTurn s ((List.range 2).filterMap fun h => ((hostGet s h).sumCmd).map fun v => (h, v)) =
    some (h, v)) :
    let s1 := hostPut s h { hostGet s h with sumCmd := none }
    sumComplete s = if areaThere s v.toNat 4096 then partWrite { s1 with free := s1.free + 12 } v.toNat (sumBytes s1 h).1
      else sumFail s1 h := by
  intro s1
  have harea : areaThere s1 v.toNat 4096 = areaThere s v.toNat 4096 :=
    areaThere_hostPut (x := { hostGet s h with sumCmd := none }) rfl ..
  unfold sumComplete
  simp only [hp]
  rw [← harea]
  rfl

theorem take_leBytes (k m x : Nat) : (leBytes (k + m) x).take k = leBytes k x := by
  induction k generalizing x with
  | zero => rfl
  | succ k ih => rw [Nat.add_right_comm, leBytes, leBytes, List.take_succ_cons, ih]

/-- The summary's first word is its magic number, and its second the host that it is for. -/
theorem devNat_summary {s1 : State} (hm : MemInv s) (ha : OneMemory a 4096) (hh : h < 2) :
    let u := partWrite s a (sumBytes s1 h).1
    devNat u a 4 = 0x4D533946 ∧ devNat u (a + 8) 8 = h := by
  intro u
  obtain ⟨rest, hb⟩ := sumBytes_head s1 h
  have hlen : 16 ≤ (sumBytes s1 h).1.length := by
    rw [hb, List.length_append, List.length_append, leBytes_length, leBytes_length]
    omega
  have h0 : devBytes u a 4 = leBytes 4 0x4D533946 := by
    refine (devBytes_partWrite (i := 0) hm ha (by omega) (by omega)).trans ?_
    rw [hb, List.drop_zero, List.take_append_of_le_length (by rw [leBytes_length]; omega), take_leBytes 4 4]
  have h8 : devBytes u (a + 8) 8 = leBytes 8 h := by
    refine (devBytes_partWrite hm ha (by omega) (by omega)).trans ?_
    rw [hb, List.drop_left' (leBytes_length ..), List.take_left' (leBytes_length ..)]
  constructor
  · rw [devNat, h0, leNat_leBytes]
    rfl
  · rw [devNat, h8, leNat_leBytes, Nat.mod_eq_of_lt (by omega)]

/-! ### Attestation (20 R465) -/

theorem quoteBytes_nonce (s : State) (nonce : List Byte) : ∃ rest, quoteBytes s nonce = nonce ++ rest := by
  simp only [quoteBytes, List.append_assoc]
  exact ⟨_, rfl⟩

/-- The area can be written, the nonce in it read, and the key still stands. -/
def attReady (s : State) (v : Word) : Bool :=
  areaThere s v.toNat 2048 && (memReadTrap s v.toNat 64).isNone && !s.mgmt.zeroised

theorem attComplete_completes (hp : pickTurn s ((List.range 2).filterMap fun h => ((hostGet s h).attCmd).map fun v =>
    (h, v.headD 0)) = some (h, v)) :
    let s1 := hostPut s h { hostGet s h with attCmd := none }
    attComplete s = if attReady s v then partWrite s1 v.toNat (quoteBytes s1 (devBytes s v.toNat 64)) else attFail s1 h := by
  intro s1
  have hready : attReady s1 v = attReady s v := by
    have harea : areaThere s1 v.toNat 2048 = areaThere s v.toNat 2048 :=
      areaThere_hostPut (x := { hostGet s h with attCmd := none }) rfl ..
    rw [attReady, harea]
    rfl
  unfold attComplete
  simp only [hp]
  rw [← hready]
  rfl

/-- A quote leaves its nonce where it stands. -/
theorem devBytes_quote {s1 : State} (hm : MemInv s) (ha : OneMemory a 2048) :
    devBytes (partWrite s a (quoteBytes s1 (devBytes s a 64))) a 64 = devBytes s a 64 := by
  obtain ⟨rest, hq⟩ := quoteBytes_nonce s1 (devBytes s a 64)
  have hlen : (devBytes s a 64).length = 64 := by simp [devBytes]
  refine (devBytes_partWrite (i := 0) hm ha (by omega) ?_).trans ?_
  · rw [hq, List.length_append, hlen]
    omega
  · rw [hq, List.drop_zero, List.take_left' hlen]

end HostCommands

/-- Settles O55: the rule of each register and command, in the case that its clause names. -/
theorem hostCommands : Obligations.HostCommands := by
  unfold Obligations.HostCommands
  intro s host ring val h n x hb rg
  refine ⟨fun r m rest hp => ?write, fun r m rest hp => ?dropped,
    fun hcan => ⟨⟨fun hbad => ?ctlBad, fun hok => ?ctl⟩, ⟨fun hbad => ?baseBad, fun hok => ?base⟩,
      ⟨fun hbad => ?headBad, fun hok => ?head⟩, ?stat, ?hkadd, ?att⟩,
    fun hopen => ?sum, fun c hc hother hwaits => ?perform, fun v hv hother => ?summary, fun v l hv hother => ?quote⟩
  case write =>
    intro y pa words
    have hwrite : exec .faultRecordWrite s = .next (recWrite s r m rest) :=
      congrArg Host.Outcome.next (recordWrite_writes hp)
    refine ⟨fun hw hr hm => ?_, fun hf => ?_⟩
    · obtain ⟨hrecQ, hbytes, htail⟩ := recWrite_written (rest := rest) (x := y) rfl (words := words) rfl hw hr hm
      exact ⟨_, hwrite, hrecQ, hbytes, htail⟩
    · obtain ⟨⟨lost, hring⟩, hkeep, hdrop⟩ := recWrite_fails (rest := rest) (x := y) rfl hf
      have hoff := congrArg (fun q : FaultRing => q.ctl.getLsbD 8) hring
      exact ⟨_, hwrite, (congrArg FaultRing.failed hring :), (congrArg FaultRing.wrerr hring :),
        hoff.trans (by simp [ringFailed]), hkeep, hdrop⟩
  case dropped =>
    obtain ⟨hrecQ, hring⟩ := ringLost_counts { s with recQ := rest } r.host m
    exact ⟨_, congrArg Host.Outcome.next (recordWrite_drops hp), hrecQ, (congrArg FaultRing.lost hring :)⟩
  case ctlBad =>
    have hx := ringIn_ringRefused s h n
    exact ⟨_, (hostDoes_can hcan).trans (congrArg _ (ringCtlWrite_refuses hbad)), (congrArg FaultRing.ctlerr hx :),
      (congrArg FaultRing.ctl hx :)⟩
  case ctl => exact ⟨_, hostDoes_can hcan, ringCtlWrite_takes hok⟩
  case baseBad =>
    have hx := ringIn_ringRefused s h n
    exact ⟨_, (hostDoes_can hcan).trans (congrArg _ (ringBaseWrite_refuses hbad)), (congrArg FaultRing.ctlerr hx :),
      (congrArg FaultRing.base hx :)⟩
  case base =>
    exact ⟨_, (hostDoes_can hcan).trans (congrArg _ (ringBaseWrite_takes hok)),
      (congrArg FaultRing.base (ringIn_ringPut s h n { x with base := ringBase val }) :)⟩
  case headBad =>
    have hx := ringIn_ringRefused s h n
    exact ⟨_, (hostDoes_can hcan).trans (congrArg _ (ringHeadWrite_refuses hbad)), (congrArg FaultRing.ctlerr hx :),
      (congrArg FaultRing.head hx :)⟩
  case head =>
    have hx : rg (ringHeadWrite h n val s) = _ := ringHeadWrite_takes hok
    refine ⟨_, hostDoes_can hcan, ?_⟩
    rw [hx]
    exact ⟨rfl, rfl⟩
  case stat =>
    let w := keepSet s (ringReg h n) (val ||| 1#64)
    have hput := ringIn_ringPut s h n (statCleared x w)
    by_cases ha : SendsAgain x w
    · refine ⟨_, (hostDoes_can hcan).trans (congrArg _ (ringStatWrite_again ha)), ?_⟩
      have hx : rg (ringSent (ringPut s h n (statCleared x w)) h n) = { statCleared x w with ipend := true } := by
        exact (ringIn_ringPut ..).trans (congrArg (fun q : FaultRing => { q with ipend := true }) hput)
      exact ⟨(congrArg FaultRing.wrerr hx :), (congrArg FaultRing.ctlerr hx :),
        fun _ => ⟨(congrArg FaultRing.ipend hx :), rfl⟩, fun hn => absurd ha hn⟩
    · refine ⟨_, (hostDoes_can hcan).trans (congrArg _ (ringStatWrite_quiet ha)), ?_⟩
      exact ⟨(congrArg FaultRing.wrerr hput :), (congrArg FaultRing.ctlerr hput :), fun hy => absurd hy ha,
        fun _ => ⟨(congrArg FaultRing.ipend hput :), rfl⟩⟩
  case hkadd =>
    have hx : hb (hkAdd h val s) = _ := hkAdd_hostGet h val s
    refine ⟨_, hostDoes_can hcan, fun hc => ?_, fun hc ho => ?_, fun hc ho => ?_⟩
    · rw [hx, if_pos hc]
      exact ⟨rfl, rfl, rfl⟩
    · rw [hx, if_neg (by simp [hb] at hc; simp [hc]), if_neg (by simp [hb] at ho; simp [ho])]
      exact ⟨rfl, rfl, hc⟩
    · rw [hx, if_neg (by simp [hb] at hc; simp [hc]), if_pos ho]
      exact ⟨rfl, rfl⟩
  case att =>
    refine ⟨_, hostDoes_can hcan, fun hbad => ?_, fun hok => ?_⟩
    · have hx : hb (attWrite h val s) = _ := (congrArg hb (attWrite_refuses hbad)).trans (hostGet_attFail s h)
      exact ⟨(congrArg HostBlk.attErr hx :), (congrArg HostBlk.attCmd hx :)⟩
    · have hx : hb (attWrite h val s) = _ := (congrArg hb (attWrite_starts hok)).trans (hostGet_hostPut_same ..)
      exact ⟨(congrArg HostBlk.attCmd hx :), (congrArg HostBlk.attErr hx :)⟩
  case sum =>
    refine ⟨_, congrArg Host.Outcome.next (if_pos hopen), fun hbad => ?_, fun hok => ?_⟩
    · have hx : hb (sumWrite h val s) = _ := (congrArg hb (sumWrite_refuses hbad)).trans (hostGet_sumFail s h)
      exact ⟨(congrArg HostBlk.sumErr hx :), (congrArg HostBlk.sumCmd hx :)⟩
    · have hx : hb (sumWrite h val s) = _ := (congrArg hb (sumWrite_starts hok)).trans (hostGet_hostPut_same ..)
      exact ⟨(congrArg HostBlk.sumCmd hx :), (congrArg HostBlk.sumErr hx :)⟩
  case perform =>
    have hp : pickTurn s ((List.range 2).filterMap (hkReady s)) = some (h, c) := by
      refine pickTurn_onlyHost host ?_ ?_
      · have hc' : (hostGet s host.toNat).hkCmd = some c := hc
        simp only [hkReady, hc', hwaits, Bool.false_eq_true, if_false]
        rfl
      · have ho : (hostGet s (1 - host.toNat)).hkCmd = none := hother
        simp only [hkReady, ho]
    obtain ⟨hdone, hbad⟩ := hkPerform_adds hp
    refine ⟨fun s2 h2 => congrArg Host.Outcome.next (hdone s2 h2), fun e h2 =>
      ⟨_, congrArg Host.Outcome.next (hbad e h2), ?_⟩⟩
    have hx : hb (hkRefuse (hkTaken s h) h (hkCauseOf e)) = _ := hostGet_hkRefuse ..
    have hy : hb (hkTaken s h) = _ := hostGet_hostPut_same ..
    exact ⟨(congrArg HostBlk.hkCmd hx :).trans (congrArg HostBlk.hkCmd hy :), (congrArg HostBlk.hkErr hx :),
      (congrArg HostBlk.hkCause hx :), rfl⟩
  case summary =>
    have hp := pickTurn_onlyHost (s := s) (f := fun h => ((hostGet s h).sumCmd).map fun v => (h, v)) host
      (congrArg (Option.map fun v => (host.toNat, v)) hv) (congrArg (Option.map fun v => (1 - host.toNat, v)) hother)
    let s1 := hostPut s h { hostGet s h with sumCmd := none }
    have he := sumComplete_completes hp
    refine ⟨fun ha hm => ⟨_, congrArg Host.Outcome.next (he.trans (if_pos ha)), ?_, ?_⟩,
      fun ha => ⟨_, congrArg Host.Outcome.next (he.trans (if_neg (by simp [ha]))), ?_⟩⟩
    · refine (congrArg HostBlk.sumCmd (hostGet_of_hosts (partWrite_hosts ..) h)).trans ?_
      exact congrArg HostBlk.sumCmd (hostGet_hostPut_same ..)
    · exact devNat_summary (s := { s1 with free := s1.free + 12 }) hm
        (oneMemory_of_areaThere ha) host.isLt
    · have hx : hb (sumFail s1 h) = _ := hostGet_sumFail ..
      exact ⟨(congrArg HostBlk.sumCmd hx :).trans (congrArg HostBlk.sumCmd (hostGet_hostPut_same ..)),
        (congrArg HostBlk.sumErr hx :)⟩
  case quote =>
    have hp := pickTurn_onlyHost (s := s) (f := fun h => ((hostGet s h).attCmd).map fun v => (h, v.headD 0)) host
      (congrArg (Option.map fun v => (host.toNat, v.headD 0)) hv)
      (congrArg (Option.map fun v => (1 - host.toNat, v.headD 0)) hother)
    let s1 := hostPut s h { hostGet s h with attCmd := none }
    have he := attComplete_completes hp
    have hy := hostGet_hostPut_same s h { hostGet s h with attCmd := none }
    refine ⟨fun ha => ⟨_, congrArg Host.Outcome.next (he.trans (if_pos ha)), ?_, ?_, fun hm => ?_⟩,
      fun ha => ⟨_, congrArg Host.Outcome.next (he.trans (if_neg (Bool.not_eq_true _ ▸ ha))), ?_⟩⟩
    · exact (congrArg HostBlk.attCmd (hostGet_of_hosts (partWrite_hosts ..) h)).trans (congrArg HostBlk.attCmd hy :)
    · exact (congrArg HostBlk.attErr (hostGet_of_hosts (partWrite_hosts ..) h)).trans (congrArg HostBlk.attErr hy :)
    · have harea : areaThere s v.toNat 2048 = true := (Bool.and_eq_true_iff.1 (Bool.and_eq_true_iff.1 ha).1).1
      exact devBytes_quote (s := s1) hm (oneMemory_of_areaThere harea)
    · have hx : hb (attFail s1 h) = _ := hostGet_attFail ..
      exact ⟨(congrArg HostBlk.attCmd hx :).trans (congrArg HostBlk.attCmd hy :), (congrArg HostBlk.attErr hx :), rfl⟩

end Sys2Proof.Machine

/-! # O46: host commands to a node, its yield deadline and its retirement -/

namespace Sys2Proof.Machine

open Sys2Proof

/-! ## Adds, drains and evictions change a tile in its creel, reels, pool, watermarks and engines alone (12 R285, 16 R365) -/

section SameBare

/-- A tile without what an add, an engine's stop or an eviction may change of it. -/
def bare (t : Tile) : Tile := { t with creel := [], reels := [], engines := [], pool := [], wmarks := [], standby := [] }

/-- No tile differs in what `bare` leaves of it. -/
structure SameBare (s u : State) : Prop where
  tile : ∀ k, bare (tileGet u k) = bare (tileGet s k)

variable {α : Type} {s u v : State} {n tile e agent asid : Nat} {w : Word} {sc : Scope} {r : Run} {node : Option Nat}

theorem SameBare.of_tiles (h : u.tiles = s.tiles) : SameBare s u := ⟨fun k => congrArg bare (tileGet_of_tiles h k)⟩

theorem SameBare.refl (s : State) : SameBare s s := .of_tiles rfl

theorem SameBare.trans (h : SameBare s u) (k : SameBare u v) : SameBare s v := ⟨fun i => (k.tile i).trans (h.tile i)⟩

/-- The same rule, read from the later of two acts. -/
theorem SameBare.after (k : SameBare u v) (h : SameBare s u) : SameBare s v := h.trans k

theorem SameBare.ite {p : Prop} [Decidable p] (h : SameBare s u) (k : SameBare s v) : SameBare s (if p then u else v) := by
  split
  · exact h
  · exact k

theorem SameBare.foldl {f : State → α → State} (hf : ∀ s x, SameBare s (f s x)) (l : List α) (s : State) :
    SameBare s (l.foldl f s) :=
  foldl_keeps (p := SameBare s) (.refl s) fun u x hu => hu.trans (hf u x)

theorem SameBare.halted (h : SameBare s u) (k : Nat) : (tileGet u k).halted = (tileGet s k).halted :=
  (congrArg Tile.halted (h.tile k) :)

theorem SameBare.gov (h : SameBare s u) (k : Nat) : (tileGet u k).gov = (tileGet s k).gov :=
  (congrArg Tile.gov (h.tile k) :)

theorem SameBare.grant (h : SameBare s u) (k : Nat) : (tileGet u k).grant = (tileGet s k).grant :=
  (congrArg Tile.grant (h.tile k) :)

/-- A tile whose bare part stays is put back. -/
theorem tilePut_sameBare {t : Tile} (h : bare t = bare (tileGet s n)) : SameBare s (tilePut s n t) := by
  refine ⟨fun k => ?_⟩
  by_cases hk : k = n
  · subst hk; rw [tileGet_tilePut_same, h]
  · rw [tileGet_tilePut_other _ _ hk]

theorem CreelsOnly.sameBare (h : CreelsOnly s u) : SameBare s u := by
  refine ⟨fun k => ?_⟩
  obtain ⟨_, hk⟩ := h.tile k
  rw [hk]
  rfl

theorem MemoryOnly.sameBare (h : MemoryOnly s u) : SameBare s u := h.creelsOnly.sameBare

theorem devWrite_sameBare (s : State) (pa : Nat) (bs : List Byte) : SameBare s (devWrite s pa bs) :=
  (devWrite_memoryOnly ..).sameBare

theorem reelStore_sameBare (s : State) (r : ReelAt) (v : Word) : SameBare s (reelStore s r v) := by
  cases r with
  | reg t k => exact tilePut_sameBare rfl
  | mem pa => exact (devWrite_sameBare ..).after (.of_tiles rfl)

theorem reelAdd_sameBare {r : ReelAt} {v : Word} (h : reelAdd s r v = .ok u) : SameBare s u := by
  unfold reelAdd at h
  split at h
  · cases h
  · cases h
    exact (reelStore_sameBare ..).trans (wakeReel_creelsOnly ..).sameBare

theorem release_sameBare (s : State) (a : Nat) (x : Agent) (loc : Nat) (sc : Scope) : SameBare s (release s a x loc sc) := by
  refine SameBare.trans (u := relsJoin s loc _) ?_ (.of_tiles rfl)
  unfold relsJoin
  split
  · exact .refl s
  · exact .of_tiles rfl

theorem touch_sameBare (s : State) (asid bit : Nat) : SameBare s (touch s asid bit) := .ite (.refl s) (.of_tiles rfl)

theorem touchPa_sameBare (s : State) (asid pa : Nat) : SameBare s (touchPa s asid pa) := by
  unfold touchPa
  split
  · exact touch_sameBare ..
  · exact .refl s

theorem reelTouch_sameBare (s : State) (asid : Nat) (r : ReelAt) : SameBare s (reelTouch s asid r) := by
  cases r with
  | reg t k => exact touch_sameBare ..
  | mem pa => exact touchPa_sameBare ..

theorem nodeRec_sameBare (s : State) (i n agent mask pc : Nat) (x : Trap) : SameBare s (nodeRec s i n agent mask pc x) := by
  unfold nodeRec
  split
  · exact .refl s
  · exact .of_tiles rfl

theorem demoteNode_sameBare (s : State) (i n agent : Nat) : SameBare s (demoteNode s i n agent) := by
  unfold demoteNode
  split
  · exact .refl s
  · exact .ite ((nodeRec_sameBare ..).after (.of_tiles rfl)) (.refl s)

theorem demoteAddFor_sameBare (s : State) (node : Option Nat) (n agent : Nat) (r : ReelAt) :
    SameBare s (demoteAddFor s node n agent r) := by
  unfold demoteAddFor
  split
  · exact .refl s
  · split
    · exact demoteNode_sameBare ..
    · exact .ite (.refl s) (demoteNode_sameBare ..)

theorem addFor_sameBare {r : ReelAt} (h : addFor s node asid tile agent r w sc = .ok u) : SameBare s u := by
  unfold addFor at h
  split at h
  · cases h
  · exact (reelAdd_sameBare h).after ((release_sameBare ..).after ((demoteAddFor_sameBare ..).after (reelTouch_sameBare ..)))

theorem engAdd_sameBare {addr : Word} : engAdd s tile agent addr w sc = .ok u → SameBare s u :=
  engThen_elim fun r _ => by
    split
    · rintro ⟨⟩
      exact addFor_sameBare ‹_›
    · exact nofun

theorem addOrOwe_sameBare {addr : Word} {c : Nat} (h : addOrOwe s node asid tile agent addr w sc = (u, c)) : SameBare s u := by
  revert h
  fun_cases addOrOwe
  · exact fun | rfl => .refl s
  · exact fun | rfl => .of_tiles rfl
  · exact fun | rfl => addFor_sameBare ‹_›
  · exact fun | rfl => .refl s

theorem engMap_sameBare (s : State) (n e : Nat) (f : Engine → Engine) : SameBare s (engMap s n e f) := tilePut_sameBare rfl

theorem mxRun_sameBare (s : State) (n e agent : Nat) (f : Run → Run) : SameBare s (mxRun s n e agent f) := engMap_sameBare ..

theorem checkGran_sameBare {a gran : Nat} {x : Agent} {write plain : Bool} {pend : Option (Nat × Nat)}
    (h : checkGran s a x gran write plain pend = .ok u) : SameBare s u := by
  revert h
  fun_cases checkGran
  · exact nofun
  · exact fun | rfl => .refl s
  · exact nofun
  · exact fun | rfl => .of_tiles rfl

theorem checkGrans_sameBare {a : Nat} {x : Agent} {write plain : Bool} {pend : Option (Nat × Nat)} {l : List Nat} :
    checkGrans s a x write plain pend l = .ok u → SameBare s u := by
  fun_induction checkGrans
  · exact fun | rfl => .refl _
  · exact nofun
  · rename_i h ih
    exact fun hu => (checkGran_sameBare h).trans (ih hu)

theorem tagSync_sameBare (s : State) (leaf pa : Nat) : SameBare s (tagSync s leaf pa) := by
  fun_cases tagSync
  · exact .refl s
  · exact .of_tiles rfl
  · exact .of_tiles rfl

theorem tagStore_sameBare (s : State) (leaf pa : Nat) : SameBare s (tagStore s leaf pa) := by
  fun_cases tagStore
  · exact .refl s
  · exact .of_tiles rfl
  · exact .of_tiles rfl

theorem checkMem_sameBare {a leaf pa : Nat} {x : Agent} {write plain : Bool} {pend : Option (Nat × Nat)}
    (h : checkMem s a x leaf pa write plain pend = .ok u) : SameBare s u := by
  unfold checkMem at h
  split at h
  · cases h
  · cases h
    exact (tagStore_sameBare ..).after ((checkGran_sameBare ‹_›).after (tagSync_sameBare ..))

theorem checkMems_sameBare {a leaf : Nat} {x : Agent} {write plain : Bool} {l : List Nat} :
    checkMems s a x leaf write plain l = .ok u → SameBare s u := by
  fun_induction checkMems
  · exact fun | rfl => .refl _
  · exact nofun
  · rename_i h ih
    exact fun hu => (checkMem_sameBare h).trans (ih hu)

theorem checkPiece_sameBare {a : Nat} {x : Agent} {write plain : Bool} {y : Piece} :
    checkPiece s a x write plain y = .ok u → SameBare s u := by
  fun_cases checkPiece
  · exact checkGrans_sameBare
  · exact checkMems_sameBare
  · exact fun | rfl => .refl s

theorem engCheck_sameBare {wr : Bool} {l : List Piece} : engCheck s agent wr l = .ok u → SameBare s u := by
  unfold engCheck
  fun_induction engCheckAs
  · exact fun | rfl => .refl _
  · rename_i h ih
    exact fun hu => (checkPiece_sameBare h).trans (ih hu)
  · exact nofun

theorem poolWrite_sameBare (s : State) (tile off : Nat) (bs : List Byte) : SameBare s (poolWrite s tile off bs) := by
  refine SameBare.after (tilePut_sameBare rfl) (s := s) (u := poolClean s tile off bs.length) ?_
  unfold poolClean
  split <;> exact .of_tiles rfl

theorem plainWrite_sameBare (s : State) (l : List Nat) : SameBare s (plainWrite s l) := .ite (.refl s) (.of_tiles rfl)

theorem cacheDirty_sameBare (s : State) (die g : Nat) : SameBare s (cacheDirty s die g) := by
  unfold cacheDirty
  extract_lets s1 s2 d
  have h1 : SameBare s s1 := .of_tiles rfl
  have h2 : SameBare s1 s2 := by
    unfold s2 cachePut wroteBack
    exact .ite (.of_tiles rfl) (.of_tiles rfl)
  exact .ite h1 (h1.trans (h2.trans (.of_tiles rfl)))

theorem pieceWrite_sameBare {fill : Bool} {p : Piece} {bs : List Byte} :
    pieceWrite s tile fill p bs = .ok u → SameBare s u := by
  fun_cases pieceWrite
  · exact nofun
  · exact fun | rfl => (poolWrite_sameBare ..).after (plainWrite_sameBare ..)
  · exact nofun
  · exact nofun
  · next s1 =>
    rintro ⟨⟩
    have h1 : SameBare s s1 := by
      refine .foldl (fun s g => ?_) ..
      exact .ite (cacheDirty_sameBare ..) (.of_tiles rfl)
    exact (devWrite_sameBare ..).after ((plainWrite_sameBare ..).after h1)

theorem piecesWrite_sameBare {fill : Bool} {l : List Piece} {bs : List Byte} :
    piecesWrite s tile fill l bs = .ok u → SameBare s u := by
  induction l generalizing s bs with
  | nil => exact fun | rfl => .refl _
  | cons p ps ih => exact engThen_elim fun _ e hu => (pieceWrite_sameBare e).trans (ih hu)

theorem writeOrOwe_sameBare (s : State) (node : Option Nat) (asid tile agent va : Nat) (bs : List Byte) :
    SameBare s (writeOrOwe s node asid tile agent va bs) := by
  unfold writeOrOwe
  split
  · split
    · split
      · exact (engCheck_sameBare ‹_›).trans (piecesWrite_sameBare ‹_›)
      · exact .refl s
    · exact .refl s
  · exact .of_tiles rfl
  · exact .refl s

/-! ### The abort of a command of the fabric engine (20 R458) -/

theorem fxReport_sameBare (s : State) (node : Option Nat) (asid tile : Nat) (x : Engine) (r : Run) (cause port : Nat) :
    SameBare s (fxReport s node asid tile x r cause port) := writeOrOwe_sameBare ..

theorem fxAbortAdd_sameBare (s : State) (node : Option Nat) (asid tile : Nat) (r : Run) :
    SameBare s (fxAbortAdd s node asid tile r) := by
  fun_cases fxAbortAdd
  · exact .refl s
  · exact .of_tiles rfl
  · exact addOrOwe_sameBare rfl

theorem fxAbortEnd_sameBare (s : State) (tile cause port : Nat) : SameBare s (fxAbortEnd s tile cause port) := by
  fun_cases fxAbortEnd
  · exact .refl s
  · exact (engMap_sameBare ..).after ((fxAbortAdd_sameBare ..).after (fxReport_sameBare ..))

theorem fxAbort_sameBare (s : State) (tile cause port : Nat) : SameBare s (fxAbort s tile cause port) := by
  fun_cases fxAbort
  · exact .refl s
  · exact (fxAbortEnd_sameBare ..).after (.of_tiles rfl)

theorem fxResume_sameBare (s : State) (tile : Nat) : SameBare s (fxResume s tile) := by
  fun_cases fxResume
  · exact fxAbortEnd_sameBare ..
  · exact .refl s
  · exact .refl s

end SameBare

/-! ## A freed tile, and the others (16 R365; 18 R407, R422) -/

section Freed

variable {s u v : State} {n tile k : Nat} {nd : Node}

/-- A tile that no node has: nothing runs on it, nothing waits, and it holds no engine. -/
structure Freed (t : Tile) : Prop where
  node : t.node = none
  creel : t.creel = []
  running : t.running = none
  engines : t.engines = []

/-- Tiles but one differ in their creels alone, and empty ones stay empty. -/
structure OthersWake (n : Nat) (s u : State) : Prop where
  tile : ∀ k, k ≠ n → ∃ creel, tileGet u k = { tileGet s k with creel } ∧ ((tileGet s k).creel = [] → creel = [])

theorem OthersWake.of_other (h : ∀ k, k ≠ n → tileGet u k = tileGet s k) : OthersWake n s u :=
  ⟨fun k hk => ⟨_, h k hk, id⟩⟩

theorem OthersWake.refl (n : Nat) (s : State) : OthersWake n s s := .of_other fun _ _ => rfl

theorem OthersWake.of_tiles (h : u.tiles = s.tiles) : OthersWake n s u := .of_other fun k _ => tileGet_of_tiles h k

theorem OthersWake.trans (h : OthersWake n s u) (h' : OthersWake n u v) : OthersWake n s v := by
  refine ⟨fun k hk => ?_⟩
  obtain ⟨c, hu, hc⟩ := h.tile k hk
  obtain ⟨d, hv, hd⟩ := h'.tile k hk
  exact ⟨d, by rw [hv, hu], fun he => hd (by rw [hu]; exact hc he)⟩

/-- A tile of which nothing but the creel changes, which had a waiter. -/
theorem OthersWake.of_creels (h : CreelsOnly s u) {i : Nat} (hi : (tileGet s i).creel ≠ [])
    (ho : ∀ k, k ≠ i → tileGet u k = tileGet s k) : OthersWake n s u := by
  refine ⟨fun k _ => ?_⟩
  by_cases hk : k = i
  · obtain ⟨c, hc⟩ := h.tile k
    exact ⟨c, hc, fun he => absurd (hk ▸ he) hi⟩
  · exact ⟨_, ho k hk, id⟩

theorem takeFirst_ne_nil {α : Type} {p : α → Bool} {l : List α} {x : α × List α} (h : takeFirst p l = some x) : l ≠ [] := by
  rintro rfl
  cases h

theorem wakeEnt_othersWake (n : Nat) (s : State) (w : WaitEnt) (acq : Bool) : OthersWake n s (wakeEnt s w acq) := by
  cases h : takeFirst (isWaiter w.loc w.addr w.t true) (tileGet s w.tile).creel with
  | none => simp only [wakeEnt, h]; exact .refl n s
  | some x =>
    refine .of_creels (wakeEnt_creelsOnly ..) (takeFirst_ne_nil h) fun k hk => ?_
    simp only [wakeEnt, h]
    exact (tileGet_readyHead_other hk).trans (tileGet_tilePut_other _ _ hk)

theorem offerEntry_othersWake (n : Nat) (s : State) (r : ReelAt) : OthersWake n s (offerEntry s r) := by
  have hc := offerEntry_creelsOnly s r
  revert hc
  unfold offerEntry
  split
  · exact fun _ => .refl n s
  · split
    · extract_lets x
      split
      · exact fun _ => .refl n s
      · next h =>
        refine fun hc => .of_creels hc (takeFirst_ne_nil h) fun k hk => ?_
        split
        · exact (tileGet_readyHead_other hk).trans (tileGet_tilePut_other _ _ hk)
        · exact tileGet_tilePut_other _ _ hk
    · exact fun _ => .refl n s

theorem OthersWake.foldl {α : Type} {f : State → α → State} (hf : ∀ s x, OthersWake n s (f s x)) (l : List α) (s : State) :
    OthersWake n s (l.foldl f s) :=
  foldl_keeps (p := OthersWake n s) (.refl n s) fun u x hu => hu.trans (hf u x)

theorem tilePut_othersWake (s : State) (n : Nat) (t : Tile) : OthersWake n s (tilePut s n t) :=
  .of_other fun _ hk => tileGet_tilePut_other _ _ hk

theorem zeroFound_othersWake (s : State) (n : Nat) : OthersWake n s (zeroFound s n) := by
  unfold zeroFound
  extract_lets t s1
  have h1 : OthersWake n s s1 := by
    refine .foldl (fun u k => ?_) ..
    exact .of_other fun _ hk => tileGet_tilePut_other _ _ hk
  exact h1.trans (tilePut_othersWake ..)

theorem offerFreed_othersWake (n : Nat) (l : List WaitEnt) (s : State) : OthersWake n s (offerFreed l s) := by
  refine .foldl (fun u w => ?_) ..
  split
  · exact offerEntry_othersWake ..
  · exact .refl n u

theorem withdrawWaits_othersWake (s : State) (n : Nat) : OthersWake n s (withdrawWaits s n) := by
  unfold withdrawWaits
  extract_lets mine l
  have h1 : OthersWake n s { s with waits := s.waits.filter fun w => !mine w } := .of_tiles rfl
  refine h1.trans (.foldl (fun u w => ?_) ..)
  exact wakeEnt_othersWake ..

/-- A tile that is freed changes the creels of the others alone. -/
theorem freeTile_othersWake (s : State) (n : Nat) : OthersWake n s (freeTile s n) := by
  unfold freeTile
  extract_lets s0 gone s1 t s2 s3 t' d s4
  have h0 : OthersWake n s s1 := (zeroFound_othersWake s n).trans (.of_tiles rfl)
  have h2 : OthersWake n s1 s2 := (tilePut_othersWake ..).trans (offerFreed_othersWake ..)
  have h3 : OthersWake n s2 s3 := (withdrawWaits_othersWake ..).trans (tilePut_othersWake ..)
  have h4 : OthersWake n s3 s4 := .of_tiles rfl
  exact h0.trans (h2.trans (h3.trans (h4.trans (tilePut_othersWake ..))))

theorem freeTile_freed (s : State) (n : Nat) : Freed (tileGet (freeTile s n) n) := by
  unfold freeTile
  extract_lets s0 gone s1 t s2 s3 t' d s4
  rw [tileGet_tilePut_same]
  exact ⟨rfl, rfl, rfl, rfl⟩

theorem Freed.othersWake (h : OthersWake n s u) (hk : k ≠ n) (hf : Freed (tileGet s k)) : Freed (tileGet u k) := by
  obtain ⟨c, hu, hc⟩ := h.tile k hk
  rw [hu]
  exact ⟨hf.node, hc hf.creel, hf.running, hf.engines⟩

/-- Every tile of a list that is freed, one after the other, is free. -/
theorem freeTiles_freed {l : List Nat} (hk : k ∈ l) (s : State) : Freed (tileGet (l.foldl freeTile s) k) :=
  foldl_brings (q := fun u => Freed (tileGet u k)) hk (fun s => freeTile_freed s k)
    (fun s j _ hj h => .othersWake (freeTile_othersWake s j) hj.symm h) s

/-- A node that is freed has no tile any more, and its tiles no node. -/
theorem freeNode_freed (h : nodeGet? s n = some nd) : (nodeGet? (freeNode s n) n).isSome = true ∧
    ∀ k ∈ nd.tiles, (tileGet (freeNode s n) k).node = none ∧ (tileGet (freeNode s n) k).running = none := by
  simp only [freeNode, h]
  refine ⟨by simp [nodeGet?, nodePut], fun k hk => ?_⟩
  have hf : Freed (tileGet (dropRecords (nd.tiles.foldl freeTile s) n) k) :=
    (tileGet_of_tiles (keepRecords_tiles_packs ..).1 k).symm ▸ freeTiles_freed hk s
  generalize dropRecords (nd.tiles.foldl freeTile s) n = u at hf
  simp only [tileGet, mapGet, nodePut] at hf ⊢
  rw [mapGet?_map_entries u.tiles]
  cases hm : mapGet? u.tiles k with
  | none => exact ⟨rfl, rfl⟩
  | some t =>
    rw [hm] at hf
    exact ⟨hf.node, hf.running⟩

end Freed

end Sys2Proof.Machine

namespace Sys2Proof.Machine

open Sys2Proof

/-! ## A write of NODE_CMD (18 R406, R407) -/

section NodeCmd

variable {s : State} {h n op w : Nat} {nd : Node} {val v : BitVec 64}

/-- The word that a write of NODE_CMD with an operation takes. -/
def nodeWord (val : BitVec 64) (op : Nat) : Word := BitVec.ofNat 64 (val.toNat % 2 ^ 61 + op * 2 ^ 61)

theorem nodeWord_fields (val : BitVec 64) (hop : op < 8) : natBits (nodeWord val op).toNat 61 3 = op ∧
    natBits (nodeWord val op).toNat 0 12 = val.toNat % 2 ^ 12 := by
  simp only [nodeWord, natBits, BitVec.toNat_ofNat]
  omega

/-- A record of a protocol event changes the queue of records alone. -/
theorem protocolNote_recQ (s : State) (n : Nat) : ∃ recQ, protocolNote s n = { s with recQ } := by
  unfold protocolNote nodeNoteIn
  split
  · exact ⟨s.recQ, rfl⟩
  · exact ⟨_, rfl⟩

/-- A command that is refused reports why, and nothing else happens (18 R406). -/
theorem nodeCmd_refused (hw : cmdWhy s h v = some w) :
    (hostGet (nodeCmd h v s) h).nodeErr = true ∧ (hostGet (nodeCmd h v s) h).nodeWhy = w ∧
      (nodeCmd h v s).nodes = s.nodes ∧ (nodeCmd h v s).tiles = s.tiles ∧ (nodeCmd h v s).mem = s.mem := by
  simp only [nodeCmd, hw]
  generalize hu : noteBits (hostPut s h { hostGet s h with nodeErr := true, nodeWhy := w }) (hostReg h 0x1008) 2 = u
  have hx : hostGet u h = { hostGet s h with nodeErr := true, nodeWhy := w } := by
    rw [← hu]
    exact hostGet_hostPut_same ..
  have hstay : (hostGet u h).nodeErr = true ∧ (hostGet u h).nodeWhy = w ∧ u.nodes = s.nodes ∧ u.tiles = s.tiles ∧
      u.mem = s.mem := by
    rw [hx, ← hu]
    exact ⟨rfl, rfl, rfl, rfl, rfl⟩
  split
  · obtain ⟨recQ, hp⟩ := protocolNote_recQ u (natBits v.toNat 0 12)
    rw [hp]
    exact hstay
  · exact hstay

theorem nodeCmd_kill (hw : cmdWhy s h (nodeWord val 4) = none) :
    ∃ y, nodeCmd h (nodeWord val 4) s = hostPut (endNode s (val.toNat % 2 ^ 12) .killed) h y := by
  obtain ⟨hop, hn⟩ := nodeWord_fields val (op := 4) (by decide)
  simp only [nodeCmd, hw, hop, hn]
  exact ⟨_, rfl⟩

theorem nodeCmd_yield (hw : cmdWhy s h (nodeWord val 5) = none) :
    ∃ y, nodeCmd h (nodeWord val 5) s = hostPut (postYield s (val.toNat % 2 ^ 12)) h y := by
  obtain ⟨hop, hn⟩ := nodeWord_fields val (op := 5) (by decide)
  simp only [nodeCmd, hw, hop, hn]
  exact ⟨_, rfl⟩

theorem nodeCmd_save (hw : cmdWhy s h (nodeWord val 3) = none) (hnd : nodeGet? s (val.toNat % 2 ^ 12) = some nd) :
    ∃ y, nodeCmd h (nodeWord val 3) s =
      hostPut (nodePut s (val.toNat % 2 ^ 12) { nd with saving := some .saved }) h y := by
  obtain ⟨hop, hn⟩ := nodeWord_fields val (op := 3) (by decide)
  simp only [nodeCmd, hw, hop, hn, nodeCmd.nodePut', hnd]
  exact ⟨_, rfl⟩

theorem nodeCmd_resumeSaved (hw : cmdWhy s h (nodeWord val 1) = none) (hnd : nodeGet? s (val.toNat % 2 ^ 12) = some nd)
    (hst : nd.st = .saved) :
    ∃ y, nodeCmd h (nodeWord val 1) s = hostPut (resumeSaved s (val.toNat % 2 ^ 12) nd) h y := by
  obtain ⟨hop, hn⟩ := nodeWord_fields val (op := 1) (by decide)
  simp only [nodeCmd, hw, hop, hn, hnd, if_pos hst]
  exact ⟨_, rfl⟩

theorem nodeCmd_resume (hop : op = 1 ∨ op = 2) (hw : cmdWhy s h (nodeWord val op) = none)
    (hnd : nodeGet? s (val.toNat % 2 ^ 12) = some nd) (hst : nd.st = .stopped) (hrec : recHeld s (val.toNat % 2 ^ 12) = false) :
    ∃ y, nodeCmd h (nodeWord val op) s = hostPut (resumeNode s h (val.toNat % 2 ^ 12) (decide (op = 2))) h y := by
  obtain ⟨hk, hn⟩ := nodeWord_fields val (op := op) (by omega)
  obtain rfl | rfl := hop
  all_goals
    simp only [nodeCmd, hw, hk, hn, hnd, hst, hrec]
    exact ⟨_, rfl⟩

end NodeCmd

/-! ## What the commands do to the node (18 R407, R408, R422) -/

section NodeActs

variable {s u : State} {h n : Nat} {nd : Node} {past : Bool}

theorem dropTouched_nodes_tiles (s : State) (asid : Nat) :
    (dropTouched s asid).nodes = s.nodes ∧ (dropTouched s asid).tiles = s.tiles := by
  unfold dropTouched
  split <;> exact ⟨rfl, rfl⟩

/-- A node that leaves for good is in the state it leaves with, and its tiles have no node. -/
theorem endNode_ends (hnd : nodeGet? s n = some nd) (st : NodeState) : (∃ x, nodeGet? (endNode s n st) n = some x ∧ x.st = st) ∧
    ∀ k ∈ nd.tiles, (tileGet (endNode s n st) k).node = none ∧ (tileGet (endNode s n st) k).running = none := by
  obtain ⟨hsome, hfree⟩ := freeNode_freed (s := orphanRecs s n) hnd
  obtain ⟨x, hx⟩ := Option.isSome_iff_exists.mp hsome
  simp only [endNode, hnd, hx]
  set y : Node := { x with st, acq := [], conflictBy := none }
  obtain ⟨hnodes, htiles⟩ := dropTouched_nodes_tiles (nodePut (freeNode (orphanRecs s n) n) n y) (nodeAsid nd)
  refine ⟨⟨y, ?_, rfl⟩, fun k hk => ?_⟩
  · rw [nodeGet?, hnodes]
    exact nodeGet_nodePut_same ..
  · rw [tileGet_of_tiles htiles]
    exact hfree k hk

theorem postYield_yields (hnd : nodeGet? s n = some nd) : (∃ x, nodeGet? (postYield s n) n = some x ∧ x.st = .yielding) ∧
    ∀ k ∈ nd.tiles, (tileGet (postYield s n) k).yreqPosted = true := by
  simp only [postYield, hnd]
  refine ⟨⟨_, nodeGet_nodePut_same .., rfl⟩, fun k hk => ?_⟩
  refine foldl_brings (q := fun u => (tileGet u k).yreqPosted = true) hk (fun u => ?_) (fun u j _ hj hu => ?_) s
  · split
    · assumption
    · simp
  · split
    · exact hu
    · simpa [hj.symm] using hu

/-- A tile that is resumed goes on, and none halts (18 R407). -/
theorem resumeTile_halted (s : State) (k j : Nat) :
    (tileGet (resumeTile past s k) j).halted = if j = k then false else (tileGet s j).halted := by
  unfold resumeTile
  extract_lets t brk s1
  rw [(fxResume_sameBare s1 k).halted]
  by_cases hj : j = k
  · subst hj
    simp [s1]
  · simp [s1, hj]

theorem resumeTiles_halted {l : List Nat} {k : Nat} (hk : k ∈ l) (s : State) :
    (tileGet (l.foldl (resumeTile past) s) k).halted = false :=
  foldl_brings (q := fun u => (tileGet u k).halted = false) hk (fun s => by simp [resumeTile_halted])
    (fun s j _ hj h => by simp [resumeTile_halted, hj.symm, h]) s

/-- A stopped node that no host's conflict stops again goes on (18 R407). -/
theorem resumeNode_goes (hnd : nodeGet? s n = some nd) (hconf : nd.conflictBy = none) :
    (∀ k ∈ nd.tiles, (tileGet (resumeNode s h n past) k).halted = false) ∧
      ∃ x, nodeGet? (resumeNode s h n past) n = some x ∧ (nd.restoring = true ∨ nd.requeue = true → x.st = .placed) ∧
        (nd.restoring = false → nd.requeue = false → x.st = .running ∨ x.st = .yielding ∨ x.st = .retiring) := by
  simp only [resumeNode, hnd, hconf]
  refine ⟨fun k hk => resumeTiles_halted hk _, _, nodeGet_nodePut_same .., fun hr => ?_, fun hr hq => ?_⟩
  · exact if_pos (by simpa using hr)
  · simp only [hr, hq]
    grind

/-- Whether a candidate can be placed at all does not hang on the nodes. -/
theorem impossible_nodePut (s : State) (order : Nat) (x nd : Node) :
    impossible (nodePut { s with nextOrder := order } n x) nd = impossible s nd := rfl

theorem resumeSaved_preempted
    (hp : impossible s { nd with st := .preempted, since := timeOf s, order := s.nextOrder } = false) :
    ∃ x, nodeGet? (resumeSaved s n nd) n = some x ∧ x.st = .preempted := by
  simp only [resumeSaved, impossible_nodePut, hp]
  exact ⟨_, nodeGet_nodePut_same .., rfl⟩

/-- The completion add of a node leaves the nodes alone (16 R359). -/
theorem completionAdd_nodes : completionAdd s n nd = .ok u → u.nodes = s.nodes := by
  unfold completionAdd
  split
  · exact fun | rfl => rfl
  · refine engThen_elim fun pa _ => ?_
    extract_lets sc s1
    split
    · exact nofun
    · split
      · exact nofun
      · split
        · rintro ⟨⟩
          exact (reelAdd_nodes ‹_›).trans (relsJoin_nodes.trans touchPa_nodes)
        · exact nofun

end NodeActs

/-- Settles O46: a refused command only reports, and each accepted one does what its act of the node does. -/
theorem nodeCommands : Obligations.NodeCommands := by
  unfold Obligations.NodeCommands
  intro host val s nid nd h v now
  refine ⟨fun hcan => ⟨?_, ?_⟩, ?_, ?_, ?_⟩
  case refine_1 =>
    intro r hr w hw
    have hexec : exec (r.1 host val) s = .next (nodeCmd h (v r.2) s) := by
      simp only [List.mem_cons, List.not_mem_nil, or_false] at hr
      obtain rfl | rfl | rfl | rfl | rfl := hr <;> exact hostDoes_can hcan
    exact ⟨_, hexec, nodeCmd_refused hw⟩
  case refine_2 =>
    rintro rfl hnd
    refine ⟨fun hw => ?_, fun hw => ?_, fun hw => ?_, fun r hr hst hrec hconf hw => ?_, fun hst hw hp => ?_⟩
    · obtain ⟨y, hy⟩ := nodeCmd_kill hw
      exact ⟨_, (hostDoes_can hcan).trans (congrArg _ hy), endNode_ends hnd .killed⟩
    · obtain ⟨y, hy⟩ := nodeCmd_save hw hnd
      exact ⟨_, _, (hostDoes_can hcan).trans (congrArg _ hy), nodeGet_nodePut_same .., rfl⟩
    · obtain ⟨y, hy⟩ := nodeCmd_yield hw
      exact ⟨_, (hostDoes_can hcan).trans (congrArg _ hy), postYield_yields hnd⟩
    · obtain ⟨hop, hexec⟩ : (r.2 = 1 ∨ r.2 = 2) ∧ exec (r.1 host val) s = .next (nodeCmd h (v r.2) s) := by
        simp only [List.mem_cons, List.not_mem_nil, or_false] at hr
        obtain rfl | rfl := hr
        · exact ⟨.inl rfl, hostDoes_can hcan⟩
        · exact ⟨.inr rfl, hostDoes_can hcan⟩
      obtain ⟨y, hy⟩ := nodeCmd_resume hop hw hnd hst hrec
      obtain ⟨hgo, x, hx, hplaced, hother⟩ := resumeNode_goes (h := h) (past := decide (r.2 = 2)) hnd hconf
      refine ⟨_, hexec.trans (congrArg _ hy), hgo, fun hr => ⟨x, hx, hplaced hr⟩, fun hr hq => ?_⟩
      obtain hs | hs | hs := hother hr hq
      · exact .inl ⟨x, hx, hs⟩
      · exact .inr (.inl ⟨x, hx, hs⟩)
      · exact .inr (.inr ⟨x, hx, hs⟩)
    · obtain ⟨y, hy⟩ := nodeCmd_resumeSaved hw hnd hst
      exact ⟨_, (hostDoes_can hcan).trans (congrArg _ hy), resumeSaved_preempted hp⟩
  case refine_3 =>
    intro c hpick hc
    refine ⟨_, rfl, ?_⟩
    simp only [cmdComplete, hpick, if_pos hc]
    exact ⟨by rw [hostGet_hostPut_same], rfl⟩
  case refine_4 =>
    intro hpick late
    refine congrArg Host.Outcome.next ?_
    simp only [yieldExpiry, hpick]
    rfl
  case refine_5 =>
    intro hpick hnd
    have hexec : exec .retirementComplete s = .next (retire s) := rfl
    simp only [retire, hpick] at hexec
    refine ⟨fun s1 h1 => ?_, fun x hx => ?_⟩
    · rw [h1] at hexec
      have hnd1 : nodeGet? s1 nid = some nd := (congrArg (mapGet? · nid) (completionAdd_nodes h1)).trans hnd
      obtain ⟨hdone, hfree⟩ := endNode_ends hnd1 .done
      exact ⟨_, hexec, hdone, fun k hk => (hfree k hk).1⟩
    · rw [hx] at hexec
      have hnd1 : nodeGet? (nodeNote s nid (trapOf causeCompletionAdd)) nid = some nd :=
        (congrArg (mapGet? · nid) nodeNote_nodes).trans hnd
      exact ⟨_, hexec, (endNode_ends hnd1 .done).1⟩

end Sys2Proof.Machine

/-! # O58: corrections, bank marks, the patrol and the margin governor -/

namespace Sys2Proof.Machine

open Sys2Proof

/-! ## Evictions change a tile in its engines, pool and watermarks alone (12 R284, R285) -/

section Evictions

variable {s u : State} {tile e n agent asid : Nat} {r : Run} {node : Option Nat} {addr : Word}

theorem dnAdd_sameBare {halt : Bool} : dnAdd halt s tile e r = .ok u → SameBare s u := by
  unfold dnAdd
  extract_lets a addr sc done
  split
  · split
    · rintro ⟨⟩
      exact (mxRun_sameBare ..).after (addFor_sameBare ‹_›)
    · exact nofun
  · refine engThen_elim fun s1 hs1 => ?_
    rintro ⟨⟩
    refine (mxRun_sameBare ..).after ?_
    unfold done at hs1
    split at hs1
    · split at hs1
      · cases hs1
        exact addOrOwe_sameBare ‹_›
      · cases hs1
    · exact engAdd_sameBare hs1

theorem dnCheck_sameBare {wr : Bool} {l : List DnUse} : dnCheck s tile agent wr l = .ok u → SameBare s u := by
  fun_induction dnCheck
  · exact fun | rfl => .refl _
  · rename_i h ih
    exact fun hu => (engCheck_sameBare h).trans (ih hu)
  · exact nofun
  · exact fun | rfl => .refl _

theorem dnPut_sameBare {x : DnUse × DrainOut} : dnPut tile s x = .ok u → SameBare s u := by
  unfold dnPut
  extract_lets put
  have hput {off : Nat} {bs : List Byte} : put off bs = .ok u → SameBare s u := by
    unfold put
    split
    · next h => exact fun | rfl => pieceWrite_sameBare h
    · exact nofun
    · exact fun | rfl => .refl s
  split
  · exact hput
  · exact hput
  · exact fun | rfl => .refl s

theorem dnPutAll_sameBare {l : List (DnUse × DrainOut)} : dnPutAll tile s l = .ok u → SameBare s u := by
  fun_induction dnPutAll
  · exact fun | rfl => .refl _
  · rename_i h ih
    exact fun hu => (dnPut_sameBare h).trans (ih hu)
  · exact nofun

theorem dnRowEnd_sameBare {y : RowOut} : dnRowEnd s tile e r y = .ok u → SameBare s u := by
  fun_cases dnRowEnd
  · exact nofun
  · exact nofun
  · exact nofun
  · next e1 _ e2 _ _ _ _ =>
    rintro ⟨⟩
    exact (engMap_sameBare ..).after (SameBare.after (tilePut_sameBare rfl) ((dnPutAll_sameBare e2).after (dnCheck_sameBare e1)))

theorem dqGo_sameBare (s : State) (tile e : Nat) (r : Run) (i : Nat) : SameBare s (dqGo s tile e r i) :=
  (mxRun_sameBare ..).after (.of_tiles rfl)

theorem drainRest_sameBare {k : Nat} : SameBare s (drainRest tile e agent k s) := by
  fun_induction drainRest
  · exact .refl _
  · exact .refl _
  · rename_i ih
    exact ih.after (dnAdd_sameBare ‹_›)
  · exact mxRun_sameBare ..
  · exact engMap_sameBare ..
  · exact .refl _
  · exact mxRun_sameBare ..
  · next s1 _ e2 ih =>
    have h1 : SameBare _ s1 := .ite (dqGo_sameBare ..) (.refl _)
    exact ih.after ((dnRowEnd_sameBare e2).after h1)
  · exact mxRun_sameBare ..

theorem landStep_sameBare (s : State) (tile e : Nat) (r : Run) : SameBare s (landStep s tile e r) := by
  unfold landStep
  extract_lets c g row s1 t s2
  have h1 : SameBare s s1.1 :=
    foldl_keeps (p := fun x : State × Nat => SameBare s x.1) (.refl s) fun _ _ h => (poolWrite_sameBare ..).after h
  have h2 : SameBare s1.1 s2 := by
    unfold s2 wmarkLand wmarkMap
    split
    · split <;> exact tilePut_sameBare rfl
    · exact tilePut_sameBare rfl
  exact (mxRun_sameBare ..).after (h1.trans h2)

theorem landRest_sameBare {k : Nat} : SameBare s (landRest tile e n s k) := by
  fun_induction landRest
  · exact .refl _
  · exact .refl _
  · rename_i ih
    exact ih.after (landStep_sameBare ..)
  · exact .refl _

theorem mxStop_sameBare (s : State) (tile e : Nat) : SameBare s (mxStop s tile e) := by
  unfold mxStop
  extract_lets s1 s2
  have h1 : SameBare s s1 := .foldl (fun _ _ => landRest_sameBare) ..
  have h2 : SameBare s1 s2 := .foldl (fun _ _ => .ite drainRest_sameBare (.refl _)) ..
  exact (engMap_sameBare ..).after (h1.trans h2)

theorem mxLetGo_bare (t : Tile) (e : Nat) : bare (mxLetGo t e) = bare t := by
  refine foldl_keeps (p := fun x : Tile => bare x = bare t) rfl fun x r hx => ?_
  split
  · exact hx
  · exact hx

theorem evictAdd_sameBare {vc : NMap Nat} {c : Nat} : evictAdd s node tile asid vc e addr = (u, c) → SameBare s u := by
  fun_cases evictAdd
  · exact fun | rfl => .refl s
  · next s1 a hn _ _ =>
    cases hn
    exact fun h => (addOrOwe_sameBare h).after (.of_tiles rfl)
  · exact fun | rfl => .refl s

theorem evictNote_sameBare (s : State) (n tile e p trigger cause : Nat) : SameBare s (evictNote s n tile e p trigger cause) :=
  nodeRec_sameBare ..

theorem standbyNote_sameBare (s : State) (b : Standby) (tile e p trigger cause : Nat) :
    SameBare s (standbyNote s b tile e p trigger cause) := by
  fun_cases standbyNote
  · exact .of_tiles rfl
  · exact nodeRec_sameBare ..

theorem evictStandby_sameBare (s : State) (tile e trigger : Nat) (b : Standby) :
    SameBare s (evictStandby s tile e trigger b) := by
  unfold evictStandby
  extract_lets t x asid s1 s2
  have h1 : SameBare s s1 := tilePut_sameBare rfl
  have h2 : SameBare s1 s2 := by
    unfold s2
    split
    · split
      · next r _ _ =>
        have ha : SameBare s1 (fxAbortAdd (fxReport (fxMarkers s1 r.cmd) (some b.node) asid tile x r 5 (fxPrev r.cmd))
            (some b.node) asid tile r) :=
          (fxAbortAdd_sameBare ..).after ((fxReport_sameBare ..).after (.of_tiles rfl))
        exact ha.trans (.of_tiles rfl)
      · exact .refl s1
    · exact .refl s1
  split
  exact (standbyNote_sameBare ..).after ((evictAdd_sameBare ‹_›).after (h1.trans h2))

theorem evictHeld_sameBare (s : State) (tile e trigger : Nat) : SameBare s (evictHeld s tile e trigger) := by
  unfold evictHeld
  extract_lets t s0 s1 s2 x code fx s3
  have h1 : SameBare s s1 := .ite ((mxStop_sameBare ..).trans (tilePut_sameBare (mxLetGo_bare ..))) (.refl s)
  have h2 : SameBare s1 s2 := .ite (fxAbort_sameBare ..) (.refl s1)
  have h3 : SameBare s s3 := (engMap_sameBare ..).after (h1.trans h2)
  split
  have h4 := h3.trans (evictAdd_sameBare ‹_›)
  split
  · exact (evictNote_sameBare ..).after h4
  · exact h4

theorem evict_sameBare (s : State) (tile e trigger : Nat) : SameBare s (evict s tile e trigger) := by
  fun_cases evict
  · exact (engMap_sameBare ..).after (evictStandby_sameBare ..)
  · exact engMap_sameBare ..
  · exact (engMap_sameBare ..).after (evictHeld_sameBare ..)
  · exact .refl s

theorem emergencyEvict_sameBare (tile k : Nat) (s : State) : SameBare s (emergencyEvict tile k s) := by
  fun_induction emergencyEvict
  · exact .refl _
  · exact .refl _
  · rename_i ih
    exact ih.after (evict_sameBare ..)
  · exact .refl _

end Evictions

end Sys2Proof.Machine

namespace Sys2Proof.Machine

open Sys2Proof

/-! ## Corrections, marks and rebuilds (19 R427, R428) -/

section Corrections

variable {s u : State} {tile n seg b line cw channel : Nat} {g : Seg} {retired : Bool}

/-- A correction puts back a tile with one error more counted, and changes no other part of the package but its errors. -/
theorem correctionWriteback_eq (h : pickTurn s (correctable s) = some (n, line, cw)) :
    ∃ sets counts, correctionWriteback s = tilePut { s with symErr := mapDel s.symErr (cwKey n line cw), sets } n
      { tileGet s n with
        segs := mapPut (tileGet s n).segs (line % 8)
          { segGet (tileGet s n) (line % 8) with ce := min 65535 ((segGet (tileGet s n) (line % 8)).ce + 1), counts },
        gov := { (tileGet s n).gov with ce := min 65535 ((tileGet s n).gov.ce + 1), wCe := (tileGet s n).gov.wCe + 1 } } := by
  simp -zeta only [correctionWriteback, h]
  extract_lets banks s1 t g g1 s2 s3
  have h2 : ∃ sets, s2 = { s1 with sets } := by
    unfold s2
    split <;> exact ⟨_, rfl⟩
  have h3 : ∃ sets, s3 = { s2 with sets } := by
    unfold s3
    split <;> exact ⟨_, rfl⟩
  obtain ⟨_, h2⟩ := h2
  obtain ⟨sets, h3⟩ := h3
  rw [h3, h2]
  exact ⟨sets, _, rfl⟩

theorem addErasure_failed (g : Seg) (b : Nat) : (addErasure g b).failed = g.failed := by
  fun_cases addErasure <;> rfl

theorem markBank_failed (g : Seg) (b : Nat) : (markBank g b).failed = g.failed + 1 := by
  fun_cases markBank
  · exact addErasure_failed ..
  · rfl
  · rfl
  · exact addErasure_failed ..

/-- A write of flash that fails is noted at the tile's governor. -/
theorem tileGet_flashFailed (s : State) (tile : Nat) :
    tileGet (flashFailed s tile) tile = { tileGet s tile with gov := { (tileGet s tile).gov with flerr := true } } :=
  tileGet_tilePut_same ..

/-- The marks of a bank reach flash, or the tile's governor notes that they did not. -/
theorem bankFlash_tile (s : State) (tile seg : Nat) (g : Seg) (retired : Bool) :
    ∃ gov, tileGet (bankFlash s tile seg g retired) tile = { tileGet s tile with gov } := by
  simp -zeta only [bankFlash, flashTry]
  extract_lets p m s2
  split
  · refine ⟨(tileGet s tile).gov, tileGet_of_tiles (?_ : _ = s.tiles) tile⟩
    split
    · exact foldl_keeps (p := fun u : State => u.tiles = s.tiles) rfl fun _ _ h => h
    · rfl
  · exact ⟨_, tileGet_flashFailed ..⟩

theorem QueuesOnly.tileGet (h : QueuesOnly s u) (k : Nat) : tileGet u k = tileGet s k := by
  obtain ⟨_, _, _, rfl⟩ := h
  rfl

/-- A bank that is marked changes the segment, the tile's retirement and what its governor notes of flash. -/
theorem bankFailed_tile (h : pickTurn s (bankDue s) = some (n, seg, b)) :
    ∃ gov, tileGet (bankFailed s) n = { tileGet s n with
      segs := mapPut (tileGet s n).segs seg (markBank (segGet (tileGet s n) seg) b),
      retired := (tileGet s n).retired || decide (4 ≤ (markBank (segGet (tileGet s n) seg) b).failed), gov } := by
  simp -zeta only [bankFailed, h]
  extract_lets t g retire s1 s2
  have h1 : Machine.tileGet s1 n = { t with segs := mapPut t.segs seg g, retired := t.retired || retire } :=
    tileGet_tilePut_same ..
  have h2 : ∃ gov, Machine.tileGet s2 n = { Machine.tileGet s1 n with gov } := by
    unfold s2
    split
    · exact ⟨_, rfl⟩
    · exact bankFlash_tile ..
  obtain ⟨gov, h2⟩ := h2
  rw [h1] at h2
  refine ⟨gov, ?_⟩
  split
  · exact ((retest_queuesOnly s2).tileGet n).trans h2
  · exact h2

theorem rebuildLine_eq (h : pickTurn s (rebuilding s) = some (n, seg)) :
    rebuildLine s = tilePut s n { tileGet s n with
      segs := mapPut (tileGet s n).segs seg { segGet (tileGet s n) seg with rl := (segGet (tileGet s n) seg).rl + 1 } } := by
  simp only [rebuildLine, h]

/-- The counts of the patrol stand in the hosts' registers. -/
theorem scrubCount_hosts (s : State) (stack k : Nat) : ∃ hosts sets, scrubCount s stack k = { s with hosts, sets } := by
  refine foldl_keeps (p := fun u : State => ∃ hosts sets, u = { s with hosts, sets }) ⟨_, _, rfl⟩ fun u h hu => ?_
  obtain ⟨hosts, sets, rfl⟩ := hu
  dsimp only
  split <;> exact ⟨_, _, rfl⟩

/-- The patrol moves to the next granule of the channel, and corrects the one that it reads where that can be done
(19 R431, R433). -/
theorem patrolRead_reads (hon : s.mgmt.scrubCtl.getLsbD 32 = true) :
    let p := mapGet s.patrol channel 0
    let gr := channelPa channel p / 64
    mapGet (patrolRead channel s).patrol channel 0 = (p + 1) % 25165824 ∧ (patrolRead channel s).mem = s.mem ∧
      (patrolRead channel s).lostGran = s.lostGran ∧
      (frameFrozen s (channelPa channel p) = false → gr ∉ s.lostGran → granBad s gr = false →
        (patrolRead channel s).symErr = if (mapGet s.symErr gr []).isEmpty then s.symErr else mapDel s.symErr gr) ∧
      (granBad s gr = true → (patrolRead channel s).symErr = s.symErr) := by
  intro p gr
  simp -zeta only [patrolRead, hon]
  extract_lets pa s1
  have hp : mapGet s1.patrol channel 0 = (p + 1) % 25165824 := mapGet_mapPut_same ..
  split
  · contradiction
  · split
    · next hskip =>
      refine ⟨hp, rfl, rfl, fun hf hl _ => ?_, fun _ => rfl⟩
      simp [pa, gr, p, hf, hl] at hskip
    · split
      · next hbad =>
        obtain ⟨_, _, hu⟩ := scrubCount_hosts s1 (channel / 32) 2
        rw [hu]
        exact ⟨hp, rfl, rfl, fun _ _ hg => absurd (hbad.symm.trans hg) nofun, fun _ => rfl⟩
      · next hgood =>
        have hno {q : Prop} (hb : granBad s gr = true) : q := absurd hb hgood
        split
        · exact ⟨hp, rfl, rfl, fun _ _ _ => rfl, fun hb => hno hb⟩
        · obtain ⟨_, _, hu⟩ := scrubCount_hosts { s1 with symErr := mapDel s1.symErr (pa / 64) } (channel / 32) 1
          rw [hu]
          exact ⟨hp, rfl, rfl, fun _ _ _ => rfl, fun hb => hno hb⟩

end Corrections

/-! ## The windows of a governor (19 R440, R441, R443) -/

section Windows

variable {s : State} {tile v p : Nat} {f : Governor → Governor}

theorem govMap_gov (s : State) (tile : Nat) (f : Governor → Governor) :
    (tileGet (govMap s tile f) tile).gov = f (tileGet s tile).gov := by
  rw [govMap, tileGet_tilePut_same]

theorem setVolt_gov (s : State) (tile v : Nat) :
    ∃ lastBelow, (tileGet (setVolt s tile v) tile).gov = { (tileGet s tile).gov with v, lastBelow } :=
  ⟨_, govMap_gov ..⟩

/-- A governor at the beginning of a window. -/
def windowFresh (now : Nat) (g : Governor) : Governor :=
  { g with boost := 0, wBundles := 0, wReplays := 0, wCe := 0, wStart := now }

/-- A window that no burst has raised begins with the voltage and the floor that stand. -/
theorem windowNext_gov (hb : (tileGet s tile).gov.boost = 0) : ∃ lastBelow,
    (tileGet (windowNext s tile) tile).gov = { windowFresh (timeOf s) (tileGet s tile).gov with lastBelow } := by
  unfold windowNext
  extract_lets safe g base up s1
  have hup : up = 0 := if_neg fun h => h.1 hb
  have hv : base + up = g.v := by
    rw [hup]
    exact congrArg (g.v - ·) hb
  obtain ⟨lastBelow, h1⟩ := setVolt_gov s tile (base + up)
  refine ⟨lastBelow, ?_⟩
  rw [govMap_gov]
  unfold s1
  rw [h1, hv, hup]
  rfl

/-- The entry of a tile at a point, written. -/
def entryPut (s : State) (tile p : Nat) (e : FlashEnt) : State :=
  { s with free := s.free + 1, flash := mapPut s.flash (flashKey s tile p) e }

theorem flashWriteAt_ok (h : Config.freeBool s.free = false) (f : FlashEnt → FlashEnt) :
    flashWriteAt s tile p f = entryPut s tile p (f (flashOf s tile p)) := by
  simp only [flashWriteAt, flashTry, h]
  rfl

theorem flashWriteAt_failed (h : Config.freeBool s.free = true) (f : FlashEnt → FlashEnt) :
    flashWriteAt s tile p f = flashFailed { s with free := s.free + 1 } tile := by
  simp only [flashWriteAt, flashTry, h]
  rfl

theorem flashOf_entryPut (s : State) (tile p : Nat) (e : FlashEnt) : flashOf (entryPut s tile p e) tile p = e :=
  mapGet_mapPut_same ..

/-- A write of the table changes at the tile what its governor notes of flash, if that. -/
theorem flashWriteAt_gov (s : State) (tile p : Nat) (f : FlashEnt → FlashEnt) :
    ∃ flerr, (tileGet (flashWriteAt s tile p f) tile).gov = { (tileGet s tile).gov with flerr } := by
  cases h : Config.freeBool s.free with
  | false =>
    rw [flashWriteAt_ok h]
    exact ⟨_, rfl⟩
  | true =>
    rw [flashWriteAt_failed h]
    exact ⟨true, congrArg Tile.gov (tileGet_flashFailed ..)⟩

theorem timeOf_flashWriteAt (s : State) (tile p : Nat) (f : FlashEnt → FlashEnt) :
    timeOf (flashWriteAt s tile p f) = timeOf s := by
  cases h : Config.freeBool s.free with
  | false => rw [flashWriteAt_ok h]; rfl
  | true => rw [flashWriteAt_failed h]; rfl

/-- A window that a tile which is pinned, or has a safe restore due, ends on its count learns nothing (19 R443, R445). -/
theorem windowEnd_held (hfull : 2 ^ (natBits (tileGet s tile).gov.ctl.toNat 8 5 + 2) ≤ (tileGet s tile).gov.wBundles)
    (hp : pinned (tileGet s tile).gov = true ∨ (tileGet s tile).gov.restore ≠ 0) : windowEnd tile s = windowNext s tile := by
  simp only [windowEnd, if_neg (Nat.not_lt.2 hfull), if_pos hp]

/-- A voltage is set, and a floor that is another one is learned and written. -/
def windowPut (s : State) (tile v floor : Nat) : State :=
  if floor = (tileGet s tile).gov.floor then setVolt s tile v
  else flashWrite (govMap (setVolt s tile v) tile fun g => { g with floor }) tile fun e => { e with floor, valid := true }

theorem windowPut_gov (s : State) (tile v floor : Nat) : ∃ lastBelow flerr,
    (tileGet (windowPut s tile v floor) tile).gov = { (tileGet s tile).gov with v, floor, lastBelow, flerr } := by
  obtain ⟨lastBelow, h1⟩ := setVolt_gov s tile v
  unfold windowPut
  by_cases hf : floor = (tileGet s tile).gov.floor
  · rw [if_pos hf, h1]
    exact ⟨lastBelow, _, by rw [hf]⟩
  · rw [if_neg hf]
    obtain ⟨flerr, h2⟩ := flashWriteAt_gov (govMap (setVolt s tile v) tile fun g => { g with floor }) tile s.point
      fun e => { e with floor, valid := true }
    rw [govMap_gov, h1] at h2
    exact ⟨lastBelow, flerr, h2⟩

theorem timeOf_windowPut (s : State) (tile v floor : Nat) : timeOf (windowPut s tile v floor) = timeOf s := by
  unfold windowPut
  split
  · rfl
  · exact timeOf_flashWriteAt ..

/-- What a window that ends on its count has learned (19 R440). -/
def learned (s : State) (tile : Nat) : Nat × Nat := windowLearn (tileGet s tile).gov (safeOf s tile) (trimUp (effFloor s tile))

theorem windowEnd_eq (hfull : 2 ^ (natBits (tileGet s tile).gov.ctl.toNat 8 5 + 2) ≤ (tileGet s tile).gov.wBundles)
    (hpin : pinned (tileGet s tile).gov = false) (hres : (tileGet s tile).gov.restore = 0) :
    windowEnd tile s =
      windowNext (windowPut s tile ((learned s tile).1 + (tileGet s tile).gov.boost) (learned s tile).2) tile := by
  have hheld : ¬ (pinned (tileGet s tile).gov = true ∨ (tileGet s tile).gov.restore ≠ 0) := by simp [hpin, hres]
  exact (if_neg (Nat.not_lt.2 hfull)).trans (if_neg hheld)

/-- A window that ends on its count puts in force what it has learned (19 R440). -/
theorem windowEnd_learns (hfull : 2 ^ (natBits (tileGet s tile).gov.ctl.toNat 8 5 + 2) ≤ (tileGet s tile).gov.wBundles)
    (hpin : pinned (tileGet s tile).gov = false) (hres : (tileGet s tile).gov.restore = 0)
    (hb : (tileGet s tile).gov.boost = 0) : ∃ lastBelow flerr, (tileGet (windowEnd tile s) tile).gov =
      { windowFresh (timeOf s) (tileGet s tile).gov with
        v := (learned s tile).1, floor := (learned s tile).2, lastBelow, flerr } := by
  rw [windowEnd_eq hfull hpin hres, hb, Nat.add_zero]
  obtain ⟨below, flerr, h1⟩ := windowPut_gov s tile (learned s tile).1 (learned s tile).2
  have ht := timeOf_windowPut s tile (learned s tile).1 (learned s tile).2
  generalize windowPut s tile (learned s tile).1 (learned s tile).2 = u at h1 ht
  obtain ⟨lastBelow, h2⟩ := windowNext_gov (s := u) (tile := tile) (by rw [h1]; exact hb)
  refine ⟨lastBelow, flerr, h2.trans ?_⟩
  rw [h1, ht]
  rfl

/-- What a window without a burst changes where the errors are many, few, or in between (19 R440). -/
theorem windowLearn_cases {g : Governor} (hb : g.boost = 0) (safe eff : Nat) :
    let many := 8 ≤ g.wReplays ∨ 4 ≤ g.wCe
    let few := (g.wReplays ≤ 1 ∨ g.hint = 2) ∧ g.wCe = 0
    let learned := windowLearn g safe eff
    (many → learned.1 = min safe (g.v + 2) ∧ learned.2 = if g.v ≤ eff then g.floor + 2 else g.floor) ∧
      (¬ many → few → learned.1 = (if eff < g.v then g.v - 2 else g.v) ∧ learned.2 = g.floor) ∧
      (¬ many → ¬ few → learned.1 = g.v ∧ learned.2 = g.floor) := by
  intro many few learned
  have hbase : g.v - g.boost = g.v := congrArg (g.v - ·) hb
  simp only [learned, windowLearn, hbase]
  refine ⟨fun hm => ?_, fun hm hf => ?_, fun hm hf => ?_⟩
  · rw [if_pos hm]
    exact ⟨rfl, rfl⟩
  · rw [if_neg hm]
    by_cases he : eff < g.v
    · rw [if_pos ⟨hf.1, hf.2, he⟩, if_pos he]
      exact ⟨rfl, rfl⟩
    · rw [if_neg fun h => he h.2.2, if_neg he]
      exact ⟨rfl, rfl⟩
  · rw [if_neg hm, if_neg fun h => hf ⟨h.1, h.2.1⟩]
    exact ⟨rfl, rfl⟩

/-- The floor that a safe restore puts in force (19 R441). -/
def restoredFloor (s : State) (tile : Nat) : Nat := min ((tileGet s tile).gov.floor + 10) (flashOf s tile s.point).safe

/-- The governor of a tile that is restored to its safe voltage, before its entry is written. -/
def restorePut (s : State) (tile : Nat) : State :=
  govMap (setVolt s tile (safeOf s tile)) tile fun g => { g with boost := 0, floor := restoredFloor s tile, restore := 0 }

theorem safeRestore_eq (hres : (tileGet s tile).gov.restore ≠ 0) (hclk : s.clockStop = false) :
    safeRestore tile s = windowNext (flashWrite (restorePut s tile) tile fun e => { e with
      floor := restoredFloor s tile, valid := true, alarms := min (2 ^ 32 - 1) (e.alarms + (tileGet s tile).gov.restore) }) tile :=
  if_neg (by simp [hres, hclk])

/-- A safe restore puts the safe voltage in force, with the floor 10 mV higher (19 R441). -/
theorem safeRestore_gov (hres : (tileGet s tile).gov.restore ≠ 0) (hclk : s.clockStop = false) : ∃ lastBelow flerr,
    (tileGet (safeRestore tile s) tile).gov = { windowFresh (timeOf s) (tileGet s tile).gov with
      v := safeOf s tile, floor := restoredFloor s tile, restore := 0, lastBelow, flerr } := by
  rw [safeRestore_eq hres hclk]
  obtain ⟨below, h1⟩ := setVolt_gov s tile (safeOf s tile)
  have h2 := govMap_gov (setVolt s tile (safeOf s tile)) tile
    fun g => { g with boost := 0, floor := restoredFloor s tile, restore := 0 }
  rw [h1] at h2
  generalize hw : flashWrite (restorePut s tile) tile _ = u
  obtain ⟨flerr, h3⟩ : ∃ flerr, (tileGet u tile).gov = { (tileGet (restorePut s tile) tile).gov with flerr } :=
    hw ▸ flashWriteAt_gov ..
  have ht : timeOf u = timeOf s := hw ▸ timeOf_flashWriteAt ..
  rw [show (tileGet (restorePut s tile) tile).gov = _ from h2] at h3
  obtain ⟨lastBelow, h4⟩ := windowNext_gov (s := u) (tile := tile) (by rw [h3])
  refine ⟨lastBelow, flerr, h4.trans ?_⟩
  rw [h3, ht]
  rfl

end Windows

end Sys2Proof.Machine

namespace Sys2Proof.Machine

open Sys2Proof

/-! ## Readings, grants and emergencies (19 R442 to R445) -/

section Readings

variable {s u : State} {tile n reading : Nat}

theorem emergNote_gov (s : State) (tile : Nat) :
    ∃ emergSince, (tileGet (emergNote s tile) tile).gov = { (tileGet s tile).gov with emergSince } := by
  rw [emergNote, govMap_gov]
  split
  · exact ⟨_, rfl⟩
  · exact ⟨_, rfl⟩

/-- A reading of the current moves the profile of a tile that is not pinned (19 R442, R443). -/
theorem currentReading_gov (s : State) (tile reading : Nat) :
    let g := (tileGet s tile).gov
    let g' := (tileGet (currentReading tile reading s) tile).gov
    g'.cur = reading ∧ g'.floor = g.floor ∧ (g'.overTwice = true ↔ 125 < g.cur ∧ 125 < reading) ∧
      (pinned g = false → 100 < reading → g'.p = max 15 (g.p - 32)) ∧
      (pinned g = true → g.emerg = false → g'.p = g.p ∧ g'.v = g.v) := by
  intro g g'
  simp -zeta only [g', currentReading]
  extract_lets t g0 auto hint since low p up s1
  obtain ⟨_, h1⟩ := setVolt_gov s tile (g.v + up)
  have hp : pinned g = false → 100 < reading → p = max 15 (g.p - 32) := by
    intro hpin hr
    have hno : ¬ (pinned g0 && !g0.emerg) = true := by rw [show pinned g0 = false from hpin]; exact nofun
    exact (if_neg hno).trans (if_pos hr)
  have hkeep : pinned g = true → g.emerg = false → p = g.p ∧ g.v + up = g.v := by
    intro hpin he
    have hhint : hint = 0 := if_neg (by simp [auto, show pinned g0 = true from hpin])
    have hup : up = 0 := if_neg fun h => absurd (hhint.symm.trans h.1) (by decide)
    exact ⟨if_pos (by simp [show pinned g0 = true from hpin, show g0.emerg = false from he]), by rw [hup]; rfl⟩
  generalize hm : govMap s1 tile _ = s2
  obtain ⟨_, h3⟩ := emergNote_gov s2 tile
  rw [h3, ← hm, govMap_gov]
  unfold s1
  rw [h1]
  refine ⟨rfl, rfl, ?_, hp, hkeep⟩
  simp [g]

theorem temperatureReading_gov (s : State) (tile reading : Nat) : ∃ emergSince,
    (tileGet (temperatureReading tile reading s) tile).gov = { (tileGet s tile).gov with temp := reading, emergSince } := by
  obtain ⟨since, h⟩ := emergNote_gov (govMap s tile fun g => { g with temp := reading }) tile
  rw [govMap_gov] at h
  exact ⟨since, h⟩

/-- A tile with the grant that its temperature gives (19 R442). -/
def grantTile (t : Tile) : Tile :=
  if pinned t.gov || t.gov.emerg then t
  else { t with grant :=
    if 95 ≤ t.gov.temp then max 4 (t.grant - 1) else if t.gov.temp ≤ 85 then min 7 (t.grant + 1) else t.grant }

theorem mapGet?_grantAdjust (s : State) (k : Nat) : mapGet? (grantAdjust s).tiles k = (mapGet? s.tiles k).map grantTile := by
  have hl : (grantAdjust s).tiles = s.tiles.map fun e => (e.1, grantTile e.2) := by
    refine List.map_congr_left fun e _ => ?_
    dsimp only [grantTile]
    split <;> rfl
  rw [hl]
  exact mapGet?_map_entries _ (fun e => grantTile e.2) k

theorem grantTile_kept {t : Tile} (h : pinned t.gov = true ∨ t.gov.emerg = true) : grantTile t = t :=
  if_pos (by simpa using h)

/-- A pinned tile and one in an emergency keep their grant. -/
theorem grantAdjust_kept (h : pinned (tileGet s tile).gov = true ∨ (tileGet s tile).gov.emerg = true) :
    (tileGet (grantAdjust s) tile).grant = (tileGet s tile).grant := by
  unfold tileGet mapGet at h ⊢
  rw [mapGet?_grantAdjust]
  cases hm : mapGet? s.tiles tile with
  | none => rfl
  | some t =>
    rw [hm] at h
    exact congrArg Tile.grant (grantTile_kept h)

theorem grantAdjust_follows {t : Tile} (hm : mapGet? s.tiles tile = some t) (hp : pinned t.gov = false)
    (he : t.gov.emerg = false) : (tileGet (grantAdjust s) tile).grant =
      if 95 ≤ t.gov.temp then max 4 (t.grant - 1) else if t.gov.temp ≤ 85 then min 7 (t.grant + 1) else t.grant := by
  unfold tileGet mapGet
  rw [mapGet?_grantAdjust, hm]
  exact congrArg Tile.grant (if_neg (by simp [hp, he]) : grantTile t = _)

/-- An emergency takes the grant to 4, whatever its evictions do (12 R284). -/
theorem emergency_grant (h : pickTurn s (emergDue s) = some n) : (tileGet (emergency s) n).grant = 4 ∧
    (tileGet (emergency s) n).gov.emerg = true ∧ (tileGet (emergency s) n).gov.emergSince = timeOf s := by
  simp only [emergency, h]
  generalize hu : tilePut s n _ = u
  have hkeep := emergencyEvict_sameBare n 8 u
  rw [hkeep.grant, hkeep.gov, ← hu, tileGet_tilePut_same]
  exact ⟨rfl, rfl, rfl⟩

theorem pinApply_free (h : pinned (tileGet s tile).gov = false) : pinApply s tile = s := if_neg (by simp [h])

/-- The pinned values go in force where no emergency is (19 R443, R445). -/
theorem pinApply_pinned (hp : pinned (tileGet s tile).gov = true) (he : (tileGet s tile).gov.emerg = false) :
    (tileGet (pinApply s tile) tile).grant = pinG (tileGet s tile).gov ∧
      (tileGet (pinApply s tile) tile).gov.p = pinP (tileGet s tile).gov ∧ (tileGet (pinApply s tile) tile).gov.emerg = false := by
  simp -zeta only [pinApply]
  extract_lets g s1 t
  have h1 : (tileGet s1 tile).gov.emerg = false := by
    unfold s1
    split
    · exact he
    · obtain ⟨_, hv⟩ := setVolt_gov (govMap s tile fun g => { g with boost := 0 }) tile (pinMv g)
      rw [hv, govMap_gov]
      exact he
  have hc : (pinned g && !g.emerg) = true := by simp [g, hp, he]
  rw [if_pos hc, tileGet_tilePut_same]
  exact ⟨rfl, rfl, h1⟩

/-- An emergency that ends leaves the grant, or puts the pinned one in force. -/
theorem emergencyEnd_tile (h : pickTurn s (emergOver s) = some n) : (tileGet (emergencyEnd s) n).gov.emerg = false ∧
    (pinned (tileGet s n).gov = false → (tileGet (emergencyEnd s) n).grant = (tileGet s n).grant) ∧
    (pinned (tileGet s n).gov = true → (tileGet (emergencyEnd s) n).grant = pinG (tileGet s n).gov ∧
      (tileGet (emergencyEnd s) n).gov.p = pinP (tileGet s n).gov) := by
  simp only [emergencyEnd, h]
  generalize hu : govMap s n (fun g => { g with emerg := false }) = u
  have ht : tileGet u n = { tileGet s n with gov := { (tileGet s n).gov with emerg := false } } := by
    rw [← hu]
    exact tileGet_tilePut_same ..
  have hpin : pinned (tileGet u n).gov = pinned (tileGet s n).gov := by rw [ht]; rfl
  have hemerg : (tileGet u n).gov.emerg = false := by rw [ht]
  cases hp : pinned (tileGet s n).gov with
  | false =>
    rw [pinApply_free (hpin.trans hp), ht]
    exact ⟨rfl, fun _ => rfl, nofun⟩
  | true =>
    obtain ⟨hg, hprof, he⟩ := pinApply_pinned (hpin.trans hp) hemerg
    rw [ht] at hg hprof
    exact ⟨he, nofun, fun _ => ⟨hg, hprof⟩⟩

end Readings

/-! ## The daily write and the clear command (19 R438, R439) -/

section Daily

variable {s u : State} {tile n : Nat} {d : PointDay}

theorem mapPut_single {α : Type} (k : Nat) (x y : α) : mapPut [(k, x)] k y = [(k, y)] := by simp [mapPut]

theorem dayCounted_single {g : Governor} (h : g.days = [(s.point, d)]) :
    dayCounted s g = [(s.point, { d with ns := d.ns + (timeOf s - g.daySince) })] := by
  have hd : pointDay g s.point = d := by simp [pointDay, h, mapGet, mapGet?]
  simp only [dayCounted, hd, h, mapPut_single]

/-- A governor that begins a day at a point, where the day before was `d`. -/
def dayFresh (s : State) (d : PointDay) (g : Governor) : Governor :=
  { g with days := [(s.point, ⟨0, 0, g.floor, 0, (d.left + d.ns) % 3600000000000⟩)], daySince := timeOf s }

theorem pointDay_dayFresh (s : State) (d : PointDay) (g : Governor) (flerr : Bool) :
    pointDay { dayFresh s d g with flerr } s.point = ⟨0, 0, g.floor, 0, (d.left + d.ns) % 3600000000000⟩ := by
  simp [pointDay, dayFresh, mapGet, mapGet?]

/-- The daily write of a tile that has run at the point in force alone (19 R438, R440). -/
theorem dailyTile_single (h : (tileGet s tile).gov.days = [(s.point, d)]) :
    let g := (tileGet s tile).gov
    let day := { d with ns := d.ns + (timeOf s - g.daySince) }
    dailyTile s tile = flashWriteAt (govMap s tile (dayFresh s day)) tile s.point (dayEntry (!pinned g) g.floor day) := by
  intro g day
  have hno : ¬ (day.ns = 0 ∧ s.point ≠ s.point) := fun h => h.2 rfl
  simp only [dailyTile, dayCounted_single h, List.map_cons, List.map_nil, List.foldl_cons, List.foldl_nil, if_true]
  exact if_neg hno

theorem dailyWrite_single {t : Tile} (h : s.tiles = [(tile, t)]) (hd : (dieGet s (dieOf tile)).lost = false) :
    dailyWrite s = dailyTile s tile := by
  simp only [dailyWrite, h, List.map_cons, List.map_nil, List.foldl_cons, List.foldl_nil, hd]
  rfl

end Daily

section Clear

variable {s u : State} {n k : Nat}

/-- A clear command is over, and the pool of its tile empty, before its marks are cleared (19 R439). -/
def shepCleared (s : State) (n : Nat) : State :=
  let u := { s with mgmt := { s.mgmt with shepCmd := none } }
  match tileOfPhys s n with
  | some t =>
    tilePut { u with symErr := u.symErr.filter fun e => !(decide (cwKey t 0 0 ≤ e.1) && decide (e.1 < cwKey (t + 1) 0 0)) } t
      { tileGet s t with pool := [], found := [] }
  | none => u

/-- The marks of a physical tile are cleared in flash, and in its tile (19 R439). -/
def marksCleared (s : State) (n : Nat) (tile : Option Nat) : State :=
  let u := { s with
    free := s.free + 1
    bankMarks := s.bankMarks.filter (fun e => decide (e.1 / 64 ≠ n)),
    flash := s.flash.map fun e => if e.1 / 4 = n then (e.1, { e.2 with retired := false }) else e }
  match tile with
  | some t => tilePut u t { tileGet s t with
      segs := (tileGet s t).segs.map fun y => (y.1, { segReset with ce := y.2.ce }), retired := false }
  | none => u

/-- What clearing a tile's pool changes of the package besides that tile and its errors. -/
theorem shepCleared_keeps (s : State) (n : Nat) : (shepCleared s n).free = s.free ∧ (shepCleared s n).flash = s.flash ∧
    (shepCleared s n).mgmt = { s.mgmt with shepCmd := none } := by
  unfold shepCleared
  extract_lets u
  split <;> exact ⟨rfl, rfl, rfl⟩

theorem shepCleared_pool (h : tileOfPhys s n = some k) : (tileGet (shepCleared s n) k).pool = [] := by
  simp only [shepCleared, h]
  rw [tileGet_tilePut_same]

theorem marksCleared_keeps (s : State) (n : Nat) (tile : Option Nat) : (marksCleared s n tile).mgmt = s.mgmt ∧
    (∀ e ∈ (marksCleared s n tile).bankMarks, e.1 / 64 ≠ n) ∧
    (∀ e ∈ (marksCleared s n tile).flash, e.1 / 4 = n → e.2.retired = false) ∧
    ∀ k, (tileGet (marksCleared s n tile) k).pool = (tileGet s k).pool := by
  unfold marksCleared
  extract_lets u
  have hmarks : ∀ e ∈ u.bankMarks, e.1 / 64 ≠ n := fun e he => of_decide_eq_true (List.mem_filter.mp he).2
  have hflash : ∀ e ∈ u.flash, e.1 / 4 = n → e.2.retired = false := by
    intro e he hk
    obtain ⟨y, _, rfl⟩ := List.mem_map.mp he
    split at hk
    · next hy => rw [if_pos hy]
    · next hy => exact absurd hk hy
  split
  · next t =>
    refine ⟨rfl, hmarks, hflash, fun k => ?_⟩
    by_cases hk : k = t
    · subst hk
      rw [tileGet_tilePut_same]
    · rw [tileGet_tilePut_other _ _ hk]
      rfl
  · exact ⟨rfl, hmarks, hflash, fun _ => rfl⟩

theorem shepComplete_ok (hcmd : s.mgmt.shepCmd = some n) (hf : Config.freeBool s.free = false) :
    shepComplete s = retest (marksCleared (shepCleared s n) n (tileOfPhys s n)) := by
  cases ht : tileOfPhys s n with
  | none =>
    simp only [shepComplete, hcmd, ht, flashTry, hf, shepCleared, marksCleared]
    rfl
  | some t =>
    simp only [shepComplete, hcmd, ht, flashTry, tilePut_free, hf, shepCleared, marksCleared]
    rfl

theorem shepComplete_failed (hcmd : s.mgmt.shepCmd = some n) (hf : Config.freeBool s.free = true) :
    shepComplete s = shepFail { shepCleared s n with free := s.free + 1 } := by
  cases ht : tileOfPhys s n with
  | none =>
    simp only [shepComplete, hcmd, ht, flashTry, hf, shepCleared]
    rfl
  | some t =>
    simp only [shepComplete, hcmd, ht, flashTry, tilePut_free, hf, shepCleared]
    rfl

end Clear

/-- Settles O58: each event of the reliability hardware and of the margin governor does its one act. -/
theorem reliabilityEvents : Obligations.ReliabilityEvents := by
  unfold Obligations.ReliabilityEvents
  intro s tile x channel n t g safe eff full gv
  refine ⟨?_, ?_, ?_, ⟨?_, ?_⟩, ?_, ?_, ?_, ?_, ?_, ?_, ?_, ?_, ?_, ?_, ?_, ?_, ?_, ?_⟩
  case refine_1 =>
    intro line cw hpick
    obtain ⟨sets, counts, hu⟩ := correctionWriteback_eq hpick
    refine ⟨_, congrArg Host.Outcome.next hu, rfl, ?_⟩
    rw [tileGet_tilePut_same]
    refine ⟨rfl, rfl, rfl, ?_⟩
    rw [segGet, mapGet_mapPut_same]
  case refine_2 =>
    intro seg b hpick
    obtain ⟨gov, hu⟩ := bankFailed_tile hpick
    refine ⟨_, rfl, ?_⟩
    rw [hu, markBank_failed, segGet, mapGet_mapPut_same, markBank_failed]
    exact ⟨rfl, fun h => by simp [h], rfl⟩
  case refine_3 =>
    intro seg hpick
    refine ⟨_, congrArg Host.Outcome.next (rebuildLine_eq hpick), ?_⟩
    rw [tileGet_tilePut_same, segGet, mapGet_mapPut_same]
    exact ⟨rfl, rfl⟩
  case refine_4 =>
    intro hoff
    exact congrArg Host.Outcome.next (if_pos (by rw [hoff]; rfl))
  case refine_5 => exact fun hon => ⟨_, rfl, patrolRead_reads hon⟩
  case refine_6 =>
    intro hfull hp hb
    obtain ⟨_, hu⟩ := windowNext_gov hb
    exact ⟨_, congrArg Host.Outcome.next (windowEnd_held hfull hp), (congrArg Governor.v hu :), (congrArg Governor.floor hu :),
      (congrArg Governor.wBundles hu :), (congrArg Governor.wStart hu :)⟩
  case refine_7 =>
    intro hfull hpin hres hb many few
    obtain ⟨_, _, hu⟩ := windowEnd_learns hfull hpin hres hb
    obtain ⟨hmany, hfew, hkept⟩ := windowLearn_cases hb safe eff
    have hv : (gv (windowEnd tile.toNat s)).v = (learned s tile.toNat).1 := congrArg Governor.v hu
    have hf : (gv (windowEnd tile.toNat s)).floor = (learned s tile.toNat).2 := congrArg Governor.floor hu
    refine ⟨_, rfl, (congrArg Governor.wBundles hu :), (congrArg Governor.wReplays hu :), (congrArg Governor.wCe hu :), ?_⟩
    rw [hv, hf]
    exact ⟨hmany, hfew, hkept⟩
  case refine_8 => exact fun hfull => congrArg Host.Outcome.next (if_pos (Nat.not_le.1 hfull))
  case refine_9 =>
    intro hpick hb
    obtain ⟨_, hu⟩ := windowNext_gov hb
    have hexec : windowTimeout s = windowNext s tile.toNat := by simp only [windowTimeout, hpick]
    exact ⟨_, congrArg Host.Outcome.next hexec, (congrArg Governor.v hu :), (congrArg Governor.floor hu :),
      (congrArg Governor.wBundles hu :), (congrArg Governor.wStart hu :)⟩
  case refine_10 => exact fun hno => congrArg Host.Outcome.next (if_pos hno)
  case refine_11 =>
    intro hres hclk
    obtain ⟨_, _, hu⟩ := safeRestore_gov hres hclk
    exact ⟨_, rfl, (congrArg Governor.v hu :), (congrArg Governor.floor hu :), (congrArg Governor.restore hu :),
      (congrArg Governor.wBundles hu :)⟩
  case refine_12 => exact ⟨_, rfl, currentReading_gov s tile.toNat x.toNat⟩
  case refine_13 =>
    obtain ⟨_, hu⟩ := temperatureReading_gov s tile.toNat x.toNat
    exact ⟨_, rfl, (congrArg Governor.temp hu :), (congrArg Governor.v hu :), (congrArg Governor.p hu :)⟩
  case refine_14 => exact ⟨_, rfl, grantAdjust_kept, fun hp he hm => grantAdjust_follows hm hp he⟩
  case refine_15 => exact fun hpick => ⟨_, rfl, emergency_grant hpick⟩
  case refine_16 => exact fun hpick => ⟨_, rfl, emergencyEnd_tile hpick⟩
  case refine_17 =>
    intro d htiles hdie hdays e ns
    have hu := (dailyWrite_single htiles hdie).trans (dailyTile_single hdays)
    have hb := govMap_gov s tile.toNat (dayFresh s { d with ns })
    obtain ⟨flerr, hg⟩ := flashWriteAt_gov (govMap s tile.toNat (dayFresh s { d with ns })) tile.toNat s.point
      (dayEntry (!pinned g) g.floor { d with ns })
    rw [hb] at hg
    refine ⟨_, congrArg Host.Outcome.next hu, (congrArg Governor.daySince hg :), (congrArg Governor.v hg :),
      (congrArg Governor.floor hg :), ?_, fun hok => ?_, fun hfail => ?_⟩
    · exact (congrArg (pointDay · s.point) hg).trans (pointDay_dayFresh ..)
    · rw [flashWriteAt_ok (s := govMap s tile.toNat _) hok, flashOf_entryPut]
      exact ⟨rfl, rfl, rfl, rfl, rfl, rfl, fun hp => if_neg (by simpa using hp)⟩
    · rw [flashWriteAt_failed (s := govMap s tile.toNat _) hfail]
      exact ⟨rfl, congrArg (·.gov.flerr) (tileGet_flashFailed ..)⟩
  case refine_18 =>
    intro hidle
    refine congrArg Host.Outcome.next ?_
    simp only [shepComplete, hidle]
  case refine_19 =>
    intro hcmd
    obtain ⟨hfree, hflash, hmgmt⟩ := shepCleared_keeps s n
    cases hf : Config.freeBool s.free with
    | true =>
      refine ⟨_, congrArg Host.Outcome.next (shepComplete_failed hcmd hf), congrArg (·.shepCmd) hmgmt, ?_, nofun, ?_⟩
      · exact fun _ => ⟨rfl, hflash⟩
      · exact fun k hk => shepCleared_pool hk
    | false =>
      obtain ⟨hm, hmarks, hret, hpool⟩ := marksCleared_keeps (shepCleared s n) n (tileOfPhys s n)
      refine ⟨_, congrArg Host.Outcome.next (shepComplete_ok hcmd hf), ?_⟩
      have hq := retest_queuesOnly (marksCleared (shepCleared s n) n (tileOfPhys s n))
      generalize marksCleared (shepCleared s n) n (tileOfPhys s n) = u at hm hmarks hret hpool hq
      rw [hmgmt] at hm
      obtain ⟨_, _, _, hv⟩ := hq
      rw [hv]
      exact ⟨congrArg (·.shepCmd) hm, nofun, fun _ => ⟨congrArg (·.shepErr) hm, hmarks, hret⟩,
        fun k hk => (hpool k).trans (shepCleared_pool hk)⟩

end Sys2Proof.Machine

/-! # O54: the save of a node's tiles and their restoration -/

namespace Sys2Proof.Machine

open Sys2Proof

/-! ## Slices and splices of a memory -/

section Slices

variable {α : Type}

theorem mapGet?_append (l m : NMap α) (i : Nat) : mapGet? (l ++ m) i = (mapGet? l i).or (mapGet? m i) := by
  induction l with
  | nil => rfl
  | cons e l ih =>
    obtain ⟨k, x⟩ := e
    by_cases hk : k = i
    · simp [mapGet?, hk]
    · simp [mapGet?, hk, ih]

/-- A filter on keys keeps what it finds under a key that passes. -/
theorem mapGet?_filter_kept (p : Nat → Bool) (m : NMap α) {i : Nat} (hi : p i = true) :
    mapGet? (m.filter fun c => p c.1) i = mapGet? m i := by
  induction m with
  | nil => rfl
  | cons e m ih =>
    obtain ⟨k, x⟩ := e
    by_cases hk : k = i
    · subst hk
      simp [mapGet?, hi]
    · by_cases hp : p k = true
      · simp [mapGet?, hk, hp, ih]
      · simp [mapGet?, hk, hp, ih]

/-- A byte of a slice is that of the memory it was cut from. -/
theorem memGet_memSlice (m : Mem) (a n b : Nat) {off : Nat} (h : off < n) :
    memGet (memSlice m a n b) (b + off) = memGet m (a + off) := by
  suffices hs : mapGet? (memSlice m a n b) (b + off) = mapGet? m (a + off) by rw [memGet, mapGet, hs, memGet, mapGet]
  unfold memSlice
  induction m with
  | nil => rfl
  | cons e m ih =>
    obtain ⟨k, x⟩ := e
    by_cases hin : a ≤ k ∧ k < a + n
    · by_cases hk : k = a + off
      · simp [mapGet?, hk, h, Nat.add_comm off b]
      · have hb : ¬ (k - a + b = b + off) := by omega
        simp [mapGet?, hin, hk, hb, ih]
    · have hk : ¬ (k = a + off) := by omega
      simpa [mapGet?, hin, hk] using ih

/-- Outside of a splice the memory stays. -/
theorem memGet_memSplice_other (m cs : Mem) {a n c : Nat} (h : c < a ∨ a + n ≤ c) : memGet (memSplice m a n cs) c = memGet m c := by
  suffices hs : mapGet? (memSplice m a n cs) c = mapGet? m c by rw [memGet, mapGet, hs, memGet, mapGet]
  have hmid : mapGet? (cs.filter fun c => decide (a ≤ c.1) && decide (c.1 < a + n)) c = none :=
    mapGet?_filter_dropped (fun i => decide (a ≤ i) && decide (i < a + n)) cs (by simp; omega)
  rw [memSplice, mapGet?_append, mapGet?_append, hmid]
  obtain hlo | hhi := h
  · rw [mapGet?_filter_kept (fun i => decide (i < a)) m (by simpa using hlo),
      mapGet?_filter_dropped (fun i => decide (a + n ≤ i)) m (by simp; omega)]
    simp
  · rw [mapGet?_filter_dropped (fun i => decide (i < a)) m (by simp; omega),
      mapGet?_filter_kept (fun i => decide (a + n ≤ i)) m (by simpa using hhi)]
    rfl

/-- Inside of a splice the memory is what was put there. -/
theorem memGet_memSplice_same (m cs : Mem) {a n c : Nat} (h : a ≤ c) (h' : c < a + n) :
    memGet (memSplice m a n cs) c = memGet cs c := by
  suffices hs : mapGet? (memSplice m a n cs) c = mapGet? cs c by rw [memGet, mapGet, hs, memGet, mapGet]
  rw [memSplice, mapGet?_append, mapGet?_append,
    mapGet?_filter_dropped (fun i => decide (i < a)) m (by simp; omega),
    mapGet?_filter_kept (fun i => decide (a ≤ i) && decide (i < a + n)) cs (by simp; omega),
    mapGet?_filter_dropped (fun i => decide (a + n ≤ i)) m (by simp; omega)]
  simp

end Slices

/-! ## The save of a node (18 R407, R411, R413) -/

section Save

variable {s : State} {n tile slot : Nat} {nd : Node} {target : NodeState}

/-- Nothing waits on a tile's registers, and none of its bobbins waits in the reels' lists. -/
def NoWaits (s : State) (tile : Nat) : Prop :=
  ∀ w ∈ s.waits, w.tile ≠ tile ∧ (w.loc < 2 ^ 61 + tile * 256 ∨ 2 ^ 61 + tile * 256 + 256 ≤ w.loc)

theorem zeroFound_keeps (s : State) (tile : Nat) : (zeroFound s tile).mem = s.mem ∧ (zeroFound s tile).waits = s.waits :=
  foldl_keeps (p := fun u : State => u.mem = s.mem ∧ u.waits = s.waits) ⟨rfl, rfl⟩ fun _ _ h => h

theorem withdrawWaits_none (h : NoWaits s tile) : (withdrawWaits s tile).mem = s.mem := by
  have hl : (s.waits.filter fun w => decide (2 ^ 61 + tile * 256 ≤ w.loc) && decide (w.loc < 2 ^ 61 + tile * 256 + 256)) = [] := by
    refine List.filter_eq_nil_iff.mpr fun w hw hin => ?_
    obtain ⟨-, hloc⟩ := h w hw
    simp only [Bool.and_eq_true, decide_eq_true_eq] at hin
    omega
  simp only [withdrawWaits, hl]
  rfl

/-- A tile on which nothing waits is freed without a write of memory. -/
theorem freeTile_mem (h : NoWaits s tile) : (freeTile s tile).mem = s.mem := by
  obtain ⟨hmem, hwaits⟩ := zeroFound_keeps s tile
  have hgone : ((zeroFound s tile).waits.filter fun w => decide (w.tile = tile)) = [] := by
    rw [hwaits]
    exact List.filter_eq_nil_iff.mpr fun w hw hin => (h w hw).1 (of_decide_eq_true hin)
  unfold freeTile
  extract_lets s0 gone s1 t s2 s3 t' d s4
  have h2 : s2 = tilePut s1 tile { t with creel := [] } := by
    unfold s2 gone s0
    rw [hgone]
    rfl
  have hno : NoWaits s2 tile := by
    rw [h2]
    intro w hw
    exact h w (hwaits ▸ (List.mem_filter.mp hw).1)
  have h3 : s3.mem = (withdrawWaits s2 tile).mem := tilePut_mem ..
  calc (tilePut s4 tile _).mem = s4.mem := tilePut_mem ..
    _ = s3.mem := diePut_mem ..
    _ = (withdrawWaits s2 tile).mem := h3
    _ = s2.mem := withdrawWaits_none hno
    _ = s1.mem := by rw [h2, tilePut_mem]
    _ = s.mem := hmem

/-- The package once a node's tiles have been written to their slots. -/
def savedTiles (s : State) (n : Nat) (nd : Node) (target : NodeState) : State :=
  nodeTilesMap (if nd.restoring then s else nd.tiles.foldl (saveTile nd n target) s) n (tileRank nd.tiles)

/-- A node whose tiles have been freed enters its state (18 R411). -/
def nodeSaved (nd : Node) (target : NodeState) : Node := { nd with st := target, tiles := [], saving := none, restoring := true }

theorem saveNode_eq (hnd : nodeGet? s n = some nd) (hs : nd.saving = some target) (ht : target ≠ .preempted) :
    saveNode s n = nodePut (nd.tiles.foldl freeTile (savedTiles s n nd target)) n (nodeSaved nd target) := by
  simp only [saveNode, hnd, hs, if_neg ht]
  rfl

/-- Whatever the node's state becomes, its tiles are written and freed. -/
theorem saveNode_frees (hnd : nodeGet? s n = some nd) (hs : nd.saving = some target) :
    (saveNode s n).tiles = (nd.tiles.foldl freeTile (savedTiles s n nd target)).tiles ∧
      (saveNode s n).mem = (nd.tiles.foldl freeTile (savedTiles s n nd target)).mem := by
  by_cases ht : target = .preempted
  · simp only [saveNode, hnd, hs, if_pos ht]
    rw [← savedTiles]
    generalize List.foldl freeTile (savedTiles s n nd target) nd.tiles = u
    split
    · obtain ⟨_, _, _, hq⟩ := packLost_queuesOnly (nodePut { u with nextOrder := u.nextOrder + 1 } n
        { nodeSaved nd target with since := timeOf u, order := u.nextOrder, lift := 0 }) n
        { nodeSaved nd target with since := timeOf u, order := u.nextOrder, lift := 0 }
      exact ⟨(congrArg State.tiles hq :), (congrArg State.mem hq :)⟩
    · exact ⟨rfl, rfl⟩
  · rw [saveNode_eq hnd hs ht]
    exact ⟨rfl, rfl⟩

/-- A node whose tiles have stopped for its save is saved. -/
theorem contextSave_saving (hpick : pickTurn s (saveReady s) = some n) (hnd : nodeGet? s n = some nd)
    (hs : nd.saving = some target) : contextSave s = saveNode s n := by
  simp only [contextSave, hpick, hnd, hs]
  rfl

/-- The pool of a tile that is saved stands in its slot (18 R413). -/
theorem saveTile_pool (hslot : nd.slots[rank0 (tileGet s tile)]? = some slot) :
    (saveTile nd n target s tile).waits = s.waits ∧ ∀ off < 0x600000,
      memGet (saveTile nd n target s tile).mem (csaSlot s slot + off) = memGet (tileGet s tile).pool off := by
  unfold saveTile
  extract_lets t c desc reels words ctx held
  rw [show nd.slots[rank0 t]? = some slot from hslot]
  dsimp -zeta only
  extract_lets a block bad s1 s2 s3
  have hwaits : s3.waits = s.waits := rfl
  have hmem : ∀ off < 0x600000, memGet s3.mem (csaSlot s slot + off) = memGet (tileGet s tile).pool off := by
    intro off hoff
    calc memGet s3.mem (a + off) = memGet s1.mem (a + off) := memGet_memSplice_other _ _ (.inl (by omega))
      _ = memGet (memSlice t.pool 0 0x600000 a) (a + off) := memGet_memSplice_same _ _ (by omega) (by omega)
      _ = memGet t.pool off := by rw [memGet_memSlice _ _ _ _ hoff, Nat.zero_add]
  split
  · exact ⟨hwaits, hmem⟩
  · exact ⟨hwaits, hmem⟩

/-- The only tile of a node that is saved has its pool in its slot (18 R411, R413). -/
theorem saveNode_pool (hnd : nodeGet? s n = some nd) (hs : nd.saving = some target) (hr : nd.restoring = false)
    (ht : nd.tiles = [tile]) (hslot : nd.slots[rank0 (tileGet s tile)]? = some slot) (hw : NoWaits s tile) :
    ∀ off < 0x600000, memGet (saveNode s n).mem (csaSlot s slot + off) = memGet (tileGet s tile).pool off := by
  obtain ⟨hwaits, hpool⟩ := saveTile_pool (n := n) (target := target) hslot
  have hsaved : savedTiles s n nd target = nodeTilesMap (saveTile nd n target s tile) n (tileRank nd.tiles) := by
    simp only [savedTiles, hr, ht]
    rfl
  have hno : NoWaits (savedTiles s n nd target) tile := by
    rw [hsaved]
    intro w h
    exact hw w (hwaits ▸ h)
  intro off hoff
  rw [(saveNode_frees hnd hs).2, ht]
  refine (congrArg (memGet · (csaSlot s slot + off)) (freeTile_mem hno)).trans ?_
  rw [hsaved]
  exact hpool off hoff

end Save

/-! ## The restoration of a node (18 R414 to R416) -/

section Restore

variable {s u : State} {n tile slot : Nat} {nd : Node} {x : SavedCtx}

/-- What a restore has met in the slots of a node. -/
def slotsBad (s : State) (nd : Node) : List Due :=
  (nd.tiles.zip nd.slots).filterMap fun x => (slotBad s nd x.2).map fun y =>
    (⟨x.1, identOf 0 0 x.1, 0, ((mapGet? s.saved x.2).map (·.core.pc)).getD 0, marginDetail s x.1 y⟩ : Due)

theorem contextRestore_bad (hpick : pickTurn s (restoring s) = some n) (hnd : nodeGet? s n = some nd)
    (hbad : slotsBad s nd ≠ []) : contextRestore s = stopNode s n (slotsBad s nd) := by
  simp only [contextRestore, hpick, hnd]
  exact if_pos (by simpa [slotsBad] using hbad)

/-- The image's drain programs are read with a change of the free choices alone. -/
theorem sectionBytes_free (s : State) (nd : Node) (off k : Nat) : ∃ free, (sectionBytes s nd off k).1 = { s with free } := by
  unfold sectionBytes
  split
  · exact ⟨_, rfl⟩
  · exact ⟨_, rfl⟩

/-- A tile without commands of its fabric engine, or entries in its creel, is not changed by the last steps of a restore. -/
theorem fxRestored_idle (h : (engGet (tileGet s tile) 7).runs = []) : fxRestored s tile = s := by
  simp only [fxRestored, h]

theorem wakePhase_empty (h : (tileGet s tile).creel = []) : wakePhase s tile = s := by
  simp only [wakePhase, h]
  split
  · rfl
  · split <;> rfl

/-- Memory, and where the context save pool lies in it, stand. -/
structure SlotsStand (s u : State) : Prop where
  mem : u.mem = s.mem
  hostMem0 : u.hostMem0 = s.hostMem0
  hostMem1 : u.hostMem1 = s.hostMem1
  mgmt : u.mgmt = s.mgmt

theorem SlotsStand.csaSlot (h : SlotsStand s u) (k : Nat) : csaSlot u k = csaSlot s k := by
  rw [Machine.csaSlot, Machine.csaSlot, h.mgmt]

theorem SlotsStand.devByte (h : SlotsStand s u) (pa : Nat) : devByte u pa = devByte s pa := by
  rw [Machine.devByte, Machine.devByte, h.mem, h.hostMem0, h.hostMem1]

theorem SlotsStand.coreWord (h : SlotsStand s u) (a off : Nat) : coreWord u a off = coreWord s a off := by
  simp only [Machine.coreWord, devNat, devBytes, h.devByte]

theorem SlotsStand.coreBobbin (h : SlotsStand s u) (a : Nat) : coreBobbin u a = coreBobbin s a := by
  simp only [Machine.coreBobbin, h.coreWord]

theorem SlotsStand.slotRegs (h : SlotsStand s u) (a : Nat) : slotRegs u a = slotRegs s a := by
  simp only [Machine.slotRegs, h.coreWord, h.mem]

theorem SlotsStand.slotLoops (h : SlotsStand s u) (a : Nat) : slotLoops u a = slotLoops s a := by
  simp only [Machine.slotLoops, h.coreWord]

theorem SlotsStand.slotReels (h : SlotsStand s u) (a : Nat) : slotReels u a = slotReels s a := by
  simp only [Machine.slotReels, h.mem]

theorem slotCore_regs_loops (s : State) (a : Nat) (c : Core) (x : SavedCtx) :
    (slotCore s a c x).regs = slotRegs s a ∧ (slotCore s a c x).loops = slotLoops s a := by
  unfold slotCore
  exact ⟨by with_reducible rfl, by with_reducible rfl⟩

/-- A tile that goes on from a slot of a memory. -/
structure GoesOn (s : State) (slot : Nat) (x : SavedCtx) (t : Tile) : Prop where
  pool : t.pool = memSlice s.mem (csaSlot s slot) 0x600000 0
  running : t.running = if x.running then some (coreBobbin s (csaSlot s slot)) else none
  reels : t.reels = slotReels s (csaSlot s slot)
  regs : t.core.regs = slotRegs s (csaSlot s slot)
  loops : t.core.loops = slotLoops s (csaSlot s slot)
  halted : t.halted = false

/-- A tile in whose slot no command, request or waiter stood goes on from there (18 R414 to R416). -/
theorem restoreTile_quiet {drains : List (List Nat)} (ht : nd.tiles = [tile]) (hs : nd.slots = [slot])
    (hx : mapGet? s.saved slot = some x) (heng : x.engines = []) (hreq : x.core.reqs = []) (hcreel : x.creel = []) :
    (restoreTile n nd drains s 0).nodes = s.nodes ∧
      GoesOn s slot x (tileGet (restoreTile n nd drains s 0) tile) := by
  unfold restoreTile
  rw [ht, hs]
  dsimp -zeta only [List.getElem?_cons_zero]
  rw [hx]
  dsimp -zeta only
  extract_lets a t c own rest p lo s0 s1 s2 s3 s4
  have ht1 : tileGet s1 tile = _ := tileGet_tilePut_same ..
  have hrest : rest = [] := by
    unfold rest
    rw [heng]
    rfl
  have h2 : s2 = s1 := by
    unfold s2
    rw [heng]
    rfl
  have h3 : s3 = s1 := by
    unfold s3
    rw [h2]
    exact fxRestored_idle (by rw [ht1, hrest]; rfl)
  have h4 : s4 = s1 := by
    have hreqs : c.reqs = [] := by
      unfold c
      simp only [slotCore, hreq, List.map_nil]
    unfold s4
    rw [hreqs, h3]
    rfl
  have h5 : wakePhase ((x.creel.filter waitsReel).foldl (parkAgain tile) s4) tile = s1 := by
    have hnone : x.creel.filter waitsReel = [] := by rw [hcreel]; rfl
    rw [hnone, h4, List.foldl_nil]
    exact wakePhase_empty (by rw [ht1, hcreel]; rfl)
  obtain ⟨hregs, hloops⟩ := slotCore_regs_loops s a t.core x
  have h0 : SlotsStand s s0 := ⟨rfl, rfl, rfl, rfl⟩
  rw [h5, ht1]
  exact ⟨rfl, {
    pool := rfl, running := by rw [h0.coreBobbin], reels := h0.slotReels a, regs := hregs, loops := hloops, halted := rfl }⟩

/-- The package of a node that is about to restore its slots: the node runs, and its packs and agents name its tiles. -/
def restoreBegun (s : State) (n : Nat) (nd : Node) : State :=
  nodePut (nodeTilesMap (dropElsewhere (sectionBytes s nd (hf nd.hdr 0x30) (64 * hf nd.hdr 0x34)).1 n nd) n (rankTile nd.tiles)) n
    { nd with st := .running, restoring := false, diesLost := false }

/-- What stands in the slots is read as before. -/
theorem restoreBegun_keeps (s : State) (n : Nat) (nd : Node) : ∃ free tiles packs agents nodes,
    restoreBegun s n nd = { s with free, tiles, packs, agents, nodes } := by
  obtain ⟨free, h⟩ := sectionBytes_free s nd (hf nd.hdr 0x30) (64 * hf nd.hdr 0x34)
  rw [restoreBegun, h]
  exact ⟨_, _, _, _, _, rfl⟩

theorem restoreBegun_slots (s : State) (n : Nat) (nd : Node) : SlotsStand s (restoreBegun s n nd) := by
  obtain ⟨free, tiles, packs, agents, nodes, hbegun⟩ := restoreBegun_keeps s n nd
  rw [hbegun]
  exact ⟨rfl, rfl, rfl, rfl⟩

/-- Where memory stands, a tile goes on from the same slot. -/
theorem GoesOn.before {t : Tile} (h : GoesOn u slot x t) (hs : SlotsStand s u) : GoesOn s slot x t where
  pool := by rw [h.pool, hs.mem, hs.csaSlot]
  running := by rw [h.running, hs.csaSlot, hs.coreBobbin]
  reels := by rw [h.reels, hs.csaSlot, hs.slotReels]
  regs := by rw [h.regs, hs.csaSlot, hs.slotRegs]
  loops := by rw [h.loops, hs.csaSlot, hs.slotLoops]
  halted := h.halted

theorem contextRestore_single (hpick : pickTurn s (restoring s) = some n) (hnd : nodeGet? s n = some nd)
    (hbad : slotsBad s nd = []) (ht : nd.tiles = [tile]) (hdies : nd.diesLost = false) :
    ∃ drains, contextRestore s = restoreTile n nd drains (restoreBegun s n nd) 0 := by
  refine ⟨progsOf (sectionBytes s nd (hf nd.hdr 0x30) (64 * hf nd.hdr 0x34)).2 (hf nd.hdr 0x34), ?_⟩
  have hno : ¬ (!(slotsBad s nd).isEmpty) = true := by rw [hbad]; exact nofun
  simp only [contextRestore, hpick, hnd, hdies]
  refine (if_neg hno).trans ?_
  unfold restoreBegun
  generalize sectionBytes s nd (hf nd.hdr 0x30) (64 * hf nd.hdr 0x34) = y
  obtain ⟨u, bs⟩ := y
  rw [ht]
  rfl

theorem slotsBad_single (ht : nd.tiles = [tile]) (hs : nd.slots = [slot]) (hgood : slotBad s nd slot = none) :
    slotsBad s nd = [] := by
  simp [slotsBad, ht, hs, hgood]

end Restore

/-- Settles O54: the slots that a save writes, and the tiles that a restore makes from them. -/
theorem contextEvents : Obligations.ContextEvents := by
  unfold Obligations.ContextEvents
  intro s n nd hnd
  refine ⟨fun target hpick hs => ⟨?_, fun tile slot hr ht hslot hw => ?_⟩, fun hpick hs => ?_, fun hpick => ⟨?_, ?_⟩⟩
  case refine_1 =>
    refine ⟨_, congrArg Host.Outcome.next (contextSave_saving hpick hnd hs), fun t ht => ?_, fun htarget => ?_⟩
    · rw [tileGet_of_tiles (saveNode_frees hnd hs).1]
      have hf := freeTiles_freed ht (savedTiles s n nd target)
      exact ⟨hf.node, hf.creel, hf.running, hf.engines⟩
    · rw [saveNode_eq hnd hs htarget]
      exact ⟨_, nodeGet_nodePut_same .., rfl, rfl, rfl, rfl, rfl⟩
  case refine_2 =>
    exact ⟨_, congrArg Host.Outcome.next (contextSave_saving hpick hnd hs), saveNode_pool hnd hs hr ht hslot hw⟩
  case refine_3 =>
    refine congrArg Host.Outcome.next ?_
    simp only [contextSave, hpick, hnd, hs]
    rfl
  case refine_4 =>
    rintro bad rfl hbad
    exact congrArg Host.Outcome.next (contextRestore_bad hpick hnd hbad)
  case refine_5 =>
    intro tile slot x ht hslots hx hgood hdies heng hreq hcreel
    obtain ⟨drains, hu⟩ := contextRestore_single hpick hnd (slotsBad_single ht hslots hgood) ht hdies
    have hnode : nodeGet? (restoreBegun s n nd) n = some _ := nodeGet_nodePut_same ..
    obtain ⟨free, tiles, packs, agents, nodes, hbegun⟩ := restoreBegun_keeps s n nd
    have hsaved : mapGet? (restoreBegun s n nd).saved slot = some x := by rw [hbegun]; exact hx
    obtain ⟨hnodes, hgo⟩ := restoreTile_quiet (n := n) (drains := drains) ht hslots hsaved heng hreq hcreel
    refine ⟨_, congrArg Host.Outcome.next hu, ?_, ?_⟩
    · rw [nodeGet?, hnodes]
      exact congrArg (Option.map (·.st)) hnode
    · obtain ⟨hpool, hrun, hreels, hregs, hloops, hhalt⟩ := hgo.before (restoreBegun_slots s n nd)
      refine ⟨fun off hoff => ?_, hrun, hreels, hregs, hloops, hhalt⟩
      have hslice := memGet_memSlice s.mem (csaSlot s slot) 0x600000 0 hoff
      rw [Nat.zero_add] at hslice
      rw [hpool]
      exact hslice

end Sys2Proof.Machine
